-- ==== Sys2Proof/Word.lean ====
section
/-! DEFINITION. The word types of the block and the index types that R13 gives its units.
Layouts are little-endian throughout (R11). -/

namespace Sys2Proof

/-- A byte of memory, of a record or of a cell. -/
abbrev Byte := BitVec 8
/-- A 16-bit field of a record. -/
abbrev Half := BitVec 16
/-- A 32-bit setup register (R22). -/
abbrev Word := BitVec 32
/-- A 64-bit quantity: a host address, a fabric time, a counter. -/
abbrev DWord := BitVec 64
/-- A device address (R236): 40 bits. -/
abbrev DevAddr := BitVec 40
/-- An endpoint ID: 21 bits (R17, R18). -/
abbrev Endpoint := BitVec 21

/-- An optical port P0–P33 (R13). -/
abbrev Port := Fin 34
/-- A sublink Pp.s of a split port (R13). -/
abbrev Sub := Fin 16
/-- A wavelength channel 0–17 of a port (R345). -/
abbrev Chan := Fin 18
/-- A span S0–S7, and the stack of the same number (R13, R36). -/
abbrev SpanIx := Fin 8
/-- A physical core 0–143 (R13). -/
abbrev PCore := Fin 144
/-- A logical core 0–127 (R13). -/
abbrev LCore := Fin 128
/-- A housekeeping core HK[0..6] (R13). -/
abbrev HkIx := Fin 7
/-- A PCIe link 0–3 (R283). -/
abbrev LinkIx := Fin 4
/-- A function ID of a host port (R286). -/
abbrev Fid := BitVec 8
/-- A ring number, 0–32,767 (R297). -/
abbrev RingNo := BitVec 15
/-- One of the 64 step slots of the device (R86). -/
abbrev StepIx := Fin 64

end Sys2Proof
end

