-- ==== Sys2Proof/Syntax.lean ====
section
/-! DEFINITION. The commands of the block, one constructor for each row of the command table, each with its operands. -/

namespace Sys2Proof

/-- What an ECC check finds in the data of an access (R256, R266): a corrected symbol-code error or a read that fails to correct in a stack, a corrected error
or one that fails to correct in a Deck. -/
inductive EccKind where
  | hbmCe | hbmUe | deckCe | deckUe
  deriving DecidableEq, Repr

/-- An ECC event at a device address. -/
structure EccHit where
  addr : Nat
  kind : EccKind
  deriving DecidableEq, Repr


/-- A command sent to the block or an event that befalls it. -/
inductive Instr where
  /-- REGISTER_WRITE (R27). -/
  | registerWrite (req : Fin 8) (offset : BitVec 26) (value : Word)
  /-- W1C_WRITE (R28). -/
  | w1cWrite (req : Fin 8) (offset : BitVec 26) (value : Word)
  /-- RC_FIELD_READ (R29). -/
  | rcFieldRead (req : Fin 8) (offset : BitVec 26)
  /-- PAIR_LOW_READ (R23). -/
  | pairLowRead (req : Fin 8) (offset : BitVec 26)
  /-- PAIR_HIGH_READ (R23). -/
  | pairHighRead (req : Fin 8) (offset : BitVec 26)
  /-- PAIR_64BIT_ACCESS (R23). -/
  | pair64bitAccess (req : Fin 8) (offset : BitVec 26) (write : Option DWord)
  /-- NARROW_READ (R25). -/
  | narrowRead (req : Fin 8) (offset : BitVec 26) (half : Bool)
  /-- BAD_ACCESS (R24). -/
  | badAccess (req : Fin 8) (offset : BitVec 26) (size : Fin 4) (write : Bool)
  /-- UNMAPPED_ACCESS (R26). -/
  | unmappedAccess (req : Fin 8) (offset : BitVec 26) (size : Fin 4) (write : Bool)
  /-- SETUP_LOCK_WRITE (R296). -/
  | setupLockWrite (req : Fin 8) (value : Word)
  /-- RESET_BLOCKED_ACCESS (R665). -/
  | resetBlockedAccess (req : Fin 8) (offset : BitVec 26) (size : Fin 4) (write : Bool)
  /-- DIL_VALID_WRITE (R244). -/
  | dilValidWrite (req : Fin 8) (region : Fin 16) (value : Word)
  /-- DECK_SPLIT_WRITE (R253). -/
  | deckSplitWrite (req : Fin 8) (span : SpanIx) (value : Word)
  /-- DECK_SPLIT_APPLY (R254). -/
  | deckSplitApply (span : SpanIx)
  /-- CTL_ENABLE_WRITE (R336). -/
  | ctlEnableWrite (req : Fin 8) (ring : Fin 8) (value : Word)
  /-- LNK_CFG_WRITE (R390). -/
  | lnkCfgWrite (port : Port) (value : Word)
  /-- CHK_PRESET_CFG_WRITE (R492). -/
  | chkPresetCfgWrite (req : Fin 8) (preset : Fin 16) (value : Word)
  /-- TRACE_ENABLE_WRITE (R724). -/
  | traceEnableWrite (req : Fin 8) (core : LCore) (value : Word)
  /-- POR_RELEASE (R602). -/
  | porRelease (loc : BitVec 20) (plan : BitVec 3) (par : Bool)
  /-- POR_ASSERT (R577). -/
  | porAssert 
  /-- VIN_AON_LOSS (R629). -/
  | vinAonLoss 
  /-- RAIL_OUT_OF_RANGE (R578). -/
  | railOutOfRange (rail : Fin 5) (mv : Half)
  /-- RAIL_RESTORED (R578). -/
  | railRestored (rail : Fin 5)
  /-- BOOT_STAGE_DONE (R602). -/
  | bootStageDone (stage : Fin 7) (die : Fin 10) (ok : Bool) (bad0 bad1 : BitVec 18)
  /-- STACK_TRAIN_ATTEMPT_DONE (R604). -/
  | stackTrainAttemptDone (stack : SpanIx) (ok : Bool)
  /-- SPAN_READY (R606). -/
  | spanReady (span : SpanIx)
  /-- STACK_HANDOVER (R45). -/
  | stackHandover (stack : SpanIx)
  /-- PERST_ASSERT (R335). -/
  | perstAssert (port : Fin 2) (ptrs : List (RingNo × Bool × Word))
  /-- PERST_RELEASE (R284). -/
  | perstRelease (port : Fin 2) (strapBif : Bool)
  /-- FUNCTION_LEVEL_RESET (R292). -/
  | functionLevelReset (fid : Fid)
  /-- HOST_LINK_FAIL (R338). -/
  | hostLinkFail (link : LinkIx) (readFailed : Bool) (ptrs : List (RingNo × Bool × Word))
  /-- IDE_SECURE_LOSS (R295). -/
  | ideSecureLoss (link : LinkIx) (stream : Fin 5) (ptrs : List (RingNo × Bool × Word))
  /-- DOORBELL_POLL (R323). -/
  | doorbellPoll (fid : Fid)
  /-- SUMMARY_SWAP_DONE (R323). -/
  | summarySwapDone (fid : Fid) (word : Fin 512) (bits : DWord)
  /-- BELL_WRITE (R324). -/
  | bellWrite (fid : Fid) (value : Word)
  /-- SQ_RECORD_READ_DONE (R300). -/
  | sqRecordReadDone (sq : RingNo) (tail : Word)
  /-- DESCRIPTOR_FETCH (R306). -/
  | descriptorFetch (sq : RingNo) (desc : Option (List Byte))
  /-- CQ_HEAD_READ (R317). -/
  | cqHeadRead (cq : RingNo) (head : Word)
  /-- RECORD_POST (R319). -/
  | recordPost (cq : RingNo)
  /-- IRQ_COALESCE_TIMEOUT (R320). -/
  | irqCoalesceTimeout (cq : RingNo)
  /-- NOP (R310). -/
  | nop (sq : RingNo)
  /-- STEP_SUBMIT (R307). -/
  | stepSubmit (sq : RingNo)
  /-- HOST_COPY (R309). -/
  | hostCopy (sq : RingNo)
  /-- HOST_COPY_DONE (R309). -/
  | hostCopyDone (sq : RingNo) (data : List Byte) (fail : Option Word) (hits : List EccHit)
  /-- RING_CREATE (R328). -/
  | ringCreate (sq : RingNo)
  /-- RING_DESTROY (R329). -/
  | ringDestroy (sq : RingNo)
  /-- RING_DESTROY_DONE (R329). -/
  | ringDestroyDone (ring : RingNo)
  /-- RING_MOVE (R340). -/
  | ringMove (sq : RingNo) (ptr : Word)
  /-- FUNC_CONFIG (R330). -/
  | funcConfig (sq : RingNo)
  /-- GRAPH_REGISTER (R71). -/
  | graphRegister (sq : RingNo)
  /-- GRAPH_UNREGISTER (R76). -/
  | graphUnregister (sq : RingNo)
  /-- RESOLVE_STEP (R332). -/
  | resolveStep (sq : RingNo)
  /-- STREAM_OPEN (R194). -/
  | streamOpen (sq : RingNo) (img : Option (List Byte))
  /-- STREAM_SET (R194). -/
  | streamSet (sq : RingNo) (img : Option (List Byte))
  /-- STREAM_HOLD (R194). -/
  | streamHold (sq : RingNo)
  /-- STREAM_RELEASE (R194). -/
  | streamRelease (sq : RingNo)
  /-- STREAM_CLOSE (R194). -/
  | streamClose (sq : RingNo)
  /-- STREAM_PIN (R199). -/
  | streamPin (sq : RingNo)
  /-- STREAM_UNPIN (R194). -/
  | streamUnpin (sq : RingNo)
  /-- STREAM_READ (R194). -/
  | streamRead (sq : RingNo) (ok : Bool)
  /-- STREAM_IMPORT (R675). -/
  | streamImport (sq : RingNo) (img : Option (List Byte))
  /-- HBM_RETIRE (R269). -/
  | hbmRetire (sq : RingNo)
  /-- HBM_REKEY (R242). -/
  | hbmRekey (sq : RingNo)
  /-- HBM_TEST (R274). -/
  | hbmTest (sq : RingNo)
  /-- HBM_BIST_DONE (R274). -/
  | hbmBistDone (stack : SpanIx) (failing : List (Fin 94208))
  /-- POWER_CAP (R52). -/
  | powerCap (sq : RingNo)
  /-- STREAM_CTX_COPY_DONE (R190). -/
  | streamCtxCopyDone (slot : StepIx)
  /-- STREAM_CACHE_FETCH_DONE (R197). -/
  | streamCacheFetchDone (stream : Half)
  /-- START_TIME_REACHED (R560). -/
  | startTimeReached (slot : StepIx)
  /-- STEP_RUN (R88). -/
  | stepRun (slot : StepIx)
  /-- TILE_EMIT (R59). -/
  | tileEmit (slot : StepIx) (who : List (LCore × Byte))
  /-- TILE_ARRIVE (R125). -/
  | tileArrive (slot : StepIx) (queue : BitVec 12)
  /-- SLOT_RELEASE (R59). -/
  | slotRelease (slot : StepIx) (queue : BitVec 12)
  /-- CREDIT_ARRIVE (R59). -/
  | creditArrive (slot : StepIx) (queue : BitVec 12)
  /-- END_OP (R68). -/
  | endOp (slot : StepIx) (core : LCore) (inst : Byte)
  /-- STEP_DRAIN_END (R64). -/
  | stepDrainEnd (slot : StepIx)
  /-- STEP_FAULT (R109). -/
  | stepFault (slot : StepIx) (cause : Half) (core : LCore) (inst : Byte)
  /-- ABORT_QUIESCE_DONE (R110). -/
  | abortQuiesceDone (slot : StepIx)
  /-- ABORT_STOP_TIMEOUT (R658). -/
  | abortStopTimeout (slot : StepIx) (core : LCore) (inst : Byte)
  /-- DEADLINE_EXPIRE (R88). -/
  | deadlineExpire (slot : StepIx)
  /-- IN_DOUBT_TIMEOUT (R88). -/
  | inDoubtTimeout (slot : StepIx)
  /-- READY_RECEIVE (R98). -/
  | readyReceive (src : Endpoint)
  /-- DECIDE_RECEIVE (R99). -/
  | decideReceive (src : Endpoint)
  /-- DECIDE_ACK_RECEIVE (R101). -/
  | decideAckReceive (src : Endpoint)
  /-- DECIDE_ACK_TIMEOUT (R102). -/
  | decideAckTimeout (slice : Half) (seq : BitVec 48) (attempt : Fin 16)
  /-- TAKEOVER_COMMIT_TIMEOUT (R99). -/
  | takeoverCommitTimeout (slot : StepIx)
  /-- TAKEOVER_ABORT_TIMEOUT (R99). -/
  | takeoverAbortTimeout (slot : StepIx)
  /-- DECISION_RECEIVE (R104). -/
  | decisionReceive (src : Endpoint)
  /-- ABORT_CELL_RECEIVE (R88). -/
  | abortCellReceive (src : Endpoint)
  /-- PASS (R148). -/
  | pass (slot : StepIx) (core : LCore)
  /-- TRESTLE_PASS_ISSUE (R134). -/
  | trestlePassIssue (slot : StepIx) (core : LCore)
  /-- TRESTLE_GROUP_FEED (R128). -/
  | trestleGroupFeed (slot : StepIx) (core : LCore) (lost : Bool) (ecc : Fin 3) (off : Nat)
  /-- TRESTLE_DRAIN_START (R133). -/
  | trestleDrainStart (slot : StepIx) (core : LCore)
  /-- TRESTLE_TILE_OUT (R146). -/
  | trestleTileOut (slot : StepIx) (core : LCore)
  /-- TRESTLE_PARITY_ERROR (R152). -/
  | trestleParityError (slot : StepIx) (core : LCore) (line : Nat)
  /-- DECODE (R149). -/
  | decode (slot : StepIx) (core : LCore)
  /-- CODEBOOK_TILE_DECODE (R141). -/
  | codebookTileDecode (slot : StepIx) (core : LCore)
  /-- CONVERT (R174). -/
  | convert (slot : StepIx) (core : LCore) (ix : Fin 2)
  /-- EWISE (R201). -/
  | ewise (slot : StepIx) (core : LCore)
  /-- MAP (R203). -/
  | map (slot : StepIx) (core : LCore)
  /-- REDUCE (R205). -/
  | reduce (slot : StepIx) (core : LCore)
  /-- SOFTMAX (R206). -/
  | softmax (slot : StepIx) (core : LCore)
  /-- NORM (R207). -/
  | norm (slot : StepIx) (core : LCore)
  /-- TOPK (R208). -/
  | topk (slot : StepIx) (core : LCore)
  /-- ATTEND (R217). -/
  | attend (slot : StepIx) (core : LCore) (hits : List EccHit)
  /-- COMPACT (R221). -/
  | compact (slot : StepIx) (core : LCore)
  /-- ROUTE (R224). -/
  | route (slot : StepIx) (core : LCore)
  /-- DRAW (R231). -/
  | draw (slot : StepIx) (core : LCore)
  /-- ACCEPT (R232). -/
  | accept (slot : StepIx) (core : LCore)
  /-- LOAD (R262). -/
  | load (slot : StepIx) (core : LCore) (ix : Fin 4) (hits : List EccHit)
  /-- STORE (R262). -/
  | store (slot : StepIx) (core : LCore) (ix : Fin 2) (hits : List EccHit)
  /-- KV_APPEND (R265). -/
  | kvAppend (slot : StepIx) (core : LCore) (ix : Fin 2)
  /-- PATROL_SCRUB (R268). -/
  | patrolScrub (stack : SpanIx) (hits : List EccHit)
  /-- RETIREMENT_COPY_DONE (R270). -/
  | retirementCopyDone (stack : SpanIx) (bad : List (Fin 8192)) (faulty : Fin 4097)
  /-- SKEW_WINDOW_END (R276). -/
  | skewWindowEnd (stack : SpanIx)
  /-- COMBINE_LINE_IDLE (R462). -/
  | combineLineIdle (span : SpanIx)
  /-- SPAN_RESET_ENTER (R255). -/
  | spanResetEnter (span : SpanIx)
  /-- QUEUE (R468). -/
  | queue (slot : StepIx) (core : LCore) (receive : Bool) (ix : Fin 4)
  /-- QUEUE_CREDIT_RECEIVE (R469). -/
  | queueCreditReceive (src : Endpoint)
  /-- QUEUE_CELL_RECEIVE (R472). -/
  | queueCellReceive (src : Endpoint)
  /-- QUEUE_CHANNEL_FREE (R468). -/
  | queueChannelFree (chan : BitVec 12)
  /-- PUT (R452). -/
  | put (slot : StepIx) (core : LCore) (ix : Fin 4)
  /-- COPY (R464). -/
  | copy (slot : StepIx) (core : LCore) (ix : Fin 4)
  /-- COPY_COMPLETE (R467). -/
  | copyComplete (die : Fin 4) (engine : Fin 16)
  /-- ATOMIC (R454). -/
  | atomic (slot : StepIx) (core : LCore) (ix : Fin 4)
  /-- FENCE (R477). -/
  | fence (slot : StepIx) (core : LCore) (ix : Fin 4)
  /-- FLAG (R455). -/
  | flag (slot : StepIx) (core : LCore) (ix : Fin 4)
  /-- GET (R453). -/
  | get (slot : StepIx) (core : LCore) (ix : Fin 4)
  /-- LOAD_ATOMIC_ENGINE_SLOT (R450). -/
  | loadAtomicEngineSlot (span : SpanIx)
  /-- RD_REQ_RECEIVE (R461). -/
  | rdReqReceive (src : Endpoint) (hits : List EccHit)
  /-- WR_RECEIVE (R461). -/
  | wrReceive (src : Endpoint)
  /-- ATOMIC_RECEIVE (R456). -/
  | atomicReceive (src : Endpoint)
  /-- COPY_RECEIVE (R466). -/
  | copyReceive (src : Endpoint)
  /-- COPY_ACK_FLUSH (R466). -/
  | copyAckFlush (src : Endpoint) (reqId : Half)
  /-- RD_RSP_RECEIVE (R458). -/
  | rdRspReceive (src : Endpoint)
  /-- WR_ACK_RECEIVE (R458). -/
  | wrAckReceive (src : Endpoint)
  /-- ATOMIC_RSP_RECEIVE (R458). -/
  | atomicRspReceive (src : Endpoint)
  /-- ERROR_RSP_RECEIVE (R460). -/
  | errorRspReceive (src : Endpoint)
  /-- REMOTE_TIMEOUT (R460). -/
  | remoteTimeout (reqId : Half)
  /-- WAIT_GE (R479). -/
  | waitGe (slot : StepIx) (core : LCore) (ix : Fin 2)
  /-- WAIT_GE_SATISFIED (R479). -/
  | waitGeSatisfied (slot : StepIx) (core : LCore) (ix : Fin 2)
  /-- APPEND (R484). -/
  | append (slot : StepIx) (core : LCore) (ix : Fin 2)
  /-- VERIFY (R486). -/
  | verify (slot : StepIx) (core : LCore) (ix : Fin 2)
  /-- WINDOW_WRITE (R487). -/
  | windowWrite (sq : RingNo) (data : List Byte)
  /-- SLICE_WRITE (R439). -/
  | sliceWrite (sq : RingNo) (data : Option (List Byte))
  /-- RUN (R494). -/
  | run (slot : StepIx) (core : LCore)
  /-- COLLECT_SLOT_FREE (R494). -/
  | collectSlotFree (slot : StepIx) (seq : Fin 16)
  /-- COLLECT_DATA_START (R495). -/
  | collectDataStart (core : LCore)
  /-- GRANT_RECEIVE (R511). -/
  | grantReceive (src : Endpoint)
  /-- COLLECT_DATA_RECEIVE (R513). -/
  | collectDataReceive (src : Endpoint)
  /-- SIZES_RECEIVE (R513). -/
  | sizesReceive (src : Endpoint) (entries : List DWord)
  /-- COLLECT_CHUNK_SEND (R512). -/
  | collectChunkSend (core : LCore)
  /-- COLLECT_COMPLETE (R513). -/
  | collectComplete (core : LCore)
  /-- COLLECT_RESEND_TIMEOUT (R514). -/
  | collectResendTimeout (core : LCore) (node : Half) (rep : Byte) (peer : Half)
  /-- COLLECT_GATE_OPEN (R521). -/
  | collectGateOpen (core : LCore)
  /-- CELL_ROUTE (R411). -/
  | cellRoute (port : Option Port)
  /-- KEYSTONE_ADMIT (R422). -/
  | keystoneAdmit (port : Port) (sub : Sub)
  /-- LANDING_TO_INPUT (R407). -/
  | landingToInput (port : Port)
  /-- CELL_TRANSMIT (R425). -/
  | cellTransmit (port : Port) (sub : Sub)
  /-- SUBPORT_REROUTE (R419). -/
  | subportReroute (port : Port) (sub : Sub)
  /-- CREDIT_CELL_RECEIVE (R409). -/
  | creditCellReceive (port : Port) (sub : Sub)
  /-- CREDIT_CELL_SEND (R409). -/
  | creditCellSend (port : Port) (sub : Sub)
  /-- CREDIT_STALL_TIMEOUT (R410). -/
  | creditStallTimeout (port : Port) (sub : Sub)
  /-- K_STALL_TIMEOUT (R410). -/
  | kStallTimeout (port : Port) (sub : Sub)
  /-- SLOW_DEST_MARK (R430). -/
  | slowDestMark (group : BitVec 12)
  /-- TELEMETRY_SAMPLE (R429). -/
  | telemetrySample 
  /-- TELEMETRY_INTERVAL_END (R431). -/
  | telemetryIntervalEnd 
  /-- RTE_WRITE (R420). -/
  | rteWrite (sq : RingNo) (data : List Byte)
  /-- PSET_WRITE (R420). -/
  | psetWrite (sq : RingNo) (data : List Byte)
  /-- OVR_WRITE (R420). -/
  | ovrWrite (sq : RingNo) (data : List Byte)
  /-- FILTER_WRITE (R428). -/
  | filterWrite (sq : RingNo) (data : List Byte)
  /-- PORT_ROLE (R402). -/
  | portRole (sq : RingNo)
  /-- ENDPOINT_ASSIGN (R398). -/
  | endpointAssign (sq : RingNo)
  /-- TELEMETRY_CFG (R433). -/
  | telemetryCfg (sq : RingNo)
  /-- TELEMETRY_READ (R432). -/
  | telemetryRead (sq : RingNo) (ok : Bool)
  /-- CODEWORD_TRANSMIT (R353). -/
  | codewordTransmit (port : Port) (sub : Sub)
  /-- CODEWORD_RECEIVE (R354). -/
  | codewordReceive (port : Port) (sub : Sub) (n : DWord) (lanes : List (Option (List (BitVec 10))))
  /-- NAK_RECEIVE (R359). -/
  | nakReceive (port : Port) (sub : Sub)
  /-- REPLAY_RECEIVE (R358). -/
  | replayReceive (port : Port) (sub : Sub)
  /-- NAK_LOST (R361). -/
  | nakLost (port : Port) (sub : Sub)
  /-- FILL_RECEIVE (R356). -/
  | fillReceive (port : Port) (sub : Sub)
  /-- TRAIN_RECEIVE (R376). -/
  | trainReceive (port : Port) (sub : Sub)
  /-- LOCK_ACQUIRED (R376). -/
  | lockAcquired (port : Port) (sub : Sub) (ok : BitVec 18) (lanes : List (Chan × Byte × Byte × BitVec 12))
  /-- IDENT_RECEIVE (R371). -/
  | identReceive (port : Port) (sub : Sub)
  /-- CERT_RECEIVE (R372). -/
  | certReceive (port : Port) (sub : Sub)
  /-- AUTH_RECEIVE (R372). -/
  | authReceive (port : Port) (sub : Sub)
  /-- ECHO_REQ_RECEIVE (R539). -/
  | echoReqReceive (port : Port) (sub : Sub)
  /-- ECHO_RSP_RECEIVE (R540). -/
  | echoRspReceive (port : Port) (sub : Sub) (frac : Half)
  /-- ECHO_REQ_SEND (R539). -/
  | echoReqSend (port : Port) (sub : Sub)
  /-- LANEMAP_RECEIVE (R366). -/
  | lanemapReceive (port : Port) (sub : Sub)
  /-- SWING_CHECK_RECEIVE (R381). -/
  | swingCheckReceive (port : Port) (sub : Sub)
  /-- LOCK_TIMEOUT (R376). -/
  | lockTimeout (port : Port) (sub : Sub)
  /-- IDENT_TIMEOUT (R376). -/
  | identTimeout (port : Port) (sub : Sub)
  /-- NO_LIGHT_TIMEOUT (R376). -/
  | noLightTimeout (port : Port) (sub : Sub)
  /-- NAK_STORM (R376). -/
  | nakStorm (port : Port) (sub : Sub)
  /-- HEATER_UPDATE (R348). -/
  | heaterUpdate (port : Port) (rings : List (Chan × Bool × Int × Int))
  /-- LANE_FAIL (R366). -/
  | laneFail (port : Port) (chan : Chan) (rx laser : Bool)
  /-- SPARE_LASER_TUNED (R367). -/
  | spareLaserTuned (port : Port) (laser : Chan)
  /-- LASER_BIAS_SET (R350). -/
  | laserBiasSet (port : Port) (bias : List (Chan × Half)) (eol : List Chan)
  /-- SWING (R381). -/
  | swing (entry : Fin 256)
  /-- SWING_RELOCK (R381). -/
  | swingRelock (port : Port)
  /-- SWING_TIMEOUT (R382). -/
  | swingTimeout (port : Port)
  /-- OPEN_FIBRE_SHUTDOWN (R384). -/
  | openFibreShutdown (port : Port)
  /-- OPEN_FIBRE_PROBE (R384). -/
  | openFibreProbe (port : Port)
  /-- FAR_LIGHT_DETECT (R384). -/
  | farLightDetect (port : Port)
  /-- DISABLE (R387). -/
  | disable (sq : RingNo)
  /-- ENABLE (R387). -/
  | enable (sq : RingNo)
  /-- RETRAIN (R387). -/
  | retrain (sq : RingNo)
  /-- RELEASE (R387). -/
  | release (sq : RingNo)
  /-- ACCEPT_PEER (R387). -/
  | acceptPeer (sq : RingNo)
  /-- SET_MODE (R387). -/
  | setMode (sq : RingNo)
  /-- SUBSTITUTE (R369). -/
  | substitute (sq : RingNo)
  /-- UNSUBSTITUTE (R387). -/
  | unsubstitute (sq : RingNo)
  /-- PORT_EXPECT (R388). -/
  | portExpect (sq : RingNo)
  /-- PRESET_WRITE (R388). -/
  | presetWrite (sq : RingNo)
  /-- TOD_RECORD_WRITE (R534). -/
  | todRecordWrite (rec : List Byte)
  /-- PPS_EDGE (R536). -/
  | ppsEdge 
  /-- PPS_TIMEOUT (R535). -/
  | ppsTimeout 
  /-- TIME_SOURCE_LOSS (R542). -/
  | timeSourceLoss 
  /-- HOLDOVER_TIMEOUT (R542). -/
  | holdoverTimeout 
  /-- GATE_ENTRY_BOUNDARY (R546). -/
  | gateEntryBoundary (port : Port)
  /-- GATE_TAKEOVER (R550). -/
  | gateTakeover (port : Port)
  /-- PAUSE_RECEIVE (R552). -/
  | pauseReceive (port : Port) (sub : Sub)
  /-- PAUSE_EXPIRE (R552). -/
  | pauseExpire (port : Port) (sub : Sub)
  /-- PAUSE_ABUSE_TIMEOUT (R554). -/
  | pauseAbuseTimeout (port : Port) (sub : Sub)
  /-- PAUSE_IGNORE_END (R554). -/
  | pauseIgnoreEnd (port : Port) (sub : Sub)
  /-- STEP_START (R561). -/
  | stepStart (entry : Fin 256)
  /-- THERMAL_SYNC_ACTION (R622). -/
  | thermalSyncAction (entry : Fin 256)
  /-- INJECT (R556). -/
  | inject (entry : Fin 256)
  /-- PAUSE_SEND (R556). -/
  | pauseSend (entry : Fin 256)
  /-- ACTION_LATE (R557). -/
  | actionLate (entry : Fin 256)
  /-- ACTION_SKIPPED (R557). -/
  | actionSkipped (entry : Fin 256)
  /-- SOURCE (R563). -/
  | source (sq : RingNo)
  /-- STEP (R538). -/
  | step (sq : RingNo)
  /-- ASYM (R540). -/
  | asym (sq : RingNo)
  /-- PAUSE (R563). -/
  | pause (sq : RingNo)
  /-- GATE_WRITE (R550). -/
  | gateWrite (sq : RingNo) (data : Option (List Byte))
  /-- ACTION_WRITE (R559). -/
  | actionWrite (sq : RingNo) (data : List Byte)
  /-- REG_PHASE_FAIL (R581). -/
  | regPhaseFail (span : SpanIx) (phase : Fin 24)
  /-- HBM_PHASE_FAIL (R583). -/
  | hbmPhaseFail (stack : SpanIx)
  /-- CLOCK_CHANGE (R586). -/
  | clockChange (span : SpanIx)
  /-- DIDT_WINDOW (R588). -/
  | didtWindow (span : SpanIx)
  /-- DIDT_DROOP (R588). -/
  | didtDroop (span : SpanIx)
  /-- POWER_LIMIT_EVENT (R589). -/
  | powerLimitEvent (watts : Half)
  /-- MARUL_CAP_EXCHANGE (R599). -/
  | marulCapExchange (link : Fin 7) (first second : List Byte) (repaired : Byte)
  /-- MARUL_FLIT_RECEIVE (R595). -/
  | marulFlitReceive (link : Fin 7) (rev : Bool) (sent recv : List Byte)
  /-- MARUL_NAK_RECEIVE (R595). -/
  | marulNakReceive (link : Fin 7) (rev : Bool)
  /-- MARUL_ACK_DUE (R595). -/
  | marulAckDue (link : Fin 7) (rev : Bool)
  /-- MARUL_LINK_DOWN (R596). -/
  | marulLinkDown (link : Fin 7) (lanes : Bool)
  /-- MARUL_LINK_RESTORE (R596). -/
  | marulLinkRestore (link : Fin 7)
  /-- SENSOR_CONVERSION (R615). -/
  | sensorConversion (sensor : Fin 96) (raw : BitVec 20)
  /-- ROUND_START (R618). -/
  | roundStart 
  /-- ROUND_PUBLISH (R618). -/
  | roundPublish (stackTemps : List (Option Half)) (vmon imon : List Half) (watts : Half)
  /-- THROTTLE_LOOP (R626). -/
  | throttleLoop (core : HkIx) (req0 req1 : BitVec 11)
  /-- HK_FIRMWARE_WRITE (R633). -/
  | hkFirmwareWrite (core : HkIx) (field target : Byte) (value : Word)
  /-- HK_WATCHDOG_TIMEOUT (R636). -/
  | hkWatchdogTimeout (core : HkIx)
  /-- HK_CORE_FAULT (R636). -/
  | hkCoreFault (core : HkIx)
  /-- HK_LOAD (R635). -/
  | hkLoad (sq : RingNo) (data : Option (List Byte))
  /-- HK_START (R635). -/
  | hkStart (core : HkIx)
  /-- HK_RESTART (R639). -/
  | hkRestart (sq : RingNo)
  /-- HK_STOP (R639). -/
  | hkStop (sq : RingNo)
  /-- THERMAL_SET (R642). -/
  | thermalSet (sq : RingNo)
  /-- THERMAL_SYNC (R622). -/
  | thermalSync (sq : RingNo)
  /-- THERMAL_READ (R642). -/
  | thermalRead (sq : RingNo) (ok : Bool)
  /-- NO_PROGRESS_TIMEOUT (R657). -/
  | noProgressTimeout (slot : StepIx) (core : LCore) (inst : Byte)
  /-- RECOVERY_WINDOW_END (R668). -/
  | recoveryWindowEnd 
  /-- L2 (R661). -/
  | l2 (sq : RingNo)
  /-- L3 (R661). -/
  | l3 (sq : RingNo)
  /-- L4 (R333). -/
  | l4 (sq : RingNo)
  /-- RESET_COMPLETE (R665). -/
  | resetComplete (ix : Fin 64)
  /-- RESET_RELEASE (R664). -/
  | resetRelease (sq : RingNo)
  /-- CORE_SWAP (R677). -/
  | coreSwap (sq : RingNo)
  /-- CORE_TEST (R678). -/
  | coreTest (sq : RingNo)
  /-- CORE_TEST_DONE (R678). -/
  | coreTestDone (core : PCore) (pass : Bool)
  /-- CORE_RETIRE (R679). -/
  | coreRetire (sq : RingNo)
  /-- LOG_READ (R653). -/
  | logRead (sq : RingNo) (ok : Bool)
  /-- INJECT_PLAN (R683). -/
  | injectPlan (sq : RingNo) (data : Option (List Byte))
  /-- INJECT_START (R685). -/
  | injectStart (sq : RingNo)
  /-- INJECT_CANCEL (R688). -/
  | injectCancel (sq : RingNo)
  /-- WAVELENGTH_DROP (R684). -/
  | wavelengthDrop (plan : Fin 16)
  /-- CODEWORD_CORRUPT (R684). -/
  | codewordCorrupt (plan : Fin 16) (excess : Bool)
  /-- HBM_CE (R684). -/
  | hbmCe (plan : Fin 16)
  /-- HBM_POISON (R684). -/
  | hbmPoison (plan : Fin 16)
  /-- STATION_HANG (R684). -/
  | stationHang (plan : Fin 16)
  /-- SENSOR (R684). -/
  | sensor (plan : Fin 16)
  /-- HK_STOP_INJECT (R684). -/
  | hkStopInject (plan : Fin 16)
  /-- SPARE_ROTATE_DUE (R680). -/
  | spareRotateDue (span : SpanIx)
  /-- GET_VERSION (R701). -/
  | getVersion (chan : Fin 5)
  /-- GET_CAPABILITIES (R701). -/
  | getCapabilities (chan : Fin 5)
  /-- NEGOTIATE_ALGORITHMS (R701). -/
  | negotiateAlgorithms (chan : Fin 5) (offered : Bool)
  /-- GET_DIGESTS (R701). -/
  | getDigests (chan : Fin 5)
  /-- GET_CERTIFICATE (R697). -/
  | getCertificate (chan : Fin 5) (slot : Byte) (offset length : Half)
  /-- CHALLENGE (R703). -/
  | challenge (chan : Fin 5) (slot : Byte) (nonce : List Byte)
  /-- GET_MEASUREMENTS (R702). -/
  | getMeasurements (chan : Fin 5) (sign : Bool) (index : Byte) (nonce : List Byte)
  /-- KEY_EXCHANGE (R701). -/
  | keyExchange (chan : Fin 5) (slot : Byte) (share : List Byte)
  /-- FINISH (R701). -/
  | finish (chan : Fin 5) (session : Half) (verified : Bool)
  /-- HEARTBEAT (R701). -/
  | heartbeat (chan : Fin 5) (session : Half)
  /-- KEY_UPDATE (R701). -/
  | keyUpdate (chan : Fin 5) (session : Half) (op : Fin 3)
  /-- END_SESSION (R701). -/
  | endSession (chan : Fin 5) (session : Half)
  /-- OWNER_BIND (R696). -/
  | ownerBind (sq : RingNo) (data : Option (List Byte))
  /-- OWNER_REVOKE (R696). -/
  | ownerRevoke (sq : RingNo)
  /-- OWNER_RELEASE (R713). -/
  | ownerRelease (sq : RingNo)
  /-- SVN_ADVANCE (R700). -/
  | svnAdvance (sq : RingNo)
  /-- DEBUG_CHALLENGE (R708). -/
  | debugChallenge (sq : RingNo) (ok : Bool)
  /-- DEBUG_UNLOCK (R710). -/
  | debugUnlock (sq : RingNo) (token : Option (List Byte)) (ptrs : List (RingNo × Bool × Word))
  /-- DEBUG_ERASE_DONE (R711). -/
  | debugEraseDone 
  /-- LINE_KEY (R704). -/
  | lineKey (sq : RingNo) (data : Option (List Byte))
  /-- LINE_KEY_ACTIVATE (R705). -/
  | lineKeyActivate (port : Port) (sub : Sub)
  /-- CORE_POWER (R714). -/
  | corePower (sq : RingNo)
  /-- PORT_POWER (R716). -/
  | portPower (sq : RingNo)
  /-- CORE_IDLE_ENTER (R714). -/
  | coreIdleEnter (core : LCore)
  /-- CORE_PARK (R720). -/
  | corePark (core : LCore)
  /-- CORE_WAKE_DONE (R715). -/
  | coreWakeDone (core : LCore)
  /-- POWER_ON (R602). -/
  | powerOn 
  /-- HOST_LINK_UP (R606). -/
  | hostLinkUp (link : LinkIx) (speed : Fin 7) (width : Fin 17) (atomics : Bool)
  /-- HOST_LINK_DOWN (R338). -/
  | hostLinkDown (link : LinkIx)
  /-- D3HOT (R285). -/
  | d3hot (fid : Fid) (enter : Bool)
  /-- VF_ENABLE_WRITE (R292). -/
  | vfEnableWrite (fid : Fid) (enable : Bool)
  /-- MSIX_UNMASK (R320). -/
  | msixUnmask (fid : Fid) (vec : Fin 2048)
  /-- IDE_KM (R293). -/
  | ideKm (link : LinkIx) (session : Half) (stream : Fin 5)
  /-- DOE_DISCOVERY (R294). -/
  | doeDiscovery (link : LinkIx) (index : Byte)
  /-- OPEN_FIBRE_PROBE_END (R384). -/
  | openFibreProbeEnd (port : Port)
  /-- WAVELENGTH_DROP_END (R684). -/
  | wavelengthDropEnd (port : Port) (chan : Chan)
  /-- DEBUG_PORT_ACCESS (R710). -/
  | debugPortAccess (dap : Bool) (space : Fin 3) (addr : DevAddr) (value : Option Word)
  deriving DecidableEq, Repr

end Sys2Proof
end

