-- ==== Sys2Proof/Decode.lean ====
section
/-! DEFINITION. The command a word spells. The command table of this block gives none of its rows bits, so no word spells a command. -/

namespace Sys2Proof

/-- The command that nbits bits of w spell by the table's bits: none, since the table gives no row bits. -/
def decodeTableWord (_nbits _w : Nat) : Option Instr := none

end Sys2Proof
end

