-- ==== Sys2Proof/Machine/Assoc.lean ====
section
/-! DEFINITION. Sparse tables: lists of (key, value) pairs with strictly rising keys, and the operations on them. -/

namespace Sys2Proof.Machine

/-- The value listed under key k. -/
def aget {α : Type} (m : List (Nat × α)) (k : Nat) : Option α :=
  match m with
  | [] => none
  | e :: es => if e.1 = k then some e.2 else aget es k

/-- The table with v listed under k, in place. -/
def aput {α : Type} (m : List (Nat × α)) (k : Nat) (v : α) : List (Nat × α) :=
  match m with
  | [] => [(k, v)]
  | e :: es =>
    if k < e.1 then (k, v) :: e :: es
    else if e.1 = k then (k, v) :: es
    else e :: aput es k v

/-- The table without key k. -/
def adel {α : Type} (m : List (Nat × α)) (k : Nat) : List (Nat × α) := m.filter (fun e => e.1 != k)

/-- Keys strictly rising. -/
def keysRise {α : Type} : List (Nat × α) → Bool
  | [] => true
  | [_] => true
  | e :: f :: es => decide (e.1 < f.1) && keysRise (f :: es)

/-- The list with every element that p picks changed by f. -/
def mapIf {α : Type} (p : α → Bool) (f : α → α) (l : List α) : List α := l.map fun x => if p x then f x else x

/-- The list with the first element that p picks changed by f. -/
def mapFirst {α : Type} (p : α → Bool) (f : α → α) : List α → List α
  | [] => []
  | x :: xs => if p x then f x :: xs else x :: mapFirst p f xs

/-- The list without the first element that p picks. -/
def dropFirst {α : Type} (p : α → Bool) : List α → List α
  | [] => []
  | x :: xs => if p x then xs else x :: dropFirst p xs

/-- The list with x at position i, when it has one. -/
def setAt {α : Type} (l : List α) (i : Nat) (x : α) : List α := l.set i x

/-- The sum of a list of naturals. -/
def sumNat (l : List Nat) : Nat := l.foldl (· + ·) 0

/-- The little-endian number in a list of bytes (R11). -/
def leNat : List Byte → Nat
  | [] => 0
  | b :: bs => b.toNat + 256 * leNat bs

/-- n as k little-endian bytes (R11). -/
def leBytes : Nat → Nat → List Byte
  | 0, _ => []
  | k + 1, n => BitVec.ofNat 8 n :: leBytes k (n / 256)

/-- Bytes lo to lo + n − 1 of a record, as bytes; bytes past its end read 0. -/
def byteField (d : List Byte) (lo n : Nat) : List Byte := (List.range n).map fun i => d.getD (lo + i) 0

/-- Bytes lo to lo + n − 1 of a record, as a little-endian number (R11). -/
def recNat (d : List Byte) (lo n : Nat) : Nat := leNat (byteField d lo n)

/-- Bits hi to lo of the number in bytes from byte b on. -/
def recBits (d : List Byte) (b n hi lo : Nat) : Nat := (recNat d b n >>> lo) % 2 ^ (hi + 1 - lo)

/-- n read as a two's complement number of w bits. -/
def signedOf (w n : Nat) : Int := if n % 2 ^ w < 2 ^ (w - 1) then (n % 2 ^ w : Nat) else ((n % 2 ^ w : Nat) : Int) - (2 ^ w : Nat)

/-- z as a two's complement number of w bits. -/
def unsignedOf (w : Nat) (z : Int) : Nat := (z % ((2 ^ w : Nat) : Int)).toNat

/-- The rounded-up quotient. -/
def ceilDiv (a b : Nat) : Nat := if b = 0 then 0 else (a + b - 1) / b

end Sys2Proof.Machine
end

