-- ==== Sys2Proof/Machine/Crc.lean ====
section
/-! DEFINITION. Check values: the model of R482, CRC-32C (preset 0 of R481) and the CRC-10 of R354. -/

namespace Sys2Proof.Machine

open Sys2Proof

/-- A CRC preset (R480–R482). -/
structure Preset where
  width : Nat
  poly : Nat
  init : Nat
  refin : Bool
  refout : Bool
  xorout : Nat
  deriving DecidableEq, Repr

/-- The low w bits of n in reverse order. -/
def revBits : Nat → Nat → Nat
  | 0, _ => 0
  | w + 1, n => (n % 2) * 2 ^ w + revBits w (n / 2)

/-- One bit into the register (R482). -/
def crcBit (w poly r : Nat) (b : Bool) : Nat :=
  let top := 2 ^ (w - 1)
  let hit := (decide (r / top % 2 = 1)).xor b
  let r' := (r * 2) % 2 ^ w
  if hit then r'.xor (poly % 2 ^ w) else r'

/-- The eight bits of a byte value into the register, highest first. -/
def crcByteGo (w poly b : Nat) : Nat → Nat → Nat
  | 0, r => r
  | k + 1, r => crcByteGo w poly b k (crcBit w poly r (decide (b / 2 ^ k % 2 = 1)))

/-- The bytes into the register (R482). -/
def crcGo (p : Preset) (r : Nat) : List Byte → Nat
  | [] => r
  | b :: bs => crcGo p (crcByteGo p.width p.poly (if p.refin then revBits 8 b.toNat else b.toNat) 8 r) bs

/-- The register's end value, reflected and XORed (R482). -/
def crcEnd (p : Preset) (r : Nat) : Nat :=
  (if p.refout then revBits p.width r else r).xor p.xorout % 2 ^ p.width

/-- The check value of a byte string under a preset (R482). -/
def crcOf (p : Preset) (bs : List Byte) : Nat := crcEnd p (crcGo p (p.init % 2 ^ p.width) bs)

/-- Preset 0 (R481). -/
def presetCrc32c : Preset := ⟨32, 0x1EDC6F41, 0xFFFFFFFF, true, true, 0xFFFFFFFF⟩

/-- CRC-32C of a byte string. -/
def crc32c (bs : List Byte) : Nat := crcOf presetCrc32c bs

end Sys2Proof.Machine
end

