-- ==== Sys2Proof/Machine/Numeric.lean ====
section
/-! DEFINITION. Element formats, exact values, rounding, conversion and the lane rule (R156–R173, R177, R178). A finite value is a sign, a
natural significand and a power of two, so every product and sum is exact until it is rounded once. -/

namespace Sys2Proof.Machine

open Sys2Proof

/-- An exact value: (−1)^neg × mant × 2^exp, an infinity, or NaN with the ORIGIN code of R182 it arose by. -/
inductive Val where
  | fin (neg : Bool) (mant : Nat) (exp : Int)
  | inf (neg : Bool)
  | nan (origin : Nat)
  deriving DecidableEq, Repr

/-- How a floating-point format encodes special values (R158). -/
inductive Special where
  | ieee | nanOnly | none
  deriving DecidableEq, Repr

/-- A floating-point element format: exponent bits, mantissa bits, bias, special values (R158). -/
structure FloatFmt where
  eb : Nat
  mb : Nat
  bias : Nat
  sp : Special
  deriving DecidableEq, Repr

/-- The kind of an element: floating point, or two's complement of a width with a power of two as its unit. -/
inductive Elem where
  | flt (f : FloatFmt)
  | int (w : Nat) (unit : Int)
  deriving DecidableEq, Repr

def fFP32 : FloatFmt := ⟨8, 23, 127, .ieee⟩
def fBF16 : FloatFmt := ⟨8, 7, 127, .ieee⟩
def fFP16 : FloatFmt := ⟨5, 10, 15, .ieee⟩
def fE4M3 : FloatFmt := ⟨4, 3, 7, .nanOnly⟩
def fE5M2 : FloatFmt := ⟨5, 2, 15, .ieee⟩
def fE3M2 : FloatFmt := ⟨3, 2, 3, .none⟩
def fE2M3 : FloatFmt := ⟨2, 3, 1, .none⟩
def fE2M1 : FloatFmt := ⟨2, 1, 1, .none⟩

/-- The element format of a FORMAT code (R156): for the codebook formats, that of the table entries. -/
def elemOf (code : Nat) : Option Elem := match code with
  | 0x01 => some (.flt fFP32) | 0x02 => some (.flt fBF16) | 0x03 => some (.flt fFP16)
  | 0x04 => some (.flt fE4M3) | 0x05 => some (.flt fE5M2) | 0x06 => some (.flt fE3M2) | 0x07 => some (.flt fE2M3) | 0x08 => some (.flt fE2M1)
  | 0x09 => some (.int 8 0) | 0x0A => some (.int 4 0) | 0x0B => some (.int 32 0)
  | 0x10 => some (.flt fE4M3) | 0x11 => some (.flt fE5M2) | 0x12 => some (.flt fE3M2) | 0x13 => some (.flt fE2M3) | 0x14 => some (.flt fE2M1)
  | 0x15 => some (.int 8 (-6))
  | 0x20 => some (.flt fE4M3) | 0x21 => some (.flt fE5M2) | 0x22 => some (.flt fE4M3) | 0x23 => some (.flt fE5M2)
  | _ => none

/-- Whether a code is an MX format, and whether it is a codebook format. -/
def isMx (code : Nat) : Bool := decide (0x10 ≤ code) && decide (code ≤ 0x15)
def isCb (code : Nat) : Bool := decide (0x20 ≤ code) && decide (code ≤ 0x23)
def isCb3 (code : Nat) : Bool := code == 0x22 || code == 0x23

/-- Bits of an element of a format (R156); a codebook index is 4 or 3 bits. -/
def elemBits (code : Nat) : Nat := match code with
  | 0x01 => 32 | 0x02 => 16 | 0x03 => 16 | 0x04 => 8 | 0x05 => 8 | 0x06 => 6 | 0x07 => 6 | 0x08 => 4 | 0x09 => 8 | 0x0A => 4 | 0x0B => 32
  | 0x10 => 8 | 0x11 => 8 | 0x12 => 6 | 0x13 => 6 | 0x14 => 4 | 0x15 => 8 | 0x20 => 4 | 0x21 => 4 | 0x22 => 3 | 0x23 => 3 | _ => 0

/-! ### Exact values -/

/-- Zero of either sign. -/
def Val.zero (neg : Bool := false) : Val := .fin neg 0 0

def Val.isNan : Val → Bool
  | .nan _ => true
  | _ => false
def Val.isInf : Val → Bool
  | .inf _ => true
  | _ => false
def Val.isZero : Val → Bool
  | .fin _ m _ => m == 0
  | _ => false
def Val.isNeg : Val → Bool
  | .fin n _ _ => n
  | .inf n => n
  | .nan _ => false

/-- The value times 2^k. -/
def Val.scale (v : Val) (k : Int) : Val := match v with
  | .fin n m e => .fin n m (e + k)
  | v => v

def Val.negate : Val → Val
  | .fin n m e => .fin (!n) m e
  | .inf n => .inf (!n)
  | v => v

def Val.abs : Val → Val
  | .fin _ m e => .fin false m e
  | .inf _ => .inf false
  | v => v

/-- The exponent of the leading bit of a nonzero significand. -/
def leadExp (m : Nat) (e : Int) : Int := e + Nat.log2 m

/-- a × 2^ea compared with b × 2^eb, magnitudes. -/
def magLe (a : Nat) (ea : Int) (b : Nat) (eb : Int) : Bool :=
  if ea ≤ eb then decide (a ≤ b * 2 ^ (eb - ea).toNat) else decide (a * 2 ^ (ea - eb).toNat ≤ b)

/-- The exact product. NaN keeps the first operand's origin; infinity times 0 is NaN of origin 2. -/
def Val.mul : Val → Val → Val
  | .nan o, _ => .nan o
  | _, .nan o => .nan o
  | .inf a, .inf b => .inf (a.xor b)
  | .inf a, .fin b m _ => if m = 0 then .nan 2 else .inf (a.xor b)
  | .fin a m _, .inf b => if m = 0 then .nan 2 else .inf (a.xor b)
  | .fin a m e, .fin b m' e' => .fin (a.xor b) (m * m') (e + e')

/-- A signed significand at exponent e as an exact value; an exact 0 is +0. -/
def valOfInt (z : Int) (e : Int) : Val := .fin (decide (z < 0)) z.natAbs e

/-- The signed significand of a finite value at an exponent not above its own. -/
def sigAt (n : Bool) (m : Nat) (e base : Int) : Int :=
  let x : Int := (m * 2 ^ (e - base).toNat : Nat)
  if n then -x else x

/-- The exact sum; opposite infinities make NaN of origin 3; a sum of zeros is −0 only when both are −0. -/
def Val.add : Val → Val → Val
  | .nan o, _ => .nan o
  | _, .nan o => .nan o
  | .inf a, .inf b => if a = b then .inf a else .nan 3
  | .inf a, .fin _ _ _ => .inf a
  | .fin _ _ _, .inf b => .inf b
  | .fin a m e, .fin b m' e' =>
    if m = 0 ∧ m' = 0 then .fin (a && b) 0 0
    else
      let base := min e e'
      valOfInt (sigAt a m e base + sigAt b m' e' base) base

/-- Whether a ≤ b for values that are not NaN. -/
def Val.le : Val → Val → Bool
  | .nan _, _ => false
  | _, .nan _ => false
  | .inf a, .inf b => a || !b
  | .inf a, .fin _ _ _ => a
  | .fin _ _ _, .inf b => !b
  | .fin a m e, .fin b m' e' =>
    let base := min e e'
    decide (sigAt a m e base ≤ sigAt b m' e' base)

/-- Whether a < b. -/
def Val.lt (a b : Val) : Bool := Val.le a b && !Val.le b a

/-! ### Decoding elements (R158, R159, R164) -/

/-- The value of a floating-point code. -/
def decodeFloat (f : FloatFmt) (c : Nat) : Val :=
  let m := c % 2 ^ f.mb
  let e := c / 2 ^ f.mb % 2 ^ f.eb
  let n := decide (c / 2 ^ (f.mb + f.eb) % 2 = 1)
  let top := 2 ^ f.eb - 1
  if f.sp = .ieee ∧ e = top then (if m = 0 then .inf n else .nan 0)
  else if f.sp = .nanOnly ∧ e = top ∧ m = 2 ^ f.mb - 1 then .nan 0
  else if e = 0 then .fin n m (1 - f.bias - f.mb)
  else .fin n (2 ^ f.mb + m) ((e : Int) - f.bias - f.mb)

/-- The value of an element code. -/
def decodeElem (k : Elem) (c : Nat) : Val := match k with
  | .flt f => decodeFloat f c
  | .int w u => valOfInt (signedOf w c) u

/-- A value under an E8M0 block scale code (R164): 0xFF makes every element NaN, of origin 1. -/
def scaled (v : Val) (s : Nat) : Val := if s = 0xFF then .nan 1 else v.scale ((s : Int) - 127)

/-! ### Rounding (R171, R172) -/

/-- m × 2^(−k) rounded to nearest, ties to even, for k ≥ 0. -/
def rneShift (m k : Nat) : Nat :=
  let q := m / 2 ^ k
  let r := m % 2 ^ k
  if k = 0 then m else if 2 ^ (k - 1) < r ∨ (r = 2 ^ (k - 1) ∧ q % 2 = 1) then q + 1 else q

/-- m × 2^e in units of 2^q, rounded to nearest, ties to even. -/
def rneAt (m : Nat) (e q : Int) : Nat := if q ≤ e then m * 2 ^ (e - q).toNat else rneShift m (q - e).toNat

/-- The exponent of the smallest subnormal of a format. -/
def FloatFmt.qmin (f : FloatFmt) : Int := 1 - (f.bias : Int) - f.mb

/-- The magnitude code a finite magnitude rounds to in a format with no upper limit on the exponent: exponent field and mantissa as one
number. -/
def roundMag (f : FloatFmt) (m : Nat) (e : Int) : Nat :=
  if m = 0 then 0
  else
    let q := max (leadExp m e - f.mb) f.qmin
    rneAt m e q + (q - f.qmin).toNat * 2 ^ f.mb

/-- The largest finite magnitude code of a format. -/
def FloatFmt.maxCode (f : FloatFmt) : Nat := match f.sp with
  | .ieee => (2 ^ f.eb - 1) * 2 ^ f.mb - 1
  | .nanOnly => 2 ^ (f.eb + f.mb) - 2
  | .none => 2 ^ (f.eb + f.mb) - 1

/-- The sign bit of a format, as a number to add. -/
def FloatFmt.signBit (f : FloatFmt) (n : Bool) : Nat := if n then 2 ^ (f.eb + f.mb) else 0

/-- The infinity code and the canonical NaN of a format (R160). -/
def FloatFmt.infCode (f : FloatFmt) (n : Bool) : Nat := f.signBit n + (2 ^ f.eb - 1) * 2 ^ f.mb
def FloatFmt.nanCode (f : FloatFmt) : Nat := match f.sp with
  | .ieee => (2 ^ f.eb - 1) * 2 ^ f.mb + 2 ^ (f.mb - 1)
  | .nanOnly => 2 ^ (f.eb + f.mb) - 1
  | .none => 0

/-- What a conversion did to one element: its code, the element's value as written (its NaN keeps an origin), and the flags of R177. -/
structure Conv where
  code : Nat
  elem : Val
  ovf : Bool := false
  sat : Bool := false
  tiny : Bool := false
  deriving DecidableEq, Repr

/-- Whether a format is FP8 in its own code, the only case where NONSAT applies and where saturation is chosen (R172). -/
def isFp8Code (code : Nat) : Bool := code == 0x04 || code == 0x05

/-- Whether a floating-point target takes an infinity on overflow: FP32, BF16, FP16, and FP8 E5M2 under NONSAT (R172). -/
def overflowsToInf (code : Nat) (nonsat : Bool) : Bool := code == 1 || code == 2 || code == 3 || (code == 5 && nonsat)

/-- Convert one value to an unscaled format (R171, R172, R177). -/
def convElem (code : Nat) (nonsat : Bool) (v : Val) : Conv := match elemOf code with
  | none => { code := 0, elem := v }
  | some (.flt f) =>
    match v with
    | .nan o => if f.sp = .none then { code := 0, elem := .zero } else { code := f.nanCode, elem := .nan o }
    | .inf n =>
      if overflowsToInf code nonsat then { code := f.infCode n, elem := .inf n }
      else if code = 0x04 ∧ nonsat then { code := f.nanCode, elem := .nan 4 }
      else { code := f.signBit n + f.maxCode, elem := decodeFloat f (f.signBit n + f.maxCode), sat := true }
    | .fin n m e =>
      let c := roundMag f m e
      if f.maxCode < c then
        if overflowsToInf code nonsat then { code := f.infCode n, elem := .inf n, ovf := true }
        else if code = 0x04 ∧ nonsat then { code := f.nanCode, elem := .nan 4, ovf := true }
        else { code := f.signBit n + f.maxCode, elem := decodeFloat f (f.signBit n + f.maxCode), sat := true }
      else
        let excess := c == f.maxCode && (match decodeFloat f f.maxCode with
          | .fin _ mm me => !magLe m e mm me
          | _ => false)
        { code := f.signBit n + c, elem := decodeFloat f (f.signBit n + c), sat := excess, tiny := m != 0 && c == 0 }
  | some (.int w u) =>
    let hi : Nat := 2 ^ (w - 1) - 1
    let lo : Nat := 2 ^ (w - 1)
    match v with
    | .nan _ => { code := 0, elem := .zero }
    | .inf n => if n then { code := lo, elem := valOfInt (-(lo : Int)) u, sat := true } else { code := hi, elem := valOfInt hi u, sat := true }
    | .fin n m e =>
      let x := rneAt m e u
      if n then
        let excess := !magLe m e lo u
        let y := min x lo
        { code := unsignedOf w (-(y : Int)), elem := valOfInt (-(y : Int)) u, sat := excess, tiny := m != 0 && x == 0 }
      else
        let excess := !magLe m e hi u
        let y := min x hi
        { code := y, elem := valOfInt y u, sat := excess, tiny := m != 0 && x == 0 }

/-- The code of a value in FP32 and the value of a code. -/
def toF32 (v : Val) : Nat := (convElem 1 false v).code
def ofF32 (c : Nat) : Val := decodeFloat fFP32 c

/-- A value rounded once to FP32, its NaN origin kept. -/
def round32 (v : Val) : Val := match v with
  | .nan o => .nan o
  | v => (convElem 1 false v).elem

/-- The emax of R173 for an MX format's element. -/
def mxEmax (code : Nat) : Int := match code with
  | 0x10 => 8 | 0x11 => 15 | 0x12 => 4 | 0x13 => 2 | 0x14 => 2 | _ => 0

/-- The unscaled code whose element format an MX format uses, for the element conversion; MXINT8 has no unscaled twin. -/
def mxElemConv (code : Nat) (v : Val) : Conv := match code with
  | 0x10 => convElem 0x04 false v
  | 0x11 => convElem 0x05 false v
  | 0x12 => convElem 0x06 false v
  | 0x13 => convElem 0x07 false v
  | 0x14 => convElem 0x08 false v
  | _ => convElem 0x15 false v

/-- The largest leading exponent among the finite nonzero values of a block. -/
def blockLead (vs : List Val) : Option Int := vs.foldl (fun a v => match v with
  | .fin _ m e => if m = 0 then a else (match a with
      | none => some (leadExp m e)
      | some x => some (max x (leadExp m e)))
  | _ => a) none

/-- Convert one block to an MX format: the scale code and the elements (R173). A block with a NaN or an infinity has scale 0xFF and elements 0,
each of which is NaN: a value that is NaN keeps its origin, the others take origin 7 (R182). -/
def convBlock (code : Nat) (vs : List Val) : Nat × List Conv :=
  if vs.any fun v => v.isNan || v.isInf then
    (0xFF, vs.map fun v => { code := 0, elem := match v with
      | .nan o => .nan o
      | _ => .nan 7 })
  else match blockLead vs with
    | none => (0, vs.map fun v => mxElemConv code v)
    | some l =>
      let x := max (-127) (min 127 (l - mxEmax code))
      ((x + 127).toNat, vs.map fun v =>
        let c := mxElemConv code (v.scale (-x))
        { c with elem := c.elem.scale x })

/-! ### The status word (R177, R178) -/

/-- The status word of a tile from its values before conversion and the elements written, row by row. The third part is the ORIGIN of the NaN
recorded. -/
structure StatAcc where
  nan : Bool := false
  inf : Bool := false
  ovf : Bool := false
  sat : Bool := false
  tiny : Bool := false
  firstNan : Option (Nat × Nat × Nat) := none
  firstInf : Option (Nat × Nat) := none
  deriving DecidableEq, Repr

/-- One element into the status: v before conversion, c as written, at row r, column k. An infinity in an MX block is NaN as written. -/
def statStep (a : StatAcc) (r k : Nat) (v : Val) (c : Conv) : StatAcc :=
  let isN := v.isNan || c.elem.isNan
  let org := match v, c.elem with
    | .nan o, _ => o
    | _, .nan o => o
    | _, _ => 0
  let isI := v.isInf || c.elem.isInf
  { nan := a.nan || isN
    inf := a.inf || isI
    ovf := a.ovf || c.ovf
    sat := a.sat || c.sat
    tiny := a.tiny || c.tiny
    firstNan := if a.firstNan.isSome then a.firstNan else if isN then some (r, k, org) else none
    firstInf := if a.firstInf.isSome then a.firstInf else if isI then some (r, k) else none }

/-- The status word (R177). -/
def statWord (a : StatAcc) : Nat :=
  let first := match a.firstNan, a.firstInf with
    | some (r, k, _), _ => 2 ^ 26 + 2 ^ 25 + r * 2 ^ 11 + k
    | none, some (r, k) => 2 ^ 26 + r * 2 ^ 11 + k
    | none, none => 0
  (if a.nan then 2 ^ 31 else 0) + (if a.inf then 2 ^ 30 else 0) + (if a.ovf then 2 ^ 29 else 0) + (if a.sat then 2 ^ 28 else 0) +
    (if a.tiny then 2 ^ 27 else 0) + first

/-- Bits of the status word. -/
def stNan (w : Nat) : Bool := decide (w / 2 ^ 31 % 2 = 1)
def stInf (w : Nat) : Bool := decide (w / 2 ^ 30 % 2 = 1)
def stOvf (w : Nat) : Bool := decide (w / 2 ^ 29 % 2 = 1)
def stSat (w : Nat) : Bool := decide (w / 2 ^ 28 % 2 = 1)
def stFirstRow (w : Nat) : Nat := w / 2 ^ 11 % 2 ^ 11
def stFirstCol (w : Nat) : Nat := w % 2 ^ 11

/-! ### The lane rule (R168–R170) -/

/-- The incoming accumulator and the products of a group, summed under the window rule and rounded once to FP32. -/
def laneSum (terms : List Val) : Val :=
  match terms.find? Val.isNan with
  | some (.nan o) => .nan o
  | _ =>
    let pos := terms.any fun t => t.isInf && !t.isNeg
    let neg := terms.any fun t => t.isInf && t.isNeg
    if pos && neg then .nan 3
    else if pos then .inf false
    else if neg then .inf true
    else match blockLead terms with
      | none => .fin (terms.all Val.isNeg) 0 0
      | some e0 =>
        let base := e0 - 27
        let s := terms.foldl (fun (a : Int) t => match t with
          | .fin n m e =>
            let w : Nat := if base ≤ e then m * 2 ^ (e - base).toNat else m / 2 ^ (base - e).toNat
            if n then a - w else a + w
          | _ => a) 0
        round32 (valOfInt s base)

/-- One group of a lane: the accumulator and the operand pairs (R168–R170). -/
def laneGroup (acc : Val) (pairs : List (Val × Val)) : Val := laneSum (acc :: pairs.map fun p => p.1.mul p.2)

/-! ### FP32 operations, each one exact operation rounded once -/

def add32 (a b : Val) : Val := round32 (a.add b)
def sub32 (a b : Val) : Val := round32 (a.add b.negate)
def mul32 (a b : Val) : Val := round32 (a.mul b)
def fma32 (a b c : Val) : Val := round32 ((a.mul b).add c)

/-- Quotient rounded once to FP32: 40 extra bits and a sticky bit decide the rounding. Division by 0 gives an infinity, 0/0 and ∞/∞ NaN. -/
def div32 (a b : Val) : Val := match a, b with
  | .nan o, _ => .nan o
  | _, .nan o => .nan o
  | .inf _, .inf _ => .nan 6
  | .inf n, .fin k _ _ => .inf (n.xor k)
  | .fin n _ _, .inf k => .zero (n.xor k)
  | .fin n m e, .fin k m' e' =>
    if m' = 0 then (if m = 0 then .nan 6 else .inf (n.xor k))
    else if m = 0 then .zero (n.xor k)
    else
      let sh := 64 + Nat.log2 m'
      let q := m * 2 ^ sh / m'
      let r := m * 2 ^ sh % m'
      round32 (.fin (n.xor k) (2 * q + (if r = 0 then 0 else 1)) (e - e' - sh - 1))

/-- The integer square root, by Newton's method on `fuel` steps. -/
def isqrtGo : Nat → Nat → Nat → Nat
  | 0, _, x => x
  | f + 1, n, x =>
    let y := (x + n / x) / 2
    if y < x then isqrtGo f n y else x

/-- The floor of the square root of n. -/
def isqrt (n : Nat) : Nat := if n = 0 then 0 else isqrtGo (Nat.log2 n + 4) n (2 ^ (Nat.log2 n / 2 + 1))

/-- 1/√a rounded once to FP32; of ±0 ±∞, of a negative value NaN, of +∞ 0. -/
def rsqrt32 (a : Val) : Val := match a with
  | .nan o => .nan o
  | .inf n => if n then .nan 6 else .zero
  | .fin n m e =>
    if m = 0 then .inf n
    else if n then .nan 6
    else
      let odd := decide (e % 2 ≠ 0)
      let m1 := if odd then 2 * m else m
      let e1 := if odd then e - 1 else e
      let sh := 80 + Nat.log2 m1
      -- 1/√(m1·2^e1) = √(2^(2·sh)/m1) · 2^(−sh − e1/2)
      let t := 2 ^ (2 * sh) / m1
      let q := isqrt t
      let exact := q * q * m1 == 2 ^ (2 * sh)
      round32 (.fin false (2 * q + (if exact then 0 else 1)) (-(sh : Int) - e1 / 2 - 1))

end Sys2Proof.Machine
end

