-- ==== Sys2Proof/Machine/State.lean ====
section
/-! DEFINITION. The state of the block: plain data that holds every register, buffer, counter, mode and pin the spec
gives the device, and the queue of commands that wait. Registers of the setup window stand in `State.regs` (Machine/RegMap.lean gives
their places and reset values). Times named `…At` count nanoseconds of `TimeSt.nowNs` unless a docstring says fabric time. -/

namespace Sys2Proof.Machine

open Sys2Proof

/-- The access codes of R27. -/
inductive Access where
  | ro | rw | rwl | w1c | wo | rc
  deriving DecidableEq, Repr

/-- Why the machine stops. No meaning of this model stops with a fault: every command that the spec gives an effect has it. -/
inductive Fault where
  /-- Raised by no meaning. Safe: it would end a run, never make a false claim provable. -/
  | unreachable
  deriving DecidableEq, Repr

/-- Why a command is refused. -/
inductive Refusal where
  /-- Raised by an arm of `exec` whose command has no meaning yet. Safe: a run ends there. -/
  | notModelled (mnemonic : String)
  deriving DecidableEq, Repr

/-! ### What leaves the device -/

/-- One thing the device sends out of the package or answers to a requester, in the order sent. -/
inductive Out where
  /-- Data returned to a requester of the setup window, `size` bytes (R23–R26). -/
  | regData (req size : Nat) (val : Nat)
  /-- A read of the function window or of another offset answered to a host. -/
  | windowData (fid size val : Nat)
  /-- A memory write into a function's host memory. -/
  | hostWrite (fid addr : Nat) (bytes : List Byte)
  /-- A memory read issued to a function's host memory. -/
  | hostRead (fid addr len : Nat)
  /-- A 64-bit AtomicOp Swap with 0 issued to a function's host memory (R323). -/
  | hostSwap (fid addr : Nat)
  /-- An MSI-X message of a vector of a function (R320). -/
  | msix (fid vec : Nat)
  /-- A codeword or control symbol group sent on a sub-port: kind and contents (R353–R357). -/
  | codeword (port sub kind : Nat) (bytes : List Byte)
  /-- Light of a port's channel turned on or off. -/
  | light (port chan : Nat) (on : Bool)
  /-- A Marul flit, acknowledgement or NAK on a link (R593–R595). -/
  | flit (link kind seq : Nat) (bytes : List Byte)
  /-- An answer of the SPDM responder or of a DOE mailbox (R294, R701). -/
  | spdm (chan code : Nat) (bytes : List Byte)
  /-- Data returned on a debug port (R710). -/
  | debugData (val : Nat)
  deriving DecidableEq, Repr

/-! ### Tiles, queues and station instances -/

/-- A tile: the header of R55 and the payload of R53. -/
structure Tile where
  status : Nat := 0
  tag : Nat := 0
  coordC : Nat := 0
  coordR : Nat := 0
  rows : Nat := 1
  cols : Nat := 1
  format : Nat := 0
  layout : Nat := 0
  last : Bool := false
  sparse : Bool := false
  poison : Bool := false
  payload : List Byte := []
  deriving DecidableEq, Repr

/-- A tile in a queue: the slot it holds, whether it has reached the head of the consumer's input (R59), and whether the consumer has ended
its last read of it. -/
structure QItem where
  tile : Tile
  slot : Nat := 0
  arrived : Bool := false
  read : Bool := false
  deriving DecidableEq, Repr

/-- A queue of a running step: its entry in the queue table (R65) and its state. -/
structure Queue where
  kind : Nat := 0
  cls : Nat := 0
  prodCore : Nat := 0
  prodInst : Nat := 0
  consCore : Nat := 0
  consInst : Nat := 0
  depth : Nat := 1
  slotUnits : Nat := 1
  peerRank : Nat := 0
  peerQueue : Nat := 0
  slotOffset : Nat := 0
  /-- Credits the producer held at the start of cycle `freshCyc`, and those that reached it in that cycle (R59). -/
  credits : Nat := 1
  fresh : Nat := 0
  freshCyc : Nat := 0
  /-- Credits returned by the consumer that have not reached the producer. -/
  flight : Nat := 0
  /-- Tiles emitted into the queue in this step: TAG of the next one (R55). -/
  emitted : Nat := 0
  items : List QItem := []
  deriving DecidableEq, Repr

/-- A tile ready for emission: its queue, the streams its rows belong to as runs of (stream index, rows), none where the station assigns
none (R181), the ORIGIN of the NaN its STATUS records (R182), its op's NODE_ID and the repeat in which it arose. -/
structure OutTile where
  q : Nat
  tile : Tile
  owners : List (Nat × Nat) := []
  origin : Nat := 0
  node : Nat := 0
  rep : Nat := 0
  deriving DecidableEq, Repr

/-- The run of one station instance in a step (R68): the op in hand, the repeat and stream in hand, what the op has staged for emission, and
the station's own working numbers and byte strings by key. -/
structure InstRun where
  core : Nat
  inst : Nat
  /-- Byte offsets in the graph image of the instance's first op, of the op in hand, and of the end of the core's program. -/
  start : Nat := 0
  pc : Nat := 0
  progEnd : Nat := 0
  rep : Nat := 0
  streamIx : Nat := 0
  /-- The op in hand has started and passed the checks its chapter makes then. -/
  started : Bool := false
  ended : Bool := false
  stopped : Bool := false
  /-- Time of the last progress (R655, R656), and the time since then in which issue was withheld. -/
  progressAt : Nat := 0
  /-- Stopped by an injected STATION_HANG (R684). -/
  hung : Bool := false
  /-- The stall in hand: its trace cause, its queue or counter, and the span cycle it began (R718). -/
  stall : Nat := 0
  stallArg : Nat := 0
  stallCyc : Nat := 0
  outbox : List OutTile := []
  work : List (Nat × Nat) := []
  wbytes : List (Nat × List Byte) := []
  deriving DecidableEq, Repr

/-- A stream of a step on this device: its exclusion here, and the owner CQ with the function recorded at RUNNING (R315). -/
structure StreamRun where
  id : Nat
  excl : Option Nat := none
  ownerCq : Nat := 0
  ownerFid : Nat := 0
  deriving DecidableEq, Repr

/-- The states of R88. -/
inductive Phase where
  | queued | running | prepared | committed | aborted | inDoubt
  deriving DecidableEq, Repr

/-- A decision of the commit protocol: COMMIT or ABORT with its cause, the excluded streams, and TAKEOVER (R96–R101). -/
structure Decision where
  commit : Bool
  cause : Nat := 0
  excl : List Nat := []
  takeover : Bool := false
  deriving DecidableEq, Repr

/-- A step from fetch to its resolution (R79, R88). -/
structure Step where
  phase : Phase := .queued
  sq : Nat := 0
  tag : Nat := 0
  irqNow : Bool := false
  fid : Nat := 0
  fetchNo : Nat := 0
  handle : Nat := 0
  slice : Nat := 0
  seq : Nat := 0
  attempt : Nat := 0
  rank : Nat := 0
  ranks : Nat := 1
  listAddr : Nat := 0
  startTime : Nat := 0
  deadlineUs : Nat := 0
  trapNan : Bool := false
  streams : List StreamRun := []
  /-- The context copy of R190 has begun; streams whose entries are still being fetched for it; it is complete. -/
  ctxBegun : Bool := false
  ctxPend : List Nat := []
  ctxDone : Bool := false
  /-- START_TIME has come. -/
  startCome : Bool := false
  /-- ON_ACTION steps wait for a STEP_START action (R561). -/
  onAction : Bool := false
  lateStart : Bool := false
  /-- Whether it has entered RUNNING, and when. -/
  ran : Bool := false
  runAt : Nat := 0
  /-- Time of the last END op (R64), and of the end of RUNNING work. -/
  endAt : Nat := 0
  insts : List InstRun := []
  queues : List (Nat × Queue) := []
  /-- Cause of an abort in hand, its time, whether this device detected it, and whether ABORTED is still to be posted. -/
  cause : Nat := 0
  abortAt : Nat := 0
  abortLocal : Bool := false
  quiescing : Bool := false
  posted : Bool := false
  /-- The decision applied (R104). -/
  applied : Option Decision := none
  takeover : Bool := false
  /-- Held IN_DOUBT by an L4 (R333): only RESOLVE_STEP ends it. -/
  byReset : Bool := false
  /-- In-flight record of R315 and the alive counter of the attempt (R448). -/
  alive : Nat := 0
  deriving DecidableEq, Repr

/-- What rank 0 and rank 1 keep of a step's commit round (R98–R102), whatever the state of their own step. -/
structure Coord where
  slice : Nat
  seq : Nat
  attempt : Nat
  /-- READYs held: rank and exclusions. -/
  ready : List (Nat × List Nat) := []
  /-- When the last READY came, once every rank's is held. -/
  allReadyAt : Option Nat := none
  /-- Rank 0: its one proposal, when its DECIDE went out, and whether R102 has closed the round. -/
  proposal : Option Decision := none
  decideAt : Nat := 0
  noDecision : Bool := false
  /-- Rank 0: DECISION sent. Rank 1: its record (R99). -/
  sent : Bool := false
  recorded : Option Decision := none
  deriving DecidableEq, Repr

/-- A resolved step, kept so that a repeated or contradicting DECISION (R104), a second run of attempt 15 (R80) and a late DECIDE
(R99) meet the record of it. -/
structure Resolved where
  slice : Nat
  seq : Nat
  attempt : Nat
  committed : Bool
  ran : Bool
  excl : List Nat := []
  deriving DecidableEq, Repr

/-- An entry of the early-abort table (R89), with the cause that came with it. -/
structure EarlyAbort where
  slice : Nat
  seq : Nat
  attempt : Nat
  cause : Nat := 0
  deriving DecidableEq, Repr

/-- A registered graph slot (R71–R77): generation, whether registered, image address and size, and where each instance's op list
begins, 27 offsets for each core with a program. -/
structure GraphSlot where
  gen : Nat := 0
  reg : Bool := false
  addr : Nat := 0
  bytes : Nat := 0
  mask : Nat := 0
  ranks : Nat := 1
  maxStreams : Nat := 1
  starts : List (Nat × List Nat) := []
  ends : List (Nat × Nat) := []
  deriving DecidableEq, Repr

/-! ### Host interface -/

/-- A submission ring (R297–R300); VALID, FETCHED and the fields of HOST.SQ_STATE stand in the registers. -/
structure Sq where
  base : Nat := 0
  stby : Nat := 0xFF
  /-- TAIL last read from the SQ's record. -/
  tail : Nat := 0
  /-- A descriptor read or record read is to be issued. -/
  wantRead : Bool := false
  destroying : Bool := false
  deriving DecidableEq, Repr

/-- A completion ring; POSTED and the fields of HOST.CQ_STATE stand in the registers. -/
structure Cq where
  base : Nat := 0
  stby : Nat := 0xFF
  vec : Nat := 0
  stbyVec : Nat := 0
  irqEn : Bool := false
  coalCount : Nat := 0
  coalTime : Nat := 0
  /-- HEAD last read. -/
  head : Nat := 0
  /-- Records reserved by descriptors in flight (R318). -/
  reserved : Nat := 0
  /-- Records posted since the last interrupt, when the first of them was posted, and whether one asked for IRQ_NOW. -/
  since : Nat := 0
  firstAt : Nat := 0
  irqNow : Bool := false
  /-- Records posted and not known consumed, by count: what R339 writes again. -/
  live : List (Nat × List Byte) := []
  deriving DecidableEq, Repr

/-- A record held in the pending store (R319): its CQ and its bytes, PHASE and LOST clear. -/
structure HeldRec where
  cq : Nat
  bytes : List Byte
  final : Bool := false
  irqNow : Bool := false
  deriving DecidableEq, Repr

/-- The stage of a descriptor in flight (R304). -/
inductive FlightStage where
  | fetched | started | inDoubt
  deriving DecidableEq, Repr

/-- A fetched descriptor that has not posted its final completion. -/
structure InFlight where
  sq : Nat
  tag : Nat
  opcode : Nat
  irqNow : Bool := false
  fence : Bool := false
  no : Nat
  desc : List Byte
  stage : FlightStage := .fetched
  /-- Records of the CQ still reserved for it (R318). -/
  resv : Nat := 2
  /-- Progress of a command that runs over several events: its own numbers. -/
  a : Nat := 0
  b : Nat := 0
  /-- A final completion held because the pending store is full (R319). -/
  heldFinal : List Byte := []
  deriving DecidableEq, Repr

/-- A function of R286 as FUNC_CONFIG and the host set it. -/
structure Fn where
  enabled : Bool := false
  errCq : Nat := 0xFFFF
  slotLo : Nat := 0
  slotHi : Nat := 0
  memBase : Nat := 0
  memSize : Nat := 0
  dbBase : Nat := 0
  d3hot : Bool := false
  vfEnable : Bool := false
  atomicEn : Bool := false
  /-- MSI-X vectors unmasked by the host, and those with their pending bit set. -/
  unmasked : List Nat := []
  msixPend : List Nat := []
  deriving DecidableEq, Repr

/-- A PCIe link: since when its Data Link Layer is inactive, and whether its failure has been acted on (R338). -/
structure LinkSt where
  downAt : Nat := 0
  failed : Bool := false
  /-- IDE streams in the Secure state, by number: 0 the link stream, 1–4 selective (R293). -/
  ideSecure : List Nat := []
  deriving DecidableEq, Repr

structure HostSt where
  sqs : List (Nat × Sq) := []
  cqs : List (Nat × Cq) := []
  fns : List (Nat × Fn) := []
  links : List (Nat × LinkSt) := []
  /-- PERST_N[0] and PERST_N[1] asserted. -/
  perst0 : Bool := true
  perst1 : Bool := true
  flights : List InFlight := []
  nextNo : Nat := 0
  pending : List HeldRec := []
  /-- When each function was last polled (R323). -/
  polledAt : List (Nat × Nat) := []
  /-- By priority level, the SQ that fetches were last taken from and how many in its turn (R302). -/
  turns : List (Nat × Nat × Nat) := []
  deriving DecidableEq, Repr

structure StepSt where
  slots : List (Nat × Step) := []
  graphs : List (Nat × GraphSlot) := []
  early : List EarlyAbort := []
  coords : List Coord := []
  resolved : List Resolved := []
  fetchNo : Nat := 0
  deriving DecidableEq, Repr

/-! ### Memory -/

/-- Byte addresses lo to hi − 1 whose contents are undefined since event `gen`. -/
structure Undef where
  lo : Nat
  hi : Nat
  gen : Nat
  deriving DecidableEq, Repr

/-- The addressed memories (R236): the bytes listed, in canonical form, and the ranges that hold undefined contents. The keys are the
model's linear addresses of Machine/Mem.lean. -/
structure Memory where
  cells : List Host.Cell := []
  undef : List Undef := []
  deriving DecidableEq, Repr

/-- A Deck cache line by its line number (stack offset / 256): whether it is dirty. -/
structure CLine where
  line : Nat
  dirty : Bool := false
  deriving DecidableEq, Repr

/-- A correctable-error tracker entry (R269): page and count, least recently counted last. -/
structure CeEntry where
  page : Nat
  count : Nat
  deriving DecidableEq, Repr

/-- One HBM stack with what its controllers and its footing keep (R240–R276). -/
structure StackSt where
  /-- The key in force, taken at the last handover to the span controller (R241). -/
  key : List Nat := [0, 0, 0, 0, 0]
  /-- The span asked for a handover at the next refresh boundary (R45): 0 none, 1 to the span, 2 to maintenance. -/
  handover : Nat := 0
  trainTries : Nat := 0
  trained : Bool := false
  /-- Retired pages with the reserve page that serves each (R270). -/
  remap : List (Nat × Nat) := []
  tracker : List CeEntry := []
  /-- Retirements waiting, oldest first; the head is being copied while STATUS.RETIRING is 1. -/
  retireQ : List Nat := []
  /-- Granules served in the window by pseudo-channel, and consecutive bad windows (R276). -/
  chan : List (Nat × Nat) := []
  badWindows : Nat := 0
  /-- Granule the patrol scrub reads next (R268). -/
  scrubAt : Nat := 0
  bist : Bool := false
  deriving DecidableEq, Repr

/-- One span: the Deck split in force and the one awaited, and the span's clock-cycle count. -/
structure SpanSt where
  split : Nat := 4
  splitWant : Nat := 4
  /-- Cycles of the Trestle clock since power-on, and the fraction of a cycle in 1/1000 MHz·ns. -/
  cyc : Nat := 0
  cycFrac : Nat := 0
  /-- Deck cache: by set, the ways in use, most recently used first (R250). -/
  cache : List (Nat × List CLine) := []
  deriving DecidableEq, Repr

structure MemSt where
  mem : Memory := {}
  /-- 64-byte blocks of stack addresses that carry the poison mark, by address / 64, rising (R266, R267). -/
  poison : List Nat := []
  hbm : List (Nat × StackSt) := []
  spans : List (Nat × SpanSt) := []
  deriving DecidableEq, Repr

/-! ### Faults, resets and the log -/

/-- A reset domain (R666, R668): a station instance, a logical core, a span, the compute side. -/
inductive Domain where
  | inst (core inst : Nat)
  | core (core : Nat)
  | span (span : Nat)
  | device
  deriving DecidableEq, Repr

/-- A domain set in recovery (R668): its level, the domains joined in it, the faults counted in its window, and when the window ends
(none while no reset of it has completed). -/
structure Window where
  level : Nat
  doms : List Domain
  faults : Nat
  endAt : Option Nat := none
  deriving DecidableEq, Repr

/-- A reset in progress (R661): level, domains, whether it holds and is for an HBM fault, the request it answers, when it began. -/
structure ResetRun where
  level : Nat
  doms : List Domain
  hold : Bool := false
  hbmFault : Bool := false
  /-- Spans whose Deck writeback is still awaited before the reset is entered (R255). -/
  awaitWb : List Nat := []
  requested : Nat := 0
  /-- In-flight numbers of the RESET_REQUESTs it answers; none when the device started it. -/
  reqNos : List Nat := []
  escalated : Bool := false
  entered : Bool := false
  startAt : Nat := 0
  deriving DecidableEq, Repr

/-- An injection in force (R684): plan, entry, kind, targets, what is left of it. -/
structure Injection where
  plan : Nat
  entry : Nat
  kind : Nat
  a : Nat
  b : Nat
  arg : Nat
  left : Nat := 0
  untilAt : Nat := 0
  deriving DecidableEq, Repr

/-- A load-test plan that runs: when it started and the entries not yet fired (R683). -/
structure PlanRun where
  plan : Nat
  startAt : Nat
  next : Nat := 0
  deriving DecidableEq, Repr

structure FaultSt where
  windows : List Window := []
  resets : List ResetRun := []
  /-- Spans held in reset after an L3 or L4 (R664), the compute dies held, and the level-5 hold of R669. -/
  heldSpans : List Nat := []
  heldDevice : Bool := false
  l5Hold : Bool := false
  /-- Holds for a rail (R578), and spans held for their phases (R582, R583). -/
  railHold : Bool := false
  phaseHeld : List Nat := []
  injections : List Injection := []
  plans : List PlanRun := []
  /-- When each physical core last carried a logical core or passed CORE_TEST, in ns (R680). -/
  coreUsedAt : List (Nat × Nat) := []
  /-- Physical cores under CORE_TEST. -/
  testing : List Nat := []
  deriving DecidableEq, Repr

/-- The log flash (R651, R652): slot contents by region, and the ring's next slot. -/
structure LogSt where
  ledger : List (Nat × List Byte) := []
  ring : List (Nat × List Byte) := []
  ringNext : Nat := 0
  deriving DecidableEq, Repr

/-! ### Cells -/

/-- A cell (R392): header fields and the 64 payload bytes. -/
structure Cell where
  dst : Nat := 0
  src : Nat := 0
  cls : Nat := 0
  level : Nat := 0
  typ : Nat := 0
  sof : Bool := true
  eof : Bool := true
  demoted : Bool := false
  mseq : Nat := 0
  payload : List Byte := []
  deriving DecidableEq, Repr

/-- A frame as its destination holds it: source, class it was sent on, type, MSEQ and the payloads joined (R395, R424). -/
structure Frame where
  src : Nat
  cls : Nat
  typ : Nat
  mseq : Nat := 0
  body : List Byte
  deriving DecidableEq, Repr

/-! ### Stream cache (R197–R200) -/

/-- A way of the stream cache in use. -/
structure SWay where
  id : Nat
  pinned : Bool := false
  deriving DecidableEq, Repr

structure StreamSt where
  /-- By set, the ways in use, most recently used first. -/
  sets : List (Nat × List SWay) := []
  /-- Fetches outstanding with their issue times, and misses queued behind them. -/
  fetching : List (Nat × Nat) := []
  queued : List Nat := []
  deriving DecidableEq, Repr

/-! ### Router (R392–R437) -/

structure RouterSt where
  /-- Cells the device originates that have not been routed yet, oldest first. -/
  egress : List Cell := []
  /-- Frame counts by destination × 8 + class (R392 MSEQ). -/
  mseqTx : List (Nat × Nat) := []
  /-- Last MSEQ by source × 8 + class, most recently used first, 4,096 pairs (R475). -/
  mseqRx : List (Nat × Nat) := []
  /-- Whole frames delivered to the device and not yet taken up by a receive command. -/
  delivered : List Frame := []
  deriving DecidableEq, Repr

/-! ### The Trestle and the codebook feed (R119–R155) -/

/-- The pass being fed: the tiles of its segments by their place in the queues, and the running sums, row by row. Cycles are the core's Trestle
cycles. -/
structure TrsPass where
  bank : Nat
  rep : Nat
  d : Nat
  sparse : Bool
  rows : Nat
  cols : Nat
  coordR : Nat
  coordC : Nat
  seg : Nat := 0
  group : Nat := 0
  fed : Nat := 0
  /-- Place of the A tile in hand among the unread A tiles, the K positions of it that are used up, and the place of the B tile. -/
  aIx : Nat := 0
  aServed : Nat := 0
  bIx : Nat := 0
  poison : Bool := false
  acc : List (List Val) := []
  deriving DecidableEq, Repr

/-- A bank whose pass has been fed: when its last group entered beam 0, when its drain began, and what the output path needs. -/
structure TrsBank where
  bank : Nat
  rep : Nat
  rows : Nat
  cols : Nat
  coordR : Nat
  coordC : Nat
  poison : Bool
  acc : List (List Val)
  lastCyc : Nat
  drainAt : Option Nat := none
  /-- The op of the pass, its stream, and whether it is the op's last repeat for its last stream, and its tile the instance's last into the queue. -/
  op : List Byte
  stream : Nat
  lastRep : Bool
  last : Bool
  deriving DecidableEq, Repr

/-- A core's Trestle: its cycle count, the pass being fed, the banks that hold or drain a pass, oldest first, and the cycles R134 looks back to. -/
structure TrsSt where
  cyc : Nat := 0
  slot : Nat := 0
  pass : Option TrsPass := none
  banks : List TrsBank := []
  passes : Nat := 0
  g0Prev : Nat := 0
  lastPrev : Nat := 0
  /-- D of the last pass to drain from each bank. -/
  bankD : List (Nat × Nat) := []
  /-- Activity window: cycles and feeds in the window in hand (R155). -/
  winCyc : Nat := 0
  winFed : Nat := 0
  /-- di/dt window: groups fed in the window before, in the one in hand, and the cycle at which it began (R588). -/
  didtPrev : Nat := 0
  didtFed : Nat := 0
  didtAt : Nat := 0
  /-- Duty accumulator of R590, in 1/256 cycles. -/
  duty : Nat := 0
  deriving DecidableEq, Repr

/-- A decoded run in the codebook feed: 8 K positions × 128 columns of FP8 codes, its entry format, and whether its tile was poisoned; `head` is
what the Trestle needs of its tile: K rows, columns, COORD_C, and whether it is the tile's last run. -/
structure CbRun where
  codes : List Byte
  e5m2 : Bool
  poison : Bool
  rows : Nat
  cols : Nat
  coordC : Nat
  last : Bool
  deriving DecidableEq, Repr

/-- A core's CODEBOOK station and its feed: runs in the 32 slots, credits of the feed, the run of the tile in hand that is delivered next, and the
cycle at which tables are loaded. -/
structure CbkSt where
  runs : List CbRun := []
  /-- Groups taken of the run at the front. -/
  taken : Nat := 0
  run : Nat := 0
  /-- Cycles of table load still due before the tile's first run (R141). -/
  load : Nat := 0
  loaded : Bool := false
  /-- Place of the tile in hand among the unread tiles of a held set. -/
  ix : Nat := 0
  /-- Cycles the tile in hand has occupied the station. -/
  cycles : Nat := 0
  idle : Bool := true
  deriving DecidableEq, Repr

/-- What power and heat do to the Trestles (R588–R590, R628). -/
structure PowerSt where
  /-- The span cycle up to which a droop withholds groups, by span (R588). -/
  droop : List (Nat × Nat) := []
  /-- The hardware cap reduction of R589, in 1/256. -/
  capRed : Nat := 0
  tripped : Bool := false
  deriving DecidableEq, Repr

/-! ### Remote memory (R438–R480) -/

/-- A tile an op of SEND or RECEIVE will emit once every part of it has come, in the order of the repeats: its number, the parts still awaited, and the
op index and repeat count of the op's end when it is the op's last. -/
structure RmtRes where
  no : Nat
  slot : Nat
  core : Nat
  inst : Nat
  out : OutTile
  left : Nat
  opEnd : Option (Nat × Nat) := none
  deriving DecidableEq, Repr

/-- A request that a load/atomic engine keeps outstanding (R450): its REQ_ID, cell type, engine, instance, destination, place of its data in the tile, length,
the tile it belongs to and when it was sent. -/
structure RmtReq where
  id : Nat := 0
  kind : Nat
  span : Nat
  slot : Nat
  core : Nat
  inst : Nat
  dst : Nat
  off : Nat := 0
  len : Nat := 0
  res : Option Nat := none
  sentAt : Nat := 0
  deriving DecidableEq, Repr

/-- A request that waits for an entry of its engine, with the frames it will send (REQ_ID 0). -/
structure RmtWait where
  req : RmtReq
  frames : List (List Byte)
  deriving DecidableEq, Repr

/-- A copy in a copy engine (R464, R465). -/
structure CopyRun where
  die : Nat
  eng : Nat
  id : Nat
  slot : Nat
  core : Nat
  inst : Nat
  dst : Nat
  src : Nat
  off : Nat
  total : Nat
  sent : Nat := 0
  acked : Nat := 0
  classS : Bool := false
  cntEn : Bool := false
  cunit : Bool := false
  counter : Nat := 0
  res : Option Nat := none
  sentAt : Nat := 0
  deriving DecidableEq, Repr

/-- An entry of the acknowledgement table (R466). -/
structure AckEntry where
  src : Nat
  id : Nat
  bytes : Nat
  since : Nat
  deriving DecidableEq, Repr

/-- The receiving side of a queue between devices (R468–R472): its channels, the credits granted so far, the TAG of the next tile to release, and the pieces that
have come, by TAG: (index, bytes), index 0 first. -/
structure RxQueue where
  slot : Nat
  core : Nat
  inst : Nat
  queue : Nat
  chans : List Nat
  granted : Nat
  next : Nat := 0
  parts : List (Nat × List (Nat × List Byte)) := []
  deriving DecidableEq, Repr

/-- The sending side of a queue between devices: its channel once the grant has come, the credits granted and the tiles sent. -/
structure TxQueue where
  slot : Nat
  queue : Nat
  chan : Nat
  granted : Nat
  sent : Nat := 0
  deriving DecidableEq, Repr

/-- A line of a combining buffer (R462): the span, the line (memory key / 256) and when it was last used. -/
structure CombLine where
  span : Nat
  line : Nat
  usedAt : Nat
  deriving DecidableEq, Repr

structure RmtSt where
  results : List RmtRes := []
  reqs : List RmtReq := []
  waiting : List RmtWait := []
  copies : List CopyRun := []
  acks : List AckEntry := []
  rx : List RxQueue := []
  tx : List TxQueue := []
  /-- Channels freed, with the time (R468). -/
  freed : List (Nat × Nat) := []
  /-- Combining buffers, least recently used first. -/
  comb : List CombLine := []
  /-- The next REQ_ID and the next result number. -/
  nextId : Nat := 0
  nextRes : Nat := 0
  /-- Alive counters of CHECK instances: (slot, core, instance, PEER_RANK, stream) and the value (R485). -/
  alive : List ((Nat × Nat × Nat) × (Nat × Nat) × Nat) := []
  deriving DecidableEq, Repr

/-! ### Collectives (R493–R531) -/

/-- What a member receives from one peer in one phase: the bytes expected (none until known), the chunks granted and done, the byte ranges that have come past the
done chunks, the rows a SIZES cell gave, when a GRANT last went out, and when the peer was last heard. -/
structure CollRx where
  phase : Nat
  peer : Nat
  len : Option Nat := none
  granted : Nat := 0
  done : Nat := 0
  got : List (Nat × Nat) := []
  sizes : Option Nat := none
  grantAt : Nat := 0
  heardAt : Nat := 0
  deriving DecidableEq, Repr

/-- What a member sends to one peer in one phase. -/
structure CollTx where
  phase : Nat
  peer : Nat
  len : Option Nat := none
  granted : Nat := 0
  done : Nat := 0
  sent : Nat := 0
  sizesSent : Bool := false
  sizesSeen : Bool := false
  sizesAt : Nat := 0
  deriving DecidableEq, Repr

/-- A chunk being folded (R517, R518): the member whose contribution is folded next, the values so far as 32-bit codes, and whether any was poisoned. -/
structure CollFold where
  chunk : Nat
  next : Nat := 0
  acc : List Nat := []
  poison : Bool := false
  deriving DecidableEq, Repr

/-- A collective armed on a sequencer (R494). -/
structure Coll where
  no : Nat
  slot : Nat
  core : Nat
  node : Nat
  rep : Nat
  desc : List Byte
  inA : Nat
  outQ : Nat
  src : Nat
  dst : Nat
  size : Nat
  own : Nat
  started : Bool := false
  /-- Gate: 0 none, 1 its phase not ready yet, 2 waiting for its time, 3 open (R521, R522). -/
  gate : Nat := 0
  late : Bool := false
  degraded : Bool := false
  poison : Bool := false
  rx : List CollRx := []
  tx : List CollTx := []
  /-- The peer served last, by group index (R512). -/
  turn : Nat := 0
  /-- Source bytes taken from the input queue, and their poisoned ranges. -/
  taken : List Byte := []
  takenBad : List (Nat × Nat) := []
  /-- Bytes of own data moved to this member itself, and own chunks folded. -/
  selfDone : Bool := false
  /-- Pairs (chunk, member) granted in order, and contributions folded (R518). -/
  pairs : Nat := 0
  folded : Nat := 0
  folds : List CollFold := []
  /-- Contributions come whole or in part, by chunk and member: offset within the chunk, bytes, POISON. -/
  stage : List ((Nat × Nat) × List (Nat × List Byte × Bool)) := []
  /-- The reduced block or piece by chunk: values before conversion as 32-bit codes. -/
  reduced : List (Nat × List Nat × Bool) := []
  /-- Destination bytes as (offset, bytes, POISON), kept where tiles are made of them or a status is taken over them. -/
  outB : List (Nat × List Byte × Bool) := []
  emitted : Nat := 0
  written : Nat := 0
  /-- Dispatch area and its rows for the unequal forms (R506–R508). -/
  area : Nat := 0
  /-- Whether its tiles may carry LAST, and the op's end. -/
  last : Bool := false
  owners : List (Nat × Nat) := []
  opEnd : Option (Nat × Nat) := none
  deriving DecidableEq, Repr

/-- An entry of the early-grant table (R515). -/
structure EarlyGrant where
  slice : Nat
  seq : Nat
  attempt : Nat
  node : Nat
  rep : Nat
  phase : Nat
  src : Nat
  granted : Nat
  done : Nat
  seen : Bool
  deriving DecidableEq, Repr

structure ColSt where
  colls : List Coll := []
  early : List EarlyGrant := []
  /-- Cores whose COLLECT instance waits for a slot, in order (R494). -/
  waiting : List Nat := []
  /-- Collectives complete in a running step: slot, node, repeat. -/
  complete : List (Nat × Nat × Nat) := []
  nextNo : Nat := 0
  deriving DecidableEq, Repr

/-! ### Core power (R714–R720) -/

/-- A logical core's low-power state and the deepest one CORE_POWER allows it, by the codes of R721 (0 RUN, 1 IDLE, 2 PARKED, 3 OFF); when a step last ran on it,
in ns and in span cycles; and when its wake began. -/
structure CoreSt where
  power : Nat := 0
  deepest : Nat := 0
  usedAt : Nat := 0
  usedCyc : Nat := 0
  waking : Option Nat := none
  deriving DecidableEq, Repr

/-! ### Optical ports and the switch (R345–R437) -/

/-- A stream of bits: how many, and the bits, the first the least significant. -/
structure Bits where
  n : Nat := 0
  v : Nat := 0
  deriving DecidableEq, Repr

/-- An expected peer (R374); absent it is ANY. -/
structure Peer where
  id : Nat
  port : Nat
  sub : Nat
  deriving DecidableEq, Repr

/-- A swing on a port (R381): its preset, its T_s, whether T_s has come, and whether the port has relocked. -/
structure Swing where
  preset : Nat
  ts : Nat
  loaded : Bool := false
  relocked : Bool := false
  deriving DecidableEq, Repr

/-- A token bucket (R422, R423): tokens in 2⁻³² of a cell, and when they were last reckoned. -/
structure Bucket where
  tokens : Nat := 16 * 2 ^ 32
  at' : Nat := 0
  deriving DecidableEq, Repr

/-- A cell queued for a sub-port: the input port whose buffer it holds (none for an originated cell), the port set that chose it, and when it was queued. -/
structure OutCell where
  cell : Cell
  inPort : Option Nat := none
  set : Nat := 0
  at' : Nat := 0
  deriving DecidableEq, Repr

/-- A cell in a port's input buffer: its sub-port and when it entered. -/
structure InCell where
  cell : Cell
  sub : Nat
  at' : Nat
  deriving DecidableEq, Repr

/-- A line-encryption key record (R704): in force, or to be. -/
structure LineKey where
  id : Nat
  salt : Nat
  lo : List Byte
  hi : List Byte
  activateAt : Nat
  deriving DecidableEq, Repr

/-- One sub-port: a bonded port (sublink 0) or one sublink of a split port. -/
structure SubPort where
  /-- State by the codes of STATUS.STATE, and when it was entered. -/
  state : Nat := 0
  since : Nat := 0
  cause : Nat := 0
  width : Nat := 16
  /-- Transmit and receive lane maps: the channel of each lane; and maps announced with the codeword number from which they hold. -/
  txMap : List Nat := []
  rxMap : List Nat := []
  txNext : Option (Nat × List Nat) := none
  rxNext : Option (Nat × List Nat) := none
  expect : Option Peer := none
  /-- Learned lane values by channel: phase, threshold, drop-ring offset. -/
  lanes : List (Nat × Nat × Nat × Nat) := []
  /-- Own and peer's IDENT records, whether lanes carried different ones, the peer's certificate fragments, whether the peer's AUTH has verified, the
  tag, and the common capabilities. -/
  ident : List Byte := []
  peer : List Byte := []
  mixed : Bool := false
  cert : List (Nat × List Byte) := []
  authOk : Bool := false
  tag : Nat := 0
  common : Nat := 0
  degCaps : Bool := false
  /-- A new identity is being checked while cells are held (R681). -/
  reauth : Bool := false
  /-- The training in hand is a full one (R380), not a relock. -/
  full : Bool := true
  failsInRow : Nat := 0
  rtt : Nat := 0
  hold : Nat := 0
  /-- ECHO_REQs awaiting their answer by t1, when the last was sent, the round trips of the IDENT state, the last 16 offsets in 2⁻⁸ ns. -/
  echoes : List Nat := []
  echoAt : Nat := 0
  rtts : List Nat := []
  thetas : List Int := []
  /-- Codeword number to be sent next. -/
  nextNo : Nat := 0
  /-- Cell bits not yet sent, and how many of them belong to cells other than IDLE. -/
  tx : Bits := {}
  txReal : Nat := 0
  /-- DATA codewords kept: number, time sent, payload (R359). -/
  store : List (Nat × Nat × Nat) := []
  /-- REPLAY still to be sent, the payloads to send again, and the number up to which NAKs are ignored. -/
  replay : Option Nat := none
  resend : List Nat := []
  replayTo : Option Nat := none
  /-- The failed codeword whose REPLAY is awaited, and when its first NAK was due; NAKs still to be sent. -/
  await : Option (Nat × Nat) := none
  nakDue : Nat := 0
  rx : Bits := {}
  /-- CONTROL payloads to send, those bound to a codeword number, and those received and not taken up. -/
  ctlOut : List (List Byte) := []
  ctlAt : List (Nat × List Byte) := []
  ctlIn : List (List Byte) := []
  /-- Link-local cells received and not taken up. -/
  linkIn : List Cell := []
  naks : List Nat := []
  badCtl : List Nat := []
  /-- Channels on which TRAIN has checked since LIGHT was entered. -/
  trainSeen : Nat := 0
  /-- When light that checks was last seen, and when any light was. -/
  lightAt : Nat := 0
  seenAt : Nat := 0
  swing : Option Swing := none
  /-- A lane has failed and the switch of maps is awaited (R366). -/
  laneMove : Bool := false
  /-- Flow control (R408–R410): landing store, cells sent and not freed, own cells freed, freed counts last sent and received, by virtual channel. -/
  landing : List Cell := []
  occ : List Nat := []
  freed : List Nat := []
  freedSent : List Nat := []
  creditSentAt : Nat := 0
  freedPeer : List Nat := []
  creditAt : Nat := 0
  stall : Option Nat := none
  kStall : Option Nat := none
  admission : Bucket := {}
  police : Bucket := {}
  /-- Source and destination of the frames whose later cells are demoted (R423). -/
  demote : List (Nat × Nat) := []
  /-- Pauses in force by class: until when, and since when without a break (R552, R554); PAUSE cells ignored until. -/
  paused : List (Nat × Nat × Nat) := []
  ignoreUntil : Option Nat := none
  /-- Class K cells the device originates that wait for admission, and cells queued. -/
  admitQ : List OutCell := []
  outQ : List OutCell := []
  key : Option LineKey := none
  nextKey : Option LineKey := none
  deriving DecidableEq, Repr

/-- A gate schedule (R545, R546): whether it is enabled, its cycle in ns, BASE, entries (open classes C to S as bits 0 to 4, duration in ns), and for a pending one
ACTIVATE_AT and the time it was loaded. -/
structure Gate where
  enabled : Bool := false
  cycle : Nat := 1000
  base : Nat := 0
  entries : List (Nat × Nat) := []
  activateAt : Nat := 0
  loadedAt : Nat := 0
  deriving DecidableEq, Repr

/-- What an optical port holds beside its sub-ports. -/
structure PortSt where
  /-- Split mode of the training in force. -/
  split : Bool := false
  lit : Bool := false
  /-- Heaters kept while DARK (R716). -/
  hold : Bool := false
  /-- Lasers: bias by channel, those marked EOL. Rings: updates in a row off target by channel (+ 18 for drop rings), and the heater drives last set. -/
  bias : List (Nat × Nat) := []
  eol : List Nat := []
  offRing : List (Nat × Nat) := []
  heater : List (Nat × Int) := []
  /-- A spare laser that is tuning to a channel (R367, R368). -/
  tuning : List (Nat × Nat) := []
  /-- Channels darkened by an injection (R684). -/
  dropped : List Nat := []
  /-- When light of any channel was last seen; shut under R384; the probe in hand ends, and the next begins. -/
  anyLight : Nat := 0
  shut : Bool := false
  probeEnd : Option Nat := none
  probeAt : Nat := 0
  /-- Input buffer, oldest first, and the sub-port served last by class (R407). -/
  input : List InCell := []
  turn : List (Nat × Nat) := []
  gate : Gate := {}
  nextGate : Option Gate := none
  /-- PRESET_WRITE that waits for a swing to end (R388): in-flight number. -/
  presetWait : List Nat := []
  deriving DecidableEq, Repr

/-- A frame of which cells have come (R424, R475): source, series (class code; 0 also for demoted cells), its MSEQ, type, and the payloads of its cells on its own
class and on class C. -/
structure PartFrame where
  src : Nat
  cls : Nat
  mseq : Nat
  typ : Nat
  sof : Bool
  eof : Bool
  main : List Byte
  tail : List Byte
  deriving DecidableEq, Repr

/-- Congestion telemetry (R429–R432): counts by ((port × 18 + channel) × 16 + bin), cells discarded in the interval, when it began, the last sample, and the last complete
image with its interval number. -/
structure TeleSt where
  bins : List (Nat × Nat) := []
  drops : Nat := 0
  began : Nat := 0
  sampled : Nat := 0
  image : List Byte := []
  imageNo : Nat := 0
  deriving DecidableEq, Repr

/-! ### Fabric time (R532–R566) -/

/-- What steers fabric time: the accepted time-of-day record and when it came, the last valid PPS edge, the rate in 2⁻³² ns per ns, good exchanges or edges in a row, the
offset filtered, and when HOLDOVER was entered. -/
structure SteerSt where
  tod : Option (Nat × Nat) := none
  ppsAt : Option Nat := none
  firstEdge : Bool := false
  rate : Int := 0
  good : Nat := 0
  ppsThetas : List Int := []
  holdAt : Nat := 0
  deriving DecidableEq, Repr

/-! ### Start-up, power and die-to-die links (R567–R612) -/

/-- Start-up (R602–R605): VIN_AON in tolerance, POR_N released, the stages completed and failed by die (R649's die indices; stage 4 by stack), rails out of range (0 VIN_CORE,
1 VIN_MEM, 2 VIN_IO, 3 VIN_OPT, 4 VIN_AON), the I/O side shut by a rail until L5 (R578), capability records seen of IO-N and IO-S, and a boot that stopped under R600. -/
structure BootSt where
  on : Bool := true
  por : Bool := false
  done : List (Nat × Nat) := []
  failed : List (Nat × Nat) := []
  railsOut : List Nat := []
  ioDead : Bool := false
  caps : List (Nat × List Byte) := []
  stopped : Bool := false
  deriving DecidableEq, Repr

/-- One direction of a Marul link (R593–R595). Sender: SEQ of its next flit, the flits held, credits by virtual channel, resends in a row of the same flit, when an
acknowledgement last advanced, a NAK received and not acted on. Receiver: next SEQ, since when accepted flits are not acknowledged, a NAK to send, credits to return, and the payloads
accepted by virtual channel. -/
structure MarulDir where
  txNext : Nat := 0
  held : List (Nat × List Byte) := []
  credits : List Nat := []
  again : Option (Nat × Nat) := none
  ackAt : Nat := 0
  nakIn : Option Nat := none
  rxNext : Nat := 0
  unacked : Option Nat := none
  nakOut : Bool := false
  back : List Nat := []
  taken : List (Nat × List Byte) := []
  deriving DecidableEq, Repr

/-- A Marul link: its two directions (0 from the first die named), and since when it has been trained without a resend. -/
structure MarulLink where
  fwd : MarulDir := {}
  rev : MarulDir := {}
  cleanAt : Nat := 0
  trained : Bool := false
  deriving DecidableEq, Repr

/-! ### Heat and housekeeping (R613–R646) -/

/-- One housekeeping core: its boot SRAM's image, the SVN it carries, when it last wrote its watchdog and ran its loop, the command that waits for its start, and whether it has run
before. -/
structure HkSt where
  image : List Byte := []
  svn : Nat := 0
  wdogAt : Nat := 0
  loopAt : Nat := 0
  wait : Option Nat := none
  started : Bool := false
  /-- Digest of the image it runs, for measurements 2–8 (R702). -/
  running : List Byte := []
  deriving DecidableEq, Repr

/-- Sensing (R615–R624). -/
structure ThermSt where
  roundAt : Nat := 0
  roundNo : Nat := 0
  published : Bool := false
  /-- Conversions of this round by sensor: count, temperature, flags OPEN and IMPLAUSIBLE. -/
  conv : List (Nat × Nat × Int × Bool × Bool) := []
  /-- Latest plausible true samples by sensor, with their round (R627). -/
  latest : List (Nat × Int × Nat) := []
  /-- Consecutive rounds out of line with the neighbours, and in line, by sensor (R619). -/
  away : List (Nat × Nat) := []
  near : List (Nat × Nat) := []
  /-- Consecutive rounds in which every position of a line was plausible (R617). -/
  whole : List (Nat × Nat) := []
  /-- Consecutive failed reads by stack (R624). -/
  fails : List (Nat × Nat) := []
  /-- Sensors, and stacks as 96 + n, whose FILT the next sample loads (R622). -/
  load : List Nat := []
  /-- RED_STACK as firmware last wrote it while a span's fallback holds (R638). -/
  stackRed : List (Nat × Nat) := []
  deriving DecidableEq, Repr

/-- Clocks and regulators (R581–R587): clock requests by span in MHz, when a span's clock last changed, footings whose housekeeping core has run an image, and failed
phases by stack. -/
structure ClockSt where
  req : List (Nat × Nat) := []
  changedAt : List (Nat × Nat) := []
  ran : List Nat := []
  hbmFailed : List (Nat × Nat) := []
  deriving DecidableEq, Repr

/-! ### Security (R695–R711) -/

/-- An SPDM session (R701): its number, its transport (0–3 the DOE mailboxes of the links, 4 MCTP), whether its handshake is complete, and how often each side's key has been
updated. -/
structure SpdmSession where
  id : Nat
  chan : Nat
  open' : Bool := false
  reqKey : Nat := 0
  rspKey : Nat := 0
  deriving DecidableEq, Repr

/-- Fuses and keys: owner digests bound by bank, banks revoked, the debug nonce in force, whether the debug ports have been opened since L5, the token being carried out with its
scope and the memory keys that are to be erased (R711), and the SPDM
responder: sessions, transports that have negotiated their version, capabilities and algorithms (a count of 0–3 by transport). -/
structure SecSt where
  owners : List (Nat × List Byte) := []
  revoked : List Nat := []
  nonce : Option (List Byte) := none
  opened : Bool := false
  erasing : Option Nat := none
  scope : Nat := 0
  eraseKeys : List (Nat × Nat) := []
  sessions : List SpdmSession := []
  nextSession : Nat := 1
  spdm : List (Nat × Nat) := []
  deriving DecidableEq, Repr

/-- The clock of the model: nanoseconds since power-on, and fabric time in force (R19) with its fraction in 2⁻³² ns. -/
structure TimeSt where
  nowNs : Nat := 0
  /-- When POR_N was last released. -/
  porAt : Nat := 0
  ft : Nat := 0
  ftFrac : Nat := 0
  deriving DecidableEq, Repr

/-- A value latched for a requester (R23). -/
structure Latch where
  req : Nat
  off : Nat
  val : Word
  deriving DecidableEq, Repr

/-- The whole device. -/
structure State where
  /-- Commands that wait, oldest first. -/
  pending : List Instr := []
  /-- Setup registers that do not hold their reset value, by offset (R21). -/
  regs : List (Nat × Word) := []
  latches : List Latch := []
  time : TimeSt := {}
  host : HostSt := {}
  steps : StepSt := {}
  mm : MemSt := {}
  faults : FaultSt := {}
  log : LogSt := {}
  streams : StreamSt := {}
  router : RouterSt := {}
  trs : List (Nat × TrsSt) := []
  cbk : List (Nat × CbkSt) := []
  power : PowerSt := {}
  traceLost : List (Nat × Nat) := []
  rmt : RmtSt := {}
  col : ColSt := {}
  cores : List (Nat × CoreSt) := []
  ports : List (Nat × PortSt) := []
  subs : List (Nat × SubPort) := []
  parts : List PartFrame := []
  cutFrames : List (Nat × Nat) := []
  tele : TeleSt := {}
  steer : SteerSt := {}
  actions : List (Nat × List Byte) := []
  boot : BootSt := {}
  marul : List (Nat × MarulLink) := []
  hk : List (Nat × HkSt) := []
  therm : ThermSt := {}
  clk : ClockSt := {}
  sec : SecSt := {}
  /-- What the device has sent or answered, oldest first. -/
  out : List Out := []
  /-- How many free values the model has drawn (the model's own field, not the spec's): where the spec leaves a value
  open, the value is an opaque function of Config applied to this count. -/
  freeCtr : Nat := 0
  deriving DecidableEq, Repr

/-- The memories after power-on: no byte is listed, and every key holds undefined contents until it is written or cleared (R662, L5). -/
def powerOnMem : Memory := { undef := [⟨0, 0x20000000000, 0⟩] }

/-- The state after power-on: VIN_AON in tolerance and POR_N asserted. Every register at the reset value its field map gives
(none is listed), every memory undefined, every table empty. The memories' undefined contents are the first free value drawn. -/
def State.reset : State := { mm := { mem := powerOnMem }, freeCtr := 1 }

end Sys2Proof.Machine
end

