-- ==== Sys2Proof/Machine/Coding.lean ====
section
/-! DEFINITION. The code on a channel: bit streams, GF(2¹⁰), the Reed–Solomon (272,256) code of R352, and the CRC-10 of R354. The order of a payload's bits (bit k is bit
k mod 10 of symbol k div 10), of the symbols (symbol 0 the coefficient of x²⁷¹) and of the CRC's input (n from bit 15 down, then payload bit 0 first) is the model's choice (log
entry 41). -/

namespace Sys2Proof.Machine

open Sys2Proof

/-! ### Bit streams -/

/-- A stream with n more bits of v behind it. -/
def Bits.push (b : Bits) (n v : Nat) : Bits := ⟨b.n + n, b.v + (v % 2 ^ n) <<< b.n⟩

/-- The first n bits of a stream, and the stream without them. -/
def Bits.pull (b : Bits) (n : Nat) : Nat × Bits := (b.v % 2 ^ n, ⟨b.n - n, b.v >>> n⟩)

/-! ### GF(2¹⁰) with x¹⁰ + x³ + 1 -/

/-- The product of two field elements, bit by bit of the first. -/
def gfMulGo (a b : Nat) : Nat → Nat
  | 0 => 0
  | k + 1 =>
    let r := gfMulGo a b k * 2
    let r := if 1024 ≤ r then r.xor 0x409 else r
    if a.testBit (9 - k) then r.xor b else r

def gfMul (a b : Nat) : Nat := gfMulGo a b 10

/-- αⁿ for α = x. -/
def gfPow : Nat → Nat
  | 0 => 1
  | n + 1 => gfMul 2 (gfPow n)

/-- a raised to 2^k − 2 by repeated squaring: the inverse for k = 10. -/
def gfInvGo (a : Nat) : Nat → Nat
  | 0 => 1
  | 1 => 1
  | k + 1 => let r := gfInvGo a k; gfMul (gfMul r r) (gfMul a a)

def gfInv (a : Nat) : Nat := gfInvGo a 10

/-- The value of a polynomial, highest coefficient first, at x. -/
def gfEval (p : List Nat) (x : Nat) : Nat := p.foldl (fun a c => (gfMul a x).xor c) 0

/-- The product of a polynomial (highest first) by x − r. -/
def gfTimes (p : List Nat) (r : Nat) : List Nat := List.zipWith Nat.xor (p ++ [0]) (0 :: p.map (gfMul r))

/-- The generator polynomial: the product of x − αⁱ for i = 0–15, highest first. -/
def rsGen : List Nat := (List.range 16).foldl (fun p i => gfTimes p (gfPow i)) [1]

/-! ### Encoding -/

/-- The 16 check symbols of 256 symbols. -/
def rsCheck (msg : List Nat) : List Nat :=
  let g := rsGen.drop 1
  msg.foldl (fun (r : List Nat) m =>
    let f := (r.headD 0).xor m
    List.zipWith Nat.xor (r.drop 1 ++ [0]) (g.map (gfMul f))) (List.replicate 16 0)

/-- The CRC-10 of R354: over bits 15 to 0 of n, then the payload. -/
def crc10 (control : Bool) (n payload : Nat) : Nat :=
  let r0 := (List.range 16).foldl (fun r i => crcBit 10 0x233 r (n.testBit (15 - i))) (if control then 0x3FF else 0)
  (List.range 2550).foldl (fun r i => crcBit 10 0x233 r (payload.testBit i)) r0

/-- The 272 symbols of the codeword numbered n that carries a payload. -/
def encodeWord (control : Bool) (n payload : Nat) : List Nat :=
  let m := ((List.range 255).map fun i => (payload >>> (10 * i)) % 1024) ++ [crc10 control n payload]
  m ++ rsCheck m

/-- The 340 bytes of a codeword's 272 symbols. -/
def wordBytes (w : List Nat) : List Byte := leBytes 340 (w.reverse.foldl (fun a c => a * 1024 + c) 0)

/-! ### Decoding -/

/-- The 16 syndromes. -/
def syndromes (w : List Nat) : List Nat := (List.range 16).map fun i => gfEval w (gfPow i)

/-- The working state of the Berlekamp–Massey run: the locator and the last one, lowest coefficient first, its length, the shift, and the last discrepancy. -/
structure BmState where
  c : List Nat := [1]
  b : List Nat := [1]
  len : Nat := 0
  m : Nat := 1
  bd : Nat := 1
  deriving DecidableEq, Repr

/-- The sum of two polynomials, lowest first. -/
def polyAdd : List Nat → List Nat → List Nat
  | [], q => q
  | p, [] => p
  | a :: p, b :: q => a.xor b :: polyAdd p q

/-- One step of the run, for syndrome k. -/
def bmStep (s : List Nat) (t : BmState) (k : Nat) : BmState :=
  let d := (List.range (t.len + 1)).foldl (fun a i => a.xor (gfMul (t.c.getD i 0) (if i ≤ k then s.getD (k - i) 0 else 0))) 0
  if d = 0 then { t with m := t.m + 1 }
  else
    let f := gfMul d (gfInv t.bd)
    let c' := polyAdd t.c (List.replicate t.m 0 ++ t.b.map (gfMul f))
    if 2 * t.len ≤ k then { c := c', b := t.c, len := k + 1 - t.len, m := 1, bd := d } else { t with c := c', m := t.m + 1 }

/-- The value of a polynomial, lowest coefficient first, at x. -/
def polyAt (p : List Nat) (x : Nat) : Nat := gfEval p.reverse x

/-- The corrected word and the number of symbols corrected, when 8 or fewer are wrong (R352). -/
def rsDecode (w : List Nat) : Option (List Nat × Nat) :=
  let s := syndromes w
  if s.all (· == 0) then some (w, 0)
  else
    let t := (List.range 16).foldl (bmStep s) {}
    if 8 < t.len then none
    else
      let omega := (List.range 16).map fun k => (List.range (k + 1)).foldl (fun a i => a.xor (gfMul (t.c.getD i 0) (s.getD (k - i) 0))) 0
      let deriv := (List.range t.c.length).map fun i => if i % 2 = 0 then t.c.getD (i + 1) 0 else 0
      let fixes := (List.range 272).filterMap fun i =>
        let x := gfPow (271 - i)
        let y := gfInv x
        if polyAt t.c y = 0 then some (i, gfMul x (gfMul (polyAt omega y) (gfInv (polyAt deriv y)))) else none
      let w' := fixes.foldl (fun (a : List Nat) f => a.set f.1 ((a.getD f.1 0).xor f.2)) w
      if fixes.length = t.len ∧ (syndromes w').all (· == 0) then some (w', t.len) else none

/-- What a codeword numbered n decodes to: its kind (CONTROL or DATA), payload and symbols corrected; none when it fails (R354). -/
def decodeWord (n : Nat) (w : List Nat) : Option (Bool × Nat × Nat) := match rsDecode w with
  | none => none
  | some (v, k) =>
    let payload := (v.take 255).reverse.foldl (fun a c => a * 1024 + c) 0
    let crc := v.getD 255 0
    if crc = crc10 true n payload then some (true, payload, k)
    else if crc = crc10 false n payload then some (false, payload, k)
    else none

end Sys2Proof.Machine
end

