-- ==== Sys2Proof/Config.lean ====
section
/-! DEFINITION. What the spec leaves open, as constants with no body: no proof can see a value of them. Each is applied to a plain
count of State (`freeCtr`) or to the operands the value depends on. -/

namespace Sys2Proof

/-- A byte of memory whose contents the spec leaves undefined since event `gen` (R242, R253, R255, R274, R662, R725). -/
opaque Config.undefByte (gen addr : Nat) : Byte
/-- A byte delivered by a read that failed to correct or that met the poison mark (R266). -/
opaque Config.poisonByte (ctr addr : Nat) : Byte
/-- Whether a 64-byte block of a stack whose contents are undefined since event `gen` reads with the poison mark (R725). -/
opaque Config.undefMark (gen block : Nat) : Bool
/-- A free number: nonces, random phases, and every other open value that a log entry names. -/
opaque Config.free (ctr : Nat) : Nat
/-- The filter of R540 and R542 over the last offsets, newest first, in 2⁻⁸ ns: the spec names no filter. -/
opaque Config.offsetFilter (thetas : List Int) : Int
/-- The rate the time loop sets from a filtered offset, in 2⁻³² ns per ns, before the limit of R537: the spec gives no law. -/
opaque Config.steer (ctr : Nat) (theta : Int) : Int
/-- SHA-384 of a byte string (R697): an uninterpreted function. -/
opaque Config.sha384 (msg : List Byte) : List Byte
/-- Whether an ECDSA P-384 signature over a digest verifies under a public key (R698, R372, R709). -/
opaque Config.ecdsaVerify (key digest sig : List Byte) : Bool
/-- The ECDSA P-384 signature DEVICE_KEY makes over a digest, with the given nonce count (R703, R372). -/
opaque Config.ecdsaSign (ctr : Nat) (digest : List Byte) : List Byte
/-- AES-256-GCM: the ciphertext followed by the tag (R704, R705). -/
opaque Config.aesGcm (key iv aad text : List Byte) : List Byte
/-- AES-256-GCM opened: the text under a ciphertext followed by its tag, none where the tag fails (R705). -/
opaque Config.aesGcmOpen (key iv aad sealed : List Byte) : Option (List Byte)
/-- What a certificate chain holds when it is well formed and its signatures verify: the device certificate's public key and the root certificate (R697). -/
opaque Config.chainParts (chain : List Byte) : Option (List Byte × List Byte)
/-- CA_ROOT: the SHA-384 digest of the device-CA root in the fuses (R694, R697). -/
opaque Config.caRoot : List Byte
/-- The bytes of the device's own certificate chain and public key (R697). -/
opaque Config.identityChain : List Byte
/-- The device's public key. -/
opaque Config.devicePublicKey : List Byte

/-- The voltage in mV that a span's fused table gives a clock in MHz (R585). -/
opaque Config.fusedMv (span mhz : Nat) : Nat
/-- The fused N0 and SLOPE of a sensor (R615). -/
opaque Config.sensorN0 (sensor : Nat) : Nat
opaque Config.sensorSlope (sensor : Nat) : Nat
/-- ROOT[i] and DEBUG_ROOT of the fuses, the debug-token public key and the device certificate's public key in the identity store (R695, R709). -/
opaque Config.rootDigest (slot : Nat) : List Byte
opaque Config.debugRoot : List Byte
opaque Config.debugKey : List Byte

end Sys2Proof
end

