-- ==== Sys2Proof/Machine/RegMap.lean ====
section
/-! DEFINITION. The setup window of R21–R29: every register the field maps of the spec give, its place, its fields,
their access codes, reset values and the highest reset level each survives (R31, R32), and the operations on it.
A register that holds its reset value is not listed in State.regs. -/

namespace Sys2Proof.Machine

/-- One field of a register: bits hi to lo, its access code (R27), its reset value (R31) and the highest
reset level it survives (R32; 0 for a field every reset that touches its block clears, 5 for a fixed field). -/
structure FieldDef where
  hi : Nat
  lo : Nat
  acc : Access
  rst : Nat
  surv : Nat
  deriving DecidableEq, Repr

/-- One register, or an array of them: the first offset, the (count, stride) of each index from the outermost in,
whether it is the low word of a pair (R22), and its fields. Bits no field names are reserved (R12). -/
structure RegDef where
  off : Nat
  dims : List (Nat × Nat)
  pairLow : Bool
  fields : List FieldDef
  deriving DecidableEq, Repr

/-- The place of a named field: the register's offset in the setup window and the bits. -/
structure Fld where
  off : Nat
  hi : Nat
  lo : Nat
  deriving DecidableEq, Repr


/-- The registers of block TOP, from the field maps of the spec. -/
def regsTop : List RegDef := [
  -- PART_ID
  ⟨0x0, [], false, [⟨31, 24, .ro, 0x9, 5⟩, ⟨23, 16, .ro, 0xa1, 5⟩, ⟨15, 12, .ro, 0x1, 5⟩, ⟨11, 8, .ro, 0x0, 5⟩, ⟨7, 0, .ro, 0x18, 5⟩]⟩,
  -- SETUP_LOCK
  ⟨0x20, [], false, [⟨0, 0, .rwl, 0x0, 3⟩]⟩,
  -- BAD_ACCESS
  ⟨0x24, [], false, [⟨31, 0, .rc, 0x0, 4⟩]⟩,
  -- LOCK_WRITES
  ⟨0x28, [], false, [⟨31, 0, .rc, 0x0, 4⟩]⟩,
  -- READY
  ⟨0x40, [], false, [⟨31, 24, .ro, 0x0, 3⟩, ⟨23, 16, .ro, 0x0, 3⟩, ⟨15, 9, .ro, 0x0, 4⟩, ⟨8, 8, .ro, 0x0, 4⟩, ⟨7, 7, .ro, 0x0, 3⟩, ⟨1, 0, .ro, 0x0, 4⟩]⟩,
  -- READY_LNK_LO
  ⟨0x44, [], true, [⟨31, 0, .ro, 0x0, 4⟩]⟩,
  -- READY_LNK_HI
  ⟨0x48, [], false, [⟨1, 0, .ro, 0x0, 4⟩]⟩,
  -- STRAPS
  ⟨0x4c, [], false, [⟨31, 31, .ro, 0x0, 4⟩, ⟨30, 29, .ro, 0x0, 4⟩, ⟨28, 26, .ro, 0x0, 4⟩, ⟨19, 0, .ro, 0x0, 4⟩]⟩,
  -- ALERT
  ⟨0x50, [], false, [⟨8, 8, .w1c, 0x0, 4⟩, ⟨7, 7, .w1c, 0x0, 4⟩, ⟨6, 6, .w1c, 0x0, 4⟩, ⟨5, 5, .w1c, 0x0, 4⟩, ⟨4, 4, .w1c, 0x0, 4⟩, ⟨3, 3, .w1c, 0x0, 4⟩, ⟨2, 2, .w1c, 0x0, 4⟩, ⟨1, 1, .w1c, 0x0, 4⟩]⟩,
  -- POWER
  ⟨0x54, [], false, [⟨27, 16, .ro, 0x960, 4⟩, ⟨15, 0, .rc, 0x0, 4⟩]⟩,
  -- POWER_IN
  ⟨0x58, [], false, [⟨15, 0, .ro, 0x0, 4⟩]⟩,
  -- FLT_CFG
  ⟨0x80, [], false, [⟨31, 24, .rwl, 0xa, 4⟩, ⟨13, 0, .rwl, 0xa, 4⟩]⟩,
  -- RESET
  ⟨0x84, [], false, [⟨31, 29, .ro, 0x0, 4⟩, ⟨28, 21, .ro, 0x0, 4⟩]⟩,
  -- RESET_BLOCKED
  ⟨0x88, [], false, [⟨31, 0, .rc, 0x0, 4⟩]⟩,
  -- FLT_COUNTS
  ⟨0x8c, [], false, [⟨31, 24, .rc, 0x0, 4⟩, ⟨23, 16, .rc, 0x0, 4⟩, ⟨15, 8, .rc, 0x0, 4⟩, ⟨7, 0, .rc, 0x0, 4⟩]⟩,
  -- LOG
  ⟨0x90, [], false, [⟨31, 0, .ro, 0x0, 4⟩]⟩,
  -- LOG_STATE
  ⟨0x94, [], false, [⟨31, 31, .ro, 0x0, 4⟩, ⟨17, 0, .ro, 0x0, 4⟩]⟩,
  -- STEP_CFG
  ⟨0x1000, [], false, [⟨31, 31, .rwl, 0x0, 3⟩, ⟨19, 8, .rwl, 0xfff, 3⟩, ⟨7, 0, .ro, 0x14, 5⟩]⟩,
  -- GRAPH_BASE_LO
  ⟨0x1004, [], true, [⟨31, 12, .rwl, 0x0, 3⟩]⟩,
  -- GRAPH_BASE_HI
  ⟨0x1008, [], false, [⟨7, 0, .rwl, 0x0, 3⟩]⟩,
  -- GRAPH_EPOCH
  ⟨0x100c, [], false, [⟨7, 0, .ro, 0x0, 4⟩]⟩,
  -- STEP_COMMITS
  ⟨0x1010, [], false, [⟨31, 0, .ro, 0x0, 3⟩]⟩,
  -- STEP_ABORTS
  ⟨0x1014, [], false, [⟨31, 0, .ro, 0x0, 3⟩]⟩,
  -- STEP_EVENTS
  ⟨0x1018, [], false, [⟨31, 24, .rc, 0x0, 3⟩, ⟨23, 16, .rc, 0x0, 3⟩, ⟨15, 8, .rc, 0x0, 3⟩, ⟨7, 0, .rc, 0x0, 3⟩]⟩]

/-- The registers of block HOST, from the field maps of the spec. -/
def regsHost : List RegDef := [
  -- CFG
  ⟨0x100000, [], false, [⟨31, 31, .rwl, 0x0, 4⟩, ⟨24, 17, .rwl, 0xa, 4⟩, ⟨16, 0, .rwl, 0x1f4, 4⟩]⟩,
  -- LINK
  ⟨0x100010, [(4, 0x4)], false, [⟨31, 31, .ro, 0x0, 4⟩, ⟨30, 30, .ro, 0x0, 4⟩, ⟨29, 29, .ro, 0x0, 4⟩, ⟨28, 26, .ro, 0x0, 4⟩, ⟨25, 21, .ro, 0x0, 4⟩, ⟨15, 8, .rc, 0x0, 4⟩, ⟨7, 0, .rc, 0x0, 4⟩]⟩,
  -- COUNTS
  ⟨0x100020, [], false, [⟨31, 16, .rc, 0x0, 4⟩, ⟨15, 0, .rc, 0x0, 4⟩]⟩,
  -- PENDING
  ⟨0x100024, [], false, [⟨12, 0, .ro, 0x0, 4⟩]⟩,
  -- PF_DB_LO
  ⟨0x100100, [(4, 0x10)], true, [⟨31, 12, .rwl, 0x0, 4⟩]⟩,
  -- PF_DB_HI
  ⟨0x100104, [(4, 0x10)], false, [⟨31, 0, .rwl, 0x0, 4⟩]⟩,
  -- PF_ERR
  ⟨0x100108, [(4, 0x10)], false, [⟨31, 31, .rwl, 0x0, 4⟩, ⟨14, 0, .rwl, 0x0, 4⟩]⟩,
  -- CTL_SQ_LO
  ⟨0x100200, [(8, 0x20)], true, [⟨31, 12, .rwl, 0x0, 4⟩]⟩,
  -- CTL_SQ_HI
  ⟨0x100204, [(8, 0x20)], false, [⟨31, 0, .rwl, 0x0, 4⟩]⟩,
  -- CTL_CQ_LO
  ⟨0x100208, [(8, 0x20)], true, [⟨31, 12, .rwl, 0x0, 4⟩]⟩,
  -- CTL_CQ_HI
  ⟨0x10020c, [(8, 0x20)], false, [⟨31, 0, .rwl, 0x0, 4⟩]⟩,
  -- CTL_CFG
  ⟨0x100210, [(8, 0x20)], false, [⟨31, 31, .rwl, 0x0, 4⟩, ⟨30, 30, .rwl, 0x1, 4⟩, ⟨29, 29, .rwl, 0x0, 4⟩, ⟨28, 24, .rwl, 0x8, 4⟩, ⟨23, 20, .rwl, 0x8, 4⟩, ⟨15, 8, .rwl, 0x0, 4⟩, ⟨7, 0, .rwl, 0xff, 4⟩]⟩,
  -- CTL_VEC
  ⟨0x100214, [(8, 0x20)], false, [⟨31, 21, .rwl, 0x0, 4⟩, ⟨20, 10, .rwl, 0x0, 4⟩, ⟨9, 2, .rwl, 0x0, 4⟩]⟩,
  -- CTL_COAL
  ⟨0x100218, [(8, 0x20)], false, [⟨9, 0, .rwl, 0x0, 4⟩]⟩,
  -- SQ_STATE_LO
  ⟨0x180000, [(32768, 0x8)], true, [⟨31, 0, .ro, 0x0, 4⟩]⟩,
  -- SQ_STATE_HI
  ⟨0x180004, [(32768, 0x8)], false, [⟨31, 31, .ro, 0x0, 4⟩, ⟨30, 30, .ro, 0x0, 4⟩, ⟨29, 29, .ro, 0x0, 4⟩, ⟨28, 28, .ro, 0x0, 4⟩, ⟨27, 24, .ro, 0x0, 4⟩, ⟨23, 16, .ro, 0x0, 4⟩, ⟨14, 0, .ro, 0x0, 4⟩]⟩,
  -- CQ_STATE_LO
  ⟨0x1c0000, [(32768, 0x8)], true, [⟨31, 0, .ro, 0x0, 4⟩]⟩,
  -- CQ_STATE_HI
  ⟨0x1c0004, [(32768, 0x8)], false, [⟨31, 31, .ro, 0x0, 4⟩, ⟨30, 30, .ro, 0x0, 4⟩, ⟨29, 29, .ro, 0x0, 4⟩, ⟨28, 28, .ro, 0x0, 4⟩, ⟨27, 27, .ro, 0x0, 4⟩, ⟨26, 22, .ro, 0x0, 4⟩, ⟨15, 8, .ro, 0x0, 4⟩]⟩]

/-- The registers of block STREAM, from the field maps of the spec. -/
def regsStream : List RegDef := [
  -- TABLE_LO
  ⟨0x200000, [], true, [⟨31, 23, .rwl, 0x0, 3⟩]⟩,
  -- TABLE_HI
  ⟨0x200004, [], false, [⟨7, 0, .rwl, 0x0, 3⟩]⟩,
  -- CTX_LO
  ⟨0x200008, [], true, [⟨31, 24, .rwl, 0x0, 3⟩]⟩,
  -- CTX_HI
  ⟨0x20000c, [], false, [⟨7, 0, .rwl, 0x0, 3⟩]⟩,
  -- CACHE
  ⟨0x200010, [], false, [⟨26, 16, .ro, 0x0, 3⟩, ⟨13, 0, .ro, 0x0, 3⟩]⟩,
  -- MISSES
  ⟨0x200014, [], false, [⟨31, 0, .ro, 0x0, 3⟩]⟩,
  -- WALK
  ⟨0x200018, [], false, [⟨31, 16, .rc, 0x0, 3⟩, ⟨15, 0, .rc, 0x0, 3⟩]⟩,
  -- EVENTS
  ⟨0x20001c, [], false, [⟨31, 24, .rc, 0x0, 3⟩, ⟨23, 16, .rc, 0x0, 3⟩, ⟨15, 8, .rc, 0x0, 3⟩, ⟨7, 0, .rc, 0x0, 3⟩]⟩]

/-- The registers of block SPN, from the field maps of the spec. -/
def regsSpn : List RegDef := [
  -- CLK
  ⟨0x300000, [(8, 0x10000)], false, [⟨31, 21, .ro, 0x640, 4⟩, ⟨20, 10, .ro, 0x320, 4⟩, ⟨9, 0, .ro, 0x26c, 4⟩]⟩,
  -- PHASES
  ⟨0x300004, [(8, 0x10000)], false, [⟨31, 8, .ro, 0x0, 4⟩, ⟨7, 3, .ro, 0x18, 4⟩, ⟨2, 1, .ro, 0x0, 4⟩]⟩,
  -- MAP
  ⟨0x300010, [(8, 0x10000), (4, 0x4)], false, [⟨31, 31, .ro, 0x0, 4⟩, ⟨28, 24, .ro, 0x0, 4⟩, ⟨23, 23, .ro, 0x0, 4⟩, ⟨20, 16, .ro, 0x0, 4⟩, ⟨15, 15, .ro, 0x0, 4⟩, ⟨12, 8, .ro, 0x0, 4⟩, ⟨7, 7, .ro, 0x0, 4⟩, ⟨4, 0, .ro, 0x0, 4⟩]⟩,
  -- HEALTH
  ⟨0x300020, [(8, 0x10000)], false, [⟨17, 0, .ro, 0x0, 4⟩]⟩,
  -- FAULTED
  ⟨0x300024, [(8, 0x10000)], false, [⟨31, 31, .ro, 0x0, 4⟩, ⟨15, 0, .ro, 0x0, 4⟩]⟩,
  -- SPARE
  ⟨0x300028, [(8, 0x10000)], false, [⟨31, 31, .w1c, 0x0, 4⟩, ⟨23, 16, .rwl, 0x18, 4⟩, ⟨15, 0, .ro, 0x0, 4⟩]⟩,
  -- TESTED
  ⟨0x30002c, [(8, 0x10000)], false, [⟨17, 0, .ro, 0x0, 4⟩]⟩]

/-- The registers of block CORE, from the field maps of the spec. -/
def regsCore : List RegDef := [
  -- TRS_CFG
  ⟨0x400200, [(144, 0x1000)], false, [⟨8, 8, .rwl, 0x1, 3⟩, ⟨3, 0, .rwl, 0x3, 3⟩]⟩,
  -- TRS_STATUS
  ⟨0x400204, [(144, 0x1000)], false, [⟨31, 30, .ro, 0x0, 0⟩, ⟨29, 29, .ro, 0x0, 0⟩, ⟨23, 23, .ro, 0x0, 0⟩, ⟨22, 22, .ro, 0x0, 0⟩, ⟨21, 21, .ro, 0x0, 0⟩, ⟨20, 20, .ro, 0x0, 0⟩, ⟨12, 0, .ro, 0x0, 0⟩]⟩,
  -- TRS_PASSES
  ⟨0x400208, [(144, 0x1000)], false, [⟨31, 0, .ro, 0x0, 1⟩]⟩,
  -- TRS_FEED_CYCLES
  ⟨0x40020c, [(144, 0x1000)], false, [⟨31, 0, .ro, 0x0, 1⟩]⟩,
  -- TRS_HOLD_CYCLES
  ⟨0x400210, [(144, 0x1000)], false, [⟨31, 0, .ro, 0x0, 1⟩]⟩,
  -- TRS_ACTIVE
  ⟨0x400214, [(144, 0x1000)], false, [⟨15, 0, .ro, 0x0, 0⟩]⟩,
  -- TRS_PARITY
  ⟨0x400218, [(144, 0x1000)], false, [⟨7, 0, .rc, 0x0, 3⟩]⟩,
  -- CBK_TILES
  ⟨0x400220, [(144, 0x1000)], false, [⟨31, 0, .ro, 0x0, 1⟩]⟩,
  -- CBK_BUBBLES
  ⟨0x400224, [(144, 0x1000)], false, [⟨31, 0, .ro, 0x0, 1⟩]⟩,
  -- NUM_FLAGS
  ⟨0x400240, [(144, 0x1000)], false, [⟨31, 24, .rc, 0x0, 3⟩, ⟨23, 16, .rc, 0x0, 3⟩, ⟨15, 8, .rc, 0x0, 3⟩, ⟨7, 0, .rc, 0x0, 3⟩]⟩,
  -- NUM_LAST
  ⟨0x400244, [(144, 0x1000)], false, [⟨31, 24, .ro, 0x0, 3⟩, ⟨15, 0, .ro, 0x0, 3⟩]⟩,
  -- SPAD
  ⟨0x400260, [(144, 0x1000)], false, [⟨31, 24, .rc, 0x0, 3⟩, ⟨23, 16, .rc, 0x0, 3⟩]⟩,
  -- SPAD_CONFLICT
  ⟨0x400264, [(144, 0x1000)], false, [⟨31, 0, .ro, 0x0, 1⟩]⟩]

/-- The registers of block DECK, from the field maps of the spec. -/
def regsDeck : List RegDef := [
  -- CFG
  ⟨0x500000, [(4, 0x1000), (2, 0x4)], false, [⟨2, 0, .rwl, 0x4, 3⟩]⟩,
  -- HITS
  ⟨0x500010, [(4, 0x1000), (2, 0x4)], false, [⟨31, 0, .ro, 0x0, 2⟩]⟩,
  -- MISSES
  ⟨0x500018, [(4, 0x1000), (2, 0x4)], false, [⟨31, 0, .ro, 0x0, 2⟩]⟩,
  -- ECC
  ⟨0x500020, [(4, 0x1000), (2, 0x4)], false, [⟨31, 16, .rc, 0x0, 2⟩, ⟨15, 8, .rc, 0x0, 2⟩]⟩]

/-- The registers of block HBM, from the field maps of the spec. -/
def regsHbm : List RegDef := [
  -- KEY
  ⟨0x600000, [(8, 0x1000), (5, 0x4)], false, [⟨21, 0, .rwl, 0x0, 4⟩]⟩,
  -- CFG
  ⟨0x600020, [(8, 0x1000)], false, [⟨31, 24, .rwl, 0x10, 4⟩, ⟨23, 16, .rwl, 0x18, 4⟩, ⟨15, 15, .rwl, 0x1, 4⟩]⟩,
  -- STATUS
  ⟨0x600024, [(8, 0x1000)], false, [⟨31, 31, .ro, 0x0, 0⟩, ⟨30, 30, .ro, 0x1, 0⟩, ⟨29, 29, .w1c, 0x0, 4⟩, ⟨28, 28, .ro, 0x0, 4⟩, ⟨27, 27, .ro, 0x0, 4⟩, ⟨26, 26, .ro, 0x0, 4⟩, ⟨25, 25, .w1c, 0x0, 4⟩, ⟨12, 0, .ro, 0x0, 4⟩]⟩,
  -- CE
  ⟨0x600028, [(8, 0x1000)], false, [⟨31, 0, .rc, 0x0, 4⟩]⟩,
  -- UE
  ⟨0x60002c, [(8, 0x1000)], false, [⟨31, 0, .rc, 0x0, 4⟩]⟩,
  -- SKEW
  ⟨0x600030, [(8, 0x1000)], false, [⟨31, 24, .ro, 0x0, 4⟩, ⟨20, 16, .ro, 0x0, 4⟩]⟩,
  -- TRAFFIC
  ⟨0x600034, [(8, 0x1000)], false, [⟨31, 0, .ro, 0x0, 4⟩]⟩]

/-- The registers of block LNK, from the field maps of the spec. -/
def regsLnk : List RegDef := [
  -- CFG
  ⟨0x800000, [(34, 0x4000)], false, [⟨31, 31, .rwl, 0x0, 4⟩, ⟨30, 30, .rwl, 0x0, 4⟩, ⟨29, 28, .rwl, 0x0, 4⟩, ⟨23, 16, .rwl, 0x40, 4⟩]⟩,
  -- STATUS
  ⟨0x800004, [(34, 0x4000)], false, [⟨31, 29, .ro, 0x0, 4⟩, ⟨28, 28, .ro, 0x0, 4⟩, ⟨27, 27, .ro, 0x0, 4⟩, ⟨26, 26, .ro, 0x0, 4⟩, ⟨25, 25, .ro, 0x0, 4⟩, ⟨24, 24, .ro, 0x0, 4⟩, ⟨23, 18, .ro, 0x0, 4⟩, ⟨17, 16, .ro, 0x0, 4⟩, ⟨15, 8, .ro, 0x0, 4⟩, ⟨7, 4, .ro, 0x0, 4⟩, ⟨3, 0, .ro, 0x0, 4⟩]⟩,
  -- PEER
  ⟨0x800008, [(34, 0x4000)], false, [⟨31, 26, .ro, 0x0, 4⟩, ⟨20, 0, .ro, 0x0, 4⟩]⟩,
  -- PEER_CAPS
  ⟨0x80000c, [(34, 0x4000)], false, [⟨31, 0, .ro, 0x0, 4⟩]⟩,
  -- RTT
  ⟨0x800010, [(34, 0x4000)], false, [⟨31, 16, .ro, 0x0, 4⟩, ⟨15, 0, .ro, 0x0, 4⟩]⟩,
  -- TX_FAIL
  ⟨0x800014, [(34, 0x4000)], false, [⟨17, 0, .ro, 0x0, 4⟩]⟩,
  -- RX_FAIL
  ⟨0x800018, [(34, 0x4000)], false, [⟨17, 0, .ro, 0x0, 4⟩]⟩,
  -- SPARES
  ⟨0x80001c, [(34, 0x4000)], false, [⟨31, 31, .ro, 0x0, 4⟩, ⟨30, 26, .ro, 0x0, 4⟩, ⟨25, 25, .ro, 0x0, 4⟩, ⟨24, 20, .ro, 0x0, 4⟩, ⟨19, 19, .ro, 0x0, 4⟩, ⟨18, 14, .ro, 0x0, 4⟩, ⟨13, 13, .ro, 0x0, 4⟩, ⟨12, 8, .ro, 0x0, 4⟩]⟩,
  -- FEC
  ⟨0x800020, [(34, 0x4000)], false, [⟨31, 0, .rc, 0x0, 4⟩]⟩,
  -- UNCORR
  ⟨0x800024, [(34, 0x4000)], false, [⟨31, 0, .rc, 0x0, 4⟩]⟩,
  -- NAKS
  ⟨0x800028, [(34, 0x4000)], false, [⟨31, 16, .rc, 0x0, 4⟩, ⟨15, 0, .rc, 0x0, 4⟩]⟩,
  -- EVENTS
  ⟨0x80002c, [(34, 0x4000)], false, [⟨31, 24, .rc, 0x0, 4⟩, ⟨23, 16, .rc, 0x0, 4⟩, ⟨15, 8, .rc, 0x0, 4⟩, ⟨7, 0, .rc, 0x0, 4⟩]⟩,
  -- SUB
  ⟨0x800040, [(34, 0x4000), (16, 0x4)], false, [⟨31, 29, .ro, 0x0, 4⟩, ⟨28, 28, .ro, 0x0, 4⟩, ⟨20, 0, .ro, 0x0, 4⟩]⟩,
  -- SUB_CAUSE
  ⟨0x800080, [(34, 0x4000), (16, 0x4)], false, [⟨7, 0, .ro, 0x0, 4⟩]⟩,
  -- PRESET
  ⟨0x801000, [(34, 0x4000), (16, 0x80), (32, 0x4)], false, [⟨31, 0, .ro, 0x0, 4⟩]⟩]

/-- The registers of block RTE, from the field maps of the spec. -/
def regsRte : List RegDef := [
  -- CFG
  ⟨0x900000, [], false, [⟨31, 31, .rwl, 0x1, 4⟩, ⟨30, 30, .rwl, 0x0, 4⟩, ⟨7, 0, .rwl, 0x14, 4⟩]⟩,
  -- OWN_ID
  ⟨0x900004, [], false, [⟨20, 0, .ro, 0x0, 4⟩]⟩,
  -- HASH_SALT
  ⟨0x900008, [], false, [⟨31, 0, .rwl, 0x0, 4⟩]⟩,
  -- COLLECTOR
  ⟨0x90000c, [], false, [⟨20, 0, .rwl, 0x0, 4⟩]⟩,
  -- STATUS
  ⟨0x900010, [], false, [⟨31, 31, .w1c, 0x0, 4⟩, ⟨30, 30, .w1c, 0x0, 4⟩, ⟨2, 0, .ro, 0x0, 4⟩]⟩,
  -- DROP_BAD_HEADER
  ⟨0x900020, [], false, [⟨31, 0, .rc, 0x0, 4⟩]⟩,
  -- DROP_LOOP
  ⟨0x900024, [], false, [⟨31, 0, .rc, 0x0, 4⟩]⟩,
  -- DROP_NO_ROUTE
  ⟨0x900028, [], false, [⟨31, 0, .rc, 0x0, 4⟩]⟩,
  -- DROP_RULE
  ⟨0x90002c, [], false, [⟨31, 0, .rc, 0x0, 4⟩]⟩,
  -- DROP_ORDER
  ⟨0x900030, [], false, [⟨31, 0, .rc, 0x0, 4⟩]⟩,
  -- DROP_NO_PATH
  ⟨0x900034, [], false, [⟨31, 0, .rc, 0x0, 4⟩]⟩,
  -- DROP_LOCAL
  ⟨0x900038, [], false, [⟨31, 0, .rc, 0x0, 4⟩]⟩,
  -- OVR_CONFLICT
  ⟨0x90003c, [], false, [⟨31, 0, .rc, 0x0, 4⟩]⟩,
  -- ORDER_VIOLATION
  ⟨0x900040, [], false, [⟨31, 0, .rc, 0x0, 4⟩]⟩,
  -- REROUTES
  ⟨0x900044, [], false, [⟨31, 0, .rc, 0x0, 4⟩]⟩,
  -- SLOW_MAP
  ⟨0x900200, [(128, 0x4)], false, [⟨31, 0, .ro, 0x0, 4⟩]⟩,
  -- PORT_CFG
  ⟨0x901000, [(34, 0x40)], false, [⟨31, 31, .rwl, 0x0, 4⟩, ⟨29, 28, .rwl, 0x3, 4⟩, ⟨4, 0, .rwl, 0xa, 4⟩]⟩,
  -- PORT_RX_CELLS
  ⟨0x901004, [(34, 0x40)], false, [⟨31, 0, .ro, 0x0, 4⟩]⟩,
  -- PORT_TX_CELLS
  ⟨0x901008, [(34, 0x40)], false, [⟨31, 0, .ro, 0x0, 4⟩]⟩,
  -- PORT_FILTERED
  ⟨0x90100c, [(34, 0x40)], false, [⟨31, 0, .rc, 0x0, 4⟩]⟩,
  -- PORT_DEMOTED
  ⟨0x901010, [(34, 0x40)], false, [⟨31, 0, .rc, 0x0, 4⟩]⟩,
  -- PORT_STALLS
  ⟨0x901014, [(34, 0x40)], false, [⟨31, 16, .rc, 0x0, 4⟩, ⟨15, 0, .rc, 0x0, 4⟩]⟩,
  -- PORT_MARKS
  ⟨0x901018, [(34, 0x40)], false, [⟨31, 16, .ro, 0x0, 4⟩, ⟨15, 0, .ro, 0x0, 4⟩]⟩,
  -- FILTER_LO
  ⟨0x902000, [(34, 0x80), (16, 0x8)], true, [⟨31, 31, .rwl, 0x0, 4⟩, ⟨20, 0, .rwl, 0x0, 4⟩]⟩,
  -- FILTER_HI
  ⟨0x902004, [(34, 0x80), (16, 0x8)], false, [⟨20, 0, .rwl, 0x0, 4⟩]⟩,
  -- OVR_VALUE_LO
  ⟨0x904000, [(256, 0x10)], true, [⟨31, 18, .rwl, 0x0, 4⟩]⟩,
  -- OVR_VALUE_HI
  ⟨0x904004, [(256, 0x10)], false, [⟨31, 0, .rwl, 0x0, 4⟩]⟩,
  -- OVR_MASK_LO
  ⟨0x904008, [(256, 0x10)], true, [⟨31, 0, .rwl, 0x0, 4⟩]⟩,
  -- OVR_MASK_HI
  ⟨0x90400c, [(256, 0x10)], false, [⟨31, 0, .rwl, 0x0, 4⟩]⟩,
  -- PSET_LO
  ⟨0x910000, [(4096, 0x8)], true, [⟨31, 31, .rwl, 0x0, 4⟩, ⟨25, 20, .rwl, 0x0, 4⟩, ⟨19, 16, .rwl, 0x0, 4⟩, ⟨15, 15, .rwl, 0x0, 4⟩, ⟨9, 4, .rwl, 0x0, 4⟩, ⟨3, 0, .rwl, 0x0, 4⟩]⟩,
  -- PSET_HI
  ⟨0x910004, [(4096, 0x8)], false, [⟨31, 31, .rwl, 0x0, 4⟩, ⟨25, 20, .rwl, 0x0, 4⟩, ⟨19, 16, .rwl, 0x0, 4⟩, ⟨15, 15, .rwl, 0x0, 4⟩, ⟨9, 4, .rwl, 0x0, 4⟩, ⟨3, 0, .rwl, 0x0, 4⟩]⟩]

/-- The registers of block TIME, from the field maps of the spec. -/
def regsTime : List RegDef := [
  -- SOURCE
  ⟨0xa00000, [], false, [⟨31, 30, .ro, 0x2, 4⟩, ⟨29, 24, .ro, 0x0, 4⟩, ⟨23, 20, .ro, 0xf, 4⟩, ⟨19, 18, .ro, 0x2, 4⟩, ⟨17, 12, .ro, 0x0, 4⟩, ⟨11, 8, .ro, 0xf, 4⟩, ⟨7, 0, .ro, 0x1, 4⟩]⟩,
  -- STATUS
  ⟨0xa00004, [], false, [⟨31, 29, .ro, 0x0, 4⟩, ⟨28, 28, .ro, 0x0, 4⟩, ⟨27, 27, .ro, 0x0, 4⟩, ⟨26, 26, .ro, 0x0, 4⟩, ⟨25, 25, .ro, 0x0, 4⟩]⟩,
  -- OFFSET
  ⟨0xa00008, [], false, [⟨31, 0, .ro, 0x0, 4⟩]⟩,
  -- NOW_LO
  ⟨0xa0000c, [], true, [⟨31, 0, .ro, 0x0, 4⟩]⟩,
  -- NOW_HI
  ⟨0xa00010, [], false, [⟨31, 0, .ro, 0x0, 4⟩]⟩,
  -- NOW_FRAC
  ⟨0xa00014, [], false, [⟨15, 0, .ro, 0x0, 4⟩]⟩,
  -- TOD
  ⟨0xa00018, [], false, [⟨31, 16, .ro, 0x0, 4⟩, ⟨0, 0, .ro, 0x0, 4⟩]⟩,
  -- EVENTS
  ⟨0xa0001c, [], false, [⟨31, 24, .rc, 0x0, 4⟩, ⟨23, 16, .rc, 0x0, 4⟩, ⟨15, 8, .rc, 0x0, 4⟩, ⟨7, 0, .rc, 0x0, 4⟩]⟩,
  -- EVENTS2
  ⟨0xa00020, [], false, [⟨31, 16, .rc, 0x0, 4⟩, ⟨15, 8, .rc, 0x0, 4⟩, ⟨7, 0, .rc, 0x0, 4⟩]⟩,
  -- TOD_BAD
  ⟨0xa00024, [], false, [⟨7, 0, .rc, 0x0, 4⟩]⟩,
  -- PORT_ASYM
  ⟨0xa00100, [(34, 0x8)], true, [⟨15, 0, .rwl, 0x0, 4⟩]⟩,
  -- PORT_OFFSET
  ⟨0xa00104, [(34, 0x8)], false, [⟨31, 0, .ro, 0x0, 4⟩]⟩,
  -- GATE
  ⟨0xa00400, [(34, 0x4)], false, [⟨31, 31, .ro, 0x0, 4⟩, ⟨30, 30, .ro, 0x0, 4⟩, ⟨29, 29, .w1c, 0x0, 4⟩, ⟨28, 28, .ro, 0x0, 4⟩, ⟨27, 23, .ro, 0x1f, 4⟩, ⟨5, 0, .ro, 0x0, 4⟩]⟩]

/-- The registers of block COL, from the field maps of the spec. -/
def regsCol : List RegDef := [
  -- CFG
  ⟨0xb00000, [], false, [⟨23, 16, .rwl, 0x14, 3⟩]⟩,
  -- EVENTS
  ⟨0xb00010, [], false, [⟨31, 24, .rc, 0x0, 3⟩, ⟨23, 16, .rc, 0x0, 3⟩, ⟨15, 8, .rc, 0x0, 3⟩, ⟨7, 0, .rc, 0x0, 3⟩]⟩,
  -- DROPS
  ⟨0xb00014, [], false, [⟨31, 16, .rc, 0x0, 3⟩, ⟨15, 0, .rc, 0x0, 3⟩]⟩,
  -- RESENDS
  ⟨0xb00018, [], false, [⟨31, 0, .rc, 0x0, 3⟩]⟩,
  -- EARLY
  ⟨0xb0001c, [], false, [⟨12, 0, .ro, 0x0, 0⟩]⟩,
  -- SEQ_STATUS
  ⟨0xb00100, [(16, 0x10)], false, [⟨31, 29, .ro, 0x0, 0⟩, ⟨28, 28, .ro, 0x0, 0⟩, ⟨27, 27, .ro, 0x0, 0⟩, ⟨26, 26, .ro, 0x0, 0⟩, ⟨15, 0, .ro, 0x0, 0⟩]⟩,
  -- SEQ_DONE
  ⟨0xb00104, [(16, 0x10)], false, [⟨31, 0, .ro, 0x0, 3⟩]⟩,
  -- SEQ_CELLS
  ⟨0xb00108, [(16, 0x10)], false, [⟨31, 0, .ro, 0x0, 3⟩]⟩]

/-- The registers of block MEM, from the field maps of the spec. -/
def regsMem : List RegDef := [
  -- DIL_APER
  ⟨0xc00100, [(16, 0x10)], false, [⟨31, 31, .rwl, 0x0, 3⟩, ⟨30, 30, .ro, 0x0, 3⟩, ⟨23, 0, .rwl, 0x0, 3⟩]⟩,
  -- DIL_SIZE
  ⟨0xc00104, [(16, 0x10)], false, [⟨23, 0, .rwl, 0x0, 3⟩]⟩,
  -- DIL_STACK
  ⟨0xc00108, [(16, 0x10)], false, [⟨23, 0, .rwl, 0x0, 3⟩]⟩,
  -- SLICE_LO
  ⟨0xc00200, [], true, [⟨31, 21, .rwl, 0x0, 3⟩]⟩,
  -- SLICE_HI
  ⟨0xc00204, [], false, [⟨7, 0, .rwl, 0x0, 3⟩]⟩,
  -- RMT_CFG
  ⟨0xc00208, [], false, [⟨31, 31, .rwl, 0x1, 3⟩, ⟨15, 0, .rwl, 0x32, 3⟩]⟩,
  -- RMT_DROPS
  ⟨0xc0020c, [], false, [⟨31, 16, .rc, 0x0, 3⟩, ⟨15, 0, .rc, 0x0, 3⟩]⟩,
  -- RMT_ERRORS
  ⟨0xc00210, [], false, [⟨31, 24, .rc, 0x0, 3⟩, ⟨23, 16, .rc, 0x0, 3⟩, ⟨15, 8, .rc, 0x0, 3⟩, ⟨7, 0, .rc, 0x0, 3⟩]⟩,
  -- RMT_SEQ
  ⟨0xc00214, [], false, [⟨31, 16, .rc, 0x0, 3⟩, ⟨15, 0, .rc, 0x0, 3⟩]⟩,
  -- ENGINE
  ⟨0xc00220, [(8, 0x4)], false, [⟨22, 13, .ro, 0x0, 0⟩, ⟨8, 0, .ro, 0x0, 0⟩]⟩,
  -- COPY
  ⟨0xc00240, [(4, 0x4)], false, [⟨15, 0, .ro, 0x0, 0⟩]⟩,
  -- WIN0
  ⟨0xc04000, [(512, 0x20)], false, [⟨15, 8, .rwl, 0x0, 3⟩, ⟨7, 0, .rwl, 0x0, 3⟩]⟩,
  -- WIN1
  ⟨0xc04004, [(512, 0x20)], false, [⟨20, 0, .rwl, 0x0, 3⟩]⟩,
  -- WIN2
  ⟨0xc04008, [(512, 0x20)], false, [⟨20, 0, .rwl, 0x0, 3⟩]⟩,
  -- WIN4
  ⟨0xc04010, [(512, 0x20)], true, [⟨31, 12, .rwl, 0x0, 3⟩]⟩,
  -- WIN5
  ⟨0xc04014, [(512, 0x20)], false, [⟨7, 0, .rwl, 0x0, 3⟩]⟩,
  -- WIN6
  ⟨0xc04018, [(512, 0x20)], true, [⟨31, 12, .rwl, 0x0, 3⟩]⟩,
  -- WIN7
  ⟨0xc0401c, [(512, 0x20)], false, [⟨7, 0, .rwl, 0x0, 3⟩]⟩,
  -- ARRIVAL_LO
  ⟨0xc10000, [(16384, 0x8)], true, [⟨31, 0, .ro, 0x0, 3⟩]⟩,
  -- ARRIVAL_HI
  ⟨0xc10004, [(16384, 0x8)], false, [⟨31, 0, .ro, 0x0, 3⟩]⟩]

/-- The registers of block CHK, from the field maps of the spec. -/
def regsChk : List RegDef := [
  -- POLY_LO
  ⟨0xd00000, [(16, 0x20)], true, [⟨31, 0, .rwl, 0x0, 3⟩]⟩,
  -- POLY_HI
  ⟨0xd00004, [(16, 0x20)], false, [⟨31, 0, .rwl, 0x0, 3⟩]⟩,
  -- INIT_LO
  ⟨0xd00008, [(16, 0x20)], true, [⟨31, 0, .rwl, 0x0, 3⟩]⟩,
  -- INIT_HI
  ⟨0xd0000c, [(16, 0x20)], false, [⟨31, 0, .rwl, 0x0, 3⟩]⟩,
  -- XOROUT_LO
  ⟨0xd00010, [(16, 0x20)], true, [⟨31, 0, .rwl, 0x0, 3⟩]⟩,
  -- XOROUT_HI
  ⟨0xd00014, [(16, 0x20)], false, [⟨31, 0, .rwl, 0x0, 3⟩]⟩,
  -- CFG
  ⟨0xd00018, [(16, 0x20)], false, [⟨31, 31, .rwl, 0x0, 3⟩, ⟨30, 30, .rwl, 0x0, 3⟩, ⟨29, 29, .rwl, 0x0, 3⟩, ⟨6, 0, .rwl, 0x0, 3⟩]⟩,
  -- EVENTS
  ⟨0xd00400, [], false, [⟨31, 24, .rc, 0x0, 3⟩, ⟨23, 16, .rc, 0x0, 3⟩, ⟨15, 8, .rc, 0x0, 3⟩, ⟨7, 0, .rc, 0x0, 3⟩]⟩]

/-- The registers of block THM, from the field maps of the spec. -/
def regsThm : List RegDef := [
  -- CFG
  ⟨0xe00000, [], false, [⟨23, 16, .rwl, 0x5f, 4⟩, ⟨7, 0, .rwl, 0x4, 4⟩]⟩,
  -- STATUS
  ⟨0xe00004, [], false, [⟨26, 24, .ro, 0x0, 4⟩, ⟨23, 0, .ro, 0x0, 4⟩]⟩,
  -- WARN
  ⟨0xe00008, [], false, [⟨7, 0, .w1c, 0x0, 4⟩]⟩,
  -- TRIP
  ⟨0xe0000c, [], false, [⟨31, 31, .ro, 0x0, 4⟩, ⟨30, 29, .ro, 0x0, 4⟩, ⟨15, 8, .ro, 0x0, 4⟩, ⟨7, 0, .ro, 0x0, 4⟩]⟩,
  -- LINE
  ⟨0xe00040, [(12, 0x4)], false, [⟨31, 31, .ro, 0x0, 4⟩, ⟨30, 28, .ro, 0x0, 4⟩]⟩,
  -- SENSOR0
  ⟨0xe00100, [(96, 0x8)], true, [⟨31, 31, .ro, 0x0, 4⟩, ⟨30, 30, .ro, 0x0, 4⟩, ⟨29, 29, .ro, 0x0, 4⟩, ⟨28, 28, .ro, 0x0, 4⟩, ⟨19, 0, .ro, 0x0, 4⟩]⟩,
  -- SENSOR1
  ⟨0xe00104, [(96, 0x8)], false, [⟨31, 16, .ro, 0x0, 4⟩, ⟨15, 0, .ro, 0x0, 4⟩]⟩,
  -- STACK0
  ⟨0xe00400, [(8, 0x8)], true, [⟨31, 31, .ro, 0x0, 4⟩, ⟨15, 0, .ro, 0x0, 4⟩]⟩,
  -- STACK1
  ⟨0xe00404, [(8, 0x8)], false, [⟨15, 0, .ro, 0x0, 4⟩]⟩,
  -- SPAN0
  ⟨0xe00500, [(8, 0x8)], true, [⟨31, 31, .ro, 0x0, 4⟩, ⟨15, 0, .ro, 0x0, 4⟩]⟩,
  -- SPAN1
  ⟨0xe00504, [(8, 0x8)], false, [⟨31, 24, .ro, 0x0, 4⟩, ⟨23, 16, .ro, 0x0, 4⟩, ⟨15, 8, .ro, 0x0, 4⟩]⟩,
  -- VMON
  ⟨0xe00600, [(64, 0x4)], false, [⟨15, 0, .ro, 0x0, 4⟩]⟩,
  -- IMON
  ⟨0xe00700, [(40, 0x4)], false, [⟨15, 0, .ro, 0x0, 4⟩]⟩,
  -- HK_STATUS
  ⟨0xe01000, [(7, 0x40)], false, [⟨31, 29, .ro, 0x0, 4⟩, ⟨28, 26, .ro, 0x7, 4⟩, ⟨9, 8, .ro, 0x0, 4⟩]⟩,
  -- HK_VERSION
  ⟨0xe01004, [(7, 0x40)], false, [⟨31, 0, .ro, 0x0, 4⟩]⟩,
  -- HK_EVENTS
  ⟨0xe01008, [(7, 0x40)], false, [⟨31, 16, .rc, 0x0, 4⟩, ⟨15, 0, .rc, 0x0, 4⟩]⟩]

/-- The registers of block SEC, from the field maps of the spec. -/
def regsSec : List RegDef := [
  -- STATE
  ⟨0xf00000, [], false, [⟨31, 29, .ro, 0x1, 5⟩, ⟨28, 28, .ro, 0x1, 5⟩, ⟨27, 27, .ro, 0x0, 5⟩, ⟨26, 24, .ro, 0x0, 5⟩, ⟨23, 20, .ro, 0x0, 5⟩, ⟨19, 19, .ro, 0x0, 4⟩]⟩,
  -- SVN
  ⟨0xf00004, [], false, [⟨15, 8, .ro, 0x0, 5⟩, ⟨7, 0, .ro, 0x0, 5⟩]⟩,
  -- CRYPT0
  ⟨0xf00100, [(34, 0x8)], true, [⟨31, 31, .rwl, 0x0, 4⟩, ⟨30, 30, .ro, 0x0, 4⟩, ⟨23, 16, .ro, 0x0, 4⟩]⟩,
  -- CRYPT1
  ⟨0xf00104, [(34, 0x8)], false, [⟨31, 0, .rc, 0x0, 4⟩]⟩]

/-- The registers of block DBG, from the field maps of the spec. -/
def regsDbg : List RegDef := [
  -- STATE
  ⟨0xf10000, [], false, [⟨31, 30, .ro, 0x0, 4⟩, ⟨29, 28, .ro, 0x0, 4⟩, ⟨7, 0, .rc, 0x0, 4⟩]⟩]

/-- The registers of block TRC, from the field maps of the spec. -/
def regsTrc : List RegDef := [
  -- CFG
  ⟨0xf21000, [(128, 0x20)], false, [⟨31, 31, .rw, 0x0, 3⟩, ⟨30, 30, .rw, 0x0, 3⟩, ⟨7, 0, .rw, 0xff, 3⟩]⟩,
  -- BASE
  ⟨0xf21004, [(128, 0x20)], false, [⟨26, 12, .rwl, 0x0, 3⟩]⟩,
  -- SIZE
  ⟨0xf21008, [(128, 0x20)], false, [⟨3, 0, .rwl, 0x0, 3⟩]⟩,
  -- WRITE
  ⟨0xf2100c, [(128, 0x20)], false, [⟨31, 0, .ro, 0x0, 2⟩]⟩,
  -- READ
  ⟨0xf21010, [(128, 0x20)], false, [⟨31, 0, .rw, 0x0, 2⟩]⟩,
  -- LOST
  ⟨0xf21014, [(128, 0x20)], false, [⟨31, 0, .rc, 0x0, 2⟩]⟩]

/-- The registers of block INJ, from the field maps of the spec. -/
def regsInj : List RegDef := [
  -- CFG
  ⟨0xf30000, [], false, [⟨31, 31, .rwl, 0x0, 4⟩]⟩,
  -- STATUS
  ⟨0xf30004, [], false, [⟨31, 16, .ro, 0x0, 4⟩, ⟨15, 0, .ro, 0x0, 4⟩]⟩,
  -- COUNTS
  ⟨0xf30008, [], false, [⟨31, 16, .rc, 0x0, 4⟩, ⟨15, 0, .rc, 0x0, 4⟩]⟩,
  -- CANCELS
  ⟨0xf3000c, [], false, [⟨7, 0, .rc, 0x0, 4⟩]⟩,
  -- PLAN
  ⟨0xf31000, [(16, 0x100), (64, 0x4)], false, [⟨31, 0, .ro, 0x0, 4⟩]⟩]

/-- The registers of block FLAT, from the field maps of the spec. -/
def regsFlat : List RegDef := [
  -- ENTRY
  ⟨0x1000000, [(1048576, 0x4)], false, [⟨31, 31, .rwl, 0x0, 4⟩, ⟨30, 30, .rwl, 0x0, 4⟩, ⟨27, 16, .rwl, 0x0, 4⟩, ⟨15, 15, .rwl, 0x0, 4⟩, ⟨14, 14, .rwl, 0x0, 4⟩, ⟨11, 0, .rwl, 0x0, 4⟩]⟩]

/-- The registers of block D2D, from the field maps of the spec. -/
def regsD2d : List RegDef := [
  -- CAP
  ⟨0x1400000, [(2, 0x4)], false, [⟨31, 30, .ro, 0x0, 5⟩, ⟨29, 29, .ro, 0x0, 4⟩, ⟨28, 28, .ro, 0x0, 4⟩, ⟨27, 20, .ro, 0x0, 4⟩, ⟨19, 16, .ro, 0x0, 4⟩, ⟨15, 8, .ro, 0x0, 4⟩, ⟨7, 0, .ro, 0x0, 4⟩]⟩,
  -- LINK0
  ⟨0x1400100, [(7, 0x10)], false, [⟨31, 29, .ro, 0x0, 4⟩, ⟨28, 24, .ro, 0x0, 4⟩, ⟨23, 16, .ro, 0x0, 4⟩]⟩,
  -- LINK1
  ⟨0x1400104, [(7, 0x10)], false, [⟨31, 16, .rc, 0x0, 4⟩, ⟨15, 0, .rc, 0x0, 4⟩]⟩,
  -- LINK2
  ⟨0x1400108, [(7, 0x10)], false, [⟨15, 8, .rc, 0x0, 4⟩, ⟨7, 0, .rc, 0x0, 4⟩]⟩]

/-- Every register of the setup window. -/
def regTable : List RegDef :=
  regsTop ++ regsHost ++ regsStream ++ regsSpn ++ regsCore ++ regsDeck ++ regsHbm ++ regsLnk ++ regsRte ++ regsTime ++ regsCol ++ regsMem ++ regsChk ++ regsThm ++ regsSec ++ regsDbg ++ regsTrc ++ regsInj ++ regsFlat ++ regsD2d

/-- Whether the remainder d of an offset falls on an element of an array of these dimensions. -/
def dimsCover : List (Nat × Nat) → Nat → Bool
  | [], d => d == 0
  | (n, st) :: ds, d => decide (d / st < n) && dimsCover ds (d % st)

/-- Whether the register array r holds the register at offset o. -/
def regCovers (r : RegDef) (o : Nat) : Bool := decide (r.off ≤ o) && dimsCover r.dims (o - r.off)

/-- The register at offset o, when a field map names it. -/
def findReg (o : Nat) : Option RegDef := regTable.find? (regCovers · o)

/-- The fields of the register at offset o; none where no field map names it (a reserved register, R12). -/
def regFields (o : Nat) : List FieldDef := match findReg o with
  | some r => r.fields
  | none => []

/-- Bits hi to lo of a value. -/
def bitsOf (v hi lo : Nat) : Nat := (v >>> lo) % 2 ^ (hi + 1 - lo)

/-- v with its bits hi to lo replaced by x. -/
def putBits (v hi lo x : Nat) : Nat :=
  v - (bitsOf v hi lo) * 2 ^ lo + (x % 2 ^ (hi + 1 - lo)) * 2 ^ lo

/-- The reset value the fields of a register make (R31). -/
def fieldsReset (fs : List FieldDef) : Nat := fs.foldl (fun a f => a + f.rst * 2 ^ f.lo) 0

/-- The reset values of the CRC presets 0–3, words POLY to CFG (R481). -/
def chkPresetReset (k w : Nat) : Nat :=
  let row (l : List Nat) : Nat := l.getD w 0
  match k with
  | 0 => row [0x1EDC6F41, 0, 0xFFFFFFFF, 0, 0xFFFFFFFF, 0, 0xE0000020]
  | 1 => row [0xA9EA3693, 0x42F0E1EB, 0xFFFFFFFF, 0xFFFFFFFF, 0xFFFFFFFF, 0xFFFFFFFF, 0xE0000040]
  | 2 => row [0x04C11DB7, 0, 0xFFFFFFFF, 0, 0xFFFFFFFF, 0, 0xE0000020]
  | 3 => row [0x1021, 0, 0xFFFF, 0, 0, 0, 0x80000010]
  | _ => 0

/-- The reset value of the register at offset o (R31); the CRC presets take theirs from R481. -/
def regDefault (o : Nat) : Word :=
  if 0x00D00000 ≤ o ∧ o < 0x00D00080 then BitVec.ofNat 32 (chkPresetReset ((o - 0x00D00000) / 32) ((o % 32) / 4))
  else BitVec.ofNat 32 (fieldsReset (regFields o))

/-- The value held by the register at offset o. -/
def State.reg (s : State) (o : Nat) : Word := match aget s.regs o with
  | some v => v
  | none => regDefault o

/-- The register map with the register at offset o holding v: a register at its reset value is not listed. -/
def regsPut (m : List (Nat × Word)) (o : Nat) (v : Word) : List (Nat × Word) :=
  if v = regDefault o then adel m o else aput m o v

/-- s with the register at offset o holding v. -/
def State.setReg (s : State) (o : Nat) (v : Word) : State := { s with regs := regsPut s.regs o v }

/-- The value of a named field. -/
def State.getF (s : State) (f : Fld) : Nat := bitsOf (s.reg f.off).toNat f.hi f.lo

/-- Whether a named one-bit field is 1. -/
def State.isSet (s : State) (f : Fld) : Bool := s.getF f != 0

/-- s with a named field holding x, cut to its width. -/
def State.setF (s : State) (f : Fld) (x : Nat) : State :=
  s.setReg f.off (BitVec.ofNat 32 (putBits (s.reg f.off).toNat f.hi f.lo x))

/-- s with a named count raised by n, saturating at the field's largest value. -/
def State.bumpSat (s : State) (f : Fld) (n : Nat := 1) : State :=
  s.setF f (min (s.getF f + n) (2 ^ (f.hi + 1 - f.lo) - 1))

/-- s with a named count raised by n, wrapping at the field's width. -/
def State.bumpWrap (s : State) (f : Fld) (n : Nat := 1) : State := s.setF f (s.getF f + n)

/-- s with a named field holding the larger of its value and x, saturated at the field's largest value. -/
def State.maxF (s : State) (f : Fld) (x : Nat) : State :=
  s.setF f (min (max (s.getF f) x) (2 ^ (f.hi + 1 - f.lo) - 1))

/-- The value a register takes at a reset of level lvl that touches it (R31, R32): fields that survive the level
keep their value, the others return to their reset value. -/
def regAfterReset (lvl o : Nat) (v : Word) : Word :=
  let d := (regDefault o).toNat
  (regFields o).foldl (fun (a : Word) f =>
    if f.surv < lvl then BitVec.ofNat 32 (putBits a.toNat f.hi f.lo (bitsOf d f.hi f.lo)) else a) v

/-- The register map after a reset of level lvl of the registers that `dom` names. -/
def regsReset (m : List (Nat × Word)) (lvl : Nat) (dom : Nat → Bool) : List (Nat × Word) :=
  m.filterMap fun e =>
    if dom e.1 then
      let v := regAfterReset lvl e.1 e.2
      if v = regDefault e.1 then none else some (e.1, v)
    else some e


/-! Fields by name: f<BLOCK>_<REGISTER>_<FIELD>, with the indexes of the block and the register. -/

def fTOP_SETUP_LOCK_LOCK : Fld := ⟨0x20, 0, 0⟩
def fTOP_BAD_ACCESS_COUNT : Fld := ⟨0x24, 31, 0⟩
def fTOP_LOCK_WRITES_COUNT : Fld := ⟨0x28, 31, 0⟩
def fTOP_READY_STACK : Fld := ⟨0x40, 31, 24⟩
def fTOP_READY_SPAN : Fld := ⟨0x40, 23, 16⟩
def fTOP_READY_HK : Fld := ⟨0x40, 15, 9⟩
def fTOP_READY_FTIME : Fld := ⟨0x40, 8, 8⟩
def fTOP_READY_COLL : Fld := ⟨0x40, 7, 7⟩
def fTOP_READY_HOST : Fld := ⟨0x40, 1, 0⟩
def fTOP_READY_LNK_LO_PORTS : Fld := ⟨0x44, 31, 0⟩
def fTOP_READY_LNK_HI_PORTS : Fld := ⟨0x48, 1, 0⟩
def fTOP_STRAPS_PAR_FAIL : Fld := ⟨0x4c, 31, 31⟩
def fTOP_STRAPS_BIF : Fld := ⟨0x4c, 30, 29⟩
def fTOP_STRAPS_PLAN : Fld := ⟨0x4c, 28, 26⟩
def fTOP_STRAPS_LOC : Fld := ⟨0x4c, 19, 0⟩
def fTOP_ALERT_THERM : Fld := ⟨0x50, 8, 8⟩
def fTOP_ALERT_STRAP_PAR : Fld := ⟨0x50, 7, 7⟩
def fTOP_ALERT_RAIL : Fld := ⟨0x50, 6, 6⟩
def fTOP_ALERT_BOOT : Fld := ⟨0x50, 5, 5⟩
def fTOP_ALERT_HBM_SKEW : Fld := ⟨0x50, 4, 4⟩
def fTOP_ALERT_TIME_FREE : Fld := ⟨0x50, 3, 3⟩
def fTOP_ALERT_PHASES : Fld := ⟨0x50, 2, 2⟩
def fTOP_ALERT_D2D : Fld := ⟨0x50, 1, 1⟩
def fTOP_POWER_CAP_W : Fld := ⟨0x54, 27, 16⟩
def fTOP_POWER_LIMIT_EVENTS : Fld := ⟨0x54, 15, 0⟩
def fTOP_POWER_IN_WATTS : Fld := ⟨0x58, 15, 0⟩
def fTOP_FLT_CFG_WINDOW_MS : Fld := ⟨0x80, 31, 24⟩
def fTOP_FLT_CFG_NP_US : Fld := ⟨0x80, 13, 0⟩
def fTOP_RESET_STATE : Fld := ⟨0x84, 31, 29⟩
def fTOP_RESET_SPANS : Fld := ⟨0x84, 28, 21⟩
def fTOP_RESET_BLOCKED_COUNT : Fld := ⟨0x88, 31, 0⟩
def fTOP_FLT_COUNTS_HANGS : Fld := ⟨0x8c, 31, 24⟩
def fTOP_FLT_COUNTS_ENGINE : Fld := ⟨0x8c, 23, 16⟩
def fTOP_FLT_COUNTS_ESCALATIONS : Fld := ⟨0x8c, 15, 8⟩
def fTOP_FLT_COUNTS_RESETS : Fld := ⟨0x8c, 7, 0⟩
def fTOP_LOG_NEXT_SEQ : Fld := ⟨0x90, 31, 0⟩
def fTOP_LOG_STATE_LEDGER_FULL : Fld := ⟨0x94, 31, 31⟩
def fTOP_LOG_STATE_LEDGER_USED : Fld := ⟨0x94, 17, 0⟩
def fTOP_STEP_CFG_STEPS_ENABLE : Fld := ⟨0x1000, 31, 31⟩
def fTOP_STEP_CFG_GRAPH_SLOTS_M1 : Fld := ⟨0x1000, 19, 8⟩
def fTOP_STEP_CFG_TAKEOVER_US : Fld := ⟨0x1000, 7, 0⟩
def fTOP_GRAPH_EPOCH_EPOCH : Fld := ⟨0x100c, 7, 0⟩
def fTOP_STEP_COMMITS_COUNT : Fld := ⟨0x1010, 31, 0⟩
def fTOP_STEP_ABORTS_COUNT : Fld := ⟨0x1014, 31, 0⟩
def fTOP_STEP_EVENTS_TAKEOVERS : Fld := ⟨0x1018, 31, 24⟩
def fTOP_STEP_EVENTS_IN_DOUBT : Fld := ⟨0x1018, 23, 16⟩
def fTOP_STEP_EVENTS_BAD_DECISION : Fld := ⟨0x1018, 15, 8⟩
def fTOP_STEP_EVENTS_EARLY_DROP : Fld := ⟨0x1018, 7, 0⟩
def fHOST_CFG_IDE_REQUIRED : Fld := ⟨0x100000, 31, 31⟩
def fHOST_CFG_FAIL_100US : Fld := ⟨0x100000, 24, 17⟩
def fHOST_CFG_POLL_NS : Fld := ⟨0x100000, 16, 0⟩
def fHOST_LINK_UP (i : Nat) : Fld := ⟨0x100010 + 0x4 * i, 31, 31⟩
def fHOST_LINK_SUMMARY (i : Nat) : Fld := ⟨0x100010 + 0x4 * i, 30, 30⟩
def fHOST_LINK_IDE_SECURE (i : Nat) : Fld := ⟨0x100010 + 0x4 * i, 29, 29⟩
def fHOST_LINK_SPEED (i : Nat) : Fld := ⟨0x100010 + 0x4 * i, 28, 26⟩
def fHOST_LINK_WIDTH (i : Nat) : Fld := ⟨0x100010 + 0x4 * i, 25, 21⟩
def fHOST_LINK_FAILS (i : Nat) : Fld := ⟨0x100010 + 0x4 * i, 15, 8⟩
def fHOST_LINK_PERST (i : Nat) : Fld := ⟨0x100010 + 0x4 * i, 7, 0⟩
def fHOST_COUNTS_BELL_IGNORED : Fld := ⟨0x100020, 31, 16⟩
def fHOST_COUNTS_REC_LOST : Fld := ⟨0x100020, 15, 0⟩
def fHOST_PENDING_RECORDS : Fld := ⟨0x100024, 12, 0⟩
def fHOST_PF_DB_LO_ADDR_LO (i : Nat) : Fld := ⟨0x100100 + 0x10 * i, 31, 12⟩
def fHOST_PF_DB_HI_ADDR_HI (i : Nat) : Fld := ⟨0x100104 + 0x10 * i, 31, 0⟩
def fHOST_PF_ERR_ERR_EN (i : Nat) : Fld := ⟨0x100108 + 0x10 * i, 31, 31⟩
def fHOST_PF_ERR_ERR_CQ (i : Nat) : Fld := ⟨0x100108 + 0x10 * i, 14, 0⟩
def fHOST_CTL_SQ_LO_ADDR_LO (i : Nat) : Fld := ⟨0x100200 + 0x20 * i, 31, 12⟩
def fHOST_CTL_SQ_HI_ADDR_HI (i : Nat) : Fld := ⟨0x100204 + 0x20 * i, 31, 0⟩
def fHOST_CTL_CQ_LO_ADDR_LO (i : Nat) : Fld := ⟨0x100208 + 0x20 * i, 31, 12⟩
def fHOST_CTL_CQ_HI_ADDR_HI (i : Nat) : Fld := ⟨0x10020c + 0x20 * i, 31, 0⟩
def fHOST_CTL_CFG_ENABLE (i : Nat) : Fld := ⟨0x100210 + 0x20 * i, 31, 31⟩
def fHOST_CTL_CFG_ENTRY_64 (i : Nat) : Fld := ⟨0x100210 + 0x20 * i, 30, 30⟩
def fHOST_CTL_CFG_IRQ_EN (i : Nat) : Fld := ⟨0x100210 + 0x20 * i, 29, 29⟩
def fHOST_CTL_CFG_CQ_LOG2 (i : Nat) : Fld := ⟨0x100210 + 0x20 * i, 28, 24⟩
def fHOST_CTL_CFG_SQ_LOG2 (i : Nat) : Fld := ⟨0x100210 + 0x20 * i, 23, 20⟩
def fHOST_CTL_CFG_FID (i : Nat) : Fld := ⟨0x100210 + 0x20 * i, 15, 8⟩
def fHOST_CTL_CFG_STBY_FID (i : Nat) : Fld := ⟨0x100210 + 0x20 * i, 7, 0⟩
def fHOST_CTL_VEC_VECTOR (i : Nat) : Fld := ⟨0x100214 + 0x20 * i, 31, 21⟩
def fHOST_CTL_VEC_STBY_VECTOR (i : Nat) : Fld := ⟨0x100214 + 0x20 * i, 20, 10⟩
def fHOST_CTL_VEC_COAL_COUNT (i : Nat) : Fld := ⟨0x100214 + 0x20 * i, 9, 2⟩
def fHOST_CTL_COAL_COAL_TIME (i : Nat) : Fld := ⟨0x100218 + 0x20 * i, 9, 0⟩
def fHOST_SQ_STATE_LO_FETCHED (i : Nat) : Fld := ⟨0x180000 + 0x8 * i, 31, 0⟩
def fHOST_SQ_STATE_HI_VALID (i : Nat) : Fld := ⟨0x180004 + 0x8 * i, 31, 31⟩
def fHOST_SQ_STATE_HI_ON_STBY (i : Nat) : Fld := ⟨0x180004 + 0x8 * i, 30, 30⟩
def fHOST_SQ_STATE_HI_DISABLED (i : Nat) : Fld := ⟨0x180004 + 0x8 * i, 29, 29⟩
def fHOST_SQ_STATE_HI_PRIO (i : Nat) : Fld := ⟨0x180004 + 0x8 * i, 28, 28⟩
def fHOST_SQ_STATE_HI_LOG2_SIZE (i : Nat) : Fld := ⟨0x180004 + 0x8 * i, 27, 24⟩
def fHOST_SQ_STATE_HI_FID (i : Nat) : Fld := ⟨0x180004 + 0x8 * i, 23, 16⟩
def fHOST_SQ_STATE_HI_CQ (i : Nat) : Fld := ⟨0x180004 + 0x8 * i, 14, 0⟩
def fHOST_CQ_STATE_LO_POSTED (i : Nat) : Fld := ⟨0x1c0000 + 0x8 * i, 31, 0⟩
def fHOST_CQ_STATE_HI_VALID (i : Nat) : Fld := ⟨0x1c0004 + 0x8 * i, 31, 31⟩
def fHOST_CQ_STATE_HI_ON_STBY (i : Nat) : Fld := ⟨0x1c0004 + 0x8 * i, 30, 30⟩
def fHOST_CQ_STATE_HI_DISABLED (i : Nat) : Fld := ⟨0x1c0004 + 0x8 * i, 29, 29⟩
def fHOST_CQ_STATE_HI_LOST (i : Nat) : Fld := ⟨0x1c0004 + 0x8 * i, 28, 28⟩
def fHOST_CQ_STATE_HI_ENTRY_64 (i : Nat) : Fld := ⟨0x1c0004 + 0x8 * i, 27, 27⟩
def fHOST_CQ_STATE_HI_LOG2_SIZE (i : Nat) : Fld := ⟨0x1c0004 + 0x8 * i, 26, 22⟩
def fHOST_CQ_STATE_HI_FID (i : Nat) : Fld := ⟨0x1c0004 + 0x8 * i, 15, 8⟩
def fSTREAM_TABLE_LO_ADDR_LO : Fld := ⟨0x200000, 31, 23⟩
def fSTREAM_TABLE_HI_ADDR_HI : Fld := ⟨0x200004, 7, 0⟩
def fSTREAM_CTX_LO_ADDR_LO : Fld := ⟨0x200008, 31, 24⟩
def fSTREAM_CTX_HI_ADDR_HI : Fld := ⟨0x20000c, 7, 0⟩
def fSTREAM_CACHE_PINNED : Fld := ⟨0x200010, 26, 16⟩
def fSTREAM_CACHE_VALID : Fld := ⟨0x200010, 13, 0⟩
def fSTREAM_MISSES_COUNT : Fld := ⟨0x200014, 31, 0⟩
def fSTREAM_WALK_QUEUE_MAX : Fld := ⟨0x200018, 31, 16⟩
def fSTREAM_WALK_FETCH_MAX_NS : Fld := ⟨0x200018, 15, 0⟩
def fSTREAM_EVENTS_PIN_REFUSED : Fld := ⟨0x20001c, 31, 24⟩
def fSTREAM_EVENTS_BUSY_REFUSED : Fld := ⟨0x20001c, 23, 16⟩
def fSTREAM_EVENTS_NOT_ACTIVE : Fld := ⟨0x20001c, 15, 8⟩
def fSTREAM_EVENTS_KV_FAULTS : Fld := ⟨0x20001c, 7, 0⟩
def fSPN_CLK_CEILING_MHZ (i : Nat) : Fld := ⟨0x300000 + 0x10000 * i, 31, 21⟩
def fSPN_CLK_CURRENT_MHZ (i : Nat) : Fld := ⟨0x300000 + 0x10000 * i, 20, 10⟩
def fSPN_CLK_VOLT_MV (i : Nat) : Fld := ⟨0x300000 + 0x10000 * i, 9, 0⟩
def fSPN_PHASES_FAILED (i : Nat) : Fld := ⟨0x300004 + 0x10000 * i, 31, 8⟩
def fSPN_PHASES_HEALTHY (i : Nat) : Fld := ⟨0x300004 + 0x10000 * i, 7, 3⟩
def fSPN_PHASES_SPARES_USED (i : Nat) : Fld := ⟨0x300004 + 0x10000 * i, 2, 1⟩
def fSPN_HEALTH_FAILED (i : Nat) : Fld := ⟨0x300020 + 0x10000 * i, 17, 0⟩
def fSPN_FAULTED_SPAN (i : Nat) : Fld := ⟨0x300024 + 0x10000 * i, 31, 31⟩
def fSPN_FAULTED_CORES (i : Nat) : Fld := ⟨0x300024 + 0x10000 * i, 15, 0⟩
def fSPN_SPARE_ROTATE_DUE (i : Nat) : Fld := ⟨0x300028 + 0x10000 * i, 31, 31⟩
def fSPN_SPARE_ROTATE_H (i : Nat) : Fld := ⟨0x300028 + 0x10000 * i, 23, 16⟩
def fSPN_SPARE_OLDEST_H (i : Nat) : Fld := ⟨0x300028 + 0x10000 * i, 15, 0⟩
def fSPN_TESTED_OK (i : Nat) : Fld := ⟨0x30002c + 0x10000 * i, 17, 0⟩
def fCORE_TRS_CFG_FF_EN (i : Nat) : Fld := ⟨0x400200 + 0x1000 * i, 8, 8⟩
def fCORE_TRS_CFG_ACT_WIN (i : Nat) : Fld := ⟨0x400200 + 0x1000 * i, 3, 0⟩
def fCORE_TRS_STATUS_STATE (i : Nat) : Fld := ⟨0x400204 + 0x1000 * i, 31, 30⟩
def fCORE_TRS_STATUS_BANK (i : Nat) : Fld := ⟨0x400204 + 0x1000 * i, 29, 29⟩
def fCORE_TRS_STATUS_WAIT_OPERAND (i : Nat) : Fld := ⟨0x400204 + 0x1000 * i, 23, 23⟩
def fCORE_TRS_STATUS_WAIT_BANK (i : Nat) : Fld := ⟨0x400204 + 0x1000 * i, 22, 22⟩
def fCORE_TRS_STATUS_WAIT_THERMAL (i : Nat) : Fld := ⟨0x400204 + 0x1000 * i, 21, 21⟩
def fCORE_TRS_STATUS_WAIT_DIDT (i : Nat) : Fld := ⟨0x400204 + 0x1000 * i, 20, 20⟩
def fCORE_TRS_STATUS_GROUPS_FED (i : Nat) : Fld := ⟨0x400204 + 0x1000 * i, 12, 0⟩
def fCORE_TRS_PASSES_COUNT (i : Nat) : Fld := ⟨0x400208 + 0x1000 * i, 31, 0⟩
def fCORE_TRS_FEED_CYCLES_COUNT (i : Nat) : Fld := ⟨0x40020c + 0x1000 * i, 31, 0⟩
def fCORE_TRS_HOLD_CYCLES_COUNT (i : Nat) : Fld := ⟨0x400210 + 0x1000 * i, 31, 0⟩
def fCORE_TRS_ACTIVE_FRACTION (i : Nat) : Fld := ⟨0x400214 + 0x1000 * i, 15, 0⟩
def fCORE_TRS_PARITY_COUNT (i : Nat) : Fld := ⟨0x400218 + 0x1000 * i, 7, 0⟩
def fCORE_CBK_TILES_COUNT (i : Nat) : Fld := ⟨0x400220 + 0x1000 * i, 31, 0⟩
def fCORE_CBK_BUBBLES_COUNT (i : Nat) : Fld := ⟨0x400224 + 0x1000 * i, 31, 0⟩
def fCORE_NUM_FLAGS_NAN_TILES (i : Nat) : Fld := ⟨0x400240 + 0x1000 * i, 31, 24⟩
def fCORE_NUM_FLAGS_INF_TILES (i : Nat) : Fld := ⟨0x400240 + 0x1000 * i, 23, 16⟩
def fCORE_NUM_FLAGS_SAT_TILES (i : Nat) : Fld := ⟨0x400240 + 0x1000 * i, 15, 8⟩
def fCORE_NUM_FLAGS_TRAPS (i : Nat) : Fld := ⟨0x400240 + 0x1000 * i, 7, 0⟩
def fCORE_NUM_LAST_STATION (i : Nat) : Fld := ⟨0x400244 + 0x1000 * i, 31, 24⟩
def fCORE_NUM_LAST_NODE_ID (i : Nat) : Fld := ⟨0x400244 + 0x1000 * i, 15, 0⟩
def fCORE_SPAD_CE (i : Nat) : Fld := ⟨0x400260 + 0x1000 * i, 31, 24⟩
def fCORE_SPAD_UE (i : Nat) : Fld := ⟨0x400260 + 0x1000 * i, 23, 16⟩
def fCORE_SPAD_CONFLICT_COUNT (i : Nat) : Fld := ⟨0x400264 + 0x1000 * i, 31, 0⟩
def fDECK_HITS_COUNT (i j : Nat) : Fld := ⟨0x500010 + 0x1000 * i + 0x4 * j, 31, 0⟩
def fDECK_MISSES_COUNT (i j : Nat) : Fld := ⟨0x500018 + 0x1000 * i + 0x4 * j, 31, 0⟩
def fDECK_ECC_CE (i j : Nat) : Fld := ⟨0x500020 + 0x1000 * i + 0x4 * j, 31, 16⟩
def fDECK_ECC_UE (i j : Nat) : Fld := ⟨0x500020 + 0x1000 * i + 0x4 * j, 15, 8⟩
def fHBM_KEY_MASK (i j : Nat) : Fld := ⟨0x600000 + 0x1000 * i + 0x4 * j, 21, 0⟩
def fHBM_CFG_RETIRE_CE (i : Nat) : Fld := ⟨0x600020 + 0x1000 * i, 31, 24⟩
def fHBM_CFG_SCRUB_H (i : Nat) : Fld := ⟨0x600020 + 0x1000 * i, 23, 16⟩
def fHBM_CFG_SKEW_EN (i : Nat) : Fld := ⟨0x600020 + 0x1000 * i, 15, 15⟩
def fHBM_STATUS_OWNER (i : Nat) : Fld := ⟨0x600024 + 0x1000 * i, 30, 30⟩
def fHBM_STATUS_SKEW (i : Nat) : Fld := ⟨0x600024 + 0x1000 * i, 29, 29⟩
def fHBM_STATUS_RESERVE_LOW (i : Nat) : Fld := ⟨0x600024 + 0x1000 * i, 28, 28⟩
def fHBM_STATUS_RESERVE_FULL (i : Nat) : Fld := ⟨0x600024 + 0x1000 * i, 27, 27⟩
def fHBM_STATUS_RETIRING (i : Nat) : Fld := ⟨0x600024 + 0x1000 * i, 26, 26⟩
def fHBM_STATUS_BIST_FAIL (i : Nat) : Fld := ⟨0x600024 + 0x1000 * i, 25, 25⟩
def fHBM_STATUS_RETIRED (i : Nat) : Fld := ⟨0x600024 + 0x1000 * i, 12, 0⟩
def fHBM_CE_COUNT (i : Nat) : Fld := ⟨0x600028 + 0x1000 * i, 31, 0⟩
def fHBM_UE_COUNT (i : Nat) : Fld := ⟨0x60002c + 0x1000 * i, 31, 0⟩
def fHBM_SKEW_RATIO_X8 (i : Nat) : Fld := ⟨0x600030 + 0x1000 * i, 31, 24⟩
def fHBM_SKEW_HOT_PC (i : Nat) : Fld := ⟨0x600030 + 0x1000 * i, 20, 16⟩
def fHBM_TRAFFIC_GRANULES (i : Nat) : Fld := ⟨0x600034 + 0x1000 * i, 31, 0⟩
def fLNK_CFG_ENABLE (i : Nat) : Fld := ⟨0x800000 + 0x4000 * i, 31, 31⟩
def fLNK_CFG_SPLIT (i : Nat) : Fld := ⟨0x800000 + 0x4000 * i, 30, 30⟩
def fLNK_CFG_WIDTH_MAX (i : Nat) : Fld := ⟨0x800000 + 0x4000 * i, 29, 28⟩
def fLNK_CFG_FF_GAIN (i : Nat) : Fld := ⟨0x800000 + 0x4000 * i, 23, 16⟩
def fLNK_STATUS_STATE (i : Nat) : Fld := ⟨0x800004 + 0x4000 * i, 31, 29⟩
def fLNK_STATUS_SWING (i : Nat) : Fld := ⟨0x800004 + 0x4000 * i, 28, 28⟩
def fLNK_STATUS_SWING_SLOW (i : Nat) : Fld := ⟨0x800004 + 0x4000 * i, 27, 27⟩
def fLNK_STATUS_DEGRADED_CAPS (i : Nat) : Fld := ⟨0x800004 + 0x4000 * i, 26, 26⟩
def fLNK_STATUS_OPEN_FIBRE (i : Nat) : Fld := ⟨0x800004 + 0x4000 * i, 25, 25⟩
def fLNK_STATUS_SUBST (i : Nat) : Fld := ⟨0x800004 + 0x4000 * i, 24, 24⟩
def fLNK_STATUS_ALIAS (i : Nat) : Fld := ⟨0x800004 + 0x4000 * i, 23, 18⟩
def fLNK_STATUS_WIDTH (i : Nat) : Fld := ⟨0x800004 + 0x4000 * i, 17, 16⟩
def fLNK_STATUS_FAIL_CAUSE (i : Nat) : Fld := ⟨0x800004 + 0x4000 * i, 15, 8⟩
def fLNK_STATUS_PRESET (i : Nat) : Fld := ⟨0x800004 + 0x4000 * i, 7, 4⟩
def fLNK_STATUS_FAILS_IN_ROW (i : Nat) : Fld := ⟨0x800004 + 0x4000 * i, 3, 0⟩
def fLNK_PEER_PEER_PORT (i : Nat) : Fld := ⟨0x800008 + 0x4000 * i, 31, 26⟩
def fLNK_PEER_PEER_ID (i : Nat) : Fld := ⟨0x800008 + 0x4000 * i, 20, 0⟩
def fLNK_PEER_CAPS_CAPS (i : Nat) : Fld := ⟨0x80000c + 0x4000 * i, 31, 0⟩
def fLNK_RTT_RTT_NS (i : Nat) : Fld := ⟨0x800010 + 0x4000 * i, 31, 16⟩
def fLNK_RTT_HOLD_NS (i : Nat) : Fld := ⟨0x800010 + 0x4000 * i, 15, 0⟩
def fLNK_TX_FAIL_CHANNELS (i : Nat) : Fld := ⟨0x800014 + 0x4000 * i, 17, 0⟩
def fLNK_RX_FAIL_CHANNELS (i : Nat) : Fld := ⟨0x800018 + 0x4000 * i, 17, 0⟩
def fLNK_SPARES_S16_USED (i : Nat) : Fld := ⟨0x80001c + 0x4000 * i, 31, 31⟩
def fLNK_SPARES_S16_LANE (i : Nat) : Fld := ⟨0x80001c + 0x4000 * i, 30, 26⟩
def fLNK_SPARES_S17_USED (i : Nat) : Fld := ⟨0x80001c + 0x4000 * i, 25, 25⟩
def fLNK_SPARES_S17_LANE (i : Nat) : Fld := ⟨0x80001c + 0x4000 * i, 24, 20⟩
def fLNK_SPARES_L16_TUNED (i : Nat) : Fld := ⟨0x80001c + 0x4000 * i, 19, 19⟩
def fLNK_SPARES_L16_CHAN (i : Nat) : Fld := ⟨0x80001c + 0x4000 * i, 18, 14⟩
def fLNK_SPARES_L17_TUNED (i : Nat) : Fld := ⟨0x80001c + 0x4000 * i, 13, 13⟩
def fLNK_SPARES_L17_CHAN (i : Nat) : Fld := ⟨0x80001c + 0x4000 * i, 12, 8⟩
def fLNK_FEC_CORRECTED (i : Nat) : Fld := ⟨0x800020 + 0x4000 * i, 31, 0⟩
def fLNK_UNCORR_FAILED (i : Nat) : Fld := ⟨0x800024 + 0x4000 * i, 31, 0⟩
def fLNK_NAKS_SENT (i : Nat) : Fld := ⟨0x800028 + 0x4000 * i, 31, 16⟩
def fLNK_NAKS_RECEIVED (i : Nat) : Fld := ⟨0x800028 + 0x4000 * i, 15, 0⟩
def fLNK_EVENTS_LOCK_LOSS (i : Nat) : Fld := ⟨0x80002c + 0x4000 * i, 31, 24⟩
def fLNK_EVENTS_IDENT_FAIL (i : Nat) : Fld := ⟨0x80002c + 0x4000 * i, 23, 16⟩
def fLNK_EVENTS_LANE_MOVES (i : Nat) : Fld := ⟨0x80002c + 0x4000 * i, 15, 8⟩
def fLNK_EVENTS_SWINGS_FAILED (i : Nat) : Fld := ⟨0x80002c + 0x4000 * i, 7, 0⟩
def fLNK_SUB_STATE (i j : Nat) : Fld := ⟨0x800040 + 0x4000 * i + 0x4 * j, 31, 29⟩
def fLNK_SUB_DEGRADED_CAPS (i j : Nat) : Fld := ⟨0x800040 + 0x4000 * i + 0x4 * j, 28, 28⟩
def fLNK_SUB_PEER_ID (i j : Nat) : Fld := ⟨0x800040 + 0x4000 * i + 0x4 * j, 20, 0⟩
def fLNK_SUB_CAUSE_FAIL_CAUSE (i j : Nat) : Fld := ⟨0x800080 + 0x4000 * i + 0x4 * j, 7, 0⟩
def fLNK_PRESET_WORD (i j k : Nat) : Fld := ⟨0x801000 + 0x4000 * i + 0x80 * j + 0x4 * k, 31, 0⟩
def fRTE_CFG_OVR_EN : Fld := ⟨0x900000, 31, 31⟩
def fRTE_CFG_TELE_PUSH : Fld := ⟨0x900000, 30, 30⟩
def fRTE_CFG_SLOW_100NS : Fld := ⟨0x900000, 7, 0⟩
def fRTE_OWN_ID_ID : Fld := ⟨0x900004, 20, 0⟩
def fRTE_HASH_SALT_SALT : Fld := ⟨0x900008, 31, 0⟩
def fRTE_COLLECTOR_ID : Fld := ⟨0x90000c, 20, 0⟩
def fRTE_STATUS_OVR_ALERT : Fld := ⟨0x900010, 31, 31⟩
def fRTE_STATUS_ORDER_ALERT : Fld := ⟨0x900010, 30, 30⟩
def fRTE_STATUS_PLAN : Fld := ⟨0x900010, 2, 0⟩
def fRTE_DROP_BAD_HEADER_COUNT : Fld := ⟨0x900020, 31, 0⟩
def fRTE_DROP_LOOP_COUNT : Fld := ⟨0x900024, 31, 0⟩
def fRTE_DROP_NO_ROUTE_COUNT : Fld := ⟨0x900028, 31, 0⟩
def fRTE_DROP_RULE_COUNT : Fld := ⟨0x90002c, 31, 0⟩
def fRTE_DROP_ORDER_COUNT : Fld := ⟨0x900030, 31, 0⟩
def fRTE_DROP_NO_PATH_COUNT : Fld := ⟨0x900034, 31, 0⟩
def fRTE_DROP_LOCAL_COUNT : Fld := ⟨0x900038, 31, 0⟩
def fRTE_OVR_CONFLICT_COUNT : Fld := ⟨0x90003c, 31, 0⟩
def fRTE_ORDER_VIOLATION_COUNT : Fld := ⟨0x900040, 31, 0⟩
def fRTE_REROUTES_COUNT : Fld := ⟨0x900044, 31, 0⟩
def fRTE_SLOW_MAP_BITS (i : Nat) : Fld := ⟨0x900200 + 0x4 * i, 31, 0⟩
def fRTE_PORT_CFG_FILTER_EN (i : Nat) : Fld := ⟨0x901000 + 0x40 * i, 31, 31⟩
def fRTE_PORT_CFG_TYPE (i : Nat) : Fld := ⟨0x901000 + 0x40 * i, 29, 28⟩
def fRTE_PORT_CFG_KEY_SHARE (i : Nat) : Fld := ⟨0x901000 + 0x40 * i, 4, 0⟩
def fRTE_PORT_RX_CELLS_COUNT (i : Nat) : Fld := ⟨0x901004 + 0x40 * i, 31, 0⟩
def fRTE_PORT_TX_CELLS_COUNT (i : Nat) : Fld := ⟨0x901008 + 0x40 * i, 31, 0⟩
def fRTE_PORT_FILTERED_COUNT (i : Nat) : Fld := ⟨0x90100c + 0x40 * i, 31, 0⟩
def fRTE_PORT_DEMOTED_COUNT (i : Nat) : Fld := ⟨0x901010 + 0x40 * i, 31, 0⟩
def fRTE_PORT_STALLS_CREDIT_STALL (i : Nat) : Fld := ⟨0x901014 + 0x40 * i, 31, 16⟩
def fRTE_PORT_STALLS_K_STALL (i : Nat) : Fld := ⟨0x901014 + 0x40 * i, 15, 0⟩
def fRTE_PORT_MARKS_CREDIT_STALL (i : Nat) : Fld := ⟨0x901018 + 0x40 * i, 31, 16⟩
def fRTE_PORT_MARKS_K_STALL (i : Nat) : Fld := ⟨0x901018 + 0x40 * i, 15, 0⟩
def fRTE_FILTER_LO_VALID (i j : Nat) : Fld := ⟨0x902000 + 0x80 * i + 0x8 * j, 31, 31⟩
def fRTE_FILTER_LO_LO (i j : Nat) : Fld := ⟨0x902000 + 0x80 * i + 0x8 * j, 20, 0⟩
def fRTE_FILTER_HI_HI (i j : Nat) : Fld := ⟨0x902004 + 0x80 * i + 0x8 * j, 20, 0⟩
def fRTE_OVR_VALUE_LO_WORD (i : Nat) : Fld := ⟨0x904000 + 0x10 * i, 31, 18⟩
def fRTE_OVR_VALUE_HI_WORD (i : Nat) : Fld := ⟨0x904004 + 0x10 * i, 31, 0⟩
def fRTE_OVR_MASK_LO_WORD (i : Nat) : Fld := ⟨0x904008 + 0x10 * i, 31, 0⟩
def fRTE_OVR_MASK_HI_WORD (i : Nat) : Fld := ⟨0x90400c + 0x10 * i, 31, 0⟩
def fRTE_PSET_LO_VALID1 (i : Nat) : Fld := ⟨0x910000 + 0x8 * i, 31, 31⟩
def fRTE_PSET_LO_PORT1 (i : Nat) : Fld := ⟨0x910000 + 0x8 * i, 25, 20⟩
def fRTE_PSET_LO_SUB1 (i : Nat) : Fld := ⟨0x910000 + 0x8 * i, 19, 16⟩
def fRTE_PSET_LO_VALID0 (i : Nat) : Fld := ⟨0x910000 + 0x8 * i, 15, 15⟩
def fRTE_PSET_LO_PORT0 (i : Nat) : Fld := ⟨0x910000 + 0x8 * i, 9, 4⟩
def fRTE_PSET_LO_SUB0 (i : Nat) : Fld := ⟨0x910000 + 0x8 * i, 3, 0⟩
def fRTE_PSET_HI_VALID3 (i : Nat) : Fld := ⟨0x910004 + 0x8 * i, 31, 31⟩
def fRTE_PSET_HI_PORT3 (i : Nat) : Fld := ⟨0x910004 + 0x8 * i, 25, 20⟩
def fRTE_PSET_HI_SUB3 (i : Nat) : Fld := ⟨0x910004 + 0x8 * i, 19, 16⟩
def fRTE_PSET_HI_VALID2 (i : Nat) : Fld := ⟨0x910004 + 0x8 * i, 15, 15⟩
def fRTE_PSET_HI_PORT2 (i : Nat) : Fld := ⟨0x910004 + 0x8 * i, 9, 4⟩
def fRTE_PSET_HI_SUB2 (i : Nat) : Fld := ⟨0x910004 + 0x8 * i, 3, 0⟩
def fTIME_SOURCE_PRI_KIND : Fld := ⟨0xa00000, 31, 30⟩
def fTIME_SOURCE_PRI_PORT : Fld := ⟨0xa00000, 29, 24⟩
def fTIME_SOURCE_PRI_SUB : Fld := ⟨0xa00000, 23, 20⟩
def fTIME_SOURCE_SEC_KIND : Fld := ⟨0xa00000, 19, 18⟩
def fTIME_SOURCE_SEC_PORT : Fld := ⟨0xa00000, 17, 12⟩
def fTIME_SOURCE_SEC_SUB : Fld := ⟨0xa00000, 11, 8⟩
def fTIME_SOURCE_HOLDOVER_S : Fld := ⟨0xa00000, 7, 0⟩
def fTIME_STATUS_STATE : Fld := ⟨0xa00004, 31, 29⟩
def fTIME_STATUS_ON_SECONDARY : Fld := ⟨0xa00004, 28, 28⟩
def fTIME_STATUS_PPS_OK : Fld := ⟨0xa00004, 27, 27⟩
def fTIME_STATUS_TOD_OK : Fld := ⟨0xa00004, 26, 26⟩
def fTIME_STATUS_TIME_FAR : Fld := ⟨0xa00004, 25, 25⟩
def fTIME_OFFSET_THETA : Fld := ⟨0xa00008, 31, 0⟩
def fTIME_NOW_LO_COUNT_LO : Fld := ⟨0xa0000c, 31, 0⟩
def fTIME_NOW_HI_COUNT_HI : Fld := ⟨0xa00010, 31, 0⟩
def fTIME_NOW_FRAC_FRAC : Fld := ⟨0xa00014, 15, 0⟩
def fTIME_TOD_UTC_OFFSET : Fld := ⟨0xa00018, 31, 16⟩
def fTIME_TOD_LEAP_PENDING : Fld := ⟨0xa00018, 0, 0⟩
def fTIME_EVENTS_LOCK_LOSS : Fld := ⟨0xa0001c, 31, 24⟩
def fTIME_EVENTS_PPS_MISSED : Fld := ⟨0xa0001c, 23, 16⟩
def fTIME_EVENTS_ACTIONS_LATE : Fld := ⟨0xa0001c, 15, 8⟩
def fTIME_EVENTS_ACTIONS_SKIPPED : Fld := ⟨0xa0001c, 7, 0⟩
def fTIME_EVENTS2_PAUSE_K_IGNORED : Fld := ⟨0xa00020, 31, 16⟩
def fTIME_EVENTS2_PAUSE_ABUSE : Fld := ⟨0xa00020, 15, 8⟩
def fTIME_EVENTS2_STEP_NONE : Fld := ⟨0xa00020, 7, 0⟩
def fTIME_TOD_BAD_COUNT : Fld := ⟨0xa00024, 7, 0⟩
def fTIME_PORT_ASYM_ASYM (i : Nat) : Fld := ⟨0xa00100 + 0x8 * i, 15, 0⟩
def fTIME_PORT_OFFSET_PEER_OFFSET (i : Nat) : Fld := ⟨0xa00104 + 0x8 * i, 31, 0⟩
def fTIME_GATE_ENABLE (i : Nat) : Fld := ⟨0xa00400 + 0x4 * i, 31, 31⟩
def fTIME_GATE_PENDING (i : Nat) : Fld := ⟨0xa00400 + 0x4 * i, 30, 30⟩
def fTIME_GATE_LATE (i : Nat) : Fld := ⟨0xa00400 + 0x4 * i, 29, 29⟩
def fTIME_GATE_QUIET (i : Nat) : Fld := ⟨0xa00400 + 0x4 * i, 28, 28⟩
def fTIME_GATE_OPEN (i : Nat) : Fld := ⟨0xa00400 + 0x4 * i, 27, 23⟩
def fTIME_GATE_ENTRY (i : Nat) : Fld := ⟨0xa00400 + 0x4 * i, 5, 0⟩
def fCOL_CFG_RESEND_US : Fld := ⟨0xb00000, 23, 16⟩
def fCOL_EVENTS_PIPE_DEGRADED : Fld := ⟨0xb00010, 31, 24⟩
def fCOL_EVENTS_GATE_LATE : Fld := ⟨0xb00010, 23, 16⟩
def fCOL_EVENTS_GATE_SKIPPED : Fld := ⟨0xb00010, 15, 8⟩
def fCOL_EVENTS_OVERFLOW : Fld := ⟨0xb00010, 7, 0⟩
def fCOL_DROPS_STALE : Fld := ⟨0xb00014, 31, 16⟩
def fCOL_DROPS_EARLY_DROP : Fld := ⟨0xb00014, 15, 0⟩
def fCOL_RESENDS_COUNT : Fld := ⟨0xb00018, 31, 0⟩
def fCOL_EARLY_ENTRIES : Fld := ⟨0xb0001c, 12, 0⟩
def fCOL_SEQ_DONE_COUNT (i : Nat) : Fld := ⟨0xb00104 + 0x10 * i, 31, 0⟩
def fCOL_SEQ_CELLS_COUNT (i : Nat) : Fld := ⟨0xb00108 + 0x10 * i, 31, 0⟩
def fMEM_DIL_APER_VALID (i : Nat) : Fld := ⟨0xc00100 + 0x10 * i, 31, 31⟩
def fMEM_DIL_APER_BAD (i : Nat) : Fld := ⟨0xc00100 + 0x10 * i, 30, 30⟩
def fMEM_DIL_APER_APER_BASE (i : Nat) : Fld := ⟨0xc00100 + 0x10 * i, 23, 0⟩
def fMEM_DIL_SIZE_SIZE (i : Nat) : Fld := ⟨0xc00104 + 0x10 * i, 23, 0⟩
def fMEM_DIL_STACK_STACK_BASE (i : Nat) : Fld := ⟨0xc00108 + 0x10 * i, 23, 0⟩
def fMEM_SLICE_LO_ADDR_LO : Fld := ⟨0xc00200, 31, 21⟩
def fMEM_SLICE_HI_ADDR_HI : Fld := ⟨0xc00204, 7, 0⟩
def fMEM_RMT_CFG_COMBINE_EN : Fld := ⟨0xc00208, 31, 31⟩
def fMEM_RMT_CFG_REQ_TIMEOUT_US : Fld := ⟨0xc00208, 15, 0⟩
def fMEM_RMT_DROPS_STALE : Fld := ⟨0xc0020c, 31, 16⟩
def fMEM_RMT_DROPS_UNKNOWN_RSP : Fld := ⟨0xc0020c, 15, 0⟩
def fMEM_RMT_ERRORS_ERR_SENT : Fld := ⟨0xc00210, 31, 24⟩
def fMEM_RMT_ERRORS_ERR_RECEIVED : Fld := ⟨0xc00210, 23, 16⟩
def fMEM_RMT_ERRORS_TIMEOUTS : Fld := ⟨0xc00210, 15, 8⟩
def fMEM_RMT_ERRORS_WINDOW_FAULTS : Fld := ⟨0xc00210, 7, 0⟩
def fMEM_RMT_SEQ_SEQ_ERRORS : Fld := ⟨0xc00214, 31, 16⟩
def fMEM_RMT_SEQ_CHANNEL_WAITS : Fld := ⟨0xc00214, 15, 0⟩
def fMEM_WIN0_SET (i : Nat) : Fld := ⟨0xc04000 + 0x20 * i, 15, 8⟩
def fMEM_WIN0_FLAGS (i : Nat) : Fld := ⟨0xc04000 + 0x20 * i, 7, 0⟩
def fMEM_WIN1_TGT_LO (i : Nat) : Fld := ⟨0xc04004 + 0x20 * i, 20, 0⟩
def fMEM_WIN2_TGT_HI (i : Nat) : Fld := ⟨0xc04008 + 0x20 * i, 20, 0⟩
def fMEM_WIN4_OFF_LO (i : Nat) : Fld := ⟨0xc04010 + 0x20 * i, 31, 12⟩
def fMEM_WIN5_OFF_LO_HI (i : Nat) : Fld := ⟨0xc04014 + 0x20 * i, 7, 0⟩
def fMEM_WIN6_OFF_HI (i : Nat) : Fld := ⟨0xc04018 + 0x20 * i, 31, 12⟩
def fMEM_WIN7_OFF_HI_HI (i : Nat) : Fld := ⟨0xc0401c + 0x20 * i, 7, 0⟩
def fMEM_ARRIVAL_LO_COUNT_LO (i : Nat) : Fld := ⟨0xc10000 + 0x8 * i, 31, 0⟩
def fMEM_ARRIVAL_HI_COUNT_HI (i : Nat) : Fld := ⟨0xc10004 + 0x8 * i, 31, 0⟩
def fCHK_POLY_LO_W (i : Nat) : Fld := ⟨0xd00000 + 0x20 * i, 31, 0⟩
def fCHK_POLY_HI_W (i : Nat) : Fld := ⟨0xd00004 + 0x20 * i, 31, 0⟩
def fCHK_INIT_LO_W (i : Nat) : Fld := ⟨0xd00008 + 0x20 * i, 31, 0⟩
def fCHK_INIT_HI_W (i : Nat) : Fld := ⟨0xd0000c + 0x20 * i, 31, 0⟩
def fCHK_XOROUT_LO_W (i : Nat) : Fld := ⟨0xd00010 + 0x20 * i, 31, 0⟩
def fCHK_XOROUT_HI_W (i : Nat) : Fld := ⟨0xd00014 + 0x20 * i, 31, 0⟩
def fCHK_CFG_VALID (i : Nat) : Fld := ⟨0xd00018 + 0x20 * i, 31, 31⟩
def fCHK_CFG_REFIN (i : Nat) : Fld := ⟨0xd00018 + 0x20 * i, 30, 30⟩
def fCHK_CFG_REFOUT (i : Nat) : Fld := ⟨0xd00018 + 0x20 * i, 29, 29⟩
def fCHK_CFG_WIDTH (i : Nat) : Fld := ⟨0xd00018 + 0x20 * i, 6, 0⟩
def fCHK_EVENTS_CHECK_FAIL : Fld := ⟨0xd00400, 31, 24⟩
def fCHK_EVENTS_LOSS : Fld := ⟨0xd00400, 23, 16⟩
def fCHK_EVENTS_REPEAT : Fld := ⟨0xd00400, 15, 8⟩
def fCHK_EVENTS_STALE : Fld := ⟨0xd00400, 7, 0⟩
def fTHM_CFG_T_THR : Fld := ⟨0xe00000, 23, 16⟩
def fTHM_CFG_GAIN : Fld := ⟨0xe00000, 7, 0⟩
def fTHM_STATUS_SETTLE : Fld := ⟨0xe00004, 26, 24⟩
def fTHM_STATUS_ROUNDS : Fld := ⟨0xe00004, 23, 0⟩
def fTHM_WARN_EVENTS : Fld := ⟨0xe00008, 7, 0⟩
def fTHM_TRIP_LATCHED : Fld := ⟨0xe0000c, 31, 31⟩
def fTHM_TRIP_CAUSE : Fld := ⟨0xe0000c, 30, 29⟩
def fTHM_TRIP_SENSOR_B : Fld := ⟨0xe0000c, 15, 8⟩
def fTHM_TRIP_SENSOR_A : Fld := ⟨0xe0000c, 7, 0⟩
def fTHM_LINE_FAULT (i : Nat) : Fld := ⟨0xe00040 + 0x4 * i, 31, 31⟩
def fTHM_LINE_BREAK_POS (i : Nat) : Fld := ⟨0xe00040 + 0x4 * i, 30, 28⟩
def fTHM_SENSOR0_OPEN (i : Nat) : Fld := ⟨0xe00100 + 0x8 * i, 31, 31⟩
def fTHM_SENSOR0_IMPLAUSIBLE (i : Nat) : Fld := ⟨0xe00100 + 0x8 * i, 30, 30⟩
def fTHM_SENSOR0_SUSPECT (i : Nat) : Fld := ⟨0xe00100 + 0x8 * i, 29, 29⟩
def fTHM_SENSOR0_STANDIN (i : Nat) : Fld := ⟨0xe00100 + 0x8 * i, 28, 28⟩
def fTHM_SENSOR0_RAW (i : Nat) : Fld := ⟨0xe00100 + 0x8 * i, 19, 0⟩
def fTHM_SENSOR1_SAMPLE (i : Nat) : Fld := ⟨0xe00104 + 0x8 * i, 31, 16⟩
def fTHM_SENSOR1_FILT (i : Nat) : Fld := ⟨0xe00104 + 0x8 * i, 15, 0⟩
def fTHM_STACK0_STALE (i : Nat) : Fld := ⟨0xe00400 + 0x8 * i, 31, 31⟩
def fTHM_STACK0_SAMPLE (i : Nat) : Fld := ⟨0xe00400 + 0x8 * i, 15, 0⟩
def fTHM_STACK1_FILT (i : Nat) : Fld := ⟨0xe00404 + 0x8 * i, 15, 0⟩
def fTHM_SPAN0_FALLBACK (i : Nat) : Fld := ⟨0xe00500 + 0x8 * i, 31, 31⟩
def fTHM_SPAN0_TEMP (i : Nat) : Fld := ⟨0xe00500 + 0x8 * i, 15, 0⟩
def fTHM_SPAN1_RED_SPAN (i : Nat) : Fld := ⟨0xe00504 + 0x8 * i, 31, 24⟩
def fTHM_SPAN1_RED_STACK (i : Nat) : Fld := ⟨0xe00504 + 0x8 * i, 23, 16⟩
def fTHM_SPAN1_RED_APPLIED (i : Nat) : Fld := ⟨0xe00504 + 0x8 * i, 15, 8⟩
def fTHM_VMON_MV (i : Nat) : Fld := ⟨0xe00600 + 0x4 * i, 15, 0⟩
def fTHM_IMON_DECI_A (i : Nat) : Fld := ⟨0xe00700 + 0x4 * i, 15, 0⟩
def fTHM_HK_STATUS_STATE (i : Nat) : Fld := ⟨0xe01000 + 0x40 * i, 31, 29⟩
def fTHM_HK_STATUS_DUTY (i : Nat) : Fld := ⟨0xe01000 + 0x40 * i, 28, 26⟩
def fTHM_HK_STATUS_CAUSE (i : Nat) : Fld := ⟨0xe01000 + 0x40 * i, 9, 8⟩
def fTHM_HK_VERSION_FW_VERSION (i : Nat) : Fld := ⟨0xe01004 + 0x40 * i, 31, 0⟩
def fTHM_HK_EVENTS_RESTARTS (i : Nat) : Fld := ⟨0xe01008 + 0x40 * i, 31, 16⟩
def fTHM_HK_EVENTS_DENIED (i : Nat) : Fld := ⟨0xe01008 + 0x40 * i, 15, 0⟩
def fSEC_STATE_LIFECYCLE : Fld := ⟨0xf00000, 31, 29⟩
def fSEC_STATE_OWNER_RELEASED : Fld := ⟨0xf00000, 27, 27⟩
def fSEC_STATE_OWNER_BANK : Fld := ⟨0xf00000, 26, 24⟩
def fSEC_STATE_ROOT_REVOKED : Fld := ⟨0xf00000, 23, 20⟩
def fSEC_STATE_KEY_BLOCKED : Fld := ⟨0xf00000, 19, 19⟩
def fSEC_SVN_SVN_IO : Fld := ⟨0xf00004, 15, 8⟩
def fSEC_SVN_SVN_FOOTING : Fld := ⟨0xf00004, 7, 0⟩
def fSEC_CRYPT0_REQUIRED (i : Nat) : Fld := ⟨0xf00100 + 0x8 * i, 31, 31⟩
def fSEC_CRYPT0_ACTIVE (i : Nat) : Fld := ⟨0xf00100 + 0x8 * i, 30, 30⟩
def fSEC_CRYPT0_KEY_ID (i : Nat) : Fld := ⟨0xf00100 + 0x8 * i, 23, 16⟩
def fSEC_CRYPT1_TAG_FAIL (i : Nat) : Fld := ⟨0xf00104 + 0x8 * i, 31, 0⟩
def fDBG_STATE_STATE : Fld := ⟨0xf10000, 31, 30⟩
def fDBG_STATE_SCOPE : Fld := ⟨0xf10000, 29, 28⟩
def fDBG_STATE_REFUSED : Fld := ⟨0xf10000, 7, 0⟩
def fTRC_CFG_ENABLE (i : Nat) : Fld := ⟨0xf21000 + 0x20 * i, 31, 31⟩
def fTRC_CFG_STOP_WHEN_FULL (i : Nat) : Fld := ⟨0xf21000 + 0x20 * i, 30, 30⟩
def fTRC_CFG_EVENT_MASK (i : Nat) : Fld := ⟨0xf21000 + 0x20 * i, 7, 0⟩
def fTRC_BASE_OFFSET (i : Nat) : Fld := ⟨0xf21004 + 0x20 * i, 26, 12⟩
def fTRC_SIZE_LOG2_4K (i : Nat) : Fld := ⟨0xf21008 + 0x20 * i, 3, 0⟩
def fTRC_WRITE_COUNT (i : Nat) : Fld := ⟨0xf2100c + 0x20 * i, 31, 0⟩
def fTRC_READ_COUNT (i : Nat) : Fld := ⟨0xf21010 + 0x20 * i, 31, 0⟩
def fTRC_LOST_COUNT (i : Nat) : Fld := ⟨0xf21014 + 0x20 * i, 31, 0⟩
def fINJ_CFG_ENABLE : Fld := ⟨0xf30000, 31, 31⟩
def fINJ_STATUS_ACTIVE : Fld := ⟨0xf30004, 31, 16⟩
def fINJ_STATUS_LOADED : Fld := ⟨0xf30004, 15, 0⟩
def fINJ_COUNTS_FIRED : Fld := ⟨0xf30008, 31, 16⟩
def fINJ_COUNTS_SKIPPED : Fld := ⟨0xf30008, 15, 0⟩
def fINJ_CANCELS_COUNT : Fld := ⟨0xf3000c, 7, 0⟩
def fINJ_PLAN_WORD (i j : Nat) : Fld := ⟨0xf31000 + 0x100 * i + 0x4 * j, 31, 0⟩
def fFLAT_ENTRY_VALID1 (i : Nat) : Fld := ⟨0x1000000 + 0x4 * i, 31, 31⟩
def fFLAT_ENTRY_DROP1 (i : Nat) : Fld := ⟨0x1000000 + 0x4 * i, 30, 30⟩
def fFLAT_ENTRY_SET1 (i : Nat) : Fld := ⟨0x1000000 + 0x4 * i, 27, 16⟩
def fFLAT_ENTRY_VALID0 (i : Nat) : Fld := ⟨0x1000000 + 0x4 * i, 15, 15⟩
def fFLAT_ENTRY_DROP0 (i : Nat) : Fld := ⟨0x1000000 + 0x4 * i, 14, 14⟩
def fFLAT_ENTRY_SET0 (i : Nat) : Fld := ⟨0x1000000 + 0x4 * i, 11, 0⟩
def fD2D_CAP_IO_GEN (i : Nat) : Fld := ⟨0x1400000 + 0x4 * i, 31, 30⟩
def fD2D_CAP_ACCEPTED (i : Nat) : Fld := ⟨0x1400000 + 0x4 * i, 29, 29⟩
def fD2D_CAP_FOREIGN (i : Nat) : Fld := ⟨0x1400000 + 0x4 * i, 28, 28⟩
def fD2D_CAP_DIE_GEN (i : Nat) : Fld := ⟨0x1400000 + 0x4 * i, 27, 20⟩
def fD2D_CAP_RATE (i : Nat) : Fld := ⟨0x1400000 + 0x4 * i, 19, 16⟩
def fD2D_CAP_FEATURES (i : Nat) : Fld := ⟨0x1400000 + 0x4 * i, 15, 8⟩
def fD2D_CAP_MARUL_VER (i : Nat) : Fld := ⟨0x1400000 + 0x4 * i, 7, 0⟩
def fD2D_LINK0_STATE (i : Nat) : Fld := ⟨0x1400100 + 0x10 * i, 31, 29⟩
def fD2D_LINK0_MODULES (i : Nat) : Fld := ⟨0x1400100 + 0x10 * i, 28, 24⟩
def fD2D_LINK0_LANES_REPAIRED (i : Nat) : Fld := ⟨0x1400100 + 0x10 * i, 23, 16⟩
def fD2D_LINK1_CRC_ERRORS (i : Nat) : Fld := ⟨0x1400104 + 0x10 * i, 31, 16⟩
def fD2D_LINK1_RESENDS (i : Nat) : Fld := ⟨0x1400104 + 0x10 * i, 15, 0⟩
def fD2D_LINK2_DETOURS (i : Nat) : Fld := ⟨0x1400108 + 0x10 * i, 15, 8⟩
def fD2D_LINK2_DOWN_EVENTS (i : Nat) : Fld := ⟨0x1400108 + 0x10 * i, 7, 0⟩

end Sys2Proof.Machine
end

