-- ==== Sys2Proof/Machine/Mem.lean ====
section
/-! DEFINITION. The device physical address map (R236, R243) and the bytes behind it. A stack byte is keyed by its stack window
address, whichever of its two addresses reaches it (R245); a Deck scratch byte by its window address; a scratchpad byte by the
physical core that holds it (R246). -/

namespace Sys2Proof.Machine

open Sys2Proof

/-! ### Bytes -/

/-- What a byte that nothing has written reads as: 0 (DESIGN CHOICE, log entry 3). -/
def unlistedByte : Byte := 0

/-- The byte at key a: undefined contents read as a free value. -/
def Memory.get (m : Memory) (a : Nat) : Byte :=
  match m.undef.find? (fun u => decide (u.lo ≤ a) && decide (a < u.hi)) with
  | some u => Config.undefByte u.gen a
  | none => (aget m.cells a).getD unlistedByte

/-- The undefined ranges without byte a. -/
def undefCut (us : List Undef) (lo hi : Nat) : List Undef :=
  us.flatMap fun u =>
    if hi ≤ u.lo ∨ u.hi ≤ lo then [u]
    else (if u.lo < lo then [{ u with hi := lo }] else []) ++ (if hi < u.hi then [{ u with lo := hi }] else [])

/-- The cells with byte b at key a, in canonical form. -/
def cellsPut (c : List Host.Cell) (a : Nat) (b : Byte) : List Host.Cell :=
  if b = unlistedByte then adel c a else aput c a b

/-- The cells with the bytes bs from key a on. -/
def cellsWrite (c : List Host.Cell) (a : Nat) : List Byte → List Host.Cell
  | [] => c
  | b :: bs => cellsWrite (cellsPut c a b) (a + 1) bs

/-- m with bytes bs written from key a on. -/
def Memory.write (m : Memory) (a : Nat) (bs : List Byte) : Memory :=
  { cells := cellsWrite m.cells a bs, undef := undefCut m.undef a (a + bs.length) }

/-- The n bytes from key a on. -/
def Memory.read (m : Memory) (a n : Nat) : List Byte := (List.range n).map fun i => m.get (a + i)

/-- m with the keys lo to hi − 1 holding undefined contents. -/
def Memory.forget (m : Memory) (lo hi gen : Nat) : Memory :=
  { cells := m.cells.filter (fun e => decide (e.1 < lo) || decide (hi ≤ e.1))
    undef := undefCut m.undef lo hi ++ (if lo < hi then [⟨lo, hi, gen⟩] else []) }

/-- m with the keys lo to hi − 1 holding 0. -/
def Memory.clear (m : Memory) (lo hi : Nat) : Memory :=
  { cells := m.cells.filter (fun e => decide (e.1 < lo) || decide (hi ≤ e.1)), undef := undefCut m.undef lo hi }

/-- The canonical form: keys strictly rising, no cell that reads as an unlisted one, no cell in an undefined range, no empty undefined range. -/
def Memory.wf (m : Memory) : Bool :=
  keysRise m.cells && (m.cells.all fun e => e.2 != unlistedByte) && (m.undef.all fun u => decide (u.lo < u.hi)) &&
    m.cells.all fun e => m.undef.all fun u => decide (e.1 < u.lo) || decide (u.hi ≤ e.1)

/-! ### The address map -/

/-- Where an address falls: a stack and stack offset, a span's Deck scratch window and offset, a logical core's scratchpad and
offset, or nowhere. -/
inductive Place where
  | stack (n off : Nat)
  | deck (span off : Nat)
  | spad (core off : Nat)
  | unmapped
  deriving DecidableEq, Repr

/-- The software-visible bytes of a stack: 46 GiB (R50). -/
def stackVisible : Nat := 0xB80000000

/-- Deck cache units of a CACHE_CODE (R249); 6 and 7 act as 5 (R281). -/
def cacheUnits (code : Nat) : Nat := match code with
  | 0 => 0 | 1 => 1 | 2 => 2 | 3 => 4 | 4 => 8 | _ => 16

/-- The state of a span's Deck and clock. -/
def State.span (s : State) (n : Nat) : SpanSt := (aget s.mm.spans n).getD {}

/-- s with a span's Deck and clock state replaced. -/
def State.setSpan (s : State) (n : Nat) (v : SpanSt) : State := { s with mm := { s.mm with spans := aput s.mm.spans n v } }

/-- The state of a stack. -/
def State.stack (s : State) (n : Nat) : StackSt := (aget s.mm.hbm n).getD {}

/-- s with a stack's state replaced. -/
def State.setStack (s : State) (n : Nat) (v : StackSt) : State := { s with mm := { s.mm with hbm := aput s.mm.hbm n v } }

/-- The bytes of Deck scratch a span maps under the split in force (R249). -/
def State.scratchBytes (s : State) (n : Nat) : Nat := 0x800000 * (16 - cacheUnits (s.span n).split)

/-- The stack and stack offset of offset x of the aperture, when a valid region covers it (R243). -/
def State.dilResolve (s : State) (x : Nat) : Place :=
  let hit := (List.range 16).find? fun i =>
    s.isSet (fMEM_DIL_APER_VALID i) && decide (32768 * (s.getF (fMEM_DIL_APER_APER_BASE i)) ≤ x) &&
      decide (x < 32768 * (s.getF (fMEM_DIL_APER_APER_BASE i) + s.getF (fMEM_DIL_SIZE_SIZE i)))
  match hit with
  | none => .unmapped
  | some i =>
    let r := x - 32768 * (s.getF (fMEM_DIL_APER_APER_BASE i))
    let g := r / 4096
    .stack (g % 8) (4096 * (s.getF (fMEM_DIL_STACK_STACK_BASE i)) + 4096 * (g / 8) + r % 4096)

/-- Where a device physical address falls (R236). -/
def State.place (s : State) (a : Nat) : Place :=
  if a < 0x8000000000 then
    if a % 0x1000000000 < stackVisible then .stack (a / 0x1000000000) (a % 0x1000000000) else .unmapped
  else if a < 0xDC00000000 then s.dilResolve (a - 0x8000000000)
  else if 0xF000000000 ≤ a ∧ a < 0xF040000000 then
    let n := (a - 0xF000000000) / 0x8000000
    let o := (a - 0xF000000000) % 0x8000000
    if o < s.scratchBytes n then .deck n o else .unmapped
  else if 0xF800000000 ≤ a ∧ a < 0xF820000000 then
    let o := (a - 0xF800000000) % 0x400000
    if o < 0x300000 then .spad ((a - 0xF800000000) / 0x400000) o else .unmapped
  else .unmapped

/-- The physical core that carries logical core c, when it is mapped (R676). -/
def State.physOf (s : State) (c : Nat) : Option Nat :=
  let l := c % 16
  let v := (s.reg (0x300010 + 0x10000 * (c / 16) + 4 * (l / 4))).toNat >>> (8 * (l % 4))
  if v / 128 % 2 = 1 then some (18 * (c / 16) + v % 32) else none

/-- The key of a stack byte. -/
def stackKey (n off : Nat) : Nat := 0x1000000000 * n + off

/-- The key of a Deck scratch byte. -/
def deckKey (n off : Nat) : Nat := 0xF000000000 + 0x8000000 * n + off

/-- The key of a scratchpad byte of physical core p. -/
def spadKey (p off : Nat) : Nat := 0x10000000000 + 0x400000 * p + off

/-- The memory key of a place; none where nothing is mapped. -/
def State.placeKey (s : State) : Place → Option Nat
  | .stack n off => some (stackKey n off)
  | .deck n off => some (deckKey n off)
  | .spad c off => (s.physOf c).map fun p => spadKey p off
  | .unmapped => none

/-- The home span of a place (R246). -/
def homeSpan : Place → Option Nat
  | .stack n _ => some n
  | .deck n _ => some n
  | .spad c _ => some (c / 16)
  | .unmapped => none

/-- Whether a span is ready under TOP.READY (R606). -/
def State.spanReady (s : State) (n : Nat) : Bool := s.getF fTOP_READY_SPAN / 2 ^ n % 2 == 1

/-- Whether an address range may be reached, by the places p allows; checked at the steps of 4,096 bytes in which every map entry is
uniform, and at the end. -/
def State.rangeAll (s : State) (a n : Nat) (p : Place → Bool) : Bool :=
  let first := a / 4096
  let last := (a + n - 1) / 4096
  n == 0 || ((List.range (last - first + 1)).all fun i => p (s.place (max a (4096 * (first + i)))))

/-- LOAD, STORE and HOST_COPY may address stacks, mapped aperture and mapped Deck scratch (R237). -/
def stationMay : Place → Bool
  | .stack _ _ => true
  | .deck _ _ => true
  | _ => false

/-- Copy engines, COLLECT and RECEIVE may also address scratchpads (R237). -/
def State.engineMay (s : State) : Place → Bool
  | .spad c _ => (s.physOf c).isSome
  | .unmapped => false
  | _ => true

/-- Whether the home span of a place is ready. -/
def State.placeReady (s : State) (p : Place) : Bool := match homeSpan p with
  | some n => s.spanReady n
  | none => false

/-- The byte at a device address (0 where nothing is mapped). -/
def State.ld1 (s : State) (a : Nat) : Byte := match s.placeKey (s.place a) with
  | some k => s.mm.mem.get k
  | none => 0

/-- The n bytes from a device address on. -/
def State.ld (s : State) (a n : Nat) : List Byte := (List.range n).map fun i => s.ld1 (a + i)

/-- The little-endian number in n bytes from a device address on. -/
def State.ldNat (s : State) (a n : Nat) : Nat := leNat (s.ld a n)

/-- s with a memory of its own. -/
def State.setMem (s : State) (m : Memory) : State := { s with mm := { s.mm with mem := m } }

/-- The run of bytes from device address a that stays on one 4 KiB granule. -/
def granuleRun (a n : Nat) : Nat := min n (4096 - a % 4096)

/-- Bytes of one granule written from a device address on; a granule that is not mapped takes none. -/
def State.stPiece (s : State) (a : Nat) (bs : List Byte) : State := match s.placeKey (s.place a) with
  | some key => s.setMem (s.mm.mem.write key bs)
  | none => s

/-- Bytes written from a device address on, granule by granule; a granule that is not mapped takes none. `fuel` bounds the granules. -/
def State.stGo (s : State) (fuel a : Nat) (bs : List Byte) : State :=
  match fuel with
  | 0 => s
  | f + 1 =>
    if bs.isEmpty then s else
      let k := granuleRun a bs.length
      (s.stPiece a (bs.take k)).stGo f (a + k) (bs.drop k)

/-! ### The poison mark (R266, R267) -/

/-- The 64-byte blocks of a range of keys. -/
def blocksOf (a n : Nat) : List Nat := if n = 0 then [] else (List.range ((a + n - 1) / 64 - a / 64 + 1)).map (· + a / 64)

/-- The blocks a range of keys covers whole. -/
def wholeBlocks (a n : Nat) : List Nat := (blocksOf a n).filter fun b => decide (a ≤ b * 64) && decide (b * 64 + 64 ≤ a + n)

/-- A rising list of naturals with x in it. -/
def insNat (x : Nat) : List Nat → List Nat
  | [] => [x]
  | y :: ys => if x < y then x :: y :: ys else if x = y then y :: ys else y :: insNat x ys

/-- s with the poison marks replaced. -/
def State.setPoison (s : State) (l : List Nat) : State := { s with mm := { s.mm with poison := l } }

/-- Whether a key is a stack byte's. -/
def isStackKey (k : Nat) : Bool := k < 0x8000000000

/-- Write bytes from a device address on: the marks of the blocks covered whole are replaced with good data (R267), or with the poison
mark when the data are poisoned (R263). -/
def State.st (s : State) (a : Nat) (bs : List Byte) (poison : Bool := false) : State :=
  let s1 := s.stGo (bs.length / 4096 + 2) a bs
  let keys := (List.range (bs.length / 4096 + 2)).filterMap fun i =>
    let lo := if i = 0 then a else 4096 * (a / 4096 + i)
    let hi := min (a + bs.length) (4096 * (a / 4096 + i + 1))
    if lo < hi then (s.placeKey (s.place lo)).map fun k => (k, hi - lo) else none
  let stackRuns := keys.filter fun r => isStackKey r.1
  let whole := stackRuns.flatMap fun r => wholeBlocks r.1 r.2
  let all := stackRuns.flatMap fun r => blocksOf r.1 r.2
  if poison then s1.setPoison (all.foldl (fun l b => insNat b l) s1.mm.poison)
  else s1.setPoison (s1.mm.poison.filter fun b => !whole.contains b)

/-- Whether an injected HBM_POISON is to be delivered, or is being delivered by the read in hand, from the 64-byte block b of stack keys (R684). One that a read has taken
holds in `untilAt` the count of free values of that read. -/
def State.injPoison (s : State) (b : Nat) : Bool :=
  s.faults.injections.any fun j => j.kind == 4 && stackKey j.a j.b / 64 == b && (j.left == 1 || (j.left == 2 && j.untilAt == s.freeCtr))

/-- Whether the 64-byte block b of stack keys carries the poison mark: a block of undefined contents may or may not (R725). -/
def State.marked (s : State) (b : Nat) : Bool :=
  s.mm.poison.contains b || s.injPoison b || match s.mm.mem.undef.find? (fun u => decide (u.lo < b * 64 + 64) && decide (b * 64 < u.hi)) with
    | some u => Config.undefMark u.gen b
    | none => false

/-- Whether any 64-byte block of a range of device addresses carries the poison mark. -/
def State.poisoned (s : State) (a n : Nat) : Bool :=
  (List.range (n / 64 + 2)).any fun i =>
    let x := if i = 0 then a else (a / 64 + i) * 64
    decide (x < a + n) && match s.placeKey (s.place x) with
      | some k => isStackKey k && s.marked (k / 64)
      | none => false

/-- A byte as a reader gets it: a byte of a block with the poison mark is a free value (R266). -/
def State.rd1 (s : State) (a : Nat) : Byte := match s.placeKey (s.place a) with
  | some k => if isStackKey k && s.marked (k / 64) then Config.poisonByte s.freeCtr k else s.mm.mem.get k
  | none => 0

/-- The n bytes from a device address on, as a reader gets them. -/
def State.rd (s : State) (a n : Nat) : List Byte := (List.range n).map fun i => s.rd1 (a + i)

/-- s after drawing a free value. -/
def State.drew (s : State) : State := { s with freeCtr := s.freeCtr + 1 }

/-- s with a range of memory keys undefined (R662, R725), their poison marks with them. -/
def State.forget (s : State) (lo hi : Nat) : State :=
  { s with
    mm := { s.mm with
      mem := s.mm.mem.forget lo hi s.freeCtr
      poison := s.mm.poison.filter fun b => decide (b * 64 + 64 ≤ lo) || decide (hi ≤ b * 64) }
    freeCtr := s.freeCtr + 1 }

/-- s with the visible part of stack n undefined. -/
def State.forgetStack (s : State) (n : Nat) : State := s.forget (stackKey n 0) (stackKey n stackVisible)

/-- s with a physical core's scratchpad undefined. -/
def State.forgetSpad (s : State) (p : Nat) : State := s.forget (spadKey p 0) (spadKey p 0x300000)

/-- s with Deck scratch offsets lo to hi − 1 of span n undefined. -/
def State.forgetDeck (s : State) (n lo hi : Nat) : State := if lo < hi then s.forget (deckKey n lo) (deckKey n hi) else s

end Sys2Proof.Machine
end

