-- ==== Sys2Proof/Machine/Records.lean ====
section
/-! DEFINITION. Records: how a completion, stream or error record is built, posted to a completion ring, held, signalled and logged
(R311–R320, R647–R652). -/

namespace Sys2Proof.Machine

open Sys2Proof

/-- s with one more thing sent. -/
def State.emit (s : State) (o : Out) : State := { s with out := s.out ++ [o] }

/-- s with the host interface replaced. -/
def State.setHost (s : State) (h : HostSt) : State := { s with host := h }

/-! ### Functions and links -/

/-- The two ports' STRAP_BIF as sampled (R284). -/
def State.bif (s : State) (port : Nat) : Bool := s.getF fTOP_STRAPS_BIF / 2 ^ port % 2 == 1

/-- Whether a FID names a function (R286). -/
def State.fidNames (s : State) (fid : Nat) : Bool :=
  let ix := fid % 128
  decide (fid < 256) && (ix == 0 || (ix == 1 && s.bif (fid / 128)) || (decide (2 ≤ ix) && decide (ix ≤ 65)))

/-- Whether a FID is a PF's. -/
def isPf (fid : Nat) : Bool := fid % 128 == 0 || fid % 128 == 1

/-- The PF index of R342 for a PF's FID: 0x00, 0x01, 0x80, 0x81 in that order. -/
def pfIx (fid : Nat) : Nat := (fid / 128) * 2 + fid % 128

/-- The FID of a PF index. -/
def pfFid (i : Nat) : Nat := (i / 2) * 128 + i % 2

/-- The link a function's traffic uses (R283, R286). -/
def State.fidLink (s : State) (fid : Nat) : Nat :=
  let p := fid / 128
  let ix := fid % 128
  2 * p + (if s.bif p && (ix == 1 || decide (34 ≤ ix)) then 1 else 0)

/-- A function as set up; a PF is enabled from the start (log entry 20). -/
def State.fn (s : State) (fid : Nat) : Fn := (aget s.host.fns fid).getD { enabled := isPf fid }

/-- s with a function's set-up replaced. -/
def State.setFn (s : State) (fid : Nat) (f : Fn) : State := s.setHost { s.host with fns := aput s.host.fns fid f }

/-- A link's state. -/
def State.link (s : State) (l : Nat) : LinkSt := (aget s.host.links l).getD {}

/-- s with a link's state replaced. -/
def State.setLink (s : State) (l : Nat) (v : LinkSt) : State := s.setHost { s.host with links := aput s.host.links l v }

/-- PERST_N of a host port asserted. -/
def State.perst (s : State) (p : Nat) : Bool := if p = 0 then s.host.perst0 else s.host.perst1

/-- The PF that a function belongs to (R286). -/
def State.vfPf (s : State) (fid : Nat) : Nat := (fid / 128) * 128 + s.fidLink fid % 2

/-- Whether the device may issue requests for a function: its link is up and not failed, its port out of PERST, an IDE stream in the
Secure state where IDE is required, the function in D0, and a VF's PF with VF Enable set (R285, R292, R295, R335). -/
def State.fidLive (s : State) (fid : Nat) : Bool :=
  let l := s.fidLink fid
  s.fidNames fid && s.isSet (fHOST_LINK_UP l) && !(s.link l).failed && !s.perst (fid / 128) && !(s.fn fid).d3hot &&
    (!s.isSet fHOST_CFG_IDE_REQUIRED || s.isSet (fHOST_LINK_IDE_SECURE l)) && (isPf fid || (s.fn (s.vfPf fid)).vfEnable)

/-! ### Rings -/

/-- A submission ring's state. -/
def State.sq (s : State) (n : Nat) : Sq := (aget s.host.sqs n).getD {}

/-- s with a submission ring's state replaced. -/
def State.setSq (s : State) (n : Nat) (q : Sq) : State := s.setHost { s.host with sqs := aput s.host.sqs n q }

/-- A completion ring's state. -/
def State.cq (s : State) (n : Nat) : Cq := (aget s.host.cqs n).getD {}

/-- s with a completion ring's state replaced. -/
def State.setCq (s : State) (n : Nat) (q : Cq) : State := s.setHost { s.host with cqs := aput s.host.cqs n q }

/-- The current function of an SQ and of a CQ. -/
def State.sqFid (s : State) (n : Nat) : Nat :=
  if s.isSet (fHOST_SQ_STATE_HI_ON_STBY n) then (s.sq n).stby else s.getF (fHOST_SQ_STATE_HI_FID n)
def State.cqFid (s : State) (n : Nat) : Nat :=
  if s.isSet (fHOST_CQ_STATE_HI_ON_STBY n) then (s.cq n).stby else s.getF (fHOST_CQ_STATE_HI_FID n)

/-- The number of entries of a CQ and of an SQ. -/
def State.cqSize (s : State) (n : Nat) : Nat := 2 ^ s.getF (fHOST_CQ_STATE_HI_LOG2_SIZE n)
def State.sqSize (s : State) (n : Nat) : Nat := 2 ^ s.getF (fHOST_SQ_STATE_HI_LOG2_SIZE n)

/-- Records posted and not known consumed (R317). -/
def State.cqUsed (s : State) (n : Nat) : Nat := (s.getF (fHOST_CQ_STATE_LO_POSTED n) + 2 ^ 32 - (s.cq n).head) % 2 ^ 32

/-- Room for one record of a descriptor that reserved it (R317). -/
def State.cqRoom (s : State) (n : Nat) : Bool := decide (s.cqUsed n < s.cqSize n)

/-- Room for one record more than are reserved (R318, R319). -/
def State.cqRoomFree (s : State) (n : Nat) : Bool := decide (s.cqUsed n + (s.cq n).reserved < s.cqSize n)

/-- Whether records may be posted to a CQ now. -/
def State.cqLive (s : State) (n : Nat) : Bool :=
  s.isSet (fHOST_CQ_STATE_HI_VALID n) && !s.isSet (fHOST_CQ_STATE_HI_DISABLED n) && s.fidLive (s.cqFid n)

/-! ### Interrupts (R320) -/

/-- Send a vector of a function, or set its pending bit while it is masked. -/
def State.sendVector (s : State) (fid vec : Nat) : State :=
  let f := s.fn fid
  if f.unmasked.contains vec then s.emit (.msix fid vec)
  else s.setFn fid { f with msixPend := insNat vec f.msixPend }

/-- The vector a CQ sends on its current function. -/
def State.cqVec (s : State) (n : Nat) : Nat :=
  if s.isSet (fHOST_CQ_STATE_HI_ON_STBY n) then (s.cq n).stbyVec else (s.cq n).vec

/-- Whether the records since the last interrupt of a CQ call for one now. -/
def State.irqDue (s : State) (n : Nat) : Bool :=
  let c := s.cq n
  c.irqEn && decide (0 < c.since) &&
    (decide (c.coalCount ≤ c.since) || decide (c.firstAt + 1000 * c.coalTime ≤ s.time.nowNs) || c.irqNow)

/-- Send a CQ's vector when it is due. -/
def State.irqCheck (s : State) (n : Nat) : State :=
  if s.irqDue n then
    (s.setCq n { s.cq n with since := 0, irqNow := false }).sendVector (s.cqFid n) (s.cqVec n)
  else s

/-! ### Posting (R311, R312, R317–R319) -/

/-- Whether a record is an error record: its byte 6 holds 0xF8 (R316, R647). -/
def isErrRec (r : List Byte) : Bool := r.getD 6 0 == 0xF8

/-- The CRC of an error record's header: CRC-32C over its 64 bytes with the CRC field and the phase bit 0 (R647). -/
def errCrc (r : List Byte) : Nat :=
  crc32c (r.take 12 ++ [0, 0, 0, 0] ++ (r.drop 16).take 47 ++ [BitVec.ofNat 8 ((r.getD 63 0).toNat % 128)])

/-- An error record with its CRC field set. -/
def withCrc (r : List Byte) : List Byte := r.take 12 ++ leBytes 4 (errCrc r) ++ r.drop 16

/-- A record as it is written to a slot: LOST set where records were discarded since, SQ_HEAD filled in a completion, the phase in the
last byte of the entry. -/
def State.slotImage (s : State) (n : Nat) (r : List Byte) : List Byte :=
  let posted := s.getF (fHOST_CQ_STATE_LO_POSTED n)
  let ph : Nat := if posted / s.cqSize n % 2 = 0 then 128 else 0
  let lost := s.isSet (fHOST_CQ_STATE_HI_LOST n)
  if isErrRec r then
    let r1 := if lost then r.set 5 (BitVec.ofNat 8 ((r.getD 5 0).toNat ||| 32)) else r
    let r2 := withCrc r1
    r2.set 63 (BitVec.ofNat 8 ((r2.getD 63 0).toNat % 128 + ph))
  else
    let sqn := recNat r 4 2
    let r1 := if lost then r.set 30 (BitVec.ofNat 8 ((r.getD 30 0).toNat ||| 1)) else r
    let r2 := if sqn = 0xFFFF then r1 else r1.take 28 ++ leBytes 2 (s.getF (fHOST_SQ_STATE_LO_FETCHED sqn)) ++ r1.drop 30
    if s.isSet (fHOST_CQ_STATE_HI_ENTRY_64 n) then r2.take 32 ++ List.replicate 31 0 ++ [BitVec.ofNat 8 ph]
    else r2.set 31 (BitVec.ofNat 8 ph)

/-- The bytes of an entry of a CQ. -/
def State.cqEntry (s : State) (n : Nat) : Nat := if s.isSet (fHOST_CQ_STATE_HI_ENTRY_64 n) then 64 else 32

/-- Write a record into a CQ's next slot, and signal it when that is due. -/
def State.postNow (s : State) (n : Nat) (r : List Byte) (irqNow : Bool) : State :=
  let posted := s.getF (fHOST_CQ_STATE_LO_POSTED n)
  let img := s.slotImage n r
  let c := s.cq n
  let s1 := s.emit (.hostWrite (s.cqFid n) (c.base + (posted % s.cqSize n) * s.cqEntry n) img)
  let s2 := s1.setCq n { c with
    live := c.live ++ [(posted, img)]
    since := c.since + 1
    firstAt := if c.since = 0 then s.time.nowNs else c.firstAt
    irqNow := c.irqNow || irqNow }
  ((s2.setF (fHOST_CQ_STATE_LO_POSTED n) (posted + 1)).setF (fHOST_CQ_STATE_HI_LOST n) 0).irqCheck n

/-- Whether records for a CQ are held already. -/
def State.cqHolds (s : State) (n : Nat) : Bool := s.host.pending.any (·.cq == n)

/-- Hold a record that finds no room, or discard it when the store is full (R319). A final completion is never discarded: with the store
full it stands in the store beyond its 4,096 records on behalf of the in-flight entry. -/
def State.holdRec (s : State) (n : Nat) (r : List Byte) (final irqNow : Bool) : State :=
  if s.host.pending.length < 4096 ∨ final then s.setHost { s.host with pending := s.host.pending ++ [⟨n, r, final, irqNow⟩] }
  else (s.bumpSat fHOST_COUNTS_REC_LOST).setF (fHOST_CQ_STATE_HI_LOST n) 1

/-- Post a record to a CQ, or hold it when there is no room or earlier records wait (R319). `resv` says that a reserved slot is its own. -/
def State.post (s : State) (n : Nat) (r : List Byte) (final resv irqNow : Bool) : State :=
  if s.power.tripped then s
  else if s.cqLive n && !s.cqHolds n && (if resv then s.cqRoom n else s.cqRoomFree n) then s.postNow n r irqNow
  else s.holdRec n r final irqNow

/-- Post held records of a CQ, oldest first, while there is room; at most `fuel` of them. -/
def State.drainCq (s : State) (fuel n : Nat) : State :=
  match fuel with
  | 0 => s
  | k + 1 =>
    match s.host.pending.find? (·.cq == n) with
    | none => s
    | some h =>
      if s.cqLive n && s.cqRoom n && (h.final || s.cqRoomFree n) then
        let s1 := s.setHost { s.host with pending := dropFirst (·.cq == n) s.host.pending }
        (s1.postNow n h.bytes h.irqNow).drainCq k n
      else s

/-! ### Error records (R316, R647–R652) -/

/-- What an error record says, beside its number, header and time. `owner` is the function concerned; none for the whole device. -/
structure RecSpec where
  typ : Nat
  sev : Nat
  cause : Nat := 0
  level : Nat := 0
  injected : Bool := false
  slice : Nat := 0
  seq : Nat := 0
  attempt : Nat := 0
  unitKind : Nat := 0
  unitIx : Nat := 0
  stream : Nat := 0xFFFF
  node : Nat := 0
  arg0 : Nat := 0
  arg1 : Nat := 0
  arg2 : Nat := 0
  owner : Option Nat := none
  deriving DecidableEq, Repr

/-- The error CQ of a function, when it has one (R316). -/
def State.errCq (s : State) (fid : Nat) : Option Nat :=
  let c := if isPf fid then
      (if s.isSet (fHOST_PF_ERR_ERR_EN (pfIx fid)) then some (s.getF (fHOST_PF_ERR_ERR_CQ (pfIx fid))) else none)
    else (if (s.fn fid).errCq < 32768 then some (s.fn fid).errCq else none)
  match c with
  | some n => if s.isSet (fHOST_CQ_STATE_HI_VALID n) && s.isSet (fHOST_CQ_STATE_HI_ENTRY_64 n) && s.cqFid n == fid then some n else none
  | none => none

/-- The error CQs a record goes to: its owner's, or every PF's. -/
def State.recDest (s : State) : Option Nat → List Nat
  | some f => (s.errCq f).toList
  | none => ((List.range 4).filterMap fun i => s.errCq (pfFid i)).eraseDups

/-- Whether the log flash takes records of a type (R649). -/
def typeLogged (t : Nat) : Bool := [0x03, 0x04, 0x05, 0x06, 0x07, 0x0A, 0x0B, 0x0C, 0x0D, 0x0F, 0x10, 0x12, 0x13].contains t

/-- Fabric time as records report it: 0 while it is unset (R649). -/
def State.ftOrZero (s : State) : Nat := if s.getF fTIME_STATUS_STATE = 0 then 0 else s.time.ft

/-- Slots of the log ring and of the ledger (R651, R652). -/
def logRingSlots : Nat := 212992
def ledgerSlots : Nat := 49152

/-- Write a record to the ring of the log flash: the next slot; on entering a sector, the sector after it is erased, so that 4 KiB of
erased flash always lie ahead (R630, R652). -/
def State.logRing (s : State) (r : List Byte) : State :=
  let i := s.log.ringNext
  let nx := (i + 1) % logRingSlots
  let ring1 := aput s.log.ring i r
  let er := (nx / 64 + 1) % (logRingSlots / 64)
  let ring2 := if nx % 64 = 0 then ring1.filter (fun e => e.1 / 64 != er) else ring1
  { s with log := { s.log with ring := ring2, ringNext := nx } }

/-- Write a record to the ledger, which is never erased; a full ledger sets LEDGER_FULL (R651). -/
def State.logLedger (s : State) (r : List Byte) : State :=
  let used := s.getF fTOP_LOG_STATE_LEDGER_USED
  if used < ledgerSlots then
    ({ s with log := { s.log with ledger := aput s.log.ledger used r } }).setF fTOP_LOG_STATE_LEDGER_USED (used + 1)
  else s.setF fTOP_LOG_STATE_LEDGER_FULL 1

/-- The common header of an error record with its CRC, from its number, and the body in bytes 16–63 (R647). -/
def errImage (seq typ level sev cause : Nat) (injected logged : Bool) (body : List Byte) : List Byte :=
  withCrc (leBytes 4 seq ++ leBytes 1 typ ++ leBytes 1 (level % 8 + (if injected then 8 else 0) + (if logged then 16 else 0)) ++
    [0xF8] ++ leBytes 1 sev ++ leBytes 4 cause ++ [0, 0, 0, 0] ++ (body ++ List.replicate 48 0).take 48)

/-- Number a record, log it when its type or the want of an error CQ calls for it, and post it to its error CQs. `ledger` says that it also
belongs to the ledger. -/
def State.writeRaw (s : State) (typ level sev cause : Nat) (injected ledger : Bool) (body : List Byte) (owner : Option Nat) : State :=
  let seq := s.getF fTOP_LOG_NEXT_SEQ
  let dest := if typ = 0x03 then [] else s.recDest owner
  let quiet := typ == 0x13 && (recNat body 24 1 == 3 || recNat body 24 1 == 5)
  let logged := (typeLogged typ && !quiet) || dest.isEmpty
  let img := errImage seq typ level sev cause injected logged body
  let s1 := s.setF fTOP_LOG_NEXT_SEQ (seq + 1)
  let s2 := if logged then s1.logRing img else s1
  let s3 := if ledger then s2.logLedger img else s2
  dest.foldl (fun st n => st.post n img false false false) s3

/-- The generic body of an error record (R649). -/
def State.recBody (s : State) (r : RecSpec) : List Byte :=
  leBytes 8 s.ftOrZero ++ leBytes 8 (2 ^ 48 * r.slice + r.seq) ++ leBytes 1 (r.attempt % 16) ++ leBytes 1 r.unitKind ++ leBytes 2 r.unitIx ++
    leBytes 2 r.stream ++ leBytes 2 r.node ++ leBytes 8 r.arg0 ++ leBytes 8 r.arg1 ++ leBytes 4 r.arg2

/-- Write an error record with the generic body (R647–R652). Retired pages and retired cores go to the ledger; injected HBM events do not
(R685). -/
def State.errRec (s : State) (r : RecSpec) : State :=
  s.writeRaw r.typ r.level r.sev r.cause r.injected
    ((r.typ == 0x06 || r.typ == 0x10) && r.arg0 == 2 && !r.injected) (s.recBody r) r.owner

/-! ### Completions (R311, R313, R314) -/

/-- A completion record, PHASE, LOST and SQ_HEAD clear: bytes 8–27 from `body`. -/
def complImage (tag sq opcode status : Nat) (body : List Byte) : List Byte :=
  leBytes 4 tag ++ leBytes 2 sq ++ leBytes 1 opcode ++ leBytes 1 status ++ (body ++ List.replicate 20 0).take 20 ++ [0, 0, 0, 0]

/-- The in-flight descriptor numbered no. -/
def State.flight (s : State) (no : Nat) : Option InFlight := s.host.flights.find? (·.no == no)

/-- s with the reserved records of an SQ's CQ lowered by k. -/
def State.unreserve (s : State) (sq k : Nat) : State :=
  let n := s.getF (fHOST_SQ_STATE_HI_CQ sq)
  s.setCq n { s.cq n with reserved := (s.cq n).reserved - k }

/-- Post the final completion of an in-flight descriptor and drop its entry; what it still reserved is released (R318). -/
def State.finish (s : State) (f : InFlight) (status : Nat) (body : List Byte) : State :=
  let n := s.getF (fHOST_SQ_STATE_HI_CQ f.sq)
  let r := complImage f.tag f.sq f.opcode status body
  let s1 := s.setHost { s.host with flights := dropFirst (·.no == f.no) s.host.flights }
  let s2 := s1.unreserve f.sq f.resv
  s2.post n r true (decide (f.resv = 2)) f.irqNow

/-- The state of an in-flight descriptor replaced. -/
def State.setFlight (s : State) (f : InFlight) : State :=
  s.setHost { s.host with flights := mapFirst (·.no == f.no) (fun _ => f) s.host.flights }

end Sys2Proof.Machine
end

