-- ==== Sys2Proof/Machine/StreamCache.lean ====
section
/-! DEFINITION. The stream table's entries (R187) and the stream cache (R197–R200). The cache is write-through: it holds which entries are on chip and which of
them are pinned, and the entries' bytes stand in the table. -/

namespace Sys2Proof.Machine

open Sys2Proof

/-- The device address of a stream's table entry. -/
def State.entryAddr (s : State) (id : Nat) : Nat :=
  0x800000 * (s.getF fSTREAM_TABLE_LO_ADDR_LO) + 0x100000000 * (s.getF fSTREAM_TABLE_HI_ADDR_HI) + id * 128

/-- The 128 bytes of a stream's entry. -/
def State.entry (s : State) (id : Nat) : List Byte := s.ld (s.entryAddr id) 128

/-- s with bytes from byte b of a stream's entry written. -/
def State.putEntry (s : State) (id b : Nat) (bs : List Byte) : State := s.st (s.entryAddr id + b) bs

/-- The committed state of an entry (R187). -/
def entState (e : List Byte) : Nat := recBits e 0 1 2 0

/-- s with the stream cache replaced, and STREAM.CACHE showing it. -/
def State.setStreams (s : State) (c : StreamSt) : State :=
  let ways : List SWay := c.sets.flatMap (fun e => e.2)
  ({ s with streams := c }.setF fSTREAM_CACHE_VALID ways.length).setF fSTREAM_CACHE_PINNED (ways.filter (fun (w : SWay) => w.pinned)).length

/-- The ways of the set of a stream (R197). -/
def StreamSt.set (c : StreamSt) (id : Nat) : List SWay := (aget c.sets (id % 512)).getD []

/-- Whether an entry is on chip, and whether it is pinned there. -/
def StreamSt.has (c : StreamSt) (id : Nat) : Bool := (c.set id).any (·.id == id)
def StreamSt.pinned (c : StreamSt) (id : Nat) : Bool := (c.set id).any fun w => w.id == id && w.pinned

/-- Pinned entries in all, and in the set of a stream. -/
def StreamSt.pins (c : StreamSt) : Nat := ((c.sets.flatMap (fun e => e.2)).filter (fun (w : SWay) => w.pinned)).length
def StreamSt.setPins (c : StreamSt) (id : Nat) : Nat := ((c.set id).filter (·.pinned)).length

/-- A way used: moved to the front of its set. -/
def StreamSt.touch (c : StreamSt) (id : Nat) : StreamSt := match (c.set id).find? (·.id == id) with
  | some w => { c with sets := aput c.sets (id % 512) (w :: dropFirst (·.id == id) (c.set id)) }
  | none => c

/-- The list without its last element that p picks. -/
def dropLast {α : Type} (p : α → Bool) (l : List α) : List α := (dropFirst p l.reverse).reverse

/-- An entry takes a way of its set: a free one, or the least recently used that is not pinned (R197). -/
def StreamSt.place (c : StreamSt) (w : SWay) : StreamSt :=
  let ws := c.set w.id
  { c with sets := aput c.sets (w.id % 512) (w :: (if 16 ≤ ws.length then dropLast (fun v => !v.pinned) ws else ws)) }

/-- An entry is loaded into the cache: one with PINNED set in HBM is pinned again unless that would break a limit of R199, which is counted (R200). -/
def State.loadStream (s : State) (id : Nat) : State :=
  let c := s.streams
  if c.has id then s.setStreams (c.touch id)
  else
    let want := recBits (s.entry id) 1 1 1 1 == 1
    let may := decide (c.pins < 1024) && decide (c.setPins id < 8)
    let s1 := s.setStreams (c.place { id := id, pinned := want && may })
    if want && !may then s1.bumpSat fSTREAM_EVENTS_PIN_REFUSED else s1

/-- A use of an entry that is served at once: a hit, or a miss counted and filled. -/
def State.useStream (s : State) (id : Nat) : State :=
  (if s.streams.has id then s else s.bumpWrap fSTREAM_MISSES_COUNT).loadStream id

/-- A use of an entry by a step that starts: a hit, or a miss whose fetch is issued or queued behind the 64 outstanding (R197). The second part says whether it
was a hit. -/
def State.askStream (s : State) (id : Nat) : State × Bool :=
  let c := s.streams
  if c.has id then (s.setStreams (c.touch id), true)
  else if c.fetching.any (·.1 == id) || c.queued.contains id then (s, false)
  else
    let s1 := s.bumpWrap fSTREAM_MISSES_COUNT
    if c.fetching.length < 64 then (s1.setStreams { c with fetching := c.fetching ++ [(id, s.time.nowNs)] }, false)
    else
      let q := c.queued ++ [id]
      ((s1.setStreams { c with queued := q }).maxF fSTREAM_WALK_QUEUE_MAX q.length, false)

/-- A pinned way of an entry made ordinary. -/
def State.unpinWay (s : State) (id : Nat) : State :=
  let c := s.streams
  if c.has id then s.setStreams { c with sets := aput c.sets (id % 512) (mapFirst (·.id == id) (fun (w : SWay) => { w with pinned := false }) (c.set id)) } else s

/-- An entry made pinned on chip; it is loaded when absent (R199). -/
def State.pinWay (s : State) (id : Nat) : State :=
  let s1 := s.useStream id
  let c := s1.streams
  s1.setStreams { c with sets := aput c.sets (id % 512) (mapFirst (·.id == id) (fun (w : SWay) => { w with pinned := true }) (c.set id)) }

end Sys2Proof.Machine
end

