-- ==== Sys2Proof/Machine/Trace.lean ====
section
/-! DEFINITION. The trace units: what a record holds, and when it is written or counted lost (R717–R719). -/

namespace Sys2Proof.Machine

open Sys2Proof

/-! ### The trace -/

/-- Whether fabric time is set. -/
def State.ftSet (s : State) : Bool := s.getF fTIME_STATUS_STATE != 0

/-- The TIME of a trace record (R717). -/
def State.traceTime (s : State) : Nat :=
  if s.ftSet then s.time.ft else 2 ^ 63 + (s.time.nowNs - s.time.porAt)

/-- Records in a core's ring (R719, R724). -/
def State.traceSize (s : State) (c : Nat) : Nat := 128 * 2 ^ min 11 (s.getF (fTRC_SIZE_LOG2_4K c))

/-- What a trace event says of its step. -/
structure TraceRec where
  event : Nat
  inst : Nat := 0xFF
  node : Nat := 0
  slice : Nat := 0
  seq : Nat := 0
  attempt : Nat := 0
  arg0 : Nat := 0
  arg1 : Nat := 0
  deriving DecidableEq, Repr

/-- The 32 bytes of a trace record (R717). -/
def traceBytes (time core seq : Nat) (r : TraceRec) : List Byte :=
  leBytes 8 time ++ leBytes 1 r.event ++ leBytes 1 r.inst ++ leBytes 2 r.node ++ leBytes 2 r.slice ++ leBytes 2 r.seq ++ leBytes 1 (r.attempt % 16) ++
    leBytes 1 core ++ [0, 0] ++ leBytes 4 r.arg0 ++ leBytes 4 r.arg1 ++ leBytes 4 seq

/-- Write a record into a core's ring and count it in WRITE (R719). -/
def State.tracePut (s : State) (c : Nat) (r : TraceRec) : State :=
  let k := s.getF (fTRC_WRITE_COUNT c)
  let a := 0xF000000000 + 0x8000000 * (c / 16) + 4096 * (s.getF (fTRC_BASE_OFFSET c)) + (k % s.traceSize c) * 32
  (s.st a (traceBytes s.traceTime c k r)).setF (fTRC_WRITE_COUNT c) (k + 1)

/-- Whether an ordinary record finds room (R719). -/
def State.traceRoom (s : State) (c : Nat) : Bool :=
  !s.isSet (fTRC_CFG_STOP_WHEN_FULL c) ||
    decide ((s.getF (fTRC_WRITE_COUNT c) + 2 ^ 32 - s.getF (fTRC_READ_COUNT c)) % 2 ^ 32 + 2 < s.traceSize c)

/-- Whether PARK or RESUME finds room: the last two slots are kept for them and LOST (R719). -/
def State.traceRoomPark (s : State) (c : Nat) : Bool :=
  !s.isSet (fTRC_CFG_STOP_WHEN_FULL c) ||
    decide ((s.getF (fTRC_WRITE_COUNT c) + 2 ^ 32 - s.getF (fTRC_READ_COUNT c)) % 2 ^ 32 < s.traceSize c)

/-- The LOST record that goes before any other once space has returned (R719). -/
def State.traceLostFirst (s : State) (c : Nat) : State :=
  let n := (aget s.traceLost c).getD 0
  if n ≠ 0 ∧ s.traceRoom c then
    { s with traceLost := adel s.traceLost c }.tracePut c { event := 0x0B, arg0 := n }
  else s

/-- Record an event on a core when its trace unit is enabled and the event's bit of EVENT_MASK is set; PARK, RESUME and LOST whatever the mask
holds (R718). A record that finds no room is counted lost. -/
def State.trace (s : State) (c : Nat) (r : TraceRec) : State :=
  if s.isSet (fTRC_CFG_ENABLE c) && (decide (9 ≤ r.event) || s.getF (fTRC_CFG_EVENT_MASK c) / 2 ^ (r.event - 1) % 2 == 1) then
    let s1 := s.traceLostFirst c
    if s1.traceRoom c || (decide (9 ≤ r.event) && s1.traceRoomPark c) then s1.tracePut c r
    else
      let s2 := s1.bumpSat (fTRC_LOST_COUNT c)
      { s2 with traceLost := aput s1.traceLost c ((aget s1.traceLost c).getD 0 + 1) }
  else s

end Sys2Proof.Machine
end

