-- ==== Sys2Proof/Machine/StepOps.lean ====
section
/-! DEFINITION. The shared operations on steps: slices, frames the device originates, stream entries and contexts, the commit round,
aborts, exclusions and step completions (R79–R118, R187–R193, R313–R315, R438–R440). -/

namespace Sys2Proof.Machine

open Sys2Proof

/-! ### Steps by slot -/

/-- The step in a slot. -/
def State.step? (s : State) (i : Nat) : Option Step := aget s.steps.slots i

/-- s with the step in a slot replaced. -/
def State.setStep (s : State) (i : Nat) (t : Step) : State := { s with steps := { s.steps with slots := aput s.steps.slots i t } }

/-- What remote memory keeps for the step of a slot, dropped: its requests and copies, and its channels, freed now (R468). -/
def RmtSt.dropSlot (r : RmtSt) (i now : Nat) : RmtSt :=
  { r with
    results := r.results.filter (·.slot != i), reqs := r.reqs.filter (·.slot != i), waiting := r.waiting.filter (·.req.slot != i)
    copies := r.copies.filter (·.slot != i), tx := r.tx.filter (·.slot != i), rx := r.rx.filter (·.slot != i)
    freed := r.freed ++ ((r.rx.filter (·.slot == i)).flatMap (·.chans)).map fun c => (c, now)
    alive := r.alive.filter (·.1.1 != i) }

/-- s with the collectives of a step's slot ended, their slots and staging free, the early grants of its attempt discarded (R515, R527). -/
def State.dropColls (s : State) (i : Nat) : State :=
  let key : Option (Nat × Nat × Nat) := (s.step? i).map fun t => (t.slice, t.seq % 65536, t.attempt)
  { s with col := { s.col with
      colls := s.col.colls.filter (·.slot != i)
      complete := s.col.complete.filter (·.1 != i)
      early := s.col.early.filter fun e => some (e.slice, e.seq, e.attempt) != key } }

/-- s with a slot empty. -/
def State.dropStep (s : State) (i : Nat) : State :=
  let s1 := s.dropColls i
  { s1 with steps := { s1.steps with slots := adel s1.steps.slots i }, rmt := s1.rmt.dropSlot i s1.time.nowNs }

/-- The slot that holds a step of this slice and sequence number. -/
def State.findStep (s : State) (slice seq : Nat) : Option (Nat × Step) :=
  s.steps.slots.find? fun e => e.2.slice == slice && e.2.seq == seq

/-- The lowest free slot of the 64 (R86). -/
def State.freeSlot (s : State) : Option Nat := (List.range 64).find? fun i => (s.step? i).isNone

/-- s with the step of a slot changed, when there is one. -/
def State.modStep (s : State) (i : Nat) (f : Step → Step) : State := match s.step? i with
  | some t => s.setStep i (f t)
  | none => s

/-- The graph a step runs. -/
def State.graphOf (s : State) (t : Step) : GraphSlot := (aget s.steps.graphs (t.handle % 4096)).getD {}

/-- The logical cores a step uses: those of its image's CORE_MASK (R69). -/
def State.stepCores (s : State) (t : Step) : List Nat := (List.range 128).filter fun c => (s.graphOf t).mask.testBit c

/-- A logical core's power state. -/
def State.coreSt (s : State) (c : Nat) : CoreSt := (aget s.cores c).getD {}

/-- s with a logical core's power state changed. -/
def State.modCore (s : State) (c : Nat) (f : CoreSt → CoreSt) : State := { s with cores := aput s.cores c (f (s.coreSt c)) }

/-- A step that is eligible but for START_TIME wakes its cores that are PARKED or OFF (R715). -/
def State.beginWakes (s : State) (t : Step) : State := (s.stepCores t).foldl (fun st c =>
  if 2 ≤ (st.coreSt c).power ∧ (st.coreSt c).waking.isNone then st.modCore c fun v => { v with waking := some st.time.nowNs } else st) s

/-- STEP_END recorded on each core of a step that has run (R718). -/
def State.traceStepEnd (s : State) (t : Step) (status cause : Nat) : State :=
  if t.ran then (s.stepCores t).foldl (fun st c => st.trace c
    { event := 0x08, slice := t.slice, seq := t.seq, attempt := t.attempt, arg0 := status, arg1 := cause }) s else s

/-- Whether an earlier step that has not resolved names a stream of step t (R83). -/
def State.streamHeld (s : State) (t : Step) : Bool :=
  s.steps.slots.any fun e => decide (e.2.fetchNo < t.fetchNo) && e.2.streams.any fun r => t.streams.any (·.id == r.id)

/-- A step that is eligible but for START_TIME begins to copy its streams' entries, hits at once, the others once fetched (R190, R197), and wakes its cores. -/
def State.beginCopies (s : State) (i : Nat) : State := match s.step? i with
  | some t =>
    if t.phase == .queued && !t.ctxBegun && !s.streamHeld t then
      let p := t.streams.foldl (fun (acc : State × List Nat) r =>
        let a := acc.1.askStream r.id
        (a.1, if a.2 then acc.2 else acc.2 ++ [r.id])) (s.beginWakes t, [])
      p.1.modStep i fun u => { u with ctxBegun := true, ctxPend := p.2 }
    else s
  | none => s

/-- Steps in the order of fetch. -/
def insFetch (e : Nat × Step) : List (Nat × Step) → List (Nat × Step)
  | [] => [e]
  | f :: fs => if e.2.fetchNo < f.2.fetchNo then e :: f :: fs else f :: insFetch e fs
def byFetch (l : List (Nat × Step)) : List (Nat × Step) := l.foldr insFetch []

/-- Every step whose copies may begin, in the order of fetch. -/
def State.startCopies (s : State) : State :=
  (byFetch s.steps.slots).foldl (fun st e => st.beginCopies e.1) s

/-! ### Slices (R438) -/

/-- The directory entry of a slice, 32 bytes. -/
def State.sliceEntry (s : State) (slice : Nat) : List Byte :=
  s.ld (0x200000 * (s.getF fMEM_SLICE_LO_ADDR_LO) + 0x100000000 * (s.getF fMEM_SLICE_HI_ADDR_HI) + slice * 32) 32

/-- Whether a slice is valid, its mode T bit, its window set, its number of ranks and this device's rank. -/
def State.sliceValid (s : State) (slice : Nat) : Bool := recBits (s.sliceEntry slice) 0 1 0 0 == 1
def State.sliceModeT (s : State) (slice : Nat) : Bool := recBits (s.sliceEntry slice) 0 1 1 1 == 1
def State.sliceWset (s : State) (slice : Nat) : Nat := recBits (s.sliceEntry slice) 1 1 3 0
def State.sliceRanks (s : State) (slice : Nat) : Nat := recNat (s.sliceEntry slice) 2 2 + 1
def State.sliceOwnRank (s : State) (slice : Nat) : Nat := recNat (s.sliceEntry slice) 4 2

/-- The endpoint ID the rank table gives a rank (R438). -/
def State.rankEndpoint (s : State) (slice rank : Nat) : Nat :=
  s.ldNat (recBits (s.sliceEntry slice) 8 8 39 0 + 4 * rank) 4 % 2 ^ 21

/-- The rank that the slice's rank table gives an endpoint, when it has one. -/
def State.endpointRank (s : State) (slice ep : Nat) : Option Nat :=
  (List.range (s.sliceRanks slice)).find? fun r => s.rankEndpoint slice r == ep

/-- The device's own endpoint ID (R398). -/
def State.ownId (s : State) : Nat := s.getF fRTE_OWN_ID_ID

/-! ### Frames the device originates (R395, R399) -/

/-- The cells of a frame: consecutive, SOF on the first, EOF on the last, one MSEQ. -/
def frameCells (src dst cls typ mseq : Nat) (parts : List (List Byte)) : List Cell :=
  (List.range parts.length).map fun i =>
    { dst := dst, src := src, cls := cls, typ := typ, mseq := mseq, sof := i == 0, eof := i + 1 == parts.length
      payload := (parts.getD i [] ++ List.replicate 64 0).take 64 }

/-- s with the router replaced. -/
def State.setRouter (s : State) (r : RouterSt) : State := { s with router := r }

/-- Originate a frame: its cells wait for the router, and the frame count of its destination and class goes up. -/
def State.sendFrame (s : State) (dst cls typ : Nat) (parts : List (List Byte)) : State :=
  let key := dst * 8 + cls
  let n := (aget s.router.mseqTx key).getD 0
  s.setRouter { s.router with
    egress := s.router.egress ++ frameCells s.ownId dst cls typ (n % 256) parts
    mseqTx := aput s.router.mseqTx key (n + 1) }

/-- A byte string cut into 64-byte payloads; an empty string makes one cell. -/
def cut64 (bs : List Byte) : List (List Byte) :=
  if bs.isEmpty then [[]] else (List.range ((bs.length + 63) / 64)).map fun i => (bs.drop (64 * i)).take 64

/-! ### Stream entries and contexts (R187, R193) -/

/-- The device address of context ix of a step slot (R193). -/
def State.ctxAddr (s : State) (slot ix : Nat) : Nat :=
  0x1000000 * (s.getF fSTREAM_CTX_LO_ADDR_LO) + 0x100000000 * (s.getF fSTREAM_CTX_HI_ADDR_HI) + (4096 * slot + ix) * 64

/-- The 64 bytes of a context. -/
def State.ctx (s : State) (slot ix : Nat) : List Byte := s.ld (s.ctxAddr slot ix) 64

/-- s with bytes from byte b of a context written. -/
def State.putCtx (s : State) (slot ix b : Nat) (bs : List Byte) : State := s.st (s.ctxAddr slot ix + b) bs

/-- The context of R193 from an entry of R187. -/
def ctxOfEntry (id : Nat) (e : List Byte) : List Byte :=
  leBytes 2 id ++ byteField e 0 1 ++ byteField e 1 1 ++ byteField e 4 2 ++ byteField e 68 1 ++ [0] ++
    leBytes 4 (recBits e 8 8 39 14) ++ byteField e 16 4 ++ byteField e 20 4 ++ byteField e 24 8 ++ byteField e 32 8 ++ byteField e 40 4 ++
    byteField e 44 4 ++ byteField e 48 4 ++ byteField e 52 4 ++ byteField e 56 4 ++ byteField e 60 4 ++ byteField e 64 4

/-- The staged fields of an entry written back from a context (R192): STATE, STAGED_LEN and STAGED_TOKEN. -/
def State.writeBackCtx (s : State) (slot ix id : Nat) : State :=
  let c := s.ctx slot ix
  ((s.putEntry id 0 (byteField c 2 1)).putEntry id 20 (byteField c 16 4)).putEntry id 44 (byteField c 40 4)

/-- The staged fields of an entry set back to the committed ones, and STAGED cleared (R94, R188). -/
def State.unstage (s : State) (id : Nat) : State :=
  let e := s.entry id
  let st := entState e
  ((s.putEntry id 0 (leBytes 1 (st * 16 + st))).putEntry id 20 (byteField e 16 4)).putEntry id 44 (byteField e 40 4)

/-- The staged changes of an entry made current, as one (R93, R188). -/
def State.commitEntry (s : State) (id : Nat) : State :=
  let e := s.entry id
  let stg := recBits e 0 1 6 4
  let due := recNat e 72 8
  let missed := recNat e 80 4 + (if due ≠ 0 ∧ s.getF fTIME_STATUS_STATE ≠ 0 ∧ due < s.time.ft then 1 else 0)
  ((((((s.putEntry id 0 (leBytes 1 (stg * 16 + stg))).putEntry id 16 (byteField e 20 4)).putEntry id 40 (byteField e 44 4)).putEntry id 24
    (leBytes 8 (recNat e 24 8 + 1))).putEntry id 4 (leBytes 2 (recNat e 4 2 + 1))).putEntry id 80 (leBytes 4 missed))

/-! ### Step completions and stream records (R313–R315) -/

/-- The streams a step has excluded on this device. -/
def Step.exclList (t : Step) : List Nat := (t.streams.filter (·.excl.isSome)).map (·.id)

/-- Bytes 8–27 of a step completion (R313); NEXCL saturates at 255 (log entry 31). -/
def stepBody (t : Step) (early : Bool) (time cause : Nat) : List Byte :=
  let n := match t.applied with
    | some d => (t.exclList ++ d.excl).eraseDups.length
    | none => t.exclList.length
  let flags := (if t.takeover then 1 else 0) + (if n ≠ 0 then 2 else 0) + (if early then 4 else 0) + (if t.lateStart then 8 else 0)
  leBytes 6 t.seq ++ leBytes 1 (t.attempt % 16 + 16 * flags) ++ leBytes 1 (min n 255) ++ leBytes 8 time ++ leBytes 4 cause

/-- The in-flight entry of a step, by the SQ and TAG that carried it and its fetch number. -/
def State.stepFlight (s : State) (t : Step) : Option InFlight := s.flight t.fetchNo

/-- Post a step's final completion (R114, R319). -/
def State.postStep (s : State) (t : Step) (status cause : Nat) (early : Bool := false) : State := match s.stepFlight t with
  | some f => s.finish f status (stepBody t early s.ftOrZero cause)
  | none => s

/-- A stream record (R314): 32 bytes, PHASE and LOST clear. -/
def streamRec (status id len : Nat) (t : Step) (cause : Nat) : List Byte :=
  leBytes 4 0 ++ leBytes 2 0xFFFF ++ [0xF0] ++ leBytes 1 status ++ leBytes 2 id ++ leBytes 2 0 ++ leBytes 4 len ++ leBytes 6 t.seq ++
    leBytes 1 (t.attempt % 16) ++ [0] ++ leBytes 4 cause ++ [0, 0, 0, 0]

/-- Post a stream record on the CQ its OWNER_RING named when the step entered RUNNING, or on the submitter's error CQ, or count it lost
(R315). -/
def State.postStream (s : State) (t : Step) (r : StreamRun) (rec : List Byte) : State :=
  let n := r.ownerCq
  let okFid := s.cqFid n == r.ownerFid || s.cqFid n == s.getF (fHOST_CQ_STATE_HI_FID n) && (s.cq n).stby == r.ownerFid ||
    s.cqFid n == (s.cq n).stby && s.getF (fHOST_CQ_STATE_HI_FID n) == r.ownerFid
  if s.isSet (fHOST_CQ_STATE_HI_VALID n) && okFid then s.post n rec false false false
  else match s.errCq t.fid with
    | some e => s.post e rec false false false
    | none => s.bumpSat fHOST_COUNTS_REC_LOST

/-- The stream records of the streams this device has excluded from a step (R314; posted with its final status, log entry 32). -/
def State.postExcluded (s : State) (t : Step) : State :=
  t.streams.foldl (fun st r => match r.excl with
    | some c => st.postStream t r (streamRec 0x71 r.id (recNat (st.entry r.id) 16 4) t c)
    | none => st) s

/-! ### Resolution -/

/-- s with a step resolved: its slot empty, its outcome kept, and the copies begun of steps it held. -/
def State.resolveSlot (s : State) (i : Nat) (t : Step) (committed : Bool) : State :=
  let s1 := s.dropStep i
  let out : Resolved := ⟨t.slice, t.seq, t.attempt, committed, t.ran, (match t.applied with
    | some d => d.excl
    | none => [])⟩
  let s2 : State := { s1 with steps := { s1.steps with resolved := s1.steps.resolved ++ [out] } }
  s2.startCopies

/-- Whether this device still holds the cells of a decision for a step: the ids to leave out of the commit. -/
def exclUnion (a b : List Nat) : List Nat := (a ++ b).eraseDups

/-- Apply COMMIT to the step of a slot: every stream not excluded takes its staged state, the others are unstaged; then COMMITTED and the
stream records are posted (R93, R188, R192, R314). -/
def State.commitStep (s : State) (i : Nat) (d : Decision) : State := match s.step? i with
  | none => s
  | some t =>
    let out := exclUnion t.exclList d.excl
    let before := t.streams
    let s1 := before.foldl (fun st r => (if out.contains r.id then st.unstage r.id else st.commitEntry r.id).useStream r.id) s
    let t1 := { t with phase := .committed, applied := some d, takeover := d.takeover }
    let s2 := (s1.postStep t1 0x00 0).bumpWrap fTOP_STEP_COMMITS_COUNT
    let s3 := s2.postExcluded t1
    let s4 := before.foldl (fun st r =>
      if !out.contains r.id && entState (st.entry r.id) == 2 then
        st.postStream t1 r (streamRec 0x70 r.id (recNat (st.entry r.id) 16 4) t1 0) else st) s3
    (s4.traceStepEnd t1 0x00 0).resolveSlot i t1 true

/-- The status of an aborted step (R114): by the cause, and by whether this device detected it. -/
def abortStatus (cause : Nat) (isLocal : Bool) : Nat :=
  if cause = 0x14 then 0x13 else if cause = 0x06 ∧ isLocal then 0x12 else if isLocal then 0x10 else 0x11

/-- Discard a step's staged state and post ABORTED with its cause (R94, R110). -/
def State.abortPost (s : State) (i : Nat) (status : Nat) : State := match s.step? i with
  | none => s
  | some t =>
    let s1 := if t.ran then t.streams.foldl (fun st r => if recBits (st.entry r.id) 0 1 7 7 = 1 then st.unstage r.id else st) s else s
    let t1 := { t with phase := .aborted }
    (((s1.postStep t1 status t.cause).postExcluded t1).traceStepEnd t1 status t.cause).resolveSlot i t1 false

/-! ### Commit cells (R96) -/

/-- The payload of a commit cell. -/
def commitPayload (slice seq sender attempt dec : Nat) (takeover : Bool) (cause : Nat) (excl : List Nat) : List Byte :=
  leBytes 8 (2 ^ 48 * slice + seq) ++ leBytes 2 sender ++ leBytes 1 (attempt % 16) ++
    leBytes 1 (dec * 64 + (if takeover then 32 else 0) + min excl.length 16) ++ leBytes 4 cause ++
    ((excl.take 16).flatMap (leBytes 2 ·) ++ List.replicate 32 0).take 32 ++ List.replicate 16 0

/-- The DEC code of a decision. -/
def decCode (d : Decision) : Nat := if d.commit then 1 else 2

/-- Send one commit cell on class K to a rank of a slice. -/
def State.sendCommit (s : State) (typ slice seq attempt toRank : Nat) (d : Option Decision) (excl : List Nat) : State :=
  let dec := match d with | some x => decCode x | none => 0
  let tk := match d with | some x => x.takeover | none => false
  let cause := match d with | some x => (if x.commit then 0 else x.cause) | none => 0
  s.sendFrame (s.rankEndpoint slice toRank) 0 typ
    [commitPayload slice seq (s.sliceOwnRank slice) attempt dec tk cause excl]

/-- The ranks of a slice in cyclic order from one after `from` (R659). -/
def cyclicRanks (n start : Nat) : List Nat := (List.range (n - 1)).map fun k => (start + 1 + k) % n

/-- Send ABORT with a cause to every other member of a slice (R109, R659). -/
def State.sendAborts (s : State) (slice seq attempt cause : Nat) : State :=
  (cyclicRanks (s.sliceRanks slice) (s.sliceOwnRank slice)).foldl (fun st r =>
    st.sendCommit 0x13 slice seq attempt r (some { commit := false, cause := cause }) []) s

/-- The commit round's record of a step attempt. -/
def State.coord (s : State) (slice seq attempt : Nat) : Coord :=
  (s.steps.coords.find? fun c => c.slice == slice && c.seq == seq && c.attempt == attempt).getD { slice := slice, seq := seq, attempt := attempt }

/-- s with a commit round's record replaced, or added. -/
def State.setCoord (s : State) (c : Coord) : State :=
  let same (x : Coord) := x.slice == c.slice && x.seq == c.seq && x.attempt == c.attempt
  let l := if s.steps.coords.any same then s.steps.coords.map (fun x => if same x then c else x) else s.steps.coords ++ [c]
  { s with steps := { s.steps with coords := l } }

/-- The union of the exclusions of the READYs held, in rank order. -/
def Coord.union (c : Coord) : List Nat := (c.ready.flatMap (·.2)).eraseDups

/-- A proposal or record of COMMIT, turned into ABORT with EXCL_LIMIT when the union of exclusions comes to more than 16 (R112). -/
def limitDecision (d : Decision) : Decision :=
  if d.commit ∧ 16 < d.excl.length then { d with commit := false, cause := 0x14, excl := d.excl.take 16 } else d

/-- Rank 0 makes its one proposal of an attempt and sends it to rank 1 in a DECIDE cell (R98). -/
def State.propose (s : State) (slice seq attempt : Nat) (d0 : Decision) : State :=
  let c := s.coord slice seq attempt
  let done := match s.steps.resolved.find? (fun r => r.slice == slice && r.seq == seq && r.attempt == attempt) with
    | some r => r.committed
    | none => false
  if c.proposal.isSome || c.noDecision || done || s.sliceRanks slice ≤ 1 then s
  else
    let d := limitDecision { d0 with excl := c.union, takeover := false }
    (s.setCoord { c with proposal := some d, decideAt := s.time.nowNs }).sendCommit 0x10 slice seq attempt 1 (some d) d.excl

/-- Rank 0 proposes COMMIT once it holds READY from every rank (R98). -/
def State.proposeIfReady (s : State) (slice seq attempt : Nat) : State :=
  let c := s.coord slice seq attempt
  if c.ready.length = s.sliceRanks slice ∧ s.sliceOwnRank slice = 0 then s.propose slice seq attempt { commit := true } else s

/-- Record a rank's READY at rank 0 or rank 1 (R98, R99). -/
def State.recordReady (s : State) (slice seq attempt rank : Nat) (excl : List Nat) : State :=
  let c := s.coord slice seq attempt
  if c.ready.any (·.1 == rank) then s
  else
    let c1 := { c with ready := c.ready ++ [(rank, excl)] }
    let c2 := if c1.ready.length = s.sliceRanks slice then { c1 with allReadyAt := some s.time.nowNs } else c1
    (s.setCoord c2).proposeIfReady slice seq attempt

/-! ### Aborts (R88, R109, R110) -/

/-- Count an aborted step (R118). -/
def State.countAbort (s : State) : State := s.bumpWrap fTOP_STEP_ABORTS_COUNT

/-- A step of a slot starts to abort: its stations are to stop at their next tile boundary, and its cause is held until ABORTED is posted. -/
def State.beginAbort (s : State) (i cause : Nat) (isLocal : Bool) : State :=
  (s.modStep i fun t => { t with phase := .aborted, cause := cause, abortAt := s.time.nowNs, abortLocal := isLocal, quiescing := true }).countAbort

/-- Detail of a step fault for its record: unit, node and the two arguments of R649. -/
structure FaultInfo where
  unitKind : Nat := 0
  unitIx : Nat := 0
  node : Nat := 0
  stream : Nat := 0xFFFF
  arg0 : Nat := 0
  arg1 : Nat := 0
  injected : Bool := false
  /-- The fault has a record of another type (HANG, ENGINE) in place of STEP_FAULT. -/
  quiet : Bool := false
  deriving DecidableEq, Repr

/-- The STEP_FAULT record of a fault this device detects in a step, unless a record of another type names it (R649, R657, R152). -/
def State.stepFaultRec (s : State) (t : Step) (cause : Nat) (fi : FaultInfo) : State :=
  if fi.quiet then s
  else s.errRec { typ := 0x01, sev := 2, cause := cause, injected := fi.injected, slice := t.slice, seq := t.seq, attempt := t.attempt,
                  unitKind := fi.unitKind, unitIx := fi.unitIx, stream := fi.stream, node := fi.node, arg0 := fi.arg0, arg1 := fi.arg1,
                  owner := some t.fid }

/-- A fault not confined to one stream in a RUNNING step (R109): the step aborts here, ABORT goes to every other member, rank 0 also proposes
ABORT. A step that is not RUNNING is left as it is. -/
def State.stepFault (s : State) (i cause : Nat) (fi : FaultInfo := {}) : State := match s.step? i with
  | some t =>
    if t.phase = .running then
      let s1 := (s.stepFaultRec t cause fi).beginAbort i cause true
      let s2 := if 1 < t.ranks then s1.sendAborts t.slice t.seq t.attempt cause else s1
      if t.rank = 0 then s2.propose t.slice t.seq t.attempt { commit := false, cause := cause } else s2
    else s
  | none => s

/-- The fault information of a station instance. -/
def instInfo (core inst node : Nat) : FaultInfo := { unitKind := 6, unitIx := core * 256 + inst, node := node }

/-- An abort that comes from outside, or a decision to abort, for a QUEUED or RUNNING step: a QUEUED step has run nothing and posts ABORTED at
once; a RUNNING step quiesces (R88). -/
def State.abortRemote (s : State) (i cause : Nat) : State := match s.step? i with
  | some t =>
    match t.phase with
    | .queued =>
      let s1 := (s.setStep i { t with cause := cause }).countAbort
      s1.abortPost i (abortStatus cause false)
    | .running => s.beginAbort i cause false
    | _ => s
  | none => s

/-- Apply a decision to the step of a slot (R88, R104): COMMIT and ABORT end a PREPARED or IN_DOUBT step, ABORT ends a QUEUED or RUNNING one;
COMMIT has no row for a QUEUED or RUNNING step and leaves it (log entry 34). -/
def State.applyDecision (s : State) (i : Nat) (d : Decision) : State := match s.step? i with
  | none => s
  | some t =>
    if t.byReset then s
    else match t.phase, d.commit with
      | .prepared, true => s.commitStep i d
      | .inDoubt, true => s.commitStep i d
      | .prepared, false =>
        ((s.setStep i { t with cause := d.cause, applied := some d, takeover := d.takeover }).countAbort).abortPost i (abortStatus d.cause false)
      | .inDoubt, false =>
        ((s.setStep i { t with cause := d.cause, applied := some d, takeover := d.takeover }).countAbort).abortPost i (abortStatus d.cause false)
      | .queued, false => (s.setStep i { t with takeover := d.takeover }).abortRemote i d.cause
      | .running, false => (s.setStep i { t with applied := some d, takeover := d.takeover }).abortRemote i d.cause
      | _, _ => s

/-- A PREPARED step goes IN_DOUBT: IN_DOUBT is posted, its staged state and one reserved record are kept (R88, R102, R318). -/
def State.enterInDoubt (s : State) (i : Nat) : State := match s.step? i with
  | none => s
  | some t =>
    let s1 := (s.setStep i { t with phase := .inDoubt }).bumpSat fTOP_STEP_EVENTS_IN_DOUBT
    match s1.stepFlight t with
    | some f =>
      let s2 := (s1.setFlight { f with stage := .inDoubt, resv := 1 }).unreserve f.sq 1
      s2.post (s2.getF (fHOST_SQ_STATE_HI_CQ f.sq)) (complImage f.tag f.sq f.opcode 0x20 (stepBody t false s2.ftOrZero 0)) false true false
    | none => s1

/-- Exclude a stream from a RUNNING step on this device, with its cause (R111); the first cause stands. -/
def State.excludeStream (s : State) (i ix cause : Nat) : State := s.modStep i fun t =>
  { t with streams := t.streams.set ix (match t.streams[ix]? with
      | some r => if r.excl.isSome then r else { r with excl := some cause }
      | none => ⟨0, none, 0, 0⟩) }

end Sys2Proof.Machine
end

