-- ==== Sys2Proof/Machine/ResetOps.lean ====
section
/-! DEFINITION. Reset domains, the windows of recovery, and the start, entry and end of resets (R661–R671, R333). -/

namespace Sys2Proof.Machine

open Sys2Proof

/-- s with the fault state replaced. -/
def State.setFaults (s : State) (f : FaultSt) : State := { s with faults := f }

/-! ### Domains -/

/-- The cores of a domain: one core, or the 16 of a span; every core of the device. -/
def Domain.has (d : Domain) (core : Nat) : Bool := match d with
  | .inst c _ => c == core
  | .core c => c == core
  | .span n => core / 16 == n
  | .device => true

/-- Two domains overlap when one contains the other or they share a core; every domain overlaps the device. -/
def Domain.overlaps (a b : Domain) : Bool := match a, b with
  | .device, _ => true
  | _, .device => true
  | .span m, .span n => m == n
  | .span m, .core c => c / 16 == m
  | .span m, .inst c _ => c / 16 == m
  | .core c, .span m => c / 16 == m
  | .inst c _, .span m => c / 16 == m
  | .core c, .core d => c == d
  | .core c, .inst d _ => c == d
  | .inst c _, .core d => c == d
  | .inst c _, .inst d _ => c == d

/-- The spans a domain touches. -/
def Domain.spans (d : Domain) : List Nat := match d with
  | .inst c _ => [c / 16]
  | .core c => [c / 16]
  | .span n => [n]
  | .device => List.range 8

/-- The smallest domains of a level that cover a list of domains (R668): cores or instances at L2, spans at L3, the device at L4. -/
def domainsAt (lvl : Nat) (ds : List Domain) : List Domain :=
  if lvl ≤ 2 then ds.eraseDups
  else if lvl = 3 then (ds.flatMap Domain.spans).eraseDups.map .span
  else [.device]

/-- Set or clear the FAULTED marks of a domain (R666). -/
def State.markFaulted (s : State) (d : Domain) (v : Bool) : State := match d with
  | .inst c _ => s.setF (fSPN_FAULTED_CORES (c / 16)) (putBits (s.getF (fSPN_FAULTED_CORES (c / 16))) (c % 16) (c % 16) v.toNat)
  | .core c => s.setF (fSPN_FAULTED_CORES (c / 16)) (putBits (s.getF (fSPN_FAULTED_CORES (c / 16))) (c % 16) (c % 16) v.toNat)
  | .span n => s.setF (fSPN_FAULTED_SPAN n) v.toNat
  | .device => if v then s else (List.range 8).foldl (fun st n => (st.setF (fSPN_FAULTED_SPAN n) 0).setF (fSPN_FAULTED_CORES n) 0) s

/-- Clear the FAULTED marks a completed reset of a domain clears: a span's with those of its cores. -/
def State.clearFaulted (s : State) (d : Domain) : State := match d with
  | .span n => (s.setF (fSPN_FAULTED_SPAN n) 0).setF (fSPN_FAULTED_CORES n) 0
  | d => s.markFaulted d false

/-- Windows still open now. -/
def State.openWindows (s : State) : List Window := s.faults.windows.filter fun w => match w.endAt with
  | some e => decide (s.time.nowNs < e)
  | none => true

/-- Whether a domain is in recovery (R668). -/
def State.inRecovery (s : State) (d : Domain) : Bool := s.openWindows.any fun w => w.doms.any (·.overlaps d)

/-! ### Clearing state (R662) -/

/-- Step slots in use with a running instance on a core that p picks (and, for an instance domain, that instance). -/
def Domain.hasInst (d : Domain) (r : InstRun) : Bool := match d with
  | .inst c i => r.core == c && r.inst == i
  | d => d.has r.core

/-- Abort with RESET_REQ every running step that uses a domain (R661). -/
def State.abortUsers (s : State) (d : Domain) : State :=
  s.steps.slots.foldl (fun st e => if e.2.phase == .running && e.2.insts.any d.hasInst then
    st.stepFault e.1 0x17 { unitKind := 3, unitIx := (d.spans.headD 0) } else st) s

/-- The instances of a domain stopped and cleared in every step. -/
def State.clearInsts (s : State) (d : Domain) : State :=
  { s with steps := { s.steps with slots := s.steps.slots.map fun e =>
      (e.1, { e.2 with insts := e.2.insts.map fun r => if d.hasInst r then { r with stopped := true, outbox := [], work := [], wbytes := [], hung := false } else r }) } }

/-- The register offsets a reset of a logical core touches: the CORE block of its physical core (R662). -/
def coreBlock (p o : Nat) : Bool := decide (0x400000 + 0x1000 * p ≤ o) && decide (o < 0x400000 + 0x1000 * (p + 1))

/-- The register offsets a reset of span n touches: its CORE blocks, its half of DECK, its HBM block, its MEM.ENGINE and the trace blocks of its
logical cores. -/
def spanBlock (n o : Nat) : Bool :=
  (decide (0x400000 + 0x1000 * (18 * n) ≤ o) && decide (o < 0x400000 + 0x1000 * (18 * n + 18))) ||
  (decide (0x600000 + 0x1000 * n ≤ o) && decide (o < 0x600000 + 0x1000 * (n + 1))) ||
  (decide (0x500000 + 0x1000 * (n / 2) ≤ o) && decide (o < 0x500000 + 0x1000 * (n / 2 + 1)) && o / 4 % 2 == n % 2) ||
  o == 0xC00220 + 4 * n ||
  (decide (0xF21000 + 0x20 * (16 * n) ≤ o) && decide (o < 0xF21000 + 0x20 * (16 * n + 16)))

/-- s with the registers of a reset returned to their reset values as their Survives columns say. -/
def State.resetRegs (s : State) (lvl : Nat) (dom : Nat → Bool) : State := { s with regs := regsReset s.regs lvl dom }

/-- Clear what an L2 of a core or an instance clears (R661, R662). -/
def State.clearL2 (s : State) (d : Domain) : State := match d with
  | .inst _ _ => s.clearInsts d
  | .core c =>
    let s1 := s.clearInsts d
    match s.physOf c with
    | some p => (s1.forgetSpad p).resetRegs 2 (coreBlock p)
    | none => s1
  | _ => s

/-- Hand a stack to the footing's controller, or to the span's (R44, R45, R241). -/
def State.ownStack (s : State) (n : Nat) (footing : Bool) : State :=
  let s1 := s.setF (fHBM_STATUS_OWNER n) footing.toNat
  let k := s1.stack n
  if footing then s1.setStack n { k with handover := 0 }
  else s1.setStack n { k with handover := 0, key := (List.range 5).map fun b => s1.getF (fHBM_KEY_MASK n b) }

/-- Clear a bit of TOP.READY.SPAN, or set it. -/
def State.setReadySpan (s : State) (n : Nat) (v : Bool) : State :=
  s.setF fTOP_READY_SPAN (putBits (s.getF fTOP_READY_SPAN) n n v.toNat)

/-- A span enters its L3 or L4 reset once its Deck writeback is complete (R255): the cache is empty, scratchpads and Deck scratch are
undefined, its registers return to their reset values, an L4 with them the split (R281), and the footing takes the stack. The stack's contents become undefined too when the reset
is for an HBM fault (R663). -/
def State.enterSpan (s : State) (n lvl : Nat) (hbmFault : Bool) : State :=
  let s1 := s.clearInsts (.span n)
  let s2 := s1.setSpan n { s1.span n with cache := [], split := if lvl = 4 then 4 else (s1.span n).split, splitWant := if lvl = 4 then 4 else (s1.span n).splitWant }
  let s3 := (List.range 18).foldl (fun st q => st.forgetSpad (18 * n + q)) s2
  let s4 := s3.forgetDeck n 0 (max (s1.scratchBytes n) (s3.scratchBytes n))
  let s4a := { s4 with
    trs := s4.trs.filter (fun e => e.1 / 16 != n)
    cbk := s4.cbk.filter (fun e => e.1 / 16 != n)
    traceLost := s4.traceLost.filter (fun e => e.1 / 16 != n)
    cores := s4.cores.map fun (e : Nat × CoreSt) => if e.1 / 16 = n then (e.1, { e.2 with power := 0, waking := none }) else e }
  let s5 := if hbmFault then s4a.forgetStack n else s4a
  let s6 := if lvl = 3 then s5.resetRegs 3 (spanBlock n) else s5
  (s6.setReadySpan n false).ownStack n true

/-! ### Starting a reset -/

/-- Count a reset performed. -/
def State.countReset (s : State) : State := s.bumpSat fTOP_FLT_COUNTS_RESETS

/-- The RESET record of R665 and R669. -/
def State.resetRec (s : State) (level requested sev durUs : Nat) (ds : List Domain) : State :=
  let unit := match ds with
    | [.span n] => (3, n)
    | [.core c] => (6, c * 256 + 0xFF)
    | [.inst c i] => (6, c * 256 + i)
    | _ => (1, 0)
  s.errRec { typ := 0x0F, sev := sev, level := level, unitKind := unit.1, unitIx := unit.2, arg0 := requested, arg1 := level, arg2 := durUs }

/-- TOP.RESET as the resets in progress and the holds make it (R665). -/
def State.showReset (s : State) : State :=
  let lv := s.faults.resets.foldl (fun a r => max a r.level) 0
  let held := !s.faults.heldSpans.isEmpty || s.faults.heldDevice || s.faults.l5Hold || s.faults.railHold
  let st := if lv = 2 then 1 else if lv = 3 then 2 else if 4 ≤ lv then 3 else if held then 4 else 0
  let inReset := (List.range 8).filter fun n =>
    s.faults.heldSpans.contains n || s.faults.heldDevice || s.faults.l5Hold || s.faults.railHold ||
      s.faults.resets.any fun r => decide (3 ≤ r.level) && r.doms.any fun d => (d.spans).contains n
  (s.setF fTOP_RESET_STATE st).setF fTOP_RESET_SPANS (inReset.foldl (fun a n => a + 2 ^ n) 0)

/-- Whether the compute dies are in L4 reset, held ones included (R665). -/
def State.inL4 (s : State) : Bool :=
  s.faults.heldDevice || s.faults.l5Hold || s.faults.railHold || s.faults.resets.any fun r => decide (4 ≤ r.level)

/-- Whether span n is in an L3 or L4 reset or held. -/
def State.spanInReset (s : State) (n : Nat) : Bool := s.inL4 || s.faults.heldSpans.contains n ||
  s.faults.resets.any fun r => decide (3 ≤ r.level) && r.doms.any fun d => d.spans.contains n

/-- What an L4 does to steps and commands when it begins (R333): every PREPARED step goes to IN_DOUBT and keeps its in-flight entry, every
other step not yet resolved ends ABORTED_LOCAL with CHIP_RESET; every other command in progress completes with DEVICE_RESET. `keep` are the in-flight
numbers of the requests this reset answers; a token being carried out is kept too (R711). -/
def State.l4Steps (s : State) (keep : List Nat) : State :=
  let s1 := s.steps.slots.foldl (fun st e =>
    match e.2.phase with
    | .prepared => (st.enterInDoubt e.1).modStep e.1 fun t => { t with byReset := true, insts := [], queues := [] }
    | .inDoubt => st.setStep e.1 { e.2 with byReset := true, insts := [], queues := [] }
    | _ =>
      let t := { e.2 with phase := .aborted, cause := 0x16, insts := [], queues := [] }
      ((((if e.2.phase == .aborted then st else st.countAbort).setStep e.1 t).postStep t 0x10 0x16).postExcluded t).resolveSlot e.1 t false) s
  s1.host.flights.foldl (fun st f =>
    if keep.contains f.no || s.sec.erasing == some f.no || st.steps.slots.any (fun e => e.2.fetchNo == f.no) then st else st.finish f 0x87 []) s1

/-- The lasers that injections of WAVELENGTH_DROP keep dark are lit again (R684). -/
def State.relight (s : State) (js : List Injection) : State :=
  (js.filter (·.kind == 1)).foldl (fun st j =>
    let v := (aget st.ports j.a).getD {}
    { st with ports := aput st.ports j.a { v with dropped := v.dropped.filter (· != j.b) }, out := st.out ++ (if v.lit then [.light j.a j.b true] else []) }) s

/-- Cancel every injection plan, as an L4 does (R687). -/
def State.cancelPlans (s0 : State) : State :=
  let s := s0.relight s0.faults.injections
  let s1 := s.faults.plans.foldl (fun st p =>
    (st.errRec { typ := 0x12, sev := 1, arg0 := 3, arg1 := p.plan, arg2 := p.next }).bumpSat fINJ_CANCELS_COUNT) s
  (s1.setFaults { s1.faults with plans := [], injections := [] }).setF fINJ_STATUS_ACTIVE 0

/-- State that an L4 clears beside the registers (R662, R333, R200, R73, R271): the combining buffers stay until they are written back. A debug challenge is void (R710). -/
def State.l4Clear (s : State) : State :=
  let s1 := { s with
    streams := {}
    rmt := { comb := s.rmt.comb }
    col := {}
    steps := { s.steps with early := [], coords := [], graphs := s.steps.graphs.map fun (e : Nat × GraphSlot) => (e.1, { e.2 with reg := false }) }
    mm := { s.mm with hbm := s.mm.hbm.map fun (e : Nat × StackSt) => (e.1, { e.2 with retireQ := [] }) } }
  let s2a := s1.bumpWrap fTOP_GRAPH_EPOCH_EPOCH
  let s2 := if s2a.getF fDBG_STATE_STATE = 1 then { s2a.setF fDBG_STATE_STATE 0 with sec := { s2a.sec with nonce := none } } else s2a
  let s3 := (List.range 8).foldl (fun st n => st.setF (fHBM_STATUS_RETIRING n) 0) s2
  (s3.resetRegs 4 (fun _ => true)).cancelPlans

/-- Start a reset at a level over domains (R661): at L2 its users abort and it is cleared at once; at L3 and L4 the users abort or end, the RESET
record is posted unless `told` says that one has been, and the Deck writeback of its spans is awaited (R255). -/
def State.startReset (s : State) (lvl : Nat) (ds : List Domain) (requested : Nat) (hold hbm : Bool) (reqNos : List Nat) (esc : Bool) (told : Bool := false) : State :=
  let run : ResetRun := { level := lvl, doms := ds, hold := hold, hbmFault := hbm, requested := requested, reqNos := reqNos, escalated := esc,
                          startAt := s.time.nowNs, awaitWb := if lvl ≤ 2 then [] else (ds.flatMap Domain.spans).eraseDups, entered := lvl ≤ 2 }
  let s1 := if lvl ≤ 3 then ds.foldl State.abortUsers s else (s.l4Steps reqNos).l4Clear
  let s2 := if lvl ≤ 2 then ds.foldl State.clearL2 s1 else if told then s1 else s1.resetRec lvl requested 1 0 ds
  (s2.setFaults { s2.faults with resets := s2.faults.resets ++ [run] }).showReset

/-- Open or renew the window of a reset that no fault preceded. -/
def State.openWindow (s : State) (lvl n : Nat) (ds : List Domain) : State :=
  s.setFaults { s.faults with windows := s.openWindows ++ [⟨lvl, ds, n, none⟩] }

/-- Hold the compute dies in L4 and report level 5 (R669). -/
def State.holdL5 (s : State) (requested : Nat) (reqNos : List Nat) : State :=
  let s0 := s.resetRec 5 requested 3 0 [.device]
  let s1 := s0.startReset 4 [.device] requested false false reqNos true true
  (s1.setFaults { s1.faults with l5Hold := true }).showReset

/-- The level that R668 gives a fault that calls for `lvl` in domain d, by the domains in recovery that overlap it: one higher at three faults, 5 at most. -/
def State.recoveryLevel (s : State) (lvl : Nat) (d : Domain) : Nat :=
  let o := s.openWindows.filter fun w => w.doms.any (·.overlaps d)
  let n := 1 + sumNat (o.map (·.faults))
  let h := o.foldl (fun a w => max a w.level) lvl
  min 5 (if 3 ≤ n then h + 1 else h)

/-- LEVEL of a record (R647): the reset that the device starts for a fault left to the driver, and for one that it answers with a reset itself. -/
def State.callLevel (s : State) (lvl : Nat) (d : Domain) : Nat := if s.inRecovery d then s.recoveryLevel lvl d else 0
def State.startLevel (s : State) (lvl : Nat) (d : Domain) : Nat := if s.inRecovery d then s.recoveryLevel lvl d else lvl

/-- A fault, or a reset request, that calls for level `lvl` in domain d while domains in recovery overlap it (R668): the faults are counted
together, resets in progress there are abandoned, and the combined reset starts at once, one level higher at three faults. -/
def State.escalate (s : State) (lvl : Nat) (d : Domain) (hold hbm : Bool) (reqNos : List Nat) : State :=
  let o := s.openWindows.filter fun w => w.doms.any (·.overlaps d)
  let rest := s.openWindows.filter fun w => !w.doms.any (·.overlaps d)
  let n := 1 + sumNat (o.map (·.faults))
  let l := s.recoveryLevel lvl d
  let us := domainsAt l (d :: o.flatMap (·.doms))
  let gone := s.faults.resets.filter fun r => r.doms.any fun x => us.any (·.overlaps x)
  let kept := s.faults.resets.filter fun r => !r.doms.any fun x => us.any (·.overlaps x)
  let s1 := s.setFaults { s.faults with resets := kept, windows := rest ++ [⟨l, us, n, none⟩] }
  let reqs := (gone.flatMap (·.reqNos)) ++ reqNos
  let s2 := s1.bumpSat fTOP_FLT_COUNTS_ESCALATIONS
  if l ≤ 4 then s2.startReset l us lvl (hold || gone.any (·.hold)) (hbm || gone.any (·.hbmFault)) reqs true else s2.holdL5 lvl reqs

/-- Whether an active injection targets something in a domain (R687). -/
def Injection.inDomain (j : Injection) (d : Domain) : Bool :=
  (j.kind == 5 && d.has j.a) || ((j.kind == 3 || j.kind == 4) && d.spans.contains j.a) || d == .device

/-- End the injections that target a domain in which a real fault arose, and cancel the rest of their plans (R687). -/
def State.cancelOnFault (s : State) (hit : Injection → Bool) : State :=
  let ps := ((s.faults.injections.filter hit).map (·.plan)).eraseDups
  ps.foldl (fun st0 p =>
    let st := st0.relight (st0.faults.injections.filter (·.plan == p))
    let st1 := st.setFaults { st.faults with injections := st.faults.injections.filter (·.plan != p), plans := st.faults.plans.filter (·.plan != p) }
    ((st1.setF fINJ_STATUS_ACTIVE (putBits (st1.getF fINJ_STATUS_ACTIVE) p p 0)).bumpSat fINJ_CANCELS_COUNT).errRec
      { typ := 0x12, sev := 1, arg0 := 3, arg1 := p, arg2 := ((st0.faults.plans.find? (·.plan == p)).map (·.next)).getD 0 }) s

/-- A fault that calls for a reset level in a domain (R667, R668): in a domain clear of recovery it is marked and its window opens; otherwise it
escalates. An injected fault cancels no injection (R687). -/
def State.faultCall (s : State) (lvl : Nat) (d : Domain) (injected : Bool := false) : State :=
  let s0 := if injected then s else s.cancelOnFault (·.inDomain d)
  if s0.inRecovery d then (s0.markFaulted d true).escalate lvl d false false []
  else (s0.markFaulted d true).openWindow lvl 1 [d]

/-- A reset the device starts by itself for a fault that calls for it (R578, R582, R583, R658). -/
def State.faultReset (s : State) (lvl : Nat) (d : Domain) (hbm : Bool) : State :=
  let s0 := s.cancelOnFault (·.inDomain d)
  if s0.inRecovery d then (s0.markFaulted d true).escalate lvl d false hbm []
  else ((s0.markFaulted d true).openWindow lvl 1 [d]).startReset lvl [d] lvl false hbm [] false

/-- An ENGINE record, of the step in a slot, and its count (R649, R690). -/
def State.engineRec (s : State) (slot unitKind unitIx structure' off syndrome cause level : Nat) : State :=
  let t := (s.step? slot).getD {}
  (s.errRec { typ := 0x05, sev := 2, cause := cause, level := level, slice := t.slice, seq := t.seq, attempt := t.attempt, unitKind := unitKind, unitIx := unitIx,
              arg0 := structure', arg1 := off, arg2 := syndrome, owner := (s.step? slot).map (·.fid) }).bumpSat fTOP_FLT_COUNTS_ENGINE

end Sys2Proof.Machine
end

