-- ==== Sys2Proof/Machine/Tiles.lean ====
section
/-! DEFINITION. The payload of a tile (R53, R55, R124, R137, R161–R166): where each element and scale lies, what it stands for, and how a tile of values
is written. -/

namespace Sys2Proof.Machine

open Sys2Proof

/-- The shape of a payload: rows, columns, format, layout, the dot depth of a packed layout, and whether it is sparse. -/
structure Shape where
  rows : Nat
  cols : Nat
  fmt : Nat
  layout : Nat
  d : Nat := 8
  sparse : Bool := false
  deriving DecidableEq, Repr

/-- The number of element positions (R161). -/
def Shape.count (h : Shape) : Nat :=
  if h.layout = 2 then (if h.sparse then ceilDiv h.rows (2 * h.d) else ceilDiv h.rows h.d) * 128 * h.d else h.rows * h.cols

/-- The element index of (row, column) in a dense tile (R161, R124). -/
def Shape.index (h : Shape) (r c : Nat) : Nat := match h.layout with
  | 0 => r * h.cols + c
  | 1 => c * h.rows + r
  | _ => ((r / h.d) * 128 + c) * h.d + r % h.d

/-- The scale byte index of (row, column) (R163); a sparse tile counts logical positions. -/
def Shape.scaleIndex (h : Shape) (r c : Nat) : Nat := match h.layout with
  | 0 => r * ceilDiv h.cols 32 + c / 32
  | 1 => c * ceilDiv h.rows 32 + r / 32
  | _ => (r / 32) * 128 + c

/-- The number of scale bytes (R163). -/
def Shape.scales (h : Shape) : Nat :=
  if isMx h.fmt then
    match h.layout with
    | 0 => h.rows * ceilDiv h.cols 32
    | 1 => h.cols * ceilDiv h.rows 32
    | _ => 128 * ceilDiv h.rows 32
  else 0

/-- Bytes of the element array (R162). -/
def Shape.elemBytes (h : Shape) : Nat := ceilDiv (h.count * elemBits h.fmt) 8

/-- Bytes of a codebook tile of K rows (R165). -/
def cbBytes (fmt k : Nat) : Nat := if isCb3 fmt then 49 * k + 512 else 65 * k + 1024

/-- Bytes of the payload: elements, scales, metadata (R53, R137, R165). -/
def Shape.bytes (h : Shape) : Nat :=
  if isCb h.fmt then cbBytes h.fmt h.rows
  else h.elemBytes + h.scales + (if h.sparse then ceilDiv (h.rows) (2 * h.d) * 128 * 2 * h.d / 8 else 0)

/-- Bits pos to pos + w − 1 of a payload (R162). -/
def payloadBits (a : Array Byte) (pos w : Nat) : Nat :=
  let b (i : Nat) : Nat := (a.getD (pos / 8 + i) 0).toNat
  ((b 0 + 256 * b 1 + 65536 * b 2 + 16777216 * b 3 + 4294967296 * b 4) >>> (pos % 8)) % 2 ^ w

/-- The value of the element with index n under scale index k (R158, R163, R164). -/
def Shape.valueAt (h : Shape) (a : Array Byte) (n k : Nat) : Val := match elemOf h.fmt with
  | none => .zero
  | some e =>
    let w := elemBits h.fmt
    let v := decodeElem e (payloadBits a (n * w) w)
    if isMx h.fmt then scaled v (a.getD (h.elemBytes + k) 0).toNat else v

/-- The FP8 code of the weight at (k, j) of a codebook tile of K rows (R165, R166). -/
def cbCode (fmt rows : Nat) (a : Array Byte) (k j : Nat) : Nat :=
  let w := elemBits fmt
  let n := ((k / 8) * 128 + j) * 8 + k % 8
  let idx := payloadBits a (n * w) w
  let selAt := if isCb3 fmt then rows * 48 else rows * 64
  let tabAt := if isCb3 fmt then rows * 49 else rows * 65
  let sel := (a.getD (selAt + (k / 128) * 128 + j) 0).toNat % 64
  (a.getD (tabAt + sel * (if isCb3 fmt then 8 else 16) + idx) 0).toNat

/-- The value of an FP8 code of a codebook entry. -/
def fp8Value (e5m2 : Bool) (c : Nat) : Val := if e5m2 then decodeFloat fE5M2 c else decodeFloat fE4M3 c

/-- Whether a codebook format's entries are E5M2. -/
def cbE5m2 (fmt : Nat) : Bool := fmt == 0x21 || fmt == 0x23

/-- The shape of a tile, for a packed layout at dot depth d. -/
def Tile.shape (t : Tile) (d : Nat) : Shape := ⟨t.rows, t.cols, t.format, t.layout, d, t.sparse⟩

/-- Whether a payload is too short for the tile's shape, at dot depth d where the layout is packed; depth 2 is the least that it can need. -/
def Tile.short (t : Tile) (d : Nat := 2) : Bool := decide (t.payload.length < (t.shape d).bytes)

/-- The value at (row, column) of a dense tile read at dot depth d. -/
def Tile.value (t : Tile) (a : Array Byte) (d r c : Nat) : Val :=
  if isCb t.format then fp8Value (cbE5m2 t.format) (cbCode t.format t.rows a r c)
  else
    let h := t.shape d
    h.valueAt a (h.index r c) (h.scaleIndex r c)

/-- The values of a dense tile, row by row. -/
def Tile.values (t : Tile) (d : Nat := 8) : List (List Val) :=
  let a := t.payload.toArray
  (List.range t.rows).map fun r => (List.range t.cols).map fun c => t.value a d r c

/-- The signed integers of an INT8, INT4 or INT32 tile, row by row. -/
def Tile.ints (t : Tile) : List (List Int) :=
  let a := t.payload.toArray
  let w := elemBits t.format
  let h := t.shape 8
  (List.range t.rows).map fun r => (List.range t.cols).map fun c => signedOf w (payloadBits a (h.index r c * w) w)

/-- Rows and columns exchanged. -/
def transposeList {α : Type} (cols : Nat) (d : α) (m : List (List α)) : List (List α) :=
  let a := m.map List.toArray
  (List.range cols).map fun c => a.map fun row => row.getD c d

/-- A list cut into runs of n. `fuel` bounds the runs. -/
def chunksGo {α : Type} (n : Nat) : Nat → List α → List (List α)
  | 0, _ => []
  | f + 1, l => if l.isEmpty then [] else l.take n :: chunksGo n f (l.drop n)

/-- A list cut into runs of n, the last one shorter. -/
def chunks {α : Type} (n : Nat) (l : List α) : List (List α) := chunksGo n (l.length + 1) l

/-- Codes of width w packed into bytes, eight codes to w bytes, with no byte past the last bit used (R162). -/
def packCodes (w : Nat) (cs : List Nat) : List Byte :=
  let full := (chunks 8 cs).flatMap fun g => leBytes w ((g.foldr (fun c (a : Nat) => a * 2 ^ w + c % 2 ^ w) 0))
  full.take (ceilDiv (cs.length * w) 8)

/-- A line of values converted: for an MX format by blocks of 32 with their scale codes, else one by one (R171–R173). -/
def convLine (fmt : Nat) (nonsat : Bool) (vs : List Val) : List Nat × List Conv :=
  if isMx fmt then
    let bs := (chunks 32 vs).map (convBlock fmt)
    (bs.map (·.1), bs.flatMap (·.2))
  else ([], vs.map (convElem fmt nonsat))

/-- What writing a tile of values gives: its payload, its status word and the ORIGIN of the NaN recorded. -/
structure Written where
  payload : List Byte
  status : Nat
  origin : Nat
  deriving DecidableEq, Repr

/-- The status of values and what they were written as, row by row (R177, R178). -/
def statOf (vals : List (List Val)) (conv : List (List Conv)) : StatAcc :=
  ((List.range vals.length).zip (vals.zip conv)).foldl (fun acc row =>
    ((List.range row.2.1.length).zip (row.2.1.zip row.2.2)).foldl (fun a e => statStep a row.1 e.1 e.2.1 e.2.2) acc) {}

/-- Tile values written in a format and layout at dot depth d; `pad` fills the positions of a packed layout beyond the rows and columns. -/
def writeVals (fmt layout d : Nat) (nonsat : Bool) (pad : Nat) (rows cols : Nat) (vals : List (List Val)) : Written :=
  let none' : Conv := { code := 0, elem := .zero }
  let byCol := layout != 0
  let lines := if byCol then transposeList cols Val.zero vals else vals
  let cl := lines.map (convLine fmt nonsat)
  let conv := if byCol then transposeList rows none' (cl.map (·.2)) else cl.map (·.2)
  let st := statOf vals conv
  let ca := (conv.map List.toArray).toArray
  let w := elemBits fmt
  let codeAt (r c : Nat) : Nat := ((ca.getD r #[]).getD c none').code
  let codes : List Nat := match layout with
    | 0 => conv.flatMap fun r => r.map (·.code)
    | 1 => cl.flatMap fun l => l.2.map (·.code)
    | _ => (List.range (ceilDiv rows d * 128 * d)).map fun n =>
        let r := n / (128 * d) * d + n % d
        let c := n / d % 128
        if r < rows ∧ c < cols then codeAt r c else pad % 2 ^ w
  let sc : List Nat := match layout with
    | 0 => cl.flatMap (·.1)
    | 1 => cl.flatMap (·.1)
    | _ => if isMx fmt then
        let sa := (cl.map fun l => l.1.toArray).toArray
        (List.range (128 * ceilDiv rows 32)).map fun n => if n % 128 < cols then (sa.getD (n % 128) #[]).getD (n / 128) 0 else pad % 256
      else []
  { payload := packCodes w codes ++ sc.map (BitVec.ofNat 8 ·)
    status := statWord st
    origin := match st.firstNan with
      | some (_, _, o) => o
      | none => 0 }

/-- The header of a tile as its 16 bytes (R55). -/
def headerBytes (t : Tile) : List Byte :=
  leBytes 16 (2 ^ 96 * t.status + 2 ^ 80 * (t.tag % 65536) + 2 ^ 64 * (t.coordC % 65536) + 2 ^ 48 * (t.coordR % 65536) + 2 ^ 36 * t.rows + 2 ^ 24 * t.cols +
    2 ^ 18 * t.format + 2 ^ 16 * t.layout + (if t.last then 2 ^ 15 else 0) + (if t.sparse then 2 ^ 14 else 0) + (if t.poison then 2 ^ 13 else 0))

/-- A tile from a header's 16 bytes and a payload (R55). -/
def tileOf (h payload : List Byte) : Tile :=
  let f (hi lo : Nat) := recBits h 0 16 hi lo
  { status := f 127 96, tag := f 95 80, coordC := f 79 64, coordR := f 63 48, rows := f 47 36, cols := f 35 24, format := f 23 18, layout := f 17 16,
    last := f 15 15 == 1, sparse := f 14 14 == 1, poison := f 13 13 == 1, payload := payload }

/-- Whether a tile keeps within R53. -/
def Tile.fits (t : Tile) : Bool :=
  decide (1 ≤ t.rows) && decide (t.rows ≤ 2048) && decide (1 ≤ t.cols) && decide (t.cols ≤ 2048) && decide (t.payload.length ≤ 65536)

/-- A float32 tile in row-major layout from values. -/
def f32Tile (coordR coordC rows cols : Nat) (poison : Bool) (vals : List (List Val)) : Tile × Nat :=
  let w := writeVals 1 0 8 false 0 rows cols vals
  ({ status := w.status, coordC := coordC, coordR := coordR, rows := rows, cols := cols, format := 1, layout := 0, poison := poison, payload := w.payload },
   w.origin)

end Sys2Proof.Machine
end

