-- ==== Sys2Proof/Machine/Operands.lean ====
section
/-! DEFINITION. What every station shares: the op in hand and its fields (R70), taking tiles from queues and staging tiles for emission (R55–R64), and
the order in which repeats, streams and ops follow one another (R68, R70). -/

namespace Sys2Proof.Machine

open Sys2Proof

/-! ### Ops -/

/-- Bits hi to lo of word w of an op (R70). -/
def opF (op : List Byte) (w hi lo : Nat) : Nat := recBits op (8 * w) 8 hi lo

/-- Fields of the common layout (R70). -/
def opCode (op : List Byte) : Nat := opF op 0 63 56
def opInA (op : List Byte) : Nat := opF op 0 55 44
def opInB (op : List Byte) : Nat := opF op 0 43 32
def opOut (op : List Byte) : Nat := opF op 0 31 20
def opRepeat (op : List Byte) : Nat := opF op 0 19 4
def opHoldA (op : List Byte) : Bool := opF op 0 3 3 == 1
def opPerStream (op : List Byte) : Bool := opF op 0 2 2 == 1
def opNode (op : List Byte) : Nat := opF op 1 63 48

/-- "No queue" in a queue field. -/
def noQ : Nat := 0xFFF

/-- The op at byte offset pc of a step's image (R77). -/
def State.opAt (s : State) (t : Step) (pc : Nat) : List Byte := s.ld ((s.graphOf t).addr + pc) 32

/-- The run of an instance in a step. -/
def Step.inst? (t : Step) (core inst : Nat) : Option InstRun := t.insts.find? fun r => r.core == core && r.inst == inst

/-- s with an instance's run in the step of a slot changed. -/
def State.modInst (s : State) (slot core inst : Nat) (f : InstRun → InstRun) : State :=
  s.modStep slot fun t => { t with insts := mapFirst (fun r => r.core == core && r.inst == inst) f t.insts }

/-- A queue of a step. -/
def Step.queue? (t : Step) (q : Nat) : Option Queue := aget t.queues q

/-- s with a queue of the step of a slot changed. -/
def State.modQueue (s : State) (slot q : Nat) (f : Queue → Queue) : State :=
  s.modStep slot fun t => match t.queue? q with
    | some x => { t with queues := aput t.queues q (f x) }
    | none => t

/-- Trestle-clock cycles of a logical core's span. -/
def State.cycOf (s : State) (core : Nat) : Nat := (s.span (core / 16)).cyc

/-- Progress of an instance (R655). -/
def State.progress (s : State) (slot core inst : Nat) : State := s.modInst slot core inst fun r => { r with progressAt := s.time.nowNs }

/-- Record a trace event of an instance of a step. -/
def State.traceInst (s : State) (t : Step) (core inst node ev a0 a1 : Nat) : State :=
  s.trace core { event := ev, inst := inst, node := node, slice := t.slice, seq := t.seq, attempt := t.attempt, arg0 := a0, arg1 := a1 }

/-- What a station's op runs on: the step of a slot, the instance and its op. -/
structure OpCtx where
  slot : Nat
  core : Nat
  inst : Nat
  step : Step
  run : InstRun
  op : List Byte
  deriving DecidableEq, Repr

/-- The index of the op in hand within its instance's program. -/
def OpCtx.opIx (x : OpCtx) : Nat := (x.run.pc - x.run.start) / 32

/-- Repeat and stream counts of an op. -/
def OpCtx.streams (x : OpCtx) : Nat := if opPerStream x.op then x.step.streams.length else 1

/-- Whether the repeat in hand is the last of the op for its stream, and the last of the whole op. -/
def OpCtx.lastRep (x : OpCtx) : Bool := decide (opRepeat x.op ≤ x.run.rep + 1)
def OpCtx.lastAll (x : OpCtx) : Bool := x.lastRep && decide (x.streams ≤ x.run.streamIx + 1)

/-- The repeat counted over the whole op: streams outermost (R70). -/
def OpCtx.repNo (x : OpCtx) : Nat := x.run.streamIx * opRepeat x.op + x.run.rep

/-- The running instance that may act: its step RUNNING, the instance not ended, stopped or hung, and its staged tiles emitted. -/
def State.active (s : State) (slot core inst : Nat) : Option OpCtx := match s.step? slot with
  | none => none
  | some t => match t.inst? core inst with
    | none => none
    | some r =>
      if t.phase = .running && !r.ended && !r.stopped && !r.hung then
        some { slot := slot, core := core, inst := inst, step := t, run := r, op := s.opAt t r.pc }
      else none

/-- Whether the instance has run off its core's program, which it treats as END (R77). -/
def OpCtx.atEnd (x : OpCtx) : Bool := opCode x.op == 0 || decide (x.run.progEnd ≤ x.run.pc)

/-! ### Faults and stalls of an instance -/

/-- A step-wide fault that an op of an instance raises, with the two arguments of R649. -/
def State.opFault (s : State) (x : OpCtx) (cause : Nat) (a0 : Nat := 0) (a1 : Nat := 0) : State :=
  s.stepFault x.slot cause { unitKind := 6, unitIx := x.core * 256 + x.inst, node := opNode x.op, arg0 := a0, arg1 := a1 }

/-- The causes of R650. -/
def cOperand : Nat := 0x0A
def cAddr : Nat := 0x0B
def cSpanDown : Nat := 0x0D

/-- The instance waits: a STALL_BEGIN is recorded when the stall begins (R60, R718); time in which issue was withheld counts for no timer (R656). -/
def State.stallOn (s : State) (x : OpCtx) (cause arg : Nat) : State :=
  if x.run.stall = cause ∧ x.run.stallArg = arg then s
  else
    let held := if x.run.stall = 4 then 1000 * (s.cycOf x.core - x.run.stallCyc) / max 1 (s.getF (fSPN_CLK_CURRENT_MHZ (x.core / 16))) else 0
    (s.modInst x.slot x.core x.inst fun r =>
      { r with stall := cause, stallArg := arg, stallCyc := s.cycOf x.core, progressAt := r.progressAt + held }).traceInst x.step x.core x.inst
      (opNode x.op) 0x06 cause arg

/-- The instance moves on: a STALL_END is recorded when it was stalled. -/
def State.unstall (s : State) (x : OpCtx) : State :=
  if x.run.stall = 0 then s
  else
    (s.modInst x.slot x.core x.inst fun r => { r with stall := 0, stallArg := 0 }).traceInst x.step x.core x.inst (opNode x.op) 0x07 x.run.stall
      (s.cycOf x.core - x.run.stallCyc)

/-! ### Queues: reading -/

/-- The places of the tiles the consumer has not yet ended reading, oldest first. -/
def Queue.unread (q : Queue) : List Nat := (List.range q.items.length).filter fun i => match q.items[i]? with
  | some it => !it.read
  | none => false

/-- The n-th tile not yet ended, when it has reached the head. -/
def Queue.tileAt (q : Queue) (n : Nat) : Option Tile := match q.unread[n]? with
  | none => none
  | some i => match q.items[i]? with
    | some it => if it.arrived then some it.tile else none
    | none => none

/-- The tile the op next reads of queue q. -/
def OpCtx.head (x : OpCtx) (q : Nat) (n : Nat := 0) : Option Tile := match x.step.queue? q with
  | some u => u.tileAt n
  | none => none

/-- The queue with its n-th unended tile's last read ended. -/
def Queue.endRead (q : Queue) (n : Nat := 0) : Queue := match q.unread[n]? with
  | none => q
  | some i => { q with items := (List.range q.items.length).filterMap fun j => match q.items[j]? with
      | some it => some (if j = i then { it with read := true } else it)
      | none => none }

/-- s with the last read of the n-th unended tile of a queue ended, and a TILE_IN recorded for it. -/
def State.endRead (s : State) (x : OpCtx) (q : Nat) (n : Nat := 0) : State := match x.head q n with
  | none => s
  | some t => (s.modQueue x.slot q fun u => u.endRead n).traceInst x.step x.core x.inst (opNode x.op) 0x04 q t.tag

/-- End the read of the IN_A tile unless HOLD_A keeps it for another repeat (R70). -/
def State.endInA (s : State) (x : OpCtx) : State :=
  if opHoldA x.op && !x.lastRep then s else s.endRead x (opInA x.op)

/-! ### Emission -/

/-- Whether a later op of the instance's program, from pc on, emits into queue q (R726). `fuel` bounds the ops. -/
def State.laterEmits (s : State) (t : Step) (q progEnd : Nat) : Nat → Nat → Bool
  | 0, _ => false
  | f + 1, pc =>
    if progEnd ≤ pc then false
    else
      let op := s.opAt t pc
      if opCode op = 0 then false
      else if opOut op = q then true
      else s.laterEmits t q progEnd f (pc + 32)

/-- Whether the tile in hand is the instance's last into the op's output queue (R726), when this repeat emits no further tile into it. -/
def State.isLastTile (s : State) (x : OpCtx) : Bool :=
  x.lastAll && !s.laterEmits x.step (opOut x.op) x.run.progEnd ((x.run.progEnd - x.run.pc) / 32) (x.run.pc + 32)

/-- The stream runs of a tile whose op is PER_STREAM: every row belongs to the stream in hand. -/
def OpCtx.owners (x : OpCtx) (rows : Nat) : List (Nat × Nat) := if opPerStream x.op then [(x.run.streamIx, rows)] else []

/-- Stage a tile for emission into the op's output queue, with LAST under R726; `more` says that this repeat emits another tile after it. -/
def State.stage (s : State) (x : OpCtx) (t : Tile) (owners : List (Nat × Nat)) (origin : Nat := 0) (more : Bool := false) : State :=
  if opOut x.op = noQ then s
  else s.modInst x.slot x.core x.inst fun r =>
    { r with outbox := r.outbox ++ [{ q := opOut x.op, tile := { t with last := !more && s.isLastTile x }, owners := owners, origin := origin,
                                      node := opNode x.op, rep := x.run.rep }] }

/-- The run of an instance after the repeat in hand: the next repeat, stream or op (R68, R70). -/
def OpCtx.after (x : OpCtx) (v : InstRun) : InstRun :=
  if !x.lastRep then { v with rep := x.run.rep + 1 }
  else if !x.lastAll then { v with rep := 0, streamIx := x.run.streamIx + 1 }
  else { v with rep := 0, streamIx := 0, pc := x.run.pc + 32, started := false, work := [], wbytes := [] }

/-- The instance goes on from the repeat in hand. -/
def State.nextRepeat (s : State) (x : OpCtx) : State :=
  ((s.unstall x).modInst x.slot x.core x.inst x.after).progress x.slot x.core x.inst

/-- The repeat in hand is complete: the next repeat, stream or op follows, and OP_END is recorded after the op's last. -/
def State.endRepeat (s : State) (x : OpCtx) : State :=
  let s1 := s.nextRepeat x
  if x.lastAll then s1.traceInst x.step x.core x.inst (opNode x.op) 0x03 x.opIx (x.repNo + 1) else s1

/-- An op starts: its chapter's checks of the op are made, and OP_START is recorded. `ok` is their outcome; a failure aborts the step with
OPERAND_MISMATCH. -/
def State.startOp (s : State) (x : OpCtx) (ok : Bool) : State :=
  if x.run.started then s
  else
    let s1 := s.traceInst x.step x.core x.inst (opNode x.op) 0x02 x.opIx (opRepeat x.op)
    if ok then s1.modInst x.slot x.core x.inst fun r => { r with started := true }
    else s1.opFault x cOperand

/-- Credits the producer may spend in cycle cyc (R59). -/
def Queue.avail (q : Queue) (cyc : Nat) : Nat := if q.freshCyc < cyc then q.credits + q.fresh else q.credits

/-- A credit reaches the producer in cycle cyc (R59). -/
def Queue.gain (q : Queue) (cyc : Nat) : Queue :=
  if q.freshCyc < cyc then { q with credits := q.credits + q.fresh, fresh := 1, freshCyc := cyc } else { q with fresh := q.fresh + 1 }

/-- A credit is spent in cycle cyc. -/
def Queue.spend (q : Queue) (cyc : Nat) : Queue :=
  if q.freshCyc < cyc then { q with credits := q.credits + q.fresh - 1, fresh := 0, freshCyc := cyc } else { q with credits := q.credits - 1 }

/-- The stream index a row belongs to. -/
def ownerOf (row : Nat) : List (Nat × Nat) → Option Nat
  | [] => none
  | (ix, n) :: rest => if row < n then some ix else ownerOf (row - n) rest

/-- The 48 body bytes of a trap record (R182). -/
def trapBody (t : Step) (action stream core inst time : Nat) (o : OutTile) : List Byte :=
  leBytes 8 (2 ^ 48 * t.slice + t.seq) ++ leBytes 1 (t.attempt % 16) ++ leBytes 1 action ++ leBytes 2 stream ++ leBytes 2 o.node ++ leBytes 1 core ++
    leBytes 1 inst ++ leBytes 2 o.tile.coordR ++ leBytes 2 o.tile.coordC ++ leBytes 2 (stFirstRow o.tile.status) ++ leBytes 2 (stFirstCol o.tile.status) ++
    leBytes 4 o.tile.status ++ leBytes 4 o.rep ++ leBytes 8 time ++ leBytes 1 o.origin

/-- Write a trap record (R182). -/
def State.trapRec (s : State) (t : Step) (action stream core inst : Nat) (o : OutTile) : State :=
  let s1 := s.writeRaw 0x02 0 2 0x15 false false (trapBody t action stream core inst s.ftOrZero o) (some t.fid)
  match s1.physOf core with
  | some p => s1.bumpSat (fCORE_NUM_FLAGS_TRAPS p)
  | none => s1

/-- The first-NaN trap of a tile just emitted (R180, R181, R183). -/
def State.trapNan (s : State) (slot core inst : Nat) (o : OutTile) : State := match s.step? slot with
  | none => s
  | some t =>
    if !t.trapNan || !stNan o.tile.status then s
    else
      let row := stFirstRow o.tile.status
      match (if stFirstRow o.tile.status < 2048 then ownerOf row o.owners else none) with
      | some ix =>
        match t.streams[ix]? with
        | none => s
        | some r =>
          if r.excl.isSome then s
          else
            let act := if t.phase = .running then 0 else 2
            (s.trapRec t act r.id core inst o).excludeStream slot ix 0x15
      | none =>
        if t.phase = .running then
          (s.trapRec t 1 0xFFFF core inst o).stepFault slot 0x15 { unitKind := 6, unitIx := core * 256 + inst, node := o.node }
        else if t.phase = .aborted ∧ t.cause ≠ 0x15 then s.trapRec t 2 0xFFFF core inst o
        else s

/-- What an emitted tile adds to the core's counts (R185, R186). -/
def State.countTile (s : State) (core inst : Nat) (o : OutTile) : State := match s.physOf core with
  | none => s
  | some p =>
    let w := o.tile.status
    let s1 := if stNan w then
        ((s.bumpSat (fCORE_NUM_FLAGS_NAN_TILES p)).setF (fCORE_NUM_LAST_STATION p) inst).setF (fCORE_NUM_LAST_NODE_ID p) o.node
      else s
    let s2 := if stInf w then s1.bumpSat (fCORE_NUM_FLAGS_INF_TILES p) else s1
    if stSat w || stOvf w then s2.bumpSat (fCORE_NUM_FLAGS_SAT_TILES p) else s2

/-- Put a tile into its queue: a slot of the consumer's scratchpad takes the header and the payload, a credit is spent, and TAG is the count of tiles
before it (R55, R59). -/
def State.enqueue (s : State) (slot q : Nat) (u : Queue) (tile : Tile) (spend : Bool) : State :=
  let tl := { tile with tag := u.emitted % 65536 }
  let at' := u.emitted % u.depth
  let a := 0xF800000000 + 0x400000 * u.consCore + u.slotOffset + at' * u.slotUnits * 64
  let cyc := s.cycOf u.prodCore
  (s.st a (headerBytes tl ++ tl.payload)).modQueue slot q fun v =>
    { (if spend then v.spend cyc else v) with emitted := v.emitted + 1, items := v.items ++ [{ tile := tl, slot := at' }] }

/-- Emit a tile (R55, R56, R59): a tile that breaks R53 or its slot is not emitted and aborts the step with TILE_OVERSIZE; else it enters the queue,
is counted, and raises the first-NaN trap. `spend` says that its credit has not been taken already. -/
def State.emitTile (s : State) (slot core inst : Nat) (o : OutTile) (spend : Bool) : State := match s.step? slot with
  | none => s
  | some t => match t.queue? o.q with
    | none => s
    | some u =>
      if !o.tile.fits || decide (u.slotUnits * 64 < 16 + o.tile.payload.length) then
        s.stepFault slot 0x07 { unitKind := 6, unitIx := core * 256 + inst, node := o.node, arg1 := 16 + o.tile.payload.length }
      else
        let s1 := s.enqueue slot o.q u o.tile spend
        let s2 := (s1.countTile core inst o).progress slot core inst
        let s3 := s2.traceInst t core inst o.node 0x05 o.q (u.emitted % 65536)
        s3.trapNan slot core inst o

/-- Emit the oldest tile an instance has staged, when its queue holds a credit (R59). A step that aborted in this same instant still takes the tile of
its boundary (R110, R183). -/
def State.emitOne (s : State) (slot core inst : Nat) : State := match s.step? slot with
  | none => s
  | some t => match t.inst? core inst with
    | none => s
    | some r => match r.outbox with
      | [] => s
      | o :: rest =>
        let may := t.phase = .running || (t.phase = .aborted && t.quiescing && t.abortAt == s.time.nowNs)
        match t.queue? o.q with
        | none => s
        | some u =>
          if may && !r.stopped && !r.hung && decide (0 < u.avail (s.cycOf u.prodCore)) then
            (s.modInst slot core inst fun v => { v with outbox := rest }).emitTile slot core inst o true
          else if may && !r.stopped && !r.hung then
            s.stallOn { slot := slot, core := core, inst := inst, step := t, run := r, op := s.opAt t r.pc } 2 o.q
          else s

/-! ### The common frame of a station's op -/

/-- After a trip the device issues no further HBM request (R628): LOAD, STORE and ATTEND stations stop. -/
def State.tripHolds (s : State) (inst : Nat) : Bool := s.power.tripped && (inst / 16 == 1 || inst / 16 == 2 || inst / 16 == 6)

/-- The op of a station of type code `typ` is of the opcodes it knows, and it is `code`: then `body` runs one repeat, once the op has started and its
staged tiles have gone. An op the station does not know aborts the step as a field that breaks its layout does. -/
def State.runOp (s : State) (slot core inst : Nat) (known : List Nat) (code : Nat) (ok : OpCtx → Bool) (body : State → OpCtx → State) : State :=
  match s.active slot core inst with
  | none => s
  | some x =>
    if x.atEnd || !x.run.outbox.isEmpty || s.tripHolds inst then s
    else if !known.contains (opCode x.op) then s.startOp x false
    else if opCode x.op ≠ code then s
    else
      let s1 := s.startOp x (ok x)
      match s1.active slot core inst with
      | some y => body s1 y
      | none => s1

/-- Physical core's registers of a logical core changed. -/
def State.onCore (s : State) (c : Nat) (f : Nat → State → State) : State := match s.physOf c with
  | some p => f p s
  | none => s

end Sys2Proof.Machine
end

