-- ==== Sys2Proof/Machine/Trestle.lean ====
section
/-! DEFINITION. The Trestle and its codebook feed (R119–R155, R165–R167, R258–R260, R588–R590). One TRESTLE_GROUP_FEED is one cycle of the core's Trestle. -/

namespace Sys2Proof.Machine

open Sys2Proof

/-- The TRESTLE and CODEBOOK instances of a core (R67). -/
def instTrestle : Nat := 0x40
def instCodebook : Nat := 0x30

/-- A core's Trestle and CODEBOOK station. -/
def State.trsOf (s : State) (c : Nat) : TrsSt := (aget s.trs c).getD {}
def State.cbkOf (s : State) (c : Nat) : CbkSt := (aget s.cbk c).getD {}
def State.setTrs (s : State) (c : Nat) (t : TrsSt) : State := { s with trs := aput s.trs c t }
def State.setCbk (s : State) (c : Nat) (t : CbkSt) : State := { s with cbk := aput s.cbk c t }

/-! ### Engine faults (R152, R260, R256, R667) -/

/-- An engine fault: its ENGINE record and count, the abort of the step with its cause, and the reset level it calls for. -/
def State.engineFault (s : State) (slot core structure' off syndrome cause : Nat) : State :=
  let s1 := s.engineRec slot 5 ((s.physOf core).getD 0) structure' off syndrome cause (s.callLevel 2 (.core core))
  (s1.stepFault slot cause { quiet := true }).faultCall 2 (.core core)

/-! ### Operand pairs (R123) -/

def isF4 (f : Nat) : Bool := f == 0x08 || f == 0x14
def isF8 (f : Nat) : Bool := [0x04, 0x05, 0x06, 0x07, 0x10, 0x11, 0x12, 0x13].contains f
def isI8 (f : Nat) : Bool := f == 0x09 || f == 0x15
def isI4 (f : Nat) : Bool := f == 0x0A

/-- The dot depth of an operand pair; none where R123 does not accept it. -/
def pairDepth (a b : Nat) : Option Nat :=
  if isF4 a then (if isF4 b || isCb b then some 8 else if isF8 b then some 4 else none)
  else if isI4 a then (if isI4 b then some 8 else if isI8 b then some 4 else none)
  else if isF8 a then (if isF4 b || isF8 b || isCb b then some 4 else none)
  else if isI8 a then (if isI8 b || isI4 b then some 4 else none)
  else if a = 0x02 then (if b == 0x02 || isF4 b || isF8 b || isCb b then some 2 else none)
  else if a = 0x03 then (if b == 0x03 || isF4 b || isF8 b || isCb b then some 2 else none)
  else none

/-- The formats that may be A, and that may be B from a queue (R123). -/
def aFormat (f : Nat) : Bool := isF4 f || isI4 f || isF8 f || isI8 f || f == 2 || f == 3
def bFormat (f : Nat) : Bool := isF4 f || isI4 f || isF8 f || isI8 f || f == 2 || f == 3

/-- The output formats of R145. -/
def outFormat (f : Nat) : Bool := [1, 2, 3, 4, 5, 0x10, 0x11, 0x12, 0x13, 0x14, 9].contains f

/-! ### The PASS op (R148) -/

def passInE (op : List Byte) : Nat := opF op 1 47 36
def passHoldE (op : List Byte) : Bool := opF op 1 35 35 == 1
def passHoldB (op : List Byte) : Bool := opF op 1 34 34 == 1
def passCb (op : List Byte) : Bool := opF op 1 33 33 == 1
def passNonsat (op : List Byte) : Bool := opF op 1 32 32 == 1
def passFmt (op : List Byte) : Nat := opF op 1 31 26
def passSegs (op : List Byte) : Nat := opF op 1 25 20 + 1

/-- Whether a PASS op keeps the layout of R148. -/
def passOk (x : OpCtx) : Bool :=
  let op := x.op
  opInA op != noQ && opOut op != noQ && (if passCb op then opInB op == noQ && !passHoldB op else opInB op != noQ) && outFormat (passFmt op) &&
    opF op 0 1 0 == 0 && opF op 1 19 0 == 0 && opF op 2 63 0 == 0 && opF op 3 63 0 == 0

/-- A PASS op starts and is checked (R125, R148). -/
def execPass (slot : StepIx) (core : LCore) (s : State) : Host.Outcome State Fault Refusal :=
  .next (s.runOp slot core instTrestle [1] 1 passOk fun s1 _ => s1)

/-! ### Operands in hand -/

/-- The B operand of a segment: a tile of the queue, or a codebook tile whose runs come through the feed. -/
structure SegB where
  rows : Nat
  cols : Nat
  coordC : Nat
  sparse : Bool
  poison : Bool
  depth : Option Nat
  deriving DecidableEq, Repr

/-- The A tile the pass reads next, at its place among the unended tiles. -/
def OpCtx.aTile (x : OpCtx) (ix : Nat) : Option Tile := x.head (opInA x.op) ix

/-- The dot depth at which a B tile of a queue goes with an A format: none where R123 or R124 does not accept it, or its payload is too short. -/
def bDepth (aFmt : Nat) (b : Tile) : Option Nat :=
  if isCb b.format || b.layout != 2 then none else (pairDepth aFmt b.format).filter fun d => !b.short d

/-- The B operand of the segment in hand against the A format, when it is there. -/
def State.segB (s : State) (x : OpCtx) (aFmt ix : Nat) : Option SegB :=
  if passCb x.op then
    match (s.cbkOf x.core).runs with
    | [] => none
    | r :: _ => some ⟨r.rows, r.cols, r.coordC, false, r.poison, pairDepth aFmt (if r.e5m2 then 0x21 else 0x20)⟩
  else match x.head (opInB x.op) ix with
    | none => none
    | some b => some ⟨b.rows, b.cols, b.coordC, b.sparse, b.poison, bDepth aFmt b⟩

/-- Whether the operands of a segment go together, and with the pass in hand (R122, R125). -/
def segFits (a : Tile) (b : SegB) (segs : Nat) (p : Option TrsPass) : Bool :=
  b.depth.isSome && a.layout == 0 && decide (a.rows ≤ 64) && decide (b.cols ≤ 128) && decide (0 < b.rows) && a.cols % b.rows == 0 &&
    (let per := a.cols / b.rows
     decide (0 < per) && segs % per == 0) &&
    match p with
    | none => true
    | some q => q.rows == a.rows && q.cols == b.cols && decide (q.aServed + b.rows ≤ a.cols)

/-- Groups of a segment (R120, R136). -/
def segGroups (k d : Nat) (sparse : Bool) : Nat := if sparse then ceilDiv k (2 * d) else ceilDiv k d

/-! ### What withholds a group (R128, R259, R588–R590) -/

/-- The reduction of issue duty applied to a span, in 1/256 (R590). -/
def State.duty (s : State) (span : Nat) : Nat :=
  if s.power.tripped then 256
  else
    let r := max (s.getF (fTHM_SPAN1_RED_SPAN span)) (s.getF (fTHM_SPAN1_RED_STACK span))
    -- a reduction of 1 is 256/256, which the 8-bit fields write as 255
    max (if r = 255 then 256 else r) s.power.capRed

/-- Whether heat or the power cap withholds the group of this cycle: the duty accumulator passes a whole cycle. -/
def dutyHit (acc red : Nat) : Bool := decide (256 ≤ acc + red)

/-- Whether the di/dt limiter withholds the group of this cycle (R588). -/
def State.didtHit (s : State) (span : Nat) (t : TrsSt) : Bool :=
  decide ((s.span span).cyc < (aget s.power.droop span).getD 0) || decide (t.didtPrev + 1 ≤ t.didtFed)

/-- Whether the slot arrays of A and B share a half of the scratchpad (R259). -/
def OpCtx.shareHalf (x : OpCtx) : Bool := match x.step.queue? (opInA x.op), x.step.queue? (opInB x.op) with
  | some a, some b => decide (a.slotOffset < 0x180000) == decide (b.slotOffset < 0x180000)
  | _, _ => false

/-- TRS_STATUS of the physical core as the Trestle stands (R154). -/
def State.showTrs (s : State) (core : Nat) (operand bank thermal didt : Bool) (fedNow : Bool) : State :=
  s.onCore core fun p st =>
    let t := st.trsOf core
    let held := operand || bank || thermal || didt
    let state := match t.pass with
      | some _ => if held then 2 else 1
      | none => if held then 2 else if fedNow then 1 else if t.banks.isEmpty then 0 else 3
    let s1 := (((((st.setF (fCORE_TRS_STATUS_STATE p) state).setF (fCORE_TRS_STATUS_WAIT_OPERAND p) operand.toNat).setF (fCORE_TRS_STATUS_WAIT_BANK p)
      bank.toNat).setF (fCORE_TRS_STATUS_WAIT_THERMAL p) thermal.toNat).setF (fCORE_TRS_STATUS_WAIT_DIDT p) didt.toNat)
    match t.pass with
    | some q => (s1.setF (fCORE_TRS_STATUS_BANK p) q.bank).setF (fCORE_TRS_STATUS_GROUPS_FED p) q.fed
    | none => s1

/-! ### Issue of a pass (R132, R134) -/

/-- The bank of the next pass: the first of a step uses bank 0, each later one the other bank (R132). -/
def TrsSt.nextBank (t : TrsSt) : Nat := t.passes % 2

/-- Whether group 0 of the next pass may enter beam 0 in the next cycle (R134). -/
def TrsSt.mayIssue (t : TrsSt) : Bool :=
  t.passes == 0 ||
    (decide (t.lastPrev + 1 ≤ t.cyc + 1) && decide (t.g0Prev + 128 ≤ t.cyc + 1) &&
      !(t.banks.any fun b => b.bank == t.nextBank && b.drainAt.isNone) &&
      match aget t.bankD t.nextBank with
      | some d => decide (d + 116 ≤ t.cyc + 1)
      | none => true)

/-- Zero sums of a C tile. -/
def zeroAcc (rows cols : Nat) : List (List Val) := List.replicate rows (List.replicate cols .zero)

/-- A pass issues: its bounds hold and group 0 of both operands is there (R134). -/
def execTrestlePassIssue (slot : StepIx) (core : LCore) (s : State) : Host.Outcome State Fault Refusal :=
  .next (s.runOp slot core instTrestle [1] 1 passOk fun s1 x =>
    let t := s1.trsOf core
    if t.pass.isSome then s1
    else if !t.mayIssue then s1.showTrs core false true false false false
    else match x.aTile 0 with
      | none => (s1.showTrs core true false false false false).stallOn x 1 (opInA x.op)
      | some a => match s1.segB x a.format 0 with
        | none => (s1.showTrs core true false false false false).stallOn x 1 (opInB x.op)
        | some b =>
          if !segFits a b (passSegs x.op) none then s1.opFault x cOperand
          else
            let p : TrsPass := { bank := t.nextBank, rep := x.run.rep, d := b.depth.getD 8, sparse := b.sparse, rows := a.rows, cols := b.cols,
                                 coordR := a.coordR, coordC := b.coordC, acc := zeroAcc a.rows b.cols }
            ((s1.setTrs core { t with slot := slot, pass := some p, passes := t.passes + 1 }).unstall x).showTrs core false false false false false)

/-! ### One cycle of the top edge (R121, R127, R128, R168–R170) -/

/-- The pairs of a dense group: positions g·d to g·d + d − 1 of the segment. Positions at or past its end are zero products and are left out. -/
def densePairs (aRow : Array Val) (bAt : Nat → Nat → Val) (aOff k d g j : Nat) : List (Val × Val) :=
  (List.range d).filterMap fun t =>
    let p := g * d + t
    if p < k then some (aRow.getD (aOff + p) .zero, bAt p j) else none

/-- The pairs of a sparse group (R136–R138). -/
def sparsePairs (aRow : Array Val) (b : Tile) (arr : Array Byte) (aOff k d g j : Nat) : List (Val × Val) :=
  let h := b.shape d
  let metaBit := (h.elemBytes + h.scales) * 8 + (g * 128 + j) * 2 * d
  (List.range d).filterMap fun t =>
    let sel := payloadBits arr (metaBit + 4 * (t / 2) + 2 * (t % 2)) 2
    let p := g * 2 * d + 4 * (t / 2) + sel
    if p < k then some (aRow.getD (aOff + p) .zero, h.valueAt arr ((g * 128 + j) * d + t) (h.scaleIndex p j)) else none

/-- The sums after one group. -/
def feedAcc (acc : List (List Val)) (pairs : Nat → Nat → List (Val × Val)) : List (List Val) :=
  ((List.range acc.length).zip acc).map fun r => ((List.range r.2.length).zip r.2).map fun e => laneGroup e.2 (pairs r.1 e.1)

/-- The values of the A tile, by row. -/
def aRows (a : Tile) : Array (Array Val) := ((a.values 8).map List.toArray).toArray

/-- The pairs a group feeds to lane j of beam i. -/
def State.groupPairs (s : State) (x : OpCtx) (p : TrsPass) (a : Tile) (k : Nat) : Nat → Nat → List (Val × Val) :=
  let rows := aRows a
  let off := p.aServed
  if passCb x.op then
    match (s.cbkOf x.core).runs with
    | [] => fun _ _ => []
    | r :: _ =>
      let cs := r.codes.toArray
      let t0 := (s.cbkOf x.core).taken * p.d
      fun i j => densePairs (rows.getD i #[]) (fun q jj => fp8Value r.e5m2 (cs.getD ((q - p.group * p.d + t0) * 128 + jj) 0).toNat) off k p.d p.group j
  else match x.head (opInB x.op) p.bIx with
    | none => fun _ _ => []
    | some b =>
      let arr := b.payload.toArray
      if b.sparse then fun i j => sparsePairs (rows.getD i #[]) b arr off k p.d p.group j
      else fun i j => densePairs (rows.getD i #[]) (fun q jj => b.value arr p.d q jj) off k p.d p.group j

/-- The codebook feed after the Trestle has taken one group: a run's slot is released with its last group (R140). -/
def CbkSt.take (c : CbkSt) (d : Nat) : CbkSt :=
  if 8 / d ≤ c.taken + 1 then { c with runs := c.runs.drop 1, taken := 0 } else { c with taken := c.taken + 1 }

/-- The last group of a pass has entered: its bank waits for its drain, and the op goes on to its next repeat. -/
def State.passFed (s : State) (x : OpCtx) (t : TrsSt) (p : TrsPass) : State :=
  let b : TrsBank := { bank := p.bank, rep := p.rep, rows := p.rows, cols := p.cols, coordR := p.coordR, coordC := p.coordC, poison := p.poison,
                       acc := p.acc, lastCyc := t.cyc, op := x.op, stream := x.run.streamIx, lastRep := x.lastAll, last := s.isLastTile x }
  (s.setTrs x.core { t with pass := none, banks := t.banks ++ [b], lastPrev := t.cyc }).endRepeat x

/-- The group in hand enters beam 0, and the tiles it ends are released. -/
def State.feedGroup (s : State) (x : OpCtx) (t : TrsSt) (p : TrsPass) (a : Tile) (b : SegB) : State :=
  let q := if p.group = 0 then { p with d := b.depth.getD 8, sparse := b.sparse } else p
  let p0 := { q with acc := feedAcc q.acc (s.groupPairs x q a b.rows)
                     poison := q.poison || a.poison || b.poison, fed := q.fed + 1, group := q.group + 1 }
  let t0 := { t with g0Prev := if p.fed = 0 then t.cyc else t.g0Prev, winFed := t.winFed + 1, didtFed := t.didtFed + 1 }
  let s0 := (s.unstall x).progress x.slot x.core x.inst
  let s1 := if passCb x.op then s0.setCbk x.core ((s0.cbkOf x.core).take q.d) else s0
  if p0.group < segGroups b.rows q.d q.sparse then s1.setTrs x.core { t0 with pass := some p0 }
  else
    -- the segment ends: its B tile, and its A tile once its K is used up
    let keepB := passHoldB x.op && !x.lastAll
    let keepA := opHoldA x.op && !x.lastAll
    let s2 := if passCb x.op || keepB then s1 else s1.endRead x (opInB x.op) p.bIx
    let aDone := decide (a.cols ≤ p.aServed + b.rows)
    let s3 := if aDone && !keepA then s2.endRead x (opInA x.op) p.aIx else s2
    let p1 := { p0 with group := 0, seg := p.seg + 1, bIx := if keepB then p.bIx + 1 else p.bIx,
                        aIx := if aDone && keepA then p.aIx + 1 else p.aIx, aServed := if aDone then 0 else p.aServed + b.rows }
    if passSegs x.op ≤ p1.seg then s3.passFed x t0 p1 else s3.setTrs x.core { t0 with pass := some p1 }

/-- One Trestle cycle passes: the activity window moves on (R155). -/
def TrsSt.tick (t : TrsSt) : TrsSt := { t with cyc := t.cyc + 1, winCyc := t.winCyc + 1 }

/-- The end of an activity window (R153, R155). -/
def State.activity (s : State) (core : Nat) : State := s.onCore core fun p st =>
  let t := st.trsOf core
  let w := 128 * 2 ^ min (st.getF (fCORE_TRS_CFG_ACT_WIN p)) 7
  if t.winCyc < w then st
  else (st.setTrs core { t with winCyc := 0, winFed := 0 }).setF (fCORE_TRS_ACTIVE_FRACTION p) (min (65536 * t.winFed / w) 0xFFFF)

/-- The scratchpad word read in a cycle: nothing found, a corrected error, or an error that fails to correct (R260). -/
def State.spadEcc (s : State) (slot core ecc off : Nat) : State := match ecc with
  | 0 => s
  | 1 => s.onCore core fun p st => st.bumpSat (fCORE_SPAD_CE p)
  | _ => (s.onCore core fun p st => st.bumpSat (fCORE_SPAD_UE p)).engineFault slot core 3 off 0 0x05

/-- A core's Trestle one cycle later: the activity window has moved on, and the span's reduction of issue duty has been added to the duty accumulator (R590). -/
def State.trsCycle (s : State) (core : Nat) : TrsSt :=
  { (s.trsOf core).tick with duty := ((s.trsOf core).tick.duty + s.duty (core / 16)) % 256 }

/-- One cycle of the top edge: a group enters beam 0, or is withheld. `lost` says that the A read lost a bank to the B read in this cycle
(R259); `ecc` is what SECDED finds in the words read, at offset `off` (R260). -/
def execTrestleGroupFeed (slot : StepIx) (core : LCore) (lost : Bool) (ecc : Fin 3) (off : Nat) (s : State) : Host.Outcome State Fault Refusal :=
  .next (match s.active slot core instTrestle with
    | none => s
    | some x =>
      let span := core.val / 16
      let t := (s.trsOf core).tick
      let red := s.duty span
      let hot := dutyHit t.duty red
      let didt := s.didtHit span t
      let t1 := s.trsCycle core
      let s1 := s.setTrs core t1
      (match t1.pass with
        | none => s1.showTrs core false false false false false
        | some p => match x.aTile p.aIx with
          | none => (s1.showTrs core true false hot didt false).stallOn x 1 (opInA x.op)
          | some a => match s1.segB x a.format p.bIx with
            | none => (s1.showTrs core true false hot didt false).stallOn x 1 (opInB x.op)
            | some b =>
              if !segFits a b (passSegs x.op) (some p) then s1.opFault x cOperand
              else if lost && x.shareHalf then
                (s1.onCore core fun q st => st.bumpWrap (fCORE_SPAD_CONFLICT_COUNT q)).showTrs core true false hot didt false
              else if hot || didt then
                ((s1.onCore core fun q st => st.bumpWrap (fCORE_TRS_HOLD_CYCLES_COUNT q)).showTrs core false false hot didt false).stallOn x 4 0
              else if ecc.val = 2 then s1.spadEcc slot core 2 off
              else
                (((s1.spadEcc slot core ecc off).onCore core fun q st => st.bumpWrap (fCORE_TRS_FEED_CYCLES_COUNT q)).feedGroup x t1 p a b).showTrs core
                  false false false false true).activity core)

/-! ### Drain and output path (R133, R143–R147) -/

/-- The oldest bank starts to drain once beam 0 has its final sum and the output path holds a credit, which it takes (R133). -/
def execTrestleDrainStart (slot : StepIx) (core : LCore) (s : State) : Host.Outcome State Fault Refusal :=
  .next (match s.active slot core instTrestle with
    | none => s
    | some x =>
      let t := s.trsOf core
      match t.banks.find? (·.drainAt.isNone) with
      | none => s
      | some b => match x.step.queue? (opOut b.op) with
        | none => s
        | some u =>
          if t.cyc < b.lastCyc + 13 then s
          else if u.avail (s.cycOf core) = 0 then s.stallOn x 2 (opOut b.op)
          else
            (s.setTrs core { t with banks := mapFirst (·.drainAt.isNone) (fun v => { v with drainAt := some t.cyc }) t.banks
                                    bankD := aput t.bankD b.bank t.cyc }).modQueue slot (opOut b.op) fun v => v.spend (s.cycOf core))

/-- The epilogue of a value of column j (R143). -/
def epilogue (e : Option (Array (Array Val))) (j : Nat) (v : Val) : Val := match e with
  | none => v
  | some m => mul32 (add32 v ((m.getD 0 #[]).getD j .zero)) ((m.getD 1 #[]).getD j .zero)

/-- Whether an epilogue tile keeps R125: FP32, LAYOUT 0, 2 rows and the pass's columns. -/
def epilogueOk (e : Option Tile) (cols : Nat) : Bool := match e with
  | none => true
  | some t => t.format == 1 && t.layout == 0 && !t.sparse && t.rows == 2 && t.cols == cols

/-- The C tile of a bank (R143, R144, R147). -/
def bankTile (b : TrsBank) (e : Option Tile) : Tile × Nat :=
  let m := e.map fun t => (((t.values 8).map List.toArray).toArray)
  let vals := b.acc.map fun row => ((List.range row.length).zip row).map fun p => epilogue m p.1 p.2
  let w := writeVals (passFmt b.op) 0 8 (passNonsat b.op) 0 b.rows b.cols vals
  ({ status := w.status, coordC := b.coordC, coordR := b.coordR, rows := b.rows, cols := b.cols, format := passFmt b.op, layout := 0, last := b.last,
     poison := b.poison || (match e with
       | some t => t.poison
       | none => false), payload := w.payload }, w.origin)

/-- The output path emits the tile of the oldest draining bank, 196 cycles or more after its drain began (R146). -/
def execTrestleTileOut (slot : StepIx) (core : LCore) (s : State) : Host.Outcome State Fault Refusal :=
  .next (match s.active slot core instTrestle with
    | none => s
    | some x =>
      let t := s.trsOf core
      match t.banks with
      | [] => s
      | b :: rest => match b.drainAt with
        | none => s
        | some d =>
          let y := { x with op := b.op }
          let e := if passInE b.op = noQ then none else y.head (passInE b.op)
          if t.cyc < d + 196 then s
          else if passInE b.op ≠ noQ ∧ e.isNone then s.stallOn x 1 (passInE b.op)
          else if !epilogueOk e b.cols then s.opFault y cOperand
          else
            let bt := bankTile b e
            let s1 := s.setTrs core { t with banks := rest }
            let s2 := if passInE b.op = noQ || (passHoldE b.op && !b.lastRep) then s1 else s1.endRead y (passInE b.op)
            let s3 := s2.onCore core fun p st => st.bumpWrap (fCORE_TRS_PASSES_COUNT p)
            s3.emitTile slot core instTrestle { q := opOut b.op, tile := bt.1, owners := if opPerStream b.op then [(b.stream, b.rows)] else [],
                                                origin := bt.2, node := opNode b.op, rep := b.rep } false)

/-- A parity error in the Trestle (R152). -/
def execTrestleParityError (slot : StepIx) (core : LCore) (line : Nat) (s : State) : Host.Outcome State Fault Refusal :=
  .next ((s.onCore core fun p st => st.bumpSat (fCORE_TRS_PARITY_COUNT p)).engineFault slot core 1 line 0 0x03)

/-! ### The codebook feed (R139–R141, R149, R165–R167) -/

/-- The tiles of a DECODE op's set. -/
def cbSet (op : List Byte) : Nat := opF op 1 5 0 + 1

/-- Whether a DECODE op keeps the layout of R149. -/
def decodeOk (x : OpCtx) : Bool :=
  opInA x.op != noQ && opInB x.op == noQ && opOut x.op == noQ && opF x.op 0 1 0 == 0 && opF x.op 1 47 6 == 0 && opF x.op 2 63 0 == 0 &&
    opF x.op 3 63 0 == 0

/-- A DECODE op starts and is checked (R149). -/
def execDecode (slot : StepIx) (core : LCore) (s : State) : Host.Outcome State Fault Refusal :=
  .next (s.runOp slot core instCodebook [1] 1 decodeOk fun s1 _ => s1)

/-- Whether a codebook tile keeps R165 and R166, and reaches the feed as R125 asks. -/
def cbTileOk (t : Tile) : Bool :=
  isCb t.format && t.layout == 2 && !t.sparse && t.rows % 128 == 0 && decide (128 ≤ t.rows) && decide (t.rows ≤ if isCb3 t.format then 1280 else 896) &&
    decide (t.cols ≤ 128) && t.payload.length == cbBytes t.format t.rows &&
    (let a := t.payload.toArray
     let selAt := if isCb3 t.format then t.rows * 48 else t.rows * 64
     (List.range t.rows).all fun i => decide ((a.getD (selAt + i) 0).toNat < 64))

/-- The run n of a codebook tile: 8 K positions × 128 columns (R139). -/
def cbRun (t : Tile) (n : Nat) : CbRun :=
  let a := t.payload.toArray
  { codes := (List.range 1024).map fun i => BitVec.ofNat 8 (cbCode t.format t.rows a (8 * n + i / 128) (i % 128))
    e5m2 := cbE5m2 t.format, poison := t.poison, rows := t.rows, cols := t.cols, coordC := t.coordC, last := n + 1 == t.rows / 8 }

/-- One cycle of the CODEBOOK station (R141): the tables of the tile at the head are loaded in 8 cycles, behind the runs of the tile before when there
is one, and one decoded run is delivered per cycle while the feed has a slot. -/
def execCodebookTileDecode (slot : StepIx) (core : LCore) (s : State) : Host.Outcome State Fault Refusal :=
  .next (s.runOp slot core instCodebook [1] 1 decodeOk fun s1 x =>
    let c := s1.cbkOf core
    match x.head (opInA x.op) c.ix with
    | none => (s1.setCbk core { c with idle := true, loaded := false }).stallOn x 1 (opInA x.op)
    | some t =>
      if !cbTileOk t then s1.opFault x cOperand
      else
        -- a tile after an idle station waits for its tables; one behind another tile has had them loaded meanwhile
        let c1 := if c.loaded then c else { c with loaded := true, load := if c.idle then 8 else 0, run := 0, cycles := 0, idle := false }
        if c1.load ≠ 0 then
          (s1.setCbk core { c1 with load := c1.load - 1, cycles := c1.cycles + 1 }).onCore core fun p st => st.bumpWrap (fCORE_CBK_BUBBLES_COUNT p)
        else if 32 ≤ c1.runs.length then (s1.setCbk core c1).stallOn x 2 noQ
        else
          let c2 := { c1 with runs := c1.runs ++ [cbRun t c1.run], run := c1.run + 1, cycles := c1.cycles + 1 }
          let s2 := (s1.unstall x).progress slot core instCodebook
          if c2.run < t.rows / 8 then s2.setCbk core c2
          else
            let keep := opHoldA x.op && !x.lastAll
            let n := (aget x.run.work 0).getD 0 + 1
            let endSet := decide (cbSet x.op ≤ n)
            let s3 := s2.setCbk core { c2 with loaded := false, run := 0, ix := if keep && !endSet then c2.ix + 1 else 0 }
            let s4 := if keep then s3 else s3.endRead x (opInA x.op)
            let s5 := s4.onCore core fun p st => st.bumpWrap (fCORE_CBK_TILES_COUNT p)
            if endSet then (s5.modInst slot core instCodebook fun r => { r with work := aput r.work 0 0 }).endRepeat x
            else s5.modInst slot core instCodebook fun r => { r with work := aput r.work 0 n })

/-- The Trestles and feeds of a step's cores stop: both banks, the pass in hand and the output path are discarded, the feed is emptied (R151). -/
def State.stopTrestle (s : State) (core : Nat) : State :=
  let t := s.trsOf core
  ((s.setTrs core { t with pass := none, banks := [], passes := 0, bankD := [] }).setCbk core {}).showTrs core false false false false false

end Sys2Proof.Machine
end

