-- ==== Sys2Proof/Machine/Ops.lean ====
section
/-! DEFINITION. Accesses to the memories: the Deck cache (R249–R251), pseudo-channels (R240), ECC events (R256, R266–R269), retirement (R269–R273) and what a
station may address (R237, R239). -/

namespace Sys2Proof.Machine

open Sys2Proof

/-! ### Pseudo-channels and traffic (R240, R276, R280) -/

/-- The parity of the bits of n, over w bits. -/
def parityGo : Nat → Nat → Nat
  | 0, _ => 0
  | w + 1, n => (n % 2 + parityGo w (n / 2)) % 2

/-- The pseudo-channel of a stack offset (R240). -/
def pseudoChannel (o : Nat) (key : List Nat) : Nat :=
  let g := o / 512
  let hi := g / 32 % 0x400000
  let flip := (List.range 5).foldl (fun a b => a + parityGo 22 (hi &&& key.getD b 0) * 2 ^ b) 0
  (g % 32) ^^^ flip

/-- The reserve offset of reserve page i (R50, R236). -/
def reserveOff (i : Nat) : Nat := stackVisible + 0x80000 * i

/-- A stack offset after the retirement remap (R270). -/
def StackSt.remapped (k : StackSt) (o : Nat) : Nat := match aget k.remap (o / 0x80000) with
  | some i => reserveOff i + o % 0x80000
  | none => o

/-- Stack n serves one granule. -/
def State.serve (s : State) (n off : Nat) : State :=
  let k := s.stack n
  let pc := pseudoChannel (k.remapped off) k.key
  (s.setStack n { k with chan := aput k.chan pc ((aget k.chan pc).getD 0 + 1) }).bumpWrap (fHBM_TRAFFIC_GRANULES n)

/-! ### The Deck cache (R250, R251) -/

/-- The half of a DECK block that serves a span. -/
def deckF (f : Nat → Nat → Fld) (span : Nat) : Fld := f (span / 2) (span % 2)

/-- A set of the cache with a line used: moved to the front, dirtied by a write. -/
def touchLine (l : List CLine) (line : Nat) (write : Bool) : List CLine := match l.find? (·.line == line) with
  | some c => { c with dirty := c.dirty || write } :: dropFirst (·.line == line) l
  | none => l

/-- A set of the cache with a line brought in: the least recently used of 16 ways leaves. The second part says whether a dirty line left. -/
def fillLine (l : List CLine) (line : Nat) (write : Bool) : List CLine × Option Nat :=
  let l1 := { line := line, dirty := write } :: l
  if 16 < l1.length then (l1.take 16, match l1[16]? with
    | some v => if v.dirty then some v.line else none
    | none => none)
  else (l1, none)

/-- One line of a stack's cache accessed at its home Deck. -/
def State.lineAccess (s : State) (n line : Nat) (write alloc : Bool) : State :=
  let d := s.span n
  let c := cacheUnits d.split
  if c = 0 then s.serve n (line * 256)
  else
    let sets := 2048 * c
    let set' := line % sets
    let ways := (aget d.cache set').getD []
    if ways.any (·.line == line) then
      (s.setSpan n { d with cache := aput d.cache set' (touchLine ways line write) }).bumpWrap (deckF fDECK_HITS_COUNT n)
    else
      let s1 := (s.bumpWrap (deckF fDECK_MISSES_COUNT n)).serve n (line * 256)
      if !alloc then s1
      else
        -- both lines of the granule are allocated
        let fill (st : State) (ln : Nat) (wr : Bool) : State :=
          let e := st.span n
          let w := (aget e.cache (ln % sets)).getD []
          if w.any (·.line == ln) then st
          else
            let f := fillLine w ln wr
            let st1 := st.setSpan n { e with cache := aput e.cache (ln % sets) f.1 }
            match f.2 with
            | some v => st1.serve n (v * 256)
            | none => st1
        let other := if line % 2 = 0 then line + 1 else line - 1
        fill (fill s1 other false) line write

/-- A line of a span's combining buffer used now (R462). -/
def State.touchComb (s : State) (line : Nat) : State := match s.rmt.comb.find? (·.line == line) with
  | some c => { s with rmt := { s.rmt with comb := dropFirst (·.line == line) s.rmt.comb ++ [{ c with usedAt := s.time.nowNs }] } }
  | none => s

/-- An access of n bytes at device address a, line by line, through the home Decks; a line held in a combining buffer is served from there (R462). -/
def State.accessLines (s : State) (a n : Nat) (write alloc : Bool) : State :=
  if n = 0 then s
  else (List.range ((a + n - 1) / 256 - a / 256 + 1)).foldl (fun st i =>
    let x := if i = 0 then a else (a / 256 + i) * 256
    match st.placeKey (st.place x) with
    | some k =>
      if st.rmt.comb.any (·.line == k / 256) then st.touchComb (k / 256)
      else match st.place x with
        | .stack m off => st.lineAccess m (off / 256) write alloc
        | _ => st
    | none => st) s

/-- A MEMORY record of a stack (R649). -/
def State.memRec (s : State) (n event off pages sev : Nat) (injected : Bool := false) : State :=
  s.errRec { typ := 0x06, sev := sev, unitKind := 4, unitIx := n, arg0 := event, arg1 := off, arg2 := pages, injected := injected }

/-- s with the injections in force replaced. -/
def State.setInjections (s : State) (l : List Injection) : State := { s with faults := { s.faults with injections := l } }

/-- Whether an injection lies in the keys k to k + n − 1 of a stack. -/
def Injection.onKeys (j : Injection) (k n : Nat) : Bool := decide (k < (stackKey j.a j.b / 64 + 1) * 64) && decide (stackKey j.a j.b / 64 * 64 < k + n)

/-- A read of n keys from k on meets the injections of HBM events there (R684, R685): a corrected error is spent and counts nowhere; poison is delivered with an injected
record, once. -/
def State.meetInj (s : State) (k n : Nat) : State :=
  let hit (j : Injection) : Bool := (j.kind == 3 || j.kind == 4) && j.onKeys k n
  if !s.faults.injections.any hit then s
  else
    let fresh := s.faults.injections.filter fun j => hit j && j.kind == 4 && j.left == 1
    let s1 := s.setInjections (s.faults.injections.filterMap fun j =>
      if !hit j then some j
      else if j.kind = 3 then none
      else if j.left = 1 then some { j with left := 2, untilAt := s.freeCtr }
      else if j.untilAt = s.freeCtr then some j else none)
    fresh.foldl (fun st j => st.memRec j.a 1 j.b (st.getF (fHBM_STATUS_RETIRED j.a)) 2 true) s1

/-- An access of n bytes at device address a; a read meets the injections on the stack bytes it reads. -/
def State.access (s : State) (a n : Nat) (write alloc : Bool) : State :=
  let s1 := s.accessLines a n write alloc
  if write || n = 0 || s.faults.injections.isEmpty then s1
  else (List.range (n / 4096 + 2)).foldl (fun st i =>
    let lo := if i = 0 then a else 4096 * (a / 4096 + i)
    let hi := min (a + n) (4096 * (a / 4096 + i + 1))
    match (if lo < hi then st.placeKey (st.place lo) else none) with
    | some k => if isStackKey k then st.meetInj k (hi - lo) else st
    | none => st) s1

/-! ### Retirement (R269, R270, R273) -/

/-- Pages of stack n in the reserve. -/
def State.retired (s : State) (n : Nat) : Nat := s.getF (fHBM_STATUS_RETIRED n)

/-- Raise the retirement of a page of a stack (R270): it starts, is queued behind at most 16, or is dropped and recorded. -/
def State.raiseRetire (s : State) (n page : Nat) : State :=
  let k := s.stack n
  if (aget k.remap page).isSome || k.retireQ.contains page || decide (4096 ≤ s.retired n) then s
  else if 17 ≤ k.retireQ.length then s.memRec n 7 (0x80000 * page) (s.retired n) 1
  else (s.setStack n { k with retireQ := k.retireQ ++ [page] }).setF (fHBM_STATUS_RETIRING n) 1

/-- Count a correctable error in the tracker of 64 pages, least recently counted first out, and raise retirement at the limit (R269). -/
def State.trackCe (s : State) (n page : Nat) : State :=
  let k := s.stack n
  let c := match k.tracker.find? (·.page == page) with
    | some e => e.count + 1
    | none => 1
  let rest := k.tracker.filter (·.page != page)
  let kept := if 64 ≤ rest.length then rest.drop (rest.length - 63) else rest
  let s1 := s.setStack n { k with tracker := kept ++ [⟨page, c⟩] }
  let lim := s.getF (fHBM_CFG_RETIRE_CE n)
  if lim ≠ 0 ∧ lim ≤ c then s1.raiseRetire n page else s1

/-- A corrected error of a stack read (R269, R280). -/
def State.hbmCe (s : State) (n off : Nat) : State := (s.bumpSat (fHBM_CE_COUNT n)).trackCe n (off / 0x80000)

/-- A 64-byte read of a stack that fails to correct: a block with the mark is not counted again (R266). -/
def State.hbmUe (s : State) (n off : Nat) (injected : Bool := false) : State :=
  let b := stackKey n off / 64
  if s.marked b then s
  else
    let s1 := ((s.bumpSat (fHBM_UE_COUNT n)).memRec n 1 off (s.retired n) 2 injected).drew
    let s2 := if injected then s1 else s1.setPoison (insNat b s1.mm.poison)
    if injected then s2 else s2.raiseRetire n (off / 0x80000)

/-! ### ECC events of an access (R256, R266) -/

/-- The engine fault of a Deck error, with its record (R256, R667). -/
def State.deckFault (s : State) (slot n off : Nat) : State :=
  ((s.engineRec slot 3 n 2 off 0 0x04 (s.callLevel 3 (.span n))).stepFault slot 0x04 { quiet := true }).faultCall 3 (.span n)

/-- A Deck error that fails to correct: a clean line is refetched; a dirty line is written to the stack with the poison mark; a scratch line loses its
contents. The last two are engine faults of the step. -/
def State.deckUe (s : State) (slot a : Nat) : State := match s.place a with
  | .stack n off =>
    let s1 := s.bumpSat (deckF fDECK_ECC_UE n)
    let d := s1.span n
    let line := off / 256
    let dirty := d.cache.any fun e => e.2.any fun c => c.line == line && c.dirty
    let drop := s1.setSpan n { d with cache := d.cache.map fun e => (e.1, e.2.filter (·.line != line)) }
    if !dirty then drop
    else
      let marked := drop.setPoison ((List.range 4).foldl (fun l i => insNat (stackKey n (line * 256) / 64 + i) l) drop.mm.poison)
      marked.deckFault slot n off
  | .deck n off =>
    let s1 := (s.bumpSat (deckF fDECK_ECC_UE n)).forgetDeck n (off / 256 * 256) (off / 256 * 256 + 256)
    s1.deckFault slot n off
  | _ => s

/-- One ECC event. -/
def State.eccOne (s : State) (slot : Nat) (h : EccHit) : State := match h.kind, s.place h.addr with
  | .hbmCe, .stack n off => s.hbmCe n off
  | .hbmUe, .stack n off => s.hbmUe n off
  | .deckCe, .stack n _ => s.bumpSat (deckF fDECK_ECC_CE n)
  | .deckCe, .deck n _ => s.bumpSat (deckF fDECK_ECC_CE n)
  | .deckUe, _ => s.deckUe slot h.addr
  | _, _ => s

/-- The ECC events that fall within the n bytes from a on. -/
def State.ecc (s : State) (slot a n : Nat) (hits : List EccHit) : State :=
  (hits.filter fun h => decide (a ≤ h.addr) && decide (h.addr < a + n)).foldl (fun st h => st.eccOne slot h) s

/-! ### What a station may address (R237, R239) -/

/-- The runs (address, length) of an access checked against the map and against readiness: none when it may proceed, else the cause and the address. -/
def State.addrCheck (s : State) (runs : List (Nat × Nat)) : Option (Nat × Nat) :=
  match runs.find? fun r => !s.rangeAll r.1 r.2 stationMay with
  | some r => some (cAddr, r.1)
  | none => match runs.find? fun r => !s.rangeAll r.1 r.2 s.placeReady with
    | some r => some (cSpanDown, r.1)
    | none => none

/-- A tile whose layout the station gives no dot depth for, or whose metadata it cannot place, holds values the spec does not state: each byte is free. -/
def State.openTile (s : State) (t : Tile) : Tile :=
  if (t.layout == 2 && !isCb t.format) || t.sparse then
    { t with payload := (List.range t.payload.length).map fun i => Config.undefByte s.freeCtr i, layout := 0, sparse := false }
  else t

/-- s with the free values of such a tile drawn. -/
def State.opened (s : State) (t : Tile) : State := if (t.layout == 2 && !isCb t.format) || t.sparse then s.drew else s

/-- Exclude a stream of a step for POISON when a poisoned tile reaches an append or SAMPLE (R57). -/
def State.poisonExcl (s : State) (slot ix : Nat) (poison : Bool) : State := if poison then s.excludeStream slot ix 0x20 else s

end Sys2Proof.Machine
end

