-- ==== Sys2Proof/Machine/MemEvents.lean ====
section
/-! DEFINITION. Memory events: patrol scrub (R268), retirement copies (R270, R273), the balance monitor (R276), the Deck split (R253, R254), the handover
of a stack (R44, R45) and BIST (R274). -/

namespace Sys2Proof.Machine

open Sys2Proof

/-- Granules of 512 bytes in the software-visible part of a stack, which the remap also leads to the reserve pages in use (R50, R270). -/
def scrubGranules : Nat := stackVisible / 512

/-- What the patrol scrub of stack n does with one error that its code finds (R268). -/
def State.scrubHit (n : Nat) (s : State) (h : EccHit) : State := match h.kind with
  | .hbmCe => s.hbmCe n (h.addr - stackKey n 0)
  | .hbmUe => s.hbmUe n (h.addr - stackKey n 0)
  | _ => s

/-- The patrol scrub of stack n reads its next granule, with what the code finds in it (R268). -/
def State.scrubOne (s : State) (n : Nat) (hits : List EccHit) : State :=
  let k := s.stack n
  let off := k.scrubAt * 512
  let s1 := s.setStack n { k with scrubAt := (k.scrubAt + 1) % scrubGranules }
  let here := hits.filter fun h => decide (stackKey n off ≤ h.addr) && decide (h.addr < stackKey n off + 512)
  here.foldl (State.scrubHit n) s1

/-- PATROL_SCRUB (R268): the next granule of a trained stack; a SCRUB_H of 0 stops the scrub. -/
def execPatrolScrub (stack : SpanIx) (hits : List EccHit) (s : State) : Host.Outcome State Fault Refusal :=
  .next (if s.getF (fHBM_CFG_SCRUB_H stack.val) ≠ 0 ∧ (s.stack stack.val).trained then s.scrubOne stack.val hits else s)

/-- RESERVE_LOW and RESERVE_FULL as RETIRED reaches their limits (R273); a full reserve ends every retirement that waits. -/
def State.reserveLevel (s : State) (n : Nat) : State :=
  let r := s.retired n
  let s1 := if 3584 ≤ r ∧ !s.isSet (fHBM_STATUS_RESERVE_LOW n) then (s.setF (fHBM_STATUS_RESERVE_LOW n) 1).memRec n 3 0 r 1 else s
  if 4096 ≤ r ∧ !s1.isSet (fHBM_STATUS_RESERVE_FULL n) then
    (((s1.setF (fHBM_STATUS_RESERVE_FULL n) 1).setStack n { s1.stack n with retireQ := [] }).setF (fHBM_STATUS_RETIRING n) 0).memRec n 4 0 r 2
  else s1

/-- Page `page` of stack n goes over to the next free reserve page; `faulty` reserve pages found faulty before it count toward RETIRED and are never used
(R270, R273). -/
def State.retireNow (s : State) (n page faulty : Nat) : State :=
  let ix := s.retired n + faulty
  if 4096 ≤ ix then (s.setF (fHBM_STATUS_RETIRED n) 4096).reserveLevel n
  else
    let k := s.stack n
    let s1 := (s.setStack n { k with remap := aput k.remap page ix }).setF (fHBM_STATUS_RETIRED n) (ix + 1)
    (s1.memRec n 2 (0x80000 * page) (ix + 1) 1).reserveLevel n

/-- The copy at the head of a stack's retirement queue ends: blocks of the page that failed to correct in it carry the mark, the remap entry becomes valid and the
next copy starts. -/
def State.retireCopied (s : State) (n : Nat) (bad : List Nat) (faulty : Nat) : State :=
  match (s.stack n).retireQ with
  | [] => s
  | page :: rest =>
    let s1 := bad.foldl (fun st b => st.hbmUe n (0x80000 * page + b * 64)) s
    let s2 := (s1.setStack n { s1.stack n with retireQ := rest }).setF (fHBM_STATUS_RETIRING n) (if rest.isEmpty then 0 else 1)
    s2.retireNow n page faulty

/-- RETIREMENT_COPY_DONE (R270). -/
def execRetirementCopyDone (stack : SpanIx) (bad : List (Fin 8192)) (faulty : Fin 4097) (s : State) : Host.Outcome State Fault Refusal :=
  .next (s.retireCopied stack.val (bad.map (·.val)) faulty.val)

/-- The busiest pseudo-channel of a window, the lowest of equals, and its count. -/
def busiest (l : List (Nat × Nat)) : Nat × Nat := l.foldl (fun a e => if a.2 < e.2 then e else a) (0, 0)

/-- SKEW raised: HOT_PC, an error record and ALERT_N (R276). -/
def State.raiseSkew (s : State) (n hot : Nat) : State :=
  (((s.setF (fHBM_STATUS_SKEW n) 1).setF (fHBM_SKEW_HOT_PC n) hot).memRec n 5 0 (s.retired n) 1).setF fTOP_ALERT_HBM_SKEW 1

/-- The end of a 100 µs window of the balance monitor (R276). -/
def State.skewWindow (s : State) (n : Nat) : State :=
  let k := s.stack n
  if !s.isSet (fHBM_CFG_SKEW_EN n) then s.setStack n { k with chan := [], badWindows := 0 }
  else
    let total := sumNat (k.chan.map (·.2))
    if total < 2400 then s.setStack n { k with chan := [] }
    else
      let b := busiest k.chan
      let bad : Nat := if 4 * total ≤ b.2 * 32 then k.badWindows + 1 else 0
      let s1 := (s.setStack n { k with chan := [], badWindows := bad }).setF (fHBM_SKEW_RATIO_X8 n) (min 255 (b.2 * 32 * 8 / total))
      if 10 ≤ bad ∧ !s1.isSet (fHBM_STATUS_SKEW n) then s1.raiseSkew n b.1 else s1

/-- SKEW_WINDOW_END (R276). -/
def execSkewWindowEnd (stack : SpanIx) (s : State) : Host.Outcome State Fault Refusal := .next (s.skewWindow stack.val)

/-- Every dirty line of a span's cache written back to its stack, the cache empty (R253, R255). -/
def State.flushCache (s : State) (n : Nat) : State :=
  let dirty := (s.span n).cache.flatMap fun e => (e.2.filter (·.dirty)).map (·.line)
  let s1 := dirty.foldl (fun st l => st.serve n (l * 256)) s
  s1.setSpan n { s1.span n with cache := [] }

/-- The trace of a logical core whose ring reaches past the scratch units of its span stops: what is pending is counted lost and ENABLE clears (R254). -/
def State.traceFit (s : State) (c : Nat) : State :=
  let top := 4096 * (s.getF (fTRC_BASE_OFFSET c)) + 4096 * 2 ^ min 11 (s.getF (fTRC_SIZE_LOG2_4K c))
  if s.scratchBytes (c / 16) < top then { s.setF (fTRC_CFG_ENABLE c) 0 with traceLost := adel s.traceLost c } else s

/-- The split that the last change of CACHE_CODE asked for comes into force: the units that change role hold undefined contents (R253, R254). -/
def State.applySplit (s : State) (n : Nat) : State :=
  let s1 := s.flushCache n
  let old := s1.scratchBytes n
  let s2 := s1.setSpan n { s1.span n with split := (s1.span n).splitWant }
  let new := s2.scratchBytes n
  let s3 := s2.forgetDeck n (min old new) (max old new)
  (List.range 16).foldl (fun st l => st.traceFit (16 * n + l)) s3

/-- DECK_SPLIT_APPLY (R254): with no change of the split waiting, nothing happens. -/
def execDeckSplitApply (span : SpanIx) (s : State) : Host.Outcome State Fault Refusal :=
  .next (if (s.span span.val).splitWant = (s.span span.val).split then s else s.applySplit span.val)

/-- STACK_HANDOVER (R45): at a refresh boundary the controller that was asked for takes the stack; the span's takes the key in force with it (R241). -/
def execStackHandover (stack : SpanIx) (s : State) : Host.Outcome State Fault Refusal :=
  .next (match (s.stack stack.val).handover with
    | 1 => s.ownStack stack.val false
    | 2 => s.ownStack stack.val true
    | _ => s)

/-- The in-flight HBM_TEST of a stack. -/
def State.bistFlight (s : State) (n : Nat) : Option InFlight :=
  s.host.flights.find? fun f => f.opcode == 0x42 && f.stage == .started && recNat f.desc 8 1 % 8 == n

/-- BIST of a stack ends: its contents are undefined, every page with a failing cell is retired, and HBM_TEST completes (R274). -/
def State.bistDone (s : State) (n : Nat) (failing : List Nat) : State :=
  if !(s.stack n).bist then s
  else
    let s1 := (s.setStack n { s.stack n with bist := false }).forgetStack n
    let before := s1.retired n
    let pages := failing.eraseDups.filter fun p => decide (p < 94208) && (aget (s1.stack n).remap p).isNone
    let s2 := pages.foldl (fun st p => if st.isSet (fHBM_STATUS_RESERVE_FULL n) then st else st.retireNow n p 0) s1
    let bad := !failing.isEmpty
    let s3 := if bad then (s2.setF (fHBM_STATUS_BIST_FAIL n) 1).memRec n 6 0 (s2.retired n) 2 else s2.setF (fHBM_STATUS_BIST_FAIL n) 0
    match s3.bistFlight n with
    | some f => s3.finish f (if bad then 0x64 else 0x60) (leBytes 4 (s3.retired n - before))
    | none => s3

/-- HBM_BIST_DONE (R274). -/
def execHbmBistDone (stack : SpanIx) (failing : List (Fin 94208)) (s : State) : Host.Outcome State Fault Refusal :=
  .next (s.bistDone stack.val (failing.map (·.val)))

end Sys2Proof.Machine
end

