-- ==== Sys2Proof/Machine/Ring.lean ====
section
/-! DEFINITION. Commands from the rings: the descriptor header and its checks (R305, R306), the payload each opcode defines, the order in which descriptors are carried
out (R302–R304), doorbells and polling (R321–R324), and the room in completion rings (R317–R320). -/

namespace Sys2Proof.Machine

open Sys2Proof

/-! ### Payloads (R307, R309, R327, R386, R433, R487, R563, R642, R688, R721) -/

/-- The bits an opcode defines, as runs (first byte, bytes, mask); none where no ring accepts the opcode (R325). Bits outside them are reserved. -/
def descUsed (d : List Byte) : Option (List (Nat × Nat × Nat)) :=
  let b (i n : Nat) : Nat × Nat × Nat := (i, n, 2 ^ (8 * n) - 1)
  let addr : Nat × Nat × Nat := b 16 8
  let dev (i : Nat) : Nat × Nat × Nat := (i, 8, 2 ^ 40 - 1)
  match (d.getD 0 0).toNat with
  | 0x00 => some []
  | 0x01 => some [b 8 14, (22, 1, 0x1F), (24, 2, 0x1FFF), (28, 4, 0xFFFFFF), dev 32, b 40 8]
  | 0x02 => some [b 8 8, dev 16, b 24 4, (28, 1, 1)]
  | 0x10 =>
    if recBits d 10 1 0 0 = 0 then some [b 8 2, (10, 1, 1), b 11 3, (14, 2, 0x7FFF), addr, (26, 1, 1)]
    else some [b 8 2, (10, 1, 1), b 11 3, (14, 2, 0x7FF), addr, (24, 2, 0x7FF), (26, 1, 3), b 27 1, (28, 2, 0x3FF)]
  | 0x11 => some [b 8 2, (10, 1, 1)]
  | 0x12 => some [b 8 2, (10, 1, 1), (11, 1, 1)]
  | 0x13 => some [b 8 1, (9, 1, 1), b 10 6, b 16 8, dev 24, b 32 8]
  | 0x20 => some [dev 8, (16, 2, 0xFFF)]
  | 0x21 => some [b 8 4]
  | 0x22 => some [b 8 8, (16, 1, 0x3F), b 18 2, dev 24]
  | 0x30 => some [b 8 2, addr]
  | 0x31 => some [b 8 2, (10, 2, 0xFFF), addr]
  | 0x32 => some [b 8 2]
  | 0x33 => some [b 8 2]
  | 0x34 => some [b 8 2]
  | 0x35 => some [b 8 2]
  | 0x36 => some [b 8 2]
  | 0x37 => some [b 8 2, addr]
  | 0x40 => some [(8, 1, 7), b 12 4]
  | 0x41 => some ((8, 1, 7) :: (List.range 5).map fun k => (16 + 4 * k, 4, 0x3FFFFF))
  | 0x42 => some [(8, 1, 7)]
  | 0x50 => some [b 8 2]
  | 0x60 => some [(8, 4, 0x1FFFFF), b 12 4, addr]
  | 0x61 => some [(8, 2, 0xFFF), b 10 2, addr]
  | 0x62 => some [b 8 1, b 10 2, addr]
  | 0x63 => some [(8, 1, 0x3F), (9, 1, 1), addr]
  | 0x64 => some [(8, 1, 0x3F), (9, 1, 3), b 10 1]
  | 0x65 => some [(8, 4, 0x1FFFFF)]
  | 0x66 => some [(8, 4, 0x1FFFFF), (12, 1, 1), b 13 1]
  | 0x67 => some [addr]
  | 0x68 => some [(8, 1, 0x3F), b 9 3]
  | 0x69 => some [(8, 1, 0x3F), b 9 1, (10, 1, 1), (12, 4, 0x1FFFFF), (16, 1, 0x3F), (17, 1, 0xF)]
  | 0x6A => some [(8, 1, 0x3F), (9, 1, 0xF), (10, 1, 3), (12, 4, 0x1FFFFF), (16, 1, 0x3F), b 18 2]
  | 0x6B => some [(8, 2, 0x1FF), b 10 2, addr]
  | 0x6C => some [b 8 2, addr]
  | 0x6D => match recNat d 8 1 with
    | 0 => some [b 8 1, (9, 1, 3), (10, 1, 0x3F), b 11 1, (12, 1, 3), (13, 1, 0x3F), b 14 1, b 15 1]
    | 1 => some [b 8 1, addr]
    | 2 => some [b 8 1, (9, 1, 0x3F), b 10 2]
    | 3 => some [b 8 1, (9, 1, 0x3F), b 10 1, b 11 1, b 12 2]
    | _ => some [b 8 1]
  | 0x6E => some [(8, 1, 0x3F), (9, 1, 1), (12, 4, 0x1FFFF), addr, b 24 8, b 32 8]
  | 0x6F => some [b 8 1, b 10 2, addr]
  | 0x70 => some [b 8 1, (9, 1, 3), b 10 2]
  | 0x71 => some [b 8 1, b 10 1]
  | 0x72 => some [b 8 2]
  | 0x73 => some [b 9 1]
  | 0x74 => some [b 9 1]
  | 0x75 => some [b 8 2, addr]
  | 0x76 => some [(8, 1, 1), b 12 4, addr, b 24 4]
  | 0x77 => some [b 8 1, addr]
  | 0x78 => some [b 8 1]
  | 0x79 => some [b 8 1]
  | 0x80 => some [b 8 2, addr, b 24 4]
  | 0x81 => some [b 8 1]
  | 0x82 => some [b 8 1]
  | 0x83 => some [b 8 2]
  | 0x84 => some []
  | 0x85 => some [addr]
  | 0x90 => some [addr]
  | 0x91 => some []
  | 0x92 => some []
  | 0x93 => some [b 8 2]
  | 0x94 => some [addr]
  | 0x95 => some [addr]
  | 0x96 => some [(8, 1, 0x3F), b 9 2, b 12 4, b 16 8, b 24 8]
  | 0x97 => some [b 8 2]
  | 0x98 => some [(8, 1, 0x3F), b 9 1]
  | _ => none

/-- The code an opcode's table names for a bad field. -/
def badFieldCode (op : Nat) : Nat :=
  if op = 0x01 then 0x32
  else if op = 0x20 ∨ op = 0x21 then 0x43
  else if (0x30 ≤ op ∧ op ≤ 0x37) ∨ op = 0x75 then 0x55
  else if 0x60 ≤ op ∧ op ≤ 0x67 then 0xA1
  else if 0x68 ≤ op ∧ op ≤ 0x6A then 0x91
  else if op = 0x6B ∨ op = 0x6C then 0xB1
  else if 0x6D ≤ op ∧ op ≤ 0x6F then 0xC1
  else if 0x70 ≤ op ∧ op ≤ 0x79 then 0xE1
  else if 0x80 ≤ op ∧ op ≤ 0x85 then 0xD1
  else if 0x90 ≤ op ∧ op ≤ 0x98 then 0xF1
  else 0x85

/-- Whether a record is 0 outside the bits that `used` names, bytes lo to hi − 1. -/
def onlyBits (d : List Byte) (lo hi : Nat) (used : List (Nat × Nat × Nat)) : Bool :=
  (List.range (hi - lo)).all fun k =>
    let i := lo + k
    let m := used.foldl (fun a u => if u.1 ≤ i ∧ i < u.1 + u.2.1 then a ||| (u.2.2 / 256 ^ (i - u.1) % 256) else a) 0
    (d.getD i 0).toNat &&& (255 - m) == 0

/-- The checks of R306 on a descriptor fetched from SQ n: the code of the first that fails. -/
def descCheck (n : Nat) (d : List Byte) : Option Nat :=
  let op := recNat d 0 1
  if !onlyBits d 1 8 [(1, 1, 3), (4, 4, 0xFFFFFFFF)] then some 0x85
  else match descUsed d with
    | none => some 0x81
    | some u =>
      if 8 ≤ n ∧ 2 < op then some 0x82
      else if !onlyBits d 8 64 u then some (badFieldCode op) else none

/-! ### The order of R304 -/

/-- What a command names, as (kind, number): 1 a stream, 2 a graph slot, 3 a stack, 4 a ring, 5 a function, 6 a table. -/
def descNames (d : List Byte) : List (Nat × Nat) :=
  let op := recNat d 0 1
  if (0x30 ≤ op ∧ op ≤ 0x37) ∨ op = 0x75 then [(1, recNat d 8 2)]
  else if op = 0x20 then [(2, recNat d 16 2)]
  else if op = 0x21 then [(2, recNat d 8 4 % 4096)]
  else if 0x40 ≤ op ∧ op ≤ 0x42 then [(3, recNat d 8 1)]
  else if 0x10 ≤ op ∧ op ≤ 0x12 then [(4, recNat d 8 2 * 2 + recBits d 10 1 0 0)]
  else if op = 0x13 then [(5, recNat d 8 1)]
  else if 0x60 ≤ op ∧ op ≤ 0x6F then [(6, op)]
  else []

/-- Whether an earlier descriptor keeps one from starting: on a control ring every earlier command of the ring, and a command of another control ring that names the
same thing; behind FENCE every earlier descriptor of the ring. -/
def holdsBack (f g : InFlight) : Bool :=
  decide (g.no < f.no) &&
    ((g.sq == f.sq && (f.fence || g.stage == .fetched || (decide (f.sq < 8) && g.opcode != 1))) ||
     (g.sq != f.sq && decide (g.sq < 8) && decide (f.sq < 8) && (descNames g.desc).any (descNames f.desc).contains))

/-- The descriptor of SQ n that is carried out next, when its opcode is op and nothing holds it back. -/
def State.nextCmd (s : State) (n op : Nat) : Option InFlight :=
  match s.host.flights.find? fun f => f.sq == n && f.stage == .fetched with
  | some f => if f.opcode == op && !s.host.flights.any (holdsBack f) then some f else none
  | none => none

/-- Carry out the next descriptor of SQ n when it is of opcode op. -/
def State.ringCmd (s : State) (n op : Nat) (k : State → InFlight → State) : State := match s.nextCmd n op with
  | some f => k s f
  | none => s

/-- A command whose end comes later: its entry shows it started, with its own two numbers. -/
def State.startFlight (s : State) (f : InFlight) (a b : Nat) : State := s.setFlight { f with stage := .started, a := a, b := b }

/-- Read host memory for a command: the bytes, when the read succeeds. -/
def State.hostGet (s : State) (f : InFlight) (addr n : Nat) (data : Option (List Byte)) : State × Option (List Byte) :=
  let fid := s.sqFid f.sq
  if s.fidLive fid then (s.emit (.hostRead fid addr n), data.map fun x => (x ++ List.replicate n 0).take n) else (s, none)

/-- Write host memory for a command: whether it succeeded. -/
def State.hostPut (s : State) (f : InFlight) (addr : Nat) (bs : List Byte) (ok : Bool) : State × Bool :=
  let fid := s.sqFid f.sq
  if s.fidLive fid && ok then (s.emit (.hostWrite fid addr bs), true) else (s, false)

/-! ### Fetching (R300–R303, R318) -/

/-- Steps outstanding: fetched and without a final completion (R86, R303). -/
def State.outstanding (s : State) : Nat := (s.host.flights.filter (·.opcode == 1)).length

/-- Whether a descriptor may be fetched from SQ n now (R300, R303, R318, R333, R335). -/
def State.mayFetch (s : State) (n : Nat) : Bool :=
  let c := s.getF (fHOST_SQ_STATE_HI_CQ n)
  s.isSet (fHOST_SQ_STATE_HI_VALID n) && !s.isSet (fHOST_SQ_STATE_HI_DISABLED n) && !(s.sq n).destroying && s.fidLive (s.sqFid n) && !s.inL4 &&
    (s.sq n).tail != s.getF (fHOST_SQ_STATE_LO_FETCHED n) && decide (s.cqUsed c + (s.cq c).reserved + 2 ≤ s.cqSize c) &&
    (decide (n < 8) || (decide (s.outstanding < 64) && s.isSet fTOP_STEP_CFG_STEPS_ENABLE))

/-- The SQs of a priority level that may fetch, in ascending ring number (R302). -/
def State.fetchable (s : State) (lvl : Nat) : List Nat :=
  (((s.host.sqs.map (·.1)).filter fun n => s.mayFetch n && s.getF (fHOST_SQ_STATE_HI_PRIO n) == lvl).foldl (fun l n => insNat n l) [])

/-- The SQ of a level whose turn it is, with how many it has had in its turn once it is served: the one in hand up to 8, then the next in ring number (R302). -/
def State.fetchTurn (s : State) (lvl : Nat) : Option (Nat × Nat) :=
  let l := s.fetchable lvl
  let t := (aget s.host.turns lvl).getD (32768, 8)
  if t.2 < 8 ∧ l.contains t.1 then some (t.1, t.2 + 1)
  else match l.find? fun n => decide (t.1 < n) with
    | some n => some (n, 1)
    | none => l.head?.map fun n => (n, 1)

/-- The level, SQ and turn of the next fetch: level 1 before level 0 (R302). -/
def State.fetchPick (s : State) : Option (Nat × Nat × Nat) := match s.fetchTurn 1 with
  | some t => some (1, t)
  | none => (s.fetchTurn 0).map fun t => (0, t)

/-- s with a turn taken. -/
def State.takeTurn (s : State) (t : Nat × Nat × Nat) : State := s.setHost { s.host with turns := aput s.host.turns t.1 t.2 }

/-- A descriptor read from SQ n: it is counted, takes two records of its CQ, and is checked; the first failure completes it (R303, R306, R318). -/
def State.fetchDesc (s : State) (n : Nat) (d0 : List Byte) : State :=
  let d := (d0 ++ List.replicate 64 0).take 64
  let c := s.getF (fHOST_SQ_STATE_HI_CQ n)
  let full : Bool := decide (64 ≤ s.outstanding) || !s.isSet fTOP_STEP_CFG_STEPS_ENABLE
  let f : InFlight := { sq := n, tag := recNat d 4 4, opcode := recNat d 0 1, irqNow := recBits d 1 1 1 1 == 1, fence := recBits d 1 1 0 0 == 1, no := s.host.nextNo, desc := d }
  let s1 := s.bumpWrap (fHOST_SQ_STATE_LO_FETCHED n)
  let s2 := s1.setCq c { s1.cq c with reserved := (s1.cq c).reserved + 2 }
  let s3 := s2.setHost { s2.host with flights := s2.host.flights ++ [f], nextNo := s2.host.nextNo + 1 }
  match descCheck n d with
  | some code => s3.finish f code []
  | none => if f.opcode = 1 ∧ full then s3.finish f 0x34 [] else s3

/-- DESCRIPTOR_FETCH (R306): the read of an entry returns its 64 bytes, or fails, which fails the link (R338; the link's failure is its own command). -/
def execDescriptorFetch (sq : RingNo) (desc : Option (List Byte)) (s : State) : Host.Outcome State Fault Refusal :=
  .next (match desc with
    | some d =>
      match s.fetchPick with
      | some t => if t.2.1 ≠ sq.toNat then s else
        ((s.takeTurn t).emit (.hostRead (s.sqFid sq.toNat) ((s.sq sq.toNat).base + s.getF (fHOST_SQ_STATE_LO_FETCHED sq.toNat) % s.sqSize sq.toNat * 64) 64)).fetchDesc sq.toNat d
      | none => s
    | none => s)

/-- A HOST record (R649): 1 HOST_FAILOVER, 2 SQ disabled. -/
def State.hostRec (s : State) (event ring l fid : Nat) : State :=
  s.errRec { typ := 0x09, sev := (if event = 1 then 1 else 2), unitKind := 9, unitIx := ring % 65536, arg0 := event, arg1 := ring, arg2 := l, owner := some fid }

/-- A TAIL read from SQ n's record (R300). -/
def State.sqTail (s : State) (n tail : Nat) : State :=
  if !(s.isSet (fHOST_SQ_STATE_HI_VALID n)) || s.isSet (fHOST_SQ_STATE_HI_DISABLED n) || !s.fidLive (s.sqFid n) then s
  else if s.sqSize n < (tail + 2 ^ 32 - s.getF (fHOST_SQ_STATE_LO_FETCHED n)) % 2 ^ 32 then
    (s.setF (fHOST_SQ_STATE_HI_DISABLED n) 1).hostRec 2 n (s.fidLink (s.sqFid n)) (s.sqFid n)
  else s.setSq n { s.sq n with tail := tail, wantRead := false }

/-- SQ_RECORD_READ_DONE (R300): taken up while a read of the record is wanted. -/
def execSqRecordReadDone (sq : RingNo) (tail : Word) (s : State) : Host.Outcome State Fault Refusal :=
  .next (if (s.sq sq.toNat).wantRead then s.sqTail sq.toNat tail.toNat else s)

/-! ### Polling (R321–R324) -/

/-- The doorbell area of a function (R321, R330, R342). -/
def State.dbBase (s : State) (fid : Nat) : Nat :=
  if isPf fid then 4096 * (s.getF (fHOST_PF_DB_LO_ADDR_LO (pfIx fid))) + 2 ^ 32 * (s.getF (fHOST_PF_DB_HI_ADDR_HI (pfIx fid))) else (s.fn fid).dbBase

/-- Valid SQs whose current function is fid. -/
def State.sqsOf (s : State) (fid : Nat) : List Nat :=
  ((s.host.sqs.map (·.1)).filter fun n => s.isSet (fHOST_SQ_STATE_HI_VALID n) && s.sqFid n == fid)

/-- Whether the PF of a function's link has AtomicOp Requester Enable set (R323). -/
def State.summaryMode (s : State) (fid : Nat) : Bool :=
  let l := s.fidLink fid
  (s.fn ((l / 2) * 128 + l % 2)).atomicEn

/-- Ask for the record of an SQ. -/
def State.wantRecord (s : State) (fid n : Nat) : State :=
  (s.setSq n { s.sq n with wantRead := true }).emit (.hostRead fid (s.dbBase fid + 0x1000 + 8 * n) 8)

/-- The poll period in nanoseconds (R342). -/
def State.pollNs (s : State) : Nat := min (max (s.getF fHOST_CFG_POLL_NS) 100) 100000

/-- One poll of a function: the summary lines, or the record lines of its valid SQs (R323). -/
def State.poll (s : State) (fid : Nat) : State :=
  let s1 := s.setHost { s.host with polledAt := aput s.host.polledAt fid s.time.nowNs }
  let rings := s1.sqsOf fid
  if s1.summaryMode fid then
    ((rings.map (· / 512)).eraseDups).foldl (fun st ln => st.emit (.hostRead fid (st.dbBase fid + 64 * ln) 64)) s1
  else
    let lines := (rings.map (· / 8)).eraseDups
    let s2 := lines.foldl (fun st ln => st.emit (.hostRead fid (st.dbBase fid + 0x1000 + 64 * ln) 64)) s1
    rings.foldl (fun st n => st.setSq n { st.sq n with wantRead := true }) s2

/-- DOORBELL_POLL (R323): once in each period of POLL_NS. -/
def execDoorbellPoll (fid : Fid) (s : State) : Host.Outcome State Fault Refusal :=
  .next (
    let due : Bool := match aget s.host.polledAt fid.toNat with
      | some t => decide (t + s.pollNs ≤ s.time.nowNs)
      | none => true
    if s.fidLive fid.toNat && (s.fn fid.toNat).enabled && due then s.poll fid.toNat else s)

/-- SUMMARY_SWAP_DONE (R323): a Swap of summary word `word` returned bits; the records of those SQs are read. -/
def execSummarySwapDone (fid : Fid) (word : Fin 512) (bits : DWord) (s : State) : Host.Outcome State Fault Refusal :=
  .next (if s.fidLive fid.toNat && s.summaryMode fid.toNat then
      let s1 := s.emit (.hostSwap fid.toNat (s.dbBase fid.toNat + 8 * word.val))
      (((List.range 64).filter fun b => bits.toNat.testBit b).map (64 * word.val + ·)).foldl (fun st n =>
        if st.isSet (fHOST_SQ_STATE_HI_VALID n) && st.sqFid n == fid.toNat then st.wantRecord fid.toNat n else st) s1
    else s)

/-- BELL_WRITE (R324): bits 14 to 0 name the SQ, the others are ignored. A function whose link takes no memory request has none (R285, R295). -/
def execBellWrite (fid : Fid) (value : Word) (s : State) : Host.Outcome State Fault Refusal :=
  .next (
    let n := value.toNat % 32768
    if !s.fidLive fid.toNat then s
    else if s.isSet (fHOST_SQ_STATE_HI_VALID n) && s.sqFid n == fid.toNat then s.wantRecord fid.toNat n
    else s.bumpSat fHOST_COUNTS_BELL_IGNORED)

/-! ### Completion rings (R317–R320) -/

/-- CQ_HEAD_READ (R317): HEAD read for a CQ; the records it passes are no longer kept, and held records go out while there is room. -/
def execCqHeadRead (cq : RingNo) (head : Word) (s : State) : Host.Outcome State Fault Refusal :=
  .next (
    let n := cq.toNat
    if s.isSet (fHOST_CQ_STATE_HI_VALID n) && s.fidLive (s.cqFid n) then
      let c := s.cq n
      let used := (s.getF (fHOST_CQ_STATE_LO_POSTED n) + 2 ^ 32 - head.toNat) % 2 ^ 32
      let s1 := (s.emit (.hostRead (s.cqFid n) (s.dbBase (s.cqFid n) + 0x41000 + 8 * n) 8)).setCq n
        { c with head := head.toNat, live := c.live.drop (c.live.length - min used c.live.length) }
      s1.drainCq s1.host.pending.length n
    else s)

/-- RECORD_POST (R319): the oldest record held for a CQ goes out when the CQ has room. -/
def execRecordPost (cq : RingNo) (s : State) : Host.Outcome State Fault Refusal := .next (s.drainCq 1 cq.toNat)

/-- IRQ_COALESCE_TIMEOUT (R320): the earliest record since the last interrupt has waited COAL_TIME. -/
def execIrqCoalesceTimeout (cq : RingNo) (s : State) : Host.Outcome State Fault Refusal :=
  .next (if s.cqLive cq.toNat then s.irqCheck cq.toNat else s)

/-- MSIX_UNMASK (R320): a host unmasks a vector; its pending message goes out. -/
def execMsixUnmask (fid : Fid) (vec : Fin 2048) (s : State) : Host.Outcome State Fault Refusal :=
  .next (
    let f := s.fn fid.toNat
    if s.fidNames fid.toNat then
      let s1 := s.setFn fid.toNat { f with unmasked := insNat vec.val f.unmasked, msixPend := f.msixPend.filter (· != vec.val) }
      if f.msixPend.contains vec.val then s1.emit (.msix fid.toNat vec.val) else s1
    else s)

/-- NOP (R310). -/
def execNop (sq : RingNo) (s : State) : Host.Outcome State Fault Refusal := .next (s.ringCmd sq.toNat 0x00 fun st f => st.finish f 0x80 [])

end Sys2Proof.Machine
end

