-- ==== Sys2Proof/Machine/HostRings.lean ====
section
/-! DEFINITION. Rings, functions and links: creating, destroying and moving rings (R328, R329, R339, R340), FUNC_CONFIG (R330), the control pairs (R336, R343), and
what resets and failures of the host side do (R284, R285, R292, R295, R335, R338). -/

namespace Sys2Proof.Machine

open Sys2Proof

/-- The rings known, by number. -/
def State.ringNos (s : State) : List Nat := (s.host.sqs.map (·.1) ++ s.host.cqs.map (·.1)).foldl (fun l n => insNat n l) []

/-- Whether an SQ or a CQ is valid. -/
def State.sqValid (s : State) (n : Nat) : Bool := s.isSet (fHOST_SQ_STATE_HI_VALID n)
def State.cqValid (s : State) (n : Nat) : Bool := s.isSet (fHOST_CQ_STATE_HI_VALID n)

/-! ### Creating and destroying rings (R328, R329) -/

/-- An SQ as RING_CREATE or a control pair makes it. -/
def State.makeSq (s : State) (n cq log2 fid stby base prio : Nat) : State :=
  let hi := 2 ^ 31 + 2 ^ 28 * prio + 2 ^ 24 * log2 + 2 ^ 16 * fid + cq
  ((s.setF (fHOST_SQ_STATE_LO_FETCHED n) 0).setReg (fHOST_SQ_STATE_HI_VALID n).off (BitVec.ofNat 32 hi)).setSq n { base := base, stby := stby }

/-- A CQ as RING_CREATE or a control pair makes it; LOST and what is reserved stand. -/
def State.makeCq (s : State) (n log2 entry64 fid stby base : Nat) (c : Cq) : State :=
  let lost := s.getF (fHOST_CQ_STATE_HI_LOST n)
  let hi := 2 ^ 31 + 2 ^ 28 * lost + 2 ^ 27 * entry64 + 2 ^ 22 * log2 + fid * 2 ^ 8
  ((s.setF (fHOST_CQ_STATE_LO_POSTED n) 0).setReg (fHOST_CQ_STATE_HI_VALID n).off (BitVec.ofNat 32 hi)).setCq n
    { c with base := base, stby := stby, reserved := (s.cq n).reserved }

/-- Whether a FID names an enabled function (R328). -/
def State.fnOn (s : State) (fid : Nat) : Bool := s.fidNames fid && (s.fn fid).enabled

/-- The BAD_RING conditions of RING_CREATE (R328). -/
def State.createBad (s : State) (isCq : Bool) (n fid stby cq : Nat) : Bool :=
  decide (n < 8) || decide (32768 ≤ n) || (if isCq then s.cqValid n else s.sqValid n) || !s.fnOn fid ||
    (stby != 0xFF && (!s.fnOn stby || stby / 128 == fid / 128)) ||
    (!isCq && (!s.cqValid cq || s.getF (fHOST_CQ_STATE_HI_FID cq) != fid || (s.cq cq).stby != stby))

/-- RING_CREATE (R328): BAD_RING before HOST_BAD_FIELD. -/
def State.ringCreate (s : State) (f : InFlight) : State :=
  let d := f.desc
  let n := recNat d 8 2
  let isCq := recBits d 10 1 0 0 == 1
  let log2 := recNat d 11 1
  let fid := recNat d 12 1
  let stby := recNat d 13 1
  let base := recNat d 16 8
  if s.createBad isCq n fid stby (recNat d 14 2) then s.finish f 0x83 []
  else if log2 < 4 ∨ (if isCq then 16 else 15) < log2 ∨ base % 4096 ≠ 0 then s.finish f 0x85 []
  else if isCq then
    (s.makeCq n log2 (recBits d 26 1 0 0) fid stby base
      { vec := recNat d 14 2, stbyVec := recNat d 24 2, irqEn := recBits d 26 1 1 1 == 1, coalCount := recNat d 27 1, coalTime := recNat d 28 2 }).finish f 0x80 []
  else (s.makeSq n (recNat d 14 2) log2 fid stby base (recBits d 26 1 0 0)).finish f 0x80 []

/-- RING_CREATE (R328). -/
def execRingCreate (sq : RingNo) (s : State) : Host.Outcome State Fault Refusal := .next (s.ringCmd sq.toNat 0x10 State.ringCreate)

/-- Whether a CQ is some function's error CQ (R316). -/
def State.isErrCq (s : State) (n : Nat) : Bool :=
  ((List.range 4).map pfFid ++ s.host.fns.map (·.1)).any fun fid => s.errCq fid == some n

/-- An SQ, or a CQ, is no longer valid. -/
def State.dropSq (s : State) (n : Nat) : State :=
  (s.setReg (fHOST_SQ_STATE_HI_VALID n).off 0).setHost { s.host with sqs := adel s.host.sqs n }
def State.dropCq (s : State) (n : Nat) : State :=
  (s.setReg (fHOST_CQ_STATE_HI_VALID n).off 0).setHost { s.host with cqs := adel s.host.cqs n }

/-- RING_DESTROY (R329). -/
def State.ringDestroy (s : State) (f : InFlight) : State :=
  let n := recNat f.desc 8 2
  if n < 8 ∨ 32768 ≤ n then s.finish f 0x83 []
  else if recBits f.desc 10 1 0 0 = 1 then
    if !s.cqValid n then s.finish f 0x83 []
    else if ((s.host.sqs.map (·.1)).any fun m => s.sqValid m && s.getF (fHOST_SQ_STATE_HI_CQ m) == n) || s.isErrCq n || s.cqHolds n then s.finish f 0x84 []
    else (s.dropCq n).finish f 0x80 []
  else if !s.sqValid n then s.finish f 0x83 []
  else
    let s1 := s.setSq n { s.sq n with destroying := true }
    if s1.host.flights.any (·.sq == n) then s1.startFlight f n 0 else (s1.dropSq n).finish f 0x80 []

/-- RING_DESTROY (R329). -/
def execRingDestroy (sq : RingNo) (s : State) : Host.Outcome State Fault Refusal := .next (s.ringCmd sq.toNat 0x11 State.ringDestroy)

/-- RING_DESTROY_DONE (R329): the SQ's last fetched descriptor has posted its final completion. -/
def execRingDestroyDone (ring : RingNo) (s : State) : Host.Outcome State Fault Refusal :=
  .next (match s.host.flights.find? fun f => f.opcode == 0x11 && f.stage == .started && f.a == ring.toNat with
    | some f => if s.host.flights.any (·.sq == ring.toNat) then s else (s.dropSq ring.toNat).finish f 0x80 []
    | none => s)

/-! ### Moving rings (R339, R340) -/

/-- A CQ moves: HEAD read through the new function, records beyond it written again, waiting ones posted, one interrupt when any lies beyond HEAD. -/
def State.moveCq (s : State) (n : Nat) (toStby : Bool) (head : Option Nat) : State :=
  let l := s.fidLink (s.cqFid n)
  let s1 := s.setF (fHOST_CQ_STATE_HI_ON_STBY n) toStby.toNat
  let fid := s1.cqFid n
  let c := s1.cq n
  let h := head.getD c.head
  let used := (s1.getF (fHOST_CQ_STATE_LO_POSTED n) + 2 ^ 32 - h) % 2 ^ 32
  let keep := c.live.drop (c.live.length - min used c.live.length)
  let s2 := s1.setCq n { c with head := h, live := keep, irqEn := false }
  let s3 := keep.foldl (fun st e => st.emit (.hostWrite fid (c.base + e.1 % st.cqSize n * st.cqEntry n) e.2)) s2
  let s4 := s3.drainCq s3.host.pending.length n
  let s5 := s4.setCq n { s4.cq n with irqEn := c.irqEn, since := 0, irqNow := false }
  let s6 := if c.irqEn && s5.getF (fHOST_CQ_STATE_LO_POSTED n) != h then s5.sendVector fid (s5.cqVec n) else s5
  (s6.bumpSat (fHOST_LINK_FAILS l)).hostRec 1 n l fid

/-- An SQ moves: TAIL is read through the new function and fetching goes on; FETCHED stands. -/
def State.moveSq (s : State) (n : Nat) (toStby : Bool) (tail : Option Nat) : State :=
  let l := s.fidLink (s.sqFid n)
  let s1 := s.setF (fHOST_SQ_STATE_HI_ON_STBY n) toStby.toNat
  let fid := s1.sqFid n
  let s2 := (s1.bumpSat (fHOST_LINK_FAILS l)).hostRec 1 n l fid
  match tail with
  | some t => s2.sqTail n t
  | none => s2.setSq n { s2.sq n with wantRead := true }

/-- RING_MOVE (R340): BAD_RING when the function named is none or its link is not up. A ring that is there already stays. -/
def State.ringMove (s : State) (ptr : Word) (f : InFlight) : State :=
  let n := recNat f.desc 8 2
  let isCq := recBits f.desc 10 1 0 0 == 1
  let toStby := recBits f.desc 11 1 0 0 == 1
  let valid := if isCq then s.cqValid n else s.sqValid n
  let stby := if isCq then (s.cq n).stby else (s.sq n).stby
  let prim := if isCq then s.getF (fHOST_CQ_STATE_HI_FID n) else s.getF (fHOST_SQ_STATE_HI_FID n)
  let on := if isCq then s.isSet (fHOST_CQ_STATE_HI_ON_STBY n) else s.isSet (fHOST_SQ_STATE_HI_ON_STBY n)
  let target := if toStby then stby else prim
  if n < 8 ∨ 32768 ≤ n ∨ !valid ∨ stby = 0xFF ∨ !s.isSet (fHOST_LINK_UP (s.fidLink target)) then s.finish f 0x83 []
  else if on = toStby then s.finish f 0x80 []
  else (if isCq then s.moveCq n toStby (some ptr.toNat) else s.moveSq n toStby (some ptr.toNat)).finish f 0x80 []

/-- RING_MOVE (R340): `ptr` is what the read of HEAD or TAIL through the new function returns. -/
def execRingMove (sq : RingNo) (ptr : Word) (s : State) : Host.Outcome State Fault Refusal :=
  .next (s.ringCmd sq.toNat 0x12 fun st f => st.ringMove ptr f)

/-- What reads of HEAD and TAIL return during a failover: ring, whether it is a CQ, value. -/
abbrev RingPtrs := List (RingNo × Bool × Word)

/-- The value read for a ring. -/
def ptrOf (ps : RingPtrs) (n : Nat) (isCq : Bool) : Option Nat := (ps.find? fun p => p.1.toNat == n && p.2.1 == isCq).map (·.2.2.toNat)

/-- Whether a ring's standby is to be taken: it has one and is on its primary. -/
def State.mayFailOver (s : State) (n : Nat) (isCq : Bool) : Bool :=
  if isCq then (s.cq n).stby != 0xFF && !s.isSet (fHOST_CQ_STATE_HI_ON_STBY n) else (s.sq n).stby != 0xFF && !s.isSet (fHOST_SQ_STATE_HI_ON_STBY n)

/-- Disable a ring (R335). -/
def State.disableSq (s : State) (n : Nat) : State := s.setF (fHOST_SQ_STATE_HI_DISABLED n) 1
def State.disableCq (s : State) (n : Nat) : State := s.setF (fHOST_CQ_STATE_HI_DISABLED n) 1

/-- One ring of a failed link: it moves to its standby, or is disabled when `off` says so. -/
def State.failRing (s : State) (l : Nat) (off : Bool) (ps : RingPtrs) (n : Nat) : State :=
  let s1 := if s.cqValid n && s.fidLink (s.cqFid n) == l then
      (if s.mayFailOver n true then s.moveCq n true (ptrOf ps n true) else if off then s.disableCq n else s) else s
  if s1.sqValid n && s1.fidLink (s1.sqFid n) == l then
    (if s1.mayFailOver n false then s1.moveSq n true (ptrOf ps n false) else if off then s1.disableSq n else s1)
  else s1

/-- A link has failed (R338, R339): its rings move in ascending number; a failure that moves none is counted too. -/
def State.linkFail (s : State) (l : Nat) (off : Bool) (ps : RingPtrs) : State :=
  let moves := s.ringNos.any fun n =>
    (s.cqValid n && s.fidLink (s.cqFid n) == l && s.mayFailOver n true) || (s.sqValid n && s.fidLink (s.sqFid n) == l && s.mayFailOver n false)
  let s1 := s.setLink l { s.link l with failed := true }
  let s2 := if moves then s1 else s1.bumpSat (fHOST_LINK_FAILS l)
  s2.ringNos.foldl (fun st n => st.failRing l off ps n) s2

/-- Inactivity that counts as a failure, in nanoseconds (R342). -/
def State.failNs (s : State) : Nat := 100000 * (max (s.getF fHOST_CFG_FAIL_100US) 1)

/-- HOST_LINK_FAIL (R338): inactivity for FAIL_100US, or a ring read that failed (`readFailed`). PERST_N and IDE losses have commands of their own. -/
def execHostLinkFail (link : LinkIx) (readFailed : Bool) (ptrs : List (RingNo × Bool × Word)) (s : State) : Host.Outcome State Fault Refusal :=
  .next (
    let l := link.val
    let idle := !s.isSet (fHOST_LINK_UP l) && decide ((s.link l).downAt + s.failNs ≤ s.time.nowNs)
    if (s.link l).failed || !(readFailed && s.isSet (fHOST_LINK_UP l) || idle) then s else s.linkFail l false ptrs)

/-! ### Links (R283–R285, R335, R342) -/

/-- TOP.READY.HOST as the links stand (R606). -/
def State.showHostReady (s : State) : State :=
  s.setF fTOP_READY_HOST ((if s.isSet (fHOST_LINK_UP 0) || s.isSet (fHOST_LINK_UP 1) then 1 else 0) + (if s.isSet (fHOST_LINK_UP 2) || s.isSet (fHOST_LINK_UP 3) then 2 else 0))

/-- HOST_LINK_UP (R606): speed 1–6, width, and the AtomicOp Requester Enable that the host gives the link's PF (R323). -/
def execHostLinkUp (link : LinkIx) (speed : Fin 7) (width : Fin 17) (atomics : Bool) (s : State) : Host.Outcome State Fault Refusal :=
  .next (
    let l := link.val
    let pf := (l / 2) * 128 + l % 2
    if s.perst (l / 2) || s.boot.ioDead || !s.fidNames pf || speed.val = 0 || width.val = 0 then s
    else
      let s1 := ((s.setF (fHOST_LINK_UP l) 1).setF (fHOST_LINK_SPEED l) speed.val).setF (fHOST_LINK_WIDTH l) width.val
      let s2 := (s1.setF (fHOST_LINK_SUMMARY l) atomics.toNat).setFn pf { s1.fn pf with atomicEn := atomics }
      (s2.setLink l { s2.link l with failed := false }).showHostReady)

/-- A link goes inactive. -/
def State.linkDown (s : State) (l : Nat) : State :=
  let s1 := ((s.setF (fHOST_LINK_UP l) 0).setF (fHOST_LINK_SPEED l) 0).setF (fHOST_LINK_WIDTH l) 0
  (s1.setLink l { s1.link l with downAt := s1.time.nowNs }).showHostReady

/-- HOST_LINK_DOWN (R338). -/
def execHostLinkDown (link : LinkIx) (s : State) : Host.Outcome State Fault Refusal :=
  .next (if s.isSet (fHOST_LINK_UP link.val) then s.linkDown link.val else s)

/-- What a function loses when its configuration space and MSI-X table are reset. -/
def State.resetFn (s : State) (fid : Nat) : State :=
  s.setFn fid { s.fn fid with d3hot := false, vfEnable := false, atomicEn := false, unmasked := [], msixPend := [] }

/-- The functions of a port that the model holds anything of. -/
def State.portFids (s : State) (p : Nat) : List Nat := ([p * 128, p * 128 + 1] ++ (s.host.fns.map (·.1)).filter (· / 128 == p)).eraseDups

/-- PERST_ASSERT (R335, R338): the port's functions are reset, its links fail, and rings without a standby are disabled, on a link that had failed before too. -/
def execPerstAssert (port : Fin 2) (ptrs : List (RingNo × Bool × Word)) (s : State) : Host.Outcome State Fault Refusal :=
  .next (
    let p := port.val
    if s.perst p then s
    else
      let s1 := s.setHost (if p = 0 then { s.host with perst0 := true } else { s.host with perst1 := true })
      let links := if s.bif p then [2 * p, 2 * p + 1] else [2 * p]
      let s2 := links.foldl (fun st l => (((st.bumpSat (fHOST_LINK_PERST l)).linkDown l).setF (fHOST_LINK_IDE_SECURE l) 0).setLink l { (st.link l) with downAt := st.time.nowNs, ideSecure := [] }) s1
      let s3 := (s2.portFids p).foldl (fun st fid => st.resetFn fid) s2
      links.foldl (fun st l => if (st.link l).failed then st.ringNos.foldl (fun t n => t.failRing l true ptrs n) st else st.linkFail l true ptrs) s3)

/-- PERST_RELEASE (R284): STRAP_BIF is sampled; the links then train. -/
def execPerstRelease (port : Fin 2) (strapBif : Bool) (s : State) : Host.Outcome State Fault Refusal :=
  .next (
    let p := port.val
    if !s.perst p then s
    else
      let s1 := s.setHost (if p = 0 then { s.host with perst0 := false } else { s.host with perst1 := false })
      s1.setF fTOP_STRAPS_BIF (putBits (s1.getF fTOP_STRAPS_BIF) p p strapBif.toNat))

/-- Disable every ring whose current function p picks. -/
def State.disableRings (s : State) (p : Nat → Bool) : State :=
  s.ringNos.foldl (fun st n =>
    let st1 := if st.cqValid n && p (st.cqFid n) then st.disableCq n else st
    if st1.sqValid n && p (st1.sqFid n) then st1.disableSq n else st1) s

/-- The VFs of a PF cease: their rings are disabled and their own state reset (R292). -/
def State.dropVfs (s : State) (pf : Nat) : State :=
  let mine (fid : Nat) : Bool := !isPf fid && s.fidNames fid && s.vfPf fid == pf
  let s1 := s.disableRings mine
  (s1.host.fns.map (·.1)).foldl (fun st fid => if mine fid then st.resetFn fid else st) s1

/-- FUNCTION_LEVEL_RESET (R292). -/
def execFunctionLevelReset (fid : Fid) (s : State) : Host.Outcome State Fault Refusal :=
  .next (
    let f := fid.toNat
    if !s.fidNames f then s
    else
      let s1 := (s.disableRings (· == f)).resetFn f
      if isPf f then s1.dropVfs f else s1)

/-- VF_ENABLE_WRITE (R292). -/
def execVfEnableWrite (fid : Fid) (enable : Bool) (s : State) : Host.Outcome State Fault Refusal :=
  .next (
    let f := fid.toNat
    if !isPf f || !s.fidNames f then s
    else
      let s1 := s.setFn f { s.fn f with vfEnable := enable }
      if enable then s1 else s1.dropVfs f)

/-- D3HOT (R285): a function enters D3hot, or leaves it for D0. -/
def execD3hot (fid : Fid) (enter : Bool) (s : State) : Host.Outcome State Fault Refusal :=
  .next (if s.fidNames fid.toNat then s.setFn fid.toNat { s.fn fid.toNat with d3hot := enter } else s)

/-- IDE_SECURE_LOSS (R295): a stream leaves the Secure state; while IDE is required the link is treated as failed. -/
def execIdeSecureLoss (link : LinkIx) (stream : Fin 5) (ptrs : List (RingNo × Bool × Word)) (s : State) : Host.Outcome State Fault Refusal :=
  .next (
    let l := link.val
    if !(s.link l).ideSecure.contains stream.val then s
    else
      let left := (s.link l).ideSecure.filter (· != stream.val)
      let s1 := (s.setLink l { s.link l with ideSecure := left }).setF (fHOST_LINK_IDE_SECURE l) (if left.isEmpty then 0 else 1)
      if s1.isSet fHOST_CFG_IDE_REQUIRED && !(s1.link l).failed then s1.linkFail l false ptrs else s1)

/-! ### FUNC_CONFIG (R330) -/

/-- FUNC_CONFIG (R330). -/
def State.funcConfig (s : State) (f : InFlight) : State :=
  let d := f.desc
  let fid := recNat d 8 1
  let en := recBits d 9 1 0 0 == 1
  let cq := recNat d 10 2
  let db := recNat d 16 8
  let badCq := cq != 0xFFFF &&
    (decide (32768 ≤ cq) || !s.cqValid cq || !s.isSet (fHOST_CQ_STATE_HI_ENTRY_64 cq) || s.cqFid cq != fid)
  if !s.fidNames fid ∨ db % 4096 ≠ 0 ∨ (!isPf fid ∧ (recNat d 24 8 % 4096 ≠ 0 ∨ recNat d 32 8 % 4096 ≠ 0 ∨ 4096 ≤ recNat d 12 2 ∨ 4096 ≤ recNat d 14 2)) then
    s.finish f 0x85 []
  else if badCq then s.finish f 0x83 []
  else if isPf fid then
    let i := pfIx fid
    let s1 := (s.setF (fHOST_PF_DB_LO_ADDR_LO i) (db / 4096)).setF (fHOST_PF_DB_HI_ADDR_HI i) (db / 2 ^ 32)
    let s2 := if cq = 0xFFFF then s1.setF (fHOST_PF_ERR_ERR_EN i) 0 else (s1.setF (fHOST_PF_ERR_ERR_EN i) 1).setF (fHOST_PF_ERR_ERR_CQ i) cq
    (s2.setFn fid { s2.fn fid with enabled := en }).finish f 0x80 []
  else
    (s.setFn fid { s.fn fid with
      enabled := en, errCq := cq, slotLo := recNat d 12 2, slotHi := recNat d 14 2, memBase := recNat d 24 8, memSize := recNat d 32 8,
      dbBase := db }).finish f 0x80 []

/-- FUNC_CONFIG (R330). -/
def execFuncConfig (sq : RingNo) (s : State) : Host.Outcome State Fault Refusal := .next (s.ringCmd sq.toNat 0x13 State.funcConfig)

/-! ### Control rings (R336, R343) -/

/-- Whether the fields of a control pair are in their ranges (R343). -/
def State.ctlOk (s : State) (k : Nat) : Bool :=
  let cl := s.getF (fHOST_CTL_CFG_CQ_LOG2 k)
  let sl := s.getF (fHOST_CTL_CFG_SQ_LOG2 k)
  let fid := s.getF (fHOST_CTL_CFG_FID k)
  let stby := s.getF (fHOST_CTL_CFG_STBY_FID k)
  decide (4 ≤ cl) && decide (cl ≤ 16) && decide (4 ≤ sl) && decide (sl ≤ 15) && isPf fid && s.fidNames fid &&
    (stby == 0xFF || (isPf stby && s.fidNames stby && stby / 128 != fid / 128))

/-- A control pair made valid as its registers set it: counts 0, held records posted from slot 0 (R336). -/
def State.ctlStart (s : State) (k : Nat) : State :=
  let fid := s.getF (fHOST_CTL_CFG_FID k)
  let stby := s.getF (fHOST_CTL_CFG_STBY_FID k)
  let s1 := s.makeCq k (s.getF (fHOST_CTL_CFG_CQ_LOG2 k)) (s.getF (fHOST_CTL_CFG_ENTRY_64 k)) fid stby
    (4096 * (s.getF (fHOST_CTL_CQ_LO_ADDR_LO k)) + 2 ^ 32 * (s.getF (fHOST_CTL_CQ_HI_ADDR_HI k)))
    { vec := s.getF (fHOST_CTL_VEC_VECTOR k), stbyVec := s.getF (fHOST_CTL_VEC_STBY_VECTOR k), irqEn := s.isSet (fHOST_CTL_CFG_IRQ_EN k),
      coalCount := s.getF (fHOST_CTL_VEC_COAL_COUNT k), coalTime := s.getF (fHOST_CTL_COAL_COAL_TIME k) }
  let s2 := s1.makeSq k k (s.getF (fHOST_CTL_CFG_SQ_LOG2 k)) fid stby
    (4096 * (s.getF (fHOST_CTL_SQ_LO_ADDR_LO k)) + 2 ^ 32 * (s.getF (fHOST_CTL_SQ_HI_ADDR_HI k))) 0
  s2.drainCq s2.host.pending.length k

/-- A control pair no longer valid; what it holds and whether it was disabled stand. -/
def State.ctlStop (s : State) (k : Nat) : State := (s.setF (fHOST_SQ_STATE_HI_VALID k) 0).setF (fHOST_CQ_STATE_HI_VALID k) 0

/-- Whether a control pair is disabled, and its setup registers therefore open whatever SETUP_LOCK holds (R336). -/
def State.ctlDisabled (s : State) (k : Nat) : Bool := s.isSet (fHOST_SQ_STATE_HI_DISABLED k) || s.isSet (fHOST_CQ_STATE_HI_DISABLED k)

end Sys2Proof.Machine
end

