-- ==== Sys2Proof/Machine/HostCmds.lean ====
section
/-! DEFINITION. HOST_COPY (R309), the commands of the stacks (R242, R269, R273, R274, R275) and the power cap (R52). -/

namespace Sys2Proof.Machine

open Sys2Proof

/-! ### HOST_COPY (R309) -/

/-- The fields of a HOST_COPY. -/
def copyHost (d : List Byte) : Nat := recNat d 8 8
def copyDev (d : List Byte) : Nat := recBits d 16 8 39 0
def copyLen (d : List Byte) : Nat := recNat d 24 4
def copyOut (d : List Byte) : Bool := recBits d 28 1 0 0 == 1

/-- Whether a function may copy to or from a device range: any PF where LOAD and STORE may address, a VF also only within its window. -/
def State.copyMay (s : State) (fid a n : Nat) : Bool :=
  decide (a + n ≤ 2 ^ 40) && s.rangeAll a n stationMay && (isPf fid ||
    (decide ((s.fn fid).memBase ≤ a) && decide (a + n ≤ (s.fn fid).memBase + (s.fn fid).memSize)))

/-- A HOST_COPY is checked and started. -/
def State.copyStart (s : State) (f : InFlight) : State :=
  if copyLen f.desc = 0 then s.finish f 0x85 []
  else if !s.copyMay (s.sqFid f.sq) (copyDev f.desc) (copyLen f.desc) then s.finish f 0x88 []
  else s.startFlight f 0 0

/-- HOST_COPY (R309). -/
def execHostCopy (sq : RingNo) (s : State) : Host.Outcome State Fault Refusal := .next (s.ringCmd sq.toNat 0x02 State.copyStart)

/-- The bytes from address a on, of n, before the first whose place is unmapped or not ready. -/
def State.readyPrefix (s : State) (a n : Nat) : Nat :=
  match (List.range ((a + n - 1) / 4096 - a / 4096 + 1)).find? fun i => !s.placeReady (s.place (max a (4096 * (a / 4096 + i)))) with
  | some i => max a (4096 * (a / 4096 + i)) - a
  | none => n

/-- The first n bytes of a copy move: from the host the bytes given, to the host what the device holds. -/
def State.copyMove (s : State) (f : InFlight) (n : Nat) (data : List Byte) (hits : List EccHit) : State :=
  let a := copyDev f.desc
  let fid := s.sqFid f.sq
  if n = 0 then s
  else if copyOut f.desc then
    let s1 := (s.access a n false true).ecc 64 a n hits
    let bs := s1.rd a n
    (if s1.poisoned a n then s1.drew else s1).emit (.hostWrite fid (copyHost f.desc) bs)
  else ((s.emit (.hostRead fid (copyHost f.desc) n)).access a n true true).st a ((data ++ List.replicate n 0).take n)

/-- A started copy ends: all moved, or stopped after `fail` bytes by host memory, or at the first byte whose span is not ready. -/
def State.copyEnd (s : State) (f : InFlight) (data : List Byte) (fail : Option Nat) (hits : List EccHit) : State :=
  let n := copyLen f.desc
  let lim := if s.fidLive (s.sqFid f.sq) then fail.getD n else 0
  let stopped := fail.isSome || !s.fidLive (s.sqFid f.sq)
  let mapped := if s.copyMay (s.sqFid f.sq) (copyDev f.desc) n then s.readyPrefix (copyDev f.desc) n else 0
  let m := min (min lim mapped) n
  let bad := copyOut f.desc && s.poisoned (copyDev f.desc) m
  let s1 := s.copyMove f m data hits
  let bad' := bad || (copyOut f.desc && s1.poisoned (copyDev f.desc) m)
  if stopped && decide (lim ≤ mapped) then s1.finish f 0x8A []
  else if mapped < n then s1.finish f 0x88 []
  else s1.finish f (if bad' then 0x89 else 0x80) []

/-- HOST_COPY_DONE (R309): the oldest copy under way of an SQ; `data` are the bytes read from the host, `fail` the bytes moved before an access to host
memory failed. -/
def execHostCopyDone (sq : RingNo) (data : List Byte) (fail : Option Word) (hits : List EccHit) (s : State) : Host.Outcome State Fault Refusal :=
  .next (match s.host.flights.find? fun f => f.sq == sq.toNat && f.opcode == 2 && f.stage == .started with
    | some f => s.copyEnd f data (fail.map (·.toNat)) hits
    | none => s)

/-! ### Stacks -/

/-- HBM_RETIRE: refused for a page outside the 46 GiB or already retired, and when the reserve is full; else the retirement is raised (R269, R273, R275). -/
def State.hbmRetire (s : State) (f : InFlight) : State :=
  let n := recNat f.desc 8 1
  let page := recNat f.desc 12 4
  if 94208 ≤ page ∨ (aget (s.stack n).remap page).isSome then s.finish f 0x63 []
  else if s.isSet (fHBM_STATUS_RESERVE_FULL n) then s.finish f 0x62 []
  else (s.raiseRetire n page).finish f 0x60 []

/-- HBM_RETIRE (R269). -/
def execHbmRetire (sq : RingNo) (s : State) : Host.Outcome State Fault Refusal := .next (s.ringCmd sq.toNat 0x40 State.hbmRetire)

/-- HBM_REKEY: only while the span is held in L3 reset; the software-visible contents are undefined afterwards (R242). -/
def State.hbmRekey (s : State) (f : InFlight) : State :=
  let n := recNat f.desc 8 1
  if !s.faults.heldSpans.contains n then s.finish f 0x61 []
  else
    let s1 := (List.range 5).foldl (fun st k => st.setF (fHBM_KEY_MASK n k) (recNat f.desc (16 + 4 * k) 4)) s
    (s1.forgetStack n).finish f 0x60 []

/-- HBM_REKEY (R242). -/
def execHbmRekey (sq : RingNo) (s : State) : Host.Outcome State Fault Refusal := .next (s.ringCmd sq.toNat 0x41 State.hbmRekey)

/-- HBM_TEST: only while the maintenance controller owns the stack; BIST starts and overwrites its contents (R46, R274). -/
def State.hbmTest (s : State) (f : InFlight) : State :=
  let n := recNat f.desc 8 1
  if s.getF (fHBM_STATUS_OWNER n) = 0 then s.finish f 0x61 []
  else ((s.setStack n { s.stack n with bist := true }).forgetStack n).startFlight f n 0

/-- HBM_TEST (R274). -/
def execHbmTest (sq : RingNo) (s : State) : Host.Outcome State Fault Refusal := .next (s.ringCmd sq.toNat 0x42 State.hbmTest)

/-- POWER_CAP: the nearest cap of 1,200–2,400 W, reported in the completion (R52). -/
def State.powerCap (s : State) (f : InFlight) : State :=
  let w := min (max (recNat f.desc 8 2) 1200) 2400
  (s.setF fTOP_POWER_CAP_W w).finish f 0x80 (leBytes 2 w)

/-- POWER_CAP (R52). -/
def execPowerCap (sq : RingNo) (s : State) : Host.Outcome State Fault Refusal := .next (s.ringCmd sq.toNat 0x50 State.powerCap)

end Sys2Proof.Machine
end

