-- ==== Sys2Proof/Machine/Streams.lean ====
section
/-! DEFINITION. The stream commands (R194–R200, R675) and the fetches of the stream cache. -/

namespace Sys2Proof.Machine

open Sys2Proof

/-- Whether a list of stream IDs at a device address names a stream. -/
def State.listNames (s : State) (a n id : Nat) : Bool := (List.range n).any fun k => s.ldNat (a + 2 * k) 2 == id

/-- Whether a stream is busy: named by a step fetched that has posted no final status (R194). -/
def State.streamBusy (s : State) (id : Nat) : Bool :=
  s.steps.slots.any (fun e => e.2.streams.any (·.id == id)) ||
    s.host.flights.any fun f => f.opcode == 1 && f.stage == .fetched && s.listNames (recBits f.desc 32 8 39 0) (recBits f.desc 24 2 12 0) id

/-- Refuse a stream command; STREAM_BUSY and the pin codes are counted (R235). -/
def State.streamRefuse (s : State) (f : InFlight) (code : Nat) : State :=
  let s1 := if code = 0x51 then s.bumpSat fSTREAM_EVENTS_BUSY_REFUSED
    else if code = 0x53 ∨ code = 0x54 then s.bumpSat fSTREAM_EVENTS_PIN_REFUSED else s
  s1.finish f code []

/-- A FP32 code is 0 or positive and finite. -/
def fpNonNeg (w : Nat) : Bool := decide (w % 2 ^ 31 = 0) || (decide (w < 2 ^ 31) && decide (w / 2 ^ 23 % 256 < 255))

/-- Ranges of R187 of the fields an image gives, by the number STREAM_SET's mask gives them (R327): OWNER_RING, PT_ROOT, SEED, MAX_LEN, STOP_0, STOP_1, TEMPERATURE,
TOP_P, TOP_K, DUE, KEYSTONE, COMMITTED_LEN. -/
def imageFieldOk (e : List Byte) (k : Nat) : Bool :=
  let word (b : Nat) : Nat := recNat e b 4
  match k with
  | 0 => decide (recNat e 2 2 < 32768)
  | 1 => decide (recNat e 8 8 < 2 ^ 40) && decide (recNat e 8 8 % 2 ^ 14 = 0)
  | 3 => decide (1 ≤ word 48) && decide (word 48 ≤ 2097152)
  | 6 => fpNonNeg (word 60)
  | 7 => decide (0 < word 64) && decide (word 64 ≤ 0x3F800000)
  | 8 => decide (1 ≤ recNat e 68 1) && decide (recNat e 68 1 ≤ 64)
  | 10 => decide (recBits e 1 1 7 2 = 0)
  | 11 => decide (word 16 ≤ 2097152)
  | _ => true

/-- Reserved bytes of an entry that no field reaches. -/
def imageReserved (e : List Byte) : Bool :=
  recNat e 6 2 == 0 && recNat e 69 3 == 0 && (List.range 44).all fun k => e.getD (84 + k) 0 == 0

/-- The image of STREAM_OPEN is in the ranges of R187 (R327). -/
def openImageOk (e : List Byte) : Bool :=
  (List.range 12).all (imageFieldOk e) && imageReserved e && decide (recNat e 40 4 ≤ 1048575)

/-- The entry STREAM_OPEN makes of its image (R194). -/
def openEntry (e : List Byte) : List Byte :=
  [0x11, BitVec.ofNat 8 (recBits e 1 1 0 0)] ++ byteField e 2 4 ++ [0, 0] ++ byteField e 8 8 ++ byteField e 16 4 ++ byteField e 16 4 ++ leBytes 8 0 ++ byteField e 32 8 ++
    byteField e 40 4 ++ byteField e 40 4 ++ byteField e 48 20 ++ byteField e 68 1 ++ [0, 0, 0] ++ byteField e 72 8 ++ leBytes 4 0 ++ List.replicate 44 0

/-- STREAM_OPEN. -/
def State.streamOpen (s : State) (img : Option (List Byte)) (f : InFlight) : State :=
  let id := recNat f.desc 8 2
  let g := s.hostGet f (recNat f.desc 16 8) 128 img
  match g.2 with
  | none => g.1.streamRefuse f 0x56
  | some e =>
    if !openImageOk e then g.1.streamRefuse f 0x55
    else if entState (s.entry id) ≠ 0 then g.1.streamRefuse f 0x52
    else (g.1.putEntry id 0 (openEntry e)).finish f 0x50 []

/-- STREAM_OPEN (R194): `img` is what the read of the image returns. -/
def execStreamOpen (sq : RingNo) (img : Option (List Byte)) (s : State) : Host.Outcome State Fault Refusal :=
  .next (s.ringCmd sq.toNat 0x30 fun st f => st.streamOpen img f)

/-- One field of STREAM_SET taken from the image. -/
def State.setField (s : State) (id : Nat) (e : List Byte) (k : Nat) : State := match k with
  | 0 => s.putEntry id 2 (byteField e 2 2)
  | 1 => s.putEntry id 8 (byteField e 8 8)
  | 2 => s.putEntry id 32 (byteField e 32 8)
  | 3 => s.putEntry id 48 (byteField e 48 4)
  | 4 => s.putEntry id 52 (byteField e 52 4)
  | 5 => s.putEntry id 56 (byteField e 56 4)
  | 6 => s.putEntry id 60 (byteField e 60 4)
  | 7 => s.putEntry id 64 (byteField e 64 4)
  | 8 => s.putEntry id 68 (byteField e 68 1)
  | 9 => s.putEntry id 72 (byteField e 72 8)
  | 10 => s.putEntry id 1 [BitVec.ofNat 8 (putBits (recNat (s.entry id) 1 1) 0 0 (recBits e 1 1 0 0))]
  | 11 => (s.putEntry id 16 (byteField e 16 4)).putEntry id 20 (byteField e 16 4)
  | _ => s

/-- STREAM_SET. -/
def State.streamSet (s : State) (img : Option (List Byte)) (f : InFlight) : State :=
  let id := recNat f.desc 8 2
  let mask := recNat f.desc 10 2
  let ks := (List.range 12).filter mask.testBit
  let g := s.hostGet f (recNat f.desc 16 8) 128 img
  match g.2 with
  | none => g.1.streamRefuse f 0x56
  | some e =>
    let old := s.entry id
    if !ks.all (imageFieldOk e) || (ks.contains 11 && decide (recNat old 16 4 < recNat e 16 4)) ||
        (ks.contains 10 && recBits e 1 1 0 0 == 0 && recBits old 1 1 1 1 == 1) then g.1.streamRefuse f 0x55
    else if entState old = 0 then g.1.streamRefuse f 0x52
    else if s.streamBusy id then g.1.streamRefuse f 0x51
    else (ks.foldl (fun st k => st.setField id e k) g.1).finish f 0x50 []

/-- STREAM_SET (R194). -/
def execStreamSet (sq : RingNo) (img : Option (List Byte)) (s : State) : Host.Outcome State Fault Refusal :=
  .next (s.ringCmd sq.toNat 0x31 fun st f => st.streamSet img f)

/-- The committed state of an entry replaced, and nothing else of it (R194). -/
def State.putCommitted (s : State) (id st : Nat) : State :=
  s.putEntry id 0 [BitVec.ofNat 8 (putBits (recNat (s.entry id) 0 1) 2 0 st)]

/-- A command that takes a stream that is not busy from a committed state that p allows to another. -/
def State.streamMove (s : State) (f : InFlight) (p : Nat → Bool) (code : Nat) : State :=
  let id := recNat f.desc 8 2
  if !p (entState (s.entry id)) then s.streamRefuse f 0x52
  else if s.streamBusy id then s.streamRefuse f 0x51
  else (s.putCommitted id code).finish f 0x50 []

/-- STREAM_HOLD (R194). -/
def execStreamHold (sq : RingNo) (s : State) : Host.Outcome State Fault Refusal :=
  .next (s.ringCmd sq.toNat 0x32 fun st f => st.streamMove f (· == 1) 3)

/-- STREAM_RELEASE (R194). -/
def execStreamRelease (sq : RingNo) (s : State) : Host.Outcome State Fault Refusal :=
  .next (s.ringCmd sq.toNat 0x33 fun st f => st.streamMove f (· == 3) 1)

/-- PINNED of an entry set or cleared, in the cache and in HBM. -/
def State.setPinned (s : State) (id : Nat) (v : Bool) : State :=
  (if v then s.pinWay id else s.unpinWay id).putEntry id 1 [BitVec.ofNat 8 (putBits (recNat (s.entry id) 1 1) 1 1 v.toNat)]

/-- STREAM_CLOSE: unpins, then FREE (R194). -/
def execStreamClose (sq : RingNo) (s : State) : Host.Outcome State Fault Refusal :=
  .next (s.ringCmd sq.toNat 0x34 fun st f =>
    let id := recNat f.desc 8 2
    if entState (st.entry id) = 0 then st.streamRefuse f 0x52
    else if st.streamBusy id then st.streamRefuse f 0x51
    else ((st.setPinned id false).putCommitted id 0).finish f 0x50 [])

/-- STREAM_PIN (R199): a stream pinned already stays so. -/
def State.streamPin (s : State) (f : InFlight) : State :=
  let id := recNat f.desc 8 2
  let e := s.entry id
  if recBits e 1 1 0 0 = 0 then s.streamRefuse f 0x55
  else if entState e = 0 then s.streamRefuse f 0x52
  else if s.streams.pinned id then s.finish f 0x50 []
  else if 1024 ≤ s.streams.pins then s.streamRefuse f 0x53
  else if 8 ≤ s.streams.setPins id then s.streamRefuse f 0x54
  else (s.setPinned id true).finish f 0x50 []

/-- STREAM_PIN (R199). -/
def execStreamPin (sq : RingNo) (s : State) : Host.Outcome State Fault Refusal := .next (s.ringCmd sq.toNat 0x35 State.streamPin)

/-- STREAM_UNPIN (R194). -/
def execStreamUnpin (sq : RingNo) (s : State) : Host.Outcome State Fault Refusal :=
  .next (s.ringCmd sq.toNat 0x36 fun st f =>
    let id := recNat f.desc 8 2
    if entState (st.entry id) = 0 then st.streamRefuse f 0x52 else (st.setPinned id false).finish f 0x50 [])

/-- STREAM_READ (R194): `ok` says whether host memory took the 128 bytes. -/
def execStreamRead (sq : RingNo) (ok : Bool) (s : State) : Host.Outcome State Fault Refusal :=
  .next (s.ringCmd sq.toNat 0x37 fun st f =>
    let p := st.hostPut f (recNat f.desc 16 8) (st.entry (recNat f.desc 8 2)) ok
    p.1.finish f (if p.2 then 0x50 else 0x56) [])

/-- STREAM_IMPORT: all 128 bytes, while the stream is FREE and the image has STAGED clear and its reserved fields 0 (R675). -/
def State.streamImport (s : State) (img : Option (List Byte)) (f : InFlight) : State :=
  let id := recNat f.desc 8 2
  let g := s.hostGet f (recNat f.desc 16 8) 128 img
  match g.2 with
  | none => g.1.streamRefuse f 0x56
  | some e =>
    let reserved := recBits e 0 1 3 3 == 0 && recBits e 1 1 7 2 == 0 && recBits e 2 2 15 15 == 0 && recNat e 8 8 % 2 ^ 14 == 0 && decide (recNat e 8 8 < 2 ^ 40) &&
      imageReserved e
    if recBits e 0 1 7 7 = 1 ∨ !reserved then g.1.streamRefuse f 0x55
    else if entState (s.entry id) ≠ 0 then g.1.streamRefuse f 0x52
    else (g.1.putEntry id 0 e).finish f 0x50 []

/-- STREAM_IMPORT (R675). -/
def execStreamImport (sq : RingNo) (img : Option (List Byte)) (s : State) : Host.Outcome State Fault Refusal :=
  .next (s.ringCmd sq.toNat 0x75 fun st f => st.streamImport img f)

/-! ### Fetches (R197) -/

/-- A fetch ends: the entry fills a way, the next queued miss is issued, and the copies that waited for it go on. -/
def State.fetchDone (s : State) (id : Nat) : State := match s.streams.fetching.find? (·.1 == id) with
  | none => s
  | some e =>
    let c := s.streams
    let rest := dropFirst (·.1 == id) c.fetching
    let next := match c.queued with
      | [] => ({ c with fetching := rest } : StreamSt)
      | q :: qs => { c with fetching := rest ++ [(q, s.time.nowNs)], queued := qs }
    let s1 := ((s.setStreams next).maxF fSTREAM_WALK_FETCH_MAX_NS (s.time.nowNs - e.2)).loadStream id
    { s1 with steps := { s1.steps with slots := s1.steps.slots.map fun (x : Nat × Step) => (x.1, { x.2 with ctxPend := x.2.ctxPend.filter (· != id) }) } }

/-- STREAM_CACHE_FETCH_DONE (R197). -/
def execStreamCacheFetchDone (stream : Half) (s : State) : Host.Outcome State Fault Refusal := .next (s.fetchDone stream.toNat)

end Sys2Proof.Machine
end

