-- ==== Sys2Proof/Machine/Graphs.lean ====
section
/-! DEFINITION. Graph images: the checks of a registration in their order (R69–R71), registering and unregistering (R72–R78, R331). -/

namespace Sys2Proof.Machine

open Sys2Proof

/-! ### Instances (R66, R67) -/

/-- Instances per core of each type code (R66). -/
def instCount (typ : Nat) : Nat := match typ with
  | 0x1 => 4 | 0x2 => 2 | 0x3 => 1 | 0x4 => 1 | 0x5 => 1 | 0x6 => 1 | 0x7 => 1 | 0x8 => 1 | 0x9 => 2 | 0xA => 2 | 0xB => 4 | 0xC => 4 | 0xD => 1 | 0xE => 2
  | _ => 0

/-- Whether an instance byte names an instance (R67). -/
def instNamed (b : Nat) : Bool := decide (b % 16 < instCount (b / 16))

/-- The 27 instance bytes in the order of R66. -/
def instOrder : List Nat := (List.range 16).flatMap fun t => (List.range (instCount t)).map (16 * t + ·)

/-! ### The header and the directory (R69, R71 steps 1–5) -/

def imgBytes (h : List Byte) : Nat := recNat h 4 4
def imgMask (h : List Byte) : Nat := recNat h 8 16
def imgQueues (h : List Byte) : Nat := recNat h 24 2
def imgNodes (h : List Byte) : Nat := recNat h 26 2
def imgRanks (h : List Byte) : Nat := recNat h 28 2 + 1
def imgMaxStreams (h : List Byte) : Nat := recNat h 30 2
def imgScratch (h : List Byte) : Nat := recNat h 32 4
def imgDir (h : List Byte) : Nat := recNat h 40 8
def imgQueueOff (h : List Byte) : Nat := recNat h 48 8

/-- Stacks and mapped aperture: where an image may lie. -/
def inStack : Place → Bool
  | .stack _ _ => true
  | _ => false

/-- Where the n bytes of an image from address a on lie: none where they may be read, else the code (R71 step 2). -/
def State.imageAt (s : State) (a n : Nat) : Option Nat :=
  if 2 ^ 40 < a + n ∨ !s.rangeAll a n inStack then some 0x43
  else if !s.rangeAll a n s.placeReady then some 0x49 else none

/-- The remaining header checks (R71 step 4). -/
def headerOk (h : List Byte) : Bool :=
  let n := imgBytes h
  decide (1 ≤ imgQueues h) && decide (imgQueues h ≤ 4095) && decide (1 ≤ imgNodes h) && decide (1 ≤ imgMaxStreams h) && decide (imgMaxStreams h ≤ 4096) &&
    decide (imgScratch h ≤ 0x300000) && imgDir h % 64 == 0 && imgQueueOff h % 64 == 0 && decide (imgDir h + 2048 ≤ n) &&
    decide (imgQueueOff h + 16 * imgQueues h ≤ n) && recNat h 60 4 == 0

/-- The cores with a program, and a core's directory entry: offset and length of its program. -/
def imgCores (h : List Byte) : List Nat := (List.range 128).filter (imgMask h).testBit
def dirOff (img : List Byte) (c : Nat) : Nat := recNat img (imgDir img + 16 * c) 8
def dirLen (img : List Byte) (c : Nat) : Nat := recNat img (imgDir img + 16 * c + 8) 4

/-- A core's directory entry is in range (R71 step 5). -/
def dirOk (img : List Byte) (c : Nat) : Bool :=
  dirOff img c % 32 == 0 && dirLen img c != 0 && dirLen img c % 32 == 0 && decide (dirOff img c + dirLen img c ≤ imgBytes img) &&
    recNat img (imgDir img + 16 * c + 12) 4 == 0

/-! ### Queue entries (R65, R71 steps 6 and 7) -/

/-- The 16 bytes of queue q's entry, as a number. -/
def queueWord (img : List Byte) (q : Nat) : Nat := recNat img (imgQueueOff img + 16 * q) 16

/-- A queue as its entry sets it up, empty, its producer holding every credit (R58, R65). -/
def queueOf (w : Nat) : Queue :=
  { kind := bitsOf w 127 124, cls := bitsOf w 123 120, prodCore := bitsOf w 119 113, prodInst := bitsOf w 112 105, consCore := bitsOf w 104 98,
    consInst := bitsOf w 97 90, depth := bitsOf w 89 84 + 1, slotUnits := bitsOf w 83 73, peerRank := bitsOf w 63 48, peerQueue := bitsOf w 47 36,
    slotOffset := bitsOf w 21 0, credits := bitsOf w 89 84 + 1 }

/-- A queue entry passes the checks of R71 step 6. -/
def queueOk (img : List Byte) (w : Nat) : Bool :=
  let u := queueOf w
  let fromRx := u.prodInst / 16 == 0xC
  let toTx := u.consInst / 16 == 0xB
  let has (c : Nat) : Bool := (imgMask img).testBit c
  bitsOf w 72 64 == 0 && bitsOf w 35 22 == 0 && decide (u.kind ≤ 2) &&
    (if u.kind = 2 then u.cls == 4 || u.cls == 5 || (u.cls == 0 && decide (u.slotUnits * 64 ≤ 1024)) else u.cls == 0) &&
    decide (1 ≤ u.slotUnits) && decide (u.slotUnits ≤ 1025) && u.slotOffset % 64 == 0 && instNamed u.prodInst && instNamed u.consInst &&
    has u.prodCore && has u.consCore &&
    (match u.kind with
      | 0 => u.prodCore == u.consCore
      | 1 => u.prodCore != u.consCore
      | _ => fromRx != toTx) &&
    (if u.kind = 2 then decide (u.peerRank < imgRanks img) else u.peerRank == 0 && u.peerQueue == 0)

/-- The queues of an image. -/
def imgQueueList (img : List Byte) : List (Nat × Queue) := (List.range (imgQueues img)).map fun q => (q, queueOf (queueWord img q))

/-- The slot array of a queue in its consumer's scratchpad: first byte and bytes. -/
def Queue.array (u : Queue) : Nat × Nat := (u.slotOffset, u.depth * u.slotUnits * 64)

/-- Whether the slot arrays on a core lie within SCRATCH_BYTES and do not overlap (R71 step 7). -/
def scratchOk (img : List Byte) (c : Nat) : Bool :=
  let arrs := ((imgQueueList img).filter fun e => e.2.consCore == c).map fun e => e.2.array
  arrs.all (fun a => decide (a.1 + a.2 ≤ imgScratch img)) &&
    (List.range arrs.length).all fun i => (List.range arrs.length).all fun j =>
      decide (j ≤ i) || match arrs[i]?, arrs[j]? with
        | some a, some b => decide (a.1 + a.2 ≤ b.1) || decide (b.1 + b.2 ≤ a.1)
        | _, _ => true

/-! ### Programs (R70, R71 step 8) -/

/-- A queue field is unused, or names a queue that the instance consumes (or produces). -/
def namesIn (img : List Byte) (core inst q : Nat) : Bool :=
  q == noQ || (decide (q < imgQueues img) && (queueOf (queueWord img q)).consCore == core && (queueOf (queueWord img q)).consInst == inst)
def namesOut (img : List Byte) (core inst q : Nat) : Bool :=
  q == noQ || (decide (q < imgQueues img) && (queueOf (queueWord img q)).prodCore == core && (queueOf (queueWord img q)).prodInst == inst)

/-- An op other than END passes the checks of R71 step 8. -/
def opOk (img : List Byte) (core inst : Nat) (op : List Byte) : Bool :=
  opCode op != 0xFF && decide (1 ≤ opRepeat op) && opF op 0 1 0 == 0 && namesIn img core inst (opInA op) && namesIn img core inst (opInB op) &&
    namesOut img core inst (opOut op) && (inst / 16 != 0x4 || namesIn img core inst (passInE op)) &&
    (inst / 16 != 0x6 || opCode op != 0x01 || namesIn img core inst (opF op 2 31 20))

/-- An END op is 0 but for OPCODE and NODE_ID. -/
def endOk (op : List Byte) : Bool := onlyBits op 0 32 [(14, 2, 0xFFFF)]

/-- A core's program read op by op: the offsets at which the instances' lists begin, or the offset of the first op that fails, a missing END at the program's
end and bytes after the 27th END among them. `fuel` bounds the ops. -/
def walkProgram (img : List Byte) (core stop : Nat) : Nat → List Nat → Nat → List Nat → Nat ⊕ List Nat
  | 0, _, pc, _ => .inl pc
  | _ + 1, [], pc, acc => if pc = stop then .inr acc else .inl pc
  | f + 1, i :: is, pc, acc =>
    if stop ≤ pc then .inl stop
    else
      let op := byteField img pc 32
      if opCode op = 0 then
        if !endOk op then .inl pc
        else match is with
          | [] => walkProgram img core stop f [] (pc + 32) acc
          | _ :: _ => walkProgram img core stop f is (pc + 32) (acc ++ [pc + 32])
      else if opOk img core i op then walkProgram img core stop f (i :: is) (pc + 32) acc
      else .inl pc

/-- A core's program walked from its directory entry. -/
def coreProgram (img : List Byte) (c : Nat) : Nat ⊕ List Nat :=
  let off := dirOff img c
  walkProgram img c (off + dirLen img c) (dirLen img c / 32 + 2) instOrder off [off]

/-- The first core program that fails: the offset of its failing op. -/
def badProgram (img : List Byte) : Option Nat := (imgCores img).findSome? fun c => match coreProgram img c with
  | .inl pc => some pc
  | .inr _ => none

/-- The check of an image at an address: the code and offset of the first failure, or its bytes (R71 steps 1–8). -/
def State.checkImage (s : State) (a : Nat) : (Nat × Nat) ⊕ List Byte :=
  match s.imageAt a 64 with
  | some c => .inl (c, 0)
  | none =>
    let h := s.rd a 64
    if recNat h 0 4 ≠ 0x01000001 then .inl (0x41, 0)
    else if imgBytes h < 64 ∨ 0x4000000 < imgBytes h then .inl (0x43, 0)
    else match s.imageAt a (imgBytes h) with
      | some c => .inl (c, 0)
      | none =>
        let img := s.rd a (imgBytes h)
        if crc32c (img.take 56 ++ [0, 0, 0, 0] ++ img.drop 60) ≠ recNat img 56 4 then .inl (0x42, 0)
        else if !headerOk img || !(imgCores img).all (dirOk img) then .inl (0x43, 0)
        else match (List.range (imgQueues img)).find? fun q => !queueOk img (queueWord img q) with
          | some q => .inl (0x44, imgQueueOff img + 16 * q)
          | none =>
            if !(List.range 128).all (scratchOk img) then .inl (0x45, 0)
            else match badProgram img with
              | some pc => .inl (0x46, pc)
              | none => .inr img

/-! ### Registering (R72–R78, R331) -/

/-- Whether a step that names a handle is outstanding (R76). -/
def State.handleBusy (s : State) (h : Nat) : Bool :=
  s.steps.slots.any (fun e => e.2.handle == h) || s.host.flights.any fun f => f.opcode == 1 && f.stage == .fetched && recNat f.desc 8 4 == h

/-- The handle of a registered slot (R72). -/
def State.handleOf (s : State) (slot : Nat) (g : GraphSlot) : Nat := 2 ^ 24 * (s.getF fTOP_GRAPH_EPOCH_EPOCH) + 4096 * g.gen + slot

/-- Whether a handle matches a current registration (R75). -/
def State.handleOk (s : State) (h : Nat) : Bool := match aget s.steps.graphs (h % 4096) with
  | some g => g.reg && s.handleOf (h % 4096) g == h
  | none => false

/-- s with a graph slot replaced. -/
def State.setGraph (s : State) (slot : Nat) (g : GraphSlot) : State := { s with steps := { s.steps with graphs := aput s.steps.graphs slot g } }

/-- What a registration records of an image (R77). -/
def graphSlotOf (gen a : Nat) (img : List Byte) : GraphSlot :=
  { gen := gen, reg := true, addr := a, bytes := imgBytes img, mask := imgMask img, ranks := imgRanks img, maxStreams := imgMaxStreams img
    starts := (imgCores img).filterMap fun c => match coreProgram img c with
      | .inr l => some (c, l)
      | .inl _ => none
    ends := (imgCores img).map fun c => (c, dirOff img c + dirLen img c) }

/-- GRAPH_REGISTER. -/
def State.graphRegister (s : State) (f : InFlight) : State :=
  let a := recBits f.desc 8 8 39 0
  let slot := recNat f.desc 16 2
  let fail (st : State) (code off : Nat) : State := st.finish f code (leBytes 4 0 ++ leBytes 4 (if code = 0x44 ∨ code = 0x46 then off else 0))
  if a % 64 ≠ 0 then fail s 0x43 0
  else if s.getF fTOP_STEP_CFG_GRAPH_SLOTS_M1 < slot then fail s 0x47 0
  else match s.checkImage a with
    | .inl e => fail s e.1 e.2
    | .inr img =>
      let old := (aget s.steps.graphs slot).getD {}
      if old.reg && s.handleBusy (s.handleOf slot old) then fail s 0x48 0
      else
        let g := graphSlotOf ((old.gen + 1) % 4096) a img
        let s1 := s.setGraph slot g
        s1.finish f 0x40 (leBytes 4 (s1.handleOf slot g))

/-- GRAPH_REGISTER (R71, R331). -/
def execGraphRegister (sq : RingNo) (s : State) : Host.Outcome State Fault Refusal := .next (s.ringCmd sq.toNat 0x20 State.graphRegister)

/-- GRAPH_UNREGISTER (R76). -/
def State.graphUnregister (s : State) (f : InFlight) : State :=
  let h := recNat f.desc 8 4
  if s.getF fTOP_STEP_CFG_GRAPH_SLOTS_M1 < h % 4096 then s.finish f 0x47 []
  else if !s.handleOk h then s.finish f 0x4A []
  else if s.handleBusy h then s.finish f 0x48 []
  else (s.setGraph (h % 4096) { (aget s.steps.graphs (h % 4096)).getD {} with reg := false }).finish f 0x40 []

/-- GRAPH_UNREGISTER (R76). -/
def execGraphUnregister (sq : RingNo) (s : State) : Host.Outcome State Fault Refusal := .next (s.ringCmd sq.toNat 0x21 State.graphUnregister)

end Sys2Proof.Machine
end

