-- ==== Sys2Proof/Machine/Submit.lean ====
section
/-! DEFINITION. Submitting a step (R79–R81, R307, R308) and resolving one (R106, R107, R332). -/

namespace Sys2Proof.Machine

open Sys2Proof

/-- The stream list of a descriptor: its address and the IDs (R79). -/
def descList (d : List Byte) : Nat := recBits d 32 8 39 0
def descCount (d : List Byte) : Nat := recBits d 24 2 12 0
def State.idsAt (s : State) (a n : Nat) : List Nat := (List.range n).map fun k => s.ldNat (a + 2 * k) 2

/-- Whether a step has already run under attempt 15 (R80). -/
def State.ran15 (s : State) (slice seq : Nat) : Bool :=
  s.steps.resolved.any (fun r => r.slice == slice && r.seq == seq && r.attempt == 15 && r.ran) ||
    s.steps.slots.any fun e => e.2.slice == slice && e.2.seq == seq && e.2.attempt == 15 && e.2.ran

/-- The descriptor's own fields are in range (R80, first part, and the place of the stream list). -/
def State.descFieldsOk (s : State) (d : List Byte) : Bool :=
  let n := descCount d
  let slice := recNat d 12 2
  decide (1 ≤ n) && decide (n ≤ 4096) && !(recBits d 22 1 3 0 == 15 && s.ran15 slice (recNat d 16 6)) &&
    !(recBits d 28 4 23 0 == 0 && decide (1 < s.sliceRanks slice)) && !(recNat d 40 8 != 0 && !s.ftSet) &&
    descList d % 64 == 0 && decide (descList d + 2 * n ≤ 2 ^ 40) && s.rangeAll (descList d) (2 * n) stationMay && s.rangeAll (descList d) (2 * n) s.placeReady

/-- The check of a step: the REJECTED_ code of the first that fails, in the order descriptor, handle, limits of the image, slice, streams (R75, R80, R81, R308). -/
def State.submitCheck (s : State) (fid : Nat) (d : List Byte) : Option Nat :=
  let h := recNat d 8 4
  let slice := recNat d 12 2
  let g := (aget s.steps.graphs (h % 4096)).getD {}
  let f := s.fn fid
  let n := descCount d
  let ids := s.idsAt (descList d) n
  if !s.descFieldsOk d then some 0x32
  else if !s.handleOk h then some 0x30
  else if !isPf fid && (decide (h % 4096 < f.slotLo) || decide (f.slotHi < h % 4096)) then some 0x30
  else if g.maxStreams < n then some 0x32
  else if !isPf fid && (decide (descList d < f.memBase) || decide (f.memBase + f.memSize < descList d + 2 * n)) then some 0x32
  else if !s.sliceValid slice || s.rankEndpoint slice (recNat d 14 2) != s.ownId || decide (s.sliceRanks slice ≤ recNat d 14 2) ||
      s.sliceRanks slice != g.ranks then some 0x33
  else if ids.eraseDups.length ≠ n ∨ !ids.all (fun id => entState (s.entry id) == 1) then some 0x31
  else if !isPf fid && !ids.all (fun id => s.cqValid (recBits (s.entry id) 2 2 14 0) && s.cqFid (recBits (s.entry id) 2 2 14 0) == fid) then some 0x31
  else none

/-- The step a descriptor asks for, QUEUED. -/
def State.newStep (s : State) (f : InFlight) (fid : Nat) : Step :=
  let d := f.desc
  { sq := f.sq, tag := f.tag, irqNow := f.irqNow, fid := fid, fetchNo := f.no, handle := recNat d 8 4, slice := recNat d 12 2, rank := recNat d 14 2,
    seq := recNat d 16 6, attempt := recBits d 22 1 3 0, trapNan := recBits d 22 1 4 4 == 1, deadlineUs := recBits d 28 4 23 0, listAddr := descList d,
    startTime := recNat d 40 8, ranks := s.sliceRanks (recNat d 12 2), onAction := recNat d 40 8 == 2 ^ 64 - 1
    streams := (s.idsAt (descList d) (descCount d)).map fun id => { id := id } }

/-- STEP_SUBMIT: rejected, aborted at once under the early-abort table (R89), or QUEUED. -/
def State.stepSubmit (s : State) (f : InFlight) : State :=
  let fid := s.sqFid f.sq
  let t := s.newStep f fid
  match s.submitCheck fid f.desc with
  | some code => s.finish f code (stepBody { t with streams := [] } false s.ftOrZero 0)
  | none =>
    let hit (e : EarlyAbort) : Bool := e.slice == t.slice && e.seq == t.seq && e.attempt == t.attempt
    match s.steps.early.find? hit with
    | some e =>
      let s1 := { s with steps := { s.steps with early := dropFirst hit s.steps.early } }
      (s1.countAbort).finish f 0x11 (stepBody t true s1.ftOrZero e.cause)
    | none => match s.freeSlot with
      | some i => ((s.setFlight { f with stage := .started }).setStep i t).startCopies
      | none => s.finish f 0x34 []

/-- STEP_SUBMIT (R307). -/
def execStepSubmit (sq : RingNo) (s : State) : Host.Outcome State Fault Refusal := .next (s.ringCmd sq.toNat 0x01 State.stepSubmit)

/-! ### RESOLVE_STEP (R106, R107, R332) -/

/-- Listed streams that hold staged changes. -/
def State.stagedOf (s : State) (ids : List Nat) : List Nat := ids.eraseDups.filter fun id => recBits (s.entry id) 0 1 7 7 == 1

/-- The driver's decision ends the step of a slot: COMMITTED, or ABORTED_RESOLVED. -/
def State.resolveAs (s : State) (i : Nat) (commit : Bool) : State :=
  if commit then s.commitStep i { commit := true }
  else ((s.modStep i fun t => { t with cause := 0 }).countAbort).abortPost i 0x14

/-- RESOLVE_STEP. -/
def State.resolveStep (s : State) (f : InFlight) : State :=
  let d := f.desc
  let slice := recNat d 8 2
  let seq := recNat d 10 6
  let att := recBits d 16 1 3 0
  let dec := recBits d 16 1 5 4
  let n := recNat d 18 2
  let a := recBits d 24 8 39 0
  let held := s.steps.slots.find? fun e => e.2.slice == slice && e.2.seq == seq && e.2.attempt == att && e.2.phase == .inDoubt
  if (dec ≠ 1 ∧ dec ≠ 2) ∨ 4096 < n then s.finish f 0x85 []
  else if n = 0 then match held with
    | none => s.finish f 0x86 []
    | some e =>
      let k := (s.stagedOf (e.2.streams.map (·.id))).length
      (s.resolveAs e.1 (dec == 1)).finish f 0x80 (leBytes 2 k)
  else if 2 ^ 40 < a + 2 * n ∨ !s.rangeAll a (2 * n) stationMay ∨ !s.rangeAll a (2 * n) s.placeReady then s.finish f 0x85 []
  else
    let ids := s.stagedOf (s.idsAt a n)
    let s1 := ids.foldl (fun st id => (if dec = 1 then st.commitEntry id else st.unstage id).useStream id) s
    let s2 := match held with
      | some e =>
        let t := { e.2 with phase := (if dec = 1 then .committed else .aborted), applied := some { commit := dec == 1 } }
        let s3 := if dec = 1 then (s1.postStep t 0x00 0).bumpWrap fTOP_STEP_COMMITS_COUNT else (s1.postStep t 0x14 0).countAbort
        ((s3.postExcluded t).traceStepEnd t (if dec = 1 then 0x00 else 0x14) 0).resolveSlot e.1 t (dec == 1)
      | none => s1
    s2.finish f 0x80 (leBytes 2 ids.length)

/-- RESOLVE_STEP (R332). -/
def execResolveStep (sq : RingNo) (s : State) : Host.Outcome State Fault Refusal := .next (s.ringCmd sq.toNat 0x22 State.resolveStep)

end Sys2Proof.Machine
end

