-- ==== Sys2Proof/Machine/PortOps.lean ====
section
/-! DEFINITION. The shared operations on optical ports and sub-ports: their states and registers (R376, R390), identity records (R370–R374), lanes and widths (R363–R368), line
keys (R704–R706), and what makes a sub-port available (R375, R403, R410, R416). -/

namespace Sys2Proof.Machine

open Sys2Proof

/-! ### Access -/

/-- A port, and a sub-port. -/
def State.port (s : State) (p : Nat) : PortSt := (aget s.ports p).getD {}
def State.modPort (s : State) (p : Nat) (f : PortSt → PortSt) : State := { s with ports := aput s.ports p (f (s.port p)) }
def State.sub (s : State) (p q : Nat) : SubPort := (aget s.subs (p * 16 + q)).getD {}
def State.setSub (s : State) (p q : Nat) (u : SubPort) : State := { s with subs := aput s.subs (p * 16 + q) u }
def State.modSub (s : State) (p q : Nat) (f : SubPort → SubPort) : State := s.setSub p q (f (s.sub p q))

/-- The sub-ports of a port: sublinks 0–15 of a split one, else 0 alone. -/
def State.subsOf (s : State) (p : Nat) : List Nat := if (s.port p).split then List.range 16 else [0]

/-- Whether (p, q) names a sub-port of the mode in force. -/
def State.subNamed (s : State) (p q : Nat) : Bool := decide (p < 34) && (s.subsOf p).contains q

/-- ACTIVE or DEGRADED. -/
def SubPort.up (u : SubPort) : Bool := u.state == 4 || u.state == 5

/-- The number under which tables and schedules know a port: a spare that substitutes answers for the port it replaces (R369, R402, R413). -/
def State.roleOf (s : State) (p : Nat) : Nat := if s.isSet (fLNK_STATUS_SUBST p) then s.getF (fLNK_STATUS_ALIAS p) else p

/-- The port that carries the traffic of a numbered port. -/
def State.physPort (s : State) (x : Nat) : Nat :=
  match [32, 33].find? fun p => s.isSet (fLNK_STATUS_SUBST p) && s.getF (fLNK_STATUS_ALIAS p) == x with
  | some p => p
  | none => x

/-- The type of a port: 0 TRAY, 1 GROUP, 2 GLOBAL, 3 NONE (R402). -/
def State.portType (s : State) (p : Nat) : Nat := s.getF (fRTE_PORT_CFG_TYPE (s.roleOf p))

/-- Widths by the code of WIDTH_MAX. -/
def widthOf (code : Nat) : Nat := 16 / 2 ^ code
def widthCode (w : Nat) : Nat := if w = 16 then 0 else if w = 8 then 1 else if w = 4 then 2 else 3

/-! ### Registers (R390) -/

/-- The registers of a sub-port as its state makes them, with the port's bit of TOP.READY_LNK (R606). -/
def State.showSub (s : State) (p q : Nat) : State :=
  let u := s.sub p q
  let id := recNat u.peer 0 3 % 2 ^ 21
  let s1 := if (s.port p).split then
      (((s.setF (fLNK_SUB_STATE p q) u.state).setF (fLNK_SUB_DEGRADED_CAPS p q) u.degCaps.toNat).setF (fLNK_SUB_PEER_ID p q) id).setF
        (fLNK_SUB_CAUSE_FAIL_CAUSE p q) u.cause
    else s
  let s2 := if q = 0 then
      let s3 := (((((s1.setF (fLNK_STATUS_STATE p) u.state).setF (fLNK_STATUS_SWING p) u.swing.isSome.toNat).setF (fLNK_STATUS_DEGRADED_CAPS p) u.degCaps.toNat).setF
        (fLNK_STATUS_FAIL_CAUSE p) u.cause).setF (fLNK_STATUS_FAILS_IN_ROW p) (min u.failsInRow 15)).setF (fLNK_STATUS_WIDTH p) (widthCode u.width)
      ((((s3.setF (fLNK_PEER_PEER_PORT p) (recBits u.peer 6 1 5 0)).setF (fLNK_PEER_PEER_ID p) id).setF (fLNK_PEER_CAPS_CAPS p) (recNat u.peer 8 4)).setF
        (fLNK_RTT_RTT_NS p) u.rtt).setF (fLNK_RTT_HOLD_NS p) u.hold
    else s1
  let ready := ((s2.subsOf p).any fun k => (s2.sub p k).up).toNat
  if p < 32 then s2.setF fTOP_READY_LNK_LO_PORTS (putBits (s2.getF fTOP_READY_LNK_LO_PORTS) p p ready)
  else s2.setF fTOP_READY_LNK_HI_PORTS (putBits (s2.getF fTOP_READY_LNK_HI_PORTS) (p - 32) (p - 32) ready)

/-- A PORT record (R649). -/
def State.portRec (s : State) (p q cause chans : Nat) : State :=
  s.errRec { typ := 0x07, sev := 2, unitKind := 7, unitIx := p * 16 + (if (s.port p).split then q else 15), arg0 := cause, arg1 := recNat (s.sub p q).peer 0 3 % 2 ^ 21,
             arg2 := chans }

/-! ### Line keys (R704–R706) -/

/-- Whether a codeword number has reached a fabric time. -/
def noReached (n t : Nat) : Bool := decide (4 * t ≤ 85 * n)

/-- The key in force for a codeword numbered n. -/
def SubPort.keyAt (u : SubPort) (n : Nat) : Option LineKey := match u.nextKey with
  | some k => if noReached n k.activateAt then some k else u.key
  | none => u.key

/-- SEC.CRYPT of a port as its keys make it. -/
def State.showKey (s : State) (p : Nat) : State :=
  let id := match (s.sub p 0).key with | some k => k.id | none => 0
  (s.setF (fSEC_CRYPT0_ACTIVE p) (decide (id ≠ 0)).toNat).setF (fSEC_CRYPT0_KEY_ID p) id

/-- A sub-port's keys discarded (R706). -/
def State.dropKeys (s : State) (p q : Nat) : State :=
  if (s.sub p q).key.isNone && (s.sub p q).nextKey.isNone then s
  else (s.modSub p q fun u => { u with key := none, nextKey := none }).showKey p

/-- Whether REQUIRED keeps a sub-port from carrying cells (R706). -/
def State.keyWanting (s : State) (p q : Nat) : Bool := s.isSet (fSEC_CRYPT0_REQUIRED p) && (s.sub p q).key.isNone

/-- The order of the two ends of a link: whether this one has the lower (ENDPOINT_ID, PORT, SUBLINK) (R372, R704). -/
def identKey (r : List Byte) : Nat := 4096 * (recNat r 0 3 % 2 ^ 21) + recBits r 6 1 5 0 * 16 + recBits r 7 1 3 0
def SubPort.lower (u : SubPort) : Bool := decide (identKey u.ident < identKey u.peer)

/-- The nonce of a codeword: SALT in bits [95:64], its number in bits [63:0] (R705). -/
def gcmNonce (k : LineKey) (n : Nat) : List Byte := leBytes 12 (2 ^ 64 * k.salt + n)

/-- A payload of `bits` bits encrypted: the text in the bits before the last 128, the tag in those. -/
def sealPayload (k : LineKey) (own : Bool) (n bits v : Nat) : Nat :=
  let tb := bits - 128
  let nb := (tb + 7) / 8
  let o := Config.aesGcm (if own then k.lo else k.hi) (gcmNonce k n) [] (leBytes nb (v % 2 ^ tb))
  leNat (o.take nb) % 2 ^ tb + (leNat ((o.drop nb).take 16)) * 2 ^ tb

/-- A payload opened: none where its tag fails. `own` says that KEY_LO is the peer's sending key. -/
def openPayload (k : LineKey) (peerLow : Bool) (n bits v : Nat) : Option Nat :=
  let tb := bits - 128
  let nb := (tb + 7) / 8
  (Config.aesGcmOpen (if peerLow then k.lo else k.hi) (gcmNonce k n) [] (leBytes nb (v % 2 ^ tb) ++ leBytes 16 (v / 2 ^ tb))).map leNat

/-! ### States (R376, R377) -/

/-- Words of a preset. -/
def State.preWord (s : State) (p k w : Nat) : Nat := s.getF (fLNK_PRESET_WORD p k w)
def State.setPreWord (s : State) (p k w v : Nat) : State := s.setF (fLNK_PRESET_WORD p k w) v

/-- A PRESET_WRITE carried out: HEAD, PEER_PORT and SWITCH_NS; with CLEAR also TAG, the lane entries and LEARNED (R388). -/
def State.presetWrite (s : State) (f : InFlight) : State :=
  let d := f.desc
  let p := recNat d 8 1
  let k := recNat d 9 1
  let h := 2 ^ 31 * (recBits d 10 1 0 0) + recNat d 12 4
  let clear := recBits d 10 1 1 1 == 1
  let keep := if clear then 0 else 2 ^ 30 * (s.preWord p k 0 / 2 ^ 30 % 2)
  let s1 := (s.setPreWord p k 0 (h + keep)).setPreWord p k 1 (recNat d 16 1 + 65536 * (recNat d 18 2))
  (if clear then (2 :: (List.range 18).map (· + 4)).foldl (fun st w => st.setPreWord p k w 0) s1 else s1).finish f 0x90 []

/-- The PRESET_WRITEs that waited for a port's swing to end are carried out, once none is in progress (R388). -/
def State.presetDone (s : State) (p : Nat) : State :=
  if (s.sub p 0).swing.isSome || (s.port p).presetWait.isEmpty then s
  else (s.port p).presetWait.foldl (fun st n => match st.host.flights.find? fun f => f.no == n with
    | some f => st.presetWrite f
    | none => st) (s.modPort p fun v => { v with presetWait := [] })

/-- A sub-port enters a state, with its cause when one is given. Leaving ACTIVE or DEGRADED ends its keys, and is counted when it leads back to LIGHT or LOCK. -/
def State.enterSub (s : State) (p q st : Nat) (cause : Option Nat) : State :=
  let u := s.sub p q
  let left := u.up && st != 4 && st != 5
  let s1 := s.setSub p q { u with state := st, since := s.time.nowNs, cause := cause.getD u.cause }
  let s2 := if left then s1.dropKeys p q else s1
  let s3 := if left && (st == 1 || st == 2) then s2.bumpSat (fLNK_EVENTS_LOCK_LOSS p) else s2
  (s3.showSub p q).presetDone p

/-- What a sub-port forgets when its link starts over: the codewords kept, the bits not sent, what it was told. -/
def SubPort.fresh (u : SubPort) (full : Bool) : SubPort :=
  { u with store := [], resend := [], replay := none, replayTo := none, await := none, nakDue := 0, tx := {}, txReal := 0, rx := {}, ctlOut := [], ctlAt := [], ctlIn := [],
           linkIn := [], echoes := [], rtts := [], thetas := [], cert := [], authOk := false, mixed := false, reauth := false, laneMove := false, naks := [], badCtl := [], full := full,
           trainSeen := 0, txNext := none, rxNext := none }

/-- SPARES as the lane map in force makes it: which spare channels carry a lane, and which. -/
def State.showSpares (s : State) (p : Nat) : State :=
  let m := (s.sub p 0).txMap
  let lane (c : Nat) : Nat := (m.findIdx? (· == c)).getD 0
  (((s.setF (fLNK_SPARES_S16_USED p) (m.contains 16).toNat).setF (fLNK_SPARES_S16_LANE p) (lane 16)).setF (fLNK_SPARES_S17_USED p) (m.contains 17).toNat).setF
    (fLNK_SPARES_S17_LANE p) (lane 17)

/-- A sub-port goes to LIGHT and trains again in full, unless a rail has shut the I/O side (R578): lane maps start over, credits start from 0. `count` says that a training has failed; the eighth in a row
quarantines it (R376, R377). -/
def State.toLight (s : State) (p q : Nat) (cause : Option Nat) (count : Bool) : State :=
  let u := s.sub p q
  let n := if count then u.failsInRow + 1 else u.failsInRow
  let w := if (s.port p).split then 1 else widthOf (s.getF (fLNK_CFG_WIDTH_MAX p))
  let ids := if (s.port p).split then [q] else List.range w
  if s.boot.ioDead then s else
  let s1 := s.setSub p q { (u.fresh true) with failsInRow := n, swing := none, width := w, txMap := ids, rxMap := ids, occ := [], freed := [], freedSent := [], freedPeer := [],
                                               stall := none, kStall := none, landing := [], demote := [], state := u.state }
  (s1.showSpares p).enterSub p q (if 8 ≤ n ∧ count then 7 else 1) cause

/-- Lasers of a port turned on or off. -/
def State.setLit (s : State) (p : Nat) (on : Bool) : State :=
  if (s.port p).lit = on ∨ (on ∧ s.boot.ioDead) then s
  else
    let s1 := s.modPort p fun v => { v with lit := on, anyLight := s.time.nowNs, shut := false, probeEnd := none }
    (List.range 16).foldl (fun st c => st.emit (.light p c on)) (s1.setF (fLNK_STATUS_OPEN_FIBRE p) 0)

/-- A whole port to DARK. -/
def State.darkPort (s : State) (p cause : Nat) : State :=
  let s1 := (List.range 16).foldl (fun st q => if (st.sub p q).state = 0 ∧ q ≠ 0 then st
    else (st.modSub p q fun u => { (u.fresh true) with swing := none, state := u.state }).enterSub p q 0 (some cause)) s
  s1.setLit p false

/-- A whole port trains, in the mode CFG.SPLIT gives it. -/
def State.lightPort (s : State) (p : Nat) : State :=
  let s1 := s.modPort p fun v => { v with split := s.isSet (fLNK_CFG_SPLIT p) }
  let s2 := (List.range 16).foldl (fun st q => if (st.sub p q).state = 0 ∨ (st.subsOf p).contains q then st else st.enterSub p q 0 none) s1
  (s2.subsOf p).foldl (fun st q => st.toLight p q none false) (s2.setLit p true)

/-- A sub-port into QUARANTINE with a cause; the IDENT attempt failed. -/
def State.quarantine (s : State) (p q cause : Nat) : State := (s.enterSub p q 7 (some cause)).bumpSat (fLNK_EVENTS_IDENT_FAIL p)

/-! ### Identity (R370–R374) -/

/-- The capabilities this device advertises: all nine. -/
def ownCaps : Nat := 0x1FF

/-- A new IDENT record of a sub-port, with a new nonce. -/
def State.newIdent (s : State) (p q : Nat) : List Byte :=
  leBytes 3 s.ownId ++ leBytes 3 (s.getF fTOP_STRAPS_LOC) ++ leBytes 1 (s.roleOf p + (if (s.port p).split then 64 else 0)) ++ leBytes 1 (if (s.port p).split then q else 0) ++
    leBytes 4 ownCaps ++ leBytes 4 (s.getF (fTHM_HK_VERSION_FW_VERSION (4 + p % 2))) ++ leBytes 32 (Config.free s.freeCtr) ++ List.replicate 16 0

/-- The fragments of this device's chain as CERT payloads, without their type byte's padding. -/
def certFrames : List (List Byte) := (List.range 16).map fun k => [0x0A, BitVec.ofNat 8 k] ++ byteField Config.identityChain (256 * k) 256

/-- Start an identity exchange on a sub-port: IDENT, then the chain; AUTH follows once the peer's are in (R372). -/
def State.startIdent (s : State) (p q : Nat) : State :=
  let r := s.newIdent p q
  s.drew.modSub p q fun u => { u with ident := r, cert := [], authOk := false, ctlOut := u.ctlOut ++ ((0x09 : Byte) :: r) :: certFrames }

/-- The peer's chain as its fragments make it. -/
def SubPort.chain (u : SubPort) : List Byte := (List.range 16).flatMap fun k => (aget u.cert k).getD (List.replicate 256 0)

/-- The transcript hash of R372. -/
def SubPort.transcript (u : SubPort) : List Byte :=
  let own := (List.range 16).flatMap fun k => byteField Config.identityChain (256 * k) 256
  let a := (u.ident, Config.sha384 own)
  let b := (u.peer, Config.sha384 u.chain)
  let x := if u.lower then a else b
  let y := if u.lower then b else a
  Config.sha384 (x.1 ++ y.1 ++ x.2 ++ y.2)

/-- Whether an authenticated peer is the expected one (R374). -/
def State.peerExpected (s : State) (p q : Nat) : Bool :=
  let u := s.sub p q
  !u.mixed && match u.expect with
    | none => true
    | some e => recNat u.peer 0 3 % 2 ^ 21 == e.id && recBits u.peer 6 1 5 0 == e.port && (!(s.port p).split || recBits u.peer 7 1 3 0 == e.sub)

/-- The largest width both ends advertise, this port allows and its lanes carry (R363). -/
def State.widthFor (s : State) (p : Nat) (common lanes : Nat) : Option Nat :=
  [16, 8, 4, 2].find? fun w => decide (w ≤ widthOf (s.getF (fLNK_CFG_WIDTH_MAX p))) && decide (w ≤ lanes) && common.testBit (widthCode w)

/-- Whether the common capabilities let the port run (R371). -/
def State.commonOk (s : State) (p : Nat) (common lanes : Nat) : Bool :=
  common.testBit 8 && (if (s.port p).split then common.testBit 4 else (s.widthFor p common lanes).isSome)

/-! ### The source of fabric time (R541, R542) -/

/-- The time state. -/
def State.timeState (s : State) : Nat := s.getF fTIME_STATUS_STATE

/-- A source: LOCAL, a sub-port, or none. -/
inductive Source where
  | loc
  | link (p q : Nat)
  | none
  deriving DecidableEq, Repr

/-- The source a kind, port and sublink name. -/
def State.sourceNamed (s : State) (kind port sub : Nat) : Source :=
  if kind = 0 then .loc else if kind = 1 ∧ port < 34 then .link port (if (s.port port).split then sub else 0) else .none

def State.primary (s : State) : Source := s.sourceNamed (s.getF fTIME_SOURCE_PRI_KIND) (s.getF fTIME_SOURCE_PRI_PORT) (s.getF fTIME_SOURCE_PRI_SUB)
def State.secondary (s : State) : Source := s.sourceNamed (s.getF fTIME_SOURCE_SEC_KIND) (s.getF fTIME_SOURCE_SEC_PORT) (s.getF fTIME_SOURCE_SEC_SUB)

/-- Whether a source is good. -/
def State.sourceGood (s : State) : Source → Bool
  | .loc => s.isSet fTIME_STATUS_PPS_OK
  | .link p q => s.subNamed p q && (s.sub p q).up && (s.sub p q).common.testBit 8
  | .none => false

/-- The source the device uses: its primary while that is good, otherwise its secondary. -/
def State.source (s : State) : Source := if s.sourceGood s.primary then s.primary else if s.sourceGood s.secondary then s.secondary else .none

/-- A source may have become good, or another been named (R542): in HOLDOVER and FREE the device steers toward it from ACQUIRE, and ON_SECONDARY says whether it is the
secondary. -/
def State.sourceCheck (s : State) : State :=
  let idle := s.timeState == 3 || s.timeState == 4
  if s.source = .none then s
  else if idle then (s.setF fTIME_STATUS_STATE 1).setF fTIME_STATUS_ON_SECONDARY (decide (s.source ≠ s.primary)).toNat
  else if s.source = s.primary then s.setF fTIME_STATUS_ON_SECONDARY 0 else s

/-! ### Carrying traffic -/

/-- Enter ACTIVE, or DEGRADED when the width is below WIDTH_MAX or a capability is missing (R365, R376); the link may be
the source of fabric time. -/
def State.goActive (s : State) (p q : Nat) : State :=
  let u := s.sub p q
  let deg := u.degCaps || (!(s.port p).split && u.width != widthOf (s.getF (fLNK_CFG_WIDTH_MAX p)))
  ((s.setSub p q { u with failsInRow := 0, swing := none, laneMove := false }).enterSub p q (if deg then 5 else 4) none).sourceCheck

/-! ### Presets (R379, R380) -/

/-- A lane's learned values as a preset holds them, and back. -/
def packLane (l : Nat × Nat × Nat) : Nat := 2 ^ 24 * (l.1 % 256) + 2 ^ 16 * (l.2.1 % 256) + l.2.2 % 4096 * 16
def unpackLane (w : Nat) : Nat × Nat × Nat := (w / 2 ^ 24 % 256, w / 2 ^ 16 % 256, w / 16 % 4096)

/-- A full training that reached ACTIVE teaches the presets that name its peer (R380). -/
def State.learnPresets (s : State) (p : Nat) : State :=
  let u := s.sub p 0
  if (s.port p).split || !u.full then s
  else (List.range 16).foldl (fun st k =>
    let h := st.preWord p k 0
    if h.testBit 31 && h % 2 ^ 21 == recNat u.peer 0 3 % 2 ^ 21 && st.preWord p k 1 % 64 == recBits u.peer 6 1 5 0 then
      let s1 := (st.setPreWord p k 0 (putBits h 30 30 1)).setPreWord p k 2 u.tag
      (List.range 18).foldl (fun a c => a.setPreWord p k (4 + c) (packLane ((aget u.lanes c).getD (0, 0, 0)))) s1
    else st) s

/-- The end of IDENT, once the peer has verified and its RTT is known: REACH, MISPLACED, or ACTIVE (R373, R374, R376). -/
def State.endIdent (s : State) (p q : Nat) : State :=
  let u := s.sub p q
  if u.state ≠ 3 ∨ !u.authOk ∨ u.rtts.length < 16 then s
  else
    let rtt := (u.rtts.take 16).foldl min (u.rtts.headD 0)
    let s1 := s.setSub p q { u with rtt := rtt, hold := rtt + 200 }
    if 24000 < rtt then s1.quarantine p q 0x07
    else if !s1.peerExpected p q then s1.enterSub p q 6 (some 0x06)
    else
      let w := if (s.port p).split then 1 else (s.widthFor p u.common u.width).getD 2
      ((s1.modSub p q fun v => { v with width := w, txMap := v.txMap.take w, rxMap := v.rxMap.take w }).goActive p q).learnPresets p

/-! ### Availability (R375, R381, R403, R410, R416, R417) -/

/-- Whether a sub-port may be chosen for cells of a class: it carries traffic, is not marked for the class, and, for class S, is not in a swing. -/
def State.available (s : State) (p q cls : Nat) : Bool :=
  let u := s.sub p q
  s.subNamed p q && (decide (p < 32) || s.isSet (fLNK_STATUS_SUBST p)) && (u.up || u.swing.isSome) && u.stall.isNone && !(cls == 0 && u.kStall.isSome) &&
    !s.keyWanting p q && !(cls == 5 && u.swing.isSome)

end Sys2Proof.Machine
end

