-- ==== Sys2Proof/Machine/Codewords.lean ====
section
/-! DEFINITION. Codewords sent and received: DATA and CONTROL, replay, and the cells they carry (R353–R361, R396, R397, R705). -/

namespace Sys2Proof.Machine

open Sys2Proof

/-! ### Cells as bits (R392, R396) -/

/-- The 64-bit header of a cell. -/
def headerOf (c : Cell) : Nat :=
  2 ^ 43 * (c.dst % 2 ^ 21) + 2 ^ 22 * (c.src % 2 ^ 21) + 2 ^ 18 * (c.cls % 16) + 2 ^ 16 * (c.level % 4) + 2 ^ 11 * (c.typ % 32) + 1024 * c.sof.toNat + c.eof.toNat * 512 +
    c.demoted.toNat * 256 + c.mseq % 256

/-- The 576 bits of a cell. -/
def cellBits (c : Cell) : Nat := headerOf c + 2 ^ 64 * (leNat ((c.payload ++ List.replicate 64 0).take 64))

/-- A cell read from its 576 bits. -/
def cellOf (v : Nat) : Cell :=
  { dst := bitsOf v 63 43, src := bitsOf v 42 22, cls := bitsOf v 21 18, level := bitsOf v 17 16, typ := bitsOf v 15 11, sof := bitsOf v 10 10 == 1, eof := bitsOf v 9 9 == 1,
    demoted := bitsOf v 8 8 == 1, mseq := bitsOf v 7 0, payload := leBytes 64 (v / 2 ^ 64) }

/-- Link-local types (R394). -/
def linkLocal (t : Nat) : Bool := decide (t ≤ 2)

/-- The classes a type admits (R394). -/
def typeClasses (t : Nat) : List Nat := match t with
  | 0x00 => [0, 1, 2, 3, 4, 5] | 0x01 => [0, 1, 2, 3, 4, 5] | 0x02 => [1] | 0x03 => [1] | 0x04 => [0, 4, 5] | 0x05 => [1] | 0x06 => [2] | 0x07 => [2] | 0x08 => [2]
  | 0x09 => [3] | 0x0A => [3] | 0x0B => [3] | 0x0C => [4, 5] | 0x0D => [0, 1, 4, 5] | 0x0E => [3] | 0x0F => [0] | 0x10 => [0] | 0x11 => [0] | 0x12 => [0] | 0x13 => [0]
  | _ => []

/-- A header the router must discard (R396). -/
def badHeader (c : Cell) : Bool :=
  c.level == 3 || !((typeClasses c.typ).contains c.cls || (c.cls == 1 && c.demoted && (typeClasses c.typ).contains 0)) || (c.cls == 5 && !(c.sof && c.eof)) ||
    (match c.typ with
      | 0x00 => c.payload.any (· != 0)
      | 0x01 => (c.payload.drop 36).any (· != 0)
      | 0x02 => recBits c.payload 0 1 7 6 != 0 || recNat c.payload 1 1 != 0 || (c.payload.drop 4).any (· != 0)
      | _ => false)

/-- A discard counted in one of RTE's counts (R431). -/
def State.dropCell (s : State) (f : Fld) : State := { s.bumpSat f with tele := { s.tele with drops := s.tele.drops + 1 } }

/-- Append a cell to what a sub-port sends. -/
def SubPort.pushCell (u : SubPort) (c : Cell) : SubPort := let t := u.tx.push 576 (cellBits c); { u with tx := t, txReal := t.n }

/-! ### Sending (R353, R355, R356, R359, R360, R705) -/

/-- The codeword number whose turn it is: fabric time over 21.25 ns; before fabric time is set, the time since POR_N (log entry 42). -/
def State.linkClock (s : State) : Nat := if s.ftSet then s.time.ft else s.time.nowNs - s.time.porAt
def State.codeNo (s : State) : Nat := s.linkClock * 4 / 85

/-- Payload bits a DATA port codeword has for cells. -/
def SubPort.roomBits (u : SubPort) (n : Nat) : Nat := 2550 * u.width - (if (u.keyAt n).isSome then 128 else 0)

/-- A CONTROL payload as a number. -/
def ctlValue (bs : List Byte) : Nat := leNat (bs.take 318)

/-- Symbol errors due on a DATA codeword of a sub-port under an injection (R684), and the injections with one codeword fewer left. -/
def State.corruption (s : State) (p q : Nat) : Nat × State :=
  let hit (j : Injection) : Bool := j.kind == 2 && j.a == p && (j.b == q || !(s.port p).split) && decide (0 < j.left)
  match s.faults.injections.find? hit with
  | none => (0, s)
  | some j => (j.arg % 256, s.setFaults { s.faults with injections := mapFirst hit (fun v => { v with left := v.left - 1 }) s.faults.injections })

/-- One codeword sent on every lane: kind 1 CONTROL, 0 DATA; the bytes are the lanes' codewords in lane order. -/
def State.sendWord (s : State) (p q kind n bad : Nat) (lane : Nat → Nat) : State :=
  let u := s.sub p q
  let ws := (List.range u.width).flatMap fun i =>
    let w := encodeWord (kind == 1) n (lane i)
    wordBytes (if i = 0 then (List.range bad).foldl (fun (a : List Nat) k => a.set k ((a.getD k 0).xor 1)) w else w)
  s.emit (.codeword p q kind ws)

/-- A CONTROL codeword, the same on every lane. -/
def State.sendCtl (s : State) (p q n : Nat) (bs : List Byte) : State := s.sendWord p q 1 n 0 fun _ => ctlValue bs

/-- A DATA codeword of a payload: sealed under the key in force, kept for HOLD, sent on W lanes. -/
def State.sendData (s : State) (p q n v : Nat) : State :=
  let u := s.sub p q
  let bits := 2550 * u.width
  let w := match u.keyAt n with
    | some k => sealPayload k u.lower n bits v
    | none => v
  let c := s.corruption p q
  let s1 := c.2.modSub p q fun x => { x with store := x.store ++ [(n, s.time.nowNs, v)] }
  s1.sendWord p q 0 n c.1 fun i => (w >>> (2550 * i)) % 2 ^ 2550

/-- TRAIN on each lane, with its channel, the transmit number, and the channels on which light checks (R356). -/
def State.sendTrain (s : State) (p q n : Nat) : State :=
  let u := s.sub p q
  s.sendWord p q 1 n 0 fun i => ctlValue ([0x03] ++ leBytes 1 (u.txMap.getD i 0) ++ leBytes 4 n ++ leBytes 3 u.trainSeen)

/-- Whether new cells may leave: carrying traffic, no swing or lane move in hand, no identity check, a store slot free, a key where one is required. -/
def State.maySend (s : State) (p q : Nat) : Bool :=
  let u := s.sub p q
  u.up && u.swing.isNone && !u.laneMove && !u.reauth && decide (u.store.length < 400) && !s.keyWanting p q

/-- A new DATA codeword of the bits that wait, its end filled with IDLE cells; FILL when no cell waits. -/
def State.sendCells (s : State) (p q n : Nat) : State :=
  let u := s.sub p q
  if u.txReal = 0 ∨ ¬ s.maySend p q then s.sendCtl p q n [0x01]
  else
    let cap := u.roomBits n
    let excess := (cap - u.tx.n) % 576
    let v := u.tx.v % 2 ^ cap
    let rest : Bits := if u.tx.n < cap then ⟨(if excess = 0 then 0 else 576 - excess), 0⟩ else (u.tx.pull cap).2
    (s.setSub p q { u with tx := rest, txReal := u.txReal - cap }).sendData p q n v

/-- What a sub-port sends after NAKs and what is bound to a number: REPLAY, what is sent again, other CONTROL, new cells. Before a swing
and while a lane moves no DATA codeword leaves (R366, R381). -/
def State.sendQueued (s : State) (p q n : Nat) : State :=
  let u := s.sub p q
  let held := u.swing.isSome || u.laneMove
  match u.replay with
  | some m => (s.setSub p q { u with replay := none }).sendCtl p q n ([0x02] ++ leBytes 4 m)
  | none => match (if held then [] else u.resend) with
    | v :: rest => (s.setSub p q { u with resend := rest, replayTo := if rest.isEmpty then none else u.replayTo }).sendData p q n v
    | [] => match u.ctlOut with
      | b :: rest => (s.setSub p q { u with ctlOut := rest }).sendCtl p q n b
      | [] => if u.up then s.sendCells p q n else s.sendCtl p q n [0x01]

/-- What a sub-port that carries traffic sends next: what is bound to this number (R539), NAKs (R358), then the rest. -/
def State.sendNext (s : State) (p q n : Nat) : State :=
  let u := s.sub p q
  match u.ctlAt.find? (fun e => decide (e.1 ≤ n) && n % 4 == 0) with
  | some e => (s.setSub p q { u with ctlAt := dropFirst (· == e) u.ctlAt }).sendCtl p q n e.2
  | none => match u.await, u.nakDue with
    | some a, k + 1 => ((s.setSub p q { u with nakDue := k }).bumpSat (fLNK_NAKS_SENT p)).sendCtl p q n ([0x04] ++ leBytes 4 a.1)
    | _, _ => s.sendQueued p q n

/-- A new lane map holds. When the width changes, payloads still to be sent again join the bits that wait, so that no cell is lost (R366). -/
def SubPort.switchMap (u : SubPort) (n : Nat) (m : List Nat) : SubPort :=
  let room := u.roomBits n
  let old := u.resend.foldl (fun b v => b.push room v) ({} : Bits)
  let u1 := { u with txMap := m, txNext := none, laneMove := false }
  if m.length = u.width then u1
  else { u1 with width := m.length, resend := [], replayTo := none, tx := old.push u.tx.n u.tx.v, txReal := if u.txReal = 0 then old.n else old.n + u.txReal }

/-- A sub-port as codeword n is about to leave it: codewords older than HOLD are no longer kept, and a lane map or a key bound to this number holds. -/
def SubPort.readyTx (u0 : SubPort) (n now : Nat) : SubPort :=
  let moved := match u0.txNext with
    | some m => decide (m.1 ≤ n)
    | none => false
  let u1 := { u0 with nextNo := n + 1, store := u0.store.filter fun e => decide (now < e.2.1 + u0.hold) }
  let u2 := if moved then u1.switchMap n ((u0.txNext.map (·.2)).getD u0.txMap) else u1
  match u2.nextKey with
  | some k => if noReached n k.activateAt then { u2 with key := some k, nextKey := none } else u2
  | none => u2

/-- The sub-port u0 becomes u: when its lane map has changed, its registers and its state follow the width (R365, R390). -/
def State.showMap (s : State) (p q : Nat) (u0 u : SubPort) : State :=
  let deg := u.degCaps || u.width != widthOf (s.getF (fLNK_CFG_WIDTH_MAX p))
  if u.txMap == u0.txMap then s.setSub p q u
  else ((s.setSub p q (if u.up && !(s.port p).split then { u with state := if deg then 5 else 4 } else u)).showSub p q).showSpares p

/-- CODEWORD_TRANSMIT (R353): codeword n leaves a lit sub-port when fabric time reaches n × 21.25 ns. -/
def execCodewordTransmit (port : Port) (sub : Sub) (s : State) : Host.Outcome State Fault Refusal :=
  let p := port.val
  let q := sub.val
  let n := s.codeNo
  let u0 := s.sub p q
  .next (if !s.subNamed p q || !(s.port p).lit || u0.state == 0 || decide (n < u0.nextNo) then s
  else
    let u := u0.readyTx n s.time.nowNs
    let s1 := (s.showMap p q u0 u).showKey p
    if u.state = 1 ∨ (u.state = 2 ∧ u.swing.isNone) then s1.sendTrain p q n
    else if 6 ≤ u.state then s1.sendCtl p q n [0x01]
    else s1.sendNext p q n)

/-! ### Receiving (R354–R358, R397, R705) -/

/-- The types of R356 with the bytes each may use; none for a type not in the table. -/
def ctlLen (t : Nat) : Option Nat := match t with
  | 0x01 => some 1 | 0x02 => some 5 | 0x03 => some 9 | 0x04 => some 5 | 0x05 => some 9 | 0x06 => some 9 | 0x07 => some 17 | 0x08 => some 23 | 0x09 => some 65
  | 0x0A => some 258 | 0x0B => some 97
  | _ => none

/-- Take whole cells from the bits received: link-local ones are kept for the port, routed ones go to the landing store (R396, R397, R406). -/
def State.takeCells (s : State) (p q : Nat) : Nat → State
  | 0 => s
  | f + 1 =>
    let u := s.sub p q
    if u.rx.n < 576 then s
    else
      let b := u.rx.pull 576
      let s1 := s.setSub p q { u with rx := b.2 }
      let c := cellOf b.1
      let s2 := if linkLocal c.typ then
          (if badHeader c then s1.dropCell fRTE_DROP_BAD_HEADER_COUNT
           else if c.typ = 0 then s1 else s1.modSub p q fun v => { v with linkIn := v.linkIn ++ [c] })
        else (s1.bumpWrap (fRTE_PORT_RX_CELLS_COUNT (s.roleOf p))).modSub p q fun v => { v with landing := v.landing ++ [c] }
      s2.takeCells p q f

/-- A DATA codeword that checks: delivered, unless a replay is awaited or the sub-port carries no traffic. -/
def State.takeData (s : State) (p q n v bits : Nat) : State :=
  let u := s.sub p q
  if !u.up || u.await.isSome then s
  else
    let room := u.roomBits n
    (s.setSub p q { u with rx := u.rx.push room (v % 2 ^ room) }).takeCells p q (bits / 576 + 1)

/-- A codeword that failed: it and every later DATA codeword are discarded until its REPLAY, and NAK goes out in the next two (R358). -/
def State.failWord (s : State) (p q n : Nat) : State :=
  s.modSub p q fun u => if u.up && u.await.isNone then { u with await := some (n, s.time.nowNs), nakDue := 2 } else u

/-- A CONTROL payload: kept for the port, or discarded and counted when R356 has no such codeword (R357). -/
def State.takeCtl (s : State) (p q v : Nat) : State :=
  let bs := leBytes 319 v
  match ctlLen (v % 256) with
  | some k => if (bs.drop k).all (· == 0) then s.modSub p q fun u => { u with ctlIn := u.ctlIn ++ [bs.take k] }
    else s.modSub p q fun u => { u with badCtl := u.badCtl ++ [s.time.nowNs] }
  | none => s.modSub p q fun u => { u with badCtl := u.badCtl ++ [s.time.nowNs] }

/-- What came of a lane: no light, a word that failed, or whether it is CONTROL, its bits and the symbols corrected. -/
abbrev RxWord := Option (Option (Bool × Nat × Nat))

/-- The words that came on the lanes of a sub-port, 272 symbols each (R354). -/
def rxWords (no : Nat) (lanes : List (Option (List (BitVec 10)))) : List RxWord := lanes.map fun l => l.map fun w => decodeWord no (w.map (·.toNat))

/-- The words that checked. -/
def rxGot (words : List RxWord) : List (Bool × Nat × Nat) := words.filterMap fun w => w.getD none

/-- Corrections, failures and light of received words, noted. -/
def State.rxCount (s : State) (p q : Nat) (words : List RxWord) : State :=
  let s0 := if words.any (·.isSome) then (s.modPort p fun v => { v with anyLight := s.time.nowNs }).modSub p q fun u => { u with seenAt := s.time.nowNs } else s
  let s1 := (s0.bumpSat (fLNK_FEC_CORRECTED p) (sumNat ((rxGot words).map (·.2.2)))).bumpSat (fLNK_UNCORR_FAILED p) (words.filter fun w => w == some none).length
  if (rxGot words).isEmpty then s1 else s1.modSub p q fun u => { u with lightAt := s.time.nowNs }

/-- The channels on which TRAIN came. -/
def SubPort.trainMask (u : SubPort) (words : List RxWord) : Nat :=
  (List.range words.length).foldl (fun a i => match (words[i]?).getD none with
    | some (some g) => if g.1 ∧ g.2.1 % 256 = 3 then a + 2 ^ (u.rxMap.getD i i) else a
    | _ => a) 0

/-- A sub-port that receives codeword n: a lane map the peer announced holds from its number. -/
def SubPort.readyRx (u : SubPort) (n : Nat) : SubPort := match u.rxNext with
  | some m => if m.1 ≤ n then { u with rxMap := m.2, rxNext := none } else u
  | none => u

/-- The lanes of a CONTROL codeword are compared when it is IDENT: whether they carry different records (R374). -/
def SubPort.noteLanes (u : SubPort) (got : List (Bool × Nat × Nat)) : SubPort :=
  let ids := (got.filter fun g => g.1 && g.2.1 % 256 == 9).map (·.2.1)
  if ids.isEmpty then u else { u with mixed := ids.any fun v => v != ids.headD 0 }

/-- The payload of a DATA codeword over the lanes of a width. -/
def rxPayload (got : List (Bool × Nat × Nat)) (width : Nat) : Nat :=
  (List.range width).foldl (fun a i => a + ((got[i]?.map (·.2.1)).getD 0) <<< (2550 * i)) 0

/-- CODEWORD_RECEIVE (R354): codeword n of a sub-port, the 272 symbols of each lane in lane order, none where no light arrives. -/
def execCodewordReceive (port : Port) (sub : Sub) (n : DWord) (lanes : List (Option (List (BitVec 10)))) (s : State) : Host.Outcome State Fault Refusal :=
  let p := port.val
  let q := sub.val
  let no := n.toNat
  let words := rxWords no lanes
  let got := rxGot words
  .next (if !s.subNamed p q || (s.sub p q).state == 0 then s
  else
    let s2 := (s.modSub p q fun u => u.readyRx no).rxCount p q words
    match got.find? (·.1) with
    | some c => (s2.modSub p q fun u => { u.noteLanes got with trainSeen := u.trainSeen ||| (s.sub p q).trainMask words }).takeCtl p q c.2.1
    | none =>
      let u := s2.sub p q
      if got.length < u.width then (if words.any (·.isSome) then s2.failWord p q no else s2)
      else
        let bits := 2550 * u.width
        let v := rxPayload got u.width
        match u.keyAt no with
        | none => s2.takeData p q no v bits
        | some k => match openPayload k (!u.lower) no bits v with
          | some t => s2.takeData p q no t bits
          | none => (s2.bumpSat (fSEC_CRYPT1_TAG_FAIL p)).failWord p q no)

/-! ### Taking up CONTROL codewords -/

/-- The oldest CONTROL payload received on a sub-port, when it is of a type, and the state without it. -/
def State.takeType (s : State) (p q t : Nat) : Option (List Byte × State) := match (s.sub p q).ctlIn with
  | b :: rest => if recNat b 0 1 = t ∧ s.subNamed p q then some (b, s.modSub p q fun u => { u with ctlIn := rest }) else none
  | [] => none

/-- FILL_RECEIVE (R356): consumed. -/
def execFillReceive (port : Port) (sub : Sub) (s : State) : Host.Outcome State Fault Refusal :=
  .next (match s.takeType port sub 0x01 with
    | some x => x.2
    | none => s)

/-- R361: the codeword is lost; the sub-port relocks from its current values. -/
def State.nakLost (s : State) (p q : Nat) : State :=
  let s1 := s.portRec p q 0x09 0
  (s1.modSub p q fun u => u.fresh false).enterSub p q 2 (some 0x09)

/-- The codeword number a NAK names by its low 32 bits: the latest not after the one sent next. -/
def SubPort.nakNo (u : SubPort) (low : Nat) : Nat :=
  let n := 2 ^ 32 * (u.nextNo / 2 ^ 32) + low
  if u.nextNo < n then n - 2 ^ 32 else n

/-- REPLAY with the first codeword kept at or after n is due, then those from there on, to be sent again (R359). -/
def SubPort.replayFrom (u : SubPort) (n : Nat) : SubPort :=
  let again := u.store.filter fun e => decide (n ≤ e.1)
  let m := (again.head?.map (·.1)).getD n
  { u with store := u.store.filter fun e => decide (e.1 < n), resend := again.map (·.2.2) ++ u.resend, replay := some (m % 2 ^ 32), replayTo := some (max n m) }

/-- NAK_RECEIVE (R359): REPLAY with the first codeword kept at or after n, then those from there on; a NAK for one no longer kept is a loss. -/
def execNakReceive (port : Port) (sub : Sub) (s : State) : Host.Outcome State Fault Refusal :=
  let p := port.val
  let q := sub.val
  .next (match s.takeType p q 0x04 with
    | none => s
    | some x =>
      let s1 := (x.2.bumpSat (fLNK_NAKS_RECEIVED p)).modSub p q fun u => { u with naks := u.naks ++ [s.time.nowNs] }
      let u := s1.sub p q
      let n := u.nakNo (recNat x.1 1 4)
      if !u.up then s1
      else if u.replayTo.any (fun m => decide (n ≤ m)) then s1
      else if n * 85 / 4 + u.hold < s1.codeNo * 85 / 4 then s1.nakLost p q
      else s1.setSub p q (u.replayFrom n))

/-- REPLAY_RECEIVE (R358): delivery resumes with the next DATA codeword, from the bit where the failed one began. The number REPLAY names is compared with
the failed one's modulo 2³². -/
def execReplayReceive (port : Port) (sub : Sub) (s : State) : Host.Outcome State Fault Refusal :=
  .next (match s.takeType port sub 0x02 with
    | none => s
    | some x => x.2.modSub port sub fun u => match u.await with
      | some a => if (recNat x.1 1 4 + 2 ^ 32 - a.1 % 2 ^ 32) % 2 ^ 32 < 2 ^ 31 then { u with await := none, nakDue := 0 } else u
      | none => u)

/-- NAK_LOST (R361): REPLAY has not come within HOLD + RTT of the first NAK. -/
def execNakLost (port : Port) (sub : Sub) (s : State) : Host.Outcome State Fault Refusal :=
  .next (match (s.sub port sub).await with
    | some a => if (s.sub port sub).up && decide (a.2 + (s.sub port sub).hold + (s.sub port sub).rtt ≤ s.time.nowNs) then s.nakLost port sub else s
    | none => s)

end Sys2Proof.Machine
end

