-- ==== Sys2Proof/Machine/Training.lean ====
section
/-! DEFINITION. Training, identity, lanes and spares, swings and eye safety of the optical ports (R347–R350, R363–R384, R681). -/

namespace Sys2Proof.Machine

open Sys2Proof

/-! ### Training (R376) -/

/-- TRAIN_RECEIVE (R376): TRAIN has checked on the channels of the smallest width, or on the sublink's channel; the sub-port goes to LOCK. -/
def execTrainReceive (port : Port) (sub : Sub) (s : State) : Host.Outcome State Fault Refusal :=
  .next (match s.takeType port sub 0x03 with
    | none => s
    | some x =>
      let u := x.2.sub port sub
      let ok := if (s.port port).split then u.trainSeen.testBit sub.val else u.trainSeen.testBit 0 && u.trainSeen.testBit 1
      if u.state = 1 ∧ ok then x.2.enterSub port sub 2 none else x.2)

/-- A lane map mended: each lane on a channel of `bad` moves to the lower-numbered channel of `spares` that no lane uses. -/
def mendMap (bad : Nat) (spares m : List Nat) : List Nat :=
  (List.range m.length).foldl (fun a i => if bad.testBit (a.getD i 18) then match spares.find? fun x => !a.contains x with
    | some x => a.set i x
    | none => a else a) m

/-- The lane map on which a sub-port locks when codeword numbers agree on the channels of `ok`: the present one, its other lanes moved to the spare channels, and of what is
left as many lanes as the largest width admits (R347, R363, R376); a sublink has its own channel. Empty for none. -/
def State.lockMap (s : State) (p q ok : Nat) : List Nat :=
  let good := (mendMap (2 ^ 18 - 1 - ok) ([16, 17].filter ok.testBit) (s.sub p q).txMap).filter ok.testBit
  if (s.port p).split then (if ok.testBit q then [q] else [])
  else good.take (([16, 8, 4, 2].find? fun w => decide (w ≤ good.length) && decide (w ≤ widthOf (s.getF (fLNK_CFG_WIDTH_MAX p)))).getD 0)

/-- LOCK_ACQUIRED (R376): codeword numbers agree on the channels of `ok` and the lane maps agree; `lanes` are the phase, threshold and drop-ring offset learned on each
channel (R351). The sub-port enters IDENT and sends IDENT. -/
def execLockAcquired (port : Port) (sub : Sub) (ok : BitVec 18) (lanes : List (Chan × Byte × Byte × BitVec 12)) (s : State) : Host.Outcome State Fault Refusal :=
  let p := port.val
  let q := sub.val
  let u := s.sub p q
  let m := s.lockMap p q ok.toNat
  .next (if !s.subNamed p q || u.state != 2 || u.swing.isSome || m.isEmpty then s
  else
    let s1 := s.setSub p q { u with width := m.length, txMap := m, rxMap := m, echoes := [], rtts := [],
                                    lanes := lanes.foldl (fun a l => aput a l.1.val (l.2.1.toNat, l.2.2.1.toNat, l.2.2.2.toNat)) u.lanes }
    ((s1.showSpares p).enterSub p q 3 none).startIdent p q)

/-- Fabric time is unlocked: neither LOCKED nor HOLDOVER (R542). -/
def State.timeUnlocked (s : State) : Bool := !(s.getF fTIME_STATUS_STATE == 2 || s.getF fTIME_STATUS_STATE == 3)

/-- LOCK_TIMEOUT (R376). -/
def execLockTimeout (port : Port) (sub : Sub) (s : State) : Host.Outcome State Fault Refusal :=
  let u := s.sub port sub
  .next (if s.subNamed port sub && u.state == 2 && u.swing.isNone && decide (u.since + (if s.timeUnlocked then 50000000 else 5000000) ≤ s.time.nowNs) then
    s.toLight port sub (some 0x02) true else s)

/-- IDENT_TIMEOUT (R376). -/
def execIdentTimeout (port : Port) (sub : Sub) (s : State) : Host.Outcome State Fault Refusal :=
  let u := s.sub port sub
  .next (if s.subNamed port sub && u.state == 3 && decide (u.since + 20000000 ≤ s.time.nowNs) then
    (s.toLight port sub (some 0x03) true).bumpSat (fLNK_EVENTS_IDENT_FAIL port) else s)

/-- NO_LIGHT_TIMEOUT (R376): 20 µs without light that checks in ACTIVE or DEGRADED, or without any light in MISPLACED. -/
def execNoLightTimeout (port : Port) (sub : Sub) (s : State) : Host.Outcome State Fault Refusal :=
  let u := s.sub port sub
  .next (if s.subNamed port sub && (u.up || u.state == 6) && u.swing.isNone && decide (max (if u.state = 6 then u.seenAt else u.lightAt) u.since + 20000 ≤ s.time.nowNs) then
    s.toLight port sub (some 0x01) false else s)

/-- NAK_STORM (R376): more than 256 NAKs received, or 64 BAD_CONTROL codewords, within 1 ms. -/
def execNakStorm (port : Port) (sub : Sub) (s : State) : Host.Outcome State Fault Refusal :=
  let u := s.sub port sub
  let last (l : List Nat) : Nat := (l.filter fun t => decide (s.time.nowNs < t + 1000000)).length
  .next (if !s.subNamed port sub || !u.up then s
    else if 256 < last u.naks then s.toLight port sub (some 0x08) true
    else if 64 ≤ last u.badCtl then s.toLight port sub (some 0x0F) true
    else s)

/-! ### Identity (R370–R374, R681) -/

/-- The peer's IDENT record, and the capabilities common with it; nothing it has proved before holds (R371). -/
def SubPort.takeIdent (u : SubPort) (r : List Byte) : SubPort :=
  let common := ownCaps &&& recNat r 8 4
  { u with peer := r, common := common, degCaps := common != ownCaps, authOk := false, cert := [] }

/-- IDENT_RECEIVE (R371): the peer's identity; the common capabilities are taken, and a port they do not allow is quarantined. In ACTIVE or DEGRADED a new identity is
answered in the same way (R681). -/
def execIdentReceive (port : Port) (sub : Sub) (s : State) : Host.Outcome State Fault Refusal :=
  let p := port.val
  let q := sub.val
  .next (match s.takeType p q 0x09 with
    | none => s
    | some x =>
      let u := x.2.sub p q
      if u.state ≠ 3 ∧ ¬ u.up then x.2
      else
        let v := u.takeIdent (byteField x.1 1 64)
        let s1 := x.2.setSub p q v
        let s2 := if u.up && !u.reauth then (s1.startIdent p q) else s1
        if !s2.commonOk p v.common u.width then s2.quarantine p q 0x05 else s2.showSub p q)

/-- CERT_RECEIVE (R372): a fragment of the peer's chain; with the last one in, AUTH goes out over the transcript; while DEVICE_KEY is
blocked nothing can be signed and its bytes are free (R711). -/
def execCertReceive (port : Port) (sub : Sub) (s : State) : Host.Outcome State Fault Refusal :=
  let p := port.val
  let q := sub.val
  .next (match s.takeType p q 0x0A with
    | none => s
    | some x =>
      let u := x.2.sub p q
      if (u.state ≠ 3 ∧ ¬ u.up) ∨ 16 ≤ recNat x.1 1 1 then x.2
      else
        let v := { u with cert := aput u.cert (recNat x.1 1 1) (byteField x.1 2 256) }
        if v.cert.length = 16 ∧ u.cert.length < 16 then
          let sig := if s.isSet fSEC_STATE_KEY_BLOCKED then (List.range 96).map (Config.undefByte x.2.freeCtr) else byteField (Config.ecdsaSign x.2.freeCtr v.transcript) 0 96
          (x.2.drew).setSub p q { v with ctlOut := v.ctlOut ++ [(0x0B : Byte) :: sig] }
        else x.2.setSub p q v)

/-- Whether the peer's chain goes up to the fabric CA and its signature over the transcript verifies (R372). -/
def SubPort.authGood (u : SubPort) (sig : List Byte) : Bool := match Config.chainParts u.chain with
  | some c => Config.sha384 c.2 == Config.caRoot && Config.ecdsaVerify c.1 u.transcript sig
  | none => false

/-- The peer has proved its identity (R372, R376, R681). -/
def State.authDone (s : State) (p q : Nat) : State :=
  let u := s.sub p q
  let s1 := s.setSub p q { u with authOk := true, tag := leNat (u.transcript.take 4) }
  if u.up then
    (if s1.peerExpected p q then s1.modSub p q fun v => { v with reauth := false } else s1.enterSub p q 6 (some 0x06))
  else s1.endIdent p q

/-- AUTH_RECEIVE (R372): the chain and the signature over the transcript are verified; IDENT ends as R376 says, and a link that is up stays up when the identities
check (R681). -/
def execAuthReceive (port : Port) (sub : Sub) (s : State) : Host.Outcome State Fault Refusal :=
  let p := port.val
  let q := sub.val
  .next (match s.takeType p q 0x0B with
    | none => s
    | some x =>
      let u := x.2.sub p q
      if u.state ≠ 3 ∧ ¬ u.up then x.2
      else if u.authGood (byteField x.1 1 96) then x.2.authDone p q else x.2.quarantine p q 0x04)

/-! ### Lanes and spares (R348–R350, R363, R366–R368) -/

/-- The codeword number from which an announced map holds: after HOLD and a margin of 1 µs (log entry 43). -/
def State.switchNo (s : State) (p q : Nat) : Nat := s.codeNo + ((s.sub p q).hold + 1000) * 4 / 85 + 1

/-- A LANEMAP payload. -/
def laneMapBytes (n : Nat) (m : List Nat) : List Byte := [0x08] ++ leBytes 4 n ++ ((m.map fun c => (BitVec.ofNat 8 c : Byte)) ++ List.replicate 18 0xFF).take 18

/-- Announce a lane map from codeword n on; no DATA codeword leaves until then. -/
def State.mapFrom (s : State) (p q n : Nat) (m : List Nat) : State :=
  s.modSub p q fun u => { u with txNext := some (n, m), laneMove := true, ctlOut := u.ctlOut ++ [laneMapBytes n m] }

/-- Announce a lane map. -/
def State.announceMap (s : State) (p q : Nat) (m : List Nat) : State := s.mapFrom p q (s.switchNo p q) m

/-- The channels of a port that have failed on either side. -/
def State.badChans (s : State) (p : Nat) : Nat := s.getF (fLNK_TX_FAIL_CHANNELS p) ||| s.getF (fLNK_RX_FAIL_CHANNELS p)

/-- The spare channels that may carry a lane: healthy, with their own laser, where the common capabilities allow spares (R366). -/
def State.spareChans (s : State) (p : Nat) : List Nat :=
  [16, 17].filter fun c => !(s.badChans p).testBit c && (s.sub p 0).common.testBit 5 && !(s.port p).tuning.any (·.1 == c) &&
    !(s.isSet (if c = 16 then fLNK_SPARES_L16_TUNED p else fLNK_SPARES_L17_TUNED p))

/-- A lane map for a bonded port from one that may use failed channels: lanes moved to spare channels, else the largest width that the healthy ones carry (R363, R366). -/
def State.mapFor (s : State) (p : Nat) (m : List Nat) : Option (List Nat) :=
  let good := (mendMap (s.badChans p) (s.spareChans p) m).filter fun c => !(s.badChans p).testBit c
  (s.widthFor p (s.sub p 0).common good.length).map good.take

/-- Mark a failed channel of a port, on the side concerned. -/
def State.failChan (s : State) (p c : Nat) (rx : Bool) : State :=
  if rx then s.setF (fLNK_RX_FAIL_CHANNELS p) (putBits (s.getF (fLNK_RX_FAIL_CHANNELS p)) c c 1)
  else s.setF (fLNK_TX_FAIL_CHANNELS p) (putBits (s.getF (fLNK_TX_FAIL_CHANNELS p)) c c 1)

/-- A spare laser that is not in use and has not failed. -/
def State.spareLaser (s : State) (p : Nat) : Option Nat :=
  [16, 17].find? fun c => !(s.getF (fLNK_TX_FAIL_CHANNELS p)).testBit c && !(s.port p).eol.contains c &&
    !s.isSet (if c = 16 then fLNK_SPARES_L16_TUNED p else fLNK_SPARES_L17_TUNED p) && !((s.port p).tuning.any (·.1 == c)) &&
    !((s.sub p 0).txMap.contains c)

/-- A spare laser begins to tune to channel c. -/
def State.startTuning (s : State) (p l c : Nat) : State := (s.modPort p fun v => { v with tuning := v.tuning ++ [(l, c)] }).bumpSat (fLNK_EVENTS_LANE_MOVES p)

/-- A lane map the port or its peer needs now, where `was` has a lane on a failed channel: it is announced, or the port goes to LIGHT with LANES. -/
def State.relane (s : State) (p : Nat) (was : List Nat) : State := match s.mapFor p was with
  | some m => (if m.length = was.length then s.bumpSat (fLNK_EVENTS_LANE_MOVES p) else s).announceMap p 0 m
  | none => s.toLight p 0 (some 0x0C) true

/-- A sublink to DARK with cause LANES (R368). -/
def State.darkSub (s : State) (p q : Nat) : State := (s.modSub p q fun u => { (u.fresh true) with state := u.state }).enterSub p q 0 (some 0x0C)

/-- Channel c of a split port has failed (R368): a spare laser stands in for a failed laser; else sublink c is lost. -/
def State.sublinkFail (s : State) (p c : Nat) (laser : Bool) : State :=
  if 16 ≤ c ∨ (s.sub p c).state = 0 then s
  else match (if laser then s.spareLaser p else none) with
    | some l =>
      let s1 := s.startTuning p l c
      if (s.sub p c).up then s1.enterSub p c 1 none else s1
    | none => s.darkSub p c

/-- LANE_FAIL (R366–R368): channel c of a port has failed, on the receive side or by its laser or by its modulator ring. The lane moves to a spare channel in both directions;
failing that, a failed laser has a spare laser tuned in its place while the port runs narrower; failing that, the port narrows. -/
def State.laneFail (s : State) (p c : Nat) (rx laser : Bool) : State :=
  let s1 := s.failChan p c rx
  let u := s1.sub p 0
  let was := (u.txNext.map (·.2)).getD u.txMap
  if (s.port p).split then s1.sublinkFail p c (laser && !rx)
  else if !u.up || !was.contains c then s1
  else if (mendMap (s1.badChans p) (s1.spareChans p) was).any (s1.badChans p).testBit && laser && !rx then match s1.spareLaser p with
    | some l => (s1.startTuning p l c).relane p was
    | none => s1.relane p was
  else s1.relane p was

/-- LANE_FAIL (R366). -/
def execLaneFail (port : Port) (chan : Chan) (rx laser : Bool) (s : State) : Host.Outcome State Fault Refusal := .next (s.laneFail port chan rx laser)

/-- A laser that has tuned stands in for that of channel c. -/
def State.tunedLaser (s : State) (p l c : Nat) : State :=
  let s1 := s.modPort p fun v => { v with tuning := v.tuning.filter (·.1 != l) }
  let s2 := if l = 16 then (s1.setF (fLNK_SPARES_L16_TUNED p) 1).setF (fLNK_SPARES_L16_CHAN p) c
    else (s1.setF (fLNK_SPARES_L17_TUNED p) 1).setF (fLNK_SPARES_L17_CHAN p) c
  s2.setF (fLNK_TX_FAIL_CHANNELS p) (putBits (s2.getF (fLNK_TX_FAIL_CHANNELS p)) c c 0)

/-- SPARE_LASER_TUNED (R367, R368): a spare laser has reached its channel. A bonded port takes its lane map back to the largest width; a sublink that left service returns. -/
def execSpareLaserTuned (port : Port) (laser : Chan) (s : State) : Host.Outcome State Fault Refusal :=
  let p := port.val
  .next (match (s.port p).tuning.find? (·.1 == laser.val) with
    | none => s
    | some e =>
      let s1 := s.tunedLaser p laser.val e.2
      if (s.port p).split then
        (if (s1.sub p e.2).state = 1 ∧ (s1.sub p e.2).authOk then (s1.goActive p e.2).bumpSat (fLNK_EVENTS_LANE_MOVES p) else s1)
      else if !(s1.sub p 0).up then s1
      else match s1.mapFor p (List.range 16) with
        | some m => (s1.announceMap p 0 m).bumpSat (fLNK_EVENTS_LANE_MOVES p)
        | none => s1)

/-- The codeword number a LANEMAP names by its low 32 bits: the one nearest to the present number. -/
def nearNo (now low : Nat) : Nat :=
  let n := 2 ^ 32 * (now / 2 ^ 32) + low
  if now + 2 ^ 31 < n then n - 2 ^ 32 else if n + 2 ^ 31 ≤ now then n + 2 ^ 32 else n

/-- A peer's lane map reaches a port that is up. It is this end's map too, from the same number on; where it uses a channel that has failed here, another is announced. -/
def State.adoptMap (s : State) (p q n : Nat) (m : List Nat) : State :=
  let u := s.sub p q
  let was := (u.txNext.map (·.2)).getD u.txMap
  if m == was || (s.port p).split then s
  else if m.any (s.badChans p).testBit then s.relane p m
  else (if m.length = was.length then s.bumpSat (fLNK_EVENTS_LANE_MOVES p) else s).mapFrom p q n m

/-- LANEMAP_RECEIVE (R366): the peer's map holds from the number it names, and both ends switch there. -/
def execLanemapReceive (port : Port) (sub : Sub) (s : State) : Host.Outcome State Fault Refusal :=
  let p := port.val
  let q := sub.val
  .next (match s.takeType p q 0x08 with
    | none => s
    | some x =>
      let m := ((x.1.drop 5).map (·.toNat)).filter (· != 0xFF)
      let n := nearNo s.codeNo (recNat x.1 1 4)
      let u := x.2.sub p q
      if u.state < 2 ∨ 6 ≤ u.state ∨ !(([16, 8, 4, 2, 1] : List Nat).contains m.length && m.all (· < 18) && m.Nodup) then x.2
      else
        let s1 := x.2.setSub p q { u with rxNext := some (n, m) }
        if u.up then s1.adoptMap p q n m else s1)

/-- The mean activity A of R349 of a port's I/O die, as a sum of fractions of 2¹⁶ and the number of cores counted. -/
def State.portActivity (s : State) (p : Nat) : Nat × Nat :=
  let lo := if p % 2 = 0 then 0 else 72
  let cores := ((List.range 72).map (lo + ·)).filter fun c => s.isSet (fCORE_TRS_CFG_FF_EN c)
  (sumNat (cores.map fun c => if (s.getF fTOP_READY_SPAN).testBit (c / 18) then s.getF (fCORE_TRS_ACTIVE_FRACTION c) else 0), cores.length)

/-- What the activity of the cores adds to the heater drives of a port (R349). -/
def State.portForward (s : State) (p : Nat) : Int :=
  let a := s.portActivity p
  (s.getF (fLNK_CFG_FF_GAIN p) * a.1 / (65536 * max 1 a.2) : Nat)

/-- One ring's update: its drive, and the count of updates for which it has been more than 10 GHz off; at 8 it has failed. -/
def State.heaterRing (p : Nat) (ff : Int) (s : State) (r : Chan × Bool × Int × Int) : State :=
  let k := r.1.val + (if r.2.1 then 18 else 0)
  let off := decide (10 < r.2.2.1.natAbs)
  let n := if off then (aget (s.port p).offRing k).getD 0 + 1 else 0
  let s1 := s.modPort p fun v => { v with offRing := aput v.offRing k n, heater := aput v.heater k (r.2.2.2 + ff) }
  if n = 8 then s1.laneFail p r.1 r.2.1 false else s1

/-- HEATER_UPDATE (R348, R349): an update of a port's rings: for each ring its channel, whether it is a drop ring, its error in GHz and the loop's own value. The drive adds
FF_GAIN × A. A ring more than 10 GHz off for 8 updates in a row has failed. -/
def execHeaterUpdate (port : Port) (rings : List (Chan × Bool × Int × Int)) (s : State) : Host.Outcome State Fault Refusal :=
  .next (if !(s.port port).lit then s else rings.foldl (State.heaterRing port (s.portForward port)) s)

/-- A laser has reached its end-of-life limit, which is counted as a failure once. -/
def State.laserEol (p : Nat) (s : State) (c : Nat) : State :=
  if (s.port p).eol.contains c then s else (s.modPort p fun v => { v with eol := v.eol ++ [c] }).laneFail p c false true

/-- LASER_BIAS_SET (R350): the bias of each laser, and those whose bias has reached its end-of-life limit. -/
def execLaserBiasSet (port : Port) (bias : List (Chan × Half)) (eol : List Chan) (s : State) : Host.Outcome State Fault Refusal :=
  let s1 := s.modPort port fun v => { v with bias := bias.foldl (fun a b => aput a b.1.val b.2.toNat) v.bias }
  .next ((eol.map (·.val)).foldl (State.laserEol port) s1)

/-! ### Swings (R381, R382) -/

/-- A swing that cannot be carried out (R382). -/
def State.swingOk (s : State) (p k : Nat) : Bool := !(s.port p).split && (s.sub p 0).up && (s.preWord p k 0).testBit 31 && (s.sub p 0).swing.isNone

/-- Step 1 of R381, from T_s − HOLD: no DATA codeword leaves, and the router treats the port as in a swing. -/
def State.beginSwing (s : State) (p k ts : Nat) : State :=
  if !s.swingOk p k then s.bumpSat (fLNK_EVENTS_SWINGS_FAILED p)
  else ((s.modSub p 0 fun u => { u with swing := some { preset := k, ts := ts } }).setF (fLNK_STATUS_SWING_SLOW p) 0).showSub p 0

/-- Step 2 of R381, at T_s: the preset is loaded with its expected peer, and the port enters LOCK; one not LEARNED needs a full training. -/
def State.loadSwing (s : State) (p : Nat) : State := match (s.sub p 0).swing with
  | none => s
  | some w =>
    if w.loaded then s
    else
      let h := s.preWord p w.preset 0
      let peer : Peer := ⟨h % 2 ^ 21, s.preWord p w.preset 1 % 64, 0⟩
      let s1 := (s.modSub p 0 fun u => { (u.fresh false) with expect := some peer, swing := some { w with loaded := true } }).setF (fLNK_STATUS_PRESET p) w.preset
      if h.testBit 30 then
        (s1.modSub p 0 fun u => { u with lanes := (List.range 18).map fun c => (c, unpackLane (s.preWord p w.preset (4 + c))) }).enterSub p 0 2 none
      else (s1.setF (fLNK_STATUS_SWING_SLOW p) 1).toLight p 0 none false

/-- SWING_RELOCK (R381): the port has relocked from its preset on the new peer's light and sends SWING_CHECK. -/
def execSwingRelock (port : Port) (s : State) : Host.Outcome State Fault Refusal :=
  .next (match (s.sub port 0).swing with
    | none => s
    | some w =>
      if (s.sub port 0).state = 2 ∧ w.loaded ∧ ¬ w.relocked then
        let tag := s.preWord port w.preset 2
        s.modSub port 0 fun u => { u with swing := some { w with relocked := true }
                                          ctlOut := u.ctlOut ++ [[0x05] ++ leBytes 3 s.ownId ++ leBytes 1 (s.roleOf port) ++ leBytes 4 tag] }
      else s)

/-- SWING_CHECK_RECEIVE (R381): a match with the preset brings the port back; a mismatch makes it MISPLACED (R382). -/
def execSwingCheckReceive (port : Port) (sub : Sub) (s : State) : Host.Outcome State Fault Refusal :=
  let p := port.val
  .next (match s.takeType p sub 0x05 with
    | none => s
    | some x => match (x.2.sub p 0).swing with
      | none => x.2
      | some w =>
        if (x.2.sub p 0).state ≠ 2 ∨ ¬ w.loaded then x.2
        else
          let ok := decide (recNat x.1 1 3 = s.preWord p w.preset 0 % 2 ^ 21) && decide (recBits x.1 4 1 5 0 = s.preWord p w.preset 1 % 64) &&
            decide (recNat x.1 5 4 = s.preWord p w.preset 2)
          if ok then x.2.goActive p 0
          else ((x.2.modSub p 0 fun u => { u with swing := none }).enterSub p 0 6 (some 0x0B)).bumpSat (fLNK_EVENTS_SWINGS_FAILED p))

/-- SWING_TIMEOUT (R382): not back by T_s + SWITCH_NS + 10 µs. -/
def execSwingTimeout (port : Port) (s : State) : Host.Outcome State Fault Refusal :=
  let p := port.val
  .next (match (s.sub p 0).swing with
    | none => s
    | some w =>
      if w.loaded && decide (w.ts + s.preWord p w.preset 1 / 65536 + 10000 ≤ s.time.ft) then
        ((s.portRec p 0 0x0A 0).toLight p 0 (some 0x0A) true).bumpSat (fLNK_EVENTS_SWINGS_FAILED p)
      else s)

/-! ### Eye safety (R384) -/

/-- OPEN_FIBRE_SHUTDOWN (R384): 200 µs without light on any channel of a lit port. The next probe comes at a phase drawn at random. -/
def execOpenFibreShutdown (port : Port) (s : State) : Host.Outcome State Fault Refusal :=
  let v := s.port port
  .next (if v.lit && !v.shut && decide (v.anyLight + 200000 ≤ s.time.nowNs) then
    let s1 := (s.setLit port false).drew
    let s2 := (s1.subsOf port).foldl (fun st q => if (st.sub port q).state = 0 ∨ (st.sub port q).state = 7 then st else st.toLight port q (some 0x0D) false) s1
    (s2.modPort port fun x => { x with shut := true, probeAt := s.time.nowNs + Config.free s.freeCtr % 1000000000 }).setF (fLNK_STATUS_OPEN_FIBRE port) 1
  else s)

/-- OPEN_FIBRE_PROBE (R384): a shut port lights its lasers for 2 ms once in every second. -/
def execOpenFibreProbe (port : Port) (s : State) : Host.Outcome State Fault Refusal :=
  let v := s.port port
  .next (if v.shut && v.probeEnd.isNone && decide (v.probeAt ≤ s.time.nowNs) then
    (List.range 16).foldl (fun st c => st.emit (.light port c true))
      (s.modPort port fun x => { x with lit := true, probeEnd := some (s.time.nowNs + 2000000), probeAt := x.probeAt + 1000000000 })
  else s)

/-- OPEN_FIBRE_PROBE_END (R384): the probe ends without far light. -/
def execOpenFibreProbeEnd (port : Port) (s : State) : Host.Outcome State Fault Refusal :=
  .next (match (s.port port).probeEnd with
    | some e =>
      if (s.port port).shut && decide (e ≤ s.time.nowNs) then
        (List.range 16).foldl (fun st c => st.emit (.light port c false)) (s.modPort port fun x => { x with lit := false, probeEnd := none })
      else s
    | none => s)

/-- FAR_LIGHT_DETECT (R384): a shut or probing port sees far light, stays lit and goes on from LIGHT. -/
def execFarLightDetect (port : Port) (s : State) : Host.Outcome State Fault Refusal :=
  let v := s.port port
  .next (if v.shut then
    let s1 := (s.modPort port fun x => { x with shut := false, probeEnd := none, anyLight := s.time.nowNs }).setF (fLNK_STATUS_OPEN_FIBRE port) 0
    if v.lit then s1 else s1.setLit port true
  else s)

end Sys2Proof.Machine
end

