-- ==== Sys2Proof/Machine/PortCmds.lean ====
section
/-! DEFINITION. The port commands (R369, R386–R389), PORT_POWER (R716) and the swing (R381). -/

namespace Sys2Proof.Machine

open Sys2Proof

/-! ### PORT_CONTROL (R386, R387) -/

/-- An opcode with an action byte at byte i: the next descriptor of SQ n is carried out when its action is `act`. One whose action no table names completes with the bad-field code
`bad`. -/
def State.ringAction (s : State) (n op i act count bad : Nat) (k : State → InFlight → State) : State := match s.nextCmd n op with
  | some f => if recNat f.desc i 1 = act then k s f else if count ≤ recNat f.desc i 1 then s.finish f bad [] else s
  | none => s

/-- The fields of a PORT_CONTROL: the sub-ports it names; none where a field is out of range. -/
def State.pcSubs (s : State) (d : List Byte) : Option (List Nat) :=
  let p := recNat d 8 1
  let q := recNat d 10 1
  if 34 ≤ p then none
  else if q = 0xFF then some (s.subsOf p)
  else if q < 16 ∧ (s.port p).split then some [q]
  else none

/-- Whole-port commands name sublink 0xFF. -/
def pcWhole (d : List Byte) : Bool := recNat d 10 1 == 0xFF

/-- Every sub-port of a port is DARK. -/
def State.isDark (s : State) (p : Nat) : Bool := (s.subsOf p).all fun q => (s.sub p q).state == 0

/-- CFG.ENABLE as a command leaves it (R390). -/
def State.setEnable (s : State) (p : Nat) (on : Bool) : State := s.setF (fLNK_CFG_ENABLE p) on.toNat

/-- Sub-ports to LIGHT; those in QUARANTINE start with FAILS_IN_ROW cleared (R376). -/
def State.pcTrain (s : State) (p : Nat) (qs : List Nat) (whole : Bool) : State :=
  let s1 := qs.foldl (fun st q => if (st.sub p q).state = 7 then st.modSub p q fun u => { u with failsInRow := 0 } else st) s
  if whole then (s1.setEnable p true).lightPort p
  else qs.foldl (fun st q => st.toLight p q none false) (s1.setLit p true)

/-- DISABLE: to DARK, always. -/
def State.pcDisable (s : State) (f : InFlight) : State := match s.pcSubs f.desc with
  | none => s.finish f 0x91 []
  | some qs =>
    let p := recNat f.desc 8 1
    (if pcWhole f.desc then (s.darkPort p 0x0E).setEnable p false
     else qs.foldl (fun st q => (st.modSub p q fun u => { (u.fresh true) with state := u.state }).enterSub p q 0 (some 0x0E)) s).finish f 0x90 []

/-- ENABLE: a whole port in DARK. -/
def State.pcEnable (s : State) (f : InFlight) : State := match s.pcSubs f.desc with
  | none => s.finish f 0x91 []
  | some _ =>
    let p := recNat f.desc 8 1
    if pcWhole f.desc ∧ s.isDark p then ((s.setEnable p true).lightPort p).finish f 0x90 [] else s.finish f 0x92 []

/-- RETRAIN: not DARK. -/
def State.pcRetrain (s : State) (f : InFlight) : State := match s.pcSubs f.desc with
  | none => s.finish f 0x91 []
  | some qs =>
    let p := recNat f.desc 8 1
    if (if pcWhole f.desc then s.isDark p else qs.all fun q => (s.sub p q).state == 0) then s.finish f 0x92 []
    else (s.pcTrain p qs (pcWhole f.desc)).finish f 0x90 []

/-- RELEASE: QUARANTINE. Of a whole split port the sublinks in QUARANTINE are released. -/
def State.pcRelease (s : State) (f : InFlight) : State := match s.pcSubs f.desc with
  | none => s.finish f 0x91 []
  | some qs =>
    let p := recNat f.desc 8 1
    let rs := qs.filter fun q => (s.sub p q).state == 7
    if rs.isEmpty then s.finish f 0x92 [] else (s.pcTrain p rs (pcWhole f.desc && !(s.port p).split)).finish f 0x90 []

/-- A sub-port in MISPLACED takes the peer it observes as the one it expects, and goes to ACTIVE over the lanes that serve (R376). -/
def State.acceptOne (s : State) (p q : Nat) : State :=
  let u := s.sub p q
  let w := if (s.port p).split then 1 else (s.widthFor p u.common u.width).getD 2
  (s.setSub p q { u with mixed := false, width := w, txMap := u.txMap.take w, rxMap := u.rxMap.take w
                         expect := some ⟨recNat u.peer 0 3 % 2 ^ 21, recBits u.peer 6 1 5 0, recBits u.peer 7 1 3 0⟩ }).goActive p q

/-- ACCEPT_PEER: MISPLACED; the observed peer is expected from now on (R376). -/
def State.pcAccept (s : State) (f : InFlight) : State := match s.pcSubs f.desc with
  | none => s.finish f 0x91 []
  | some qs =>
    let p := recNat f.desc 8 1
    let rs := qs.filter fun q => (s.sub p q).state == 6
    if rs.isEmpty then s.finish f 0x92 []
    else (rs.foldl (fun st q => st.acceptOne p q) s).finish f 0x90 []

/-- SET_MODE: a whole port; SPLIT and WIDTH_MAX; a port that is not DARK retrains. -/
def State.pcSetMode (s : State) (f : InFlight) : State := match s.pcSubs f.desc with
  | none => s.finish f 0x91 []
  | some _ =>
    let p := recNat f.desc 8 1
    if 8 ≤ recNat f.desc 11 1 then s.finish f 0x91 []
    else if !pcWhole f.desc then s.finish f 0x92 []
    else
      let s1 := (s.setF (fLNK_CFG_SPLIT p) (recBits f.desc 11 1 0 0)).setF (fLNK_CFG_WIDTH_MAX p) (recBits f.desc 11 1 2 1)
      (if s.isDark p then s1 else s1.lightPort p).finish f 0x90 []

/-- Port p takes the configuration, expected peers and presets of port x (R369). -/
def State.copyConfig (s : State) (p x : Nat) : State :=
  let s1 := (((s.setF (fLNK_CFG_SPLIT p) (s.getF (fLNK_CFG_SPLIT x))).setF (fLNK_CFG_WIDTH_MAX p) (s.getF (fLNK_CFG_WIDTH_MAX x))).setF (fLNK_CFG_FF_GAIN p)
    (s.getF (fLNK_CFG_FF_GAIN x)))
  let s2 := (List.range 16).foldl (fun st q => st.modSub p q fun u => { u with expect := (st.sub x q).expect }) s1
  (List.range 16).foldl (fun st k => (List.range 32).foldl (fun a w => a.setPreWord p k w (a.preWord x k w)) st) s2

/-- SUBSTITUTE (R369): the spare takes the configuration, expected peers and presets of the port it replaces, which goes DARK; then the spare trains as it. -/
def State.pcSubstitute (s : State) (f : InFlight) : State :=
  let p := recNat f.desc 8 1
  let x := recNat f.desc 11 1
  if p < 32 ∨ 34 ≤ p ∨ 32 ≤ x ∨ (s.pcSubs f.desc).isNone then s.finish f 0x91 []
  else if s.isSet (fLNK_STATUS_SUBST p) then s.finish f 0x93 []
  else
    let s4 := (((s.copyConfig p x).darkPort x 0x0E).setEnable x false)
    let s5 := (s4.setF (fLNK_STATUS_SUBST p) 1).setF (fLNK_STATUS_ALIAS p) x
    ((s5.setEnable p true).lightPort p).finish f 0x90 []

/-- UNSUBSTITUTE: the spare goes DARK and the replaced port trains under its own number. -/
def State.pcUnsubstitute (s : State) (f : InFlight) : State :=
  let p := recNat f.desc 8 1
  if (s.pcSubs f.desc).isNone then s.finish f 0x91 []
  else if 32 ≤ p ∧ s.isSet (fLNK_STATUS_SUBST p) then
    let x := s.getF (fLNK_STATUS_ALIAS p)
    let s1 := (s.darkPort p 0x0E).setEnable p false
    let s2 := (s1.setF (fLNK_STATUS_SUBST p) 0).setF (fLNK_STATUS_ALIAS p) 0
    ((s2.setEnable x true).lightPort x).finish f 0x90 []
  else s.finish f 0x92 []

/-- DISABLE (R387). -/
def execDisable (sq : RingNo) (s : State) : Host.Outcome State Fault Refusal := .next (s.ringAction sq.toNat 0x68 9 0 8 0x91 State.pcDisable)
/-- ENABLE (R387). -/
def execEnable (sq : RingNo) (s : State) : Host.Outcome State Fault Refusal := .next (s.ringAction sq.toNat 0x68 9 1 8 0x91 State.pcEnable)
/-- RETRAIN (R387). -/
def execRetrain (sq : RingNo) (s : State) : Host.Outcome State Fault Refusal := .next (s.ringAction sq.toNat 0x68 9 2 8 0x91 State.pcRetrain)
/-- RELEASE (R387). -/
def execRelease (sq : RingNo) (s : State) : Host.Outcome State Fault Refusal := .next (s.ringAction sq.toNat 0x68 9 3 8 0x91 State.pcRelease)
/-- ACCEPT_PEER (R387). -/
def execAcceptPeer (sq : RingNo) (s : State) : Host.Outcome State Fault Refusal := .next (s.ringAction sq.toNat 0x68 9 4 8 0x91 State.pcAccept)
/-- SET_MODE (R387). -/
def execSetMode (sq : RingNo) (s : State) : Host.Outcome State Fault Refusal := .next (s.ringAction sq.toNat 0x68 9 5 8 0x91 State.pcSetMode)
/-- SUBSTITUTE (R369, R387). -/
def execSubstitute (sq : RingNo) (s : State) : Host.Outcome State Fault Refusal := .next (s.ringAction sq.toNat 0x68 9 6 8 0x91 State.pcSubstitute)
/-- UNSUBSTITUTE (R387). -/
def execUnsubstitute (sq : RingNo) (s : State) : Host.Outcome State Fault Refusal := .next (s.ringAction sq.toNat 0x68 9 7 8 0x91 State.pcUnsubstitute)

/-! ### PORT_EXPECT, PRESET_WRITE (R388) and PORT_POWER (R716) -/

/-- PORT_EXPECT: the expected peer changes; a sub-port that is up and no longer matches becomes MISPLACED. -/
def State.portExpect (s : State) (f : InFlight) : State :=
  let d := f.desc
  let p := recNat d 8 1
  let b := recNat d 9 1
  let q := if b = 0xFF then 0 else b
  let split := (s.port p).split
  if 34 ≤ p ∨ (b ≠ 0xFF ∧ 16 ≤ b) ∨ (split = (b == 0xFF)) ∨ 34 ≤ recNat d 16 1 then s.finish f 0x91 []
  else
    let e : Option Peer := if recBits d 10 1 0 0 = 1 then none else some ⟨recNat d 12 4, recNat d 16 1, recNat d 17 1⟩
    let s1 := s.modSub p q fun u => { u with expect := e }
    (if (s1.sub p q).up && !s1.peerExpected p q then s1.enterSub p q 6 (some 0x06) else s1).finish f 0x90 []

/-- PORT_EXPECT (R388). -/
def execPortExpect (sq : RingNo) (s : State) : Host.Outcome State Fault Refusal := .next (s.ringCmd sq.toNat 0x69 State.portExpect)

/-- PRESET_WRITE: checked; it waits for a swing to its preset to end. -/
def State.presetStart (s : State) (f : InFlight) : State :=
  let d := f.desc
  let p := recNat d 8 1
  if 34 ≤ p ∨ 34 ≤ recNat d 16 1 ∨ 20000 < recNat d 18 2 then s.finish f 0x91 []
  else if s.isSet (fLNK_CFG_SPLIT p) ∨ (s.port p).split then s.finish f 0x94 []
  else match (s.sub p 0).swing with
    | some w =>
      if w.preset = recNat d 9 1 then (s.startFlight f p w.preset).modPort p fun v => { v with presetWait := v.presetWait ++ [f.no] } else s.presetWrite f
    | none => s.presetWrite f

/-- PRESET_WRITE (R388). -/
def execPresetWrite (sq : RingNo) (s : State) : Host.Outcome State Fault Refusal := .next (s.ringCmd sq.toNat 0x6A State.presetStart)

/-- PORT_POWER (R716): only while the port is DARK. -/
def State.portPower (s : State) (f : InFlight) : State :=
  let p := recNat f.desc 8 1
  if 34 ≤ p ∨ 2 ≤ recNat f.desc 9 1 then s.finish f 0xF1 []
  else if !s.isDark p then s.finish f 0xF5 []
  else (s.modPort p fun v => { v with hold := recNat f.desc 9 1 == 0, heater := if recNat f.desc 9 1 = 0 then v.heater else [] }).finish f 0xF0 []

/-- PORT_POWER (R716). -/
def execPortPower (sq : RingNo) (s : State) : Host.Outcome State Fault Refusal := .next (s.ringCmd sq.toNat 0x98 State.portPower)

/-- SWING (R381): a SWING timed action that names a port and a preset. It comes twice: from T_s − HOLD on DATA codewords stop, and at T_s the preset is loaded. -/
def State.swingAct (s : State) (p k ts : Nat) : State :=
  match (s.sub p 0).swing with
  | some w =>
    if w.ts = ts ∧ w.preset = k then (if ts ≤ s.time.ft ∧ ¬ w.loaded then s.loadSwing p else s)
    else s.bumpSat (fLNK_EVENTS_SWINGS_FAILED p)
  | none => if ts ≤ s.time.ft + (s.sub p 0).hold then s.beginSwing p k ts else s

/-- A write of LNK[p].CFG while setup is open (R390): ENABLE trains a DARK port or takes the port to DARK; SPLIT and WIDTH_MAX apply at the next training. -/
def State.lnkCfgWrite (s : State) (p v : Nat) : State :=
  if s.isSet fTOP_SETUP_LOCK_LOCK then s.bumpSat fTOP_LOCK_WRITES_COUNT
  else
    let on := decide (v / 2 ^ 31 = 1)
    let s1 := (((s.setEnable p on).setF (fLNK_CFG_SPLIT p) (v / 2 ^ 30 % 2)).setF (fLNK_CFG_WIDTH_MAX p) (v / 2 ^ 28 % 4)).setF (fLNK_CFG_FF_GAIN p) (v / 2 ^ 16 % 256)
    if on then (if s1.isDark p then s1.lightPort p else s1)
    else if s1.isDark p then s1 else s1.darkPort p 0x0E

/-- LNK_CFG_WRITE (R390). -/
def execLnkCfgWrite (port : Port) (value : Word) (s : State) : Host.Outcome State Fault Refusal := .next (s.lnkCfgWrite port.val value.toNat)

end Sys2Proof.Machine
end

