-- ==== Sys2Proof/Machine/Fabric.lean ====
section
/-! DEFINITION. The shared operations of the router: stores and virtual channels (R404–R408), Keystone buckets (R422, R423), the choice of a sub-port (R412–R419), gate windows and
pauses (R545–R552), and the putting together of frames (R424, R475). -/

namespace Sys2Proof.Machine

open Sys2Proof

/-! ### Virtual channels and stores (R404–R408) -/

/-- The virtual channel of a cell. -/
def vcOf (c : Cell) : Nat := 3 * c.cls + c.level

/-- The count of a virtual channel in a list of 18. -/
def vcGet (l : List Nat) (v : Nat) : Nat := l.getD v 0
def vcSet (l : List Nat) (v n : Nat) : List Nat := (List.range 18).map fun i => if i = v then n else l.getD i 0

/-- Whether one more cell of channel v fits where `used` gives the cells of each channel. -/
def roomFor (used : Nat → Nat) (reserved shared v : Nat) : Bool :=
  decide (used v < reserved) || decide (sumNat ((List.range 18).map fun i => used i - reserved) < shared)

/-- Cells of channel v in the input buffer of a port: those not yet routed and those queued for an output (R406, R407). -/
def State.inputUsed (s : State) (p v : Nat) : Nat :=
  ((s.port p).input.filter fun c => vcOf c.cell == v).length +
    sumNat (s.subs.map fun e => (e.2.outQ.filter fun c => c.inPort == some p && vcOf c.cell == v).length)

/-- Whether a cell of channel v may enter a port's input buffer. -/
def State.inputRoom (s : State) (p v : Nat) : Bool := roomFor (s.inputUsed p) 32 192 v

/-- Whether a sub-port holds a credit for channel v (R408). -/
def State.hasCredit (s : State) (p q v : Nat) : Bool :=
  if (s.port p).split then roomFor (vcGet (s.sub p q).occ) 50 870 v else roomFor (vcGet (s.sub p q).occ) 800 13920 v

/-- The header with which a cell leaves a port: LEVEL + 1 on a GLOBAL one (R405). -/
def State.leaving (s : State) (p : Nat) (c : Cell) : Cell := if s.portType p = 2 then { c with level := c.level + 1 } else c

/-! ### Keystone buckets (R422, R423, R436) -/

/-- KEY_SHARE of a port in per cent. -/
def State.keyShare (s : State) (p : Nat) : Nat := min 25 (max 1 (s.getF (fRTE_PORT_CFG_KEY_SHARE (s.roleOf p))))

/-- A bucket filled up to now: W × 120 Gb/s ÷ 576 bits at KEY_SHARE, at most 16 tokens. -/
def State.refill (s : State) (p q : Nat) (b : Bucket) : Bucket :=
  ⟨min (16 * 2 ^ 32) (b.tokens + 2 ^ 32 * ((s.time.nowNs - b.at') * (s.sub p q).width * 120 * s.keyShare p) / 57600), s.time.nowNs⟩

/-- A token, when there is one. -/
def Bucket.take (b : Bucket) : Option Bucket := if 2 ^ 32 ≤ b.tokens then some { b with tokens := b.tokens - 2 ^ 32 } else none

/-! ### Gate windows and pauses (R545–R552) -/

/-- Bit of a class in a gate entry's mask: C 0, Q 1, P 2, B 3, S 4. -/
def gateBit (cls : Nat) : Nat := cls - 1

/-- The entries of a schedule within one cycle, as (index, mask, start, end) in ns from the cycle's start. -/
def Gate.segments (g : Gate) : List (Nat × Nat × Nat × Nat) :=
  let l := (g.entries.foldl (fun (a : List (Nat × Nat × Nat × Nat) × Nat × Nat) e =>
    if a.2.1 < g.cycle then (a.1 ++ [(a.2.2, e.1, a.2.1, min g.cycle (a.2.1 + e.2))], a.2.1 + e.2, a.2.2 + 1) else a) ([], 0, 0)).1
  match l.getLast? with
  | some e => l.dropLast ++ [(e.1, e.2.1, e.2.2.1, g.cycle)]
  | none => []

/-- The place of a time in the cycle. -/
def Gate.phase (g : Gate) (t : Nat) : Nat := (((t : Int) - (g.base : Int)) % (g.cycle : Int)).toNat

/-- The entry in force at a time: its index and mask. A schedule that is not enabled opens every class. -/
def Gate.entryAt (g : Gate) (t : Nat) : Nat × Nat :=
  if !g.enabled then (0, 0x1F)
  else match g.segments.find? fun e => decide (e.2.2.1 ≤ g.phase t) && decide (g.phase t < e.2.2.2) with
    | some e => (e.1, e.2.1)
    | none => (0, 0x1F)

/-- For a class open at time t: the time its window closes; none when it never does. -/
def Gate.closeAt (g : Gate) (cls t : Nat) : Option Nat :=
  if !g.enabled then none
  else
    let segs := g.segments
    let shifted := segs.map fun e => (e.2.1, e.2.2.1 + g.cycle)
    let closed := (segs.map fun e => (e.2.1, e.2.2.1)) ++ shifted
    (closed.find? fun e => decide (g.phase t < e.2) && !e.1.testBit (gateBit cls)).map fun e => t + (e.2 - g.phase t)

/-- The first cycle start of a schedule at or after a time. -/
def Gate.cycleFrom (g : Gate) (t : Nat) : Nat := if g.phase t = 0 then t else t + (g.cycle - g.phase t)

/-- When a pending schedule takes over (R550). -/
def Gate.takeover (g : Gate) : Nat := g.cycleFrom (max g.activateAt g.loadedAt)

/-- The schedule of a port: that of the port it stands in for (R369). -/
def State.gateOf (s : State) (p : Nat) : Gate := (s.port (s.roleOf p)).gate

/-- Until when a class stays open on a port at time t: none closed, `some none` without end, else the time (R547, R548, R550). -/
def State.window (s : State) (p cls t : Nat) : Option (Option Nat) :=
  let g := s.gateOf p
  if !(g.entryAt t).2.testBit (gateBit cls) then none
  else match (s.port (s.roleOf p)).nextGate with
    | none => some (g.closeAt cls t)
    | some n =>
      let own := g.closeAt cls t
      if own.any fun c => decide (c ≤ n.takeover) then some own
      else if (n.entryAt n.takeover).2.testBit (gateBit cls) then some (n.closeAt cls n.takeover) else some (some n.takeover)

/-- Whether a class is paused on a sub-port (R552). -/
def State.isPaused (s : State) (p q cls : Nat) : Bool := (s.sub p q).paused.any fun e => e.1 == cls && decide (s.time.nowNs < e.2.1)

/-- Whether a cell of a class may begin to leave now: not paused, and done one cell time before its window closes (R547, R548). Class K is never held. -/
def State.gateOpen (s : State) (p q cls : Nat) : Bool :=
  cls == 0 || (!s.isPaused p q cls && (match s.window p cls s.time.ft with
    | none => false
    | some none => true
    | some (some t) => decide ((s.sub p q).tx.n + 1152 ≤ (t - s.time.ft) * 120 * (s.sub p q).width)))

/-! ### Choosing the sub-port (R405, R412, R413, R416–R419) -/

/-- The rank of a port type, by the number under which tables know the port; 0 where no cell may leave (R402, R405). -/
def State.rankOf (s : State) (role : Nat) : Nat := if 34 ≤ role then 0 else (s.getF (fRTE_PORT_CFG_TYPE role) + 1) % 4

/-- The arrival rank of a cell. -/
def State.arrivalRank (s : State) (inPort : Option Nat) : Nat := match inPort with
  | none => 0
  | some p => s.rankOf (s.roleOf p) % 3

/-- Whether R405 lets a cell leave by a port. -/
def State.hopAllowed (s : State) (c : Cell) (inPort : Option Nat) (role : Nat) : Bool :=
  decide (s.arrivalRank inPort < s.rankOf role) && (s.rankOf role != 3 || decide (c.level < 2))

/-- The valid candidates of a port set, as (port number, sublink), in candidate order (R413). -/
def State.candidates (s : State) (j : Nat) : List (Nat × Nat) :=
  [(s.getF (fRTE_PSET_LO_VALID0 j), s.getF (fRTE_PSET_LO_PORT0 j), s.getF (fRTE_PSET_LO_SUB0 j)),
   (s.getF (fRTE_PSET_LO_VALID1 j), s.getF (fRTE_PSET_LO_PORT1 j), s.getF (fRTE_PSET_LO_SUB1 j)),
   (s.getF (fRTE_PSET_HI_VALID2 j), s.getF (fRTE_PSET_HI_PORT2 j), s.getF (fRTE_PSET_HI_SUB2 j)),
   (s.getF (fRTE_PSET_HI_VALID3 j), s.getF (fRTE_PSET_HI_PORT3 j), s.getF (fRTE_PSET_HI_SUB3 j))].filterMap fun e => if e.1 = 1 then some e.2 else none

/-- The sub-port a candidate names: the spare that stands in for its port, sublink 0 of a bonded port; 32 and 33 under their own numbers carry nothing (R403, R413). -/
def State.candSub (s : State) (e : Nat × Nat) : Nat × Nat :=
  let p := if e.1 < 32 then s.physPort e.1 else 34
  (p, if (s.port p).split then e.2 else 0)

/-- The flow hash of R416. -/
def flowHash (src dst cls salt : Nat) : Nat :=
  let w (x : Nat) : Nat := x % 2 ^ 32
  let x0 := ((w salt).xor src).xor ((w (2 ^ 11 * dst)).xor (w (2 ^ 28 * cls)))
  let x1 := w (0x7FEB352D * (x0.xor (x0 / 2 ^ 16)))
  let x2 := w (0x846CA68B * (x1.xor (x1 / 2 ^ 15)))
  x2.xor (x2 / 2 ^ 16)

/-- The cells sent on a sub-port and not freed, over all channels. -/
def SubPort.load (u : SubPort) : Nat := sumNat u.occ

/-- Link 6 is down and its detour over links 4, 2 and 5 is unavailable too, so that the halves of the router do not reach each other (R597). -/
def State.halvesCut (s : State) : Bool := s.getF (fD2D_LINK0_STATE 6) == 3 && (s.inL4 || [4, 2, 5].any fun k => s.getF (fD2D_LINK0_STATE k) != 2)

/-- Whether a cell from an input port may reach an output port: ports of even number lie on IO-N, of odd number on IO-S (R40). -/
def State.sameHalf (s : State) (inPort : Option Nat) (p : Nat) : Bool := match inPort with
  | some i => i % 2 == p % 2 || !s.halvesCut
  | none => true

/-- The sub-port for a cell, when a candidate that R405 allows is available: by the flow hash, or for class S the least loaded (R416, R417). -/
def State.chooseSub (s : State) (c : Cell) (set : Nat) (inPort : Option Nat) : Option (Nat × Nat) :=
  let cs := s.candidates set
  let ok (e : Nat × Nat) : Bool := s.hopAllowed c inPort e.1 && s.sameHalf inPort (s.candSub e).1 && s.available (s.candSub e).1 (s.candSub e).2 c.cls
  if c.cls = 5 then
    (cs.filter ok).foldl (fun (a : Option (Nat × Nat)) e =>
      let x := s.candSub e
      match a with
      | none => some x
      | some b => if (s.sub x.1 x.2).load < (s.sub b.1 b.2).load then some x else a) none
  else
    let k := flowHash c.src c.dst c.cls (s.getF fRTE_HASH_SALT_SALT) % max 1 cs.length
    ((cs.drop k ++ cs.take k).find? ok).map s.candSub

/-- A FABRIC record (R649). -/
def State.fabricRec (s : State) (event arg1 cls unitKind unitIx : Nat) : State :=
  s.errRec { typ := 0x08, sev := 1, unitKind := unitKind, unitIx := unitIx, arg0 := event, arg1 := arg1, arg2 := cls }

/-- A cell queued for a sub-port; one of class K that the device originates waits for admission first (R422). -/
def State.queueCell (s : State) (x : Nat × Nat) (c : OutCell) : State :=
  s.modSub x.1 x.2 fun u => if c.cell.cls = 0 ∧ c.inPort.isNone then { u with admitQ := u.admitQ ++ [c] } else { u with outQ := u.outQ ++ [c] }

/-- Choose a sub-port for a cell and queue it there, or discard it (R413, R416–R418). -/
def State.chooseAndQueue (s : State) (c : Cell) (set : Nat) (inPort : Option Nat) : State :=
  let cs := s.candidates set
  if cs.isEmpty then s.dropCell fRTE_DROP_NO_ROUTE_COUNT
  else
    let allowed := cs.filter fun e => s.hopAllowed c inPort e.1
    let s1 := if allowed.length < cs.length then s.bumpSat fRTE_ORDER_VIOLATION_COUNT else s
    if allowed.isEmpty then
      let s2 := s1.dropCell fRTE_DROP_ORDER_COUNT
      if s2.isSet fRTE_STATUS_ORDER_ALERT then s2 else (s2.setF fRTE_STATUS_ORDER_ALERT 1).fabricRec 2 c.src c.cls 1 0
    else match s.chooseSub c set inPort with
      | some x => s1.queueCell x { cell := c, inPort := inPort, set := set, at' := s.time.nowNs }
      | none => s1.dropCell fRTE_DROP_NO_PATH_COUNT

/-! ### The override table (R414, R415) -/

/-- An override entry: VALUE and MASK. -/
def State.ovrValue (s : State) (i : Nat) : Nat := 2 ^ 18 * (s.getF (fRTE_OVR_VALUE_LO_WORD i)) + 2 ^ 32 * (s.getF (fRTE_OVR_VALUE_HI_WORD i))
def State.ovrMask (s : State) (i : Nat) : Nat := s.getF (fRTE_OVR_MASK_LO_WORD i) + 2 ^ 32 * (s.getF (fRTE_OVR_MASK_HI_WORD i))

/-- The valid entries that match a cell, in index order. -/
def State.ovrMatches (s : State) (c : Cell) : List Nat :=
  (List.range 256).filter fun i => (s.ovrMask i).testBit 13 && ((headerOf c).xor (s.ovrValue i) &&& s.ovrMask i) / 2 ^ 18 == 0

/-- The entry that wins, and the conflict counted. -/
def State.override (s : State) (c : Cell) : State × Option Nat :=
  if !s.isSet fRTE_CFG_OVR_EN then (s, none)
  else
    let ms := s.ovrMatches c
    let pri (i : Nat) : Nat := bitsOf (s.ovrMask i) 17 14
    let top := ms.foldl (fun a i => max a (pri i)) 0
    match ms.filter fun i => pri i == top with
    | [] => (s, none)
    | [i] => (s, some i)
    | i :: j :: _ =>
      let s1 := s.bumpSat fRTE_OVR_CONFLICT_COUNT
      (if s.isSet fRTE_STATUS_OVR_ALERT then s1 else (s1.setF fRTE_STATUS_OVR_ALERT 1).fabricRec 1 (i + 2 ^ 32 * j) c.cls 1 0, some i)

/-- The flat entry of a destination: VALID, DROP, SET (R412). -/
def State.flatEntry (s : State) (dst : Nat) : Bool × Bool × Nat :=
  let i := dst / 2
  if dst % 2 = 0 then (s.isSet (fFLAT_ENTRY_VALID0 i), s.isSet (fFLAT_ENTRY_DROP0 i), s.getF (fFLAT_ENTRY_SET0 i))
  else (s.isSet (fFLAT_ENTRY_VALID1 i), s.isSet (fFLAT_ENTRY_DROP1 i), s.getF (fFLAT_ENTRY_SET1 i))

/-- A cell that is not for this device: by the override table, else by the flat table (R411). -/
def State.lookUp (s : State) (c : Cell) (inPort : Option Nat) : State :=
  let o := s.override c
  match o.2 with
  | some i => if (s.ovrMask i).testBit 12 then o.1.dropCell fRTE_DROP_RULE_COUNT else o.1.chooseAndQueue c (s.ovrMask i % 4096) inPort
  | none =>
    let e := s.flatEntry c.dst
    if !e.1 then o.1.dropCell fRTE_DROP_NO_ROUTE_COUNT
    else if e.2.1 then o.1.dropCell fRTE_DROP_RULE_COUNT
    else o.1.chooseAndQueue c e.2.2 inPort

/-! ### The ingress filter (R402, R403, R428) -/

/-- Whether a routed cell may enter by a sub-port. -/
def State.filterPass (s : State) (p q src : Nat) : Bool :=
  let r := s.roleOf p
  let peer := match (s.sub p q).expect with
    | some e => e.id
    | none => recNat (s.sub p q).peer 0 3 % 2 ^ 21
  s.getF (fRTE_PORT_CFG_TYPE r) != 3 && (decide (p < 32) || s.isSet (fLNK_STATUS_SUBST p)) &&
    (!s.isSet (fRTE_PORT_CFG_FILTER_EN r) || src == peer || (List.range 16).any fun i =>
      s.isSet (fRTE_FILTER_LO_VALID r i) && decide (s.getF (fRTE_FILTER_LO_LO r i) ≤ src) && decide (src ≤ s.getF (fRTE_FILTER_HI_HI r i)))

/-! ### Policing (R423) -/

/-- A cell policed at its input: the cell as it goes on, or none where it is discarded with its demotion. -/
def State.police (s : State) (p q : Nat) (c : Cell) : State × Option Cell :=
  if c.cls ≠ 0 then (s, some c)
  else
    let u := s.sub p q
    let b := s.refill p q u.police
    let late := !c.sof && u.demote.contains (c.src, c.dst)
    match (if late then none else b.take) with
    | some b1 => (s.setSub p q { u with police := b1, demote := u.demote.filter (· != (c.src, c.dst)) }, some c)
    | none =>
      let rest := u.demote.filter (· != (c.src, c.dst))
      let s1 := (s.setSub p q { u with police := b, demote := if c.eof then rest else rest ++ [(c.src, c.dst)] }).bumpSat (fRTE_PORT_DEMOTED_COUNT (s.roleOf p))
      let d := { c with cls := 1, demoted := true }
      if s.inputRoom p (vcOf d) then (s1, some d) else ({ s1 with tele := { s1.tele with drops := s1.tele.drops + 1 } }, none)

/-! ### Frames put together (R395, R424, R475) -/

/-- The series in which a destination puts cells together: class K takes in demoted cells. -/
def seriesOf (c : Cell) : Nat := if c.demoted ∧ c.cls = 1 then 0 else c.cls

/-- A frame out of sequence, or one that ended without its EOF: counted, recorded, and a link failure in every running step whose slice holds its source (R475). -/
def State.seqError (s : State) (src cls : Nat) : State :=
  let s1 := (s.bumpSat fMEM_RMT_SEQ_SEQ_ERRORS).fabricRec 5 src cls 1 0
  let hit (e : Nat × Step) : Bool := e.2.phase == .running && s.sliceValid e.2.slice && (s.endpointRank e.2.slice src).isSome
  (s.steps.slots.filter hit).foldl (fun st e => st.stepFault e.1 0x02 { arg0 := (s.endpointRank e.2.slice src).getD 0, arg1 := src }) s1

/-- The MSEQ check: whether a frame is the next of its source and class; the table holds 4,096 pairs, most recently used first. -/
def State.mseqCheck (s : State) (src cls mseq : Nat) : State × Bool :=
  let k := src * 8 + cls
  let ok := match aget s.router.mseqRx k with
    | some m => decide (mseq = (m + 1) % 256)
    | none => true
  (s.setRouter { s.router with mseqRx := ((k, mseq) :: s.router.mseqRx.filter (·.1 != k)).take 4096 }, ok)

/-- A frame that has ended: delivered when it is whole and in sequence. Telemetry is taken up at once. -/
def State.endFrame (s : State) (f : PartFrame) (whole : Bool) : State :=
  let r := s.mseqCheck f.src f.cls f.mseq
  if !r.2 || !whole then r.1.seqError f.src f.cls
  else if f.typ = 3 then r.1
  else r.1.setRouter { r.1.router with delivered := r.1.router.delivered ++ [{ src := f.src, cls := f.cls, typ := f.typ, mseq := f.mseq, body := f.main ++ f.tail }] }

/-- A cell added to a frame. -/
def PartFrame.add (f : PartFrame) (c : Cell) : PartFrame :=
  { f with sof := f.sof || c.sof, eof := f.eof || c.eof, main := if c.demoted then f.main else f.main ++ c.payload, tail := if c.demoted then f.tail ++ c.payload else f.tail }

/-- A cell for this device on an ordered class (R424). -/
def State.assemble (s : State) (c : Cell) : State :=
  let k := seriesOf c
  if s.cutFrames.contains (c.src * 8 + k, c.mseq) then
    (if c.eof then { s with cutFrames := s.cutFrames.filter (· != (c.src * 8 + k, c.mseq)) } else s)
  else
    let mine (f : PartFrame) : Bool := f.src == c.src && f.cls == k
    let fresh : PartFrame := ⟨c.src, k, c.mseq, c.typ, false, false, [], []⟩
    let broken : Option PartFrame := (s.parts.find? mine).filter fun f => f.mseq != c.mseq || (c.sof && f.sof)
    let s1 : State := match broken with
      | some f => ({ s with parts := s.parts.filter fun x => !mine x, cutFrames := if k = 0 ∧ f.mseq ≠ c.mseq then s.cutFrames ++ [(c.src * 8 + k, f.mseq)] else s.cutFrames }).endFrame f false
      | none => s
    let f := ((s1.parts.find? mine).getD fresh).add c
    let rest := s1.parts.filter fun x => !mine x
    if f.eof && (f.sof || k != 0) then ({ s1 with parts := rest }).endFrame f f.sof else { s1 with parts := rest ++ [f] }

/-- A cell whose DST is this device (R43, R401). -/
def State.deliverLocal (s : State) (c : Cell) : State :=
  if s.inL4 then s.dropCell fRTE_DROP_LOCAL_COUNT
  else if c.cls = 5 then
    (if c.typ = 3 then s else s.setRouter { s.router with delivered := s.router.delivered ++ [{ src := c.src, cls := 5, typ := c.typ, mseq := c.mseq, body := c.payload }] })
  else s.assemble c

end Sys2Proof.Machine
end

