-- ==== Sys2Proof/Machine/Router.lean ====
section
/-! DEFINITION. The router's commands: cells routed, admitted, moved and sent, credits, telemetry, and the commands on its tables (R398–R436, R681). -/

namespace Sys2Proof.Machine

open Sys2Proof

/-! ### Routing (R411) -/

/-- The cell an input buffer switches next: the oldest of class K, else the oldest. -/
def nextInput (l : List InCell) : Option InCell := match l.find? (·.cell.cls == 0) with
  | some c => some c
  | none => l.head?

/-- A cell in the input buffer of a port handled in the order of R411. -/
def State.routeArrived (s : State) (p : Nat) (e : InCell) : State :=
  if badHeader e.cell then s.dropCell fRTE_DROP_BAD_HEADER_COUNT
  else if !s.filterPass p e.sub e.cell.src then s.dropCell (fRTE_PORT_FILTERED_COUNT (s.roleOf p))
  else
    let r := s.police p e.sub e.cell
    match r.2 with
    | none => r.1
    | some c =>
      if c.src = s.ownId then r.1.dropCell fRTE_DROP_LOOP_COUNT
      else if c.dst = s.ownId then r.1.deliverLocal c
      else r.1.lookUp c (some p)

/-- CELL_ROUTE (R411): the next cell of a port's input buffer, or of those the device originates. -/
def execCellRoute (port : Option Port) (s : State) : Host.Outcome State Fault Refusal :=
  .next (match port with
    | some p => match nextInput (s.port p).input with
      | some e => (s.modPort p fun v => { v with input := dropFirst (· == e) v.input }).routeArrived p e
      | none => s
    | none => match s.router.egress with
      | c :: rest => (s.setRouter { s.router with egress := rest }).lookUp c none
      | [] => s)

/-- KEYSTONE_ADMIT (R422): the oldest class K cell that waits for a sub-port takes a token of its bucket. -/
def execKeystoneAdmit (port : Port) (sub : Sub) (s : State) : Host.Outcome State Fault Refusal :=
  let u := s.sub port sub
  let b := s.refill port sub u.admission
  .next (match u.admitQ, b.take with
    | c :: rest, some b1 => s.setSub port sub { u with admission := b1, admitQ := rest, outQ := u.outQ ++ [{ c with at' := s.time.nowNs }] }
    | _, _ => s)

/-! ### Buffers and credits (R407–R410) -/

/-- The first cell of a class in a landing store that the input buffer has room for. -/
def State.landingNext (s : State) (p q cls : Nat) : Option Cell := (s.sub p q).landing.find? fun c => c.cls == cls && s.inputRoom p (vcOf c)

/-- What a port's input buffer takes next from its landing stores: class K first; within a class the sub-ports in turn (R407). -/
def State.landingPick (s : State) (p : Nat) : Option (Nat × Nat × Cell) :=
  (List.range 16).findSome? fun cls =>
    let last := (aget (s.port p).turn cls).getD 15
    ((List.range 16).map fun i => (last + 1 + i) % 16).findSome? fun q => (s.landingNext p q cls).map fun c => (cls, q, c)

/-- A cell goes from a landing store to the input buffer, and its channel's freed count goes up. -/
def State.landingMove (s : State) (p cls q : Nat) (c : Cell) : State :=
  let s1 := s.modSub p q fun u => { u with landing := dropFirst (· == c) u.landing, freed := vcSet u.freed (vcOf c) ((vcGet u.freed (vcOf c) + 1) % 65536) }
  s1.modPort p fun v => { v with turn := aput v.turn cls q, input := v.input ++ [⟨c, q, s.time.nowNs⟩] }

/-- LANDING_TO_INPUT (R407). -/
def execLandingToInput (port : Port) (s : State) : Host.Outcome State Fault Refusal :=
  .next (match s.landingPick port.val with
    | none => s
    | some (cls, q, c) => s.landingMove port.val cls q c)

/-- The CREDIT cell of a sub-port (R409). -/
def creditCell (freed : List Nat) : Cell := { typ := 1, cls := 1, payload := ((List.range 18).flatMap fun v => leBytes 2 (vcGet freed v)) ++ List.replicate 28 0 }

/-- Whether a CREDIT cell is due: a count has changed and the rate allows one, or 10 µs have passed. -/
def State.creditDue (s : State) (p q : Nat) : Bool :=
  let u := s.sub p q
  let gap := if (s.port p).split then 170 else 43
  s.maySend p q && ((decide (u.creditSentAt + gap ≤ s.time.nowNs) && (List.range 18).any fun v => vcGet u.freed v != vcGet u.freedSent v) ||
    decide (u.creditSentAt + 10000 ≤ s.time.nowNs))

/-- Send a CREDIT cell. -/
def State.sendPortCredit (s : State) (p q : Nat) : State :=
  s.modSub p q fun u => { u.pushCell (creditCell u.freed) with freedSent := u.freed, creditSentAt := s.time.nowNs }

/-- CREDIT_CELL_SEND (R409). -/
def execCreditCellSend (port : Port) (sub : Sub) (s : State) : Host.Outcome State Fault Refusal :=
  .next (if s.subNamed port sub && s.creditDue port sub then s.sendPortCredit port sub else s)

/-- MARKS as the sub-ports of a port carry them (R436). -/
def State.showMarks (s : State) (p : Nat) : State :=
  let bits (f : SubPort → Bool) : Nat := sumNat ((List.range 16).map fun q => if f (s.sub p q) then 2 ^ q else 0)
  (s.setF (fRTE_PORT_MARKS_CREDIT_STALL p) (bits (·.stall.isSome))).setF (fRTE_PORT_MARKS_K_STALL p) (bits (·.kStall.isSome))

/-- Take the oldest link-local cell of a sub-port when it is of a type. -/
def State.takeLink (s : State) (p q typ : Nat) : Option (Cell × State) := match (s.sub p q).linkIn with
  | c :: rest => if c.typ = typ ∧ s.subNamed p q then some (c, s.modSub p q fun u => { u with linkIn := rest }) else none
  | [] => none

/-- CREDIT_CELL_RECEIVE (R408–R410). -/
def execCreditCellReceive (port : Port) (sub : Sub) (s : State) : Host.Outcome State Fault Refusal :=
  let p := port.val
  let q := sub.val
  .next (match s.takeLink p q 1 with
    | none => s
    | some x =>
      let u := x.2.sub p q
      let got := (List.range 18).map fun v => recNat x.1.payload (2 * v) 2
      let back (v : Nat) : Nat := (vcGet got v + 65536 - vcGet u.freedPeer v % 65536) % 65536
      let keep (m : Option Nat) : Option Nat := m.filter fun v => back v == 0
      (x.2.setSub p q { u with occ := (List.range 18).map fun v => vcGet u.occ v - back v, freedPeer := got, creditAt := s.time.nowNs
                               stall := keep u.stall, kStall := keep u.kStall }).showMarks p)

/-- The first cell queued for a sub-port, of class K only or any, that waits for a credit. -/
def State.wantsCredit (s : State) (p q : Nat) (key : Bool) : Option OutCell :=
  (s.sub p q).outQ.find? fun c => (!key || c.cell.cls == 0) && !s.hasCredit p q (vcOf (s.leaving p c.cell))

/-- The index of a sub-port in records (R649). -/
def State.portUnit (s : State) (p q : Nat) : Nat := p * 16 + (if (s.port p).split then q else 15)

/-! ### Choosing again (R419) -/

/-- The cells of a sub-port that is unavailable for their class are chosen again, in queue order; those waiting out a swing stay. -/
def State.reroute (s : State) (p q : Nat) : State :=
  let u := s.sub p q
  let goes (c : OutCell) : Bool := !u.swing.isSome && !s.available p q c.cell.cls
  let moved := u.outQ.filter goes ++ u.admitQ.filter goes
  let s1 := s.setSub p q { u with outQ := u.outQ.filter (! goes ·), admitQ := u.admitQ.filter (! goes ·) }
  moved.foldl (fun st c => match st.chooseSub c.cell c.set c.inPort with
    | some x => (st.queueCell x c).bumpSat fRTE_REROUTES_COUNT
    | none => st.dropCell fRTE_DROP_NO_PATH_COUNT) s1

/-- SUBPORT_REROUTE (R419). -/
def execSubportReroute (port : Port) (sub : Sub) (s : State) : Host.Outcome State Fault Refusal := .next (s.reroute port sub)

/-- CREDIT_STALL_TIMEOUT (R410): a cell waits for a credit and no CREDIT cell has come for 50 µs. -/
def execCreditStallTimeout (port : Port) (sub : Sub) (s : State) : Host.Outcome State Fault Refusal :=
  let p := port.val
  let q := sub.val
  let u := s.sub p q
  .next (match s.wantsCredit p q false with
    | some c =>
      if u.stall.isNone && u.up && decide (max u.creditAt u.since + 50000 ≤ s.time.nowNs) then
        let s1 := ((s.modSub p q fun v => { v with stall := some (vcOf (s.leaving p c.cell)) }).bumpSat (fRTE_PORT_STALLS_CREDIT_STALL p)).showMarks p
        (s1.fabricRec 3 c.cell.src c.cell.cls 7 (s.portUnit p q)).reroute p q
      else s
    | none => s)

/-- K_STALL_TIMEOUT (R410): a class K cell has waited 1 µs for a credit. -/
def execKStallTimeout (port : Port) (sub : Sub) (s : State) : Host.Outcome State Fault Refusal :=
  let p := port.val
  let q := sub.val
  .next (match s.wantsCredit p q true with
    | some c =>
      if (s.sub p q).kStall.isNone && (s.sub p q).up && decide (c.at' + 1000 ≤ s.time.nowNs) then
        let s1 := ((s.modSub p q fun v => { v with kStall := some (vcOf (s.leaving p c.cell)) }).bumpSat (fRTE_PORT_STALLS_K_STALL p)).showMarks p
        (s1.fabricRec 4 c.cell.src 0 7 (s.portUnit p q)).reroute p q
      else s
    | none => s)

/-! ### Sending (R405, R425, R547–R549) -/

/-- The cell that leaves next: class K ahead of all; then the oldest whose class may leave and whose channel has a credit. -/
def State.nextOut (s : State) (p q : Nat) : Option OutCell :=
  let ok (c : OutCell) : Bool := s.hasCredit p q (vcOf (s.leaving p c.cell)) && s.gateOpen p q c.cell.cls
  match (s.sub p q).outQ.find? fun c => c.cell.cls == 0 && ok c with
  | some c => some c
  | none => (s.sub p q).outQ.find? ok

/-- CELL_TRANSMIT (R425): the next cell at a cell boundary of a sub-port, a due CREDIT cell ahead of all. -/
def execCellTransmit (port : Port) (sub : Sub) (s : State) : Host.Outcome State Fault Refusal :=
  let p := port.val
  let q := sub.val
  let u := s.sub p q
  .next (if !s.subNamed p q || !s.maySend p q || decide (u.roomBits u.nextNo ≤ u.tx.n) then s
  else if s.creditDue p q then s.sendPortCredit p q
  else match s.nextOut p q with
    | none => s
    | some c =>
      let o := s.leaving p c.cell
      (s.setSub p q { (u.pushCell o) with outQ := dropFirst (· == c) u.outQ, occ := vcSet u.occ (vcOf o) (vcGet u.occ (vcOf o) + 1) }).bumpWrap
        (fRTE_PORT_TX_CELLS_COUNT (s.roleOf p)))

/-! ### Congestion telemetry (R429–R432) -/

/-- Whether a routed cell of class Q, P, B or S for group g has waited SLOW_100NS × 100 ns at the head of its channel in an input buffer or in an output queue. -/
def State.slowFor (s : State) (g : Nat) : Bool :=
  let lim := max 1 (s.getF fRTE_CFG_SLOW_100NS) * 100
  let slow (c : Cell) (t : Nat) : Bool := decide (2 ≤ c.cls) && c.dst / 256 % 4096 == g && decide (t + lim ≤ s.time.nowNs)
  let inp := s.ports.any fun e => e.2.input.any fun c => slow c.cell c.at' && (e.2.input.find? fun d => vcOf d.cell == vcOf c.cell) == some c
  let out := s.subs.any fun e => e.2.outQ.any fun c => slow c.cell c.at'
  inp || out

/-- SLOW_DEST_MARK (R430): the bit of a slow destination group. -/
def execSlowDestMark (group : BitVec 12) (s : State) : Host.Outcome State Fault Refusal :=
  let g := group.toNat
  .next (if s.slowFor g then s.setF (fRTE_SLOW_MAP_BITS (g / 32)) (putBits (s.getF (fRTE_SLOW_MAP_BITS (g / 32))) (g % 32) (g % 32) 1) else s)

/-- The bin of a number of cells (R429). -/
def binOf (n : Nat) : Nat := if n = 0 then 0 else min 15 (n.log2 + 1)

/-- The histogram counts after one more sample: every port and channel by the cells it holds (R429). -/
def State.sampleBins (s : State) : List (Nat × Nat) :=
  (List.range 34).foldl (fun (a : List (Nat × Nat)) p => (List.range 18).foldl (fun b v =>
    let n := s.inputUsed p v + sumNat ((List.range 16).map fun q => ((s.sub p q).landing.filter fun c => vcOf c == v).length)
    let k := (p * 18 + v) * 16 + binOf n
    aput b k (min 65535 ((aget b k).getD 0 + 1))) a) s.tele.bins

/-- TELEMETRY_SAMPLE (R429). -/
def execTelemetrySample (s : State) : Host.Outcome State Fault Refusal :=
  .next (if !s.ftSet || decide (s.time.ft / 1000 ≤ s.tele.sampled / 1000) then s
  else { s with tele := { s.tele with bins := s.sampleBins, sampled := s.time.ft } })

/-- The image of an interval that began at t (R431). -/
def State.teleImage (s : State) (t : Nat) : List Byte :=
  leBytes 8 t ++ leBytes 4 (t / 100000) ++ leBytes 4 s.ownId ++ leBytes 4 s.tele.drops ++ List.replicate 44 0 ++
    ((List.range 128).flatMap fun i => leBytes 4 (s.getF (fRTE_SLOW_MAP_BITS i))) ++
    ((List.range 9792).flatMap fun k => leBytes 2 ((aget s.tele.bins k).getD 0))

/-- The interval that began 100 µs before t ends: its image is kept, and the counts and the slow map start afresh (R431). -/
def State.teleEnd (s : State) (t : Nat) : State :=
  let s1 : State := { s with tele := { bins := [], drops := 0, began := t, sampled := s.tele.sampled, image := s.teleImage (t - 100000)
                                       imageNo := (t - 100000) / 100000 % 2 ^ 32 } }
  (List.range 128).foldl (fun st i => st.setF (fRTE_SLOW_MAP_BITS i) 0) s1

/-- TELEMETRY_INTERVAL_END (R431). -/
def execTelemetryIntervalEnd (s : State) : Host.Outcome State Fault Refusal :=
  let t := 100000 * (s.time.ft / 100000)
  .next (if !s.ftSet || decide (t ≤ s.tele.began) then s
  else if s.isSet fRTE_CFG_TELE_PUSH && s.getF fRTE_COLLECTOR_ID != s.ownId then
    (s.teleEnd t).sendFrame (s.getF fRTE_COLLECTOR_ID) 1 3 (cut64 (s.teleImage (t - 100000)))
  else s.teleEnd t)

/-! ### Commands (R433, R434) -/

/-- Read host memory for a table: the bytes that could be read, of n. -/
def State.hostRead (s : State) (f : InFlight) (addr n : Nat) (data : List Byte) : State × List Byte :=
  let fid := s.sqFid f.sq
  if s.fidLive fid then (s.emit (.hostRead fid addr n), data.take n) else (s, [])

/-- A table command: `count` entries of `size` bytes from host memory, each written as one in ascending index. The first that cannot be read, or that `good` refuses (R12), ends it:
the entries before it are in force (R420, R434). -/
def State.tableWrite (s : State) (f : InFlight) (first count size ok bad fault : Nat) (data : List Byte) (good : List Byte → Bool) (k : State → Nat → List Byte → State) : State :=
  let r := s.hostRead f (recNat f.desc 16 8) (count * size) data
  let es := (List.range (r.2.length / size)).map fun i => byteField r.2 (i * size) size
  let n := (es.takeWhile good).length
  let s1 := (List.range n).foldl (fun st i => k st (first + i) (es.getD i [])) r.1
  s1.finish f (if n < es.length then bad else if r.2.length < count * size then fault else ok) []

/-- One flat entry. -/
def State.writeFlat (s : State) (i : Nat) (b : List Byte) : State :=
  let j := i / 2
  if i % 2 = 0 then ((s.setF (fFLAT_ENTRY_VALID0 j) (recBits b 0 2 15 15)).setF (fFLAT_ENTRY_DROP0 j) (recBits b 0 2 14 14)).setF (fFLAT_ENTRY_SET0 j) (recBits b 0 2 11 0)
  else ((s.setF (fFLAT_ENTRY_VALID1 j) (recBits b 0 2 15 15)).setF (fFLAT_ENTRY_DROP1 j) (recBits b 0 2 14 14)).setF (fFLAT_ENTRY_SET1 j) (recBits b 0 2 11 0)

/-- RTE_WRITE. -/
def State.rteWrite (s : State) (f : InFlight) (data : List Byte) : State :=
  let n := recNat f.desc 12 4
  let i := recNat f.desc 8 4
  if n = 0 ∨ 2 ^ 21 < i + n then s.finish f 0xA1 [] else s.tableWrite f i n 2 0xA0 0xA1 0xA2 data (fun b => recBits b 0 2 13 12 == 0) State.writeFlat

/-- RTE_WRITE (R420, R433). -/
def execRteWrite (sq : RingNo) (data : List Byte) (s : State) : Host.Outcome State Fault Refusal := .next (s.ringCmd sq.toNat 0x60 fun st f => st.rteWrite f data)

/-- One port set. -/
def State.writeSet (s : State) (j : Nat) (b : List Byte) : State :=
  let s1 := ((s.setF (fRTE_PSET_LO_VALID0 j) (recBits b 0 2 15 15)).setF (fRTE_PSET_LO_PORT0 j) (recBits b 0 2 9 4)).setF (fRTE_PSET_LO_SUB0 j) (recBits b 0 2 3 0)
  let s2 := ((s1.setF (fRTE_PSET_LO_VALID1 j) (recBits b 2 2 15 15)).setF (fRTE_PSET_LO_PORT1 j) (recBits b 2 2 9 4)).setF (fRTE_PSET_LO_SUB1 j) (recBits b 2 2 3 0)
  let s3 := ((s2.setF (fRTE_PSET_HI_VALID2 j) (recBits b 4 2 15 15)).setF (fRTE_PSET_HI_PORT2 j) (recBits b 4 2 9 4)).setF (fRTE_PSET_HI_SUB2 j) (recBits b 4 2 3 0)
  ((s3.setF (fRTE_PSET_HI_VALID3 j) (recBits b 6 2 15 15)).setF (fRTE_PSET_HI_PORT3 j) (recBits b 6 2 9 4)).setF (fRTE_PSET_HI_SUB3 j) (recBits b 6 2 3 0)

/-- Reserved bits of a port set are 0 and its ports in range (R413). -/
def goodSet (b : List Byte) : Bool := (List.range 4).all fun k => recBits b (2 * k) 2 14 10 == 0 && decide (recBits b (2 * k) 2 9 4 < 34)

/-- PSET_WRITE. -/
def State.psetWrite (s : State) (f : InFlight) (data : List Byte) : State :=
  let n := recNat f.desc 10 2
  let j := recNat f.desc 8 2
  if n = 0 ∨ 4096 < j + n then s.finish f 0xA1 [] else s.tableWrite f j n 8 0xA0 0xA1 0xA2 data goodSet State.writeSet

/-- PSET_WRITE (R420, R433). -/
def execPsetWrite (sq : RingNo) (data : List Byte) (s : State) : Host.Outcome State Fault Refusal := .next (s.ringCmd sq.toNat 0x61 fun st f => st.psetWrite f data)

/-- One override entry. -/
def State.writeOvr (s : State) (i : Nat) (b : List Byte) : State :=
  (((s.setF (fRTE_OVR_VALUE_LO_WORD i) (recBits b 0 4 31 18)).setF (fRTE_OVR_VALUE_HI_WORD i) (recNat b 4 4)).setF (fRTE_OVR_MASK_LO_WORD i) (recNat b 8 4)).setF
    (fRTE_OVR_MASK_HI_WORD i) (recNat b 12 4)

/-- OVR_WRITE. -/
def State.ovrWrite (s : State) (f : InFlight) (data : List Byte) : State :=
  let n := recNat f.desc 10 2
  let i := recNat f.desc 8 1
  if n = 0 ∨ 256 < i + n then s.finish f 0xA1 [] else s.tableWrite f i n 16 0xA0 0xA1 0xA2 data (fun b => recBits b 0 4 17 0 == 0) State.writeOvr

/-- OVR_WRITE (R420, R433). -/
def execOvrWrite (sq : RingNo) (data : List Byte) (s : State) : Host.Outcome State Fault Refusal := .next (s.ringCmd sq.toNat 0x62 fun st f => st.ovrWrite f data)

/-- One filter range of a port. -/
def State.writeFilter (p : Nat) (s : State) (i : Nat) (b : List Byte) : State :=
  ((s.setF (fRTE_FILTER_LO_VALID p i) (recBits b 0 4 31 31)).setF (fRTE_FILTER_LO_LO p i) (recBits b 0 4 20 0)).setF (fRTE_FILTER_HI_HI p i) (recBits b 4 4 20 0)

/-- Reserved bits of a filter range are 0. -/
def goodFilter (b : List Byte) : Bool := recBits b 0 4 30 21 == 0 && recBits b 4 4 31 21 == 0

/-- FILTER_WRITE: the ranges of a port, then FILTER_EN once all are in force. -/
def State.filterWrite (s : State) (f : InFlight) (data : List Byte) : State :=
  let p := recNat f.desc 8 1
  if 34 ≤ p then s.finish f 0xA1 []
  else
    let whole := s.fidLive (s.sqFid f.sq) && decide (128 ≤ data.length) && (List.range 16).all fun i => goodFilter (byteField data (8 * i) 8)
    (if whole then s.setF (fRTE_PORT_CFG_FILTER_EN p) (recNat f.desc 9 1) else s).tableWrite f 0 16 8 0xA0 0xA1 0xA2 data goodFilter (State.writeFilter p)

/-- FILTER_WRITE (R428, R433). -/
def execFilterWrite (sq : RingNo) (data : List Byte) (s : State) : Host.Outcome State Fault Refusal := .next (s.ringCmd sq.toNat 0x63 fun st f => st.filterWrite f data)

/-- PORT_ROLE. -/
def State.portRole (s : State) (f : InFlight) : State :=
  let p := recNat f.desc 8 1
  let k := recNat f.desc 10 1
  if 34 ≤ p ∨ k = 0 ∨ 25 < k then s.finish f 0xA1 []
  else ((s.setF (fRTE_PORT_CFG_TYPE p) (recNat f.desc 9 1)).setF (fRTE_PORT_CFG_KEY_SHARE p) k).finish f 0xA0 []

/-- PORT_ROLE (R402, R433). -/
def execPortRole (sq : RingNo) (s : State) : Host.Outcome State Fault Refusal := .next (s.ringCmd sq.toNat 0x64 State.portRole)

/-- Every sub-port that is up proves a new identity to its peer (R681). -/
def State.reproveAll (s : State) : State :=
  (List.range 34).foldl (fun st p => (st.subsOf p).foldl (fun a q =>
    if (a.sub p q).up then (a.startIdent p q).modSub p q fun u => { u with reauth := true } else a) st) s

/-- ENDPOINT_ASSIGN: the own ID changes, and every sub-port that is up proves the new identity to its peer (R398, R681). -/
def State.endpointAssign (s : State) (f : InFlight) : State :=
  let old := s.ownId
  let new := recNat f.desc 8 4
  let s1 := s.setF fRTE_OWN_ID_ID new
  let s2 := if new = old then s1 else
    State.reproveAll (s1.errRec { typ := 0x10, sev := 1, unitKind := 1, arg0 := 5, arg1 := old, arg2 := new })
  s2.finish f 0xA0 (leBytes 4 old)

/-- ENDPOINT_ASSIGN (R398, R433). -/
def execEndpointAssign (sq : RingNo) (s : State) : Host.Outcome State Fault Refusal := .next (s.ringCmd sq.toNat 0x65 State.endpointAssign)

/-- TELEMETRY_CFG. -/
def State.telemetryCfg (s : State) (f : InFlight) : State :=
  if recNat f.desc 13 1 = 0 then s.finish f 0xA1 []
  else (((s.setF fRTE_COLLECTOR_ID (recNat f.desc 8 4)).setF fRTE_CFG_TELE_PUSH (recNat f.desc 12 1)).setF fRTE_CFG_SLOW_100NS (recNat f.desc 13 1)).finish f 0xA0 []

/-- TELEMETRY_CFG (R433). -/
def execTelemetryCfg (sq : RingNo) (s : State) : Host.Outcome State Fault Refusal := .next (s.ringCmd sq.toNat 0x66 State.telemetryCfg)

/-- TELEMETRY_READ: the last complete image, all zero before the first. -/
def State.telemetryRead (s : State) (f : InFlight) (ok : Bool) : State :=
  let img := if s.tele.image.isEmpty then List.replicate 20160 0 else s.tele.image
  let r := s.hostPut f (recNat f.desc 16 8) img ok
  r.1.finish f (if r.2 then 0xA0 else 0xA2) (leBytes 4 s.tele.imageNo)

/-- TELEMETRY_READ (R432). -/
def execTelemetryRead (sq : RingNo) (ok : Bool) (s : State) : Host.Outcome State Fault Refusal := .next (s.ringCmd sq.toNat 0x67 fun st f => st.telemetryRead f ok)

end Sys2Proof.Machine
end

