-- ==== Sys2Proof/Machine/FabricTime.lean ====
section
/-! DEFINITION. Fabric time: the reference inputs (R533–R536), the exchange with peers (R539, R540), the time state (R538, R542), gate schedules (R545–R550), pauses (R551–R554), and
the commands of R563 but ACTION_WRITE. -/

namespace Sys2Proof.Machine

open Sys2Proof

/-! ### Steering (R537, R542) -/

/-- s with its steering replaced. -/
def State.setSteer (s : State) (x : SteerSt) : State := { s with steer := x }

/-- s in another time state. -/
def State.setTimeState (s : State) (n : Nat) : State := (s.setF fTIME_STATUS_STATE n).setSteer { s.steer with good := 0 }

/-- A TIME record (R649): event, offset in ns, action entry. -/
def State.timeRec (s : State) (event sev : Nat) (off : Int) (entry : Nat) : State :=
  s.errRec { typ := 0x0E, sev := sev, unitKind := 1, arg0 := event, arg1 := (off % (2 ^ 64 : Int)).toNat, arg2 := entry }

/-- The limit of R537: 50 ppm in 2⁻³² ns per ns. -/
def clampRate (r : Int) : Int := max (-214748) (min 214748 r)

/-- A filtered offset to the source in use, in 2⁻⁸ ns: it steers the rate, and moves the time state (R537, R538, R542). -/
def State.takeOffset (s : State) (th : Int) (need : Nat) : State :=
  let s0 := (s.setF fTIME_OFFSET_THETA (unsignedOf 32 th)).setF fTIME_STATUS_ON_SECONDARY (decide (s.source = s.secondary ∧ s.source ≠ s.primary)).toNat
  let s1 := if s.timeState = 3 ∨ s.timeState = 4 then s0.setTimeState 1 else s0
  let s2 := if s1.timeState = 2 ∧ 25600 < th.natAbs then ((s1.setTimeState 1).bumpSat fTIME_EVENTS_LOCK_LOSS).timeRec 2 1 (th / 256) 0 else s1
  if 2560000 < th.natAbs then
    (if s2.isSet fTIME_STATUS_TIME_FAR then s2.setSteer { s2.steer with good := 0 }
     else ((s2.setF fTIME_STATUS_TIME_FAR 1).setSteer { s2.steer with good := 0 }).timeRec 1 2 (th / 256) 0)
  else
    let good := if th.natAbs ≤ 512 then s2.steer.good + 1 else 0
    let s3 := ((s2.setF fTIME_STATUS_TIME_FAR 0).drew).setSteer { s2.steer with rate := clampRate (Config.steer s2.freeCtr th), good := good }
    if s3.timeState = 1 ∧ need ≤ good then (s3.setTimeState 2).setF fTOP_READY_FTIME 1 else s3

/-- TIME_SOURCE_LOSS (R542): while LOCKED the source in use stops being good. -/
def execTimeSourceLoss (s : State) : Host.Outcome State Fault Refusal :=
  let used := if s.isSet fTIME_STATUS_ON_SECONDARY then s.secondary else s.primary
  .next (if s.timeState != 2 || s.sourceGood used then s
  else
    let s1 := s.bumpSat fTIME_EVENTS_LOCK_LOSS
    if s.source = .none then
      let s2 := (s1.setTimeState 3).timeRec 2 1 0 0
      s2.setSteer { s2.steer with holdAt := s.time.nowNs }
    else (s1.setTimeState 1).setF fTIME_STATUS_ON_SECONDARY (decide (s.source ≠ s.primary)).toNat)

/-- HOLDOVER_TIMEOUT (R542). -/
def execHoldoverTimeout (s : State) : Host.Outcome State Fault Refusal :=
  .next (if s.timeState == 3 && decide (s.steer.holdAt + 1000000000 * (s.getF fTIME_SOURCE_HOLDOVER_S) ≤ s.time.nowNs) then
    ((s.setTimeState 4).setF fTOP_READY_FTIME 0).setF fTOP_ALERT_TIME_FREE 1
  else s)

/-! ### The reference inputs (R533–R536) -/

/-- TOD_RECORD_WRITE (R533, R534): 16 bytes over I3C. -/
def execTodRecordWrite (rec : List Byte) (s : State) : Host.Outcome State Fault Refusal :=
  let b := (rec ++ List.replicate 16 0).take 16
  .next (if rec.length = 16 ∧ recNat b 12 4 = crc32c (b.take 12) ∧ recBits b 8 1 7 2 = 0 ∧ recNat b 9 3 = 0 ∧ recBits b 8 1 0 0 = 1 then
    (((s.setF fTIME_STATUS_TOD_OK 1).setF fTIME_TOD_UTC_OFFSET (recNat b 6 2)).setF fTIME_TOD_LEAP_PENDING (recBits b 8 1 1 1)).setSteer
      { s.steer with tod := some (recNat b 0 6, s.time.nowNs), firstEdge := true }
  else (s.setF fTIME_STATUS_TOD_OK 0).bumpSat fTIME_TOD_BAD_COUNT)

/-- An accepted record applies to this edge: it came 100–900 ms before (R534). -/
def State.todNow (s : State) : Option Nat := match s.steer.tod with
  | some (sec, t) => if t + 100000000 ≤ s.time.nowNs ∧ s.time.nowNs ≤ t + 900000000 then some sec else none
  | none => none

/-- PPS_EDGE (R535, R536): valid within ±1 µs of one second of REF_25M after the last, or as the first after a record. After an accepted record it sets fabric time that is unset. It
steers one whose source is LOCAL, toward the second an accepted record names, or, with none, toward the nearest (log entry 97, DEDUCED). -/
def execPpsEdge (s : State) : Host.Outcome State Fault Refusal :=
  let near := match s.steer.ppsAt with
    | some t => decide (t + 999999000 ≤ s.time.nowNs) && decide (s.time.nowNs ≤ t + 1000001000)
    | none => false
  .next (if !near && !s.steer.firstEdge then s
  else
    let s1 := (s.setF fTIME_STATUS_PPS_OK 1).setSteer { s.steer with ppsAt := some s.time.nowNs, firstEdge := false }
    if s.timeState = 0 then match s.todNow with
      | none => s1
      | some sec => ((({ s1 with time := { s1.time with ft := 1000000000 * sec, ftFrac := 0 } }).setTimeState 1).setSteer { s1.steer with tod := none, good := 0 }).sourceCheck
    else
      let sec := s.todNow.getD ((s.time.ft + 500000000) / 1000000000)
      let s2 := (s1.setSteer { s1.steer with tod := if s.todNow.isSome then none else s1.steer.tod }).sourceCheck
      if s2.source = .loc then
        let th : Int := ((1000000000 * sec : Nat) - (s.time.ft : Int)) * 256 - ((s.time.ftFrac / 2 ^ 24 : Nat) : Int)
        let l := (th :: s2.steer.ppsThetas).take 16
        (s2.setSteer { s2.steer with ppsThetas := l }).takeOffset (Config.offsetFilter l) 4
      else s2)

/-- PPS_TIMEOUT (R535): 1.5 s without a valid edge. -/
def execPpsTimeout (s : State) : Host.Outcome State Fault Refusal :=
  .next (match s.steer.ppsAt with
    | some t => if s.isSet fTIME_STATUS_PPS_OK && decide (t + 1500000000 ≤ s.time.nowNs) then (s.setF fTIME_STATUS_PPS_OK 0).bumpSat fTIME_EVENTS_PPS_MISSED else s
    | none => s)

/-! ### The exchange (R373, R539, R540) -/

/-- The first codeword number that is a multiple of 4, not yet sent, and begins at or after a time. -/
def State.echoNo (s : State) (p q t : Nat) : Nat :=
  let n := max (s.sub p q).nextNo ((4 * t + 84) / 85)
  (n + 3) / 4 * 4

/-- When codeword n, a multiple of 4, begins. -/
def noTime (n : Nat) : Nat := n * 85 / 4

/-- A sub-port exchanges timestamps. -/
def State.echoing (s : State) (p q : Nat) : Bool :=
  let u := s.sub p q
  s.subNamed p q && ((u.state == 3 && (u.peer.isEmpty || u.common.testBit 8)) || (u.up && u.common.testBit 8))

/-- ECHO_REQ_SEND (R373, R539): once in every 1 µs in IDENT, else in every 64 µs. A request without an answer for 60 µs is given up (log entry 97). -/
def execEchoReqSend (port : Port) (sub : Sub) (s : State) : Host.Outcome State Fault Refusal :=
  let p := port.val
  let q := sub.val
  let u := s.sub p q
  let gap := if u.state = 3 then 1000 else 64000
  .next (if s.echoing p q && (decide (u.echoAt + gap ≤ s.linkClock) || decide (s.linkClock < u.echoAt) || (u.echoes.isEmpty && u.rtts.isEmpty)) then
    let n := s.echoNo p q s.linkClock
    s.setSub p q { u with echoAt := s.linkClock, echoes := (u.echoes.filter fun t => decide (s.linkClock < t + 60000)) ++ [noTime n], ctlAt := u.ctlAt ++ [(n, (0x06 : Byte) :: leBytes 8 (noTime n))] }
  else s)

/-- Fabric time rounded to the nearest ns. -/
def State.clockRounded (s : State) : Nat := s.linkClock + (if s.ftSet ∧ 2 ^ 31 ≤ s.time.ftFrac then 1 else 0)

/-- ECHO_REQ_RECEIVE (R539): answered on the first number that is a multiple of 4 and begins 15 ns or more after t2. -/
def execEchoReqReceive (port : Port) (sub : Sub) (s : State) : Host.Outcome State Fault Refusal :=
  let p := port.val
  let q := sub.val
  .next (match s.takeType p q 0x06 with
    | none => s
    | some x =>
      if (x.2.sub p q).state ≠ 3 ∧ ¬ (x.2.sub p q).up then x.2
      else
        let t2 := s.clockRounded
        let n := x.2.echoNo p q (t2 + 15)
        x.2.modSub p q fun u => { u with ctlAt := u.ctlAt ++ [(n, [0x07] ++ leBytes 8 t2 ++ leBytes 8 (noTime n))] })

/-- The two one-way differences of an exchange in 2⁻¹⁶ ns: t2 − t1 and t4 − t3 (R540). -/
def echoOut (b : List Byte) (t1 : Nat) : Int := ((recNat b 1 8 : Int) - (t1 : Int)) * 65536
def State.echoBack (s : State) (b : List Byte) (frac : Nat) : Int := ((s.linkClock : Int) - (recNat b 9 8 : Int)) * 65536 + (frac : Int)

/-- The offset of an exchange in 2⁻⁸ ns, the port's asymmetry taken off (R540). -/
def State.echoTheta (s : State) (p : Nat) (b : List Byte) (t1 frac : Nat) : Int :=
  (echoOut b t1 - s.echoBack b frac) / 512 - signedOf 16 (s.getF (fTIME_PORT_ASYM_ASYM p)) * 16

/-- The round trip of an exchange in ns (R373). -/
def State.echoRtt (s : State) (b : List Byte) (t1 frac : Nat) : Nat := ((echoOut b t1 + s.echoBack b frac) / 65536).toNat

/-- A port shows the filtered offset to its peer, and the source in use steers fabric time by it. -/
def State.useOffset (s : State) (p q : Nat) (f : Int) : State :=
  let mine := s.source = .link p q
  let s1 := if mine ∨ (q = 0 ∧ ∀ r ∈ List.range 16, s.source ≠ .link p r) then s.setF (fTIME_PORT_OFFSET_PEER_OFFSET p) (unsignedOf 32 f) else s
  if mine ∧ s.timeState ≠ 0 then s1.takeOffset f 16 else s1

/-- ECHO_RSP_RECEIVE (R373, R540): t4 is fabric time with `frac` in 2⁻¹⁶ ns, as the receiver resolves it. -/
def execEchoRspReceive (port : Port) (sub : Sub) (frac : Half) (s : State) : Host.Outcome State Fault Refusal :=
  let p := port.val
  let q := sub.val
  .next (match s.takeType p q 0x07 with
    | none => s
    | some x =>
      let u := x.2.sub p q
      match u.echoes with
      | [] => x.2
      | t1 :: rest =>
        let l := (s.echoTheta p x.1 t1 frac.toNat :: u.thetas).take 16
        let s1 := x.2.setSub p q { u with echoes := rest, thetas := l, rtts := if u.rtts.length < 16 then u.rtts ++ [s.echoRtt x.1 t1 frac.toNat] else u.rtts }
        (s1.useOffset p q (Config.offsetFilter l)).endIdent p q)

/-! ### Gate schedules (R545–R550) -/

/-- GATE[p] as the schedule in force makes it. -/
def State.showGate (s : State) (p : Nat) : State :=
  let e := (s.port p).gate.entryAt s.time.ft
  ((((s.setF (fTIME_GATE_ENABLE p) (s.port p).gate.enabled.toNat).setF (fTIME_GATE_PENDING p) (s.port p).nextGate.isSome.toNat).setF (fTIME_GATE_OPEN p) e.2).setF
    (fTIME_GATE_QUIET p) (decide (e.2 = 0)).toNat).setF (fTIME_GATE_ENTRY p) e.1

/-- GATE_ENTRY_BOUNDARY (R546): an entry or cycle boundary of a port's schedule. -/
def execGateEntryBoundary (port : Port) (s : State) : Host.Outcome State Fault Refusal := .next (if s.ftSet then s.showGate port else s)

/-- GATE_TAKEOVER (R550). -/
def execGateTakeover (port : Port) (s : State) : Host.Outcome State Fault Refusal :=
  .next (match (s.port port).nextGate with
    | some g => if g.takeover ≤ s.time.ft then (s.modPort port fun v => { v with gate := g, nextGate := none }).showGate port else s
    | none => s)

/-- The entries of a schedule, up to the first of DURATION 0 (R545). -/
def gateEntries (b : List Byte) : List (Nat × Nat) :=
  ((List.range 64).map fun i => (recBits b (4 * i) 4 31 27, recBits b (4 * i) 4 16 0 * 8)).takeWhile (·.2 != 0)

/-- The schedule a GATE_WRITE names. -/
def newGate (d b : List Byte) (ft : Nat) : Gate :=
  { enabled := recNat d 9 1 == 1, cycle := recNat d 12 4 * 8, base := recNat d 16 8, entries := gateEntries b, activateAt := recNat d 24 8, loadedAt := ft }

/-- GATE_WRITE: a schedule loaded into a port's pending bank. -/
def State.gateWrite (s : State) (f : InFlight) (data : Option (List Byte)) : State :=
  let d := f.desc
  let p := recNat d 8 1
  let c := recNat d 12 4
  if 34 ≤ p ∨ c < 125 ∨ 128000 < c then s.finish f 0xC1 []
  else if !s.ftSet then s.finish f 0xC3 []
  else
    let r := s.hostGet f (recNat d 32 8) 256 data
    match r.2 with
    | none => r.1.finish f 0xC4 []
    | some b =>
      if (List.range 64).any fun i => recBits b (4 * i) 4 26 17 != 0 then r.1.finish f 0xC1 []
      else
        let g := newGate d b s.time.ft
        (((r.1.modPort p fun v => { v with nextGate := some g }).showGate p).setF (fTIME_GATE_LATE p) (decide (g.activateAt < s.time.ft)).toNat).finish f 0xC0 []

/-- GATE_WRITE (R550, R563). -/
def execGateWrite (sq : RingNo) (data : Option (List Byte)) (s : State) : Host.Outcome State Fault Refusal := .next (s.ringCmd sq.toNat 0x6E fun st f => st.gateWrite f data)

/-! ### Pauses (R551–R554) -/

/-- What a PAUSE's payload does to a sub-port: the classes it names are paused for its duration from now, or resumed with 0; a pause that follows without a break goes
on (R552, R554). -/
def SubPort.takePause (u : SubPort) (now : Nat) (b : List Byte) : SubPort :=
  let dur := recNat b 2 2 * 64
  let named (c : Nat) : Bool := decide (1 ≤ c) && decide (c ≤ 5) && (recNat b 0 1).testBit c
  let since (c : Nat) : Nat := match u.paused.find? fun e => e.1 == c && decide (now ≤ e.2.1) with
    | some e => e.2.2
    | none => now
  let kept := u.paused.filter fun e => !named e.1
  let new := if dur = 0 then [] else ((List.range 6).filter named).map fun c => (c, now + dur, since c)
  { u with paused := kept ++ new }

/-- PAUSE_RECEIVE (R552, R553). -/
def execPauseReceive (port : Port) (sub : Sub) (s : State) : Host.Outcome State Fault Refusal :=
  let p := port.val
  let q := sub.val
  .next (match s.takeLink p q 2 with
    | none => s
    | some x =>
      let s1 := if recBits x.1.payload 0 1 0 0 = 1 then x.2.bumpSat fTIME_EVENTS2_PAUSE_K_IGNORED else x.2
      if (s1.sub p q).ignoreUntil.any fun t => decide (s.time.nowNs < t) then s1
      else s1.setSub p q ((s1.sub p q).takePause s.time.nowNs x.1.payload))

/-- PAUSE_EXPIRE (R552). -/
def execPauseExpire (port : Port) (sub : Sub) (s : State) : Host.Outcome State Fault Refusal :=
  .next (s.modSub port sub fun u => { u with paused := u.paused.filter fun e => decide (s.time.nowNs < e.2.1) })

/-- PAUSE_ABUSE_TIMEOUT (R554): a class paused for 10 ms without a break. The record is a FABRIC one whose event number the spec does not give: a free value. -/
def execPauseAbuseTimeout (port : Port) (sub : Sub) (s : State) : Host.Outcome State Fault Refusal :=
  let p := port.val
  let q := sub.val
  let now := s.time.nowNs
  .next (if (s.sub p q).paused.any fun e => decide (now < e.2.1) && decide (e.2.2 + 10000000 ≤ now) then
    (((s.modSub p q fun u => { u with paused := [], ignoreUntil := some (now + 100000000) }).bumpSat fTIME_EVENTS2_PAUSE_ABUSE).fabricRec (Config.free s.freeCtr) 0 0 7
      (s.portUnit p q)).drew
  else s)

/-- PAUSE_IGNORE_END (R554). -/
def execPauseIgnoreEnd (port : Port) (sub : Sub) (s : State) : Host.Outcome State Fault Refusal :=
  .next (s.modSub port sub fun u => { u with ignoreUntil := u.ignoreUntil.filter fun t => decide (s.time.nowNs < t) })

/-- Send a PAUSE on a sub-port that carries cells (R551). -/
def State.sendPause (s : State) (p q mask dur : Nat) : State :=
  if s.subNamed p q && s.maySend p q then
    s.modSub p q fun u => u.pushCell { typ := 2, cls := 1, payload := leBytes 1 mask ++ [0] ++ leBytes 2 dur ++ List.replicate 60 0 }
  else s

/-- Send it on the sub-ports a byte names: a sublink, or 0xFF for all. -/
def State.sendPauses (s : State) (p b mask dur : Nat) : State := ((s.subsOf p).filter fun q => b == 0xFF || q == b).foldl (fun st q => st.sendPause p q mask dur) s

/-! ### TIME_CONTROL (R563) -/

/-- SOURCE. -/
def State.tcSource (s : State) (f : InFlight) : State :=
  let d := f.desc
  let bad (i : Nat) : Bool := recNat d i 1 == 3 || decide (34 ≤ recNat d (i + 1) 1) || (recNat d (i + 2) 1 != 0xFF && decide (16 ≤ recNat d (i + 2) 1))
  let h := recNat d 15 1
  if bad 9 || bad 12 || h = 0 || decide (60 < h) then s.finish f 0xC1 []
  else
    let s1 := ((s.setF fTIME_SOURCE_PRI_KIND (recNat d 9 1)).setF fTIME_SOURCE_PRI_PORT (recNat d 10 1)).setF fTIME_SOURCE_PRI_SUB (recNat d 11 1 % 16)
    let s2 := ((s1.setF fTIME_SOURCE_SEC_KIND (recNat d 12 1)).setF fTIME_SOURCE_SEC_PORT (recNat d 13 1)).setF fTIME_SOURCE_SEC_SUB (recNat d 14 1 % 16)
    ((s2.setF fTIME_SOURCE_HOLDOVER_S h).setSteer { s.steer with good := 0, ppsThetas := [] }).sourceCheck.finish f 0xC0 []

/-- SOURCE (R563). -/
def execSource (sq : RingNo) (s : State) : Host.Outcome State Fault Refusal := .next (s.ringAction sq.toNat 0x6D 8 0 4 0xC1 State.tcSource)

/-- A sub-port in IDENT, ACTIVE or DEGRADED. -/
def State.portsUp (s : State) : Bool := s.subs.any fun e => s.subNamed (e.1 / 16) (e.1 % 16) && (e.2.state == 3 || e.2.up)

/-- Every port's line keys discarded (R706). -/
def State.dropAllKeys (s : State) : State := (List.range 34).foldl (fun st p => (List.range 16).foldl (fun a q => a.dropKeys p q) st) s

/-- STEP (R538): the count moves by the signed offset, in one update; line keys go (R706). -/
def State.tcStep (s : State) (f : InFlight) : State :=
  if !s.ftSet then s.finish f 0xC3 []
  else if s.portsUp then s.finish f 0xC2 []
  else
    let t := (s.time.ft + recNat f.desc 16 8) % 2 ^ 64
    ((((({ s with time := { s.time with ft := t } }).setSteer { s.steer with ppsThetas := [] }).dropAllKeys).setTimeState 1).setF fTIME_STATUS_TIME_FAR 0).finish f 0xC0 []

/-- STEP (R538). -/
def execStep (sq : RingNo) (s : State) : Host.Outcome State Fault Refusal := .next (s.ringAction sq.toNat 0x6D 8 1 4 0xC1 State.tcStep)

/-- ASYM (R540). -/
def State.tcAsym (s : State) (f : InFlight) : State :=
  let p := recNat f.desc 9 1
  if 34 ≤ p then s.finish f 0xC1 [] else (s.setF (fTIME_PORT_ASYM_ASYM p) (recNat f.desc 10 2)).finish f 0xC0 []

/-- ASYM (R540). -/
def execAsym (sq : RingNo) (s : State) : Host.Outcome State Fault Refusal := .next (s.ringAction sq.toNat 0x6D 8 2 4 0xC1 State.tcAsym)

/-- PAUSE (R563): one PAUSE on the sub-ports named. -/
def State.tcPause (s : State) (f : InFlight) : State :=
  let d := f.desc
  let p := recNat d 9 1
  let b := recNat d 10 1
  if 34 ≤ p ∨ (b ≠ 0xFF ∧ 16 ≤ b) ∨ 64 ≤ recNat d 11 1 then s.finish f 0xC1 []
  else (s.sendPauses p b (recNat d 11 1) (recNat d 12 2)).finish f 0xC0 []

/-- PAUSE (R563). -/
def execPause (sq : RingNo) (s : State) : Host.Outcome State Fault Refusal := .next (s.ringAction sq.toNat 0x6D 8 3 4 0xC1 State.tcPause)

end Sys2Proof.Machine
end

