-- ==== Sys2Proof/Machine/Board.lean ====
section
/-! DEFINITION. The package and its start-up: power-on and POR_N (R573–R577, R629), the boot stages (R602–R607, R676), regulators, clocks and the limits of power
(R581–R590). -/

namespace Sys2Proof.Machine

open Sys2Proof

/-! ### Power-on and POR_N -/

/-- s with the start-up state replaced. -/
def State.setBoot (s : State) (b : BootSt) : State := { s with boot := b }

/-- The next SEQ after L5: one more than the highest the log flash holds (R648). -/
def LogSt.nextSeq (l : LogSt) : Nat := (l.ring ++ l.ledger).foldl (fun a e => max a (recNat e.2 0 4 + 1)) 0

/-- The device with nothing but what outlives L5: the log flash, the fuses, the commands that wait and what has been sent; and the counts of the log as the flash gives them
(R32, R648, R662). -/
def State.cleared (s : State) : State :=
  let s1 : State := { mm := { mem := powerOnMem.forget 0 0x20000000000 s.freeCtr }, pending := s.pending, out := s.out, freeCtr := s.freeCtr + 1, log := s.log, time := { nowNs := s.time.nowNs },
                      sec := { owners := s.sec.owners, revoked := s.sec.revoked }, host := { perst0 := s.host.perst0, perst1 := s.host.perst1 },
                      regs := regsReset s.regs 5 (fun _ => true) }
  (s1.setF fTOP_LOG_NEXT_SEQ s.log.nextSeq).setF fTOP_LOG_STATE_LEDGER_USED s.log.ledger.length

/-- POWER_ON (R602): VIN_AON comes into tolerance; stage 1 runs. -/
def execPowerOn (s : State) : Host.Outcome State Fault Refusal :=
  .next (if s.boot.on then s else s.cleared.setBoot { done := [(1, 4)] })

/-- VIN_AON_LOSS (R577, R629): the device's power ends and with it the trip latch. -/
def execVinAonLoss (s : State) : Host.Outcome State Fault Refusal :=
  .next (if s.boot.on then s.cleared.setBoot { on := false } else s)

/-- The levels of the device's open-drain pins: THERM_TRIP_N low while the trip latch is set (R572, R629), ALERT_N low while any bit of TOP.ALERT is set (R609). -/
def State.thermTripN (s : State) : Bool := !s.power.tripped
def State.alertN (s : State) : Bool := s.reg fTOP_ALERT_THERM.off == 0

/-- The types the ports take from a port plan (R402): 0 TRAY, 1 GROUP, 2 GLOBAL, 3 NONE. -/
def planType (plan p : Nat) : Nat :=
  if plan = 0 then (if p ≤ 6 then 0 else if p ≤ 22 then 1 else if p ≤ 31 then 2 else 3)
  else if plan = 1 then (if p ≤ 6 then 0 else 3)
  else 3

/-- A BOOT record (R649): stage, die or stack, attempt; BOOT in TOP.ALERT is set beside it where a rule says so. -/
def State.bootRec (s : State) (stage unit attempt : Nat) : State :=
  s.errRec { typ := 0x0D, sev := 3, unitKind := (if stage = 4 then 4 else 2), unitIx := unit, arg0 := stage, arg1 := unit, arg2 := attempt }

/-- A failure of start-up: recorded, with BOOT in TOP.ALERT (R600, R604, R605). -/
def State.bootFail (s : State) (stage unit attempt : Nat) : State := (s.bootRec stage unit attempt).setF fTOP_ALERT_BOOT 1

/-- POR_RELEASE (R17, R18, R402, R573, R574): the straps are latched, and with good parity the plan gives the ports their types; bad parity is recorded. -/
def execPorRelease (loc : BitVec 20) (plan : BitVec 3) (par : Bool) (s : State) : Host.Outcome State Fault Refusal :=
  .next (
    if !s.boot.on || s.boot.por then s
    else
      let odd : Bool := parityGo 24 (loc.toNat + 2 ^ 20 * plan.toNat + 2 ^ 23 * par.toNat) == 1
      let b := s.boot
      let s1 := { s.setBoot { b with por := true } with time := { s.time with porAt := s.time.nowNs } }
      let s2 := (((s1.setF fTOP_STRAPS_PAR_FAIL (!odd).toNat).setF fTOP_STRAPS_PLAN plan.toNat).setF fTOP_STRAPS_LOC loc.toNat).setF fRTE_OWN_ID_ID loc.toNat
      let s3 := (List.range 34).foldl (fun st p => st.setF (fRTE_PORT_CFG_TYPE p) (if odd then planType plan.toNat p else 3)) (s2.setF fRTE_STATUS_PLAN plan.toNat)
      if odd then s3 else (s3.setF fTOP_ALERT_STRAP_PAR 1).bootRec 2 4 1)

/-- POR_ASSERT (R577): every die but the always-on island as at L5. The island keeps the straps, the trip latch and the log sequence, and the graph epoch goes up;
what R710 and R711 hold until L5 stays too: the blocked key, and a debug state past CHALLENGED. -/
def execPorAssert (s : State) : Host.Outcome State Fault Refusal :=
  .next (
    if !s.boot.on || !s.boot.por then s
    else
      let s1 := s.cleared.setBoot { done := [(1, 4)] }
      let keep : List Nat := [fTOP_STRAPS_LOC.off, fTHM_TRIP_LATCHED.off, fTOP_LOG_NEXT_SEQ.off, fTOP_LOG_STATE_LEDGER_USED.off, fTOP_GRAPH_EPOCH_EPOCH.off, fSEC_STATE_KEY_BLOCKED.off, fDBG_STATE_STATE.off]
      let s2 := keep.foldl (fun st o => st.setReg o (s.reg o)) s1
      let s3 := if s2.getF fDBG_STATE_STATE = 1 then s2.setF fDBG_STATE_STATE 0 else s2
      { s3.bumpWrap fTOP_GRAPH_EPOCH_EPOCH with power := { tripped := s.power.tripped }
                                                sec := { owners := s.sec.owners, revoked := s.sec.revoked, opened := s.sec.opened, erasing := s.sec.erasing, scope := s.sec.scope } })

/-! ### Boot stages (R602–R606) -/

/-- Whether a stage has completed for a die, and whether it has failed there. -/
def BootSt.isDone (b : BootSt) (stage die : Nat) : Bool := b.done.contains (stage, die)
def BootSt.hasFailed (b : BootSt) (stage die : Nat) : Bool := b.failed.contains (stage, die)

/-- Whether a footing is up: F0 with stage 2, the others with stage 3. -/
def BootSt.footingUp (b : BootSt) (f : Nat) : Bool := if f = 0 then b.isDone 2 4 else b.isDone 3 (4 + f)

/-- Stage 4 has started: stage 3 is over on F1–F3, done or failed. -/
def BootSt.stage4 (b : BootSt) : Bool := b.isDone 2 4 && [5, 6, 7].all fun d => b.isDone 3 d || b.hasFailed 3 d

/-- Whether a Marul link is up. -/
def State.d2dUp (s : State) (k : Nat) : Bool := s.getF (fD2D_LINK0_STATE k) == 2

/-- Whether an I/O die takes no part: it failed stage 5 or was rejected (R600). -/
def State.ioOut (s : State) (i : Nat) : Bool := s.boot.hasFailed 5 (8 + i) || ((aget s.boot.caps i).isSome && !s.isSet (fD2D_CAP_ACCEPTED i))

/-- What stage 6 of a compute die waits for (R600, R602): its footing, and its link, or the detour when the I/O die that the link leads to is out. -/
def State.dieMayStart (s : State) (d : Nat) : Bool :=
  s.boot.footingUp d && (
    if d = 0 then (s.boot.isDone 5 8 && s.d2dUp 4) || (s.ioOut 0 && s.boot.isDone 6 2)
    else if d = 2 then (s.boot.isDone 5 9 && s.d2dUp 5) || (s.ioOut 1 && s.boot.isDone 6 0)
    else if d = 1 then s.boot.isDone 6 0 && s.d2dUp 0
    else s.boot.isDone 6 2 && s.d2dUp 1)

/-- Whether a stage may run for a die now: what it depends on is done, and it is neither done nor failed itself. After a trip only stages 1 and 2 run (R629). -/
def State.stageOpen (s : State) (stage die : Nat) : Bool :=
  let b := s.boot
  b.on && b.por && !b.isDone stage die && !b.hasFailed stage die && (stage == 2 || (!s.power.tripped && !(b.stopped && decide (5 ≤ stage)))) && (
    if stage = 2 then die == 4
    else if stage = 3 then (die == 5 || die == 6 || die == 7) && b.isDone 2 4
    else if stage = 5 then (die == 8 || die == 9) && b.stage4
    else if stage = 6 then decide (die < 4) && s.dieMayStart die
    else false)

/-- The MAP register of a span with logical local core l on physical local core q, or unmapped. -/
def State.setMap (s : State) (n l : Nat) (q : Option Nat) : State :=
  let o := 0x300010 + 0x10000 * n + 4 * (l / 4)
  let k := 8 * (l % 4)
  s.setReg o (BitVec.ofNat 32 (putBits (s.reg o).toNat (k + 7) k (match q with | some x => 128 + x | none => 0)))

/-- A span tests its cores and maps its logical cores in ascending order to the lowest that pass (R676). -/
def State.mapCores (s : State) (n bad : Nat) : State :=
  let good := (List.range 18).filter fun q => !bad.testBit q
  let s1 := (s.setF (fSPN_HEALTH_FAILED n) bad).setF (fSPN_TESTED_OK n) (2 ^ 18 - 1 - bad % 2 ^ 18)
  (List.range 16).foldl (fun st l => st.setMap n l good[l]?) s1

/-- s with Deck scratch and scratchpads of a span cleared (R602). -/
def State.clearSpan (s : State) (n : Nat) : State :=
  let m1 := s.mm.mem.clear (deckKey n 0) (deckKey n 0x8000000)
  let m2 := (List.range 18).foldl (fun m q => m.clear (spadKey (18 * n + q) 0) (spadKey (18 * n + q) 0x300000)) m1
  s.setMem m2

/-- The clock ceiling of a span: the phases' (R582), and 800 MHz until its footing's housekeeping core has run (R587). -/
def State.ceiling (s : State) (n : Nat) : Nat :=
  let h := s.getF (fSPN_PHASES_HEALTHY n)
  min (if 22 ≤ h then 1600 else 25 * (64 * h / 22)) (if s.clk.ran.contains (n / 2) then 1600 else 800)

/-- CEILING_MHZ as the ceilings make it (R611). -/
def State.showCeiling (s : State) (n : Nat) : State := s.setF (fSPN_CLK_CEILING_MHZ n) (s.ceiling n)

/-- BOOT_STAGE_DONE (R602, R605, R676): a stage ends for a die. `bad0` and `bad1` are the physical local cores of the die's two spans that fail their test or that the
fuses mark bad, at stage 6. A failure is recorded, and what depends on it does not start. -/
def execBootStageDone (stage : Fin 7) (die : Fin 10) (ok : Bool) (bad0 bad1 : BitVec 18) (s : State) : Host.Outcome State Fault Refusal :=
  .next (
    let b := s.boot
    if !s.stageOpen stage.val die.val then s
    else if !ok then
      (s.setBoot { b with failed := b.failed ++ [(stage.val, die.val)] }).bootFail stage.val die.val 1
    else
      let s1 := s.setBoot { b with done := b.done ++ [(stage.val, die.val)] }
      if stage.val = 6 then
        let n := 2 * die.val
        let s2 := ((s1.mapCores n bad0.toNat).mapCores (n + 1) bad1.toNat).setF fTOP_READY_COLL 1
        ((s2.clearSpan n).clearSpan (n + 1) |>.showCeiling n).showCeiling (n + 1)
      else s1)

/-- TOP.READY.STACK. -/
def State.setReadyStack (s : State) (n : Nat) (v : Bool) : State :=
  s.setF fTOP_READY_STACK (putBits (s.getF fTOP_READY_STACK) n n v.toNat)

/-- A stack is trained: it is usable (R606). -/
def State.stackTrained (s : State) (n : Nat) : State := (s.setStack n { s.stack n with trained := true }).setReadyStack n true

/-- STACK_TRAIN_ATTEMPT_DONE (R604): up to three attempts. -/
def execStackTrainAttemptDone (stack : SpanIx) (ok : Bool) (s : State) : Host.Outcome State Fault Refusal :=
  .next (
    let n := stack.val
    let k := s.stack n
    if !s.boot.on || !s.boot.por || s.power.tripped || !s.boot.stage4 || !s.boot.footingUp (n / 2) || k.trained || decide (3 ≤ k.trainTries) then s
    else if ok then (s.setStack n { k with trainTries := k.trainTries + 1 }).stackTrained n
    else
      let s1 := s.setStack n { k with trainTries := k.trainTries + 1 }
      if k.trainTries + 1 < 3 then s1 else s1.bootFail 4 n 3)

/-- SPAN_READY (R606, R607): a span whose die is up and whose stack is ready takes its stack and is ready; its cycles count from 0 (R588). -/
def execSpanReady (span : SpanIx) (s : State) : Host.Outcome State Fault Refusal :=
  .next (
    let n := span.val
    if s.boot.isDone 6 (n / 2) && s.getF fTOP_READY_STACK / 2 ^ n % 2 == 1 && !s.spanReady n && !s.spanInReset n && !(s.stack n).bist then
      let s1 := (s.ownStack n false).setReadySpan n true
      s1.setSpan n { s1.span n with cyc := 0, cycFrac := 0 }
    else s)

/-! ### Regulators, clocks and power (R581–R590) -/

/-- A POWER record (R649): 1 rail, 2 phase, 3 Marul link down; `level` is the reset that the device starts for it. -/
def State.powerRec (s : State) (event unitKind unit value sev : Nat) (level : Nat := 0) : State :=
  s.errRec { typ := 0x0A, sev := sev, level := level, unitKind := unitKind, unitIx := unit, arg0 := event, arg1 := unit, arg2 := value }

/-- s with the state of clocks and regulators replaced. -/
def State.setClk (s : State) (c : ClockSt) : State := { s with clk := c }

/-- The span is held in L3 for its phases (R582, R583). -/
def State.holdPhases (s : State) (n : Nat) (hbm : Bool) : State :=
  (s.setFaults { s.faults with phaseHeld := insNat n s.faults.phaseHeld }).faultReset 3 (.span n) hbm

/-- Spares of a bank in use: of phases 22 and 23, as many as were switched in, the lower first where it was healthy. -/
def sparesIn (failed used : Nat) : List Nat :=
  if used = 0 then [] else if 2 ≤ used then [22, 23] else if failed.testBit 22 && !failed.testBit 23 then [23] else [22]

/-- A phase of a span's bank fails (R581, R582). -/
def State.phaseFail (s : State) (n i : Nat) : State :=
  let failed := s.getF (fSPN_PHASES_FAILED n)
  if failed.testBit i then s
  else
    let used := s.getF (fSPN_PHASES_SPARES_USED n)
    let ins := sparesIn failed used
    let idle := ([22, 23].filter fun x => !ins.contains x && !failed.testBit x && x != i)
    let runs := decide (i < 22) || ins.contains i
    let h := s.getF (fSPN_PHASES_HEALTHY n) - 1
    let s1 := ((s.setF (fSPN_PHASES_FAILED n) (failed + 2 ^ i)).setF (fSPN_PHASES_HEALTHY n) h).setF (fSPN_PHASES_SPARES_USED n)
      (if runs && !idle.isEmpty then used + 1 else used)
    let s2 := s1.showCeiling n
    if 22 ≤ h then s2
    else
      let hold : Bool := decide (h ≤ 10) && !s2.faults.phaseHeld.contains n
      let s3 := (s2.powerRec 2 14 n h 2 (if hold then s2.startLevel 3 (.span n) else 0)).setF fTOP_ALERT_PHASES 1
      if hold then s3.holdPhases n false else s3

/-- REG_PHASE_FAIL (R581, R582). -/
def execRegPhaseFail (span : SpanIx) (phase : Fin 24) (s : State) : Host.Outcome State Fault Refusal := .next (s.phaseFail span.val phase.val)

/-- HBM_PHASE_FAIL (R583): the second failed phase of a stack holds its span in L3, as for an HBM fault. -/
def execHbmPhaseFail (stack : SpanIx) (s : State) : Host.Outcome State Fault Refusal :=
  .next (
    let n := stack.val
    let k := (aget s.clk.hbmFailed n).getD 0 + 1
    let s1 := s.setClk { s.clk with hbmFailed := aput s.clk.hbmFailed n k }
    if k = 2 then ((s1.powerRec 2 4 n k 2 (s1.startLevel 3 (.span n))).setF fTOP_ALERT_PHASES 1).holdPhases n true else s1)

/-- The clock a span is to run: the least of the request and the ceiling (R587), in steps of 25 MHz from 800 MHz up (R585). -/
def State.clockTarget (s : State) (n : Nat) : Nat :=
  max 800 (min ((aget s.clk.req n).getD (s.getF (fSPN_CLK_CURRENT_MHZ n))) (s.getF (fSPN_CLK_CEILING_MHZ n)) / 25 * 25)

/-- CLOCK_CHANGE (R585–R587): at most once in 100 µs, the span takes its clock and the voltage that its fused table gives it. -/
def execClockChange (span : SpanIx) (s : State) : Host.Outcome State Fault Refusal :=
  .next (
    let n := span.val
    let t := s.clockTarget n
    let free : Bool := match aget s.clk.changedAt n with
      | some a => decide (a + 100000 ≤ s.time.nowNs)
      | none => true
    if t = s.getF (fSPN_CLK_CURRENT_MHZ n) ∨ !free then s
    else
      let s1 := s.setClk { s.clk with changedAt := aput s.clk.changedAt n s.time.nowNs }
      (s1.setF (fSPN_CLK_CURRENT_MHZ n) t).setF (fSPN_CLK_VOLT_MV n) (max 620 (min 850 (Config.fusedMv n t))))

/-- A core's limiter at the start of a window of 32 cycles: the groups fed in the window before are what the next may exceed by one (R588). -/
def TrsSt.window (t : TrsSt) (cyc : Nat) : TrsSt :=
  if cyc / 32 = t.didtAt / 32 then t
  else { t with didtPrev := (if cyc / 32 = t.didtAt / 32 + 1 then t.didtFed else 0), didtFed := 0, didtAt := cyc }

/-- DIDT_WINDOW (R588). -/
def execDidtWindow (span : SpanIx) (s : State) : Host.Outcome State Fault Refusal :=
  .next { s with trs := s.trs.map fun (e : Nat × TrsSt) => if e.1 / 16 = span.val then (e.1, e.2.window (s.span span.val).cyc) else e }

/-- DIDT_DROOP (R588): every group of the span is withheld for 16 cycles. -/
def execDidtDroop (span : SpanIx) (s : State) : Host.Outcome State Fault Refusal :=
  .next { s with power := { s.power with droop := aput s.power.droop span.val ((s.span span.val).cyc + 16) } }

/-- RED_APPLIED of every span: the greatest of its three reductions (R590). -/
def State.showApplied (s : State) : State :=
  (List.range 8).foldl (fun st n => st.setF (fTHM_SPAN1_RED_APPLIED n)
    (min 255 (max (max (st.getF (fTHM_SPAN1_RED_SPAN n)) (st.getF (fTHM_SPAN1_RED_STACK n))) st.power.capRed))) s

/-- POWER_LIMIT_EVENT (R589, R590): the input power averaged over 10 µs. Above 1.10 × the cap the device withholds groups in equal proportion, by a reduction the spec does not
state (a free value from 1 to 256); below the cap it stops. -/
def execPowerLimitEvent (watts : Half) (s : State) : Host.Outcome State Fault Refusal :=
  .next (
    let cap := s.getF fTOP_POWER_CAP_W
    if cap * 11 < watts.toNat * 10 then
      let s1 := if s.power.capRed = 0 then s.bumpSat fTOP_POWER_LIMIT_EVENTS else s
      ({ s1.drew with power := { s1.power with capRed := Config.free s1.freeCtr % 256 + 1 } }).showApplied
    else if watts.toNat < cap then ({ s with power := { s.power with capRed := 0 } }).showApplied
    else s)

end Sys2Proof.Machine
end

