-- ==== Sys2Proof/Machine/Marul.lean ====
section
/-! DEFINITION. The Marul links between the dies: capability records (R598–R600), flits, acknowledgement and resend (R593–R595), detours (R39, R596). -/

namespace Sys2Proof.Machine

open Sys2Proof

/-! ### Links -/

/-- The die at an end of a link (R591): 0–3 C0–C3, 8 IO-N, 9 IO-S. -/
def linkEnd (k : Nat) (second : Bool) : Nat := match k with
  | 0 => if second then 1 else 0
  | 1 => if second then 3 else 2
  | 2 => if second then 2 else 0
  | 3 => if second then 3 else 1
  | 4 => if second then 8 else 0
  | 5 => if second then 9 else 2
  | _ => if second then 9 else 8

/-- The first link of the detour of a link's traffic, from its first end or from its second (R39, R597; for links 2 and 3 the way round the four compute dies). -/
def detourLink (k : Nat) (second : Bool) : Nat := match k with
  | 0 => if second then 3 else 2
  | 1 => if second then 3 else 2
  | 2 => if second then 1 else 0
  | 3 => if second then 1 else 0
  | 4 => if second then 6 else 2
  | 5 => if second then 6 else 2
  | _ => if second then 5 else 4

/-- A Marul link's state, and one of its directions: the one its first end sends, or (rev) its second. -/
def State.mlink (s : State) (k : Nat) : MarulLink := (aget s.marul k).getD {}
def State.mdir (s : State) (k : Nat) (rev : Bool) : MarulDir := if rev then (s.mlink k).rev else (s.mlink k).fwd

/-- s with a link's state, or one direction of it, replaced. -/
def State.setMlink (s : State) (k : Nat) (l : MarulLink) : State := { s with marul := aput s.marul k l }
def State.setMdir (s : State) (k : Nat) (rev : Bool) (d : MarulDir) : State :=
  s.setMlink k (if rev then { s.mlink k with rev := d } else { s.mlink k with fwd := d })

/-! ### Capability records (R598–R600) -/

/-- A link trains between the two ends of records a and b, over the common rates and features: both ends start over with the credits the other granted (R594, R599). A link that
is detoured carries traffic again only after a second without a resend (R596). -/
def State.trainLink (s : State) (k : Nat) (a b : List Byte) : State :=
  let l : MarulLink := { fwd := { credits := List.replicate 8 (recNat b 7 1), ackAt := s.time.nowNs, back := List.replicate 8 0 },
                         rev := { credits := List.replicate 8 (recNat a 7 1), ackAt := s.time.nowNs, back := List.replicate 8 0 }, cleanAt := s.time.nowNs, trained := true }
  let s1 := (s.setMlink k l).setF (fD2D_LINK0_MODULES k) (min (recNat a 6 1) (recNat b 6 1))
  if s1.getF (fD2D_LINK0_STATE k) = 3 then s1 else s1.setF (fD2D_LINK0_STATE k) 2

/-- The highest common rate as CAP.RATE codes it: 1 for 8 to 4 for 32 GT/s, 0 for none. -/
def rateCode (r : Nat) : Nat := if r.testBit 3 then 4 else if r.testBit 2 then 3 else if r.testBit 1 then 2 else if r.testBit 0 then 1 else 0

/-- Whether IO_GEN allows an I/O die with this record (R599). -/
def genAllows (ioGen : Nat) (r : List Byte) : Bool :=
  let fen := recNat r 4 2 == 0x1FD4
  let g := recNat r 2 1
  if ioGen = 0 then (fen && (g == 2 || g == 3)) || recBits r 0 1 7 4 == 1
  else if ioGen = 2 then fen && (g == 2 || g == 3)
  else fen && g == 3

/-- The rates an I/O die runs: with IO_GEN 2 those of DIE_GEN 2, up to 24 GT/s (R598, R599). -/
def genRates (ioGen rates : Nat) : Nat := if ioGen = 2 then rates &&& 7 else rates &&& 15

/-- Whether I/O die i is known: its record has come, or stage 5 has failed for it. -/
def State.ioKnown (s : State) (i : Nat) : Bool := (aget s.boot.caps i).isSome || s.boot.hasFailed 5 (8 + i)

/-- Start-up stops after stage 4 when no accepted I/O die advertises HOST (R600). -/
def State.checkHost (s : State) : State :=
  if s.ioKnown 0 && s.ioKnown 1 && !s.boot.stopped && !([0, 1].any fun i => s.isSet (fD2D_CAP_ACCEPTED i) && (s.getF (fD2D_CAP_FEATURES i)).testBit 5) then
    (s.setBoot { s.boot with stopped := true }).bootFail 4 4 1
  else s

/-- Whether I/O die i of this record is accepted by a compute die with record a (R599). -/
def State.capOk (s : State) (i : Nat) (a b : List Byte) : Bool :=
  (recNat a 8 4 &&& recNat b 8 4 &&& 0x3F) &&& 0x1F == 0x1F && genAllows (s.getF (fD2D_CAP_IO_GEN i)) b

/-- CAP of an I/O die as the two records make it (R599). -/
def State.showCap (s : State) (i : Nat) (a b : List Byte) (ok : Bool) : State :=
  let s1 := (s.setF (fD2D_CAP_ACCEPTED i) ok.toNat).setF (fD2D_CAP_FOREIGN i) (recNat b 4 2 != 0x1FD4).toNat
  let s2 := ((s1.setF (fD2D_CAP_DIE_GEN i) (recNat b 2 1)).setF (fD2D_CAP_MARUL_VER i) (recNat b 0 1)).setF (fD2D_CAP_FEATURES i) (recNat a 8 4 &&& recNat b 8 4 &&& 0x3F)
  let s3 := s2.setF (fD2D_CAP_RATE i) (if ok then rateCode (genRates (s.getF (fD2D_CAP_IO_GEN i)) (recNat a 3 1 &&& recNat b 3 1)) else 0)
  s3.setBoot { s3.boot with caps := aput s3.boot.caps i b }

/-- MARUL_CAP_EXCHANGE (R594, R598–R600): the records of the two ends of a link. On links 4 and 5 the compute die accepts the I/O die or rejects it; a rejected die's link never
trains. `repaired` counts the lanes that training moved to redundant ones (R592). -/
def execMarulCapExchange (link : Fin 7) (first second : List Byte) (repaired : Byte) (s : State) : Host.Outcome State Fault Refusal :=
  .next (
    let k := link.val
    let a := byteField first 0 32
    let b := byteField second 0 32
    if !s.boot.on || !s.boot.por || s.power.tripped || s.getF (fD2D_LINK0_STATE k) == 2 then s
    else if k = 4 ∨ k = 5 then
      let ok := s.capOk (k - 4) a b
      let s1 := s.showCap (k - 4) a b ok
      (if ok then (s1.trainLink k a b).setF (fD2D_LINK0_LANES_REPAIRED k) repaired.toNat else s1).checkHost
    else (s.trainLink k a b).setF (fD2D_LINK0_LANES_REPAIRED k) repaired.toNat)

/-! ### Flits (R593–R595) -/

/-- The fields of a flit's header, and its payload. -/
def flitHead (f : List Byte) : Nat := recNat f 0 8
def flitSeq (f : List Byte) : Nat := flitHead f / 2 ^ 52
def flitAck (f : List Byte) : Option Nat := if (flitHead f).testBit 39 then some (flitHead f / 2 ^ 40 % 4096) else none
def flitNak (f : List Byte) : Bool := (flitHead f).testBit 38
def flitNull (f : List Byte) : Bool := (flitHead f).testBit 37
def flitVc (f : List Byte) : Nat := flitHead f / 2 ^ 34 % 8
def flitCredit (f : List Byte) (v : Nat) : Nat := flitHead f / 2 ^ (4 * v) % 16
def flitPayload (f : List Byte) : List Byte := byteField f 8 240

/-- Preset 1 of R481. -/
def presetCrc64 : Preset := ⟨64, 0x42F0E1EBA9EA3693, 0xFFFFFFFFFFFFFFFF, true, true, 0xFFFFFFFFFFFFFFFF⟩

/-- A flit of these header and payload, with its CRC. -/
def mkFlit (head : Nat) (payload : List Byte) : List Byte :=
  let b := leBytes 8 head ++ byteField payload 0 240
  b ++ leBytes 8 (crcOf presetCrc64 b)

/-- Whether a flit of 256 bytes checks. -/
def flitGood (f : List Byte) : Bool := f.length == 256 && recNat f 248 8 == crcOf presetCrc64 (f.take 248)

/-- Flits from SEQ a to SEQ b, modulo 4,096. -/
def seqAhead (a b : Nat) : Nat := (b + 4096 - a) % 4096

/-- Release the held flits that an acknowledgement of SEQ `ack` covers. -/
def MarulDir.acked (d : MarulDir) (ack now : Nat) : MarulDir :=
  let keep := d.held.filter fun e => decide (seqAhead e.1 ack ≥ 2048)
  if keep.length = d.held.length then d else { d with held := keep, ackAt := now, again := none }

/-- The sender's end of a flit: one it holds already is a resend; a new one takes the next SEQ, a place of the 512 in the retry buffer, and a credit of its virtual channel. None where
the sender could not have sent it. -/
def MarulDir.sent (d : MarulDir) (f : List Byte) (now : Nat) : Option MarulDir :=
  if flitNull f then (if flitSeq f = d.txNext then some d else none)
  else if d.held.any fun e => e.1 == flitSeq f && e.2 == f then some d
  else if flitSeq f = d.txNext ∧ d.held.length < 512 ∧ 0 < d.credits.getD (flitVc f) 0 then
    some { d with txNext := (d.txNext + 1) % 4096, held := d.held ++ [(d.txNext, f)], credits := d.credits.set (flitVc f) (d.credits.getD (flitVc f) 0 - 1),
                  ackAt := if d.held.isEmpty then now else d.ackAt }
  else none

/-- The header of a flit that carries no payload: SEQ of the sender's next flit, the acknowledgement of what the other direction has accepted, and up to 15 credits for each virtual
channel. -/
def nullHead (own other : MarulDir) (nak : Bool) : Nat :=
  2 ^ 52 * own.txNext + 2 ^ 40 * ((other.rxNext + 4095) % 4096) + 2 ^ 39 + (if nak then 2 ^ 38 else 0) + 2 ^ 37 +
    sumNat ((List.range 8).map fun v => min 15 (other.back.getD v 0) * 2 ^ (4 * v))

/-- A receiver of direction `rev` sends a flit with no payload the other way. -/
def State.sendNull (s : State) (k : Nat) (rev nak : Bool) : State :=
  let d := s.mdir k rev
  let own := s.mdir k (!rev)
  let h := nullHead own d nak
  (s.setMdir k rev { d with unacked := none, back := d.back.map fun c => c - min 15 c, nakOut := d.nakOut || nak }).emit (.flit k (if nak then 1 else 0) own.txNext (mkFlit h []))

/-- A flit arrives in direction `rev` of link k as the bytes `recv` (R595). -/
def State.flitIn (s : State) (k : Nat) (rev : Bool) (recv : List Byte) : State :=
  let d := s.mdir k rev
  if flitGood recv ∧ flitSeq recv = d.rxNext then
    let d1 : MarulDir := if flitNull recv then { d with nakOut := false }
      else { d with rxNext := (d.rxNext + 1) % 4096, nakOut := false, unacked := (match d.unacked with | some t => some t | none => some s.time.nowNs),
                    taken := d.taken ++ [(flitVc recv, flitPayload recv)], back := d.back.set (flitVc recv) (d.back.getD (flitVc recv) 0 + 1) }
    let s1 := s.setMdir k rev d1
    let o := s1.mdir k (!rev)
    let o1 := match flitAck recv with
      | some a => { o.acked a s.time.nowNs with nakIn := if flitNak recv then some a else o.nakIn }
      | none => o
    s1.setMdir k (!rev) { o1 with credits := (List.range 8).map fun v => o1.credits.getD v 0 + flitCredit recv v }
  else
    let s1 := s.bumpSat (fD2D_LINK1_CRC_ERRORS k)
    if d.nakOut then s1 else s1.sendNull k rev true

/-- MARUL_FLIT_RECEIVE (R593–R595): the flit `sent` by one end of a link arrives at the other as the bytes `recv`. -/
def execMarulFlitReceive (link : Fin 7) (rev : Bool) (sent recv : List Byte) (s : State) : Host.Outcome State Fault Refusal :=
  .next (
    let k := link.val
    if !s.d2dUp k || !flitGood sent then s
    else match (s.mdir k rev).sent sent s.time.nowNs with
      | some d => (s.setMdir k rev d).flitIn k rev recv
      | none => s)

/-- MARUL_NAK_RECEIVE (R595): the sender of direction `rev` resends every held flit from ACK + 1 on, in order. -/
def execMarulNakReceive (link : Fin 7) (rev : Bool) (s : State) : Host.Outcome State Fault Refusal :=
  .next (
    let k := link.val
    let d := s.mdir k rev
    match d.nakIn with
    | some a =>
      let first := (a + 1) % 4096
      let n := match d.again with
        | some (q, c) => if q = first then c + 1 else 1
        | none => 1
      let s1 := (s.setMdir k rev { d with nakIn := none, again := if d.held.isEmpty then none else some (first, n) }).bumpSat (fD2D_LINK1_RESENDS k)
      let s2 := s1.setMlink k { s1.mlink k with cleanAt := s.time.nowNs }
      d.held.foldl (fun st e => st.emit (.flit k 2 e.1 e.2)) s2
    | none => s)

/-- MARUL_ACK_DUE (R595): a receiver that holds accepted flits it has not acknowledged acknowledges them. -/
def execMarulAckDue (link : Fin 7) (rev : Bool) (s : State) : Host.Outcome State Fault Refusal :=
  .next (if s.d2dUp link.val && (s.mdir link.val rev).unacked.isSome then s.sendNull link.val rev false else s)

/-! ### Detours (R596) -/

/-- Whether a direction of a link calls for taking it down: eight resends of a flit in a row, or 10 µs in which no acknowledgement advances while flits are held. -/
def MarulDir.stuck (d : MarulDir) (now : Nat) : Bool :=
  (match d.again with | some (_, c) => decide (8 ≤ c) | none => false) || (!d.held.isEmpty && decide (d.ackAt + 10000 ≤ now))

/-- The flits held for a link go out again on its detour. -/
def State.moveToDetour (s : State) (k : Nat) (rev : Bool) : State :=
  let d := s.mdir k rev
  (d.held.foldl (fun st e => st.emit (.flit (detourLink k rev) 3 e.1 e.2)) s).setMdir k rev { d with held := [], again := none, nakIn := none }

/-- MARUL_LINK_DOWN (R39, R596): `lanes` says that lane repair cannot cover the lanes that have failed. -/
def execMarulLinkDown (link : Fin 7) (lanes : Bool) (s : State) : Host.Outcome State Fault Refusal :=
  .next (
    let k := link.val
    if s.d2dUp k && (lanes || (s.mdir k false).stuck s.time.nowNs || (s.mdir k true).stuck s.time.nowNs) then
      let s1 := (s.moveToDetour k false).moveToDetour k true
      let s2 := s1.setMlink k { s1.mlink k with trained := false }
      let s3 := ((s2.setF (fD2D_LINK0_STATE k) 3).bumpSat (fD2D_LINK2_DETOURS k)).bumpSat (fD2D_LINK2_DOWN_EVENTS k)
      (s3.setF fTOP_ALERT_D2D 1).powerRec 3 10 k (s3.getF (fD2D_LINK2_DOWN_EVENTS k)) 2
    else s)

/-- MARUL_LINK_RESTORE (R596): a link trained again that has run 1 s with no resend takes its traffic back, once every flit sent on its detour is acknowledged. -/
def execMarulLinkRestore (link : Fin 7) (s : State) : Host.Outcome State Fault Refusal :=
  .next (
    let k := link.val
    if s.getF (fD2D_LINK0_STATE k) == 3 && (s.mlink k).trained && decide ((s.mlink k).cleanAt + 1000000000 ≤ s.time.nowNs) &&
        [detourLink k false, detourLink k true].all fun d => [false, true].all fun r => (s.mdir d r).held.isEmpty then
      s.setF (fD2D_LINK0_STATE k) 2
    else s)

end Sys2Proof.Machine
end

