-- ==== Sys2Proof/Machine/Thermal.lean ====
section
/-! DEFINITION. Heat: sensors and sense lines, the round, cross-checks, stand-ins and filters (R613–R624), the trip (R627–R631), the fallback (R638) and the synchronising
reset (R622). Temperatures are in units of 0.25 °C. -/

namespace Sys2Proof.Machine

open Sys2Proof

/-! ### Where sensors sit (R614, R619, R623) -/

/-- The die of a sensor: 0–3 C0–C3, 4–7 F0–F3, 8 IO-N, 9 IO-S. -/
def sensorDie (i : Nat) : Nat :=
  let l := i / 8
  if l < 8 then l / 2 else if l < 10 then 4 + 2 * (l - 8) + i % 8 / 4 else l - 2

/-- A sensor's number on its die, and the sensor with a number on a die. -/
def sensorNo (i : Nat) : Nat := if i < 64 then i % 16 else if i < 80 then i % 4 else i % 8
def sensorOf (die k : Nat) : Nat := if die < 4 then 16 * die + k else if die < 8 then 64 + 4 * (die - 4) + k else 80 + 8 * (die - 8) + k

/-- Sensors on a die. -/
def dieSensors (die : Nat) : List Nat := (List.range (if die < 4 then 16 else if die < 8 then 4 else 8)).map (sensorOf die)

/-- Two numbers that differ by one at most. -/
def near1 (a b : Nat) : Bool := decide (a ≤ b + 1) && decide (b ≤ a + 1)

/-- The neighbours of a sensor (R619). -/
def sensorNeighbours (i : Nat) : List Nat :=
  (dieSensors (sensorDie i)).filter fun j => j != i &&
    (decide (4 ≤ sensorDie i ∧ sensorDie i < 8) || (near1 (sensorNo i / 4) (sensorNo j / 4) && near1 (sensorNo i % 4) (sensorNo j % 4)))

/-- The ten sensors of a span (R623). -/
def spanSensors (n : Nat) : List Nat :=
  ((dieSensors (n / 2)).filter fun i => sensorNo i % 4 / 2 == n % 2) ++ ((dieSensors (4 + n / 2)).filter fun i => sensorNo i / 2 == n % 2)

/-! ### Reading and writing temperatures -/

/-- s with the sensing state replaced. -/
def State.setTherm (s : State) (t : ThermSt) : State := { s with therm := t }

/-- A temperature field, and s with one set. -/
def State.getT (s : State) (f : Fld) : Int := signedOf 16 (s.getF f)
def State.setT (s : State) (f : Fld) (t : Int) : State := s.setF f (unsignedOf 16 t)

/-- T_THR in units of 0.25 °C, and GAIN in %/°C (R644). -/
def State.tThr (s : State) : Int := 4 * (max 80 (min 100 (s.getF fTHM_CFG_T_THR)) : Nat)
def State.gain (s : State) : Nat := max 1 (min 10 (s.getF fTHM_CFG_GAIN))

/-- The temperature that a count gives (R615). -/
def tempQ (raw n0 slope : Nat) : Int := signedOf 16 (unsignedOf 16 (Int.fdiv (((raw : Int) - (n0 : Int)) * (slope : Int)) 65536))

/-- The filter of R621. -/
def filtNext (filt t : Int) : Int := filt + Int.tdiv (t - filt) 4

/-- Insertion into an ascending list, and the median of R619: element m div 2. -/
def insInt (x : Int) : List Int → List Int
  | [] => [x]
  | y :: ys => if x ≤ y then x :: y :: ys else y :: insInt x ys
def medianOf (l : List Int) : Option Int := (l.foldr insInt [])[l.length / 2]?

/-- The greatest of a list. -/
def maxInt (l : List Int) : Option Int := l.foldl (fun a x => match a with | some m => some (max m x) | none => some x) none

/-! ### Warnings (R613) -/

/-- A THERMAL record (R649). -/
def State.thermRec (s : State) (bit unitKind unit : Nat) (t : Int) (sev : Nat) : State :=
  s.errRec { typ := 0x0B, sev := sev, unitKind := unitKind, unitIx := unit, arg0 := bit, arg1 := unit, arg2 := unsignedOf 32 t }

/-- A warning is raised. -/
def State.warn (s : State) (bit : Nat) : State :=
  (s.setF fTHM_WARN_EVENTS (putBits (s.getF fTHM_WARN_EVENTS) bit bit 1)).setF fTOP_ALERT_THERM 1

/-! ### The trip (R627–R631) -/

/-- The body of the trip record (R631). -/
def State.tripBody (s : State) (cause a b : Nat) (ta tb : Int) : List Byte :=
  leBytes 8 s.ftOrZero ++ leBytes 1 cause ++ leBytes 1 a ++ leBytes 1 b ++ [0] ++ leBytes 2 (unsignedOf 16 ta) ++ leBytes 2 (unsignedOf 16 tb) ++
    ((List.range 8).flatMap fun n => leBytes 1 (s.getF (fTHM_SPAN1_RED_APPLIED n))) ++ ((List.range 8).flatMap fun n => leBytes 1 (s.getF (fSPN_CLK_CURRENT_MHZ n) / 25)) ++
    leBytes 2 (s.getF fTOP_POWER_IN_WATTS) ++ leBytes 1 (s.getF fTHM_STATUS_SETTLE) ++ leBytes 1 (s.getF fTOP_READY_HK)

/-- A trip: the latch, the record in the log flash, every laser shut; from then on no group is fed, no HBM request issued and nothing posted (R628). -/
def State.trip (s : State) (cause a b : Nat) (ta tb : Int) : State :=
  if s.power.tripped then s
  else
    let s1 := (((s.setF fTHM_TRIP_LATCHED 1).setF fTHM_TRIP_CAUSE cause).setF fTHM_TRIP_SENSOR_A a).setF fTHM_TRIP_SENSOR_B b
    let s2 := s1.writeRaw 0x03 0 3 0 false false (s1.tripBody cause a b ta tb) none
    (List.range 34).foldl (fun st p => st.setLit p false) { s2 with power := { s2.power with tripped := true } }

/-- The comparator on the true samples of the sensors: two of them plausible, of this round or the one before, above 115.00 °C (R627). -/
def State.compareSensors (s : State) : State :=
  let hot := s.therm.latest.filter fun e => decide (460 < e.2.1) && decide (s.therm.roundNo ≤ e.2.2 + 1)
  match hot with
  | x :: y :: _ => s.trip 1 x.1 y.1 x.2.1 y.2.1
  | _ => s

/-! ### Conversions (R615, R616) -/

/-- A sample reads IMPLAUSIBLE outside −40.00 to 150.00 °C. -/
def implausible (t : Int) : Bool := decide (t < -160) || decide (600 < t)

/-- The injection in force on a sensor (R684). -/
def State.sensorInj (s : State) (i : Nat) : Option Injection := s.faults.injections.find? fun j => j.kind == 6 && j.a == i

/-- What a conversion of sensor i gives the round: count, temperature, OPEN, IMPLAUSIBLE, with an injection in force applied. -/
def State.converted (s : State) (i raw : Nat) : Nat × Int × Bool × Bool :=
  let t := tempQ raw (Config.sensorN0 i) (Config.sensorSlope i)
  let plain : Nat × Int × Bool × Bool := (raw, t, raw == 0, raw != 0 && implausible t)
  match s.sensorInj i with
  | none => plain
  | some j => if j.b = 0 then (0, t, true, false) else if j.b = 1 then (raw, t, false, true)
    else
      let u := t + signedOf 16 (j.arg / 65536)
      (raw, u, raw == 0, raw != 0 && implausible u)

/-- SENSOR_CONVERSION (R615, R616, R627): position p of a line ends its 40 µs at round start + 40 (p + 1) µs. -/
def execSensorConversion (sensor : Fin 96) (raw : BitVec 20) (s : State) : Host.Outcome State Fault Refusal :=
  .next (
    let i := sensor.val
    let h := s.therm
    if !s.boot.por || h.roundNo = 0 || h.published || (aget h.conv i).isSome || decide (s.time.nowNs < h.roundAt + 40000 * (i % 8 + 1)) then s
    else
      let r := raw.toNat
      let t := tempQ r (Config.sensorN0 i) (Config.sensorSlope i)
      let h1 := { h with conv := aput h.conv i (s.converted i r), latest := if r = 0 ∨ implausible t then adel h.latest i else aput h.latest i (t, h.roundNo) }
      (s.setTherm h1).compareSensors)

/-! ### Rounds (R618, R622) -/

/-- ROUND_START (R618): rounds of 1 ms run back to back from the release of POR_N. -/
def execRoundStart (s : State) : Host.Outcome State Fault Refusal :=
  .next (
    let h := s.therm
    if s.boot.por && (h.roundNo == 0 || decide (h.roundAt + 1000000 ≤ s.time.nowNs)) then
      s.setTherm { h with roundAt := s.time.nowNs, roundNo := h.roundNo + 1, conv := [], published := false }
    else s)

/-- A synchronising reset (R622). -/
def State.thermSync (s : State) : State :=
  (s.setTherm { s.therm with roundAt := s.time.nowNs, roundNo := s.therm.roundNo + 1, conv := [], published := false, load := List.range 104, away := [], near := [] }).setF
    fTHM_STATUS_SETTLE 4

/-! ### Publication (R617–R624) -/

/-- Whether a sensor's sample of this round is plausible; and whether it is one that cross-checks may use: plausible and its sensor not suspect. -/
def State.plausible (s : State) (i : Nat) : Bool := match aget s.therm.conv i with
  | some c => !c.2.2.1 && !c.2.2.2
  | none => false
def State.usable (s : State) (i : Nat) : Bool := s.plausible i && !s.isSet (fTHM_SENSOR0_SUSPECT i)

/-- The temperature converted for a sensor in this round. -/
def State.convT (s : State) (i : Nat) : Int := ((aget s.therm.conv i).getD (0, 0, true, false)).2.1

/-- The samples of some sensors that may be used. -/
def State.usableOf (s : State) (l : List Nat) : List Int := (l.filter s.usable).map s.convT

/-- The counts and flags of a round go into the registers. -/
def State.publishRaw (s : State) : State :=
  s.therm.conv.foldl (fun st e =>
    ((st.setF (fTHM_SENSOR0_RAW e.1) e.2.1).setF (fTHM_SENSOR0_OPEN e.1) e.2.2.2.1.toNat).setF (fTHM_SENSOR0_IMPLAUSIBLE e.1) e.2.2.2.2.toNat) s

/-- One sense line (R617). -/
def State.publishLine (s : State) (l : Nat) : State :=
  let ps := List.range 8
  let open' := ps.filter fun p => match aget s.therm.conv (8 * l + p) with
    | some c => c.2.2.1
    | none => false
  let all := ps.all fun p => s.plausible (8 * l + p)
  let k := if all then (aget s.therm.whole l).getD 0 + 1 else 0
  let s1 := s.setTherm { s.therm with whole := aput s.therm.whole l k }
  match open' with
  | p :: _ =>
    let s2 := (s1.setF (fTHM_LINE_FAULT l) 1).setF (fTHM_LINE_BREAK_POS l) p
    if s.isSet (fTHM_LINE_FAULT l) then s2 else (s2.warn 4).thermRec 4 12 l 0 2
  | [] => if 3 ≤ k then s1.setF (fTHM_LINE_FAULT l) 0 else s1

/-- The cross-check of one sensor against the marks as they stood before the round (R619). -/
def State.crossCheck (s before : State) (i : Nat) : State :=
  let ns := before.usableOf (sensorNeighbours i)
  let cmp : Option Bool := if s.plausible i && decide (2 ≤ ns.length) then (medianOf ns).map fun m => decide (32 < (s.convT i - m).natAbs) else none
  let a := if cmp = some true then (aget s.therm.away i).getD 0 + 1 else 0
  let n := if cmp = some false then (aget s.therm.near i).getD 0 + 1 else 0
  let s1 := s.setTherm { s.therm with away := aput s.therm.away i a, near := aput s.therm.near i n }
  if 3 ≤ a ∧ !s1.isSet (fTHM_SENSOR0_SUSPECT i) then ((s1.setF (fTHM_SENSOR0_SUSPECT i) 1).warn 3).thermRec 3 11 i (s.convT i) 1
  else if 10 ≤ n then s1.setF (fTHM_SENSOR0_SUSPECT i) 0 else s1

/-- The stand-in of a sensor, when one exists (R620). -/
def State.standIn (s : State) (i : Nat) : Option Int :=
  match medianOf (s.usableOf (sensorNeighbours i)) with
  | some m => some m
  | none => match maxInt (s.usableOf (dieSensors (sensorDie i))) with
    | some m => some m
    | none => maxInt (s.usableOf (List.range 96))

/-- A filtered value as the next sample makes it: loaded after a synchronising reset, filtered otherwise (R621, R622). -/
def ThermSt.filt (h : ThermSt) (key : Nat) (old t : Int) : Int := if h.load.contains key then t else filtNext old t

/-- A sensor's sample and filtered value; `marks` is the state with the round's marks set. A sensor with neither a sample nor a stand-in keeps both. -/
def State.publishSensor (s marks : State) (i : Nat) : State :=
  let own := marks.usable i
  match (if own then some (marks.convT i) else marks.standIn i) with
  | some t =>
    let s1 := (s.setF (fTHM_SENSOR0_STANDIN i) (!own).toNat).setT (fTHM_SENSOR1_SAMPLE i) t
    s1.setT (fTHM_SENSOR1_FILT i) (s.therm.filt i (s.getT (fTHM_SENSOR1_FILT i)) t)
  | none => s

/-- One stack's own sensor: its reading, or a failed read (R624). -/
def State.publishStack (s : State) (n : Nat) (r : Option Half) : State := match r with
  | some v =>
    let t := signedOf 16 v.toNat
    let f := if s.isSet (fTHM_STACK0_STALE n) then t else s.therm.filt (96 + n) (s.getT (fTHM_STACK1_FILT n)) t
    let s1 := (((s.setT (fTHM_STACK0_SAMPLE n) t).setT (fTHM_STACK1_FILT n) f).setF (fTHM_STACK0_STALE n) 0).setTherm { s.therm with fails := adel s.therm.fails n }
    if 420 < t then s1.trip 2 n 0xFF t 0 else s1
  | none =>
    let k := (aget s.therm.fails n).getD 0 + 1
    let s1 := s.setTherm { s.therm with fails := aput s.therm.fails n k }
    if k = 10 then ((s1.setF (fTHM_STACK0_STALE n) 1).warn 5).thermRec 5 4 n 380 2 else s1

/-- A sensor's and a stack's temperature as R622 and R623 have it. -/
def State.sensorT (s : State) (i : Nat) : Int :=
  let f := s.getT (fTHM_SENSOR1_FILT i)
  if s.getF fTHM_STATUS_SETTLE = 0 then f else max f (s.getT (fTHM_SENSOR1_SAMPLE i))
def State.stackT (s : State) (n : Nat) : Int :=
  if s.isSet (fTHM_STACK0_STALE n) then 380
  else
    let f := s.getT (fTHM_STACK1_FILT n)
    if s.getF fTHM_STATUS_SETTLE = 0 then f else max f (s.getT (fTHM_STACK0_SAMPLE n))
def State.spanT (s : State) (n : Nat) : Int := (maxInt ((spanSensors n).map s.sensorT)).getD 0

/-- The housekeeping core that holds a die's duties, and whether it runs (R632). -/
def State.dutyCore (s : State) (die : Nat) : Option Nat := (List.range 7).find? fun k => s.getF (fTHM_HK_STATUS_DUTY k) == die
def State.dutyRuns (s : State) (die : Nat) : Bool := match s.dutyCore die with
  | some k => s.getF (fTHM_HK_STATUS_STATE k) == 2
  | none => false

/-- The hardware fallback of a span (R638). -/
def State.fallback (s : State) (n : Nat) : State :=
  if s.dutyRuns (n / 2) || s.isSet (fTHM_SPAN0_FALLBACK n) then s
  else if s.tThr + 32 < s.getT (fTHM_SPAN0_TEMP n) ∨ 372 < s.stackT n then
    let s1 := ((s.maxF (fTHM_SPAN1_RED_SPAN n) 128).maxF (fTHM_SPAN1_RED_STACK n) 128).setF (fTHM_SPAN0_FALLBACK n) 1
    ((s1.warn 6).thermRec 6 3 n (s.getT (fTHM_SPAN0_TEMP n)) 2).showApplied
  else s

/-- Crossings that warn: a span, a stack or an I/O sensor reaches its threshold (R613). -/
def State.warnHot (s before : State) : State :=
  let s1 := (List.range 8).foldl (fun st n => if before.getT (fTHM_SPAN0_TEMP n) < s.tThr ∧ s.tThr ≤ s.getT (fTHM_SPAN0_TEMP n) then st.warn 0 else st) s
  let s2 := (List.range 8).foldl (fun st n => if before.stackT n < 340 ∧ 340 ≤ s.stackT n then st.warn 1 else st) s1
  (dieSensors 8 ++ dieSensors 9).foldl (fun st i => if before.getT (fTHM_SENSOR1_FILT i) < s.tThr ∧ s.tThr ≤ s.getT (fTHM_SENSOR1_FILT i) then st.warn 2 else st) s2

/-- Rounds left of the injections on sensors whose samples this round published; those spent end. -/
def State.ageSensorInj (s : State) : State :=
  s.setFaults { s.faults with injections := (s.faults.injections.map fun j => if j.kind = 6 then { j with left := j.left - 1 } else j).filter fun j => j.kind != 6 || decide (0 < j.left) }

/-- The monitors of R618: reserved channels read 0. -/
def State.publishMon (s : State) (vmon imon : List Half) (watts : Nat) : State :=
  let s1 := (List.range 64).foldl (fun st c => st.setF (fTHM_VMON_MV c) (if c < 53 then (vmon.getD c 0).toNat else 0)) s
  let s2 := (List.range 40).foldl (fun st c => st.setF (fTHM_IMON_DECI_A c) (if c < 29 then (imon.getD c 0).toNat else 0)) s1
  s2.setF fTOP_POWER_IN_WATTS watts

/-- What the publication of a round does (R617–R624, R638). -/
def State.publish (s : State) (stackTemps : List (Option Half)) (vmon imon : List Half) (watts : Nat) : State :=
  let s1 := (List.range 12).foldl State.publishLine s.publishRaw
  let s2 := (List.range 96).foldl (fun st i => if (aget st.therm.conv i).isSome then st.crossCheck s1 i else st) s1
  let s3 := (List.range 96).foldl (fun st i => if (aget st.therm.conv i).isSome then st.publishSensor s2 i else st) s2
  let s4 := (List.range 8).foldl (fun st n => st.publishStack n (stackTemps.getD n none)) s3
  let s5 := ((s4.setF fTHM_STATUS_SETTLE (s4.getF fTHM_STATUS_SETTLE - 1)).bumpWrap fTHM_STATUS_ROUNDS).setTherm { s4.therm with published := true, load := [] }
  let s6 := (List.range 8).foldl (fun st n => st.setT (fTHM_SPAN0_TEMP n) (s5.spanT n)) s5
  let s7 := (List.range 8).foldl State.fallback (s6.warnHot s)
  (s7.publishMon vmon imon watts).ageSensorInj

/-- ROUND_PUBLISH (R618): 400 µs into a round, once; `stackTemps` are the readings of the stacks' own sensors, none where a read failed; `vmon` and `imon` the monitor channels,
and `watts` the input power averaged over 1 ms (R590). -/
def execRoundPublish (stackTemps : List (Option Half)) (vmon imon : List Half) (watts : Half) (s : State) : Host.Outcome State Fault Refusal :=
  .next (
    let h := s.therm
    if s.boot.por && h.roundNo != 0 && !h.published && decide (h.roundAt + 400000 ≤ s.time.nowNs) then s.publish stackTemps vmon imon watts.toNat else s)

end Sys2Proof.Machine
end

