-- ==== Sys2Proof/Machine/Housekeeping.lean ====
section
/-! DEFINITION. The housekeeping cores: duties and loops (R625, R626, R632, R633), images and signatures (R634, R635, R698, R699), watchdog (R636), and the thermal commands
(R639–R643). -/

namespace Sys2Proof.Machine

open Sys2Proof

/-- A housekeeping core's state beside its registers, and s with it replaced. -/
def State.hkCore (s : State) (k : Nat) : HkSt := (aget s.hk k).getD {}
def State.setHk (s : State) (k : Nat) (h : HkSt) : State := { s with hk := aput s.hk k h }

/-- STATUS.STATE of a core; the die whose duties it holds (7 none). -/
def State.hkState (s : State) (k : Nat) : Nat := s.getF (fTHM_HK_STATUS_STATE k)
def State.hkDuty (s : State) (k : Nat) : Nat := s.getF (fTHM_HK_STATUS_DUTY k)

/-- A core's bit of TOP.READY. -/
def State.readyHk (s : State) (k : Nat) (v : Bool) : State := s.setF fTOP_READY_HK (putBits (s.getF fTOP_READY_HK) k k v.toNat)

/-- The fallback check of the spans whose footing's duties core k holds. -/
def State.fallbackOf (s : State) (die : Nat) : State := if die < 4 then (s.fallback (2 * die)).fallback (2 * die + 1) else s

/-! ### The loops (R625, R626) -/

/-- A reduction k × (T − limit) in units of 1/400, limited to 0–1 (R625). -/
def reduction (gain : Nat) (t limit : Int) : Nat := min 400 ((gain : Int) * (t - limit)).toNat

/-- A fraction n/d in units of 1/256, rounded up; 256/256 is written 255. -/
def red256 (n d : Nat) : Nat := min 255 (ceilDiv (256 * n) d)

/-- The clock to request and the reduction to write, as a fraction, from f_span and f_stack in 1/400 and the power loop's clock (R626). -/
def throttle (fSpan fStack creq : Nat) : Nat × Nat × Nat :=
  let f := max fSpan fStack
  if 2 * f ≤ 400 then (creq, fSpan, 400)
  else
    let c := max 800 (creq * 2 * (400 - f) / 400 / 25 * 25)
    (c, max (fSpan * c) (400 * c - (400 - f) * creq), 400 * c)

/-- s with the clock request of a span. -/
def State.setReq (s : State) (n mhz : Nat) : State := s.setClk { s.clk with req := aput s.clk.req n mhz }

/-- A write of RED_SPAN: it ends the fallback, and what was written to RED_STACK meanwhile applies with it (R638). -/
def State.writeRed (s : State) (n v : Nat) : State :=
  let s1 := match aget s.therm.stackRed n with
    | some k => (s.setTherm { s.therm with stackRed := adel s.therm.stackRed n }).setF (fTHM_SPAN1_RED_STACK n) k
    | none => s
  ((s1.setF (fTHM_SPAN1_RED_SPAN n) v).setF (fTHM_SPAN0_FALLBACK n) 0).showApplied

/-- A write of RED_STACK: while the fallback holds, it waits for the span's first RED_SPAN (R638). -/
def State.writeRedStack (s : State) (n v : Nat) : State :=
  if s.isSet (fTHM_SPAN0_FALLBACK n) then s.setTherm { s.therm with stackRed := aput s.therm.stackRed n (v % 256) }
  else (s.setF (fTHM_SPAN1_RED_STACK n) v).showApplied

/-- One span in the loop of a core. -/
def State.loopSpan (s : State) (n creq : Nat) : State :=
  let fs := reduction s.gain (s.getT (fTHM_SPAN0_TEMP n)) s.tThr
  let fk := reduction s.gain (s.stackT n) 340
  let r := throttle fs fk creq
  ((s.writeRedStack n (red256 fk 400)).writeRed n (red256 r.2.1 r.2.2)).setReq n r.1

/-- THROTTLE_LOOP (R625, R626): the loop of the core that holds a footing's duties, every 100 µs; `req0` and `req1` are the clocks that its power loop would otherwise request. -/
def execThrottleLoop (core : HkIx) (req0 req1 : BitVec 11) (s : State) : Host.Outcome State Fault Refusal :=
  .next (
    let k := core.val
    let d := s.hkDuty k
    if s.hkState k = 2 ∧ d < 4 ∧ (s.hkCore k).loopAt + 100000 ≤ s.time.nowNs then
      let s1 := s.setHk k { s.hkCore k with loopAt := s.time.nowNs }
      (s1.loopSpan (2 * d) req0.toNat).loopSpan (2 * d + 1) req1.toNat
    else s)

/-! ### Firmware writes (R633) -/

/-- HK_FIRMWARE_WRITE (R633): field 0 the clock request of span `target`, 1 its RED_SPAN, 2 its RED_STACK, 3 the laser bias of port `target` (channel in bits 31–16, bias below), 4 the core's
watchdog. Any other write, or one outside the core's duties, is discarded and counted. -/
def execHkFirmwareWrite (core : HkIx) (field target : Byte) (value : Word) (s : State) : Host.Outcome State Fault Refusal :=
  .next (
    let k := core.val
    let d := s.hkDuty k
    let n := target.toNat
    let v := value.toNat
    if s.hkState k ≠ 2 then s
    else if field.toNat = 4 then s.setHk k { s.hkCore k with wdogAt := s.time.nowNs }
    else if field.toNat < 3 ∧ d < 4 ∧ n / 2 = d then
      if field.toNat = 0 then s.setReq n v
      else if field.toNat = 1 then s.writeRed n v
      else s.writeRedStack n v
    else if field.toNat = 3 ∧ (d = 4 ∨ d = 5) ∧ n < 34 ∧ n % 2 = d - 4 ∧ v / 65536 < 18 then
      s.modPort n fun p => { p with bias := aput p.bias (v / 65536) (v % 65536) }
    else s.bumpSat (fTHM_HK_EVENTS_DENIED k))

/-! ### Stops (R636, R637) -/

/-- A core stops: STATE, CAUSE and its bit of TOP.READY. What it wrote stays (R637). -/
def State.hkHalt (s : State) (k st cause : Nat) : State := ((s.setF (fTHM_HK_STATUS_STATE k) st).setF (fTHM_HK_STATUS_CAUSE k) cause).readyHk k false

/-- A command stops a core that runs; one that has stopped before keeps the cause of that (R635, R646). -/
def State.hkCmdStop (s : State) (k : Nat) : State := if s.hkState k = 2 then s.hkHalt k 3 3 else s.setF (fTHM_HK_STATUS_STATE k) 3

/-- A core stops on its watchdog or a fault: HK_DOWN and a HOUSEKEEPING record; the fallback watches its spans (R636, R638). -/
def State.hkFail (s : State) (k cause : Nat) (injected : Bool := false) : State :=
  let s1 := ((s.hkHalt k 4 cause).warn 7).errRec
    { typ := 0x0C, sev := 2, injected := injected, unitKind := 13, unitIx := k, arg0 := cause, arg1 := s.hkDuty k, arg2 := s.getF (fTHM_HK_VERSION_FW_VERSION k) }
  s1.fallbackOf (s.hkDuty k)

/-- HK_WATCHDOG_TIMEOUT (R636). -/
def execHkWatchdogTimeout (core : HkIx) (s : State) : Host.Outcome State Fault Refusal :=
  .next (if s.hkState core.val = 2 ∧ (s.hkCore core.val).wdogAt + 10000000 ≤ s.time.nowNs then s.hkFail core.val 1 else s)

/-- HK_CORE_FAULT (R636). -/
def execHkCoreFault (core : HkIx) (s : State) : Host.Outcome State Fault Refusal :=
  .next (if s.hkState core.val = 2 then s.hkFail core.val 2 else s)

/-! ### Images (R634, R698, R699) -/

/-- CODE_BYTES, SIG_BYTES and FW_VERSION of an image, and its signature block. -/
def imgCode (m : List Byte) : Nat := recNat m 8 4
def imgSig (m : List Byte) : Nat := recNat m 16 4
def imgVersion (m : List Byte) : Nat := recNat m 4 4
def imgKind (m : List Byte) : Nat := recNat m 1 1
def sigBlock (m : List Byte) : List Byte := byteField m (64 + imgCode m) (imgSig m)

/-- The header's fields, their fit in the image, and the CRC (R634). -/
def imageGood (m : List Byte) : Bool :=
  recNat m 2 2 == 1 && (imgKind m == 1 || imgKind m == 2) && recNat m 0 1 == 0 && decide (64 ≤ imgCode m) && decide (imgCode m ≤ 393216) && imgCode m % 64 == 0 &&
    recNat m 12 4 % 4 == 0 && decide (recNat m 12 4 < imgCode m) && recNat m 24 40 == 0 && m.length == 64 + imgCode m + imgSig m &&
    recNat m 20 4 == crc32c (m.take 20 ++ [0, 0, 0, 0] ++ m.drop 24)

/-- The active owner bank (R696): none when the device has no owner. -/
def SecSt.activeBank (c : SecSt) : Option Nat :=
  (List.range 4).foldl (fun a b => if (aget c.owners b).isSome && !c.revoked.contains b then some b else a) none

/-- Whether images and tokens need an owner's signature. -/
def State.needsOwner (s : State) : Bool := s.sec.activeBank.isSome && !s.isSet fSEC_STATE_OWNER_RELEASED

/-- An entry of a signature block, its fields, and whether its signature over the image's digest verifies under its own key. -/
def sigEntry (b : List Byte) (i : Nat) : List Byte := byteField b (16 + 256 * i) 256
def sigCovered (m : List Byte) : List Byte := Config.sha384 (m.take (64 + imgCode m) ++ (sigBlock m).take 16)
def sigVerifies (m e : List Byte) : Bool := Config.ecdsaVerify (byteField e 16 96) (sigCovered m) (byteField e 112 96)

/-- An entry that signs for Fenhamund, and one that signs for the active owner (R699). -/
def State.rootSigns (s : State) (m e : List Byte) : Bool :=
  let k := recNat e 1 1
  recNat e 0 1 == 0 && decide (k < 4) && !(s.getF fSEC_STATE_ROOT_REVOKED).testBit k && Config.sha384 (byteField e 16 96) == Config.rootDigest k && sigVerifies m e
def State.ownerSigns (s : State) (m e : List Byte) : Bool :=
  recNat e 0 1 == 1 && s.sec.activeBank == some (recNat e 1 1) && some (Config.sha384 (byteField e 16 96)) == aget s.sec.owners (recNat e 1 1) && sigVerifies m e

/-- What a signature block's verification finds: none when it passes, else the event of the SECURITY record and its detail (R699, R722). -/
def State.sigCheck (s : State) (m : List Byte) : Option (Nat × Nat) :=
  let b := sigBlock m
  let n := recNat b 0 2
  let es := (List.range n).map (sigEntry b)
  let svn := recNat b 4 4
  let counter := if imgKind m = 1 then s.getF fSEC_SVN_SVN_FOOTING else s.getF fSEC_SVN_SVN_IO
  let shape : Bool := (n == 1 || n == 2) && imgSig m == 16 + 256 * n && recNat b 2 2 == 0 && recNat b 8 8 == 0 && decide (svn ≤ 64) &&
    es.all fun e => decide (recNat e 0 1 < 2) && decide (recNat e 1 1 < 4) && recNat e 2 14 == 0 && recNat e 208 48 == 0
  if !shape then some (1, 0)
  else if svn < counter then some (2, svn)
  else if !es.any (s.rootSigns m) then some (1, (List.range n).find? (fun i => recNat (sigEntry b i) 0 1 == 0) |>.getD 0)
  else if s.needsOwner && !es.any (s.ownerSigns m) then some (1, (List.range n).find? (fun i => recNat (sigEntry b i) 0 1 == 1) |>.getD 0)
  else none

/-- A SECURITY record; events 3 and 5 go to the error CQs only (R722). -/
def State.secRec (s : State) (event a b : Nat) : State :=
  s.errRec { typ := 0x13, sev := 2, unitKind := 1, arg0 := event, arg1 := a, arg2 := b }

/-- Verify the image in a core's boot SRAM: on failure the core stays stopped and holds no duty, and the command completes with what failed (R635, R699). -/
def State.hkVerify (s : State) (f : InFlight) (k die : Nat) (m : List Byte) : State :=
  let s0 := s.setF (fTHM_HK_STATUS_STATE k) 3
  let off := s0.setF (fTHM_HK_STATUS_DUTY k) 7
  if !imageGood m || (die < 4 && imgKind m != 1) || (die == 4 || die == 5) && imgKind m != 2 then off.finish f 0xD2 []
  else match s.sigCheck m with
    | some e => (off.secRec e.1 k e.2).finish f 0xD3 []
    | none =>
      let s1 := ((s0.setF (fTHM_HK_STATUS_STATE k) 1).setF (fTHM_HK_STATUS_DUTY k) die).setF (fTHM_HK_VERSION_FW_VERSION k) (imgVersion m)
      (s1.setHk k { s1.hkCore k with svn := recNat (sigBlock m) 4 4, wait := some f.no }).startFlight f k 0

/-- Whether R632 allows a core a die's duties. -/
def dutyAllowed (core die : Nat) : Bool := decide (core < 7) && decide (die < 6) && (core == 6 || core == die)

/-- The image a load has read, or the failure of its read. -/
def State.hkTake (s : State) (f : InFlight) (k die : Nat) (got : Option (List Byte)) : State := match got with
  | none => ((s.setF (fTHM_HK_STATUS_STATE k) 0).setF (fTHM_HK_STATUS_DUTY k) 7).finish f 0xD5 []
  | some m => (s.setHk k { s.hkCore k with image := m }).hkVerify f k die m

/-- HK_LOAD (R635, R640). -/
def State.hkLoad (s : State) (data : Option (List Byte)) (f : InFlight) : State :=
  let k := recNat f.desc 8 1
  let die := recNat f.desc 9 1
  let n := recNat f.desc 24 4
  if !dutyAllowed k die || n = 0 || 524288 < n then s.finish f 0xD1 []
  else if s.hkState k = 1 ∨ (k ≠ 6 ∧ s.hkDuty 6 = die) then s.finish f 0xD4 []
  else
    let s1 := s.hkCmdStop k
    let s2 := match s1.dutyCore die with
      | some j => s1.setF (fTHM_HK_STATUS_DUTY j) 7
      | none => s1
    let s3 := s2.setHk k { s2.hkCore k with image := [], running := [], wait := none }
    let g := s3.hostGet f (recNat f.desc 16 8) n data
    g.1.hkTake f k die g.2

/-- HK_LOAD (R635): the fetched command loads and verifies an image. -/
def execHkLoad (sq : RingNo) (data : Option (List Byte)) (s : State) : Host.Outcome State Fault Refusal := .next (s.ringCmd sq.toNat 0x80 (fun st => st.hkLoad data))

/-- A verified core starts at ENTRY: it runs, holds its duties, and the floor of its footing's spans is free (R587, R635, R639). -/
def State.hkRun (s : State) (k : Nat) : State :=
  let h := s.hkCore k
  let d := s.hkDuty k
  let s1 := (s.setF (fTHM_HK_STATUS_STATE k) 2).readyHk k true
  let s2 := s1.setHk k { h with wait := none, wdogAt := s.time.nowNs, loopAt := s.time.nowNs, started := true, running := Config.sha384 h.image }
  let s3 := if h.started then s2.bumpSat (fTHM_HK_EVENTS_RESTARTS k) else s2
  if d < 4 then ((s3.setClk { s3.clk with ran := insNat d s3.clk.ran }).showCeiling (2 * d)).showCeiling (2 * d + 1) else s3

/-- HK_START (R635, R639, R587): a verified core starts at ENTRY and its command completes. -/
def execHkStart (core : HkIx) (s : State) : Host.Outcome State Fault Refusal :=
  .next (match (s.hkCore core.val).wait with
    | none => s
    | some no =>
      let s4 := s.hkRun core.val
      match s4.flight no with
      | some f => s4.finish f 0xD0 (if f.opcode = 0x80 then leBytes 4 (s4.getF (fTHM_HK_VERSION_FW_VERSION core.val)) else [])
      | none => s4)

/-- HK_RESTART (R639). -/
def State.hkRestart (s : State) (f : InFlight) : State :=
  let k := recNat f.desc 8 1
  if 7 ≤ k ∨ (s.hkCore k).image = [] then s.finish f 0xD1 []
  else if s.hkState k = 1 then s.finish f 0xD4 []
  else (s.hkCmdStop k).hkVerify f k (s.hkDuty k) (s.hkCore k).image

/-- HK_RESTART (R639): the image in the boot SRAM is verified again and started. -/
def execHkRestart (sq : RingNo) (s : State) : Host.Outcome State Fault Refusal := .next (s.ringCmd sq.toNat 0x81 State.hkRestart)

/-- HK_STOP (R639): the core stops and its duties are released. -/
def State.hkStop (s : State) (f : InFlight) : State :=
  let k := recNat f.desc 8 1
  if 7 ≤ k ∨ (s.hkCore k).image = [] then s.finish f 0xD1 []
  else if s.hkState k = 1 then s.finish f 0xD4 []
  else
    let d := s.hkDuty k
    let s1 := (s.hkCmdStop k).setF (fTHM_HK_STATUS_DUTY k) 7
    ((s1.setHk k { s1.hkCore k with running := [] }).fallbackOf d).finish f 0xD0 []

/-- HK_STOP (R639): the core stops and gives up its duties. -/
def execHkStop (sq : RingNo) (s : State) : Host.Outcome State Fault Refusal := .next (s.ringCmd sq.toNat 0x82 State.hkStop)

/-! ### The thermal commands (R642) -/

/-- THERMAL_SET. -/
def State.thermalSet (s : State) (f : InFlight) : State :=
  let t := recNat f.desc 8 1
  let g := recNat f.desc 9 1
  if t < 80 ∨ 100 < t ∨ g = 0 ∨ 10 < g then s.finish f 0xD1 []
  else ((s.setF fTHM_CFG_T_THR t).setF fTHM_CFG_GAIN g).finish f 0xD0 []

/-- THERMAL_SET (R642): T_THR and GAIN. -/
def execThermalSet (sq : RingNo) (s : State) : Host.Outcome State Fault Refusal := .next (s.ringCmd sq.toNat 0x83 State.thermalSet)

/-- THERMAL_SYNC (R622). -/
def execThermalSync (sq : RingNo) (s : State) : Host.Outcome State Fault Refusal :=
  .next (s.ringCmd sq.toNat 0x84 fun st f => st.thermSync.finish f 0xD0 (leBytes 8 st.ftOrZero))

/-- THERMAL_READ. -/
def execThermalRead (sq : RingNo) (ok : Bool) (s : State) : Host.Outcome State Fault Refusal :=
  .next (s.ringCmd sq.toNat 0x85 fun st f =>
    match st.hostPut f (recNat f.desc 16 8) ((List.range 512).flatMap fun i => leBytes 4 (st.reg (0xE00000 + 4 * i)).toNat) ok with
    | (s1, true) => s1.finish f 0xD0 []
    | (s1, false) => s1.finish f 0xD5 [])

end Sys2Proof.Machine
end

