-- ==== Sys2Proof/Machine/Recovery.lean ====
section
/-! DEFINITION. Recovery: requests and ends of resets (R661–R671), rails (R578), the core map (R676–R680), LOG_READ (R653). -/

namespace Sys2Proof.Machine

open Sys2Proof

/-! ### Requests (R661, R664, R671, R688) -/

/-- Whether domain d contains domain e. -/
def Domain.covers (d e : Domain) : Bool := match d, e with
  | .device, _ => true
  | .span m, .span n => m == n
  | .span m, .core c => c / 16 == m
  | .span m, .inst c _ => c / 16 == m
  | .core c, .core x => c == x
  | .core c, .inst x _ => c == x
  | .inst c i, .inst x j => c == x && i == j
  | _, _ => false

/-- A RESET_REQUEST at a level over a domain (R668, R671). A request that is the reset every overlapping domain in recovery still waits for is no fault of its own; in any other
overlap it acts as a fault of its level. -/
def State.requestReset (s : State) (lvl : Nat) (d : Domain) (hold hbm : Bool) (f : InFlight) : State :=
  let o := s.openWindows.filter fun w => w.doms.any (·.overlaps d)
  let s0 := s.startFlight f lvl 0
  if o.isEmpty then (s0.openWindow lvl 0 [d]).startReset lvl [d] lvl hold hbm [f.no] false
  else if o.all (fun w => w.endAt.isNone && decide (w.level ≤ lvl) && w.doms.all d.covers) && !s.faults.resets.any (fun r => r.doms.any (·.overlaps d)) then
    let rest := s.openWindows.filter fun w => !w.doms.any (·.overlaps d)
    (s0.setFaults { s0.faults with windows := rest ++ [⟨lvl, [d], sumNat (o.map (·.faults)), none⟩] }).startReset lvl [d] lvl hold hbm [f.no] false
  else s0.escalate lvl d hold hbm [f.no]

/-- RESET_REQUEST is carried out by its level (byte 8); a level outside 2–4 is a bad field. -/
def State.resetCmd (s : State) (n lvl : Nat) (k : State → InFlight → State) : State := match s.nextCmd n 0x70 with
  | some f =>
    let v := recNat f.desc 8 1
    if v = lvl then k s f else if v < 2 ∨ 4 < v then s.finish f 0xE1 [] else s
  | none => s

/-- Level 2: a station instance or a logical core; HBM_FAULT and HOLD are for L3 and L4. -/
def State.resetL2 (s : State) (f : InFlight) : State :=
  let c := recNat f.desc 10 1
  let i := recNat f.desc 11 1
  if 128 ≤ c ∨ (i ≠ 0xFF ∧ !instNamed i) ∨ recBits f.desc 9 1 1 0 ≠ 0 then s.finish f 0xE1 []
  else s.requestReset 2 (if i = 0xFF then .core c else .inst c i) false false f

/-- Level 3: a span. -/
def State.resetL3 (s : State) (f : InFlight) : State :=
  let n := recNat f.desc 10 1
  if 8 ≤ n ∨ recNat f.desc 11 1 ≠ 0 then s.finish f 0xE1 []
  else s.requestReset 3 (.span n) (recBits f.desc 9 1 1 1 == 1) (recBits f.desc 9 1 0 0 == 1) f

/-- Level 4: the compute dies. After a hold at level 5 it starts afresh (R669). -/
def State.resetL4 (s : State) (f : InFlight) : State :=
  if recNat f.desc 10 1 ≠ 0 ∨ recNat f.desc 11 1 ≠ 0 then s.finish f 0xE1 []
  else
    let hold := recBits f.desc 9 1 1 1 == 1
    let hbm := recBits f.desc 9 1 0 0 == 1
    if s.faults.l5Hold then
      let s1 := (s.setFaults { s.faults with l5Hold := false, windows := [], resets := [] }).startFlight f 4 0
      (s1.openWindow 4 0 [.device]).startReset 4 [.device] 4 hold hbm ((s.faults.resets.flatMap (·.reqNos)) ++ [f.no]) false
    else s.requestReset 4 .device hold hbm f

/-- L2 (R661): RESET_REQUEST at level 2. -/
def execL2 (sq : RingNo) (s : State) : Host.Outcome State Fault Refusal := .next (s.resetCmd sq.toNat 2 State.resetL2)

/-- L3 (R661): RESET_REQUEST at level 3. -/
def execL3 (sq : RingNo) (s : State) : Host.Outcome State Fault Refusal := .next (s.resetCmd sq.toNat 3 State.resetL3)

/-- L4 (R333): RESET_REQUEST at level 4. -/
def execL4 (sq : RingNo) (s : State) : Host.Outcome State Fault Refusal := .next (s.resetCmd sq.toNat 4 State.resetL4)

/-! ### Ends (R661, R664–R666, R668) -/

/-- A span that is no longer held runs again: it takes its stack with the key register's value and is ready, while its stack is (R44, R241, R607). Its cycles count from 0. -/
def State.spanUp (s : State) (n : Nat) : State :=
  if s.spanInReset n || s.faults.phaseHeld.contains n then s
  else
    let s1 := s.setSpan n { s.span n with cyc := 0, cycFrac := 0 }
    if s1.getF fTOP_READY_STACK / 2 ^ n % 2 = 1 ∧ s1.boot.isDone 6 (n / 2) then (s1.ownStack n false).setReadySpan n true else s1

/-- The windows of the domains a completed reset covers run for WINDOW_MS from now; 0 acts as 1. -/
def State.runWindows (s : State) (ds : List Domain) : State :=
  let e := s.time.nowNs + 1000000 * (max 1 (s.getF fTOP_FLT_CFG_WINDOW_MS))
  s.setFaults { s.faults with windows := s.faults.windows.map fun w => if w.doms.all (fun x => ds.any fun d => d.covers x) then { w with endAt := some e } else w }

/-- Injected hangs end with a reset of their instance. -/
def State.endHangs (s : State) (ds : List Domain) : State :=
  s.setInjections (s.faults.injections.filter fun j => !(j.kind == 5 && ds.any fun d => d.covers (.inst j.a j.b)))

/-- A reset that has run to its end (R665): its domains' marks clear and their windows run; with HOLD, or held for a rail, its phases or at level 5, the domain stays in reset; the
requests that it answers complete. -/
def State.completeReset (s : State) (r : ResetRun) : State :=
  let durUs := (s.time.nowNs - r.startAt) / 1000
  let s1 := (s.setFaults { s.faults with resets := dropFirst (· == r) s.faults.resets }).countReset
  let s2 := ((r.doms.foldl State.clearFaulted s1).runWindows r.doms).endHangs r.doms
  let spans := if r.level ≤ 2 then [] else (r.doms.flatMap Domain.spans).eraseDups
  let s3 := if !r.hold || r.level ≤ 2 then s2
    else if r.level = 3 then s2.setFaults { s2.faults with heldSpans := spans.foldl (fun l n => insNat n l) s2.faults.heldSpans }
    else s2.setFaults { s2.faults with heldDevice := true }
  let s4 := if r.level = 4 ∧ !s3.inL4 then s3.setF fTOP_READY_COLL 1 else s3
  let s5 := (spans.foldl State.spanUp s4).showReset
  let s6 := if r.level ≤ 2 then s5 else s5.resetRec r.level r.requested 1 durUs r.doms
  r.reqNos.foldl (fun st no => match st.flight no with
    | some f => st.finish f 0xE0 (leBytes 1 r.level ++ leBytes 1 (decide (recNat f.desc 8 1 ≠ r.level)).toNat ++ [0, 0] ++ leBytes 4 durUs)
    | none => st) s6

/-- RESET_COMPLETE (R665): the reset at place `ix` among those in progress, once it has been entered. -/
def execResetComplete (ix : Fin 64) (s : State) : Host.Outcome State Fault Refusal :=
  .next (match s.faults.resets[ix.val]? with
    | some r => if r.entered then s.completeReset r else s
    | none => s)

/-- RECOVERY_WINDOW_END (R668): domains whose window has run out leave recovery. -/
def execRecoveryWindowEnd (s : State) : Host.Outcome State Fault Refusal := .next (s.setFaults { s.faults with windows := s.openWindows })

/-- RESET_RELEASE (R664): a span, or the compute dies, held after a reset. -/
def State.resetRelease (s : State) (f : InFlight) : State :=
  let lvl := recNat f.desc 8 1
  let n := recBits f.desc 10 1 7 0
  if !(lvl = 3 ∧ n < 8 ∨ lvl = 4 ∧ n = 0) then s.finish f 0xE1 []
  else if lvl = 3 then
    if s.faults.heldSpans.contains n then
      (((s.setFaults { s.faults with heldSpans := s.faults.heldSpans.filter (· != n) }).spanUp n).showReset).finish f 0xE0 []
    else s.finish f 0xE7 []
  else if s.faults.heldDevice then
    let s1 := s.setFaults { s.faults with heldDevice := false }
    let s2 := if s1.inL4 then s1 else s1.setF fTOP_READY_COLL 1
    (((List.range 8).foldl State.spanUp s2).showReset).finish f 0xE0 []
  else s.finish f 0xE7 []

/-- RESET_RELEASE (R664). -/
def execResetRelease (sq : RingNo) (s : State) : Host.Outcome State Fault Refusal := .next (s.ringCmd sq.toNat 0x71 State.resetRelease)

/-! ### Rails (R578) -/

/-- A rail out of range shuts the I/O side until L5: every laser, every port, both PCIe ports. -/
def State.shutIo (s : State) : State :=
  let s1 := (List.range 34).foldl (fun st p => st.darkPort p 0x0E) s
  let s2 := (List.range 4).foldl (fun st l => if st.isSet (fHOST_LINK_UP l) then st.linkDown l else st) s1
  s2.setBoot { s2.boot with ioDead := true }

/-- RAIL_OUT_OF_RANGE (R578): rail 0 VIN_CORE, 1 VIN_MEM, 2 VIN_IO, 3 VIN_OPT, 4 VIN_AON has been out of its dynamic range for 10 µs. -/
def execRailOutOfRange (rail : Fin 5) (mv : Half) (s : State) : Host.Outcome State Fault Refusal :=
  .next (
    if !s.boot.por || s.boot.railsOut.contains rail.val then s
    else
      let s1 := s.setBoot { s.boot with railsOut := insNat rail.val s.boot.railsOut }
      let s2 := (s1.powerRec 1 1 rail.val mv.toNat 3 (if rail.val < 2 && !s1.faults.railHold then s1.startLevel 4 .device else 0)).setF fTOP_ALERT_RAIL 1
      if rail.val < 2 then
        if s2.faults.railHold then s2 else ((s2.setFaults { s2.faults with railHold := true }).faultReset 4 .device false).showReset
      else if rail.val < 4 then s2.shutIo
      else s2)

/-- RAIL_RESTORED (R578): the rail has been in static tolerance for 10 ms; with VIN_CORE and VIN_MEM both back the hold in L4 ends. -/
def execRailRestored (rail : Fin 5) (s : State) : Host.Outcome State Fault Refusal :=
  .next (
    let s1 := s.setBoot { s.boot with railsOut := s.boot.railsOut.filter (· != rail.val) }
    if s1.faults.railHold && !s1.boot.railsOut.contains 0 && !s1.boot.railsOut.contains 1 then
      let s2 := s1.setFaults { s1.faults with railHold := false }
      let s3 := if s2.inL4 then s2 else s2.setF fTOP_READY_COLL 1
      ((List.range 8).foldl State.spanUp s3).showReset
    else s1)

/-! ### Spare cores (R676–R680) -/

/-- A SPARE record (R649). -/
def State.spareRec (s : State) (event core old new : Nat) : State :=
  s.errRec { typ := 0x10, sev := 1, unitKind := 5, unitIx := core, arg0 := event, arg1 := old, arg2 := new }

/-- The logical core that a physical core carries. -/
def State.logOf (s : State) (p : Nat) : Option Nat := ((List.range 16).map (16 * (p / 18) + ·)).find? fun c => s.physOf c == some p

/-- Whether a physical core is FAILED, and s with it marked. -/
def State.coreFailed (s : State) (p : Nat) : Bool := (s.getF (fSPN_HEALTH_FAILED (p / 18))).testBit (p % 18)
def State.markFailed (s : State) (p : Nat) : State :=
  (s.setF (fSPN_HEALTH_FAILED (p / 18)) (putBits (s.getF (fSPN_HEALTH_FAILED (p / 18))) (p % 18) (p % 18) 1)).setF (fSPN_TESTED_OK (p / 18))
    (putBits (s.getF (fSPN_TESTED_OK (p / 18))) (p % 18) (p % 18) 0)

/-- TESTED of a physical core. -/
def State.setTested (s : State) (p : Nat) (v : Bool) : State :=
  s.setF (fSPN_TESTED_OK (p / 18)) (putBits (s.getF (fSPN_TESTED_OK (p / 18))) (p % 18) (p % 18) v.toNat)

/-- Whether a step that uses a logical core is RUNNING or PREPARED (R677). -/
def State.coreInUse (s : State) (c : Nat) : Bool :=
  s.steps.slots.any fun e => (e.2.phase == .running || e.2.phase == .prepared) && (s.graphOf e.2).mask.testBit c

/-- A physical core was in use, or passed its test, at this moment (R680). -/
def State.coreUsed (s : State) (p : Nat) : State := s.setFaults { s.faults with coreUsedAt := aput s.faults.coreUsedAt p s.time.nowNs }

/-- Move a logical core onto a physical core, or leave it unmapped, with an L2 of it: the new core is at its reset state with its scratchpad cleared; the old one becomes an
untested spare (R677). -/
def State.moveCore (s : State) (c : Nat) (new : Option Nat) : State :=
  let s1 := (s.clearL2 (.core c)).countReset
  let s2 := match s.physOf c with
    | some q => (s1.setTested q false).coreUsed q
    | none => s1
  let s3 := (s2.setMap (c / 16) (c % 16) (new.map (· % 18))).markFaulted (.core c) false
  let s4 := match new with
    | some p => (s3.setMem (s3.mm.mem.clear (spadKey p 0) (spadKey p 0x300000))).resetRegs 4 (coreBlock p)
    | none => s3
  let s5 := { s4 with trs := adel s4.trs c, cbk := adel s4.cbk c }
  let mine (w : Window) : Bool := w.doms.any (·.overlaps (.core c))
  let s6 := if s5.openWindows.any mine then s5 else s5.openWindow 2 0 [.core c]
  (s6.runWindows [.core c]).endHangs [.core c]

/-- CORE_SWAP (R677). -/
def State.coreSwap (s : State) (f : InFlight) : State :=
  let c := recNat f.desc 8 1
  let p := recNat f.desc 9 1
  if 128 ≤ c ∨ 144 ≤ p ∨ p / 18 ≠ c / 16 then s.finish f 0xE1 []
  else if (s.logOf p).isSome || s.coreFailed p then s.finish f 0xE3 []
  else if s.coreInUse c || s.faults.testing.contains p then s.finish f 0xE2 []
  else ((s.moveCore c (some p)).spareRec 1 p ((s.physOf c).getD 0xFF) p).finish f 0xE0 []

/-- CORE_SWAP (R677): a logical core moves to a named spare of its span, with an L2. -/
def execCoreSwap (sq : RingNo) (s : State) : Host.Outcome State Fault Refusal := .next (s.ringCmd sq.toNat 0x72 State.coreSwap)

/-- CORE_TEST (R678): its end is CORE_TEST_DONE. -/
def State.coreTest (s : State) (f : InFlight) : State :=
  let p := recNat f.desc 9 1
  if 144 ≤ p then s.finish f 0xE1 []
  else if (s.logOf p).isSome || s.coreFailed p then s.finish f 0xE3 []
  else if s.faults.testing.contains p then s.finish f 0xE2 []
  else (s.setFaults { s.faults with testing := insNat p s.faults.testing }).startFlight f p 0

/-- CORE_TEST (R678): a test of an unmapped physical core starts. -/
def execCoreTest (sq : RingNo) (s : State) : Host.Outcome State Fault Refusal := .next (s.ringCmd sq.toNat 0x73 State.coreTest)

/-- CORE_TEST_DONE (R678). -/
def execCoreTestDone (core : PCore) (pass : Bool) (s : State) : Host.Outcome State Fault Refusal :=
  .next (
    let p := core.val
    if !s.faults.testing.contains p then s
    else
      let s1 := (s.setFaults { s.faults with testing := s.faults.testing.filter (· != p) }).forgetSpad p
      let s2 := if pass then (s1.setTested p true).coreUsed p else (s1.markFailed p).spareRec 3 p p p
      match s2.host.flights.find? fun f => f.opcode == 0x73 && f.stage == .started && f.a == p with
      | some f => s2.finish f (if pass then 0xE0 else 0xE4) (leBytes 1 pass.toNat)
      | none => s2)

/-- The lowest-numbered healthy unmapped physical core of a span, other than p (R679). -/
def State.freeCore (s : State) (n p : Nat) : Option Nat :=
  ((List.range 18).map (18 * n + ·)).find? fun q => q != p && (s.logOf q).isNone && !s.coreFailed q && !s.faults.testing.contains q

/-- CORE_RETIRE (R679). -/
def State.coreRetire (s : State) (f : InFlight) : State :=
  let p := recNat f.desc 9 1
  if 144 ≤ p then s.finish f 0xE1 []
  else match s.logOf p with
    | some c =>
      if s.coreInUse c then s.finish f 0xE2 []
      else
        let q := s.freeCore (p / 18) p
        (((s.moveCore c q).markFailed p).spareRec 2 p p (q.getD 0xFF)).finish f 0xE0 (leBytes 1 (q.getD 0xFF))
    | none =>
      if s.faults.testing.contains p then s.finish f 0xE2 []
      else ((s.markFailed p).spareRec 2 p p 0xFF).finish f 0xE0 [0xFF]

/-- CORE_RETIRE (R679): a physical core is marked FAILED; its logical core moves to a healthy spare. -/
def execCoreRetire (sq : RingNo) (s : State) : Host.Outcome State Fault Refusal := .next (s.ringCmd sq.toNat 0x74 State.coreRetire)

/-- Spare physical cores of a span with the time since each last carried a logical core or passed a test. -/
def State.spareAges (s : State) (n : Nat) : List (Nat × Nat) :=
  (((List.range 18).map (18 * n + ·)).filter fun q => (s.logOf q).isNone && !s.coreFailed q).map fun q => (q, s.time.nowNs - (aget s.faults.coreUsedAt q).getD s.time.porAt)

/-- SPARE_ROTATE_DUE (R680): a spare of the span has waited ROTATE_H hours; OLDEST_H shows the longest wait. -/
def execSpareRotateDue (span : SpanIx) (s : State) : Host.Outcome State Fault Refusal :=
  .next (
    let n := span.val
    let hour := 3600000000000
    let l := s.spareAges n
    let old := l.foldl (fun a e => max a e.2) 0
    let s1 := s.setF (fSPN_SPARE_OLDEST_H n) (min 65535 (old / hour))
    match l.find? fun e => e.2 == old with
    | some e =>
      if max 1 (s.getF (fSPN_SPARE_ROTATE_H n)) * hour ≤ old ∧ !s.isSet (fSPN_SPARE_ROTATE_DUE n) then (s1.setF (fSPN_SPARE_ROTATE_DUE n) 1).spareRec 4 e.1 e.1 e.1 else s1
    | none => s1)

/-! ### LOG_READ (R653) -/

/-- A record of the log passes its CRC (R647). -/
def logGood (r : List Byte) : Bool := r.length == 64 && recNat r 12 4 == errCrc r

/-- The records of a region in the order they were written. -/
def LogSt.inOrder (l : LogSt) (ledger : Bool) : List (List Byte) :=
  if ledger then l.ledger.map (·.2)
  else ((l.ring.filter fun e => decide (l.ringNext ≤ e.1)) ++ (l.ring.filter fun e => decide (e.1 < l.ringNext))).map (·.2)

/-- LOG_READ: the records from the first SEQ named on, up to the count; torn ones are skipped and counted. -/
def State.logRead (s : State) (ok : Bool) (f : InFlight) : State :=
  let all := s.log.inOrder (recBits f.desc 8 1 0 0 == 1)
  let first := recNat f.desc 12 4
  let want := if first = 0xFFFFFFFF then all else all.dropWhile fun r => logGood r && decide (recNat r 0 4 < first)
  let good := want.filter logGood
  let n := recNat f.desc 24 4
  let put := good.take n
  let next := match good.drop n with
    | r :: _ => recNat r 0 4
    | [] => s.getF fTOP_LOG_NEXT_SEQ
  let done (st : State) : State := st.finish f 0xE0 (leBytes 4 put.length ++ leBytes 4 next ++ leBytes 4 (want.length - good.length))
  if put.isEmpty then done s
  else match s.hostPut f (recNat f.desc 16 8) put.flatten ok with
    | (s1, true) => done s1
    | (s1, false) => s1.finish f 0xE6 []

/-- LOG_READ (R653): records of the ring or the ledger go to host memory in ascending SEQ. -/
def execLogRead (sq : RingNo) (ok : Bool) (s : State) : Host.Outcome State Fault Refusal := .next (s.ringCmd sq.toNat 0x76 (fun st => st.logRead ok))

end Sys2Proof.Machine
end

