-- ==== Sys2Proof/Machine/Inject.lean ====
section
/-! DEFINITION. The load-test unit: plans (R683, R688), due injections and their interlocks (R684–R687). -/

namespace Sys2Proof.Machine

open Sys2Proof

/-- An INJECT record (R649): 1 plan started, 2 ended, 3 cancelled, 4 injection skipped. -/
def State.injRec (s : State) (event plan entry : Nat) : State :=
  s.errRec { typ := 0x12, sev := 1, unitKind := 1, arg0 := event, arg1 := plan, arg2 := entry }

/-! ### Plans -/

/-- Entry e of a loaded plan, 16 bytes (R683). -/
def State.planEntry (s : State) (k e : Nat) : List Byte := (List.range 4).flatMap fun w => leBytes 4 (s.getF (fINJ_PLAN_WORD k (4 * e + w)))

/-- Fields of an entry. -/
def entOffset (e : List Byte) : Nat := recNat e 0 4
def entKind (e : List Byte) : Nat := recNat e 4 1
def entA (e : List Byte) : Nat := recNat e 6 2
def entB (e : List Byte) : Nat := recNat e 8 4
def entArg (e : List Byte) : Nat := recNat e 12 4

/-- Whether an entry's targets and argument are in range (R684). -/
def entOk (e : List Byte) : Bool :=
  let a := entA e
  let b := entB e
  let g := entArg e
  recNat e 5 1 == 0 && match entKind e with
    | 0 => true
    | 1 => decide (a < 34) && decide (b < 16) && decide (1 ≤ g) && decide (g ≤ 10000)
    | 2 => decide (a < 34) && decide (b < 16) && decide (1 ≤ g % 256) && decide (g % 256 ≤ 16)
    | 3 => decide (a < 8) && b % 64 == 0 && g == 0
    | 4 => decide (a < 8) && b % 64 == 0 && g == 0
    | 5 => decide (a < 128) && decide (b < 256) && instNamed b && g == 0
    | 6 => decide (a < 96) && decide (b < 3)
    | 7 => decide (a < 7) && b == 0 && g == 0
    | _ => false

/-- The entries of a plan up to the one of KIND 0 are in range and in ascending order of OFFSET_US. -/
def planOk : List (List Byte) → Nat → Bool
  | [], _ => true
  | e :: es, from' => entOk e && (entKind e == 0 || (decide (from' ≤ entOffset e) && planOk es (entOffset e)))

/-- Whether a plan runs. -/
def State.planRuns (s : State) (k : Nat) : Bool := s.faults.plans.any (·.plan == k)

/-- INJECT_PLAN (R683, R685). -/
def State.injectPlan (s : State) (data : Option (List Byte)) (f : InFlight) : State :=
  let k := recNat f.desc 8 1
  if 16 ≤ k then s.finish f 0xE1 []
  else if !s.isSet fINJ_CFG_ENABLE then s.finish f 0xE5 []
  else if s.planRuns k then s.finish f 0xE2 []
  else match s.hostGet f (recNat f.desc 16 8) 256 data with
    | (s1, none) => s1.finish f 0xE6 []
    | (s1, some d) =>
      if !planOk ((List.range 16).map fun i => byteField d (16 * i) 16) 0 then s1.finish f 0xE1 []
      else
        let s2 := (List.range 64).foldl (fun st w => st.setF (fINJ_PLAN_WORD k w) (recNat d (4 * w) 4)) s1
        (s2.setF fINJ_STATUS_LOADED (putBits (s2.getF fINJ_STATUS_LOADED) k k 1)).finish f 0xE0 []

/-- INJECT_PLAN (R683): a plan of 16 entries is loaded while injection is enabled. -/
def execInjectPlan (sq : RingNo) (data : Option (List Byte)) (s : State) : Host.Outcome State Fault Refusal := .next (s.ringCmd sq.toNat 0x77 (fun st => st.injectPlan data))

/-- STATUS.ACTIVE of a plan. -/
def State.setActive (s : State) (k : Nat) (v : Bool) : State := s.setF fINJ_STATUS_ACTIVE (putBits (s.getF fINJ_STATUS_ACTIVE) k k v.toNat)

/-- Whether a plan may start: injection enabled, the plan loaded and not running. -/
def State.mayStart (s : State) (k : Nat) : Bool := s.isSet fINJ_CFG_ENABLE && (s.getF fINJ_STATUS_LOADED).testBit k && !s.planRuns k

/-- A plan starts. -/
def State.startPlan (s : State) (k : Nat) : State :=
  ((s.setFaults { s.faults with plans := s.faults.plans ++ [⟨k, s.time.nowNs, 0⟩] }).setActive k true).injRec 1 k 0

/-- INJECT_START (R685). -/
def State.injectStart (s : State) (f : InFlight) : State :=
  let k := recNat f.desc 8 1
  if 16 ≤ k then s.finish f 0xE1 []
  else if !s.isSet fINJ_CFG_ENABLE then s.finish f 0xE5 []
  else if !(s.getF fINJ_STATUS_LOADED).testBit k then s.finish f 0xE1 []
  else if s.planRuns k then s.finish f 0xE2 []
  else (s.startPlan k).finish f 0xE0 (leBytes 8 s.ftOrZero)

/-- INJECT_START (R685): a loaded plan starts. -/
def execInjectStart (sq : RingNo) (s : State) : Host.Outcome State Fault Refusal := .next (s.ringCmd sq.toNat 0x78 State.injectStart)

/-- End the injections of a plan and the plan itself. -/
def State.cancelPlan (s : State) (k : Nat) : State :=
  let s1 := s.relight (s.faults.injections.filter (·.plan == k))
  let s2 := s1.setFaults { s1.faults with injections := s1.faults.injections.filter (·.plan != k), plans := s1.faults.plans.filter (·.plan != k) }
  match s.faults.plans.find? (·.plan == k) with
  | some r => (s2.setActive k false).injRec 3 k r.next
  | none => s2

/-- INJECT_CANCEL (R688). -/
def State.injectCancel (s : State) (f : InFlight) : State :=
  let k := recNat f.desc 8 1
  if 16 ≤ k ∧ k ≠ 0xFF then s.finish f 0xE1 []
  else ((if k = 0xFF then List.range 16 else [k]).foldl State.cancelPlan s).finish f 0xE0 []

/-- INJECT_CANCEL (R688): one plan or all are cancelled. -/
def execInjectCancel (sq : RingNo) (s : State) : Host.Outcome State Fault Refusal := .next (s.ringCmd sq.toNat 0x79 State.injectCancel)

/-! ### Interlocks (R685, R686) -/

/-- The die in which an injection acts: 0–3 C0–C3, 4–7 F0–F3, 8 IO-N, 9 IO-S. -/
def injDie (kind a : Nat) : Nat := match kind with
  | 1 => 8 + a % 2
  | 2 => 8 + a % 2
  | 3 => a / 2
  | 4 => a / 2
  | 5 => a / 32
  | 6 => sensorDie a
  | _ => if a < 4 then 4 + a else if a < 6 then 4 + a else 4

/-- Whether an injection is still active. -/
def Injection.live (j : Injection) : Bool := match j.kind with
  | 2 => decide (0 < j.left)
  | 4 => j.left == 1
  | 6 => decide (0 < j.left)
  | _ => true

/-- A second active injection in the same die, and so in the same span, stack or port (R685). -/
def State.injBusy (s : State) (kind a : Nat) : Bool := s.faults.injections.any fun j => j.live && injDie j.kind j.a == injDie kind a

/-- The target domain is in recovery or FAULTED (R686). -/
def State.injDomain (s : State) (kind a b : Nat) : Bool :=
  let spanBad (n : Nat) : Bool := s.inRecovery (.span n) || s.isSet (fSPN_FAULTED_SPAN n)
  match kind with
  | 3 => spanBad a
  | 4 => spanBad a
  | 5 => s.inRecovery (.inst a b) || s.isSet (fSPN_FAULTED_SPAN (a / 16)) || (s.getF (fSPN_FAULTED_CORES (a / 16))).testBit (a % 16)
  | _ => s.openWindows.any fun w => w.doms.contains .device

/-- A spare channel is healthy at both ends of a port (R686). -/
def State.spareBoth (s : State) (p : Nat) : Bool := (s.spareChans p).any fun c => !(s.sub p 0).txMap.contains c

/-- A sensor's neighbours that are usable now (R619). -/
def State.usableNow (s : State) (i : Nat) : Nat :=
  ((sensorNeighbours i).filter fun j => !s.isSet (fTHM_SENSOR0_OPEN j) && !s.isSet (fTHM_SENSOR0_IMPLAUSIBLE j) && !s.isSet (fTHM_SENSOR0_SUSPECT j)).length

/-- Whether a due injection is skipped (R685, R686). `excess` says of CODEWORD_CORRUPT that it asks for more than 1 codeword in 64 of the port's traffic. -/
def State.injSkip (s : State) (kind a b : Nat) (excess : Bool) : Bool :=
  s.injDomain kind a b || s.injBusy kind a || match kind with
    | 1 => (s.port a).split || (s.sub a 0).state != 4 || (s.sub a 0).width != 16 || !s.spareBoth a
    | 2 => excess
    | 3 => !s.spanReady a
    | 4 => !s.spanReady a
    | 6 => decide (s.usableNow a < 2) || s.faults.injections.any (fun j => j.kind == 6 && j.live && j.a / 8 == a / 8)
    | 7 => s.hkState a != 2 || ((List.range 7).any fun k => k != a && (s.hkState k == 3 || s.hkState k == 4)) || (List.range 8).any fun n => s.isSet (fTHM_SPAN0_FALLBACK n)
    | _ => false

/-! ### Due injections (R684) -/

/-- What an injection does when it fires. -/
def State.injFire (s : State) (k e : Nat) (ent : List Byte) : State :=
  let kind := entKind ent
  let a := entA ent
  let b := entB ent
  let g := entArg ent
  let j : Injection := { plan := k, entry := e, kind := kind, a := a, b := b, arg := g,
                         left := (match kind with | 2 => g / 256 | 6 => g % 65536 | _ => 1), untilAt := if kind = 1 then s.time.nowNs + 1000000 * g else 0 }
  let s1 := s.setInjections ((s.faults.injections.filter Injection.live) ++ [j])
  match kind with
  | 1 => (s1.modPort a fun v => { v with dropped := insNat b v.dropped }).emit (.light a b false)
  | 7 => s.hkFail a 1 true
  | _ => s1

/-- A plan whose next entry is past its last one ends. -/
def State.endPlan (s : State) (k e : Nat) : State :=
  if e < 16 ∧ entKind (s.planEntry k e) ≠ 0 then s
  else ((s.setFaults { s.faults with plans := s.faults.plans.filter (·.plan != k) }).setActive k false).injRec 2 k e

/-- The plan's next entry is the one after. -/
def State.planNext (s : State) (k : Nat) : State :=
  s.setFaults { s.faults with plans := mapFirst (·.plan == k) (fun x => { x with next := x.next + 1 }) s.faults.plans }

/-- The next injection of plan k, when it is due and of this kind. -/
def State.injDue (s : State) (k kind : Nat) (excess : Bool) : State := match s.faults.plans.find? (·.plan == k) with
  | none => s
  | some r =>
    let ent := s.planEntry k r.next
    if entKind ent ≠ kind ∨ s.time.nowNs < r.startAt + 1000 * (entOffset ent) then s
    else
      let s1 := s.planNext k
      let s2 := if s1.injSkip kind (entA ent) (entB ent) excess then (s1.bumpSat fINJ_COUNTS_SKIPPED).injRec 4 k r.next
        else (s1.bumpSat fINJ_COUNTS_FIRED).injFire k r.next ent
      s2.endPlan k (r.next + 1)

/-- WAVELENGTH_DROP (R684): the laser goes dark; the lane's failure is seen as any other (R366, R367). -/
def execWavelengthDrop (plan : Fin 16) (s : State) : Host.Outcome State Fault Refusal := .next (s.injDue plan.val 1 false)

/-- Whether an injection has kept a channel of a port dark for its whole time. -/
def Injection.darkOver (j : Injection) (p c now : Nat) : Bool := j.kind == 1 && j.a == p && j.b == c && decide (j.untilAt ≤ now)

/-- WAVELENGTH_DROP_END (R684). -/
def execWavelengthDropEnd (port : Port) (chan : Chan) (s : State) : Host.Outcome State Fault Refusal :=
  .next (
    let s1 := s.relight (s.faults.injections.filter (·.darkOver port.val chan.val s.time.nowNs))
    s1.setInjections (s1.faults.injections.filter fun j => !j.darkOver port.val chan.val s.time.nowNs))

/-- CODEWORD_CORRUPT (R684): the next DATA codewords of the port carry the errors. -/
def execCodewordCorrupt (plan : Fin 16) (excess : Bool) (s : State) : Host.Outcome State Fault Refusal := .next (s.injDue plan.val 2 excess)

/-- HBM_CE (R684): spent by the next read of the block. -/
def execHbmCe (plan : Fin 16) (s : State) : Host.Outcome State Fault Refusal := .next (s.injDue plan.val 3 false)

/-- HBM_POISON (R684): delivered by the next read of the block. -/
def execHbmPoison (plan : Fin 16) (s : State) : Host.Outcome State Fault Refusal := .next (s.injDue plan.val 4 false)

/-- STATION_HANG (R684): the instance makes no progress in its next running step. -/
def execStationHang (plan : Fin 16) (s : State) : Host.Outcome State Fault Refusal := .next (s.injDue plan.val 5 false)

/-- SENSOR (R684): the sensor reads as the mode states for a number of rounds. -/
def execSensor (plan : Fin 16) (s : State) : Host.Outcome State Fault Refusal := .next (s.injDue plan.val 6 false)

/-- HK_STOP_INJECT (R684): the housekeeping core stops as if its watchdog expired. -/
def execHkStopInject (plan : Fin 16) (s : State) : Host.Outcome State Fault Refusal := .next (s.injDue plan.val 7 false)

end Sys2Proof.Machine
end

