-- ==== Sys2Proof/Machine/Actions.lean ====
section
/-! DEFINITION. Timed actions (R555–R559, R561, R563). An entry is kept as its 32 bytes, with a 33rd that is 1 when its time had passed as it was written (R557). -/

namespace Sys2Proof.Machine

open Sys2Proof

/-! ### Entries (R555) -/

def actTime (e : List Byte) : Nat := recNat e 0 8
def actPeriod (e : List Byte) : Nat := recNat e 8 8
def actKind (e : List Byte) : Nat := recBits e 16 1 3 0

/-- The port a SWING or PAUSE_SEND acts on (R369), and a SWING's preset. -/
def State.actPort (s : State) (e : List Byte) : Nat := s.physPort (recBits e 20 1 5 0)
def actPreset (e : List Byte) : Nat := recBits e 21 1 3 0

/-- Reserved fields and unused bytes are 0 and every field is in range. -/
def actGood (e : List Byte) : Bool :=
  let zero (lo n : Nat) : Bool := recNat e lo n == 0
  recBits e 16 1 7 4 == 0 && zero 17 3 && (actPeriod e == 0 || (decide (1000 ≤ actPeriod e) && decide (actPeriod e ≤ 2 ^ 40))) &&
  match actKind e with
  | 0 => zero 20 12
  | 1 => decide (recNat e 20 1 < 34) && decide (recNat e 21 1 < 16) && zero 22 10
  | 2 => zero 22 10
  | 3 => zero 20 12
  | 4 => decide (recNat e 20 1 < 16) && zero 21 11
  | 5 => decide (recNat e 20 1 < 34) && (decide (recNat e 21 1 < 16) || recNat e 21 1 == 0xFF) && decide (recNat e 22 1 < 64) && zero 23 1 && zero 26 6
  | _ => false

/-- A swing of this entry has begun on its port and waits for T_s. -/
def State.actBegun (s : State) (e : List Byte) : Bool :=
  actKind e == 1 && (s.sub (s.actPort e) 0).swing.any fun w => w.ts == actTime e && w.preset == actPreset e && !w.loaded

/-- When the entry's next part is due: TIME, or T_s − HOLD for a swing not begun (R556). -/
def State.actDue (s : State) (e : List Byte) : Nat :=
  if actKind e = 1 ∧ ¬ s.actBegun e then actTime e - (s.sub (s.actPort e) 0).hold else actTime e

/-- Whether the entry's target is ready under TOP.READY (R557): a port for SWING and PAUSE_SEND, the compute dies for STEP_START. -/
def State.actReady (s : State) (e : List Byte) : Bool :=
  let p := s.actPort e
  match actKind e with
  | 1 => s.actBegun e || (s.subsOf p).any fun q => (s.sub p q).up
  | 2 => !s.inL4
  | 5 => (s.subsOf p).any fun q => (s.sub p q).up
  | _ => true

/-- Whether the entry is late: more than 20 ns past, or past already as it was written (R556, R557). A swing that has begun is not. -/
def State.actLate (s : State) (e : List Byte) : Bool := !s.actBegun e && (recNat e 32 1 == 1 || decide (s.actDue e + 20 < s.time.ft))

/-- The entry in a place of the table, when it is due and no entry below it is due at the same time (R556). -/
def State.actNow (s : State) (i : Nat) : Option (List Byte) := match aget s.actions i with
  | none => none
  | some e =>
    if s.ftSet ∧ s.actDue e ≤ s.time.ft ∧ ¬ s.actions.any (fun x => decide (x.1 < i) && s.actDue x.2 == s.actDue e) then some e else none

/-- An entry fired, skipped or late: it becomes invalid, or its TIME moves on by the smallest multiple of PERIOD into the future (R558). -/
def State.actNext (s : State) (i : Nat) (e : List Byte) : State :=
  let k := (s.time.ft - actTime e) / max 1 (actPeriod e) + 1
  { s with actions := if actPeriod e = 0 then adel s.actions i else aput s.actions i (leBytes 8 (actTime e + k * actPeriod e) ++ byteField e 8 24) }

/-- STEP_START (R561): the earliest-fetched queued step of the slice that starts on action and that no earlier step holds takes the firing time as its START_TIME. -/
def State.actStepStart (s : State) (slice t : Nat) : State :=
  let free (e : Nat × Step) : Bool := e.2.phase == .queued && e.2.slice == slice && e.2.onAction && !e.2.startCome && !s.streamHeld e.2
  match (byFetch s.steps.slots).find? free with
  | some e => s.modStep e.1 fun u => { u with startCome := true, startTime := t }
  | none => s.bumpSat fTIME_EVENTS2_STEP_NONE

/-- What an action other than SWING does when it fires at time t (R556). -/
def State.actFire (s : State) (e : List Byte) (t : Nat) : State := match actKind e with
  | 2 => s.actStepStart (recNat e 20 2) t
  | 3 => s.thermSync
  | 4 => if s.mayStart (recNat e 20 1) then s.startPlan (recNat e 20 1) else s
  | 5 => s.sendPauses (s.actPort e) (recNat e 21 1) (recNat e 22 1) (recNat e 24 2)
  | _ => s

/-- An action of a kind other than SWING on time, its target ready. -/
def State.actRun (s : State) (i kind : Nat) : State := match s.actNow i with
  | some e => if actKind e = kind ∧ s.actReady e ∧ ¬ s.actLate e then (s.actFire e (actTime e)).actNext i e else s
  | none => s

/-- SWING (R381, R556): the first part from T_s − HOLD, the second at T_s; a swing that cannot begin is counted and ends (R382). -/
def execSwing (entry : Fin 256) (s : State) : Host.Outcome State Fault Refusal :=
  .next (match s.actNow entry.val with
    | some e =>
      if actKind e = 1 ∧ s.actReady e ∧ ¬ s.actLate e then
        let s1 := s.swingAct (s.actPort e) (actPreset e) (actTime e)
        if s1.actBegun e then s1 else s1.actNext entry.val e
      else s
    | none => s)

/-- STEP_START (R556, R561). -/
def execStepStart (entry : Fin 256) (s : State) : Host.Outcome State Fault Refusal := .next (s.actRun entry.val 2)

/-- THERMAL_SYNC_ACTION (R556, R622). -/
def execThermalSyncAction (entry : Fin 256) (s : State) : Host.Outcome State Fault Refusal := .next (s.actRun entry.val 3)

/-- INJECT (R556): a plan that may not start does not. -/
def execInject (entry : Fin 256) (s : State) : Host.Outcome State Fault Refusal := .next (s.actRun entry.val 4)

/-- PAUSE_SEND (R551, R556). -/
def execPauseSend (entry : Fin 256) (s : State) : Host.Outcome State Fault Refusal := .next (s.actRun entry.val 5)

/-- ACTION_LATE (R557): performed at once and counted; a late SWING is never performed and leaves a record. -/
def execActionLate (entry : Fin 256) (s : State) : Host.Outcome State Fault Refusal :=
  .next (match s.actNow entry.val with
    | some e =>
      if s.actReady e ∧ s.actLate e then
        let s1 := s.bumpSat fTIME_EVENTS_ACTIONS_LATE
        (if actKind e = 1 then s1.timeRec 3 1 ((s.time.ft - s.actDue e : Nat) : Int) entry.val else s1.actFire e s.time.ft).actNext entry.val e
      else s
    | none => s)

/-- ACTION_SKIPPED (R557): the target is not ready; a swing's port also counts it (R382). -/
def execActionSkipped (entry : Fin 256) (s : State) : Host.Outcome State Fault Refusal :=
  .next (match s.actNow entry.val with
    | some e =>
      if s.actReady e then s
      else
        let s1 := s.bumpSat fTIME_EVENTS_ACTIONS_SKIPPED
        (if actKind e = 1 then s1.bumpSat (fLNK_EVENTS_SWINGS_FAILED (s.actPort e)) else s1).actNext entry.val e
    | none => s)

/-- One entry written; KIND 0 makes it invalid. -/
def State.writeAction (s : State) (i : Nat) (e : List Byte) : State :=
  { s with actions := if actKind e = 0 then adel s.actions i else aput s.actions i (if s.actDue e < s.time.ft then e ++ [1] else e) }

/-- ACTION_WRITE. -/
def State.actionWrite (s : State) (f : InFlight) (data : List Byte) : State :=
  let i := recNat f.desc 8 1
  let n := recNat f.desc 10 2
  if n = 0 ∨ 256 < i + n then s.finish f 0xC1 []
  else if !s.ftSet then s.finish f 0xC3 []
  else s.tableWrite f i n 32 0xC0 0xC1 0xC4 data actGood State.writeAction

/-- ACTION_WRITE (R559, R563). -/
def execActionWrite (sq : RingNo) (data : List Byte) (s : State) : Host.Outcome State Fault Refusal := .next (s.ringCmd sq.toNat 0x6F fun st f => st.actionWrite f data)

end Sys2Proof.Machine
end

