-- ==== Sys2Proof/Machine/Elementary.lean ====
section
/-! DEFINITION. EXP and LOG rounded once to FP32 (R203). The exact value is enclosed in units of 2⁻²²⁰, which is far finer than any rounding boundary of
FP32 that a value of either function comes near, and the remainder is kept as a sticky bit. -/

namespace Sys2Proof.Machine

/-- Fraction bits of the fixed-point working. -/
def fixP : Nat := 220

/-- The product of two fixed-point numbers. -/
def fixMul (a b : Nat) : Nat := a * b / 2 ^ fixP

/-- The sum of z^(2k+1)/(2k+1) over k < n, from the power z^(2k+1) and z². -/
def atanhGo : Nat → Nat → Nat → Nat → Nat
  | 0, _, _, _ => 0
  | n + 1, k, p, z2 => p / (2 * k + 1) + atanhGo n (k + 1) (fixMul p z2) z2

/-- The inverse hyperbolic tangent of z < 1/2. -/
def fixAtanh (z : Nat) : Nat := atanhGo 112 0 z (fixMul z z)

/-- The natural logarithm of 2. -/
def fixLn2 : Nat := 2 * fixAtanh (2 ^ fixP / 3)

/-- The sum of r^k/k! for k from the term in hand on. -/
def expGo : Nat → Nat → Nat → Nat → Nat
  | 0, _, _, _ => 0
  | n + 1, k, term, r => term + expGo n (k + 1) (fixMul term r / (k + 1)) r

/-- The exponential of 0 ≤ r < 1. -/
def fixExp (r : Nat) : Nat := expGo 64 0 (2 ^ fixP) r

/-- e^x rounded once to FP32 (R203). -/
def exp32 (x : Val) : Val := match x with
  | .nan o => .nan o
  | .inf n => if n then .zero else .inf false
  | .fin n m e =>
    if m = 0 then .fin false 1 0
    else if 9 < leadExp m e then (if n then .zero else .inf false)
    else
      -- x in units of 2^−220, exact for every FP32 input
      let mag : Nat := if -(fixP : Int) ≤ e then m * 2 ^ (e + fixP).toNat else 0
      let xi : Int := if n then -(mag : Int) else mag
      let k := xi / (fixLn2 : Int)
      let r := (xi - k * fixLn2).toNat
      round32 (.fin false (2 * fixExp r + 1) (k - fixP - 1))

/-- log x rounded once to FP32 (R203). -/
def log32 (x : Val) : Val := match x with
  | .nan o => .nan o
  | .inf n => if n then .nan 6 else .inf false
  | .fin n m e =>
    if m = 0 then .inf true
    else if n then .nan 6
    else
      let l := Nat.log2 m
      let f := m * 2 ^ fixP / 2 ^ l
      let z := (f - 2 ^ fixP) * 2 ^ fixP / (f + 2 ^ fixP)
      let v : Int := (e + l) * fixLn2 + 2 * fixAtanh z
      if f = 2 ^ fixP ∧ e + l = 0 then .zero
      else if v < 0 then round32 (.fin true (2 * v.natAbs + 1) (-(fixP : Int) - 1))
      else round32 (.fin false (2 * v.natAbs + 1) (-(fixP : Int) - 1))

/-- 1/x rounded once to FP32 (R203). -/
def recip32 (x : Val) : Val := div32 (.fin false 1 0) x

/-- The larger of two values where one that is NaN gives way to the other (R219). -/
def fmax32 (a b : Val) : Val := match a, b with
  | .nan _, b => b
  | a, .nan _ => a
  | a, b => if a.lt b then b else a

/-- A natural number as FP32. -/
def nat32 (n : Nat) : Val := round32 (.fin false n 0)

/-- One level of pairing: element 2i + element 2i + 1. -/
def pairUp : List Val → List Val
  | a :: b :: rest => add32 a b :: pairUp rest
  | [a] => [a]
  | [] => []

/-- A chunk of up to 256 values summed as a tree of eight levels over zero-padded positions (R205). -/
def chunkSum (vs : List Val) : Val :=
  let l := vs ++ List.replicate (256 - vs.length) (.fin false 0 0)
  ((List.range 8).foldl (fun a _ => pairUp a) l).headD (.fin false 0 0)

/-- A list cut into runs of 256. `fuel` bounds the runs. -/
def chunk256 : Nat → List Val → List (List Val)
  | 0, _ => []
  | f + 1, l => if l.isEmpty then [] else l.take 256 :: chunk256 f (l.drop 256)

/-- A row summed in chunks of 256, the running sum starting at +0 (R205). -/
def rowSum (vs : List Val) : Val := (chunk256 (vs.length / 256 + 1) vs).foldl (fun a c => add32 a (chunkSum c)) (.fin false 0 0)

/-- exp(C0 × (x − n)), with exp(C0 × (−∞ − n)) taken as +0 (R206). -/
def expDiff (c0 x n : Val) : Val := if x = .inf true then .zero else exp32 (mul32 c0 (sub32 x n))

/-- The running maximum m and sum s of R206 over a row. -/
def softStats (c0 : Val) (vs : List Val) : Val × Val :=
  (chunk256 (vs.length / 256 + 1) vs).foldl (fun ms c =>
    let n := c.foldl fmax32 ms.1
    let s := add32 (mul32 ms.2 (expDiff c0 ms.1 n)) (chunkSum (c.map fun x => expDiff c0 x n))
    (n, s)) (.inf true, .fin false 0 0)

/-- The softmax of a row (R206). -/
def softRow (c0 : Val) (vs : List Val) : List Val :=
  let ms := softStats c0 vs
  let r := recip32 ms.2
  vs.map fun x => mul32 (expDiff c0 x ms.1) r

end Sys2Proof.Machine
end

