-- ==== Sys2Proof/Machine/Attend.lean ====
section
/-! DEFINITION. The KV pages of a stream and the ATTEND station (R210–R221), with the parts a KV_APPEND shares (R265). -/

namespace Sys2Proof.Machine

open Sys2Proof

def instAttend : Nat := 0x60

/-! ### KV layout (R210–R213) -/

/-- The KV layout an op names. -/
structure KvLay where
  layer : Nat
  heads : Nat
  dim : Nat
  fmt : Nat
  plog : Nat
  lpl : Nat
  cb : Nat
  deriving DecidableEq, Repr

/-- The layout fields of an op (R210, R265). -/
def kvLay (op : List Byte) : KvLay :=
  { layer := opF op 1 47 40, heads := opF op 1 39 36 + 1, dim := opF op 1 31 28 * 32, fmt := opF op 1 27 26, plog := opF op 1 25 22, lpl := opF op 1 21 17,
    cb := opF op 3 39 0 }

/-- Tokens per page, and bytes of a row. -/
def KvLay.page (k : KvLay) : Nat := 2 ^ k.plog
def KvLay.rowBytes (k : KvLay) : Nat := match k.fmt with
  | 0 => k.dim | 1 => k.dim | 2 => k.dim / 2 + k.dim / 32 | _ => k.dim / 2

/-- Whether a layout keeps R210, R212 and R214, for layers up to layer + more. -/
def KvLay.ok (k : KvLay) (op : List Byte) (more : Nat) : Bool :=
  decide (2 ≤ opF op 1 31 28) && decide (opF op 1 31 28 ≤ 8) && decide (k.plog ≤ 10) && decide (k.lpl ≤ 24) &&
    decide (k.heads * 2 * k.page * k.rowBytes ≤ 16384) && decide ((k.layer + more + 1) * 2 ^ k.lpl ≤ 2 ^ 24) && (k.fmt == 3 || k.cb == 0) &&
    opF op 3 63 40 == 0

/-- The page of a virtual page number (R213); none where the walk finds an invalid entry. -/
def State.kvPage (s : State) (root vpn : Nat) : Option Nat :=
  let e1 := s.ldNat (root + vpn / 4096 % 4096 * 4) 4
  if e1 / 2 ^ 31 = 0 then none
  else
    let e2 := s.ldNat (16384 * (e1 % 2 ^ 26) + vpn % 4096 * 4) 4
    if e2 / 2 ^ 31 = 0 then none else some (16384 * (e2 % 2 ^ 26))

/-- The virtual page of position t in a layer (R212). -/
def KvLay.vpn (k : KvLay) (layer t : Nat) : Nat := layer * 2 ^ k.lpl + t / k.page

/-- The offset of a row within its page (R212). -/
def KvLay.rowOff (k : KvLay) (h kv t : Nat) : Nat := ((h * 2 + kv) * k.page + t % k.page) * k.rowBytes

/-- The pages of positions 0 to n − 1 of a layer, in order; none where one is unmapped. -/
def State.kvPages (s : State) (k : KvLay) (root layer n : Nat) : Option (List Nat) :=
  (List.range (ceilDiv n k.page)).mapM fun i => s.kvPage root (k.vpn layer (i * k.page))

/-- The device address of a row, by the pages of its layer. -/
def KvLay.rowAddr (k : KvLay) (pages : Array Nat) (h kv t : Nat) : Nat := pages.getD (t / k.page) 0 + k.rowOff h kv t

/-- The value of entry i of the codebook table of head h and kv (R217). -/
def State.kvTable (s : State) (k : KvLay) (h kv : Nat) : List Val := (s.ld (k.cb + (h * 2 + kv) * 16) 16).map fun b => decodeFloat fE4M3 b.toNat

/-- The distance between two values. -/
def valDist (a b : Val) : Val := (a.add b.negate).abs

/-- The index of the nearest table entry, the lower one on ties (R217). An entry that is NaN is nearest to nothing; for a value that is NaN, or with no
entry to be nearest, the index is the free number given. -/
def nearest (tab : List Val) (pick : Nat) (v : Val) : Nat :=
  let best := ((List.range tab.length).zip tab).foldl (fun (a : Option (Nat × Val)) e =>
    let d := valDist v e.2
    if d.isNan then a
    else match a with
      | none => some (e.1, d)
      | some x => if d.lt x.2 then some (e.1, d) else a) none
  match best with
  | some x => if v.isNan then pick % 16 else x.1
  | none => pick % 16

/-- A row as it is stored (R212, R217). -/
def kvEncode (fmt : Nat) (tab : List Val) (pick : Nat) (vs : List Val) : List Byte := match fmt with
  | 0 => vs.map fun v => BitVec.ofNat 8 (convElem 0x04 false v).code
  | 1 => vs.map fun v => BitVec.ofNat 8 (convElem 0x05 false v).code
  | 2 =>
    let l := convLine 0x14 false vs
    packCodes 4 (l.2.map (·.code)) ++ l.1.map (BitVec.ofNat 8 ·)
  | _ => packCodes 4 (vs.map (nearest tab pick))

/-- The values of a stored row. -/
def kvDecode (fmt dim : Nat) (tab : List Val) (bs : List Byte) : List Val :=
  let a := bs.toArray
  match fmt with
  | 0 => bs.map fun b => decodeFloat fE4M3 b.toNat
  | 1 => bs.map fun b => decodeFloat fE5M2 b.toNat
  | 2 => (List.range dim).map fun i => scaled (decodeFloat fE2M1 (payloadBits a (4 * i) 4)) (a.getD (dim / 2 + i / 32) 0).toNat
  | _ =>
    let t := tab.toArray
    (List.range dim).map fun i => t.getD (payloadBits a (4 * i) 4) .zero

/-! ### Appends (R216, R217) -/

/-- Fields of a stream's context (R193). -/
def State.ctxNat (s : State) (x : OpCtx) (lo n : Nat) : Nat := recNat (s.ctx x.slot x.run.streamIx) lo n

/-- PT_ROOT and COMMITTED_LEN of the stream in hand. -/
def State.ptRoot (s : State) (x : OpCtx) : Nat := 16384 * (s.ctxNat x 8 4 % 2 ^ 26)
def State.committedLen (s : State) (x : OpCtx) : Nat := s.ctxNat x 12 4

/-- Set STAGED_LEN of the stream in hand (R91, R189). -/
def State.setStagedLen (s : State) (x : OpCtx) (n : Nat) : State := s.putCtx x.slot x.run.streamIx 16 (leBytes 4 n)

/-- Count an exclusion for CTX_LIMIT or KV_UNMAPPED, and exclude the stream in hand (R216, R235). -/
def State.kvExclude (s : State) (x : OpCtx) (cause : Nat) : State :=
  let fresh := match x.step.streams[x.run.streamIx]? with
    | some r => r.excl.isNone
    | none => false
  (if fresh then s.bumpSat fSTREAM_EVENTS_KV_FAULTS else s).excludeStream x.slot x.run.streamIx cause

/-- Whether N new tokens pass a limit of R216. -/
def State.kvOver (s : State) (x : OpCtx) (k : KvLay) (n : Nat) : Bool :=
  decide (2097152 < s.committedLen x + n) || decide (2 ^ k.lpl ≤ (s.committedLen x + n - 1) / k.page)

/-- What the walks of R213 for positions 0 to n − 1 of a layer read of the page tables. -/
def State.walkRuns (s : State) (k : KvLay) (root layer n : Nat) : List (Nat × Nat) := (List.range (ceilDiv n k.page)).flatMap fun i =>
  let vpn := k.vpn layer (i * k.page)
  let a := root + vpn / 4096 % 4096 * 4
  let e1 := s.ldNat a 4
  (a, 4) :: (if e1 / 2 ^ 31 = 0 then [] else [(16384 * (e1 % 2 ^ 26) + vpn % 4096 * 4, 4)])

/-- The fault of a walk that reaches what a station may not address, or a span not ready (R237, R239, log entry 71). -/
def State.walkFault (s : State) (x : OpCtx) (k : KvLay) (n : Nat) : Option (Nat × Nat) :=
  if s.kvOver x k n then none else s.addrCheck (s.walkRuns k (s.ptRoot x) k.layer (s.committedLen x + n))

/-- Whether N new tokens find a limit of R216, or the pages of the layer. -/
def State.kvReach (s : State) (x : OpCtx) (k : KvLay) (n : Nat) : Nat ⊕ Array Nat :=
  let l := s.committedLen x
  if s.kvOver x k n then .inl 0x22
  else match s.kvPages k (s.ptRoot x) k.layer (l + n) with
    | none => .inl 0x23
    | some ps => .inr ps.toArray

/-- Write the new K and V rows of a head to positions L to L + N − 1 (R217). -/
def State.kvAppend (s : State) (x : OpCtx) (k : KvLay) (pages : Array Nat) (h n : Nat) (kvTile : Tile) : State :=
  let l := s.committedLen x
  let vals := ((s.openTile kvTile).values 8).toArray
  let pick := Config.free s.freeCtr
  let s1 := (List.range (2 * n)).foldl (fun st i =>
    let kv := i / n
    let t := l + i % n
    let a := k.rowAddr pages h kv t
    let bs := kvEncode k.fmt (s.kvTable k h kv) pick (vals.getD i [])
    (st.access a k.rowBytes true true).st a bs kvTile.poison) s
  (s1.setStagedLen x (l + n)).drew

/-- The formats of Q and new-KV tiles (R211). -/
def kvFormat (f : Nat) : Bool := [1, 2, 3, 4, 5].contains f

/-- The codebook tables of a layout, where it has them (R217). -/
def KvLay.tableRuns (k : KvLay) : List (Nat × Nat) := if k.fmt = 3 then [(k.cb, k.heads * 32)] else []

/-- The runs of memory an append or an attention of n positions reaches in pages. -/
def pageRuns (pages : Array Nat) : List (Nat × Nat) := pages.toList.map fun p => (p, 16384)

/-! ### ATTEND (R217–R220) -/

/-- Whether an ATTEND op keeps R210, R212 and R214. -/
def attendOk (x : OpCtx) : Bool :=
  let op := x.op
  opPerStream op && opInA op != noQ && opInB op != noQ && opOut op != noQ && (kvLay op).ok op 0 && decide (1 ≤ opF op 1 8 3) && decide (opF op 1 8 3 ≤ 3) &&
    opF op 0 1 0 == 0 && opF op 1 2 0 == 0 && opF op 2 19 0 == 0

/-- Whether a tree tile of N columns keeps R220. -/
def treeOk (t : Tile) (n : Nat) : Bool :=
  t.format == 0x0B && t.rows == 2 && t.layout == 0 && decide (t.cols ≤ 64) && t.cols == n &&
    (let m := t.ints
     let par := (m.getD 0 []).toArray
     let tok := (m.getD 1 []).toArray
     par.getD 0 0 == -1 && (List.range n).all fun i =>
       i == 0 || (decide (0 ≤ par.getD i 0) && decide (par.getD i 0 < i) && decide (0 ≤ tok.getD i 0) && decide (tok.getD i 0 ≤ 1048575)))

/-- The parents of the nodes: of a tree tile, or of a chain (R218). -/
def parentsOf (tree : Option Tile) (n : Nat) : Array Int := match tree with
  | some t => ((t.ints).getD 0 []).toArray
  | none => ((List.range n).map fun (i : Nat) => (i : Int) - 1).toArray

/-- Whether node m is node n or an ancestor of it. `fuel` bounds the walk. -/
def isAncestor (par : Array Int) (m : Nat) : Nat → Int → Bool
  | 0, _ => false
  | f + 1, n => if n < 0 then false else if n = m then true else isAncestor par m f (par.getD n.toNat (-1))

/-- The score of a query row against a stored key (R219): groups of 8 along D under the lane rule, then one multiplication by SCALE. -/
def score (scale : Val) (q k : List Val) : Val :=
  mul32 ((chunks 8 (q.zip k)).foldl laneGroup (.fin false 0 0)) scale

/-- What a query row has gathered: m, l and acc of R219. -/
structure AttAcc where
  m : Val
  l : Val
  acc : List Val
  deriving DecidableEq, Repr

/-- One block of 64 positions (R219): each position's score, −∞ where it is masked, and its V row. -/
def attBlock (a : AttAcc) (blk : List (Val × List Val)) : AttAcc :=
  let mb := blk.foldl (fun m e => fmax32 m e.1) a.m
  if mb = .inf true then a
  else
    let c := exp32 (sub32 a.m mb)
    let a0 : AttAcc := { m := mb, l := mul32 a.l c, acc := a.acc.map fun v => mul32 v c }
    blk.foldl (fun st e =>
      let p := exp32 (sub32 e.1 mb)
      { st with l := add32 st.l p, acc := (st.acc.zip e.2).map fun w => fma32 p w.2 w.1 }) a0

/-- The output row of a query row (R219). -/
def attRow (scale : Val) (dim : Nat) (q : List Val) (kv : List (List Val × List Val)) (sees : Nat → Bool) : List Val :=
  let pos := ((List.range kv.length).zip kv).map fun e => (if sees e.1 then score scale q e.2.1 else .inf true, e.2.2)
  let a := (chunks 64 pos).foldl attBlock { m := .inf true, l := .fin false 0 0, acc := List.replicate dim (.fin false 0 0) }
  a.acc.map fun v => div32 v a.l

/-- A NaN of a Q, K or V element carries ORIGIN 5. -/
def markInput (l : List Val) : List Val := l.map fun v => match v with
  | .nan _ => .nan 5
  | v => v

/-- The attention output of a head: rows n × G + g (R211, R218, R219). -/
def State.attend (s : State) (x : OpCtx) (k : KvLay) (pages : Array Nat) (h n grp : Nat) (q : Tile) (tree : Option Tile) : List (List Val) :=
  let l := s.committedLen x
  let tabK := s.kvTable k h 0
  let tabV := s.kvTable k h 1
  let kv := (List.range (l + n)).map fun t =>
    (markInput (kvDecode k.fmt k.dim tabK (s.rd (k.rowAddr pages h 0 t) k.rowBytes)), markInput (kvDecode k.fmt k.dim tabV (s.rd (k.rowAddr pages h 1 t) k.rowBytes)))
  let par := parentsOf tree n
  let scale := ofF32 (opF x.op 2 63 32)
  ((List.range (n * grp)).zip ((s.openTile q).values 8)).map fun e =>
    attRow scale k.dim (markInput e.2) kv fun p => decide (p < l) || isAncestor par (p - l) (n + 1) (e.1 / grp)

/-- Whether any KV row the head reads lies in a block with the poison mark. -/
def State.kvPoisoned (s : State) (k : KvLay) (pages : Array Nat) (h cnt : Nat) : Bool :=
  (List.range cnt).any fun t => s.poisoned (k.rowAddr pages h 0 t) k.rowBytes || s.poisoned (k.rowAddr pages h 1 t) k.rowBytes

/-- ORIGIN 5 for a NaN of an input, 6 for one of ATTEND's own arithmetic. -/
def attOrigin (o : Nat) : Nat := if o = 5 then 5 else 6

/-- The output tile of head h is staged and what the head read is released; the next head follows, or after the last the next stream or repeat. -/
def State.attendOut (s : State) (x : OpCtx) (h : Nat) (q : Tile) (vals : List (List Val)) (poison : Bool) : State :=
  let op := x.op
  let k := kvLay op
  let inT := opF op 2 31 20
  let more := decide (h + 1 < k.heads)
  let w := writeVals (opF op 1 8 3) 0 8 false 0 q.rows k.dim vals
  let tile : Tile := { status := w.status, coordC := q.coordC, coordR := q.coordR, rows := q.rows, cols := k.dim, format := opF op 1 8 3, layout := 0,
                       poison := poison, payload := w.payload }
  let s1 := s.stage x tile (x.owners q.rows) (attOrigin w.origin) more
  let s2 := if opHoldA op && !x.lastRep then s1 else s1.endRead x (opInA op)
  let s3 := s2.endRead x (opInB op)
  if more then (((s3.unstall x).modInst x.slot x.core x.inst fun r => { r with work := aput r.work 0 (h + 1) }).progress x.slot x.core x.inst)
  else (((if inT = noQ then s3 else s3.endRead x inT).modInst x.slot x.core x.inst fun r => { r with work := [] }).endRepeat x)

/-- What a head reads of its KV rows: the pages' ECC events, the new rows appended, and the accesses of every row. -/
def State.attendRead (s : State) (x : OpCtx) (k : KvLay) (pages : Array Nat) (h n : Nat) (kv : Tile) (hits : List EccHit) : State :=
  let s1 := (pageRuns pages).foldl (fun st r => st.ecc x.slot r.1 r.2 hits) s
  let s2 := (s1.kvAppend x k pages h n kv).poisonExcl x.slot x.run.streamIx kv.poison
  (List.range (s.committedLen x + n)).foldl (fun st t =>
    (st.access (k.rowAddr pages h 0 t) k.rowBytes false true).access (k.rowAddr pages h 1 t) k.rowBytes false true) s2

/-- Whether the tiles of a head have the shapes of R211 to R213: n query groups and n new KV rows, and the tree's form. -/
def attendShapes (op : List Byte) (q kv : Tile) (tree : Option Tile) : Bool :=
  let k := kvLay op
  let grp := opF op 1 35 32 + 1
  let n := q.rows / grp
  q.rows == n * grp && q.cols == k.dim && kv.rows == 2 * n && kv.cols == k.dim && kvFormat q.format && kvFormat kv.format && q.layout == 0 && kv.layout == 0 &&
    decide (1 ≤ n) && decide (n ≤ if opF op 2 31 20 = noQ then 2048 / grp else 64) && (match tree with
      | some t => treeOk t n
      | none => true)

/-- One head of one stream of an ATTEND op: the tree tile is taken with the first head and released with the last. -/
def State.attendHead (s : State) (x : OpCtx) (hits : List EccHit) : State :=
  let op := x.op
  let k := kvLay op
  let grp := opF op 1 35 32 + 1
  let inT := opF op 2 31 20
  let h := (aget x.run.work 0).getD 0
  let tree := if inT = noQ then none else x.head inT
  match x.head (opInA op) (if opHoldA op && !x.lastRep then h else 0), x.head (opInB op) with
  | some q, some kv =>
    if inT ≠ noQ ∧ tree.isNone then s.stallOn x 1 inT
    else if !attendShapes op q kv tree then s.opFault x cOperand
    else
      let n := q.rows / grp
      let inPoison := q.poison || kv.poison || (match tree with
        | some t => t.poison
        | none => false)
      match s.walkFault x k n with
      | some (cause, a) => s.opFault x cause 0 a
      | none => match s.kvReach x k n with
        | .inl cause => (s.kvExclude x cause).attendOut x h q (List.replicate q.rows (List.replicate k.dim (.fin false 0 0))) inPoison
        | .inr pages =>
        match s.addrCheck (pageRuns pages ++ k.tableRuns) with
        | some (cause, a) => s.opFault x cause 0 a
        | none =>
          let s3 := s.attendRead x k pages h n kv hits
          (s3.attendOut x h q (s3.attend x k pages h n grp q tree) (inPoison || s3.kvPoisoned k pages h (s.committedLen x + n))).drew
  | none, _ => s.stallOn x 1 (opInA op)
  | _, none => s.stallOn x 1 (opInB op)

/-- One head of an ATTEND op; `hits` are the ECC events of the KV pages it reads. -/
def execAttend (slot : StepIx) (core : LCore) (hits : List EccHit) (s : State) : Host.Outcome State Fault Refusal :=
  .next (s.runOp slot core instAttend [1, 2] 1 attendOk fun s1 x => s1.attendHead x hits)

/-! ### COMPACT (R221) -/

/-- Whether a COMPACT op keeps R210 and R214. -/
def compactOk (x : OpCtx) : Bool :=
  let op := x.op
  opPerStream op && opInA op != noQ && opInB op == noQ && opOut op == noQ && (kvLay op).ok op (opF op 1 16 9) && opF op 0 1 0 == 0 && opF op 1 2 0 == 0 &&
    opF op 2 19 0 == 0

/-- The acceptance tile's integers (R232). -/
def acceptInts (t : Tile) : Array Int := ((t.ints).getD 0 []).toArray

/-- Whether an acceptance tile has the form of R232. -/
def acceptOk (t : Tile) : Bool := t.format == 0x0B && t.rows == 1 && t.cols == 20 && decide (t.layout ≤ 1)

/-- The copies (from, to) of a path (R221): path[i] to i, for i = 1 to a − 1, leaving out those that stay. -/
def compactMoves (m : Array Int) : List (Nat × Nat) :=
  let a := (m.getD 0 0).toNat
  (List.range (min a 16)).filterMap fun i =>
    let p := (m.getD (3 + i) (-1))
    if i = 0 ∨ p < 0 ∨ p.toNat = i then none else some (p.toNat, i)

/-- One KV row copied, for one page list, K or V head and move. -/
def State.compactRow (s : State) (k : KvLay) (p : List Nat) (l hk : Nat) (m : Nat × Nat) : State :=
  let src := k.rowAddr p.toArray (hk / 2) (hk % 2) (l + m.1)
  let dst := k.rowAddr p.toArray (hk / 2) (hk % 2) (l + m.2)
  (((s.access src k.rowBytes false true).access dst k.rowBytes true true).st dst (s.rd src k.rowBytes) (s.poisoned src k.rowBytes)).drew

/-- The acceptance tile is released and the next stream follows. -/
def State.compactDone (s : State) (x : OpCtx) (t : Tile) : State := ((s.poisonExcl x.slot x.run.streamIx t.poison).endInA x).endRepeat x

/-- The pages of each layer that the moves of a COMPACT op reach. -/
def State.compactPages (s : State) (x : OpCtx) (moves : List (Nat × Nat)) : Option (List (List Nat)) :=
  let k := kvLay x.op
  ((List.range (opF x.op 1 16 9 + 1)).map (· + k.layer)).mapM fun y => s.kvPages k (s.ptRoot x) y (s.committedLen x + moves.foldl (fun a m => max a (m.1 + 1)) 0)

/-- The fault of their walks, where there is one. -/
def State.compactWalk (s : State) (x : OpCtx) (moves : List (Nat × Nat)) : Option (Nat × Nat) :=
  let k := kvLay x.op
  s.addrCheck ((List.range (opF x.op 1 16 9 + 1)).flatMap fun y =>
    s.walkRuns k (s.ptRoot x) (y + k.layer) (s.committedLen x + moves.foldl (fun a m => max a (m.1 + 1)) 0))

/-- One stream of a COMPACT op. -/
def State.compact (s : State) (x : OpCtx) : State := match x.head (opInA x.op) with
  | none => s.stallOn x 1 (opInA x.op)
  | some t =>
    if !acceptOk t then s.opFault x cOperand
    else
      let k := kvLay x.op
      let moves := compactMoves (acceptInts t)
      if moves.isEmpty then s.compactDone x t
      else match s.compactWalk x moves with
        | some (cause, a) => s.opFault x cause 0 a
        | none => match s.compactPages x moves with
        | none => (s.kvExclude x 0x23).compactDone x t
        | some ps =>
          match s.addrCheck (ps.flatMap fun p => pageRuns p.toArray) with
          | some (cause, a) => s.opFault x cause 0 a
          | none =>
            (ps.foldl (fun st p => (List.range (k.heads * 2)).foldl (fun s2 hk => moves.foldl (fun s3 m => s3.compactRow k p (s.committedLen x) hk m) s2) st) s).compactDone x t

/-- One stream of a COMPACT op. -/
def execCompact (slot : StepIx) (core : LCore) (s : State) : Host.Outcome State Fault Refusal :=
  .next (s.runOp slot core instAttend [1, 2] 2 compactOk State.compact)

end Sys2Proof.Machine
end

