-- ==== Sys2Proof/Machine/LoadStore.lean ====
section
/-! DEFINITION. The LOAD and STORE stations (R237, R239, R261–R265). -/

namespace Sys2Proof.Machine

open Sys2Proof

/-- Address of repeat r (R262). -/
def lsAddr (op : List Byte) (r : Nat) : Nat := (opF op 2 39 0 + r * opF op 3 39 0) % 2 ^ 40

/-- The runs of repeat r: one run, or one per row at PITCH. -/
def lsRuns (op : List Byte) (r rows bytes : Nat) : List (Nat × Nat) :=
  let pitch := opF op 3 63 40
  if pitch = 0 then [(lsAddr op r, bytes)]
  else (List.range rows).map fun i => (lsAddr op r + i * pitch, bytes / rows)

/-- Whether PITCH may be set for a tile: LAYOUT 0, unscaled, rows of whole bytes, the payload exactly the elements (R262). -/
def pitchOk (fmt layout rows cols bytes : Nat) : Bool :=
  layout == 0 && !isMx fmt && !isCb fmt && cols * elemBits fmt % 8 == 0 && bytes == rows * (cols * elemBits fmt / 8)

/-- Fields of a LOAD op. -/
def loadFmt (op : List Byte) : Nat := opF op 1 47 42
def loadLayout (op : List Byte) : Nat := opF op 1 41 40
def loadRows (op : List Byte) : Nat := opF op 1 39 29 + 1
def loadCols (op : List Byte) : Nat := opF op 1 28 18 + 1
def lsHint (op : List Byte) : Nat := opF op 1 17 16
def loadBytes (op : List Byte) : Nat := opF op 2 63 48 + 1

/-- Whether a LOAD op keeps R261, R262 and R53. -/
def loadOk (x : OpCtx) : Bool :=
  let op := x.op
  opInA op == noQ && opInB op == noQ && opOut op != noQ && (elemOf (loadFmt op)).isSome && decide (loadLayout op ≤ 2) && decide (lsHint op ≤ 1) &&
    opF op 0 1 0 == 0 && opF op 1 14 0 == 0 && opF op 2 47 40 == 0 && decide (loadBytes op ≤ 65536) &&
    (opF op 3 63 40 == 0 || pitchOk (loadFmt op) (loadLayout op) (loadRows op) (loadCols op) (loadBytes op))

/-- One repeat of a LOAD op (R262, R263); `hits` are the ECC events of the bytes it reads. -/
def State.loadOp (s : State) (x : OpCtx) (hits : List EccHit) : State :=
  let op := x.op
  let r := x.repNo
  let runs := lsRuns op r (loadRows op) (loadBytes op)
  match s.addrCheck runs with
  | some (cause, a) => s.opFault x cause 0 a
  | none =>
    let s1 := runs.foldl (fun st q => (st.access q.1 q.2 false (lsHint op == 0)).ecc x.slot q.1 q.2 hits) s
    let poison := runs.any fun q => s1.poisoned q.1 q.2
    let tile : Tile := { coordC := r % 65536, rows := loadRows op, cols := loadCols op, format := loadFmt op, layout := loadLayout op,
                         sparse := opF op 1 15 15 == 1, poison := poison, payload := runs.flatMap fun q => s1.rd q.1 q.2 }
    ((s1.drew).stage x tile (x.owners (loadRows op))).endRepeat x

/-- One repeat of a LOAD op. -/
def execLoad (slot : StepIx) (core : LCore) (ix : Fin 4) (hits : List EccHit) (s : State) : Host.Outcome State Fault Refusal :=
  .next (s.runOp slot core (0x10 + ix) [1] 1 loadOk fun s1 x => s1.loadOp x hits)

/-- Whether a STORE op keeps R261. -/
def storeOk (x : OpCtx) : Bool :=
  let op := x.op
  opInA op != noQ && opInB op == noQ && decide (lsHint op ≤ 1) && opF op 0 1 0 == 0 && opF op 1 47 18 == 0 && opF op 1 15 0 == 0 && opF op 2 63 40 == 0

/-- The acknowledge tile of repeat r (R264). -/
def ackTile (r : Nat) : Tile := { coordC := r % 65536, rows := 1, cols := 1, format := 0x0B, layout := 0, payload := leBytes 4 (r + 1) }

/-- One repeat of a STORE op (R262–R264). -/
def State.storeOp (s : State) (x : OpCtx) (hits : List EccHit) : State := match x.head (opInA x.op) with
  | none => s.stallOn x 1 (opInA x.op)
  | some t =>
    let op := x.op
    let r := x.repNo
    let n := t.payload.length
    if opF op 3 63 40 ≠ 0 ∧ !pitchOk t.format t.layout t.rows t.cols n then s.opFault x cOperand
    else
      let runs := lsRuns op r t.rows n
      match s.addrCheck runs with
      | some (cause, a) => s.opFault x cause 0 a
      | none =>
        let put := runs.foldl (fun (st : State × List Byte) q =>
          (((st.1.access q.1 q.2 true (lsHint op == 0)).ecc x.slot q.1 q.2 hits).st q.1 (st.2.take q.2) t.poison, st.2.drop q.2)) (s, t.payload)
        ((put.1.stage x (ackTile r) (x.owners 1)).endInA x).endRepeat x

/-- One repeat of a STORE op. -/
def execStore (slot : StepIx) (core : LCore) (ix : Fin 2) (hits : List EccHit) (s : State) : Host.Outcome State Fault Refusal :=
  .next (s.runOp slot core (0x20 + ix) [1, 2] 1 storeOk fun s1 x => s1.storeOp x hits)

/-- Whether a KV_APPEND op keeps R265. -/
def kvAppendOk (x : OpCtx) : Bool :=
  let op := x.op
  opPerStream op && opInA op != noQ && opInB op == noQ && (kvLay op).ok op 0 && opF op 0 1 0 == 0 && opF op 1 35 32 == 0 && opF op 1 16 0 == 0 &&
    opF op 2 63 0 == 0

/-- A head's KV tile is released; the next head follows, or after the last the acknowledge tile goes out and the next stream or repeat follows. -/
def State.kvDone (s : State) (x : OpCtx) (h : Nat) (kv : Tile) : State :=
  let s1 := s.poisonExcl x.slot x.run.streamIx kv.poison
  let s2 := if opHoldA x.op && !x.lastRep then s1 else s1.endRead x (opInA x.op)
  if h + 1 < (kvLay x.op).heads then (((s2.unstall x).modInst x.slot x.core x.inst fun r => { r with work := aput r.work 0 (h + 1) }).progress x.slot x.core x.inst)
  else ((s2.stage x (ackTile x.repNo) (x.owners 1)).modInst x.slot x.core x.inst fun r => { r with work := [] }).endRepeat x

/-- Whether a KV tile has the shape R265 asks: rows in pairs, the head's columns, a KV format, LAYOUT 0. -/
def kvShape (k : KvLay) (kv : Tile) : Bool :=
  kv.rows % 2 == 0 && kv.rows / 2 != 0 && kv.cols == k.dim && kvFormat kv.format && kv.layout == 0 && !kv.short

/-- One head of one stream of a KV_APPEND op (R265). -/
def State.kvAppendOp (s : State) (x : OpCtx) : State :=
  let k := kvLay x.op
  let h := (aget x.run.work 0).getD 0
  match x.head (opInA x.op) (if opHoldA x.op && !x.lastRep then h else 0) with
  | none => s.stallOn x 1 (opInA x.op)
  | some kv =>
    if !kvShape k kv then s.opFault x cOperand
    else match s.walkFault x k (kv.rows / 2) with
      | some (cause, a) => s.opFault x cause 0 a
      | none => match s.kvReach x k (kv.rows / 2) with
      | .inl cause => (s.kvExclude x cause).kvDone x h kv
      | .inr pages =>
        match s.addrCheck (pageRuns pages ++ k.tableRuns) with
        | some (cause, a) => s.opFault x cause 0 a
        | none => (s.kvAppend x k pages h (kv.rows / 2) kv).kvDone x h kv

/-- One head of a KV_APPEND op. -/
def execKvAppend (slot : StepIx) (core : LCore) (ix : Fin 2) (s : State) : Host.Outcome State Fault Refusal :=
  .next (s.runOp slot core (0x20 + ix) [1, 2] 2 kvAppendOk State.kvAppendOp)

end Sys2Proof.Machine
end

