-- ==== Sys2Proof/Machine/Target.lean ====
section
/-! DEFINITION. What the target of remote requests does (R446–R448, R456–R463, R466, R478), and the request header both ends use (R447). -/

namespace Sys2Proof.Machine

open Sys2Proof

/-! ### The request header (R447) -/

/-- A request header, read from the first 16 bytes of a frame. -/
structure ReqHdr where
  slice : Nat
  seq : Nat
  attempt : Nat
  ackReq : Bool := false
  rsv : Bool := false
  cntEn : Bool := false
  cunit : Bool := false
  arg : Nat
  id : Nat := 0
  addr : Nat
  counter : Nat := 0
  ext : Nat := 0
  deriving DecidableEq, Repr

/-- The header of a frame. -/
def hdrOf (b : List Byte) : ReqHdr :=
  { slice := recNat b 0 2, seq := recNat b 2 2, attempt := recBits b 4 1 3 0, ackReq := recBits b 4 1 4 4 == 1, rsv := recBits b 4 1 5 5 == 1
    cntEn := recBits b 4 1 6 6 == 1, cunit := recBits b 4 1 7 7 == 1, arg := recNat b 5 1, id := recNat b 6 2, addr := recNat b 8 5
    counter := recNat b 13 2, ext := recNat b 15 1 }

/-- A header's 16 bytes. -/
def hdrBytes (h : ReqHdr) : List Byte :=
  leBytes 2 h.slice ++ leBytes 2 h.seq ++
    leBytes 1 (h.attempt % 16 + (if h.ackReq then 16 else 0) + (if h.cntEn then 64 else 0) + (if h.cunit then 128 else 0)) ++
    leBytes 1 h.arg ++ leBytes 2 h.id ++ leBytes 5 h.addr ++ leBytes 2 h.counter ++ leBytes 1 h.ext

/-- LEN of a frame. -/
def ReqHdr.len (h : ReqHdr) : Nat := h.arg + 256 * (h.ext % 16) + 1

/-- POISON of a frame. -/
def ReqHdr.poison (h : ReqHdr) : Bool := h.ext / 16 % 2 == 1

/-- The ARG and EXT fields of a length, with POISON. -/
def lenArg (n : Nat) : Nat := (n - 1) % 256
def lenExt (n : Nat) (poison : Bool) : Nat := (n - 1) / 256 % 16 + (if poison then 16 else 0)

/-! ### Arrival counters (R478) -/

/-- An arrival counter's 64 bits. -/
def State.arrival (s : State) (c : Nat) : Nat := s.getF (fMEM_ARRIVAL_LO_COUNT_LO c) + 2 ^ 32 * s.getF (fMEM_ARRIVAL_HI_COUNT_HI c)

/-- s with an arrival counter holding n modulo 2⁶⁴. -/
def State.setArrival (s : State) (c n : Nat) : State :=
  (s.setF (fMEM_ARRIVAL_LO_COUNT_LO c) n).setF (fMEM_ARRIVAL_HI_COUNT_HI c) (n / 2 ^ 32)

/-! ### Performing requests -/

/-- The first address of a range, at the steps of 4,096 bytes and at its end, that p does not allow. -/
def State.firstBad (s : State) (a n : Nat) (p : Place → Bool) : Option Nat :=
  let at' (i : Nat) : Nat := if i = 0 then a else 4096 * (a / 4096 + i)
  ((List.range ((a + n - 1) / 4096 - a / 4096 + 1)).map at').find? fun x => !p (s.place x)

/-- The bytes a request type may address on this device (R446). -/
def State.rmtMay (s : State) (copy : Bool) (p : Place) : Bool := if copy then s.engineMay p else stationMay p

/-- The error a request meets at its bytes: UNMAPPED, then SPAN_DOWN, with the first failing address (R446, R459). -/
def State.rmtError (s : State) (copy : Bool) (a n : Nat) : Option (Nat × Nat) := match s.firstBad a n (s.rmtMay copy) with
  | some x => some (1, x)
  | none => (s.firstBad a n s.placeReady).map fun x => (2, x)

/-- Write the data of a frame through the home Decks, then count it (R461, R463, R478). -/
def State.rmtWrite (s : State) (h : ReqHdr) (data : List Byte) (cells : Nat) : State :=
  let s1 := (s.access h.addr data.length true true).st h.addr data h.poison
  if h.cntEn then s1.setArrival (h.counter % 16384) (s1.arrival (h.counter % 16384) + (if h.cunit then cells else data.length)) else s1

/-- Whether n names a word of w bytes at an address of a place that both lies in it whole. -/
def aligned (w a : Nat) : Bool := a % w == 0

/-- The new value of an atomic (R456). -/
def atomicNew (op : Nat) (w64 : Bool) (old x cmp : Nat) : Nat :=
  let w := if w64 then 64 else 32
  let o := old % 2 ^ w
  let v := x % 2 ^ w
  match op with
  | 0 => (o + v) % 2 ^ w
  | 1 => if signedOf w v < signedOf w o then v else o
  | 2 => if signedOf w o < signedOf w v then v else o
  | 3 => min o v
  | 4 => max o v
  | 5 => if o = cmp % 2 ^ w then v else o
  | _ => toF32 ((ofF32 o).add (ofF32 v))

/-- Bring a line into its span's combining buffer of 256 lines, the least recently used one going back to the Deck (R462). -/
def State.combLine (s : State) (span line : Nat) : State :=
  if s.rmt.comb.any (·.line == line) then s.touchComb line
  else
    let mine := s.rmt.comb.filter (·.span == span)
    let out := if 256 ≤ mine.length then mine.head? else none
    let kept := match out with
      | some v => dropFirst (·.line == v.line) s.rmt.comb
      | none => s.rmt.comb
    let s1 := { s with rmt := { s.rmt with comb := kept ++ [⟨span, line, s.time.nowNs⟩] } }
    match out with
    | some v => if v.line * 256 < 0x8000000000 then s1.lineAccess span (v.line * 256 % 0x1000000000 / 256) true true else s1
    | none => s1

/-- Perform an atomic at address a: the old value and whether the word is poisoned (R456, R462, R463). -/
def State.rmtAtomic (s : State) (a op : Nat) (w64 : Bool) (x cmp : Nat) : State × Nat × Bool :=
  let n := if w64 then 8 else 4
  let p := s.place a
  let s1 := if s.isSet fMEM_RMT_CFG_COMBINE_EN then
      (match s.placeKey p, homeSpan p with
        | some k, some sp =>
          let fresh := !s.rmt.comb.any (·.line == k / 256)
          (if fresh then s.access a n false true else s).combLine sp (k / 256)
        | _, _ => s)
    else (s.access a n false true).access a n true true
  if s1.poisoned a n then (s1.drew, leNat (s1.rd a n), true)
  else
    let old := s1.ldNat a n
    (s1.st a (leBytes n (atomicNew op w64 old x cmp)), old, false)

/-! ### Frames delivered to the device -/

/-- The oldest delivered frame of a type from a source, and the state without it. -/
def State.takeFrame (s : State) (typ src : Nat) : Option (Frame × State) :=
  let p (f : Frame) : Bool := f.typ == typ && f.src == src
  match s.router.delivered.find? p with
  | some f => some (f, s.setRouter { s.router with delivered := dropFirst p s.router.delivered })
  | none => none

/-- Answer a requester on class P (R458). -/
def State.respond (s : State) (dst typ : Nat) (body : List Byte) : State := s.sendFrame dst 3 typ (cut64 body)

/-- Answer with an ERROR_RSP (R458, R459). -/
def State.respondError (s : State) (f : Frame) (h : ReqHdr) (code bytes addr : Nat) : State :=
  (s.bumpSat fMEM_RMT_ERRORS_ERR_SENT).respond f.src 0x0E
    (leBytes 2 h.id ++ leBytes 1 code ++ leBytes 1 (f.typ % 32) ++ leBytes 4 bytes ++ leBytes 5 addr)

/-- Where a step cell stands with the steps this device holds (R448). -/
inductive StepMatch where
  | run (slot : Nat)
  | stale
  | notRunning
  deriving DecidableEq, Repr

/-- The step a cell belongs to: performed in RUNNING or PREPARED under the same attempt, stale under another attempt, else not running. -/
def State.matchStep (s : State) (slice seq16 attempt : Nat) : StepMatch :=
  let mine := s.steps.slots.filter fun e => e.2.slice == slice && e.2.seq % 65536 == seq16
  match mine.find? fun e => e.2.attempt == attempt && (e.2.phase == .running || e.2.phase == .prepared) with
  | some e => .run e.1
  | none => if mine.any fun e => e.2.attempt != attempt then .stale else .notRunning

/-- Whether the reserved fields of a header are 0 (R459); `atomic` reads ARG and EXT as an ATOMIC frame has them. -/
def ReqHdr.clean (h : ReqHdr) (atomic : Bool) : Bool :=
  !h.rsv && decide (h.counter < 16384) && decide (h.ext < 32) && (!atomic || (h.ext % 16 == 0 && decide (h.arg < 64)))

/-- The common frame of a target's receive commands: take the frame, match its step, check its fields and its bytes, and perform it, or answer with the error. `n` is
the length it concerns, `bad` whether it is MALFORMED. -/
def State.rmtServe (s : State) (typ src : Nat) (copy : Bool) (n : ReqHdr → Nat) (bad : Frame → ReqHdr → Bool)
    (perform : State → Nat → Frame → ReqHdr → State) : State :=
  match s.takeFrame typ src with
  | none => s
  | some (f, s1) =>
    let h := hdrOf f.body
    match s1.matchStep h.slice h.seq h.attempt with
    | .stale => s1.bumpSat fMEM_RMT_DROPS_STALE
    | .notRunning => s1.respondError f h 3 (n h) h.addr
    | .run slot =>
      if bad f h then s1.respondError f h 4 (n h) h.addr
      else match s1.rmtError copy h.addr (n h) with
        | some (code, a) => s1.respondError f h code (n h) a
        | none => perform s1 slot f h

/-- A target performs a remote read and answers with RD_RSP (R458, R461, R463); `hits` are the ECC events of the bytes it reads. -/
def execRdReqReceive (src : Endpoint) (hits : List EccHit) (s : State) : Host.Outcome State Fault Refusal :=
  .next (s.rmtServe 6 src.toNat false ReqHdr.len (fun _ h => !h.clean false) fun s1 slot f h =>
    let s2 := (s1.access h.addr h.len false true).ecc slot h.addr h.len hits
    let body := leBytes 2 h.id ++ leBytes 2 (h.len - 1) ++ leBytes 1 (s2.poisoned h.addr h.len).toNat ++ [0, 0, 0] ++ s2.rd h.addr h.len
    (s2.drew).respond f.src 9 body)

/-- A target performs a WR frame, counts it, and acknowledges it when asked (R458, R461, R478). -/
def execWrReceive (src : Endpoint) (s : State) : Host.Outcome State Fault Refusal :=
  .next (s.rmtServe 7 src.toNat false ReqHdr.len (fun f h => !h.clean false || decide (f.body.length < 16 + h.len)) fun s1 _ f h =>
    let s2 := s1.rmtWrite h (byteField f.body 16 h.len) (ceilDiv (16 + h.len) 64)
    if h.ackReq then s2.respond f.src 0x0A (leBytes 2 h.id ++ [0, 0] ++ leBytes 4 h.len) else s2)

/-- Bytes of an atomic's word. -/
def ReqHdr.word (h : ReqHdr) : Nat := if h.arg / 16 % 2 = 1 then 8 else 4

/-- A target performs an atomic and returns the old value (R456, R458, R463). -/
def execAtomicReceive (src : Endpoint) (s : State) : Host.Outcome State Fault Refusal :=
  .next (s.rmtServe 8 src.toNat false ReqHdr.word
    (fun _ h => !h.clean true || decide (7 ≤ h.arg % 16) || (h.arg % 16 == 6 && h.word == 8) || !aligned h.word h.addr)
    fun s1 _ f h =>
      let r := s1.rmtAtomic h.addr (h.arg % 16) (h.word == 8) (recNat f.body 16 8) (recNat f.body 24 8)
      r.1.respond f.src 0x0B (leBytes 2 h.id ++ leBytes 1 r.2.2.toNat ++ leBytes 5 0 ++ leBytes 8 r.2.1))

/-- Acknowledge COPY data to a source. -/
def State.ackCopy (s : State) (dst id bytes : Nat) : State := s.respond dst 0x0A (leBytes 2 id ++ [0, 0] ++ leBytes 4 bytes)

/-- A target writes COPY data and adds its bytes to the acknowledgement table; with the table full it acknowledges the frame by itself (R466). -/
def execCopyReceive (src : Endpoint) (s : State) : Host.Outcome State Fault Refusal :=
  .next (s.rmtServe 0x0C src.toNat true ReqHdr.len (fun f h => !h.clean false || decide (f.body.length < 16 + h.len)) fun s1 _ f h =>
    let s2 := s1.rmtWrite h (byteField f.body 16 h.len) (ceilDiv (16 + h.len) 64)
    let mine (e : AckEntry) : Bool := e.src == f.src && e.id == h.id
    if s2.rmt.acks.any mine then
      { s2 with rmt := { s2.rmt with acks := mapFirst mine (fun e => { e with bytes := e.bytes + h.len }) s2.rmt.acks } }
    else if s2.rmt.acks.length < 1024 then
      { s2 with rmt := { s2.rmt with acks := s2.rmt.acks ++ [⟨f.src, h.id, h.len, s2.time.nowNs⟩] } }
    else s2.ackCopy f.src h.id h.len)

/-- An acknowledgement entry that holds 16 KiB, or is 500 ns old, is sent as one WR_ACK and cleared (R466). -/
def execCopyAckFlush (src : Endpoint) (reqId : Half) (s : State) : Host.Outcome State Fault Refusal :=
  let mine (e : AckEntry) : Bool := e.src == src.toNat && e.id == reqId.toNat
  .next (match s.rmt.acks.find? mine with
    | some e =>
      if 16384 ≤ e.bytes ∨ e.since + 500 ≤ s.time.nowNs then
        { s with rmt := { s.rmt with acks := dropFirst mine s.rmt.acks } }.ackCopy e.src e.id e.bytes
      else s
    | none => s)

/-! ### The combining buffer -/

/-- Write a combining-buffer line back to the Deck and free it. -/
def State.flushComb (s : State) (c : CombLine) : State :=
  let s1 := { s with rmt := { s.rmt with comb := dropFirst (·.line == c.line) s.rmt.comb } }
  if c.line * 256 < 0x8000000000 then s1.lineAccess c.span (c.line * 256 % 0x1000000000 / 256) true true else s1

/-- A combining-buffer line idle for 1 µs goes back to the Deck (R462): the least recently used one of the span. -/
def execCombineLineIdle (span : SpanIx) (s : State) : Host.Outcome State Fault Refusal :=
  .next (match s.rmt.comb.find? (·.span == span.val) with
    | some c => if c.usedAt + 1000 ≤ s.time.nowNs then s.flushComb c else s
    | none => s)

/-- The Deck writeback of a span that is about to be reset is complete: its combining buffer and its dirty lines are in the stack, and once the reset's last span is
written back, each span enters the reset with its own (R44, R255, R462). -/
def execSpanResetEnter (span : SpanIx) (s : State) : Host.Outcome State Fault Refusal :=
  .next (match s.faults.resets.find? (fun r => r.awaitWb.contains span.val) with
    | none => s
    | some r =>
      let s1 := (s.rmt.comb.filter (·.span == span.val)).foldl State.flushComb s
      let dirty := ((s1.span span.val).cache).flatMap fun e => e.2.filter (·.dirty)
      let s2 := dirty.foldl (fun st c => st.serve span.val (c.line * 256)) s1
      let run (x : ResetRun) : Bool := x.awaitWb.contains span.val
      let s3 := s2.setFaults { s2.faults with resets := mapFirst run (fun x =>
        { x with awaitWb := x.awaitWb.filter (· != span.val), entered := (x.awaitWb.filter (· != span.val)).isEmpty }) s2.faults.resets }
      (s3.enterSpan span.val r.level r.hbmFault).showReset)

end Sys2Proof.Machine
end

