-- ==== Sys2Proof/Machine/Remote.lean ====
section
/-! DEFINITION. The requester's side of remote memory: global addresses and windows (R441–R445), the SEND and RECEIVE ops (R451–R455, R464–R467, R476, R477),
the load/atomic engines (R450) and the responses (R458–R460). -/

namespace Sys2Proof.Machine

open Sys2Proof

/-- The first SEND and RECEIVE instances of a core (R66, R67). -/
def instSend : Nat := 0xB0
def instReceive : Nat := 0xC0

def State.setRmt (s : State) (r : RmtSt) : State := { s with rmt := r }

/-! ### Global addresses and windows -/

/-- The rank and the offset of a global address under a slice's mode; none where R441 makes it an OPERAND_MISMATCH. -/
def State.gAddr (s : State) (slice g : Nat) : Option (Nat × Nat) :=
  let last := s.sliceRanks slice - 1
  if s.sliceModeT slice then
    let r := recNat (s.sliceEntry slice) (16 + 2 * (g / 2 ^ 40 % 8)) 2
    if g / 2 ^ 43 = 0 ∧ r ≠ 0xFFFF ∧ r ≤ last then some (r, g % 2 ^ 40) else none
  else if g / 2 ^ 52 = 0 ∧ g / 2 ^ 40 ≤ last then some (g / 2 ^ 40, g % 2 ^ 40)
  else none

/-- The permission bits of a window entry's FLAGS (R443). -/
def permRd : Nat := 2
def permWr : Nat := 3
def permAt : Nat := 4

/-- Whether an entry of the step's window set covers a request (R444). -/
def State.windowOk (s : State) (slice : Nat) (byEp : Bool) (tgt off n perm : Nat) : Bool :=
  (List.range 512).any fun i =>
    let fl := s.getF (fMEM_WIN0_FLAGS i)
    fl % 2 == 1 && decide (fl / 2 % 2 = byEp.toNat) && fl / 2 ^ perm % 2 == 1 && s.getF (fMEM_WIN0_SET i) % 16 == s.sliceWset slice &&
      decide (s.getF (fMEM_WIN1_TGT_LO i) ≤ tgt) && decide (tgt ≤ s.getF (fMEM_WIN2_TGT_HI i)) &&
      decide (4096 * (s.getF (fMEM_WIN4_OFF_LO i)) + 2 ^ 32 * (s.getF (fMEM_WIN5_OFF_LO_HI i)) ≤ off) &&
      decide (off + n ≤ 4096 * (s.getF (fMEM_WIN6_OFF_HI i)) + 2 ^ 32 * (s.getF (fMEM_WIN7_OFF_HI_HI i)))

/-- A request that no window allows: nothing is sent for it, and the step aborts with WINDOW_FAULT (R444). -/
def State.windowFault (s : State) (x : OpCtx) (rank off : Nat) : State :=
  if x.step.phase = .running then (s.bumpSat fMEM_RMT_ERRORS_WINDOW_FAULTS).opFault x 0x0C rank off else s

/-- The fault of an error met at the target, or by a copy engine at its source (R460). -/
def State.remoteError (s : State) (slot core inst code addr : Nat) : State :=
  s.stepFault slot 0x0E { unitKind := 6, unitIx := core * 256 + inst, arg0 := code, arg1 := addr }

/-! ### Results in order -/

/-- The INT32 tile of one value that acknowledge, done and fence tiles are (R452, R467, R477). -/
def doneTile (r : Nat) : Tile := { rows := 1, cols := 1, format := 0x0B, layout := 0, payload := leBytes 4 (r + 1) }

/-- Give to the outbox every result of an instance that is complete and first in order; at most `fuel`. -/
def State.releaseRes (s : State) (slot core inst : Nat) : Nat → State
  | 0 => s
  | f + 1 =>
    let mine (r : RmtRes) : Bool := r.slot == slot && r.core == core && r.inst == inst
    match s.rmt.results.find? mine with
    | none => s
    | some r =>
      if r.left ≠ 0 then s
      else
        let s1 := (s.setRmt { s.rmt with results := dropFirst mine s.rmt.results }).modInst slot core inst fun v => { v with outbox := v.outbox ++ [r.out] }
        let s2 := match r.opEnd, s1.step? slot with
          | some e, some t => s1.traceInst t core inst r.out.node 0x03 e.1 e.2
          | _, _ => s1
        s2.releaseRes slot core inst f

/-- Release what can be released of an instance's results. -/
def State.release (s : State) (slot core inst : Nat) : State := s.releaseRes slot core inst (s.rmt.results.length + 1)

/-- One part of a result has come: its bytes at their place and POISON; then what is complete is released. -/
def State.resPart (s : State) (res : Option Nat) (off : Nat) (bytes : List Byte) (poison : Bool) : State := match res with
  | none => s
  | some n => match s.rmt.results.find? (·.no == n) with
    | none => s
    | some r =>
      let pay := r.out.tile.payload.take off ++ bytes ++ r.out.tile.payload.drop (off + bytes.length)
      let r' := { r with left := r.left - 1, out := { r.out with tile := { r.out.tile with payload := pay, poison := r.out.tile.poison || poison } } }
      (s.setRmt { s.rmt with results := mapFirst (·.no == n) (fun _ => r') s.rmt.results }).release r.slot r.core r.inst

/-- The repeat of an op ends its issue: with an output queue its tile is awaited in `parts` parts; without, nothing is. The second part is the result's number. -/
def State.awaitRes (s : State) (x : OpCtx) (tile : Tile) (parts : Nat) : State × Option Nat :=
  if opOut x.op = noQ then (s, none)
  else
    let no := s.rmt.nextRes
    let out : OutTile := { q := opOut x.op, tile := { tile with last := s.isLastTile x }, owners := x.owners tile.rows, node := opNode x.op, rep := x.run.rep }
    let r : RmtRes := { no := no, slot := x.slot, core := x.core, inst := x.inst, out := out, left := parts,
                        opEnd := if x.lastAll then some (x.opIx, x.repNo + 1) else none }
    (s.setRmt { s.rmt with results := s.rmt.results ++ [r], nextRes := no + 1 }, some no)

/-- The repeat's issue is over: the instance goes on, and an op with no output queue has ended with its last repeat. -/
def State.endIssue (s : State) (x : OpCtx) : State :=
  let s1 := if opOut x.op = noQ then s.endRepeat x else s.nextRepeat x
  s1.release x.slot x.core x.inst

/-- Whether an instance must wait before it runs on: a request of it awaits an engine entry, or an op before this one still owes tiles (R68, R450). -/
def State.rmtBusy (s : State) (slot core inst : Nat) : Bool :=
  (s.rmt.waiting.any fun w => w.req.slot == slot && w.req.core == core && w.req.inst == inst) ||
  (match s.active slot core inst with
    | some x => !x.run.started && s.rmt.results.any fun r => r.slot == slot && r.core == core && r.inst == inst
    | none => false)

/-- One repeat of an op of SEND or RECEIVE. -/
def State.runRmt (s : State) (slot core inst : Nat) (known : List Nat) (code : Nat) (ok : OpCtx → Bool) (body : State → OpCtx → State) : State :=
  if s.rmtBusy slot core inst then s else s.runOp slot core inst known code ok body

/-! ### Requests and engines (R450) -/

/-- A REQ_ID not outstanding, the first from `id` on; `fuel` is one more than the ids in use. -/
def freeId (used : List Nat) : Nat → Nat → Nat
  | 0, id => id % 65536
  | f + 1, id => if used.contains (id % 65536) then freeId used f (id + 1) else id % 65536

/-- The REQ_IDs in use. -/
def RmtSt.ids (r : RmtSt) : List Nat := r.reqs.map (·.id) ++ r.copies.map (·.id)

/-- Take a REQ_ID. -/
def State.takeId (s : State) : State × Nat :=
  let id := freeId s.rmt.ids (s.rmt.ids.length + 1) s.rmt.nextId
  (s.setRmt { s.rmt with nextId := (id + 1) % 65536 }, id)

/-- A frame's body with its REQ_ID. -/
def withId (id : Nat) (b : List Byte) : List Byte := b.take 6 ++ leBytes 2 id ++ b.drop 8

/-- Whether a span's engine has an entry free. -/
def State.engineFree (s : State) (span : Nat) : Bool := decide ((s.rmt.reqs.filter (·.span == span)).length < 512)

/-- Send a request's frames on class Q and keep it outstanding. -/
def State.sendReq (s : State) (w : RmtWait) : State :=
  let (s1, id) := s.takeId
  let s2 := w.frames.foldl (fun st b => st.sendFrame w.req.dst 2 w.req.kind (cut64 (withId id b))) s1
  let s3 := s2.setRmt { s2.rmt with reqs := s2.rmt.reqs ++ [{ w.req with id := id, sentAt := s.time.nowNs }] }
  s3.progress w.req.slot w.req.core w.req.inst

/-- Issue a request, or have it wait behind those that wait for the same engine. -/
def State.issue (s : State) (w : RmtWait) : State :=
  if s.engineFree w.req.span && !s.rmt.waiting.any (·.req.span == w.req.span) then s.sendReq w
  else s.setRmt { s.rmt with waiting := s.rmt.waiting ++ [w] }

/-- A request that waits for an entry of its engine issues when one is free (R450). -/
def execLoadAtomicEngineSlot (span : SpanIx) (s : State) : Host.Outcome State Fault Refusal :=
  .next (match s.rmt.waiting.find? (·.req.span == span.val) with
    | some w =>
      if s.engineFree span.val then (s.setRmt { s.rmt with waiting := dropFirst (·.req.span == span.val) s.rmt.waiting }).sendReq w else s
    | none => s)

/-- The header of a request of an op to an offset. -/
def OpCtx.hdr (x : OpCtx) (addr arg ext : Nat) : ReqHdr :=
  { slice := x.step.slice, seq := x.step.seq % 65536, attempt := x.step.attempt, arg := arg, addr := addr, ext := ext }

/-- A request of an op, not yet issued. -/
def OpCtx.req (x : OpCtx) (kind dst off len : Nat) (res : Option Nat) : RmtReq :=
  { kind := kind, span := x.core / 16, slot := x.slot, core := x.core, inst := x.inst, dst := dst, off := off, len := len, res := res }

/-- n bytes cut at 4,096: (offset, length) of each piece. -/
def cut4k (n : Nat) : List (Nat × Nat) := (List.range (ceilDiv n 4096)).map fun i => (4096 * i, min 4096 (n - 4096 * i))

/-! ### PUT (R452) -/

/-- SEND knows OPCODE 0x01–0x06, RECEIVE 0x01 and 0x02 (R451, R468). -/
def sendKnown : List Nat := [1, 2, 3, 4, 5, 6]
def receiveKnown : List Nat := [1, 2]

/-- Whether a PUT op keeps its layout. -/
def putOk (x : OpCtx) : Bool :=
  let op := x.op
  opInA op != noQ && opInB op == noQ && opF op 0 1 0 == 0 && opF op 1 31 0 == 0 && opF op 3 63 40 == 0

/-- The address a piece of a repeat's transfer lies at, `o` being the offset of the op's global address (R452, R453). -/
def OpCtx.rmtAt (x : OpCtx) (o : Nat) (p : Nat × Nat) : Nat := ((o + x.repNo * opF x.op 3 39 0) % 2 ^ 40 + p.1) % 2 ^ 40

/-- The header of the WR frame that carries a piece of an n-byte payload; the last one has ACK_REQ (R452). -/
def OpCtx.putHdr (x : OpCtx) (o n : Nat) (poison : Bool) (p : Nat × Nat) : ReqHdr :=
  { x.hdr (x.rmtAt o p) (lenArg p.2) (lenExt p.2 poison) with
    ackReq := p.1 + p.2 == n, cntEn := opF x.op 1 47 47 == 1, cunit := opF x.op 1 46 46 == 1, counter := opF x.op 1 45 32 }

/-- The bytes of a piece. -/
def pieceOf (b : List Byte) (p : Nat × Nat) : List Byte := (b.drop p.1).take p.2

/-- Whether a window lets a piece pass. -/
def State.piecePasses (s : State) (x : OpCtx) (rank o perm : Nat) (p : Nat × Nat) : Bool := s.windowOk x.step.slice false rank (x.rmtAt o p) p.2 perm

/-- Frames that pass and are performed on this device, up to the first error. -/
def State.putLocal (s : State) (x : OpCtx) (o : Nat) (t : Tile) (good : List (Nat × Nat)) : State × Option (Nat × Nat) :=
  good.foldl (fun (a : State × Option (Nat × Nat)) p => match a.2 with
    | some _ => a
    | none => match a.1.rmtError false (x.rmtAt o p) p.2 with
      | some e => (a.1, some e)
      | none => (a.1.rmtWrite (x.putHdr o t.payload.length t.poison p) (pieceOf t.payload p) (ceilDiv (16 + p.2) 64), none)) (s, none)

/-- The WR frames of a tile. -/
def OpCtx.putFrames (x : OpCtx) (o : Nat) (t : Tile) (ps : List (Nat × Nat)) : List (List Byte) :=
  ps.map fun p => hdrBytes (x.putHdr o t.payload.length t.poison p) ++ pieceOf t.payload p

/-- One repeat of PUT: its tile's payload goes out in WR frames of 4,096 B in ascending order, the last of them with ACK_REQ. -/
def State.putOp (s : State) (x : OpCtx) : State :=
  let op := x.op
  match s.gAddr x.step.slice (opF op 2 63 0) with
  | none => s.opFault x cOperand 0 (opF op 2 63 0)
  | some (rank, o) => match x.head (opInA op) with
    | none => s.stallOn x 1 (opInA op)
    | some t =>
      let pieces := cut4k t.payload.length
      let dst := s.rankEndpoint x.step.slice rank
      if !pieces.all (s.piecePasses x rank o permWr) then
        let good := pieces.takeWhile (s.piecePasses x rank o permWr)
        let s1 := if rank = x.step.rank then (s.putLocal x o t good).1 else (x.putFrames o t good).foldl (fun st b => st.sendFrame dst 2 7 (cut64 b)) s
        s1.windowFault x rank (x.rmtAt o (pieces.getD good.length (0, 0)))
      else if rank = x.step.rank then
        let r := s.putLocal x o t pieces
        match r.2 with
        | some (code, a) => r.1.remoteError x.slot x.core x.inst code a
        | none => ((r.1.endInA x).awaitRes x (doneTile x.repNo) 0).1.endIssue x
      else
        let r := (s.endInA x).awaitRes x (doneTile x.repNo) 1
        (r.1.issue { req := x.req 7 dst 0 (pieces.getLastD (0, 0)).2 r.2, frames := x.putFrames o t pieces }).endIssue x

/-- One repeat of a PUT op. -/
def execPut (slot : StepIx) (core : LCore) (ix : Fin 4) (s : State) : Host.Outcome State Fault Refusal :=
  .next (s.runRmt slot core (instSend + ix) sendKnown 2 putOk State.putOp)

/-! ### GET (R453) -/

/-- Whether a GET op keeps its layout and the sizes of R262 with PITCH 0. -/
def getOk (x : OpCtx) : Bool :=
  let op := x.op
  opInA op == noQ && opInB op == noQ && opOut op != noQ && (elemOf (loadFmt op)).isSome && decide (loadLayout op ≤ 2) && opF op 0 1 0 == 0 &&
    opF op 1 16 16 == 0 && opF op 3 63 40 == 0 && decide (opF op 1 39 29 < 2048) && decide (opF op 1 28 18 < 2048)

/-- The tile of a GET's repeat, its bytes not yet there. -/
def OpCtx.getTile (x : OpCtx) : Tile :=
  { coordC := x.repNo % 65536, rows := loadRows x.op, cols := loadCols x.op, format := loadFmt x.op, layout := loadLayout x.op,
    sparse := opF x.op 1 17 17 == 1, payload := List.replicate (opF x.op 1 15 0 + 1) 0 }

/-- The RD_REQ of a piece. -/
def OpCtx.getWait (x : OpCtx) (dst o : Nat) (res : Option Nat) (p : Nat × Nat) : RmtWait :=
  { req := x.req 6 dst p.1 p.2 res, frames := [hdrBytes (x.hdr (x.rmtAt o p) (lenArg p.2) (lenExt p.2 false))] }

/-- One repeat of GET: RD_REQs of at most 4,096 B in ascending order, whose answers make one tile. -/
def State.getOp (s : State) (x : OpCtx) : State :=
  let op := x.op
  match s.gAddr x.step.slice (opF op 2 63 0) with
  | none => s.opFault x cOperand 0 (opF op 2 63 0)
  | some (rank, o) =>
    let pieces := cut4k (opF op 1 15 0 + 1)
    let dst := s.rankEndpoint x.step.slice rank
    if !pieces.all (s.piecePasses x rank o permRd) then
      let good := pieces.takeWhile (s.piecePasses x rank o permRd)
      (if rank = x.step.rank then s else good.foldl (fun st p => st.issue (x.getWait dst o none p)) s).windowFault x rank
        (x.rmtAt o (pieces.getD good.length (0, 0)))
    else if rank = x.step.rank then
      match (pieces.filterMap fun p => s.rmtError false (x.rmtAt o p) p.2).head? with
      | some (code, a) => s.remoteError x.slot x.core x.inst code a
      | none =>
        let s1 := pieces.foldl (fun st p => st.access (x.rmtAt o p) p.2 false true) s
        let got := pieces.flatMap fun p => s1.rd (x.rmtAt o p) p.2
        ((s1.drew).awaitRes x { x.getTile with payload := got, poison := pieces.any fun p => s1.poisoned (x.rmtAt o p) p.2 } 0).1.endIssue x
    else
      let r := s.awaitRes x x.getTile pieces.length
      (pieces.foldl (fun st p => st.issue (x.getWait dst o r.2 p)) r.1).endIssue x

/-- One repeat of a GET op. -/
def execGet (slot : StepIx) (core : LCore) (ix : Fin 4) (s : State) : Host.Outcome State Fault Refusal :=
  .next (s.runRmt slot core (instReceive + ix) receiveKnown 2 getOk State.getOp)

/-! ### ATOMIC (R454) -/

/-- Whether an ATOMIC op keeps its layout. -/
def atomicOk (x : OpCtx) : Bool :=
  let op := x.op
  opInA op != noQ && opInB op == noQ && opF op 0 1 0 == 0 && opF op 1 42 0 == 0 && opF op 2 63 0 == 0 && opF op 3 63 0 == 0

/-- The 64-bit number in columns c and c + 1 of a request row, low word first. -/
def rowPair (row : List Int) (c : Nat) : Nat := unsignedOf 32 (row.getD c 0) + 2 ^ 32 * unsignedOf 32 (row.getD (c + 1) 0)

/-- One row of an ATOMIC op, in row order: (state, whether a fault has ended the op). -/
def State.atomicRow (s : State) (x : OpCtx) (res : Option Nat) (row : List Int) (i : Nat) : State × Bool :=
  let w64 := opF x.op 1 43 43 == 1
  let n := if w64 then 8 else 4
  let code := opF x.op 1 47 44
  match s.gAddr x.step.slice (rowPair row 0) with
  | none => (s.opFault x cOperand i (rowPair row 0), true)
  | some (rank, o) =>
    if o % n ≠ 0 then (s.opFault x cOperand i (rowPair row 0), true)
    else if !s.windowOk x.step.slice false rank o n permAt then (s.windowFault x rank o, true)
    else
      let hi (v : Nat) : Nat := if w64 then v else v % 2 ^ 32
      if rank = x.step.rank then
        if 7 ≤ code ∨ (code = 6 ∧ w64) then (s.remoteError x.slot x.core x.inst 4 o, true)
        else match s.rmtError false o n with
          | some (c, a) => (s.remoteError x.slot x.core x.inst c a, true)
          | none =>
            let r := s.rmtAtomic o code w64 (rowPair row 2) (rowPair row 4)
            (r.1.resPart res (8 * i) (leBytes 8 r.2.1) r.2.2, false)
      else
        let h := x.hdr o (code + (if w64 then 16 else 0) + (if res.isSome then 32 else 0)) 0
        let body := hdrBytes h ++ leBytes 8 (hi (rowPair row 2)) ++ leBytes 8 (hi (rowPair row 4))
        (s.issue { req := x.req 8 (s.rankEndpoint x.step.slice rank) (8 * i) 8 res, frames := [body] }, false)

/-- The rows of an ATOMIC op, in row order, up to the first fault. -/
def State.atomicRows (s : State) (x : OpCtx) (res : Option Nat) (t : Tile) : State × Bool :=
  (List.range t.rows).foldl (fun (a : State × Bool) i => if a.2 then a else a.1.atomicRow x res (t.ints.getD i []) i) (s, false)

/-- One repeat of ATOMIC. -/
def State.atomicOp (s : State) (x : OpCtx) : State := match x.head (opInA x.op) with
  | none => s.stallOn x 1 (opInA x.op)
  | some t =>
    if t.format ≠ 0x0B ∨ t.layout ≠ 0 ∨ t.cols ≠ 6 then s.opFault x cOperand
    else
      let out : Tile := { rows := t.rows, cols := 2, format := 0x0B, layout := 0, poison := t.poison, payload := List.replicate (8 * t.rows) 0 }
      let r := s.awaitRes x out t.rows
      let done := r.1.atomicRows x r.2 t
      if done.2 then done.1 else (done.1.endInA x).endIssue x

/-- One repeat of an ATOMIC op. -/
def execAtomic (slot : StepIx) (core : LCore) (ix : Fin 4) (s : State) : Host.Outcome State Fault Refusal :=
  .next (s.runRmt slot core (instSend + ix) sendKnown 4 atomicOk State.atomicOp)

/-! ### FENCE and FLAG (R455, R476, R477) -/

/-- Whether an instance still awaits an acknowledgement or an answer. -/
def State.unacked (s : State) (slot core inst : Nat) : Bool :=
  (s.rmt.reqs.any fun r => r.slot == slot && r.core == core && r.inst == inst) ||
  (s.rmt.waiting.any fun w => w.req.slot == slot && w.req.core == core && w.req.inst == inst) ||
  (s.rmt.copies.any fun c => c.slot == slot && c.core == core && c.inst == inst && decide (c.acked < c.total))

/-- Whether a FENCE op keeps its layout. -/
def fenceOk (x : OpCtx) : Bool :=
  let op := x.op
  opInA op == noQ && opInB op == noQ && opF op 0 1 0 == 0 && opF op 1 47 0 == 0 && opF op 2 63 0 == 0 && opF op 3 63 0 == 0

/-- One repeat of FENCE: it completes once everything the instance sent before it is acknowledged or answered. -/
def State.fenceOp (s : State) (x : OpCtx) : State :=
  if s.unacked x.slot x.core x.inst then s else (s.awaitRes x (doneTile x.repNo) 0).1.endIssue x

/-- One repeat of a FENCE op. -/
def execFence (slot : StepIx) (core : LCore) (ix : Fin 4) (s : State) : Host.Outcome State Fault Refusal :=
  .next (s.runRmt slot core (instSend + ix) sendKnown 5 fenceOk State.fenceOp)

/-- Whether a FLAG op keeps its layout. -/
def flagOk (x : OpCtx) : Bool :=
  let op := x.op
  opInA op == noQ && opInB op == noQ && opF op 0 1 0 == 0 && opF op 1 46 0 == 0

/-- One repeat of FLAG: a flagged store, sent once every earlier copy of the instance to that destination is acknowledged. -/
def State.flagOp (s : State) (x : OpCtx) : State :=
  let op := x.op
  let n := if opF op 1 47 47 = 1 then 8 else 4
  match s.gAddr x.step.slice (opF op 2 63 0) with
  | none => s.opFault x cOperand 0 (opF op 2 63 0)
  | some (rank, o) =>
    let dst := s.rankEndpoint x.step.slice rank
    let data := leBytes n (opF op 3 63 0)
    let h := { x.hdr o (lenArg n) (lenExt n false) with ackReq := true }
    if o % n ≠ 0 then s.opFault x cOperand 0 o
    else if s.rmt.copies.any (fun c => c.slot == x.slot && c.core == x.core && c.inst == x.inst && c.dst == dst && decide (c.acked < c.total)) then s
    else if !s.windowOk x.step.slice false rank o n permWr then s.windowFault x rank o
    else if rank = x.step.rank then
      match s.rmtError false o n with
      | some (c, a) => s.remoteError x.slot x.core x.inst c a
      | none => ((s.rmtWrite h data 1).awaitRes x (doneTile x.repNo) 0).1.endIssue x
    else
      let r := s.awaitRes x (doneTile x.repNo) 1
      (r.1.issue { req := x.req 7 dst 0 n r.2, frames := [hdrBytes h ++ data] }).endIssue x

/-- One repeat of a FLAG op. -/
def execFlag (slot : StepIx) (core : LCore) (ix : Fin 4) (s : State) : Host.Outcome State Fault Refusal :=
  .next (s.runRmt slot core (instSend + ix) sendKnown 6 flagOk State.flagOp)

/-! ### COPY (R464–R467) -/

/-- Whether a COPY op keeps its layout. -/
def copyOk (x : OpCtx) : Bool :=
  let op := x.op
  opInB op == noQ && opF op 0 1 0 == 0 && opF op 2 63 40 == 0 && (opF op 1 47 47 == 0 || opF op 3 63 61 == 0)

/-- The first free copy engine of a die. -/
def State.freeEngine (s : State) (die : Nat) : Option Nat :=
  (List.range 16).find? fun e => !s.rmt.copies.any fun c => c.die == die && c.eng == e

/-- The pieces of a copy from `sent` on that 256 KiB of unacknowledged bytes allow: (offset, length). -/
def CopyRun.pieces (c : CopyRun) : List (Nat × Nat) :=
  let step := if c.classS then 48 else 4096
  let room := min (c.total - c.sent) (262144 - (c.sent - c.acked))
  let n := if room = c.total - c.sent then ceilDiv room step else room / step
  (List.range n).map fun i => (c.sent + step * i, min step (c.total - c.sent - step * i))

/-- Send the pieces of a copy, until one ends the step in an error. -/
def State.sendPieces (s : State) (c : CopyRun) (hd : ReqHdr) : List (Nat × Nat) → State
  | [] => s
  | p :: rest =>
    let a := (c.src + p.1) % 2 ^ 40
    let h : ReqHdr := { hd with arg := lenArg p.2, addr := (c.off + p.1) % 2 ^ 40, ext := lenExt p.2 (s.poisoned a p.2) }
    let here := decide (c.dst = s.ownId)
    let bad := match s.rmtError true a p.2 with
      | some e => some e
      | none => if here then s.rmtError true h.addr p.2 else none
    match bad with
    | some (code, b) => s.remoteError c.slot c.core c.inst code b
    | none =>
      let s1 := s.access a p.2 false true
      let s2 := if here then s1.rmtWrite h (s1.rd a p.2) (if c.classS then 1 else ceilDiv (16 + p.2) 64)
        else s1.drew.sendFrame c.dst (if c.classS then 5 else 4) 0x0C (cut64 (hdrBytes h ++ s1.rd a p.2))
      (s2.setRmt { s2.rmt with copies := mapFirst (fun e => e.die == c.die && e.eng == c.eng) (fun e =>
        { e with sent := p.1 + p.2, acked := if here then p.1 + p.2 else e.acked, sentAt := s2.time.nowNs }) s2.rmt.copies }).sendPieces c hd rest

/-- Send what a copy engine may send now (R465). A source byte that the engine may not read, or whose span is not ready, ends the step as an error response does. -/
def State.pumpCopy (s : State) (c : CopyRun) : State := match s.step? c.slot with
  | none => s
  | some t =>
    if s.power.tripped then s
    else s.sendPieces c { slice := t.slice, seq := t.seq % 65536, attempt := t.attempt, cntEn := c.cntEn, cunit := c.cunit, arg := 0, id := c.id, addr := 0
                          counter := c.counter } c.pieces

/-- The copy that an engine takes for a repeat of COPY: n bytes to an endpoint's offset. -/
def OpCtx.copyRun (x : OpCtx) (eng id dst off n now : Nat) (res : Option Nat) : CopyRun :=
  let op := x.op
  { die := x.core / 32, eng := eng, id := id, slot := x.slot, core := x.core, inst := x.inst, dst := dst, src := (opF op 2 39 0 + x.repNo * n) % 2 ^ 40
    off := off, total := n, classS := opF op 1 46 46 == 1, cntEn := opF op 1 45 45 == 1, cunit := opF op 1 44 44 == 1, counter := opF op 1 43 30
    res := res, sentAt := now }

/-- One repeat of COPY: the next free engine of the die takes it. -/
def State.copyOp (s : State) (x : OpCtx) : State :=
  let op := x.op
  let n := opF op 1 29 0 + 1
  let byEp := opF op 1 47 47 == 1
  let ready := opInA op == noQ || (x.head (opInA op)).isSome
  match s.freeEngine (x.core / 32), (if byEp then some (opF op 3 60 40, opF op 3 39 0) else s.gAddr x.step.slice (opF op 3 63 0)) with
  | _, none => s.opFault x cOperand 0 (opF op 3 63 0)
  | none, some _ => s
  | some e, some (tgt, o) =>
    if !ready then s.stallOn x 1 (opInA op)
    else
      let off := (o + x.repNo * n) % 2 ^ 40
      if !s.windowOk x.step.slice byEp tgt off n permWr then s.windowFault x tgt off
      else
        let s0 := if opInA op = noQ then s else s.endInA x
        let r := s0.awaitRes x (doneTile x.repNo) 1
        let i := r.1.takeId
        let c := x.copyRun e i.2 (if byEp then tgt else s.rankEndpoint x.step.slice tgt) off n s.time.nowNs r.2
        ((i.1.setRmt { i.1.rmt with copies := i.1.rmt.copies ++ [c] }).endIssue x).pumpCopy c

/-- One repeat of a COPY op. -/
def execCopy (slot : StepIx) (core : LCore) (ix : Fin 4) (s : State) : Host.Outcome State Fault Refusal :=
  .next (s.runRmt slot core (instSend + ix) sendKnown 3 copyOk State.copyOp)

/-- A copy whose acknowledgements account for every byte is complete: its engine is free and its done tile is due (R467). -/
def execCopyComplete (die : Fin 4) (engine : Fin 16) (s : State) : Host.Outcome State Fault Refusal :=
  let mine (c : CopyRun) : Bool := c.die == die.val && c.eng == engine.val && decide (c.total ≤ c.acked)
  .next (match s.rmt.copies.find? mine with
    | some c => (s.setRmt { s.rmt with copies := dropFirst mine s.rmt.copies }).resPart c.res 0 [] false
    | none => s)

/-! ### Responses (R458–R460) -/

/-- A response that no outstanding request expects (R460). -/
def State.unknownRsp (s : State) : State := s.bumpSat fMEM_RMT_DROPS_UNKNOWN_RSP

/-- The outstanding request that a response answers: its REQ_ID outstanding, its source the endpoint it was sent to, its type the one asked for. -/
def State.reqOf (s : State) (f : Frame) (kind : Nat) : Option RmtReq :=
  s.rmt.reqs.find? fun r => r.id == recNat f.body 0 2 && r.dst == f.src && r.kind == kind

/-- s with a request's entry free. -/
def State.dropReq (s : State) (id : Nat) : State := s.setRmt { s.rmt with reqs := dropFirst (·.id == id) s.rmt.reqs }

/-- A requester takes a response of a type: for an outstanding request `take` runs, and the instance has made progress. -/
def State.takeRsp (s : State) (typ src kind : Nat) (take : State → Frame → RmtReq → State) (other : State → Frame → State) : State :=
  match s.takeFrame typ src with
  | none => s
  | some (f, s1) => match s1.reqOf f kind with
    | some r => take ((s1.dropReq r.id).progress r.slot r.core r.inst) f r
    | none => other s1 f

/-- Read data for an outstanding RD_REQ (R453, R458). -/
def execRdRspReceive (src : Endpoint) (s : State) : Host.Outcome State Fault Refusal :=
  .next (s.takeRsp 9 src.toNat 6 (fun s1 f r => s1.resPart r.res r.off (byteField f.body 8 r.len) (recBits f.body 4 1 0 0 == 1))
    (fun s1 _ => s1.unknownRsp))

/-- Acknowledgement of written bytes: of a write frame with ACK_REQ, or of part of a copy (R452, R455, R458, R465). -/
def execWrAckReceive (src : Endpoint) (s : State) : Host.Outcome State Fault Refusal :=
  .next (s.takeRsp 0x0A src.toNat 7 (fun s1 _ r => s1.resPart r.res 0 [] false)
    (fun s1 f =>
      let mine (c : CopyRun) : Bool := c.id == recNat f.body 0 2 && c.dst == f.src
      match s1.rmt.copies.find? mine with
      | none => s1.unknownRsp
      | some c =>
        let c' := { c with acked := min c.sent (c.acked + recNat f.body 4 4), sentAt := s1.time.nowNs }
        ((s1.setRmt { s1.rmt with copies := mapFirst mine (fun _ => c') s1.rmt.copies }).progress c.slot c.core c.inst).pumpCopy c'))

/-- The old value of an atomic (R454, R458). -/
def execAtomicRspReceive (src : Endpoint) (s : State) : Host.Outcome State Fault Refusal :=
  .next (s.takeRsp 0x0B src.toNat 8 (fun s1 f r => s1.resPart r.res r.off (byteField f.body 8 8) (recBits f.body 2 1 0 0 == 1))
    (fun s1 _ => s1.unknownRsp))

/-- An ERROR_RSP for an outstanding request or copy fails the step with REMOTE_ERROR (R460, R467). -/
def execErrorRspReceive (src : Endpoint) (s : State) : Host.Outcome State Fault Refusal :=
  .next (match s.takeFrame 0x0E src.toNat with
    | none => s
    | some (f, s1) =>
      let id := recNat f.body 0 2
      let code := recNat f.body 2 1
      let addr := recNat f.body 8 5
      match s1.rmt.reqs.find? (fun r => r.id == id && r.dst == f.src), s1.rmt.copies.find? (fun c => c.id == id && c.dst == f.src) with
      | some r, _ => ((s1.dropReq id).bumpSat fMEM_RMT_ERRORS_ERR_RECEIVED).remoteError r.slot r.core r.inst code addr
      | none, some c =>
        ((s1.setRmt { s1.rmt with copies := dropFirst (fun e => e.id == id) s1.rmt.copies }).bumpSat fMEM_RMT_ERRORS_ERR_RECEIVED).remoteError
          c.slot c.core c.inst code addr
      | none, none => s1.unknownRsp)

/-- The response limit in ns; 0 acts as 1 (R489). -/
def State.rmtLimit (s : State) : Nat := 1000 * (max 1 (s.getF fMEM_RMT_CFG_REQ_TIMEOUT_US))

/-- A request without a response for REQ_TIMEOUT_US fails the step with REMOTE_TIMEOUT (R460). -/
def execRemoteTimeout (reqId : Half) (s : State) : Host.Outcome State Fault Refusal :=
  let id := reqId.toNat
  let fail (st : State) (slot core inst dst : Nat) : State :=
    let hit : Bool := match st.step? slot with
      | some t => t.phase == .running
      | none => false
    (if hit then st.bumpSat fMEM_RMT_ERRORS_TIMEOUTS else st).stepFault slot 0x0F { unitKind := 6, unitIx := core * 256 + inst, arg0 := dst }
  .next (match s.rmt.reqs.find? (·.id == id), s.rmt.copies.find? (fun c => c.id == id && decide (c.acked < c.total)) with
    | some r, _ => if r.sentAt + s.rmtLimit ≤ s.time.nowNs then fail (s.dropReq id) r.slot r.core r.inst r.dst else s
    | none, some c =>
      if c.sentAt + s.rmtLimit ≤ s.time.nowNs then
        fail (s.setRmt { s.rmt with copies := dropFirst (fun e => e.id == id) s.rmt.copies }) c.slot c.core c.inst c.dst
      else s
    | none, none => s)

end Sys2Proof.Machine
end

