-- ==== Sys2Proof/Machine/Between.lean ====
section
/-! DEFINITION. Queues between devices (R468–R472), WAIT (R479) and CHECK (R481–R486). -/

namespace Sys2Proof.Machine

open Sys2Proof

/-! ### Sizes on the wire -/

/-- The dot depth a format's packed layout has by itself (R120). -/
def natDepth (fmt : Nat) : Nat := match elemBits fmt with
  | 4 => 8
  | 16 => 2
  | _ => 4

/-- The payload bytes of a tile as its header gives them (R53). -/
def headBytes (t : Tile) : Nat := (t.shape (natDepth t.format)).bytes

/-- Whether a queue's consumer is a CHECK instance, so that its tiles bring a check trailer (R484). -/
def Queue.checked (q : Queue) : Bool := q.consInst / 16 == 0xA

/-- The slot contents of a tile with bits [12:0] of its header as given (R470). -/
def slotContents (t : Tile) (low : Nat) : List Byte := leBytes 16 (leNat (headerBytes t) + low) ++ t.payload

/-- Slot contents read back: bits [12:0] of the header 0, the payload as long as the header says, with a trailer where the consumer checks one. -/
def tileOfSlot (bs : List Byte) (checked : Bool) : Tile :=
  let h := tileOf (bs.take 16) []
  let n := headBytes h + (if checked then 16 else 0)
  { h with payload := byteField bs 16 n }

/-! ### The receiving side -/

/-- Channels that may not be allocated: in use, or freed less than 100 µs ago and not yet released (R468). -/
def RmtSt.busyChans (r : RmtSt) : List Nat := r.rx.flatMap (·.chans) ++ r.freed.map (·.1)

/-- The lowest free channel of 4,096. -/
def State.freeChan (s : State) : Option Nat := (List.range 4096).find? fun c => !s.rmt.busyChans.contains c

/-- Send a QUEUE_CREDIT to the producing device of a queue (R469). -/
def State.sendCredit (s : State) (t : Step) (u : Queue) (chan granted : Nat) (grant : Bool) : State :=
  s.sendFrame (s.rankEndpoint t.slice u.peerRank) 1 5
    [leBytes 2 t.slice ++ leBytes 2 (t.seq % 65536) ++ leBytes 1 (t.attempt % 16 + (if grant then 16 else 0)) ++ [0] ++ leBytes 2 u.peerQueue ++
      leBytes 2 chan ++ leBytes 2 granted]

/-- Replace the receiving side of a queue. -/
def State.setRx (s : State) (r : RxQueue) : State :=
  let mine (e : RxQueue) : Bool := e.slot == r.slot && e.queue == r.queue
  s.setRmt { s.rmt with rx := if s.rmt.rx.any mine then mapFirst mine (fun _ => r) s.rmt.rx else s.rmt.rx ++ [r] }

/-- The receiving side of a queue of a step. -/
def State.rxOf (s : State) (slot q : Nat) : Option RxQueue := s.rmt.rx.find? fun e => e.slot == slot && e.queue == q

/-- The consumer of a queue between devices has released a slot: one more credit is granted (R469). -/
def State.grantMore (s : State) (slot q : Nat) : State := match s.step? slot, s.rxOf slot q with
  | some t, some r => match t.queue? q with
    | some u => (s.setRx { r with granted := r.granted + 1 }).sendCredit t u (r.chans.getLastD 0) (r.granted + 1) false
    | none => s
  | _, _ => s

/-- The pieces of the tile next in TAG order, joined, when all of it has come. -/
def RxQueue.nextTile (r : RxQueue) (u : Queue) : Option Tile := match aget r.parts r.next with
  | none => none
  | some ps =>
    if u.cls = 5 then
      match aget ps 0 with
      | none => none
      | some b0 =>
        let need := ceilDiv (16 + headBytes (tileOf (b0.take 16) []) + (if u.checked then 16 else 0)) 56
        if (List.range need).all fun i => (aget ps i).isSome then
          some (tileOfSlot ((List.range need).flatMap fun i => (aget ps i).getD []) u.checked)
        else none
    else (aget ps 0).map fun b => tileOfSlot b u.checked

/-- Whether a RECEIVE QUEUE op, or a SEND QUEUE op, keeps its layout. -/
def queueRxOk (x : OpCtx) : Bool :=
  let op := x.op
  opInA op == noQ && opInB op == noQ && opOut op != noQ && opF op 0 1 0 == 0 && opF op 1 47 0 == 0 && opF op 2 63 0 == 0 && opF op 3 63 0 == 0
def queueTxOk (x : OpCtx) : Bool :=
  let op := x.op
  opInA op != noQ && opInB op == noQ && opOut op == noQ && opF op 0 1 0 == 0 && opF op 1 47 0 == 0 && opF op 2 63 0 == 0 && opF op 3 63 0 == 0

/-- Give the consumer the tiles that have come whole, in TAG order (R62, R471); the first of them is checked against the local slot size (R63). At most `fuel`. -/
def State.releaseRx (s : State) (slot core inst q : Nat) : Nat → State
  | 0 => s
  | f + 1 => match s.active slot core inst, s.rxOf slot q with
    | some x, some r =>
      if x.atEnd || !x.run.started || opCode x.op != 1 || opOut x.op != q then s
      else match x.step.queue? q with
        | none => s
        | some u => match r.nextTile u with
          | none => s
          | some t =>
            if r.next = 0 ∧ u.emitted = 0 ∧ x.run.outbox.isEmpty ∧ u.slotUnits * 64 < 16 + t.payload.length then
              s.opFault x 0x08 u.peerRank (16 + t.payload.length)
            else
              let s1 := s.setRx { r with next := (r.next + 1) % 65536, parts := adel r.parts r.next }
              ((s1.stage x t (x.owners t.rows) 5).endRepeat x).releaseRx slot core inst q f
    | _, _ => s

/-- Allocate a channel for the op in hand and grant it; with none free the RECEIVE waits, and the wait is counted once (R468). -/
def State.allocChan (s : State) (x : OpCtx) (q : Nat) : State := match x.step.queue? q, s.freeChan with
  | some u, some c =>
    let old := s.rxOf x.slot q
    let g := match old with
      | some r => r.granted
      | none => u.depth
    let r : RxQueue := match old with
      | some r => { r with chans := r.chans ++ [c], core := x.core, inst := x.inst }
      | none => { slot := x.slot, core := x.core, inst := x.inst, queue := q, chans := [c], granted := g }
    let s1 := (s.setRx r).modInst x.slot x.core x.inst fun v => { v with work := aput v.work 0 1 }
    (s1.sendCredit x.step u c g true).progress x.slot x.core x.inst
  | some _, none =>
    if (aget x.run.work 1).isSome then s
    else (s.bumpSat fMEM_RMT_SEQ_CHANNEL_WAITS).modInst x.slot x.core x.inst fun v => { v with work := aput v.work 1 1 }
  | none, _ => s

/-- A RECEIVE QUEUE op: it starts, takes its channel, and takes up what has come. -/
def State.queueRx (s : State) (slot core inst : Nat) : State := match s.active slot core inst with
  | none => s
  | some x =>
    if x.atEnd || s.rmtBusy slot core inst then s
    else if !receiveKnown.contains (opCode x.op) then s.startOp x false
    else if opCode x.op ≠ 1 then s
    else
      let s1 := s.startOp x (queueRxOk x)
      match s1.active slot core inst with
      | none => s1
      | some y =>
        let s2 := if (aget y.run.work 0).isSome then s1 else s1.allocChan y (opOut y.op)
        s2.releaseRx slot core inst (opOut y.op) 64

/-! ### The sending side -/

/-- The sending side of a queue of a step. -/
def State.txOf (s : State) (slot q : Nat) : Option TxQueue := s.rmt.tx.find? fun e => e.slot == slot && e.queue == q

/-- Send a tile's slot contents on the queue's class: one frame on K and B, cells of 56 bytes on S (R470, R471). -/
def State.sendTile (s : State) (t : Step) (u : Queue) (chan : Nat) (tile : Tile) : State :=
  let dst := s.rankEndpoint t.slice u.peerRank
  let tagBits := chan % 4096 + 4096 * (t.attempt % 2)
  if u.cls = 5 then
    let bs := slotContents tile 0
    (List.range (ceilDiv bs.length 56)).foldl (fun st i =>
      st.sendFrame dst 5 4 [leBytes 8 (tagBits + 2 ^ 16 * tile.tag + 2 ^ 32 * i) ++ (bs.drop (56 * i)).take 56]) s
  else s.sendFrame dst u.cls 4 (cut64 (slotContents tile tagBits))

/-- One repeat of a SEND QUEUE op: a tile goes out while fewer have been sent than granted (R468). -/
def State.queueTx (s : State) (x : OpCtx) : State :=
  let q := opInA x.op
  match x.step.queue? q, s.txOf x.slot q with
  | some u, some w =>
    if w.sent < w.granted then
      match x.head q with
      | none => s.stallOn x 1 q
      | some tile =>
        let s1 := s.setRmt { s.rmt with tx := mapFirst (fun e => e.slot == x.slot && e.queue == q) (fun e => { e with sent := e.sent + 1 }) s.rmt.tx }
        ((s1.sendTile x.step u w.chan tile).endInA x).endRepeat x
    else s.stallOn x 2 q
  | some _, none => s.stallOn x 2 q
  | none, _ => s

/-- A QUEUE op of SEND or RECEIVE instance `ix`. -/
def execQueue (slot : StepIx) (core : LCore) (receive : Bool) (ix : Fin 4) (s : State) : Host.Outcome State Fault Refusal :=
  .next (if receive then s.queueRx slot core (instReceive + ix) else s.runRmt slot core (instSend + ix) sendKnown 1 queueTxOk State.queueTx)

/-- A SEND takes a QUEUE_CREDIT for its own running step, attempt and queue, and discards every other (R469). -/
def execQueueCreditReceive (src : Endpoint) (s : State) : Host.Outcome State Fault Refusal :=
  .next (match s.takeFrame 5 src.toNat with
    | none => s
    | some (f, s1) =>
      let b := f.body
      let q := recBits b 6 2 11 0
      let chan := recBits b 8 2 11 0
      let cr := recNat b 10 2
      match s1.steps.slots.find? (fun e => e.2.phase == .running && e.2.slice == recNat b 0 2 && e.2.seq % 65536 == recNat b 2 2 &&
          e.2.attempt == recBits b 4 1 3 0) with
      | none => s1
      | some (i, t) => match t.queue? q with
        | none => s1
        | some u =>
          if u.kind ≠ 2 ∨ u.consInst / 16 ≠ 0xB then s1
          else
            let s2 := match s1.txOf i q with
              | some w =>
                let w' : TxQueue := { w with granted := w.granted + (cr + 65536 - w.granted % 65536) % 65536, chan := if recBits b 4 1 4 4 = 1 then chan else w.chan }
                s1.setRmt { s1.rmt with tx := mapFirst (fun (e : TxQueue) => e.slot == i && e.queue == q) (fun _ => w') s1.rmt.tx }
              | none =>
                if recBits b 4 1 4 4 = 1 then s1.setRmt { s1.rmt with tx := s1.rmt.tx ++ [(⟨i, q, chan, cr, 0⟩ : TxQueue)] } else s1
            s2.progress i u.consCore u.consInst)

/-- RECEIVE takes a QUEUE cell or frame for an allocated channel of a running step from the right endpoint and attempt, or discards it (R471, R472). -/
def execQueueCellReceive (src : Endpoint) (s : State) : Host.Outcome State Fault Refusal :=
  .next (match s.takeFrame 4 src.toNat with
    | none => s
    | some (f, s1) =>
      let lowBits := if f.cls = 5 then recNat f.body 0 8 else recBits f.body 0 16 12 0
      let chan := lowBits % 4096
      let att := lowBits / 4096 % 2
      let stale := s1.bumpSat fMEM_RMT_DROPS_STALE
      match s1.rmt.rx.find? (fun r => r.chans.contains chan) with
      | none => stale
      | some r => match s1.step? r.slot with
        | none => stale
        | some t => match t.queue? r.queue with
          | none => stale
          | some u =>
            if t.phase ≠ .running ∨ s1.rankEndpoint t.slice u.peerRank ≠ f.src ∨ t.attempt % 2 ≠ att then stale
            else
              let tag := if f.cls = 5 then lowBits / 2 ^ 16 % 65536 else recBits f.body 0 16 95 80
              let ix := if f.cls = 5 then lowBits / 2 ^ 32 % 2048 else 0
              let bytes := if f.cls = 5 then byteField f.body 8 56 else f.body
              let s2 := s1.setRx { r with parts := aput r.parts tag (aput ((aget r.parts tag).getD []) ix bytes) }
              (s2.progress r.slot r.core r.inst).releaseRx r.slot r.core r.inst r.queue 64)

/-- A channel freed 100 µs ago becomes allocatable again (R468). -/
def execQueueChannelFree (chan : BitVec 12) (s : State) : Host.Outcome State Fault Refusal :=
  .next (s.setRmt { s.rmt with freed := s.rmt.freed.filter fun e => !(e.1 == chan.toNat && decide (e.2 + 100000 ≤ s.time.nowNs)) })

/-! ### WAIT (R479) -/

/-- The first WAIT and CHECK instances of a core. -/
def instWait : Nat := 0xE0
def instCheck : Nat := 0xA0

/-- Whether a WAIT_GE op keeps its layout. -/
def waitOk (x : OpCtx) : Bool :=
  let op := x.op
  opInA op == noQ && opInB op == noQ && opF op 0 1 0 == 0 && opF op 1 46 46 == 0 && opF op 1 31 0 == 0 && opF op 3 63 0 == 0

/-- One repeat of WAIT_GE when its counter has reached TARGET. -/
def State.waitDone (s : State) (x : OpCtx) : State :=
  let op := x.op
  let c := opF op 1 45 32
  let tgt := opF op 2 63 0
  let s1 := if opF op 1 47 47 = 1 then s.setArrival c (s.arrival c - tgt) else s
  (s1.stage x (doneTile x.repNo) (x.owners 1)).endRepeat x

/-- A WAIT_GE op waits on its counter: it starts, and stalls while the counter is below TARGET (R60, R479). -/
def execWaitGe (slot : StepIx) (core : LCore) (ix : Fin 2) (s : State) : Host.Outcome State Fault Refusal :=
  .next (s.runOp slot core (instWait + ix) [1] 1 waitOk fun s1 x =>
    let c := opF x.op 1 45 32
    if s1.arrival c < opF x.op 2 63 0 then s1.stallOn x 3 c else s1)

/-- The counter has reached TARGET: the repeat subtracts it under CONSUME and emits its tile (R479). -/
def execWaitGeSatisfied (slot : StepIx) (core : LCore) (ix : Fin 2) (s : State) : Host.Outcome State Fault Refusal :=
  .next (s.runOp slot core (instWait + ix) [1] 1 waitOk fun s1 x =>
    if s1.arrival (opF x.op 1 45 32) < opF x.op 2 63 0 then s1 else s1.waitDone x)

/-! ### CHECK (R481–R486) -/

/-- Preset k as the registers hold it (R481, R492). -/
def State.preset (s : State) (k : Nat) : Preset :=
  { width := s.getF (fCHK_CFG_WIDTH k), poly := s.getF (fCHK_POLY_LO_W k) + 2 ^ 32 * s.getF (fCHK_POLY_HI_W k)
    init := s.getF (fCHK_INIT_LO_W k) + 2 ^ 32 * s.getF (fCHK_INIT_HI_W k), refin := s.isSet (fCHK_CFG_REFIN k), refout := s.isSet (fCHK_CFG_REFOUT k)
    xorout := s.getF (fCHK_XOROUT_LO_W k) + 2 ^ 32 * s.getF (fCHK_XOROUT_HI_W k) }

/-- Fields of a CHECK op. -/
def chkPreset (op : List Byte) : Nat := opF op 1 47 44
def chkPeer (op : List Byte) : Nat := opF op 1 43 28

/-- Whether a CHECK op keeps its layout, its peer among the ranks. -/
def checkOk (x : OpCtx) : Bool :=
  let op := x.op
  opInA op != noQ && opInB op == noQ && opOut op != noQ && opF op 0 1 0 == 0 && opF op 1 27 0 == 0 && opF op 2 63 0 == 0 && opF op 3 63 0 == 0 &&
    decide (chkPeer op < x.step.ranks)

/-- The index in the step's list of the stream an op processes (R483). -/
def OpCtx.chkStream (x : OpCtx) : Nat := if opPerStream x.op then x.run.streamIx else 0

/-- The alive counter of a (PEER_RANK, stream) pair of an instance: none at a 257th pair (R485). -/
def State.aliveOf (s : State) (x : OpCtx) (id : Nat) : Option Nat :=
  let mine (e : (Nat × Nat × Nat) × (Nat × Nat) × Nat) : Bool := e.1 == (x.slot, x.core, x.inst)
  match s.rmt.alive.find? fun e => mine e && e.2.1 == (chkPeer x.op, id) with
  | some e => some e.2.2
  | none => if (s.rmt.alive.filter mine).length < 256 then some (recNat (s.ctx x.slot x.chkStream) 4 2) else none

/-- s with the alive counter of a pair holding v. -/
def State.setAlive (s : State) (x : OpCtx) (id v : Nat) : State :=
  let pick (e : (Nat × Nat × Nat) × (Nat × Nat) × Nat) : Bool := e.1 == (x.slot, x.core, x.inst) && e.2.1 == (chkPeer x.op, id)
  let new := ((x.slot, x.core, x.inst), (chkPeer x.op, id), v % 65536)
  s.setRmt { s.rmt with alive := if s.rmt.alive.any pick then mapFirst pick (fun _ => new) s.rmt.alive else s.rmt.alive ++ [new] }

/-- Trailer bytes 8–15 (R484). -/
def trailerTail (alive id seq attempt : Nat) : List Byte := leBytes 2 alive ++ leBytes 2 id ++ leBytes 2 (seq % 65536) ++ leBytes 1 (attempt % 16) ++ [0]

/-- The check value over a tile's header, its payload and trailer bytes 8–15 (R484). -/
def checkValue (p : Preset) (t : Tile) (payload tail : List Byte) : Nat := crcOf p (headerBytes t ++ payload ++ tail)

/-- One repeat of APPEND (R484, R485). -/
def State.appendOp (s : State) (x : OpCtx) : State :=
  let op := x.op
  if !s.isSet (fCHK_CFG_VALID (chkPreset op)) then s.opFault x cOperand
  else match x.head (opInA op), x.step.streams[x.chkStream]?, x.step.queue? (opOut op) with
    | none, _, _ => s.stallOn x 1 (opInA op)
    | some t, some r, some u => match s.aliveOf x r.id with
      | none => s.opFault x cOperand
      | some a =>
        let t1 := { t with tag := u.emitted % 65536, last := s.isLastTile x }
        let tail := trailerTail a r.id x.step.seq x.step.attempt
        let chk := leBytes 8 (checkValue (s.preset (chkPreset op)) t1 t.payload tail)
        (((s.setAlive x r.id (a + 1)).stage x { t1 with payload := t.payload ++ chk ++ tail } (x.owners t.rows) 5).endInA x).endRepeat x
    | some _, _, _ => s.opFault x cOperand

/-- One repeat of an APPEND op. -/
def execAppend (slot : StepIx) (core : LCore) (ix : Fin 2) (s : State) : Host.Outcome State Fault Refusal :=
  .next (s.runOp slot core (instCheck + ix) [1, 2] 1 checkOk State.appendOp)

/-- VERIFY takes the next tile (R486). A tile it discards ends no repeat. -/
def State.verifyOp (s : State) (x : OpCtx) : State :=
  let op := x.op
  let src := chkPeer op
  if !s.isSet (fCHK_CFG_VALID (chkPreset op)) then s.opFault x cOperand
  else match x.head (opInA op), x.step.streams[x.chkStream]? with
    | none, _ => s.stallOn x 1 (opInA op)
    | some _, none => s.opFault x cOperand
    | some t, some r => match s.aliveOf x r.id with
      | none => s.opFault x cOperand
      | some e =>
        let n := t.payload.length - 16
        let tr := t.payload.drop n
        let a := recNat tr 8 2
        let discard (st : State) : State := (st.endRead x (opInA op)).progress x.slot x.core x.inst
        if recNat tr 12 2 ≠ x.step.seq % 65536 ∨ recBits tr 14 1 3 0 ≠ x.step.attempt ∨ recNat tr 10 2 ≠ r.id then discard (s.bumpSat fCHK_EVENTS_STALE)
        else if recNat tr 0 8 ≠ checkValue (s.preset (chkPreset op)) t (t.payload.take n) (tr.drop 8) then
          (s.bumpSat fCHK_EVENTS_CHECK_FAIL).opFault x 0x10 src
        else if a = e then
          (((s.setAlive x r.id (e + 1)).stage x { t with payload := t.payload.take n } (x.owners t.rows) 5).endInA x).endRepeat x
        else if 1 ≤ (e + 65536 - a) % 65536 ∧ (e + 65536 - a) % 65536 ≤ 32768 then discard (s.bumpSat fCHK_EVENTS_REPEAT)
        else (s.bumpSat fCHK_EVENTS_LOSS).opFault x 0x11 src

/-- A VERIFY op takes its next tile. -/
def execVerify (slot : StepIx) (core : LCore) (ix : Fin 2) (s : State) : Host.Outcome State Fault Refusal :=
  .next (s.runOp slot core (instCheck + ix) [1, 2] 2 checkOk State.verifyOp)

end Sys2Proof.Machine
end

