-- ==== Sys2Proof/Machine/Collect.lean ====
section
/-! DEFINITION. Collectives (R493–R531): descriptors and groups, arming, grants and chunks, folds, the unequal forms, gates and completion. -/

namespace Sys2Proof.Machine

open Sys2Proof

/-- The COLLECT instance of a core (R67). -/
def instCollect : Nat := 0xD0

/-! ### The descriptor (R498) -/

def Coll.op (c : Coll) : Nat := recBits c.desc 0 1 3 0
def Coll.rop (c : Coll) : Nat := recBits c.desc 0 1 5 4
def Coll.cls (c : Coll) : Nat := recBits c.desc 1 1 2 0
def Coll.srcQ (c : Coll) : Bool := recBits c.desc 1 1 3 3 == 1
def Coll.dstQ (c : Coll) : Bool := recBits c.desc 1 1 4 4 == 1
def Coll.gateEn (c : Coll) : Bool := recBits c.desc 1 1 5 5 == 1
def Coll.gatePhase (c : Coll) : Nat := recBits c.desc 1 1 6 6
def Coll.inFmt (c : Coll) : Nat := recBits c.desc 2 1 5 0
def Coll.outFmt (c : Coll) : Nat := recBits c.desc 3 1 5 0
def Coll.depth (c : Coll) : Nat := recBits c.desc 4 1 3 0 + 1
def Coll.chunk (c : Coll) : Nat := 4096 * 2 ^ recBits c.desc 4 1 7 4
def Coll.axes (c : Coll) : Nat := recBits c.desc 5 1 3 0
def Coll.root (c : Coll) : Nat := recNat c.desc 6 2
def Coll.ext (c : Coll) (a : Nat) : Nat := recNat c.desc (8 + 2 * a) 2 + 1
def Coll.blkLo (c : Coll) (a : Nat) : Nat := recNat c.desc (16 + 2 * a) 2
def Coll.blkLen (c : Coll) (a : Nat) : Nat := recNat c.desc (24 + 2 * a) 2 + 1
def Coll.piece (c : Coll) : Nat := recNat c.desc 32 4
def Coll.rowBytes (c : Coll) : Nat := recNat c.desc 32 2 * 16
def Coll.rxCap (c : Coll) : Nat := recNat c.desc 34 2
def Coll.stageOff (c : Coll) : Nat := recBits c.desc 36 4 21 0
def Coll.rxTable (c : Coll) : Nat := recBits c.desc 56 8 39 0
def Coll.gateNs (c : Coll) : Nat := recNat c.desc 64 4
def Coll.trows (c : Coll) : Nat := recBits c.desc 68 2 10 0 + 1
def Coll.tcols (c : Coll) : Nat := recBits c.desc 70 2 10 0 + 1
/-- W of R511. -/
def Coll.window (c : Coll) : Nat := max 1 (c.depth / 2)
def Coll.reduces (c : Coll) : Bool := c.op == 2 || c.op == 3
def Coll.unequal (c : Coll) : Bool := c.op == 5 || c.op == 6
def Coll.queueMode (c : Coll) : Bool := c.srcQ || c.dstQ
def Coll.isInt (c : Coll) : Bool := c.inFmt == 0x0B
/-- Bytes of an element of IN_FMT and of OUT_FMT, for the reducing operations. -/
def Coll.inB (c : Coll) : Nat := elemBits c.inFmt / 8
def Coll.outBytes (c : Coll) : Nat := elemBits c.outFmt / 8
/-- Payload bytes of a tile in queue mode. -/
def Coll.tilePay (c : Coll) (fmt : Nat) : Nat := ({ rows := c.trows, cols := c.tcols, fmt := fmt, layout := 0 : Shape }).bytes

/-! ### Groups (R502) -/

/-- The coordinate of a rank on axis a. -/
def Coll.coordOf (c : Coll) (rank a : Nat) : Nat := rank / ((List.range a).foldl (fun p b => p * c.ext b) 1) % c.ext a

/-- Whether an axis is in AXES. -/
def Coll.inAxes (c : Coll) (a : Nat) : Bool := c.axes / 2 ^ a % 2 == 1

/-- The group size. -/
def Coll.groupSize (c : Coll) : Nat := (List.range 4).foldl (fun p a => if c.inAxes a then p * c.blkLen a else p) 1

/-- The group index of a rank of the group. -/
def Coll.indexOf (c : Coll) (rank : Nat) : Nat :=
  ((List.range 4).foldl (fun (p : Nat × Nat) a =>
    if c.inAxes a then (p.1 + p.2 * (c.coordOf rank a - c.blkLo a), p.2 * c.blkLen a) else p) (0, 1)).1

/-- The rank of group member h, in a group that holds rank `me`. -/
def Coll.memberRank (c : Coll) (me h : Nat) : Nat :=
  ((List.range 4).foldl (fun (p : Nat × Nat × Nat) a =>
    if c.inAxes a then (p.1 + p.2.1 * (c.blkLo a + h / p.2.2 % c.blkLen a), p.2.1 * c.ext a, p.2.2 * c.blkLen a)
    else (p.1 + p.2.1 * c.coordOf me a, p.2.1 * c.ext a, p.2.2)) (0, 1, 1)).1

/-- Whether a rank lies inside the sub-block. -/
def Coll.inBlock (c : Coll) (rank : Nat) : Bool :=
  (List.range 4).all fun a => decide (c.blkLo a ≤ c.coordOf rank a) && decide (c.coordOf rank a < c.blkLo a + c.blkLen a)

/-! ### Placement (R503) -/

/-- P of the operations that do not reduce: the piece in bytes. -/
def Coll.pieceBytes (c : Coll) : Nat := if c.queueMode then c.piece * (16 + c.tilePay c.inFmt) else c.piece

/-- AREDUCE: elements per block, and the elements of block g. -/
def Coll.blockStep (c : Coll) : Nat := ceilDiv c.piece c.size
def Coll.blockLen (c : Coll) (g : Nat) : Nat := min c.piece ((g + 1) * c.blockStep) - min c.piece (g * c.blockStep)

/-- Bytes this member sends to member h in a phase; none where it sends none or does not know yet. -/
def Coll.txLen (c : Coll) (phase h : Nat) : Option Nat := match c.op, phase with
  | 0, 0 => if c.own = c.root then some c.pieceBytes else none
  | 1, 0 => some c.pieceBytes
  | 4, 0 => some c.pieceBytes
  | 2, 0 => some (c.piece * c.inB)
  | 3, 0 => some (c.blockLen h * c.inB)
  | 3, 1 => some (c.blockLen c.own * c.outBytes)
  | _, _ => none

/-- Bytes this member expects from member h in a phase. -/
def Coll.rxLen (c : Coll) (phase h : Nat) : Option Nat := match c.op, phase with
  | 0, 0 => if h = c.root then some c.pieceBytes else none
  | 1, 0 => some c.pieceBytes
  | 4, 0 => some c.pieceBytes
  | 2, 0 => some (c.piece * c.inB)
  | 3, 0 => some (c.blockLen c.own * c.inB)
  | 3, 1 => some (c.blockLen h * c.outBytes)
  | _, _ => none

/-- Where in the source stream the data for member h begins, in phase 0 of the fixed-size operations. -/
def Coll.srcOff (c : Coll) (h : Nat) : Nat := match c.op with
  | 4 => h * c.pieceBytes
  | 2 => h * c.piece * c.inB
  | 3 => h * c.blockStep * c.inB
  | _ => 0

/-- Length of the source stream. -/
def Coll.srcLen (c : Coll) : Nat := match c.op with
  | 0 => if c.own = c.root then c.pieceBytes else 0
  | 1 => c.pieceBytes
  | 4 => c.size * c.pieceBytes
  | 2 => c.size * c.piece * c.inB
  | 3 => c.piece * c.inB
  | _ => 0

/-- Length of the destination stream of the fixed-size operations. -/
def Coll.dstLen (c : Coll) : Nat := match c.op with
  | 0 => if c.own = c.root then 0 else c.pieceBytes
  | 1 => c.size * c.pieceBytes
  | 4 => c.size * c.pieceBytes
  | 2 => c.piece * c.outBytes
  | 3 => c.piece * c.outBytes
  | _ => 0

/-- The unequal forms: rows this member sends to member h, from its dispatch area or from the forward's receive area; and FIRST of h in its dispatch area. -/
def State.collRows (s : State) (c : Coll) (me h : Nat) : Nat :=
  if c.op = 5 then s.ldNat (c.area + 64 + 16 * c.memberRank me h) 4 else s.ldNat (c.rxTable + 64 + 16 * h) 4
def State.collFirst (s : State) (c : Coll) (me h : Nat) : Nat := s.ldNat (c.area + 64 + 16 * c.memberRank me h + 4) 4

/-- Where in the destination stream data from member h goes. -/
def State.collDst (s : State) (c : Coll) (me phase h : Nat) : Nat := match c.op, phase with
  | 1, _ => h * c.pieceBytes
  | 4, _ => h * c.pieceBytes
  | 3, 1 => h * c.blockStep * c.outBytes
  | 5, _ => h * c.rxCap * c.rowBytes
  | 6, _ => s.collFirst c me h * c.rowBytes
  | _, _ => 0

/-! ### Collectives by number -/

def State.setCol (s : State) (k : ColSt) : State := { s with col := k }
def State.coll? (s : State) (no : Nat) : Option Coll := s.col.colls.find? (·.no == no)
def State.modColl (s : State) (no : Nat) (f : Coll → Coll) : State := s.setCol { s.col with colls := mapFirst (·.no == no) f s.col.colls }

/-- The collective of a core's COLLECT instance armed first and not complete. -/
def State.collHead (s : State) (core : Nat) : Option Coll := s.col.colls.find? (·.core == core)

def Coll.rxOf (c : Coll) (phase h : Nat) : Option CollRx := c.rx.find? fun r => r.phase == phase && r.peer == h
def Coll.txOf (c : Coll) (phase h : Nat) : Option CollTx := c.tx.find? fun r => r.phase == phase && r.peer == h
def Coll.setRx (c : Coll) (r : CollRx) : Coll := { c with rx := mapFirst (fun e => e.phase == r.phase && e.peer == r.peer) (fun _ => r) c.rx }
def Coll.setTx (c : Coll) (r : CollTx) : Coll := { c with tx := mapFirst (fun e => e.phase == r.phase && e.peer == r.peer) (fun _ => r) c.tx }

/-- Chunks of a length. -/
def Coll.chunks (c : Coll) (len : Nat) : Nat := ceilDiv len c.chunk

/-- A fault of a collective (R109); its record names the sending rank where there is one (R516). -/
def State.collFault (s : State) (c : Coll) (cause : Nat) (rank addr : Nat := 0) : State :=
  s.stepFault c.slot cause { unitKind := 6, unitIx := c.core * 256 + instCollect, node := c.node, arg0 := rank, arg1 := addr }

/-! ### Cells (R509, R510) -/

/-- The 16-byte header of a COLLECT cell. -/
def collHeader (t : Step) (c : Coll) (kind phase a b : Nat) : List Byte :=
  leBytes 2 t.slice ++ leBytes 2 (t.seq % 65536) ++ leBytes 1 (t.attempt % 16 + kind * 16 + phase * 64) ++ leBytes 1 (c.rep % 256) ++ leBytes 2 c.node ++
    leBytes 4 a ++ leBytes 4 b

/-- The class of GRANT and SIZES cells. -/
def Coll.ctlClass (c : Coll) : Nat := if c.cls = 0 then 0 else 1

/-- Send one COLLECT frame to member h and count its cells on the sequencer. -/
def State.sendColl (s : State) (c : Coll) (h cls : Nat) (parts : List (List Byte)) : State := match s.step? c.slot with
  | none => s
  | some t =>
    ((s.sendFrame (s.rankEndpoint t.slice (c.memberRank t.rank h)) cls 0x0D parts).bumpWrap (fCOL_SEQ_CELLS_COUNT (c.core / 8)) parts.length).progress
      c.slot c.core instCollect

/-- Send the current GRANT of a phase to member h (R511, R513). -/
def State.sendGrant (s : State) (no phase h : Nat) : State := match s.coll? no with
  | none => s
  | some c => match s.step? c.slot, c.rxOf phase h with
    | some t, some r =>
      (s.sendColl c h c.ctlClass [collHeader t c 1 phase r.granted (r.done % 2 ^ 31 + (if r.sizes.isSome then 2 ^ 31 else 0))]).modColl no fun v =>
        v.setRx { r with grantAt := s.time.nowNs }
    | _, _ => s

/-- Send a SIZES cell to member h (R513). -/
def State.sendSizes (s : State) (no h : Nat) : State := match s.coll? no with
  | none => s
  | some c => match s.step? c.slot, c.txOf 0 h with
    | some t, some w =>
      (s.sendColl c h c.ctlClass [collHeader t c 2 0 (w.len.getD 0 / max 1 c.rowBytes) 0]).modColl no fun v =>
        v.setTx { w with sizesSent := true, sizesAt := s.time.nowNs }
    | _, _ => s

/-! ### Source bytes -/

/-- Whether a range of the taken bytes is poisoned. -/
def badIn (l : List (Nat × Nat)) (lo n : Nat) : Bool := l.any fun r => decide (r.1 < lo + n) && decide (lo < r.2)

/-- A reduced element's bytes in OUT_FMT. -/
def Coll.outElem (c : Coll) (code : Nat) : List Byte :=
  if c.isInt then leBytes 4 code else leBytes c.outBytes (convElem c.outFmt false (ofF32 code)).code

/-- Elements lo to lo + n − 1 of the own reduced block, in OUT_FMT, once they are all reduced. -/
def Coll.reducedBytes (c : Coll) (lo n : Nat) : Option (List Byte × Bool) :=
  let per := c.chunk / max 1 c.inB
  let need := if n = 0 then [] else (List.range ((lo + n - 1) / per - lo / per + 1)).map (· + lo / per)
  let parts := need.map fun k => aget c.reduced k
  if parts.all (·.isSome) then
    let vals := parts.flatMap fun p => (p.getD ([], false)).1
    some ((((vals.drop (lo - lo / per * per)).take n).flatMap c.outElem), parts.any fun p => (p.getD ([], false)).2)
  else none

/-- Bytes lo to lo + n − 1 of the data for member h in a phase, with POISON, when they are available (R503, R506, R508, R520). -/
def State.collData (s : State) (c : Coll) (me phase h lo n : Nat) : Option (List Byte × Bool) :=
  let fromMem (a : Nat) : List Byte × Bool := (s.rd (a % 2 ^ 40) n, s.poisoned (a % 2 ^ 40) n)
  if phase = 1 then c.reducedBytes (lo / max 1 c.outBytes) (n / max 1 c.outBytes)
  else if c.op = 6 then some (fromMem (c.src + h * c.rxCap * c.rowBytes + lo))
  else if c.op = 5 then
    let first := s.collFirst c me h
    let list := c.area + 64 + 16 * s.ldNat (c.area + 12) 4
    let byte (o : Nat) : Nat := c.src + s.ldNat (list + 8 * (first + o / c.rowBytes)) 2 * c.rowBytes + o % c.rowBytes
    some ((List.range n).map (fun i => s.rd1 (byte (lo + i))),
      (List.range (n / max 1 c.rowBytes + 2)).any fun i =>
        let o := min (lo + n - 1) (max lo ((lo / c.rowBytes + i) * c.rowBytes))
        decide (0 < n) && s.poisoned (byte o) (min (lo + n - o) (c.rowBytes - o % c.rowBytes)))
  else if c.srcQ then
    let o := c.srcOff h + lo
    if o + n ≤ c.taken.length then some ((c.taken.drop o).take n, badIn c.takenBad o n) else none
  else some (fromMem (c.src + c.srcOff h + lo))

/-! ### Destination bytes, tiles and status -/

/-- Bytes lo to lo + n − 1 of the kept destination stream, when all of them have been written. -/
def Coll.outRange (c : Coll) (lo n : Nat) : Option (List Byte × Bool) :=
  let hit := c.outB.filter fun p => decide (p.1 < lo + n) && decide (lo < p.1 + p.2.1.length)
  let sorted := hit.foldl (fun m p => aput m p.1 p.2) []
  let bytes := sorted.flatMap fun p => ((p.2.1.take (lo + n - p.1)).drop (lo - p.1))
  if bytes.length = n then some (bytes, hit.any (·.2.2)) else none

/-- Element e of the destination of a reducing operation: its value before conversion and the conversion, from the own fold where it is of the own block,
else as written. -/
def Coll.element (c : Coll) (e : Nat) : Val × Conv :=
  let base := if c.op = 3 then c.own * c.blockStep else 0
  let len := if c.op = 3 then c.blockLen c.own else c.piece
  let per := c.chunk / max 1 c.inB
  let code (k : Nat) : Nat := (((aget c.reduced (k / per)).getD ([], false)).1).getD (k % per) 0
  if base ≤ e ∧ e < base + len then
    let v := if c.isInt then valOfInt (signedOf 32 (code (e - base))) 0 else ofF32 (code (e - base))
    (v, convElem c.outFmt false v)
  else
    let w := match c.outRange (e * c.outBytes) c.outBytes with
      | some (b, _) => leNat b
      | none => 0
    let v := match elemOf c.outFmt with
      | some k => decodeElem k w
      | none => .zero
    (v, { code := w, elem := v })

/-- STATUS over elements lo to lo + n − 1, each recorded at (row, column) that `at'` gives (R177, R529). -/
def Coll.statusOf (c : Coll) (lo n : Nat) (at' : Nat → Nat × Nat) : Nat :=
  statWord ((List.range n).foldl (fun a i =>
    let p := c.element (lo + i)
    statStep a (at' i).1 (at' i).2 p.1 p.2) {})

/-- Emit the tiles of queue mode that are complete, in ascending order of destination offset (R505, R528). At most `fuel`. -/
def State.collEmit (s : State) (no : Nat) : Nat → State
  | 0 => s
  | f + 1 => match s.coll? no with
    | none => s
    | some c =>
      if !c.dstQ then s
      else
        let fmt := if c.reduces then c.outFmt else c.inFmt
        let tb := (if c.reduces then 0 else 16) + c.tilePay fmt
        if c.dstLen < (c.emitted + 1) * tb then s
        else match c.outRange (c.emitted * tb) tb with
          | none => s
          | some (bytes, bad) =>
            let perPiece := if c.reduces then c.dstLen / tb else c.piece
            let i := c.emitted % max 1 perPiece
            let carried := tileOf (bytes.take 16) []
            let n := c.trows * c.tcols
            let tile : Tile :=
              { status := if c.reduces then c.statusOf (c.emitted * n) n (fun k => (k / c.tcols, k % c.tcols)) else carried.status
                coordR := if c.reduces then c.own else if c.op = 0 then c.root else c.emitted / max 1 perPiece
                coordC := i % 65536, rows := c.trows, cols := c.tcols, format := if c.reduces then fmt else carried.format, layout := 0
                poison := bad || (!c.reduces && carried.poison), last := c.last && decide (c.dstLen < (c.emitted + 2) * tb)
                payload := if c.reduces then bytes else bytes.drop 16 }
            let out : OutTile := { q := c.outQ, tile := tile, owners := [], origin := if c.reduces then 6 else 5, node := c.node, rep := c.rep }
            ((s.modColl no fun v => { v with emitted := v.emitted + 1 }).modInst c.slot c.core instCollect fun v =>
              { v with outbox := v.outbox ++ [out] }).collEmit no f

/-- Write bytes at an offset of the destination, or keep them for the tiles of queue mode (R505, R513, R528). -/
def State.collPut (s : State) (no off : Nat) (bytes : List Byte) (poison : Bool) : State := match s.coll? no with
  | none => s
  | some c =>
    let keep := c.dstQ || c.reduces
    let s1 := if c.dstQ then s else (s.access ((c.dst + off) % 2 ^ 40) bytes.length true true).st ((c.dst + off) % 2 ^ 40) bytes poison
    (s1.modColl no fun v => { v with
      outB := if keep then v.outB ++ [(off, bytes, poison)] else v.outB
      written := if c.dstQ then v.written else v.written + bytes.length
      poison := v.poison || poison }).collEmit no (bytes.length / 16 + 2)

/-! ### Grants (R511, R518) -/

/-- The h-th member other than the own one. -/
def Coll.other (c : Coll) (k : Nat) : Nat := if k < c.own then k else k + 1

/-- Grant further (chunk, member) pairs of a reducing phase while fold slots are free: the state and the members whose grant grew. -/
def Coll.grantPairs (c : Coll) : Nat → Coll × List Nat
  | 0 => (c, [])
  | f + 1 =>
    let len := (c.rxLen 0 c.own).getD 0
    let total := c.chunks len * (c.size - 1)
    if c.pairs < total ∧ c.pairs - c.folded < c.depth then
      let h := c.other (c.pairs % (c.size - 1))
      let c1 := match c.rxOf 0 h with
        | some r => c.setRx { r with granted := r.granted + 1 }
        | none => c
      let r := ({ c1 with pairs := c.pairs + 1 }).grantPairs f
      (r.1, insNat h r.2)
    else (c, [])

/-- Grant what may be granted of the reducing phase, and tell the members in `also` too. -/
def State.grantFold (s : State) (no : Nat) (also : List Nat) : State := match s.coll? no with
  | none => s
  | some c =>
    let r := c.grantPairs (c.depth + 1)
    let who := also.foldl (fun l h => insNat h l) r.2
    who.foldl (fun st h => st.sendGrant no 0 h) (s.modColl no fun _ => r.1)

/-! ### Folds (R517) -/

/-- A contribution's element as a 32-bit code: decoded exactly into FP32, or INT32 (R517). -/
def Coll.inElem (c : Coll) (code : Nat) : Nat :=
  if c.isInt then code else match elemOf c.inFmt with
    | some k => toF32 (decodeElem k code)
    | none => 0

/-- max_r and min_r of two FP32 codes. -/
def foldPick (max : Bool) (a b : Nat) : Nat :=
  let x := ofF32 a
  let y := ofF32 b
  if x.isNan || y.isNan then 0x7FC00000
  else if Val.lt x y then (if max then b else a)
  else if Val.lt y x then (if max then a else b)
  else if x.isNeg == max then b else a

/-- One term folded into a value. -/
def Coll.foldOne (c : Coll) (v x : Nat) : Nat :=
  if c.isInt then
    match c.rop with
    | 0 => (v + x) % 2 ^ 32
    | 1 => if signedOf 32 v < signedOf 32 x then x else v
    | _ => if signedOf 32 x < signedOf 32 v then x else v
  else match c.rop with
    | 0 => toF32 (add32 (ofF32 v) (ofF32 x))
    | 1 => foldPick true v x
    | _ => foldPick false v x

/-- A contribution folded into a chunk. -/
def Coll.foldIn (c : Coll) (k : CollFold) (bytes : List Byte) (bad : Bool) : CollFold :=
  let xs := (Sys2Proof.Machine.chunks c.inB bytes).map fun b => c.inElem (leNat b)
  { k with next := k.next + 1, acc := if k.next = 0 then xs else (k.acc.zip xs).map fun p => c.foldOne p.1 p.2, poison := k.poison || bad }

/-- A contribution of (chunk, member) when every byte of it has come. -/
def Coll.staged (c : Coll) (chunk h n : Nat) : Option (List Byte × Bool) := match c.stage.find? (fun e => e.1 == (chunk, h)) with
  | none => none
  | some e =>
    let sorted := e.2.foldl (fun m p => aput m p.1 p.2) []
    let bytes := sorted.flatMap (·.2.1)
    if bytes.length = n then some (bytes, e.2.any (·.2.2)) else none

/-- Fold into one chunk whatever may be folded, member after member: the collective, and the members whose chunk is done. -/
def State.foldChunk (s : State) (c : Coll) (me chunk n : Nat) (k : CollFold) : Nat → Coll × CollFold × List Nat
  | 0 => (c, k, [])
  | f + 1 =>
    if c.size ≤ k.next then (c, k, [])
    else if k.next = c.own then
      match (if c.started then s.collData c me 0 c.own (chunk * c.chunk) n else none) with
      | none => (c, k, [])
      | some (b, bad) => s.foldChunk c me chunk n (c.foldIn k b bad) f
    else match c.staged chunk k.next n with
      | none => (c, k, [])
      | some (b, bad) =>
        let h := k.next
        let c1 := match c.rxOf 0 h with
          | some r => c.setRx { r with done := r.done + 1 }
          | none => c
        let c2 := { c1 with folded := c1.folded + 1, stage := c1.stage.filter fun e => e.1 != (chunk, h) }
        let r := s.foldChunk c2 me chunk n (c.foldIn k b bad) f
        (r.1, r.2.1, insNat h r.2.2)

/-- The phase a gate names has become ready: it waits for its time, or opens at once, late when its time has passed. -/
def State.gateReady (s : State) (no : Nat) : State := match s.coll? no with
  | none => s
  | some c => match s.step? c.slot with
    | none => s
    | some t =>
      if c.gate ≠ 1 then s
      else
        let at' := t.startTime + c.gateNs
        if s.time.ft < at' then s.modColl no fun v => { v with gate := 2 }
        else if s.time.ft = at' then s.modColl no fun v => { v with gate := 3 }
        else (s.modColl no fun v => { v with gate := 3, late := true }).bumpSat fCOL_EVENTS_GATE_LATE

/-- Fold everything that may be folded, chunk by chunk from `chunk` on; a chunk with every member folded is converted and written (R517, R528). -/
def State.foldGo (s : State) (no : Nat) : Nat → Nat → State
  | 0, _ => s
  | f + 1, chunk => match s.coll? no with
    | none => s
    | some c => match s.step? c.slot with
      | none => s
      | some t =>
        let len := (c.rxLen 0 c.own).getD 0
        if len ≤ chunk * c.chunk then s
        else if (aget c.reduced chunk).isSome then s.foldGo no f (chunk + 1)
        else
          let n := min c.chunk (len - chunk * c.chunk)
          let k := (c.folds.find? (·.chunk == chunk)).getD { chunk := chunk }
          let r := s.foldChunk c t.rank chunk n k (c.size + 1)
          let fin := decide (c.size ≤ r.2.1.next)
          let rest := r.1.folds.filter (·.chunk != chunk)
          let c1 := if fin then { r.1 with folds := rest, reduced := aput r.1.reduced chunk (r.2.1.acc, r.2.1.poison) }
            else { r.1 with folds := if r.2.1.next = 0 then rest else rest ++ [r.2.1] }
          let s1 := (s.modColl no fun _ => c1)
          let s2 := if fin then
              s1.collPut no ((if c.op = 3 then c.own * c.blockStep else 0) * c.outBytes + chunk * (c.chunk / max 1 c.inB) * c.outBytes)
                (r.2.1.acc.flatMap c.outElem) r.2.1.poison
            else s1
          let s2 := if fin && c.gatePhase == 1 then s2.gateReady no else s2
          let s3 := if r.2.2.isEmpty then s2 else (s2.progress c.slot c.core instCollect).grantFold no r.2.2
          s3.foldGo no f (chunk + 1)

/-- Fold what may be folded of a reducing collective. -/
def State.foldAll (s : State) (no : Nat) : State := match s.coll? no with
  | some c => if c.reduces then s.foldGo no (c.chunks ((c.rxLen 0 c.own).getD 0) + 1) 0 else s
  | none => s

/-! ### Own data (R504) -/

/-- Rows of the receive area of an A2AV from member h: its size entry (R507). -/
def State.collEntry (s : State) (c : Coll) (h rows : Nat) : State :=
  s.st (c.rxTable + 64 + 16 * h) (leBytes 4 rows ++ leBytes 4 (h * c.rxCap) ++ leBytes 8 (rows * c.rowBytes))

/-- Receive-list entries of member h (R507). -/
def State.collList (s : State) (c : Coll) (h : Nat) (entries : List (List Byte)) : State :=
  s.st (c.rxTable + 64 + 16 * c.size + 8 * (h * c.rxCap)) (entries.flatMap fun e => (e ++ List.replicate 8 0).take 8)

/-- Move a member's data to itself through its home Decks, when it is available (R504). -/
def State.collSelf (s : State) (no : Nat) : State := match s.coll? no with
  | none => s
  | some c => match s.step? c.slot with
    | none => s
    | some t =>
      if c.selfDone || !c.started || c.reduces || c.op == 0 then s
      else
        let n := if c.unequal then s.collRows c t.rank c.own * c.rowBytes else c.pieceBytes
        match s.collData c t.rank 0 c.own 0 n with
        | none => s
        | some (b, bad) =>
          let s1 := (s.modColl no fun v => { v with selfDone := true }).collPut no (s.collDst c t.rank 0 c.own) b bad
          if c.op = 5 then
            let rows := n / max 1 c.rowBytes
            let list := c.area + 64 + 16 * s.ldNat (c.area + 12) 4
            let first := s.collFirst c t.rank c.own
            (s1.collEntry c c.own rows).collList c c.own ((List.range rows).map fun i => s.ld (list + 8 * (first + i)) 8)
          else s1

/-! ### Input tiles (R505, R520) -/

/-- Take the input tiles that have come and are still needed, then move and fold what they make available. At most `fuel`. -/
def State.collTake (s : State) (no : Nat) : Nat → State
  | 0 => (s.collSelf no).foldAll no
  | f + 1 => match s.coll? no with
    | none => s
    | some c => match s.step? c.slot with
      | none => s
      | some t =>
        if !c.started || !c.srcQ || decide (c.srcLen ≤ c.taken.length) || t.phase != .running then (s.collSelf no).foldAll no
        else match (t.queue? c.inA).bind (·.tileAt 0) with
          | none => (s.collSelf no).foldAll no
          | some tile =>
            let pay := c.tilePay c.inFmt
            if tile.rows ≠ c.trows ∨ tile.cols ≠ c.tcols ∨ tile.format ≠ c.inFmt ∨ tile.layout ≠ 0 ∨ tile.sparse then s.collFault c cOperand
            else
              let b := (if c.reduces then [] else headerBytes tile) ++ byteField tile.payload 0 pay
              let s1 := s.modColl no fun v =>
                { v with taken := v.taken ++ b, takenBad := if tile.poison then v.takenBad ++ [(v.taken.length, v.taken.length + b.length)] else v.takenBad }
              let s2 := (s1.modQueue c.slot c.inA fun u => u.endRead 0).traceInst t c.core instCollect c.node 0x04 c.inA tile.tag
              (s2.progress c.slot c.core instCollect).collTake no f

/-- Tiles that may come at once. -/
def collFuel : Nat := 66

/-! ### Arming (R494, R499, R500, R511) -/

/-- Whether a RUN op keeps its layout (R497). -/
def runOk (x : OpCtx) : Bool :=
  let op := x.op
  opInB op == noQ && !opHoldA op && !opPerStream op && opF op 0 1 0 == 0 && opF op 1 47 0 == 0 && opF op 2 63 40 == 0 && opF op 3 63 40 == 0 &&
    opF op 2 5 0 == 0

/-- Whether a descriptor passes R499 for a member of the step. -/
def Coll.ok (c : Coll) (t : Step) : Bool :=
  let d := c.desc
  let exts := c.ext 0 * c.ext 1 * c.ext 2 * c.ext 3
  let fmtOk := if c.reduces then
      (c.inFmt == 0x0B && c.outFmt == 0x0B) || ([1, 2, 3].contains c.inFmt && [1, 2, 3].contains c.outFmt)
    else ((elemOf c.inFmt).isSome || isCb c.inFmt) && c.outFmt == 0
  let resv := recBits d 0 1 7 6 == 0 && recBits d 1 1 7 7 == 0 && recBits d 2 1 7 6 == 0 && recBits d 3 1 7 6 == 0 && recBits d 5 1 7 4 == 0 &&
    recBits d 36 4 31 22 == 0 && recBits d 40 8 63 40 == 0 && recBits d 48 8 63 40 == 0 && recBits d 56 8 63 40 == 0 && recBits d 68 2 15 11 == 0 &&
    recBits d 70 2 15 11 == 0 && recNat d 72 56 == 0
  let codes := decide (c.op ≤ 6) && (!c.reduces || decide (c.rop ≤ 2)) && (c.cls == 0 || c.cls == 4 || c.cls == 5) && decide (2 ≤ c.depth) &&
    decide (recBits d 4 1 7 4 ≤ 4) && (c.op == 0 || c.root == 0) && (c.unequal || c.rxTable == 0)
  let block := exts == t.ranks && ((List.range 4).all fun a => decide (c.blkLo a + c.blkLen a ≤ c.ext a)) && c.inBlock t.rank
  let sizes := if c.unequal then decide (1 ≤ c.rowBytes) && decide (1 ≤ c.rxCap) && decide (c.rxCap * c.rowBytes < 2 ^ 32)
    else decide (1 ≤ c.piece) &&
      ((List.range c.size).all fun h => decide ((c.txLen 0 h).getD 0 < 2 ^ 32) && decide ((c.txLen 1 h).getD 0 < 2 ^ 32))
  let queueOk := !c.queueMode || (!c.unequal && (!c.reduces || c.piece % (c.trows * c.tcols) == 0))
  let stageOk := c.stageOff % 64 == 0 && decide (c.stageOff + 2 * c.depth * c.chunk ≤ 0x300000)
  fmtOk && resv && codes && block && sizes && queueOk && stageOk && decide (c.root < c.size) &&
    (if c.srcQ || c.unequal then c.inA != noQ else c.inA == noQ) && (!c.dstQ || c.outQ != noQ)

/-- The ranges a collective reads and writes on this device that are known when it is armed: (address, length, permission). -/
def Coll.ranges (c : Coll) : List (Nat × Nat × Nat) :=
  let area := 64 + 16 * c.size + 8 * c.size * c.rxCap
  match c.op with
  | 5 => [(c.src, 2048 * c.rowBytes, permRd), (c.dst, c.size * c.rxCap * c.rowBytes, permWr), (c.rxTable, area, permWr)]
  | 6 => [(c.src, c.size * c.rxCap * c.rowBytes, permRd), (c.rxTable, area, permRd)]
  | _ => (if c.srcQ then [] else [(c.src, c.srcLen, permRd)]) ++ (if c.dstQ then [] else [(c.dst, c.dstLen, permWr)])

/-- The first fault of a list of ranges: a window that does not allow it, a byte that may not be addressed, a span not ready. -/
def State.rangeFault (s : State) (t : Step) (rs : List (Nat × Nat × Nat)) : Option (Nat × Nat) :=
  let live := rs.filter fun r => decide (0 < r.2.1)
  match live.find? fun r => !s.windowOk t.slice false t.rank r.1 r.2.1 r.2.2 with
  | some r => some (0x0C, r.1)
  | none => match live.find? fun r => !s.rangeAll r.1 r.2.1 s.engineMay with
    | some r => some (cAddr, r.1)
    | none => (live.find? fun r => !s.rangeAll r.1 r.2.1 s.placeReady).map fun r => (cSpanDown, r.1)

/-- A fault of a range of a collective, WINDOW_FAULTs counted. -/
def State.collRangeFault (s : State) (c : Coll) (f : Nat × Nat) : State :=
  (if f.1 = 0x0C then s.bumpSat fMEM_RMT_ERRORS_WINDOW_FAULTS else s).collFault c f.1 0 f.2

/-- Collectives that hold a slot of a sequencer, and those a core's instance has armed. -/
def State.seqBusy (s : State) (q : Nat) : Nat := (s.col.colls.filter fun c => c.core / 8 == q).length
def State.coreBusy (s : State) (core : Nat) : Nat := (s.col.colls.filter (·.core == core)).length

/-- Whether a core's instance may arm one more (R494). -/
def State.mayArm (s : State) (core : Nat) : Bool := decide (s.seqBusy (core / 8) < 4) && decide (s.coreBusy core < 4)

/-- What a collective sends and receives when it is armed: its peers by phase, and the first grants' counts (R511). -/
def Coll.withPeers (c : Coll) : Coll :=
  let hs := (List.range c.size).filter (· != c.own)
  let phases := if c.op = 3 then [0, 1] else [0]
  let rx := phases.flatMap fun p => hs.filterMap fun h =>
    if c.unequal then some ({ phase := p, peer := h, granted := c.window } : CollRx)
    else match c.rxLen p h with
      | some n => if n = 0 then none else
        some { phase := p, peer := h, len := some n
               granted := if c.reduces && p == 0 then 0 else min c.window (c.chunks n) }
      | none => none
  let tx := phases.flatMap fun p => hs.filterMap fun h =>
    if c.unequal then some ({ phase := p, peer := h } : CollTx)
    else match c.txLen p h with
      | some n => if n = 0 then none else some { phase := p, peer := h, len := some n }
      | none => none
  { c with rx := rx, tx := tx }

/-- Whether W = 1 and more than one peer takes part in a phase (R523). -/
def Coll.isDegraded (c : Coll) : Bool :=
  c.window == 1 && ([0, 1].any fun p =>
    decide (1 < (c.rx.filter (·.phase == p)).length) || decide (1 < (c.tx.filter (·.phase == p)).length))

/-- Apply the early grants kept for a collective that has just been armed (R515). -/
def State.applyEarly (s : State) (no : Nat) : State := match s.coll? no with
  | none => s
  | some c => match s.step? c.slot with
    | none => s
    | some t =>
      let mine (e : EarlyGrant) : Bool :=
        e.slice == t.slice && e.seq == t.seq % 65536 && e.attempt == t.attempt && e.node == c.node && e.rep == c.rep % 256
      let tx := c.tx.map fun w =>
        match s.col.early.find? fun e => mine e && e.phase == w.phase && e.src == s.rankEndpoint t.slice (c.memberRank t.rank w.peer) with
        | some e => { w with granted := max w.granted e.granted, done := max w.done e.done, sizesSeen := w.sizesSeen || e.seen }
        | none => w
      (s.modColl no fun v => { v with tx := tx }).setCol { (s.modColl no fun v => { v with tx := tx }).col with
        early := s.col.early.filter fun e => !mine e }

/-- Ranges the COLLECT station itself reads, against the map and readiness. -/
def State.collAddr (s : State) (rs : List (Nat × Nat)) : Option (Nat × Nat) :=
  match rs.find? fun r => !s.rangeAll r.1 r.2 s.engineMay with
  | some r => some (cAddr, r.1)
  | none => (rs.find? fun r => !s.rangeAll r.1 r.2 s.placeReady).map fun r => (cSpanDown, r.1)

/-- The collective of the repeat in hand, as its descriptor at `da` gives it. -/
def State.collOf (s : State) (x : OpCtx) (da : Nat) : Coll :=
  let desc := s.ld da 128
  let step := x.repNo * opF x.op 3 39 0
  let c0 : Coll := { no := s.col.nextNo, slot := x.slot, core := x.core, node := opNode x.op, rep := x.repNo, desc := desc, inA := opInA x.op, outQ := opOut x.op
                     src := (recBits desc 40 8 39 0 + step) % 2 ^ 40, dst := (recBits desc 48 8 39 0 + step) % 2 ^ 40, size := 1, own := 0
                     last := s.isLastTile x, opEnd := if x.lastAll then some (x.opIx, x.repNo + 1) else none }
  { c0 with size := c0.groupSize, own := c0.indexOf x.step.rank }

/-- A collective that passed its checks is armed: its peers are set up, early grants are applied, and the first grants go out. -/
def State.armed (s : State) (x : OpCtx) (c1 : Coll) : State :=
  let c2 := c1.withPeers
  let c3 := { c2 with degraded := c2.isDegraded, gate := if c2.gateEn && x.step.startTime != 0 then 1 else 0 }
  let s1 := s.setCol { s.col with colls := s.col.colls ++ [c3], nextNo := s.col.nextNo + 1, waiting := s.col.waiting.filter (· != x.core) }
  let s2 := if c3.degraded then s1.bumpSat fCOL_EVENTS_PIPE_DEGRADED else s1
  let s3 := if c3.gateEn && x.step.startTime == 0 then s2.bumpSat fCOL_EVENTS_GATE_SKIPPED else s2
  let s4 := s3.applyEarly c3.no
  let s5 := if c3.reduces then s4.grantFold c3.no []
    else (c3.rx.filter (·.phase == 0)).foldl (fun st r => st.sendGrant c3.no 0 r.peer) s4
  s5.nextRepeat x

/-- Arm the collective of the repeat in hand: the descriptor is read and checked, the ranges too. -/
def State.armColl (s : State) (x : OpCtx) : State :=
  match s.collAddr [(opF x.op 2 39 0, 128)] with
  | some f => s.opFault x f.1 0 f.2
  | none =>
    let c := s.collOf x (opF x.op 2 39 0)
    if !c.ok x.step then s.opFault x cOperand
    else match s.rangeFault x.step c.ranges with
      | some f => s.collRangeFault c f
      | none => s.armed x c

/-- A COLLECT instance arms the collective of its repeat in hand, or waits for a slot. -/
def State.runColl (s : State) (slot core : Nat) : State := match s.active slot core instCollect with
  | none => s
  | some x =>
    if x.atEnd then s
    else if opCode x.op ≠ 1 then s.startOp x false
    else
      let s1 := s.startOp x (runOk x)
      match s1.active slot core instCollect with
      | none => s1
      | some y =>
        if s1.mayArm core then s1.armColl y
        else if s1.col.waiting.contains core then s1 else s1.setCol { s1.col with waiting := s1.col.waiting ++ [core] }

/-- A RUN op arms a collective. -/
def execRun (slot : StepIx) (core : LCore) (s : State) : Host.Outcome State Fault Refusal := .next (s.runColl slot core)

/-- A slot of a sequencer is free: the COLLECT instance that has waited longest for it arms its next collective (R494). -/
def execCollectSlotFree (slot : StepIx) (seq : Fin 16) (s : State) : Host.Outcome State Fault Refusal :=
  .next (match s.col.waiting.find? (fun c => c / 8 == seq.val && s.mayArm c) with
    | some core => s.runColl slot core
    | none => s)

/-! ### The data phase (R495, R506, R508, R521, R522) -/

/-- The checks of a dispatch area against a member's group (R506, R524): the cause of the fault and an address, when there is one. -/
def State.areaFault (s : State) (c : Coll) (t : Step) : Option (Nat × Nat) :=
  let r := t.ranks
  match s.rangeFault t [(c.area, 64 + 16 * r, permRd)] with
  | some f => some f
  | none =>
    if s.ldNat (c.area + 12) 4 ≠ r then some (cOperand, c.area)
    else
      let group := (List.range c.size).map (c.memberRank t.rank)
      let ent (k : Nat) : Nat := c.area + 64 + 16 * k
      if c.op = 5 ∧ (List.range r).any (fun k => s.ldNat (ent k + 8) 8 != s.ldNat (ent k) 4 * c.rowBytes) then some (cOperand, c.area)
      else if (List.range r).any (fun k => s.ldNat (ent k) 4 != 0 && !group.contains k) then some (cOperand, c.area)
      else if c.op = 5 ∧ group.any (fun k => decide (c.rxCap < s.ldNat (ent k) 4)) then some (0x13, c.area)
      else
        let rows := sumNat (group.map fun k => s.ldNat (ent k) 4)
        let first := (group.map fun k => s.ldNat (ent k + 4) 4).foldl min (s.ldNat (ent (group.headD 0) + 4) 4)
        if c.op = 6 then s.rangeFault t [(c.dst + first * c.rowBytes, rows * c.rowBytes, permWr)]
        else s.rangeFault t [(c.area + 64 + 16 * r, 8 * (first + rows), permRd)]

/-- The data phase begins, the dispatch area of an unequal form being at `area`. -/
def State.beginData (s : State) (c : Coll) (t : Step) (area : Nat) : State :=
  let s1 := s.modColl c.no fun v => { v with
    started := true, area := area, selfDone := v.reduces || v.op == 0
    tx := if v.unequal then v.tx.map fun w => { w with len := some (s.collRows { v with area := area } t.rank w.peer * v.rowBytes) } else v.tx }
  let s2 := if c.gatePhase = 0 then s1.gateReady c.no else s1
  let s3 := (c.rx.filter (·.phase == 1)).foldl (fun st r => st.sendGrant c.no 1 r.peer) s2
  s3.collTake c.no collFuel

/-- A collective starts its data phase, the one armed before it on the instance being complete (R495). -/
def State.startColl (s : State) (c : Coll) (t : Step) : State :=
  if !c.unequal then s.beginData c t 0
  else match (t.queue? c.inA).bind (·.tileAt 0) with
    | none => s
    | some tile =>
      if tile.format ≠ 0x0B ∨ tile.rows ≠ 1 ∨ tile.cols ≠ 8 ∨ 1 < tile.layout then s.collFault c cOperand
      else
        let v := ((tile.ints).getD 0 []).map (unsignedOf 32)
        let area := v.getD 4 0 + 2 ^ 32 * (v.getD 5 0 % 256)
        let s1 := ((s.modQueue c.slot c.inA fun u => u.endRead 0).traceInst t c.core instCollect c.node 0x04 c.inA tile.tag).progress c.slot c.core instCollect
        match s1.areaFault { c with area := area } t with
        | some f =>
          if f.1 = 0x13 then (s1.bumpSat fCOL_EVENTS_OVERFLOW).collFault c 0x13 0 f.2
          else s1.collRangeFault c f
        | none => s1.beginData c t area

/-- A collective starts its data phase. -/
def execCollectDataStart (core : LCore) (s : State) : Host.Outcome State Fault Refusal :=
  .next (match s.collHead core with
    | none => s
    | some c => match s.step? c.slot with
      | none => s
      | some t => if c.started || t.phase != .running then s else s.startColl c t)

/-- Fabric time reaches the gate: the gated phase may send DATA (R521). -/
def execCollectGateOpen (core : LCore) (s : State) : Host.Outcome State Fault Refusal :=
  .next (match s.collHead core with
    | none => s
    | some c => match s.step? c.slot with
      | none => s
      | some t => if c.gate = 2 ∧ t.startTime + c.gateNs ≤ s.time.ft then s.modColl c.no fun v => { v with gate := 3 } else s)

/-! ### Sending (R512) -/

/-- Whether a phase's DATA may go out as far as the gate is concerned. -/
def Coll.gateOpen (c : Coll) (phase : Nat) : Bool := c.gate == 0 || c.gate == 3 || phase != c.gatePhase

/-- The chunk that may go to member h next: (phase, bytes, POISON, its offset). -/
def State.nextChunk (s : State) (c : Coll) (me h : Nat) : Option (Nat × List Byte × Bool × Nat) :=
  ([0, 1].filterMap fun p => match c.txOf p h with
    | none => none
    | some w => match w.len with
      | none => none
      | some n =>
        let lo := w.sent * c.chunk
        if w.sent < w.granted ∧ lo < n ∧ c.gateOpen p then
          (s.collData c me p h lo (min c.chunk (n - lo))).map fun d => (p, d.1, d.2, lo)
        else none).head?

/-- Whether a SIZES cell is due to member h: the unequal forms, its data sent, its first grant held (R513). -/
def Coll.sizesDue (c : Coll) (h : Nat) : Bool := c.unequal && match c.txOf 0 h with
  | some w => !w.sizesSent && decide (0 < w.granted) && (match w.len with
      | some n => decide (c.chunks n ≤ w.sent)
      | none => false)
  | none => false

/-- The data of a chunk cut into frames of the class (R510). -/
def Coll.frameBytes (c : Coll) : Nat := match c.cls with
  | 0 => 1008
  | 4 => 4096
  | _ => 48

/-- Send one chunk to member h. -/
def State.sendChunk (s : State) (c : Coll) (t : Step) (h phase lo : Nat) (bytes : List Byte) (bad : Bool) : State :=
  let s1 := (chunks c.frameBytes bytes).foldl (fun (a : State × Nat) b =>
    (a.1.sendColl c h c.cls (cut64 (collHeader t c 0 phase (lo + a.2) ((b.length - 1) + (if bad then 4096 else 0)) ++ b)), a.2 + b.length)) (s, 0)
  s1.1.modColl c.no fun v => match v.txOf phase h with
    | some w => { (v.setTx { w with sent := w.sent + 1 }) with turn := h, poison := v.poison || bad }
    | none => v

/-- A sender reads a granted chunk and sends it, one chunk per peer per turn in cyclic order from one after the peer served last; a SIZES cell follows the last
DATA to a peer. -/
def execCollectChunkSend (core : LCore) (s : State) : Host.Outcome State Fault Refusal :=
  .next (match s.collHead core with
    | none => s
    | some c => match s.step? c.slot with
      | none => s
      | some t =>
        if !c.started || !(t.phase == .running || t.phase == .prepared) then s
        else
          let order := (List.range c.size).map fun k => (c.turn + 1 + k) % c.size
          match order.find? fun h => h != c.own && ((s.nextChunk c t.rank h).isSome || c.sizesDue h) with
          | none => s
          | some h => match s.nextChunk c t.rank h with
            | none => s.sendSizes c.no h
            | some (p, bytes, bad, lo) =>
              let s1 := (if c.srcQ then s else s.access ((c.src + c.srcOff h + lo) % 2 ^ 40) bytes.length false true).sendChunk c t h p lo bytes bad
              match s1.coll? c.no with
              | some v => if v.sizesDue h then s1.sendSizes c.no h else s1
              | none => s1)

/-! ### Receiving (R513–R516) -/

/-- A COLLECT frame's place: its step slot, the collective armed for it, and the group index of its sender, or why there is none. -/
inductive CollMatch where
  | stale
  | mismatch (slot : Nat)
  | unarmed (slot : Nat)
  | past
  | hit (no h : Nat)
  deriving DecidableEq, Repr

/-- Match a COLLECT frame against the steps and collectives held (R516). -/
def State.matchColl (s : State) (f : Frame) : CollMatch :=
  match s.matchStep (recNat f.body 0 2) (recNat f.body 2 2) (recBits f.body 4 1 3 0) with
  | .run slot =>
    let node := recNat f.body 6 2
    let rep := recNat f.body 5 1
    (match s.col.colls.find? fun c => c.slot == slot && c.node == node && c.rep % 256 == rep with
      | some c => (match s.step? slot with
        | some t => (match (List.range c.size).find? fun h => s.rankEndpoint t.slice (c.memberRank t.rank h) == f.src && h != c.own with
          | some h => .hit c.no h
          | none => .mismatch slot)
        | none => .stale)
      | none => if s.col.complete.contains (slot, node, rep) then .past else .unarmed slot)
  | _ => .stale

/-- The fault of a cell that breaks the expected pattern (R516): COLL_MISMATCH naming the sending rank. -/
def State.collMismatch (s : State) (slot : Nat) (f : Frame) : State := match s.step? slot with
  | some t => s.stepFault slot 0x12 { unitKind := 1, node := recNat f.body 6 2, arg0 := (s.endpointRank t.slice f.src).getD 0xFFFF }
  | none => s

/-- The oldest delivered COLLECT frame of a kind from a source, and the state without it. -/
def State.takeColl (s : State) (src kind : Nat) : Option (Frame × State) :=
  let p (f : Frame) : Bool := f.typ == 0x0D && f.src == src && recBits f.body 4 1 5 4 == kind
  match s.router.delivered.find? p with
  | some f => some (f, s.setRouter { s.router with delivered := dropFirst p s.router.delivered })
  | none => none

/-- Keep a GRANT for a collective not yet armed, or count it dropped (R515). -/
def State.keepEarly (s : State) (f : Frame) : State :=
  let b := f.body
  let e : EarlyGrant := { slice := recNat b 0 2, seq := recNat b 2 2, attempt := recBits b 4 1 3 0, node := recNat b 6 2, rep := recNat b 5 1
                          phase := recBits b 4 1 6 6, src := f.src, granted := recNat b 8 4, done := recBits b 12 4 30 0, seen := recBits b 12 4 31 31 == 1 }
  let same (x : EarlyGrant) : Bool := { x with granted := 0, done := 0, seen := false } == { e with granted := 0, done := 0, seen := false }
  if s.col.early.any same then
    s.setCol { s.col with early := mapFirst same (fun x => { e with granted := max x.granted e.granted, done := max x.done e.done, seen := x.seen || e.seen }) s.col.early }
  else if s.col.early.length < 4096 then s.setCol { s.col with early := s.col.early ++ [e] }
  else s.bumpSat fCOL_DROPS_EARLY_DROP

/-- A GRANT updates what a sender may send and what its peer has done, or is kept early (R511, R515). -/
def execGrantReceive (src : Endpoint) (s : State) : Host.Outcome State Fault Refusal :=
  .next (match s.takeColl src.toNat 1 with
    | none => s
    | some (f, s1) => match s1.matchColl f with
      | .stale => s1.bumpSat fCOL_DROPS_STALE
      | .past => s1
      | .mismatch slot => s1.collMismatch slot f
      | .unarmed _ => s1.keepEarly f
      | .hit no h => match s1.coll? no with
        | none => s1
        | some c => match c.txOf (recBits f.body 4 1 6 6) h with
          | none => s1.collMismatch c.slot f
          | some w =>
            let w' := { w with granted := max w.granted (recNat f.body 8 4), done := max w.done (recBits f.body 12 4 30 0)
                               sizesSeen := w.sizesSeen || recBits f.body 12 4 31 31 == 1 }
            let heard (r : CollRx) : CollRx := if r.peer = h then { r with heardAt := s1.time.nowNs } else r
            (s1.modColl no fun v => { (v.setTx w') with rx := v.rx.map heard }).progress c.slot c.core instCollect)

/-- Chunks done of what has come from a peer, of a length known or not: whole chunks from the first on. -/
def Coll.doneOf (c : Coll) (r : CollRx) : Nat :=
  let ends := (r.got.foldl (fun m p => aput m p.1 p.2) ([] : List (Nat × Nat))).foldl (fun e p => if p.1 ≤ e then max e p.2 else e) 0
  match r.len with
  | some n => if n ≤ ends then c.chunks n else ends / c.chunk
  | none => ends / c.chunk

/-- Merge a byte range into those that have come. -/
def mergeGot (l : List (Nat × Nat)) (lo hi : Nat) : List (Nat × Nat) :=
  let sorted := aput l lo (max hi ((aget l lo).getD 0))
  (sorted.foldl (fun (acc : List (Nat × Nat)) p => match acc with
    | [] => [p]
    | q :: rest => if p.1 ≤ q.2 then (q.1, max q.2 p.2) :: rest else p :: q :: rest) []).reverse

/-- What has come from a peer of an operation that does not reduce has changed: DONE follows, and a GRANT when it has grown (R511). -/
def State.advanceRx (s : State) (no phase h : Nat) : State := match s.coll? no with
  | none => s
  | some c => match c.rxOf phase h with
    | none => s
    | some r =>
      let d := c.doneOf r
      if d ≤ r.done then s
      else
        let cap := match r.len with
          | some n => c.chunks n
          | none => d + c.window
        (s.modColl no fun v => v.setRx { r with done := d, granted := max r.granted (min (d + c.window) cap) }).sendGrant no phase h

/-- One more piece of a contribution. -/
def addPiece (l : List ((Nat × Nat) × List (Nat × List Byte × Bool))) (key : Nat × Nat) (p : Nat × List Byte × Bool) :
    List ((Nat × Nat) × List (Nat × List Byte × Bool)) :=
  if l.any fun e => e.1 == key then mapFirst (fun e => e.1 == key) (fun e => (e.1, e.2 ++ [p])) l else l ++ [(key, [p])]

/-- A receiver writes or folds a DATA cell (R513, R516, R517). -/
def execCollectDataReceive (src : Endpoint) (s : State) : Host.Outcome State Fault Refusal :=
  .next (match s.takeColl src.toNat 0 with
    | none => s
    | some (f, s1) => match s1.matchColl f with
      | .stale => s1.bumpSat fCOL_DROPS_STALE
      | .past => s1.collMismatch ((s1.steps.slots.find? (fun e => e.2.slice == recNat f.body 0 2 && e.2.seq % 65536 == recNat f.body 2 2)).map (·.1) |>.getD 64) f
      | .mismatch slot => s1.collMismatch slot f
      | .unarmed slot => s1.collMismatch slot f
      | .hit no h => match s1.coll? no with
        | none => s1
        | some c =>
          let phase := recBits f.body 4 1 6 6
          let lo := recNat f.body 8 4
          let n := recBits f.body 12 4 11 0 + 1
          let bad := recBits f.body 12 4 12 12 == 1
          match c.rxOf phase h, s1.step? c.slot with
          | some r, some t =>
            let bound := match r.len with
              | some m => m
              | none => c.rxCap * c.rowBytes
            if bound < lo + n ∨ r.granted * c.chunk < lo + n then s1.collMismatch c.slot f
            else if c.op = 6 ∧ !c.started then s
            else
              let data := byteField f.body 16 n
              let s2 := (s1.modColl no fun v => v.setRx { r with heardAt := s1.time.nowNs }).progress c.slot c.core instCollect
              if c.reduces ∧ phase = 0 then
                let key := (lo / c.chunk, h)
                let piece := (lo % c.chunk, data, bad)
                (s2.modColl no fun v => { v with stage := addPiece v.stage key piece }).foldAll no
              else
                let s3 := s2.collPut no (s2.collDst c t.rank phase h + lo) data bad
                (s3.modColl no fun v => match v.rxOf phase h with
                  | some q => v.setRx { q with got := mergeGot q.got lo (lo + n) }
                  | none => v).advanceRx no phase h
          | _, _ => s1.collMismatch c.slot f)

/-- An A2AV or A2AV_RET receiver takes a SIZES cell and answers with a GRANT with SIZES_SEEN (R507, R508, R513). `entries` are the sender's send-list entries for
this member, which an A2AV receiver writes into its receive list. -/
def execSizesReceive (src : Endpoint) (entries : List DWord) (s : State) : Host.Outcome State Fault Refusal :=
  .next (match s.takeColl src.toNat 2 with
    | none => s
    | some (f, s1) => match s1.matchColl f with
      | .stale => s1.bumpSat fCOL_DROPS_STALE
      | .past => s1
      | .mismatch slot => s1.collMismatch slot f
      | .unarmed slot => s1.collMismatch slot f
      | .hit no h => match s1.coll? no with
        | none => s1
        | some c =>
          let rows := recNat f.body 8 4
          match c.rxOf 0 h, s1.step? c.slot with
          | some r, some t =>
            if !c.unequal ∨ c.rxCap < rows then s1.collMismatch c.slot f
            else if c.op = 6 ∧ !c.started then s
            else if c.op = 6 ∧ rows ≠ s1.ldNat (c.area + 64 + 16 * c.memberRank t.rank h) 4 then s1.collMismatch c.slot f
            else
              let s2 := (s1.modColl no fun v => v.setRx { r with sizes := some rows, len := some (rows * c.rowBytes), heardAt := s1.time.nowNs }).progress
                c.slot c.core instCollect
              let s3 := if c.op = 5 ∧ r.sizes.isNone then (s2.collEntry c h rows).collList c h ((entries.take rows).map fun e => leBytes 8 e.toNat) else s2
              let s4 := s3.modColl no fun v => match v.rxOf 0 h with
                | some q => v.setRx { q with done := max q.done (v.doneOf q) }
                | none => v
              s4.sendGrant no 0 h
          | _, _ => s1.collMismatch c.slot f)

/-! ### Resends, completion (R513, R514, R529) -/

/-- The resend interval in ns; 0 acts as 1 (R530). -/
def State.resendNs (s : State) : Nat := 1000 * (max 1 (s.getF fCOL_CFG_RESEND_US))

/-- Whether a receive from member h is owed a repeated GRANT (R514). -/
def State.grantOwed (s : State) (c : Coll) (h : Nat) (r : CollRx) : Bool :=
  r.peer == h && decide (0 < r.grantAt) && decide (max r.grantAt r.heardAt + s.resendNs ≤ s.time.nowNs) &&
    ((match r.len with
      | some n => decide (r.done < c.chunks n)
      | none => true) || (c.unequal && r.sizes.isNone))

/-- After RESEND_US without word from a peer the member resends its GRANT, or its SIZES cell (R514). -/
def execCollectResendTimeout (core : LCore) (node : Half) (rep : Byte) (peer : Half) (s : State) : Host.Outcome State Fault Refusal :=
  .next (match s.col.colls.find? (fun c => c.core == core.val && c.node == node.toNat && c.rep % 256 == rep.toNat) with
    | none => s
    | some c =>
      let h := peer.toNat
      let s1 := (c.rx.filter (s.grantOwed c h)).foldl (fun st r => (st.sendGrant c.no r.phase h).bumpSat fCOL_RESENDS_COUNT) s
      match c.txOf 0 h with
      | some w =>
        if w.sizesSent && !w.sizesSeen && decide (w.sizesAt + s.resendNs ≤ s.time.nowNs) then (s1.sendSizes c.no h).bumpSat fCOL_RESENDS_COUNT else s1
      | none => s1)

/-- Whether a collective is complete on this member (R513). -/
def Coll.finished (c : Coll) : Bool :=
  c.started && c.selfDone &&
  (c.tx.all fun w => (match w.len with
    | some n => decide (c.chunks n ≤ w.done) && decide (c.chunks n ≤ w.sent)
    | none => false) && (!c.unequal || w.sizesSeen)) &&
  (c.rx.all fun r => (match r.len with
    | some n => decide (c.chunks n ≤ r.done)
    | none => false) && (!c.unequal || r.sizes.isSome)) &&
  (!c.reduces || decide (c.reduced.length = c.chunks ((c.rxLen 0 c.own).getD 0)))

/-- The header of an A2AV's receive area (R507). -/
def State.collHeaderArea (s : State) (c : Coll) : State :=
  let rows := (List.range c.size).map fun h => s.ldNat (c.rxTable + 64 + 16 * h) 4
  s.st c.rxTable (leBytes 4 (sumNat rows) ++ leBytes 4 (rows.filter (· != 0)).length ++ leBytes 4 (rows.foldl max 0) ++ leBytes 4 c.size)

/-- The done tile (R529). -/
def Coll.doneTile (c : Coll) : Tile :=
  let flags := c.degraded.toNat + 2 * c.late.toNat + 4 * c.poison.toNat
  let st := if c.reduces then c.statusOf 0 c.piece (fun e => (e / 2048 % 2048, e % 2048)) else 0
  { status := st, rows := 1, cols := 4, format := 0x0B, layout := 0, last := c.last
    payload := leBytes 4 (c.rep + 1) ++ leBytes 4 c.written ++ leBytes 4 flags ++ leBytes 4 0 }

/-- The op of a collective's last repeat has ended. -/
def State.collOpEnd (s : State) (c : Coll) : State := match c.opEnd, s.step? c.slot with
  | some e, some t => s.traceInst t c.core instCollect c.node 0x03 e.1 e.2
  | _, _ => s

/-- A collective whose sends are acknowledged and receives done completes: its slot is free, and its done tile is due (R513, R529). -/
def execCollectComplete (core : LCore) (s : State) : Host.Outcome State Fault Refusal :=
  .next (match s.collHead core with
    | none => s
    | some c =>
      if !c.finished then s
      else
        let s0 := if c.op = 5 then s.collHeaderArea c else s
        let s1 := s0.setCol { s0.col with colls := s0.col.colls.filter (·.no != c.no), complete := s0.col.complete ++ [(c.slot, c.node, c.rep % 256)] }
        let s2 := (s1.bumpWrap (fCOL_SEQ_DONE_COUNT (c.core / 8))).progress c.slot c.core instCollect
        let s3 := if !c.dstQ && c.outQ != noQ then
            s2.modInst c.slot c.core instCollect fun v => { v with outbox := v.outbox ++ [{ q := c.outQ, tile := c.doneTile, origin := 6, node := c.node, rep := c.rep }] }
          else s2
        s3.collOpEnd c)

end Sys2Proof.Machine
end

