-- ==== Sys2Proof/Machine/Flow.lean ====
section
/-! DEFINITION. How a step runs from its context copy to PREPARED, and how it aborts (R58–R64, R68, R84–R95, R105, R109–R112, R189–R192, R560, R655–R658). -/

namespace Sys2Proof.Machine

open Sys2Proof

/-! ### Contexts and START_TIME (R190, R191, R560) -/

/-- A step's stream entries copied into its contexts in list order; a stream that is not ACTIVE is excluded with NOT_ACTIVE (R190, R191, R235). -/
def State.copyContexts (s : State) (i : Nat) : State := match s.step? i with
  | none => s
  | some t =>
    let s1 := (List.range t.streams.length).foldl (fun (st : State) k => match t.streams[k]? with
      | none => st
      | some r =>
        let e := st.entry r.id
        let st1 := st.putCtx i k 0 (ctxOfEntry r.id e)
        if entState e = 1 then st1 else (st1.excludeStream i k 0x21).bumpSat fSTREAM_EVENTS_NOT_ACTIVE) s
    s1.modStep i fun u => { u with ctxDone := true }

/-- STREAM_CTX_COPY_DONE (R190): every entry has been fetched. -/
def execStreamCtxCopyDone (slot : StepIx) (s : State) : Host.Outcome State Fault Refusal :=
  .next (match s.step? slot with
    | some t => if t.phase == .queued && t.ctxBegun && t.ctxPend.isEmpty && !t.ctxDone then s.copyContexts slot else s
    | none => s)

/-- Whether a step's START_TIME has come: none given, its action fired, or fabric time has reached it (R79, R561). -/
def State.startDue (s : State) (t : Step) : Bool :=
  t.startTime == 0 || t.startCome || (!t.onAction && s.ftSet && decide (t.startTime ≤ s.time.ft))

/-- Eligible under R83: accepted, its streams held by no earlier step, START_TIME come. -/
def State.eligible (s : State) (t : Step) : Bool := t.phase == .queued && !s.streamHeld t && s.startDue t

/-- Whether two steps use a core in common. -/
def State.shareCore (s : State) (a b : Step) : Bool := ((s.graphOf a).mask &&& (s.graphOf b).mask) != 0

/-- Whether a step holds its cores: RUNNING, or not yet quiesced after an abort. -/
def Step.onCores (t : Step) : Bool := t.phase == .running || (t.phase == .aborted && t.quiescing)

/-- Whether step b goes before step a on a core they share (R84). -/
def startsBefore (b a : Step) : Bool := decide (b.startTime < a.startTime) || (b.startTime == a.startTime && decide (b.fetchNo < a.fetchNo))

/-- Whether the step of slot i may enter RUNNING but for START_TIME: copies made, cores awake, no step on its cores, and no eligible step that goes before it
on a core they share (R83, R84, R190, R715). -/
def State.mayRun (s : State) (i : Nat) (t : Step) : Bool :=
  t.phase == .queued && !s.streamHeld t && t.ctxDone && (s.stepCores t).all (fun c => decide ((s.coreSt c).power < 2)) &&
    s.steps.slots.all fun e => e.1 == i || !s.shareCore e.2 t || (!e.2.onCores && !(s.eligible e.2 && startsBefore e.2 t))

/-! ### Entering RUNNING (R88, R189, R315, R666) -/

/-- Whether a logical core cannot run a step: no physical core, FAULTED, in a span that is FAULTED or in reset, or under an L2 in progress (R666). -/
def State.coreDown (s : State) (c : Nat) : Bool :=
  (s.physOf c).isNone || s.isSet (fSPN_FAULTED_SPAN (c / 16)) || (s.getF (fSPN_FAULTED_CORES (c / 16))).testBit (c % 16) || s.spanInReset (c / 16) ||
    s.faults.resets.any fun r => r.doms.any (·.has c)

/-- The instances of a step's graph that take part: those whose program is more than END (R68). -/
def State.instsOf (s : State) (t : Step) : List InstRun :=
  let g := s.graphOf t
  g.starts.flatMap fun e => (e.2.zip instOrder).filterMap fun p =>
    if opCode (s.opAt t p.1) = 0 then none
    else some { core := e.1, inst := p.2, start := p.1, pc := p.1, progEnd := (aget g.ends e.1).getD 0, progressAt := s.time.nowNs,
                hung := s.faults.injections.any fun j => j.kind == 5 && j.a == e.1 && j.b == p.2 }

/-- The queues of a step's graph, empty, each producer with a credit for each slot (R58). -/
def State.queuesOf (s : State) (t : Step) : List (Nat × Queue) :=
  let a := (s.graphOf t).addr
  let h := s.ld a 64
  (List.range (imgQueues h)).map fun q => (q, queueOf (s.ldNat (a + imgQueueOff h + 16 * q) 16))

/-- A step's contexts with the staged fields equal to the committed ones and STAGED set (R189). -/
def State.stageContexts (s : State) (i n : Nat) : State := (List.range n).foldl (fun st k =>
  let c := st.ctx i k
  let v := recBits c 2 1 2 0
  ((st.putCtx i k 2 (leBytes 1 (128 + 16 * v + v))).putCtx i k 16 (byteField c 12 4)).putCtx i k 40 (byteField c 36 4)) s

/-- A stream of a step with its owner CQ and that CQ's current function recorded (R315). -/
def State.ownerOfStream (s : State) (r : StreamRun) : StreamRun :=
  let n := recBits (s.entry r.id) 2 2 14 0
  { r with ownerCq := n, ownerFid := s.cqFid n }

/-- The step of a slot enters RUNNING: every instance program and the deadline timer start. With a core down it aborts at once with CORE_DOWN. -/
def State.enterRunning (s : State) (i : Nat) (t : Step) (late : Bool) : State :=
  let t0 := { t with phase := .running, lateStart := late, runAt := s.time.nowNs, streams := t.streams.map s.ownerOfStream }
  if (s.stepCores t).any s.coreDown then
    let s1 := (s.setStep i t0).stepFault i 0x18 { unitKind := 6, unitIx := (((s.stepCores t).find? s.coreDown).getD 0) * 256 + 0xFF }
    s1.abortPost i 0x10
  else
    let s1 := s.stageContexts i t.streams.length
    let s2 := s1.setStep i { t0 with ran := true, insts := s1.instsOf t, queues := s1.queuesOf t, endAt := s.time.nowNs }
    (s.stepCores t).foldl (fun st c =>
      (((st.stopTrestle c).modCore c fun v => { v with power := 0, usedAt := st.time.nowNs, usedCyc := st.cycOf c }).trace c
        { event := 0x01, slice := t.slice, seq := t.seq, attempt := t.attempt, arg0 := t.streams.length, arg1 := t.handle })) s2

/-- STEP_RUN (R88): late when START_TIME has passed by more than the 50 ns of R560. -/
def execStepRun (slot : StepIx) (s : State) : Host.Outcome State Fault Refusal :=
  .next (match s.step? slot with
    | some t =>
      if s.startDue t && s.mayRun slot t then
        s.enterRunning slot t (t.startTime != 0 && (t.lateStart || decide (t.startTime + 50 < s.time.ft)))
      else s
    | none => s)

/-- START_TIME_REACHED (R560): the step enters RUNNING when nothing else holds it; else it will be late. -/
def execStartTimeReached (slot : StepIx) (s : State) : Host.Outcome State Fault Refusal :=
  .next (match s.step? slot with
    | some t =>
      if t.phase == .queued && t.startTime != 0 && s.startDue t then
        if s.mayRun slot t then s.enterRunning slot t (t.lateStart || decide (t.startTime + 50 < s.time.ft))
        else s.modStep slot fun u => { u with startCome := true, lateStart := true }
      else s
    | none => s)

/-! ### Tiles and credits (R57–R61) -/

/-- TILE_EMIT (R59): instances that emit in one same cycle, in ascending order of core and instance. -/
def execTileEmit (slot : StepIx) (who : List (LCore × Byte)) (s : State) : Host.Outcome State Fault Refusal :=
  .next (who.foldl (fun st e => st.emitOne slot e.1.val e.2.toNat) s)

/-- The format codes of the tile formats (R157). -/
def fmtNamed (f : Nat) : Bool := decide (1 ≤ f ∧ f ≤ 0x0B) || decide (0x10 ≤ f ∧ f ≤ 0x15) || decide (0x20 ≤ f ∧ f ≤ 0x23)

/-- The oldest tile of a queue on its way, and the queue with it at the head. -/
def Queue.arrive (u : Queue) : Option (Tile × Queue) := match u.items.find? (fun it => !it.arrived) with
  | some it => some (it.tile, { u with items := mapFirst (fun v => !v.arrived) (fun v => { v with arrived := true }) u.items })
  | none => none

/-- Whether a station computes on the elements of its input tiles: TRESTLE, VECTOR, ATTEND, DISPATCH, SAMPLE, CONVERT and COLLECT. -/
def computes (inst : Nat) : Bool := (decide (0x40 ≤ inst) && decide (inst < 0xA0)) || inst == instCollect

/-- TILE_ARRIVE (R125): the oldest tile on its way reaches the head. A tile of a reserved format aborts the step (R157), and so does one whose payload is shorter
than its shape needs at a station that computes on it (R53, log entry 94); a COLLECT takes what its collective
needs (R505, R520); the other checks are made by the op that reads the tile. -/
def execTileArrive (slot : StepIx) (queue : BitVec 12) (s : State) : Host.Outcome State Fault Refusal :=
  let q := queue.toNat
  .next (match s.step? slot with
    | none => s
    | some t => match t.queue? q with
      | none => s
      | some u => match u.arrive with
        | none => s
        | some (tile, v) =>
          if t.phase != .running then s
          else
            let s1 := s.modQueue slot q fun _ => v
            if !fmtNamed tile.format || (computes u.consInst && tile.short) then s1.stepFault slot cOperand (instInfo u.consCore u.consInst 0)
            else if u.consInst = instCollect then match s1.collHead u.consCore with
              | some c => if c.slot = slot.val then s1.collTake c.no collFuel else s1
              | none => s1
            else s1)

/-- SLOT_RELEASE (R59): the consumer has ended its last read of the oldest tile; its slot is free and its credit on its way. A queue between devices grants one more
credit to the sending device (R469). -/
def execSlotRelease (slot : StepIx) (queue : BitVec 12) (s : State) : Host.Outcome State Fault Refusal :=
  let q := queue.toNat
  .next (match (s.step? slot).bind (·.queue? q) with
    | none => s
    | some u => match u.items with
      | [] => s
      | it :: rest =>
        if it.read then
          let s1 := s.modQueue slot q fun v => { v with items := rest, flight := v.flight + 1 }
          if u.kind = 2 ∧ u.prodInst / 16 = 0xC then s1.grantMore slot q else s1
        else s)

/-- CREDIT_ARRIVE (R59): a returned credit reaches its producer, to be spent from the next cycle on. -/
def execCreditArrive (slot : StepIx) (queue : BitVec 12) (s : State) : Host.Outcome State Fault Refusal :=
  .next (match (s.step? slot).bind (·.queue? queue.toNat) with
    | none => s
    | some u =>
      if 0 < u.flight then s.modQueue slot queue.toNat fun v => { v.gain (s.cycOf v.prodCore) with flight := v.flight - 1 } else s)

/-! ### The end of a step (R64, R68, R88, R97, R105, R112, R192) -/

/-- Whether an instance still owes work of the ops before its END: tiles staged or awaited, requests that wait, a collective, a pass. -/
def State.owes (s : State) (x : OpCtx) : Bool :=
  let mine (slot core inst : Nat) : Bool := slot == x.slot && core == x.core && inst == x.inst
  let t := s.trsOf x.core
  !x.run.outbox.isEmpty || s.rmt.results.any (fun r => mine r.slot r.core r.inst) || s.rmt.waiting.any (fun w => mine w.req.slot w.req.core w.req.inst) ||
    (x.inst == instCollect && s.col.colls.any fun c => c.slot == x.slot && c.core == x.core) ||
    (x.inst == instTrestle && (t.pass.isSome || !t.banks.isEmpty))

/-- END_OP (R68): the instance takes no further part in the step. -/
def execEndOp (slot : StepIx) (core : LCore) (inst : Byte) (s : State) : Host.Outcome State Fault Refusal :=
  .next (match s.active slot core inst.toNat with
    | none => s
    | some x =>
      if !x.atEnd || s.owes x then s
      else ((s.unstall x).modInst slot core inst.toNat fun r => { r with ended := true }).modStep slot fun t => { t with endAt := s.time.nowNs })

/-- TOP.FLT_CFG.NP_US in ns. -/
def State.npNs (s : State) : Nat := 1000 * (s.getF fTOP_FLT_CFG_NP_US)

/-- Whether a queue is empty and its producer holds all its credits. -/
def Queue.whole (u : Queue) : Bool := u.items.isEmpty && u.flight == 0 && u.credits + u.fresh == u.depth

/-- What a step leaves behind: a queue that is not whole, or a codebook feed that still holds a run (R64). -/
def State.residue (s : State) (t : Step) : Option FaultInfo := match t.queues.find? (fun e => !e.2.whole) with
  | some e => some { (instInfo e.2.consCore e.2.consInst 0) with arg1 := e.1 }
  | none => match (s.stepCores t).find? (fun c => !(s.cbkOf c).runs.isEmpty) with
    | some c => some (instInfo c instTrestle 0)
    | none => none

/-- The cores of a step that stops running on them count their idle time from now (R714). -/
def State.coresIdle (s : State) (t : Step) : State :=
  (s.stepCores t).foldl (fun st c => st.modCore c fun v => { v with usedAt := st.time.nowNs, usedCyc := st.cycOf c }) s

/-- A step enters PREPARED: its streams' staged fields go to their entries, and READY goes to ranks 0 and 1, or a slice of one rank commits (R88, R97, R105, R192). -/
def State.prepare (s : State) (i : Nat) (t : Step) : State :=
  let s1 := (List.range t.streams.length).foldl (fun st k => match t.streams[k]? with
    | some r => if r.excl.isNone then st.writeBackCtx i k r.id else st
    | none => st) ((s.setStep i { t with phase := .prepared }).coresIdle t)
  if t.ranks ≤ 1 then s1.commitStep i { commit := true }
  else
    let out := t.exclList
    let s2 := [0, 1].foldl (fun st r => if r = t.rank then st else st.sendCommit 0x0F t.slice t.seq t.attempt r none out) s1
    if t.rank ≤ 1 then s2.recordReady t.slice t.seq t.attempt t.rank out else s2

/-- STEP_DRAIN_END (R64): the credits have come back or NP_US has passed; the queues are checked, and the step enters PREPARED or aborts. -/
def execStepDrainEnd (slot : StepIx) (s : State) : Host.Outcome State Fault Refusal :=
  .next (match s.step? slot with
    | none => s
    | some t =>
      if t.phase == .running && t.insts.all (·.ended) && (t.queues.all (fun e => e.2.flight == 0) || decide (t.endAt + s.npNs ≤ s.time.nowNs)) then
        match s.residue t with
        | some fi => s.stepFault slot 0x09 fi
        | none => if 16 < t.exclList.length then s.stepFault slot 0x14 else s.prepare slot t
      else s)

/-! ### Faults and aborts -/

/-- STEP_FAULT (R109): a step-wide cause of R650 is detected at an instance of a running step. -/
def execStepFault (slot : StepIx) (cause : Half) (core : LCore) (inst : Byte) (s : State) : Host.Outcome State Fault Refusal :=
  .next (if 1 ≤ cause.toNat ∧ cause.toNat ≤ 0x18 then s.stepFault slot cause.toNat (instInfo core inst.toNat 0) else s)

/-- The arrival counters that WAIT ops of a step's graph name, set to 0 (R480). -/
def State.clearCounters (s : State) (t : Step) : State :=
  t.insts.foldl (fun st r =>
    if r.inst / 16 = 0xE then
      (List.range ((r.progEnd - r.start) / 32)).foldl (fun (a : State × Bool) k =>
        let op := st.opAt t (r.start + 32 * k)
        if a.2 || opCode op == 0 then (a.1, true) else (a.1.setArrival (opF op 1 47 34) 0, false)) (st, false) |>.1
    else st) s

/-- ABORT_QUIESCE_DONE (R110): every instance has stopped; queues, collectives and the Trestle are empty, the graph's counters 0, and ABORTED is posted. -/
def execAbortQuiesceDone (slot : StepIx) (s : State) : Host.Outcome State Fault Refusal :=
  .next (match s.step? slot with
    | none => s
    | some t =>
      if t.phase == .aborted && t.quiescing && t.insts.all (fun r => !r.hung || r.stopped) then
        let s1 := (s.stepCores t).foldl (fun st c => (st.stopTrestle c).modCore c fun v => { v with usedAt := st.time.nowNs, usedCyc := st.cycOf c }) s
        ((s1.clearCounters t).dropColls slot).abortPost slot (abortStatus t.cause t.abortLocal)
      else s)

/-- The HANG record of an instance (R649). -/
def State.hangRec (s : State) (t : Step) (r : InstRun) (level : Nat) (since : Nat) : State :=
  let op := s.opAt t r.pc
  s.errRec { typ := 0x04, sev := 2, cause := 0x01, level := level, injected := r.hung, slice := t.slice, seq := t.seq, attempt := t.attempt, unitKind := 6,
             unitIx := r.core * 256 + r.inst, node := opNode op, arg0 := s.time.nowNs - since, arg1 := (r.pc - r.start) / 32, arg2 := r.rep, owner := some t.fid }

/-- ABORT_STOP_TIMEOUT (R658): an instance not stopped 4 µs after its step aborted is reset at L2, and its core marked FAULTED; the fault counts as a call for L2 of the
core (R667). -/
def execAbortStopTimeout (slot : StepIx) (core : LCore) (inst : Byte) (s : State) : Host.Outcome State Fault Refusal :=
  .next (match s.step? slot with
    | none => s
    | some t => match t.inst? core inst.toNat with
      | none => s
      | some r =>
        if t.phase == .aborted && t.quiescing && !r.stopped && decide (t.abortAt + 4000 ≤ s.time.nowNs) then
          let s1 := (s.hangRec t r (s.startLevel 2 (.core core)) r.progressAt).cancelOnFault fun j => !r.hung && j.inDomain (.core core)
          let s2 := s1.markFaulted (.core core) true
          if s2.inRecovery (.core core) then s2.escalate 2 (.core core) false false []
          else (s2.openWindow 2 1 [.core core]).startReset 2 [.inst core inst.toNat] 2 false false [] false
        else s)

/-- DEADLINE_EXPIRE (R88, R98): a RUNNING step aborts with DEADLINE; rank 0 that lacks some READY proposes ABORT. -/
def execDeadlineExpire (slot : StepIx) (s : State) : Host.Outcome State Fault Refusal :=
  .next (match s.step? slot with
    | none => s
    | some t =>
      if t.deadlineUs = 0 ∨ s.time.nowNs < t.runAt + 1000 * t.deadlineUs then s
      else if t.phase = .running then s.stepFault slot 0x06
      else if t.phase = .prepared ∧ t.rank = 0 ∧ (s.coord t.slice t.seq t.attempt).ready.length < t.ranks then
        s.propose t.slice t.seq t.attempt { commit := false, cause := 0x06 }
      else s)

/-- IN_DOUBT_TIMEOUT (R88): the deadline and 50 µs have passed in PREPARED. -/
def execInDoubtTimeout (slot : StepIx) (s : State) : Host.Outcome State Fault Refusal :=
  .next (match s.step? slot with
    | none => s
    | some t =>
      if t.phase == .prepared && t.deadlineUs != 0 && decide (t.runAt + 1000 * t.deadlineUs + 50000 ≤ s.time.nowNs) then s.enterInDoubt slot else s)

/-- The last progress that quiets an instance's timer: its own, and while it waits for a tile or a credit that of the queue's other end (R656). -/
def Step.lastProgress (t : Step) (r : InstRun) : Nat :=
  if r.stall = 1 ∨ r.stall = 2 then match t.queue? r.stallArg with
    | some u =>
      let o := if r.stall = 1 then t.inst? u.prodCore u.prodInst else t.inst? u.consCore u.consInst
      match o with
      | some v => max r.progressAt v.progressAt
      | none => r.progressAt
    | none => r.progressAt
  else r.progressAt

/-- NO_PROGRESS_TIMEOUT (R657): an instance without progress for NP_US raises HANG; the fault calls for L2 of the instance (R667). -/
def execNoProgressTimeout (slot : StepIx) (core : LCore) (inst : Byte) (s : State) : Host.Outcome State Fault Refusal :=
  .next (match s.step? slot with
    | none => s
    | some t => match t.inst? core inst.toNat with
      | none => s
      | some r =>
        let since := t.lastProgress r
        if t.phase == .running && !r.ended && r.stall != 4 && decide (since + s.npNs ≤ s.time.nowNs) then
          let s1 := (s.hangRec t r (s.callLevel 2 (.inst core inst.toNat)) since).bumpSat fTOP_FLT_COUNTS_HANGS
          (s1.stepFault slot 0x01 { quiet := true }).faultCall 2 (.inst core inst.toNat) r.hung
        else s)

end Sys2Proof.Machine
end

