-- ==== Sys2Proof/Machine/Commit.lean ====
section
/-! DEFINITION. The commit round: the cells it receives and its timeouts (R96–R105, R112). -/

namespace Sys2Proof.Machine

open Sys2Proof

/-- A commit cell's payload read under R96. -/
structure CommitCell where
  slice : Nat
  seq : Nat
  sender : Nat
  attempt : Nat
  dec : Nat
  takeover : Bool
  cause : Nat
  excl : List Nat
  deriving DecidableEq, Repr

/-- The fields of a payload. -/
def commitOf (b : List Byte) : CommitCell :=
  { slice := recNat b 6 2, seq := recNat b 0 6, sender := recNat b 8 2, attempt := recBits b 10 1 3 0, dec := recBits b 11 1 7 6,
    takeover := recBits b 11 1 5 5 == 1, cause := recNat b 12 4, excl := (List.range (recBits b 11 1 4 0)).map fun k => recNat b (16 + 2 * k) 2 }

/-- Whether a payload is one R96 gives its type: its reserved bytes and unused entries 0, at most 16 exclusions, a decision where one is due. -/
def commitClean (typ : Nat) (b : List Byte) : Bool :=
  let c := commitOf b
  let n := recBits b 11 1 4 0
  recBits b 10 1 7 4 == 0 && decide (n ≤ 16) && (byteField b 48 16).all (· == 0) && (byteField b (16 + 2 * n) (32 - 2 * n)).all (· == 0) &&
    (match typ with
      | 0x0F => c.dec == 0 && !c.takeover
      | 0x13 => c.dec == 0 || c.dec == 2
      | _ => c.dec == 1 || c.dec == 2)

/-- The decision a cell carries. -/
def CommitCell.decision (c : CommitCell) : Decision := { commit := c.dec == 1, cause := c.cause, excl := c.excl, takeover := c.takeover }

/-- A commit cell discarded (R103, R104). -/
def State.badCommit (s : State) : State := s.bumpSat fTOP_STEP_EVENTS_BAD_DECISION

/-- A cell's ATTEMPT is one under which the step is held, or the step is not held (R103). -/
def State.attemptCurrent (s : State) (c : CommitCell) : Bool :=
  let held := s.steps.slots.filter fun e => e.2.slice == c.slice && e.2.seq == c.seq
  held.isEmpty || held.any fun e => e.2.attempt == c.attempt

/-- Take the oldest commit cell of a type from a source, check it under R96 and R103, and use it: `coordOnly` admits ranks 0 and 1 and the current ATTEMPT alone. The
number given to `use` is the sender's rank. -/
def State.takeCommit (s : State) (typ src : Nat) (coordOnly : Bool) (use : State → CommitCell → Nat → State) : State := match s.takeFrame typ src with
  | none => s
  | some (f, s1) =>
    let c := commitOf f.body
    match (if s1.sliceValid c.slice then s1.endpointRank c.slice src else none) with
    | none => s1.badCommit
    | some r =>
      if !commitClean typ f.body || r != c.sender || (coordOnly && (decide (1 < r) || !s1.attemptCurrent c)) then s1.badCommit
      else use s1 c r

/-- The resolved record of a step's attempt. -/
def State.resolvedOf (s : State) (c : CommitCell) : Option Resolved :=
  s.steps.resolved.find? fun r => r.slice == c.slice && r.seq == c.seq && r.attempt == c.attempt

/-- The slot that holds a step under this attempt. -/
def State.heldAs (s : State) (slice seq attempt : Nat) : Option (Nat × Step) :=
  s.steps.slots.find? fun e => e.2.slice == slice && e.2.seq == seq && e.2.attempt == attempt

/-- Keep an abort of a step not yet fetched in the early-abort table (R89). -/
def State.keepAbort (s : State) (c : CommitCell) : State :=
  let e : EarlyAbort := ⟨c.slice, c.seq, c.attempt, c.cause⟩
  if s.steps.early.any (fun x => x.slice == c.slice && x.seq == c.seq && x.attempt == c.attempt) then s
  else if s.steps.early.length < 64 then { s with steps := { s.steps with early := s.steps.early ++ [e] } }
  else { s with steps := { s.steps with early := s.steps.early.drop 1 ++ [e] } }.bumpSat fTOP_STEP_EVENTS_EARLY_DROP

/-- Send DECISION to every other rank of a slice (R100, R101). -/
def State.sendDecisions (s : State) (slice seq attempt : Nat) (d : Decision) : State :=
  (cyclicRanks (s.sliceRanks slice) (s.sliceOwnRank slice)).foldl (fun st r => st.sendCommit 0x12 slice seq attempt r (some d) d.excl) s

/-- READY_RECEIVE (R98): ranks 0 and 1 record it; rank 0 proposes COMMIT once it holds every READY. -/
def execReadyReceive (src : Endpoint) (s : State) : Host.Outcome State Fault Refusal :=
  .next (s.takeCommit 0x0F src.toNat false fun st c r =>
    if st.sliceOwnRank c.slice ≤ 1 then st.recordReady c.slice c.seq c.attempt r c.excl else st.badCommit)

/-- DECIDE_RECEIVE (R99): rank 1 records the first decision that reaches it and answers with its record. -/
def execDecideReceive (src : Endpoint) (s : State) : Host.Outcome State Fault Refusal :=
  .next (s.takeCommit 0x10 src.toNat true fun st c r =>
    if st.sliceOwnRank c.slice ≠ 1 ∨ r ≠ 0 then st.badCommit
    else
      let k := st.coord c.slice c.seq c.attempt
      let d := k.recorded.getD c.decision
      (st.setCoord { k with recorded := some d }).sendCommit 0x11 c.slice c.seq c.attempt 0 (some d) d.excl)

/-- DECIDE_ACK_RECEIVE (R101): rank 0 sends rank 1's recorded decision to every other rank, then applies it. -/
def execDecideAckReceive (src : Endpoint) (s : State) : Host.Outcome State Fault Refusal :=
  .next (s.takeCommit 0x11 src.toNat true fun st c r =>
    if st.sliceOwnRank c.slice ≠ 0 ∨ r ≠ 1 then st.badCommit
    else
      let k := st.coord c.slice c.seq c.attempt
      if k.proposal.isNone || k.sent || k.noDecision then st
      else
        let s1 := (st.setCoord { k with sent := true }).sendDecisions c.slice c.seq c.attempt c.decision
        match s1.heldAs c.slice c.seq c.attempt with
        | some e => s1.applyDecision e.1 c.decision
        | none => s1)

/-- DECIDE_ACK_TIMEOUT (R102): 20 µs without DECIDE_ACK; rank 0 goes IN_DOUBT from PREPARED, and sends no DECISION. -/
def execDecideAckTimeout (slice : Half) (seq : BitVec 48) (attempt : Fin 16) (s : State) : Host.Outcome State Fault Refusal :=
  let k := s.coord slice.toNat seq.toNat attempt
  .next (if k.proposal.isSome && !k.sent && !k.noDecision && decide (k.decideAt + 1000 * (s.getF fTOP_STEP_CFG_TAKEOVER_US) ≤ s.time.nowNs) then
    let s1 := s.setCoord { k with noDecision := true }
    match s1.heldAs slice.toNat seq.toNat attempt with
    | some e => if e.2.phase = .prepared then s1.enterInDoubt e.1 else s1
    | none => s1
  else s)

/-- Rank 1 records a decision by takeover, sends it to every other rank, then applies it (R99, R100, R112). -/
def State.takeOver (s : State) (i : Nat) (t : Step) (commit : Bool) : State :=
  let k := s.coord t.slice t.seq t.attempt
  let d := limitDecision { commit := commit, cause := if commit then 0 else 0x06, excl := k.union, takeover := true }
  ((((s.setCoord { k with recorded := some d }).bumpSat fTOP_STEP_EVENTS_TAKEOVERS).sendDecisions t.slice t.seq t.attempt d)).applyDecision i d

/-- TAKEOVER_COMMIT_TIMEOUT (R99): 20 µs with every READY and no DECIDE. -/
def execTakeoverCommitTimeout (slot : StepIx) (s : State) : Host.Outcome State Fault Refusal :=
  .next (match s.step? slot with
    | none => s
    | some t =>
      let k := s.coord t.slice t.seq t.attempt
      match k.allReadyAt with
      | some a =>
        if t.rank == 1 && k.recorded.isNone && decide (a + 1000 * (s.getF fTOP_STEP_CFG_TAKEOVER_US) ≤ s.time.nowNs) then s.takeOver slot t true else s
      | none => s)

/-- TAKEOVER_ABORT_TIMEOUT (R99): rank 1's deadline and 20 µs have passed without a DECIDE while it lacks some READY. -/
def execTakeoverAbortTimeout (slot : StepIx) (s : State) : Host.Outcome State Fault Refusal :=
  .next (match s.step? slot with
    | none => s
    | some t =>
      let k := s.coord t.slice t.seq t.attempt
      if t.rank == 1 && t.ran && t.deadlineUs != 0 && k.allReadyAt.isNone && k.recorded.isNone &&
          decide (t.runAt + 1000 * t.deadlineUs + 1000 * (s.getF fTOP_STEP_CFG_TAKEOVER_US) ≤ s.time.nowNs) then s.takeOver slot t false
      else s)

/-- A DECISION that contradicts the first: discarded, counted, and recorded (R104, R649). -/
def State.contradicts (s : State) (c : CommitCell) (src : Nat) (fid : Option Nat) : State :=
  s.badCommit.errRec { typ := 0x11, sev := 2, slice := c.slice, seq := c.seq, attempt := c.attempt, arg0 := src, arg1 := c.dec, owner := fid }

/-- DECISION_RECEIVE (R104): the first is applied, a repeat ignored, a contradiction discarded; an ABORT for a step not yet fetched is kept (R89). -/
def execDecisionReceive (src : Endpoint) (s : State) : Host.Outcome State Fault Refusal :=
  .next (s.takeCommit 0x12 src.toNat true fun st c _ =>
    match st.heldAs c.slice c.seq c.attempt with
    | some e => match e.2.applied with
      | some d => if d.commit = (c.dec == 1) then st else st.contradicts c src.toNat (some e.2.fid)
      | none => st.applyDecision e.1 c.decision
    | none => match st.resolvedOf c with
      | some r => if r.committed = (c.dec == 1) then st else st.contradicts c src.toNat none
      | none => if c.dec = 2 then st.keepAbort c else st)

/-- ABORT_CELL_RECEIVE (R88, R98): it aborts a step that is QUEUED or RUNNING, and one not yet fetched is kept in the early-abort table; rank 0 also proposes ABORT
when it does not hold that member's READY. -/
def execAbortCellReceive (src : Endpoint) (s : State) : Host.Outcome State Fault Refusal :=
  .next (s.takeCommit 0x13 src.toNat false fun st c r =>
    let s1 := match st.heldAs c.slice c.seq c.attempt with
      | some e => st.abortRemote e.1 c.cause
      | none => if (st.resolvedOf c).isSome then st else st.keepAbort c
    if st.sliceOwnRank c.slice = 0 ∧ ¬ (st.coord c.slice c.seq c.attempt).ready.any (·.1 == r) then
      s1.propose c.slice c.seq c.attempt { commit := false, cause := c.cause }
    else s1)

end Sys2Proof.Machine
end

