-- ==== Sys2Proof/Machine/Convert.lean ====
section
/-! DEFINITION. The CONVERT station (R174–R176). -/

namespace Sys2Proof.Machine

open Sys2Proof

/-- The formats CONVERT writes (R156). -/
def convertOut (f : Nat) : Bool := (decide (1 ≤ f) && decide (f ≤ 0x0B)) || isMx f

/-- The dot depth of an OUT_D or IN_D code. -/
def depthOf (c : Nat) : Nat := match c with
  | 0 => 8 | 1 => 4 | _ => 2

/-- Whether a CONVERT op keeps the layout of R174, as far as the op alone shows. -/
def convertOk (x : OpCtx) : Bool :=
  let op := x.op
  let lay := opF op 1 41 40
  opInA op != noQ && opInB op == noQ && opOut op != noQ && convertOut (opF op 1 47 42) && decide (lay ≤ 2) && opF op 1 39 38 != 3 && opF op 1 37 36 != 3 &&
    (lay == 2 || opF op 1 39 38 == 0) && (lay != 2 || bFormat (opF op 1 47 42)) && opF op 0 1 0 == 0 && opF op 1 26 0 == 0 && opF op 2 63 0 == 0 &&
    opF op 3 63 0 == 0

/-- The exact input value under SHIFT, its NaN marked with the ORIGIN of R182: a table entry, a block scale, or an element already NaN. -/
def convertIn (fmt shift : Nat) (v : Val) : Val := match v with
  | .nan o => if isCb fmt then .nan 0 else if o = 1 then .nan 1 else .nan 5
  | v => v.scale (signedOf 8 shift)

/-- One repeat of a CONVERT op. -/
def State.convert (s : State) (x : OpCtx) : State := match x.head (opInA x.op) with
  | none => s.stallOn x 1 (opInA x.op)
  | some t0 =>
    let op := x.op
    let inD := opF op 1 37 36
    let lay := opF op 1 41 40
    let packed := t0.layout == 2 && !isCb t0.format
    if (!packed && inD != 0) || (lay == 2 && decide (128 < t0.cols)) || t0.short (depthOf inD) then s.opFault x cOperand
    else
      let t := if t0.sparse then s.openTile t0 else t0
      let vals := (t.values (depthOf inD)).map fun row => row.map (convertIn t.format (opF op 1 34 27))
      let w := writeVals (opF op 1 47 42) lay (depthOf (opF op 1 39 38)) (opF op 1 35 35 == 1) (Config.free s.freeCtr) t.rows t.cols vals
      let out : Tile := { status := w.status, coordC := t.coordC, coordR := t.coordR, rows := t.rows, cols := t.cols, format := opF op 1 47 42, layout := lay,
                          poison := t.poison, payload := w.payload }
      (((s.drew.stage x out (x.owners t.rows) w.origin).endInA x)).endRepeat x

/-- A CONVERT op converts one tile. -/
def execConvert (slot : StepIx) (core : LCore) (ix : Fin 2) (s : State) : Host.Outcome State Fault Refusal :=
  .next (s.runOp slot core (0x90 + ix) [1] 1 convertOk State.convert)

end Sys2Proof.Machine
end

