-- ==== Sys2Proof/Machine/Route.lean ====
section
/-! DEFINITION. The DISPATCH station (R222–R226). -/

namespace Sys2Proof.Machine

open Sys2Proof

def instDispatch : Nat := 0x70

/-- Whether a ROUTE op keeps R222. -/
def routeOk (x : OpCtx) : Bool :=
  let op := x.op
  opInA op != noQ && opInB op == noQ && opOut op != noQ && opF op 1 43 42 != 3 && opF op 1 15 0 != 0 && opF op 2 39 0 % 64 == 0 && opF op 3 39 0 % 64 == 0 &&
    opF op 0 1 0 == 0 && opF op 1 41 32 == 0 && opF op 2 63 40 == 0 && opF op 3 63 40 == 0

/-- An entry of the expert map (R223). -/
structure Expert where
  valid : Bool
  slot : Nat
  rank : Nat
  deriving DecidableEq, Repr

/-- The expert map at an address. -/
def State.experts (s : State) (a n : Nat) : List Expert := (List.range n).map fun i =>
  let w := s.ldNat (a + 4 * i) 4
  ⟨decide (w / 2 ^ 31 = 1), w / 2 ^ 16 % 4096, w % 65536⟩

/-- The probabilities of a token row (R224). -/
def routeProbs (norm : Nat) (es : List Expert) (row : List Val) : List Val :=
  let p := (row.zip es).map fun e =>
    if !e.2.valid || e.1.isNan then Val.inf true
    else if norm = 2 then div32 (.fin false 1 0) (add32 (.fin false 1 0) (exp32 e.1.negate))
    else e.1
  if norm = 2 then p else softRow (.fin false 1 0) p

/-- The chosen experts of a row: descending probability, the lower expert on ties; never −∞, zero or NaN (R224). -/
def routeChoose (k : Nat) (p : List Val) : List (Nat × Val) :=
  let cand := ((List.range p.length).zip p).filter fun e => !(e.2 == .inf true) && !e.2.isZero && !e.2.isNan
  cand.foldl (fun a e => (ins e a).take k) []
where
  /-- A candidate put in its place. -/
  ins (e : Nat × Val) : List (Nat × Val) → List (Nat × Val)
    | [] => [e]
    | y :: ys => if y.2.lt e.2 then e :: y :: ys else y :: ins e ys

/-- A kept choice of the send list (R225). -/
structure SendRow where
  rank : Nat
  slot : Nat
  row : Nat
  j : Nat
  weight : Val
  deriving DecidableEq, Repr

/-- Choices of all rows with CAP applied in token order (R224): the kept choices and the count dropped. -/
def routeKeep (cap : Nat) (es : Array Expert) (choices : List (Nat × Nat × Nat × Val)) : List SendRow × Nat :=
  let r := choices.foldl (fun (a : List SendRow × List (Nat × Nat) × Nat) c =>
    let n := (aget a.2.1 c.2.2.1).getD 0
    if cap = 0 ∨ n < cap then
      let e := es.getD c.2.2.1 ⟨false, 0, 0⟩
      (a.1 ++ [⟨e.rank, e.slot, c.1, c.2.1, c.2.2.2⟩], aput a.2.1 c.2.2.1 (n + 1), a.2.2)
    else (a.1, a.2.1, a.2.2 + 1)) ([], [], 0)
  (r.1, r.2.2)

/-- The order of the send list: rank, slot, token row, choice (R225). -/
def sendBefore (a b : SendRow) : Bool :=
  if a.rank ≠ b.rank then decide (a.rank < b.rank)
  else if a.slot ≠ b.slot then decide (a.slot < b.slot)
  else if a.row ≠ b.row then decide (a.row < b.row)
  else decide (a.j < b.j)

/-- A row put in its place in the send list. -/
def sendInsert (e : SendRow) : List SendRow → List SendRow
  | [] => [e]
  | y :: ys => if sendBefore e y then e :: y :: ys else y :: sendInsert e ys

/-- The dispatch area (R225), and its three header counts. -/
def routeArea (ranks units dropped : Nat) (rows : List SendRow) : List Byte × Nat × Nat :=
  let sorted := rows.foldl (fun a e => sendInsert e a) []
  let counts := (List.range ranks).map fun r => (sorted.filter (·.rank == r)).length
  let most := counts.foldl max 0
  let firsts := (counts.foldl (fun (a : List Nat × Nat) c => (a.1 ++ [a.2], a.2 + c)) ([], 0)).1
  let table := (counts.zip firsts).flatMap fun e => leBytes 4 e.1 ++ leBytes 4 e.2 ++ leBytes 8 (e.1 * units * 16)
  let list := sorted.flatMap fun e => leBytes 8 (2 ^ 32 * (toF32 e.weight) + 2 ^ 28 * e.j + 2 ^ 16 * e.slot + e.row)
  (leBytes 4 sorted.length ++ leBytes 4 dropped ++ leBytes 4 most ++ leBytes 4 ranks ++ List.replicate 48 0 ++ table ++ list, sorted.length, most)

/-- The dispatch area and the values of the summary tile that a logits tile gives under an expert map (R224, R225). -/
def State.routeBuild (s : State) (x : OpCtx) (t : Tile) (es : List Expert) : List Byte × List Nat :=
  let op := x.op
  let norm := opF op 1 43 42
  let k := opF op 1 47 44 + 1
  let area := opF op 3 39 0
  let ps := ((s.openTile t).values 8).map (routeProbs norm es)
  let choices := ((List.range ps.length).zip ps).flatMap fun r =>
    let ch := routeChoose k r.2
    let sum := ch.foldl (fun a c => add32 a c.2) (.fin false 0 0)
    ((List.range ch.length).zip ch).map fun c => (r.1, c.1, c.2.1, if norm = 0 then c.2.2 else div32 c.2.2 sum)
  let kept := routeKeep (opF op 1 31 16) es.toArray choices
  let ar := routeArea x.step.ranks (opF op 1 15 0) kept.2 kept.1
  (ar.1, [ar.2.1, kept.2, ar.2.2, x.step.ranks, area % 2 ^ 32, area / 2 ^ 32, 0, 0])

/-- The summary tile of a ROUTE op (R225). -/
def routeTile (vals : List Nat) (poison : Bool) : Tile :=
  { rows := 1, cols := 8, format := 0x0B, layout := 0, poison := poison, payload := vals.flatMap (leBytes 4 ·) }

/-- One repeat of a ROUTE op. -/
def State.routeOp (s : State) (x : OpCtx) : State := match x.head (opInA x.op) with
  | none => s.stallOn x 1 (opInA x.op)
  | some t =>
    let mapA := opF x.op 2 39 0
    let area := opF x.op 3 39 0
    if !(t.format == 1 || t.format == 2) || t.layout != 0 then s.opFault x cOperand
    else match s.addrCheck [(mapA, 4 * t.cols)] with
      | some (cause, a) => s.opFault x cause 0 a
      | none =>
        let es := s.experts mapA t.cols
        if es.any fun e => e.valid && decide (x.step.ranks ≤ e.rank) then s.opFault x cOperand
        else
          let b := s.routeBuild x t es
          match s.addrCheck [(area, b.1.length)] with
          | some (cause, a) => s.opFault x cause 0 a
          | none => ((((s.access area b.1.length true true).st area b.1).stage x (routeTile b.2 t.poison) []).endInA x).endRepeat x

/-- One repeat of a ROUTE op. -/
def execRoute (slot : StepIx) (core : LCore) (s : State) : Host.Outcome State Fault Refusal :=
  .next (s.runOp slot core instDispatch [1] 1 routeOk State.routeOp)

end Sys2Proof.Machine
end

