-- ==== Sys2Proof/Machine/Sample.lean ====
section
/-! DEFINITION. The SAMPLE station (R227–R232). -/

namespace Sys2Proof.Machine

open Sys2Proof

def instSample : Nat := 0x80

/-! ### Philox 4×32-10 (R229) -/

/-- One round of Philox 4×32. -/
def philoxRound (c : Nat × Nat × Nat × Nat) (k0 k1 : Nat) : Nat × Nat × Nat × Nat :=
  let p0 := 0xD2511F53 * c.1
  let p1 := 0xCD9E8D57 * c.2.2.1
  (p1 / 2 ^ 32 ^^^ c.2.1 ^^^ k0, p1 % 2 ^ 32, p0 / 2 ^ 32 ^^^ c.2.2.2 ^^^ k1, p0 % 2 ^ 32)

/-- n rounds, the keys stepped after each. -/
def philoxGo : Nat → Nat × Nat × Nat × Nat → Nat → Nat → Nat × Nat × Nat × Nat
  | 0, c, _, _ => c
  | n + 1, c, k0, k1 => philoxGo n (philoxRound c k0 k1) ((k0 + 0x9E3779B9) % 2 ^ 32) ((k1 + 0xBB67AE85) % 2 ^ 32)

/-- u of draw j (R229). -/
def drawU (seed count j id : Nat) : Val :=
  let x0 := (philoxGo 10 (count % 2 ^ 32, count / 2 ^ 32 % 2 ^ 32, j, id) (seed % 2 ^ 32) (seed / 2 ^ 32 % 2 ^ 32)).1
  .fin false (x0 / 2 ^ 8) (-24)

/-! ### A draw (R230) -/

/-- What sampling needs of a stream's context. -/
structure DrawCtx where
  seed : Nat
  count : Nat
  id : Nat
  temp : Val
  topP : Val
  topK : Nat
  deriving DecidableEq, Repr

/-- The candidates of a row in order: descending z, the lower token on ties; at most k of them, none at −∞. -/
def candidates (k : Nat) (z : List Val) : List (Nat × Val) :=
  (((List.range z.length).zip z).filter fun e => !(e.2 == .inf true)).foldl (fun a e => (ins e a).take k) []
where
  /-- A candidate put in its place. -/
  ins (e : Nat × Val) : List (Nat × Val) → List (Nat × Val)
    | [] => [e]
    | y :: ys => if y.2.lt e.2 then e :: y :: ys else y :: ins e ys

/-- The cumulative weights of the candidates kept: up to the first that reaches TOP_P. -/
def cumGo (m rz topP : Val) : Val → List (Nat × Val) → List (Nat × Val)
  | _, [] => []
  | c, e :: rest =>
    let c1 := add32 c (mul32 (exp32 (sub32 e.2 m)) rz)
    if topP.le c1 then [(e.1, c1)] else (e.1, c1) :: cumGo m rz topP c1 rest

/-- Draw j from a row of logits (R230); none where every z is −∞. -/
def drawToken (d : DrawCtx) (j : Nat) (logits : List Val) : Option Nat :=
  let zero := d.temp.isZero
  let z := logits.map fun v => match v with
    | .nan _ => Val.inf true
    | v => if zero then v else match div32 v d.temp with
      | .nan _ => .inf true
      | w => w
  let st := softStats (.fin false 1 0) z
  let cs := candidates (if zero then 1 else d.topK) z
  if cs.isEmpty then none
  else
    let cum := cumGo st.1 (recip32 st.2) d.topP (.fin false 0 0) cs
    let target := mul32 (drawU d.seed d.count j d.id) (cum.getLast?.getD (0, .zero)).2
    match cum.find? fun e => target.lt e.2 with
    | some e => some e.1
    | none => cum.getLast?.map (·.1)

/-! ### The walk (R231) -/

/-- The outcome of a walk: accepted count, path, and the token drawn last; none where a draw found no candidate. -/
structure Walk where
  a : Nat
  path : List Nat
  token : Option Nat
  deriving DecidableEq, Repr

/-- The walk from node cur on. `fuel` bounds the draws. -/
def walkGo (draw : Nat → Nat → Option Nat) (stop : Nat → Bool) (limit : Nat → Bool) (child : Nat → Nat → Option Nat) : Nat → Nat → Nat → List Nat → Walk
  | 0, _, _, path => { a := path.length, path := path, token := none }
  | f + 1, cur, j, path =>
    match draw cur j with
    | none => { a := path.length, path := path, token := none }
    | some t =>
      if stop t || path.length == 16 || limit path.length then { a := path.length, path := path, token := some t }
      else match child cur t with
        | none => { a := path.length, path := path, token := some t }
        | some c => walkGo draw stop limit child f c (j + 1) (path ++ [c])

/-! ### The ops -/

def drawOk (x : OpCtx) : Bool :=
  let op := x.op
  opPerStream op && opInA op != noQ && opOut op != noQ && opF op 0 1 0 == 0 && opF op 1 27 0 == 0 && opF op 2 63 0 == 0 && opF op 3 63 0 == 0

def acceptOpOk (x : OpCtx) : Bool :=
  let op := x.op
  opPerStream op && opInA op != noQ && opInB op == noQ && opF op 0 1 0 == 0 && opF op 1 47 0 == 0 && opF op 2 63 0 == 0 && opF op 3 63 0 == 0

/-- Stage the outcome of a stream (R231): STAGED_LEN, STAGED_TOKEN, and FINISHED when the flag says so. -/
def State.stageOutcome (s : State) (x : OpCtx) (a token : Nat) (finished : Bool) : State :=
  let ix := x.run.streamIx
  let l := s.committedLen x
  let st := s.ctxNat x 2 1
  let s1 := (s.putCtx x.slot ix 16 (leBytes 4 (l + a))).putCtx x.slot ix 40 (leBytes 4 token)
  if finished then s1.putCtx x.slot ix 2 (leBytes 1 (128 + 2 * 16 + st % 8)) else s1

/-- The acceptance tile (R232). -/
def acceptTile (a token : Nat) (finished : Bool) (path : List Nat) (id : Nat) (poison : Bool) : Tile :=
  let v : List Int := [(a : Int), (token : Int), if finished then 1 else 0] ++ (List.range 16).map (fun i => match path[i]? with
    | some p => if i < a then (p : Int) else -1
    | none => -1) ++ [(id : Int)]
  { rows := 1, cols := 20, format := 0x0B, layout := 0, poison := poison, payload := v.flatMap fun z => leBytes 4 (unsignedOf 32 z) }

/-- The logits of row n over the vocabulary, from the tiles in order (R228). -/
def logitRow (tiles : List (List (List Val))) (vocab n : Nat) : List Val := (tiles.flatMap fun t => t.getD n []).take vocab

/-- The parameters of a stream's draws, from its context (R227). -/
def State.drawCtx (s : State) (x : OpCtx) : DrawCtx :=
  { seed := s.ctxNat x 28 8, count := s.ctxNat x 20 8, id := (x.step.streams.map (·.id)).getD x.run.streamIx 0, temp := ofF32 (s.ctxNat x 56 4),
    topP := ofF32 (s.ctxNat x 60 4), topK := s.ctxNat x 6 1 }

/-- Whether a token is one of the stream's stop tokens, and whether a walk of a accepted nodes has reached MAX_LEN. -/
def State.drawStop (s : State) (x : OpCtx) (tk : Nat) : Bool := tk == s.ctxNat x 48 4 || tk == s.ctxNat x 52 4
def State.drawFull (s : State) (x : OpCtx) (a : Nat) : Bool := decide (s.ctxNat x 44 4 ≤ s.committedLen x + a)

/-- The walk of a stream over the logits in its tiles, with its tree (R231). -/
def State.drawWalk (s : State) (x : OpCtx) (tiles : List Tile) (tree : Option Tile) (n : Nat) : Walk :=
  let rows := tiles.map fun u => (s.openTile u).values 8
  let par := parentsOf tree n
  let toks := match tree with
    | some u => ((u.ints).getD 1 []).toArray
    | none => #[]
  let child (cur tk : Nat) : Option Nat := (List.range n).find? fun i => i != 0 && par.getD i (-1) == (cur : Int) && toks.getD i (-1) == (tk : Int)
  walkGo (fun cur j => drawToken (s.drawCtx x) j (logitRow rows (opF x.op 1 47 28 + 1) cur)) (s.drawStop x) (s.drawFull x) child 16 0 0 [0]

/-- A stream's walk has ended: its outcome is staged, or without a candidate the stream is excluded and its acceptance tile holds free values. -/
def State.drawEnd (s : State) (x : OpCtx) (w : Walk) (poison : Bool) : State :=
  let s1 := if opInB x.op = noQ then s else s.endRead x (opInB x.op)
  let s2 := match w.token with
    | some tk => s1.stageOutcome x w.a tk (s.drawStop x tk || s.drawFull x w.a)
    | none => s1.excludeStream x.slot x.run.streamIx 0x24
  let tk := match w.token with
    | some v => v
    | none => Config.free s.freeCtr % 2 ^ 20
  let fin := match w.token with
    | some v => s.drawStop x v || s.drawFull x w.a
    | none => Config.free (s.freeCtr + 1) % 2 == 1
  let tile := acceptTile w.a tk fin w.path (s.drawCtx x).id poison
  ((((s2.drew.drew).poisonExcl x.slot x.run.streamIx poison).stage x tile (x.owners 1)).modInst x.slot x.core x.inst fun r => { r with wbytes := [] }).endRepeat x

/-- Whether a logits tile has the form of R228 beside its tree. -/
def drawShape (t : Tile) (tree : Option Tile) : Bool :=
  let n := match tree with
    | some u => u.cols
    | none => 1
  [1, 2, 3].contains t.format && t.rows == n && (match tree with
    | some u => treeOk u n
    | none => true)

/-- One logits tile of one stream of a DRAW op; the tile that covers the vocabulary completes the stream. -/
def State.drawOp (s : State) (x : OpCtx) : State :=
  let op := x.op
  let inB := opInB op
  let tree := if inB = noQ then none else x.head inB
  if inB ≠ noQ ∧ tree.isNone then s.stallOn x 1 inB
  else
    let got := x.run.wbytes.length
    let keep := opHoldA op && !x.lastRep
    match x.head (opInA op) (if keep then got else 0) with
    | none => s.stallOn x 1 (opInA op)
    | some t =>
      if !drawShape t tree then s.opFault x cOperand
      else
        let prev := (List.range got).filterMap fun i => (aget x.run.wbytes i).map fun b => tileOf (b.take 16) (b.drop 16)
        let s1 := if keep then s else s.endRead x (opInA op)
        if sumNat (prev.map (·.cols)) + t.cols < opF op 1 47 28 + 1 then
          (((s1.unstall x).modInst x.slot x.core x.inst fun r => { r with wbytes := aput r.wbytes got (headerBytes t ++ t.payload) }).progress x.slot x.core x.inst)
        else
          let poison := t.poison || prev.any (·.poison) || (match tree with
            | some u => u.poison
            | none => false)
          s1.drawEnd x (s.drawWalk x (prev ++ [t]) tree t.rows) poison

/-- One logits tile of a DRAW op. -/
def execDraw (slot : StepIx) (core : LCore) (s : State) : Host.Outcome State Fault Refusal :=
  .next (s.runOp slot core instSample [1, 2] 1 drawOk State.drawOp)

/-- One stream of an ACCEPT op (R232). -/
def State.acceptOp (s : State) (x : OpCtx) : State := match x.head (opInA x.op) with
  | none => s.stallOn x 1 (opInA x.op)
  | some t =>
    let m := acceptInts t
    let id : Nat := (x.step.streams.map (·.id)).getD x.run.streamIx 0
    if !acceptOk t || m.getD 19 (-1) != (id : Int) then s.opFault x cOperand
    else
      let s1 := s.stageOutcome x (m.getD 0 0).toNat (unsignedOf 32 (m.getD 1 0)) ((m.getD 2 0) % 2 == 1)
      (((s1.poisonExcl x.slot x.run.streamIx t.poison).stage x t (x.owners 1)).endInA x).endRepeat x

/-- One stream of an ACCEPT op. -/
def execAccept (slot : StepIx) (core : LCore) (s : State) : Host.Outcome State Fault Refusal :=
  .next (s.runOp slot core instSample [1, 2] 2 acceptOpOk State.acceptOp)

end Sys2Proof.Machine
end

