-- ==== Sys2Proof/Machine/Security.lean ====
section
/-! DEFINITION. Keys, fuses and attestation: the SPDM responder (R293, R294, R701–R703), the fuse commands (R696, R700, R713), line keys (R704, R705), the debug ports' opening
(R708–R711), and the power states of cores (R714, R715, R720). -/

namespace Sys2Proof.Machine

open Sys2Proof

/-- s with the security state replaced. -/
def State.setSec (s : State) (c : SecSt) : State := { s with sec := c }

/-! ### The SPDM responder (R701–R703) -/

/-- Whether a transport reaches the responder: the DOE mailbox of a link that is up, or MCTP over I3C; the device is out of reset. -/
def State.chanLive (s : State) (ch : Nat) : Bool := s.boot.por && (ch == 4 || s.isSet (fHOST_LINK_UP ch))

/-- What a transport has negotiated: 1 version, 2 capabilities, 3 algorithms. -/
def State.spdmDone (s : State) (ch : Nat) : Nat := (aget s.sec.spdm ch).getD 0
def State.setSpdm (s : State) (ch n : Nat) : State := s.setSec { s.sec with spdm := aput s.sec.spdm ch n }

/-- Response codes and error codes of SPDM 1.3 (PRESUMED, log entry 60). -/
def spdmErr (e : Nat) : Nat × List Byte := (0x7F, [BitVec.ofNat 8 e, 0])
def errInvalid : Nat := 0x01
def errSession : Nat := 0x02
def errUnexpected : Nat := 0x04
def errUnspecified : Nat := 0x05
def errDecrypt : Nat := 0x06
def errLimit : Nat := 0x0A

/-- An answer sent on a transport. -/
def State.answer (s : State) (ch : Nat) (a : Nat × List Byte) : State := s.emit (.spdm ch a.1 a.2)

/-- A request answered once its transport has negotiated as far as it needs; else UnexpectedRequest. -/
def State.spdmReq (s : State) (ch need : Nat) (k : State → State) : State :=
  if !s.chanLive ch then s else if s.spdmDone ch < need then s.answer ch (spdmErr errUnexpected) else k s

/-- A digest and a signature by DEVICE_KEY over a message. -/
def digest (m : List Byte) : List Byte := byteField (Config.sha384 m) 0 48
def State.signed (s : State) (m : List Byte) : List Byte := byteField (Config.ecdsaSign s.freeCtr (Config.sha384 m)) 0 96

/-- Random bytes: a free value. -/
def State.random (s : State) (n : Nat) : List Byte := leBytes n (Config.free s.freeCtr)

/-- Whether DEVICE_KEY is blocked (R711). -/
def State.keyBlocked (s : State) : Bool := s.isSet fSEC_STATE_KEY_BLOCKED

/-- GET_VERSION (R701): 1.3; negotiation starts again. -/
def execGetVersion (chan : Fin 5) (s : State) : Host.Outcome State Fault Refusal :=
  .next (s.spdmReq chan.val 0 fun st => (st.setSpdm chan.val 1).answer chan.val (0x04, [1, 0, 0x13]))

/-- GET_CAPABILITIES (R701). -/
def execGetCapabilities (chan : Fin 5) (s : State) : Host.Outcome State Fault Refusal :=
  .next (s.spdmReq chan.val 1 fun st => (st.setSpdm chan.val (max 2 (st.spdmDone chan.val))).answer chan.val (0x61, []))

/-- NEGOTIATE_ALGORITHMS (R701): `offered` says whether the request offers ECDSA P-384, SHA-384, secp384r1 and AES-256-GCM. -/
def execNegotiateAlgorithms (chan : Fin 5) (offered : Bool) (s : State) : Host.Outcome State Fault Refusal :=
  .next (s.spdmReq chan.val 2 fun st => if offered then (st.setSpdm chan.val 3).answer chan.val (0x63, []) else st.answer chan.val (spdmErr errInvalid))

/-- GET_DIGESTS (R701): slot 0. -/
def execGetDigests (chan : Fin 5) (s : State) : Host.Outcome State Fault Refusal :=
  .next (s.spdmReq chan.val 3 fun st => st.answer chan.val (0x01, (1 : Byte) :: digest Config.identityChain))

/-- GET_CERTIFICATE (R697): a portion of the chain in slot 0, with what remains. -/
def execGetCertificate (chan : Fin 5) (slot : Byte) (offset length : Half) (s : State) : Host.Outcome State Fault Refusal :=
  .next (s.spdmReq chan.val 3 fun st =>
    let c := Config.identityChain.take 4000
    if slot.toNat ≠ 0 ∨ c.length ≤ offset.toNat then st.answer chan.val (spdmErr errInvalid)
    else
      let part := (c.drop offset.toNat).take length.toNat
      st.answer chan.val (0x02, leBytes 2 part.length ++ leBytes 2 (c.length - offset.toNat - part.length) ++ part))

/-- CHALLENGE (R703): signed with DEVICE_KEY, or refused while it is blocked. -/
def execChallenge (chan : Fin 5) (slot : Byte) (nonce : List Byte) (s : State) : Host.Outcome State Fault Refusal :=
  .next (s.spdmReq chan.val 3 fun st =>
    if st.keyBlocked then st.answer chan.val (spdmErr errUnspecified)
    else if slot.toNat ≠ 0 then st.answer chan.val (spdmErr errInvalid)
    else
      let body := digest Config.identityChain ++ st.random 32
      (st.answer chan.val (0x03, body ++ st.signed (nonce ++ body))).drew)

/-- The bytes of the security fuses other than DEVICE_KEY, and IO_GEN (R695, R702). -/
def State.fuseBytes (s : State) : List Byte :=
  ((List.range 4).flatMap Config.rootDigest) ++ leBytes 1 (s.getF fSEC_STATE_ROOT_REVOKED) ++ Config.debugRoot ++ Config.caRoot ++
    ((List.range 4).flatMap fun b => ((aget s.sec.owners b).getD (List.replicate 48 0)) ++ leBytes 1 (aget s.sec.owners b).isSome.toNat ++ leBytes 1 (s.sec.revoked.contains b).toNat) ++
    leBytes 1 (s.getF fSEC_STATE_OWNER_RELEASED) ++ leBytes 1 (s.getF fSEC_SVN_SVN_FOOTING) ++ leBytes 1 (s.getF fSEC_SVN_SVN_IO) ++ leBytes 1 (s.getF fSEC_STATE_LIFECYCLE) ++
    leBytes 1 (s.getF (fD2D_CAP_IO_GEN 0))

/-- Whether the debug ports are open. -/
def State.debugOpen (s : State) : Bool := s.getF fDBG_STATE_STATE == 3

/-- The value of a measurement block (R702). -/
def State.measurement (s : State) (i : Nat) : List Byte :=
  if i = 1 then digest s.fuseBytes
  else if i ≤ 8 then byteField (s.hkCore (i - 2)).running 0 48
  else if i = 9 then leBytes 4 (s.debugOpen.toNat + 2 * s.sec.opened.toNat)
  else digest (((aget s.boot.caps 0).getD []) ++ ((aget s.boot.caps 1).getD []))

/-- A measurement block: index, length, value. -/
def State.measBlock (s : State) (i : Nat) : List Byte := leBytes 1 i ++ leBytes 2 (s.measurement i).length ++ s.measurement i

/-- GET_MEASUREMENTS (R702, R703): index 0 asks for the number of blocks, 0xFF for all; `sign` for a signature, which a blocked key refuses. -/
def execGetMeasurements (chan : Fin 5) (sign : Bool) (index : Byte) (nonce : List Byte) (s : State) : Host.Outcome State Fault Refusal :=
  .next (s.spdmReq chan.val 3 fun st =>
    let i := index.toNat
    if sign && st.keyBlocked then st.answer chan.val (spdmErr errUnspecified)
    else if 10 < i ∧ i ≠ 0xFF then st.answer chan.val (spdmErr errInvalid)
    else
      let blocks := if i = 0 then [(10 : Byte)] else if i = 0xFF then (10 : Byte) :: (List.range 10).flatMap fun k => st.measBlock (k + 1) else (1 : Byte) :: st.measBlock i
      let body := blocks ++ st.random 32
      (st.answer chan.val (0x60, if sign then body ++ st.signed (nonce ++ body) else body)).drew)

/-- A session of a transport. -/
def State.session (s : State) (ch id : Nat) : Option SpdmSession := s.sec.sessions.find? fun v => v.id == id && v.chan == ch

/-- s with a session changed, and without it. -/
def State.modSession (s : State) (id : Nat) (k : SpdmSession → SpdmSession) : State := s.setSec { s.sec with sessions := mapFirst (·.id == id) k s.sec.sessions }
def State.dropSession (s : State) (id : Nat) : State := s.setSec { s.sec with sessions := dropFirst (·.id == id) s.sec.sessions }

/-- KEY_EXCHANGE (R701, R703): a session opens, while fewer than 4 are, with a fresh DHE share and a signature. -/
def execKeyExchange (chan : Fin 5) (slot : Byte) (share : List Byte) (s : State) : Host.Outcome State Fault Refusal :=
  .next (s.spdmReq chan.val 3 fun st =>
    if st.keyBlocked then st.answer chan.val (spdmErr errUnspecified)
    else if slot.toNat ≠ 0 then st.answer chan.val (spdmErr errInvalid)
    else if 4 ≤ st.sec.sessions.length then st.answer chan.val (spdmErr errLimit)
    else
      let id := st.sec.nextSession
      let body := leBytes 2 id ++ st.random 128
      ((st.setSec { st.sec with sessions := st.sec.sessions ++ [⟨id, chan.val, false, 0, 0⟩], nextSession := id + 1 }).answer chan.val
        (0x64, body ++ st.signed (share ++ body))).drew)

/-- A request inside a session of the transport, open or in handshake. -/
def State.sessionReq (s : State) (ch id : Nat) (open' : Bool) (k : State → State) : State :=
  if !s.chanLive ch then s
  else match s.session ch id with
    | some v => if v.open' = open' then k s else s.answer ch (spdmErr errUnexpected)
    | none => s.answer ch (spdmErr errSession)

/-- FINISH (R701): the handshake completes when its verify data check, else the session ends. -/
def execFinish (chan : Fin 5) (session : Half) (verified : Bool) (s : State) : Host.Outcome State Fault Refusal :=
  .next (s.sessionReq chan.val session.toNat false fun st =>
    if verified then (st.modSession session.toNat fun v => { v with open' := true }).answer chan.val (0x65, [])
    else (st.dropSession session.toNat).answer chan.val (spdmErr errDecrypt))

/-- HEARTBEAT (R701). -/
def execHeartbeat (chan : Fin 5) (session : Half) (s : State) : Host.Outcome State Fault Refusal :=
  .next (s.sessionReq chan.val session.toNat true fun st => st.answer chan.val (0x68, []))

/-- KEY_UPDATE (R701): 0 the requester's key, 1 both keys, 2 a check of the new one. -/
def execKeyUpdate (chan : Fin 5) (session : Half) (op : Fin 3) (s : State) : Host.Outcome State Fault Refusal :=
  .next (s.sessionReq chan.val session.toNat true fun st =>
    (st.modSession session.toNat fun v =>
      { v with reqKey := if op.val = 2 then v.reqKey else v.reqKey + 1, rspKey := if op.val = 1 then v.rspKey + 1 else v.rspKey }).answer chan.val (0x69, leBytes 1 (op.val + 1)))

/-- END_SESSION (R701). -/
def execEndSession (chan : Fin 5) (session : Half) (s : State) : Host.Outcome State Fault Refusal :=
  .next (s.sessionReq chan.val session.toNat true fun st => (st.answer chan.val (0x6C, [])).dropSession session.toNat)

/-- IDE_KM (R293, R295, R701): inside a secured session over the link's DOE mailbox, keys bring an IDE stream (0 the link stream, 1–4 selective) into the Secure state. A link that
is up and had failed for want of one serves again. -/
def execIdeKm (link : LinkIx) (session : Half) (stream : Fin 5) (s : State) : Host.Outcome State Fault Refusal :=
  .next (s.sessionReq link.val session.toNat true fun st =>
    let l := link.val
    ((st.setLink l { st.link l with ideSecure := insNat stream.val (st.link l).ideSecure, failed := false }).setF (fHOST_LINK_IDE_SECURE l) 1).answer l (0xFE, leBytes 1 stream.val))

/-- DOE_DISCOVERY (R294): the PF's mailbox lists DOE discovery, CMA/SPDM and secured CMA/SPDM: vendor, protocol, next index. -/
def execDoeDiscovery (link : LinkIx) (index : Byte) (s : State) : Host.Outcome State Fault Refusal :=
  .next (if !s.chanLive link.val then s
  else s.emit (.spdm link.val 0 (match index.toNat with
    | 0 => [1, 0, 0, 1]
    | 1 => [1, 0, 1, 2]
    | 2 => [1, 0, 2, 0]
    | _ => [0xFF, 0xFF, 0, 0])))

/-! ### Fuses (R696, R700, R713) -/

/-- SEC.STATE.OWNER_BANK as the fuses give it. -/
def State.showOwner (s : State) : State := s.setF fSEC_STATE_OWNER_BANK (match s.sec.activeBank with
  | some b => b + 1
  | none => 0)

/-- OWNER_BIND: the digest of a public key into the lowest bank not bound. -/
def State.ownerBind (s : State) (data : Option (List Byte)) (f : InFlight) : State :=
  if s.isSet fSEC_STATE_OWNER_RELEASED then s.finish f 0xF5 []
  else match (List.range 4).find? fun b => (aget s.sec.owners b).isNone with
    | none => s.finish f 0xF4 []
    | some b => match s.hostGet f (recNat f.desc 16 8) 96 data with
      | (s1, none) => s1.finish f 0xF6 []
      | (s1, some k) => (((s1.setSec { s1.sec with owners := aput s1.sec.owners b (digest k) }).showOwner).secRec 6 b 0).finish f 0xF0 (leBytes 1 b)

/-- OWNER_BIND (R696): a digest is burnt into the lowest free bank. -/
def execOwnerBind (sq : RingNo) (data : Option (List Byte)) (s : State) : Host.Outcome State Fault Refusal := .next (s.ringCmd sq.toNat 0x90 fun st => st.ownerBind data)

/-- OWNER_REVOKE: the active bank is revoked. -/
def State.ownerRevoke (s : State) (f : InFlight) : State :=
  if s.isSet fSEC_STATE_OWNER_RELEASED then s.finish f 0xF5 []
  else match s.sec.activeBank with
    | none => s.finish f 0xF5 []
    | some b => (((s.setSec { s.sec with revoked := insNat b s.sec.revoked }).showOwner).secRec 8 b 0).finish f 0xF0 (leBytes 1 b)

/-- OWNER_REVOKE (R696): the active bank is revoked. -/
def execOwnerRevoke (sq : RingNo) (s : State) : Host.Outcome State Fault Refusal := .next (s.ringCmd sq.toNat 0x91 State.ownerRevoke)

/-- OWNER_RELEASE (R713). -/
def execOwnerRelease (sq : RingNo) (s : State) : Host.Outcome State Fault Refusal :=
  .next (s.ringCmd sq.toNat 0x92 fun st f => ((st.setF fSEC_STATE_OWNER_RELEASED 1).secRec 7 0 0).finish f 0xF0 [])

/-- SVN_ADVANCE (R700). -/
def State.svnAdvance (s : State) (f : InFlight) : State :=
  let kind := recNat f.desc 8 1
  let v := recNat f.desc 9 1
  let now := if kind = 1 then s.getF fSEC_SVN_SVN_FOOTING else s.getF fSEC_SVN_SVN_IO
  if kind = 0 ∨ 2 < kind ∨ 64 < v then s.finish f 0xF1 []
  else if v < now ∨ (List.range 7).any fun k => s.hkState k == 2 && imgKind (s.hkCore k).image == kind && decide ((s.hkCore k).svn < v) then s.finish f 0xF5 []
  else (if kind = 1 then s.setF fSEC_SVN_SVN_FOOTING v else s.setF fSEC_SVN_SVN_IO v).finish f 0xF0 (leBytes 1 v)

/-- SVN_ADVANCE (R700): a version counter is burnt up to a value. -/
def execSvnAdvance (sq : RingNo) (s : State) : Host.Outcome State Fault Refusal := .next (s.ringCmd sq.toNat 0x93 State.svnAdvance)

/-! ### The debug ports (R708–R711) -/

/-- The device-key digest. -/
def deviceDigest : List Byte := digest Config.devicePublicKey

/-- DEBUG_CHALLENGE (R708, R710): a fresh nonce; only while LOCKED or CHALLENGED. -/
def State.debugChallenge (s : State) (ok : Bool) (f : InFlight) : State :=
  if 2 ≤ s.getF fDBG_STATE_STATE then s.finish f 0xF5 []
  else
    let n := s.random 48
    match (s.drew).hostPut f (recNat f.desc 16 8) (n ++ deviceDigest) ok with
    | (s1, false) => s1.finish f 0xF6 []
    | (s1, true) => (((s1.setSec { s1.sec with nonce := some n }).setF fDBG_STATE_STATE 1).secRec 3 0 0).finish f 0xF0 []

/-- DEBUG_CHALLENGE (R708): a nonce is issued. -/
def execDebugChallenge (sq : RingNo) (ok : Bool) (s : State) : Host.Outcome State Fault Refusal := .next (s.ringCmd sq.toNat 0x94 fun st => st.debugChallenge ok)

/-- A token's fields that must hold a given value (R709). -/
def tokenShape (t : List Byte) : Bool := recNat t 0 4 == 0x00010000 && recBits t 4 4 31 2 == 0 && recBits t 4 4 1 0 != 0 && recNat t 8 8 == 0 && recNat t 120 8 == 0

/-- No valid nonce, or NOT_AFTER has passed (R709, R722). -/
def State.tokenStale (s : State) (t : List Byte) : Bool :=
  let na := recNat t 112 8
  s.sec.nonce != some (byteField t 16 48) || (na != 0 && (!s.ftSet || decide (na < s.time.ft)))

/-- The DEVICE field, the key digests and the signatures of a token hold (R709). -/
def State.tokenSigned (s : State) (t : List Byte) : Bool :=
  let dg := Config.sha384 (t.take 128)
  byteField t 64 48 == deviceDigest && Config.sha384 Config.debugKey == Config.debugRoot && Config.ecdsaVerify Config.debugKey dg (byteField t 128 96) &&
    (!s.needsOwner || (match s.sec.activeBank with
      | some b => aget s.sec.owners b == some (digest (byteField t 320 96)) && Config.ecdsaVerify (byteField t 320 96) dg (byteField t 224 96)
      | none => false))

/-- The memory keys behind n bytes from a device address, as runs. -/
def State.keyRuns (s : State) (a n : Nat) : List (Nat × Nat) :=
  (List.range (n / 4096)).foldl (fun l i => match s.placeKey (s.place (a + 4096 * i)), l with
    | some k, (lo, hi) :: rest => if hi = k then (lo, k + 4096) :: rest else (k, k + 4096) :: l
    | some k, [] => [(k, k + 4096)]
    | none, _ => l) []

/-- The stream table and the context area (R185, R189). -/
def State.streamKeys (s : State) : List (Nat × Nat) :=
  s.keyRuns (0x800000 * (s.getF fSTREAM_TABLE_LO_ADDR_LO) + 2 ^ 32 * (s.getF fSTREAM_TABLE_HI_ADDR_HI)) 0x800000 ++
    s.keyRuns (0x1000000 * (s.getF fSTREAM_CTX_LO_ADDR_LO) + 2 ^ 32 * (s.getF fSTREAM_CTX_HI_ADDR_HI)) 0x1000000

/-- Every IDE stream leaves the Secure state with its keys; while IDE is required its link has failed (R295). -/
def State.dropIde (s : State) (ps : List (RingNo × Bool × Word)) : State := (List.range 4).foldl (fun st l =>
  if (st.link l).ideSecure.isEmpty then st
  else
    let s1 := (st.setLink l { st.link l with ideSecure := [] }).setF (fHOST_LINK_IDE_SECURE l) 0
    if s1.isSet fHOST_CFG_IDE_REQUIRED && !(s1.link l).failed then s1.linkFail l false ps else s1) s

/-- Steps 1 to 4 of R711. -/
def State.beginErase (s : State) (scope : Nat) (ps : List (RingNo × Bool × Word)) (f : InFlight) : State :=
  let s1 := ((s.setF fDBG_STATE_STATE 2).setF fSEC_STATE_KEY_BLOCKED 1).secRec 4 scope 0
  let s2 := (List.range 34).foldl (fun st p => st.darkPort p 0x0E) s1
  let s3 := s2.dropAllKeys
  let s4 := (s3.setSec { s3.sec with nonce := none, sessions := [], erasing := some f.no, scope := scope, eraseKeys := s.streamKeys }).dropIde ps
  ((s4.startFlight f scope 0).openWindow 4 0 [.device]).startReset 4 [.device] 4 false false [] false

/-- A token refused: the nonce is spent (R710). -/
def State.refuseToken (s : State) (code : Nat) (f : InFlight) : State :=
  ((((s.setSec { s.sec with nonce := none }).setF fDBG_STATE_STATE 0).bumpSat fDBG_STATE_REFUSED).secRec 5 code 0).finish f code []

/-- DEBUG_UNLOCK: `ps` are the pointers read for rings that move when IDE is required and its keys go. -/
def State.debugUnlock (s : State) (token : Option (List Byte)) (ps : List (RingNo × Bool × Word)) (f : InFlight) : State :=
  if s.getF fDBG_STATE_STATE ≠ 1 then s.finish f 0xF5 []
  else match s.hostGet f (recNat f.desc 16 8) 416 token with
    | (s1, none) => s1.finish f 0xF6 []
    | (s1, some t) =>
      if !tokenShape t then s1.finish f 0xF1 []
      else if s1.tokenStale t then s1.refuseToken 0xF3 f
      else if !s1.tokenSigned t then s1.refuseToken 0xF2 f
      else s1.beginErase (recNat t 4 4) ps f

/-- DEBUG_UNLOCK (R709–R711). -/
def execDebugUnlock (sq : RingNo) (token : Option (List Byte)) (ptrs : List (RingNo × Bool × Word)) (s : State) : Host.Outcome State Fault Refusal :=
  .next (s.ringCmd sq.toNat 0x95 fun st => st.debugUnlock token ptrs)

/-- s with runs of memory keys holding 0. -/
def State.zeroKeys (s : State) (runs : List (Nat × Nat)) : State :=
  runs.foldl (fun st r => (st.setMem (st.mm.mem.clear r.1 r.2)).setPoison (st.mm.poison.filter fun b => decide (b * 64 + 64 ≤ r.1) || decide (r.2 ≤ b * 64))) s

/-- Every SRAM of every die, erased (R711 step 5); a housekeeping core that runs stops with its boot SRAM. -/
def State.eraseSrams (s : State) : State :=
  let s1 := s.zeroKeys ((List.range 8).map (fun n => (deckKey n 0, deckKey n 0x8000000)) ++ (List.range 144).map (fun p => (spadKey p 0, spadKey p 0x300000)) ++ s.sec.eraseKeys)
  let s2 : State := { s1 with trs := [], cbk := [], rmt := { s1.rmt with comb := [] }, router := {}, parts := [], streams := {}, tele := {}
                              mm := { s1.mm with spans := s1.mm.spans.map fun (e : Nat × SpanSt) => (e.1, { e.2 with cache := [] }) } }
  let s3 : State := { s2 with ports := s2.ports.map fun (e : Nat × PortSt) => (e.1, { e.2 with input := [] })
                              subs := s2.subs.map fun (e : Nat × SubPort) => (e.1, { e.2 with store := [], resend := [], landing := [], outQ := [], admitQ := [] }) }
  (List.range 7).foldl (fun st k =>
    let s4 := st.setHk k { st.hkCore k with image := [] }
    if s4.hkState k = 2 then (s4.hkHalt k 3 3).fallbackOf (s4.hkDuty k) else s4) s3

/-- DEBUG_ERASE_DONE (R710, R711): the L4 is over and the SRAMs hold 0; the ports that SCOPE names open. -/
def execDebugEraseDone (s : State) : Host.Outcome State Fault Refusal :=
  .next (
    if s.getF fDBG_STATE_STATE ≠ 2 ∨ s.faults.resets.any (fun r => decide (4 ≤ r.level)) then s
    else
      let s1 := (s.eraseSrams).setSec { s.sec with opened := true, erasing := none, eraseKeys := [] }
      let s2 := (s1.setF fDBG_STATE_STATE 3).setF fDBG_STATE_SCOPE (s.sec.scope % 4)
      match s.sec.erasing.bind fun no => s2.flight no with
      | some f => s2.finish f 0xF0 []
      | none => s2)

/-! ### Line keys (R704, R705) -/

/-- LINE_KEY: a key record for a bonded port or a sublink of a GLOBAL port whose peer has bit 7 of CAPS. -/
def State.lineKey (s : State) (data : Option (List Byte)) (f : InFlight) : State :=
  let d := f.desc
  let p := recNat d 8 1
  let b := recNat d 9 1
  let q := if b = 0xFF then 0 else b
  let id := recNat d 10 1
  if 34 ≤ p ∨ (b ≠ 0xFF ∧ 16 ≤ b) ∨ ((s.port p).split = (b == 0xFF)) ∨ id = 0 then s.finish f 0xF1 []
  else if s.portType p ≠ 2 ∨ ¬ (recNat (s.sub p q).peer 8 4).testBit 7 then s.finish f 0xF5 []
  else match s.hostGet f (recNat d 24 8) 64 data with
    | (s1, none) => s1.finish f 0xF6 []
    | (s1, some k) =>
      let key : LineKey := ⟨id, recNat d 12 4, byteField k 0 32, byteField k 32 32, recNat d 16 8⟩
      (s1.modSub p q fun u => { u with nextKey := some key }).finish f 0xF0 []

/-- LINE_KEY (R704): a key record is installed. -/
def execLineKey (sq : RingNo) (data : Option (List Byte)) (s : State) : Host.Outcome State Fault Refusal := .next (s.ringCmd sq.toNat 0x96 fun st => st.lineKey data)

/-- LINE_KEY_ACTIVATE (R705): the codeword sent next has reached ACTIVATE_AT. -/
def execLineKeyActivate (port : Port) (sub : Sub) (s : State) : Host.Outcome State Fault Refusal :=
  let u := s.sub port sub
  .next (match u.nextKey with
    | some k => if noReached u.nextNo k.activateAt then (s.setSub port sub { u with key := some k, nextKey := none }).showKey port else s
    | none => s)

/-! ### Core power (R714, R715, R720) -/

/-- CORE_POWER: the deepest state of one logical core, or of all. -/
def State.corePower (s : State) (f : InFlight) : State :=
  let c := recNat f.desc 8 1
  let v := recNat f.desc 9 1
  if (128 ≤ c ∧ c ≠ 0xFF) ∨ (v ≠ 0 ∧ v ≠ 2 ∧ v ≠ 3) then s.finish f 0xF1 []
  else ((if c = 0xFF then List.range 128 else [c]).foldl (fun st k => st.modCore k fun x => { x with deepest := v }) s).finish f 0xF0 []

/-- CORE_POWER (R714): the deepest state each core may enter. -/
def execCorePower (sq : RingNo) (s : State) : Host.Outcome State Fault Refusal := .next (s.ringCmd sq.toNat 0x97 State.corePower)

/-- Whether a step runs on a core. -/
def State.coreRuns (s : State) (c : Nat) : Bool := s.steps.slots.any fun e => e.2.onCores && (s.graphOf e.2).mask.testBit c

/-- Whether a queued step that uses a core waits for nothing but START_TIME, its copies and its core. -/
def State.coreAwaited (s : State) (c : Nat) : Bool := s.steps.slots.any fun e => e.2.phase == .queued && !s.streamHeld e.2 && (s.graphOf e.2).mask.testBit c

/-- CORE_IDLE_ENTER (R714): 64 cycles in which no instance of the core ran a step. -/
def execCoreIdleEnter (core : LCore) (s : State) : Host.Outcome State Fault Refusal :=
  let c := core.val
  .next (if (s.coreSt c).power = 0 ∧ (s.physOf c).isSome ∧ ¬ s.coreRuns c ∧ (s.coreSt c).usedCyc + 64 ≤ s.cycOf c then s.modCore c fun x => { x with power := 1 } else s)

/-- CORE_PARK (R714, R720): 10 µs with no eligible step; PARK is written before the state is entered. -/
def execCorePark (core : LCore) (s : State) : Host.Outcome State Fault Refusal :=
  let c := core.val
  let x := s.coreSt c
  .next (if x.power = 1 ∧ 2 ≤ x.deepest ∧ x.usedAt + 10000 ≤ s.time.nowNs ∧ ¬ s.coreRuns c ∧ ¬ s.coreAwaited c then
    (s.trace c { event := 9, arg0 := x.deepest }).modCore c fun v => { v with power := v.deepest, waking := none }
  else s)

/-- CORE_WAKE_DONE (R715, R720): RESUME is the first record; a scratchpad without power comes back undefined. -/
def execCoreWakeDone (core : LCore) (s : State) : Host.Outcome State Fault Refusal :=
  let c := core.val
  let x := s.coreSt c
  .next (match x.waking with
    | none => s
    | some t =>
      if x.power < 2 then s
      else
        let s1 := match s.physOf c with
          | some p => if x.power = 3 then s.forgetSpad p else s
          | none => s
        (s1.modCore c fun v => { v with power := 0, waking := none, usedAt := s.time.nowNs, usedCyc := s.cycOf c }).trace c { event := 0x0A, arg0 := x.power, arg1 := s.time.nowNs - t })

end Sys2Proof.Machine
end

