-- ==== Sys2Proof/Machine/SetupWindow.lean ====
section
/-! DEFINITION. The setup window as its requesters reach it (R21–R29, R291, R296, R665): decoding, reads with their latches and RC fields, writes with the lock, the registers whose
writes do more (R244, R253, R336, R390, R492, R724), and the debug ports' accesses (R710). Requesters 0–3 are the PFs of the links, 4 is the tray controller, 5 JTAG, 6 the debug access
port. -/

namespace Sys2Proof.Machine

open Sys2Proof

/-! ### Decoding (R21) -/

/-- The offsets that blocks decode, as ranges. -/
def windowBlocks : List (Nat × Nat) :=
  [(0x000000, 0x100000), (0x100000, 0x200000), (0x200000, 0x300000), (0x300000, 0x380000), (0x400000, 0x490000), (0x500000, 0x600000), (0x600000, 0x800000),
   (0x800000, 0x888000), (0x900000, 0xA00000), (0xA00000, 0xB00000), (0xB00000, 0xC00000), (0xC00000, 0xD00000), (0xD00000, 0xE00000), (0xE00000, 0xF00000),
   (0xF00000, 0xF10000), (0xF10000, 0xF20000), (0xF20000, 0xF30000), (0xF30000, 0x1000000), (0x1000000, 0x1400000), (0x1400000, 0x1500000)]

/-- Whether a block decodes an offset. -/
def decoded (o : Nat) : Bool := windowBlocks.any fun b => decide (b.1 ≤ o) && decide (o < b.2)

/-- The blocks in the compute dies that an L4 reset keeps from being reached: CORE, DECK, COL, STREAM, MEM, CHK (R665). -/
def computeBlock (o : Nat) : Bool :=
  [(0x400000, 0x490000), (0x500000, 0x600000), (0xB00000, 0xC00000), (0x200000, 0x300000), (0xC00000, 0xD00000), (0xD00000, 0xE00000)].any fun b => decide (b.1 ≤ o) && decide (o < b.2)

/-- Whether an access to an offset is turned away by an L4 reset. -/
def State.resetBlocked (s : State) (o : Nat) : Bool := computeBlock o && s.inL4

/-- Whether a requester's access reaches the window: a PF's link is up, with an IDE stream where IDE is required, and the function is in D0 (R285, R295); the debug ports have a command
of their own. -/
def State.reqLive (s : State) (r : Nat) : Bool :=
  r == 4 || (decide (r < 4) && s.isSet (fHOST_LINK_UP r) && !s.perst (r / 2) && !(s.fn (pfFid r)).d3hot &&
    (!s.isSet fHOST_CFG_IDE_REQUIRED || s.isSet (fHOST_LINK_IDE_SECURE r)))

/-! ### Values -/

/-- Fields that show other state as it stands: the pending store, fabric time, sequencers, engines and stacks (R276, R279, R342, R491, R530, R531, R565). -/
def State.viewReg (s : State) (o : Nat) : Nat :=
  let v := (s.reg o).toNat
  if o = fHOST_PENDING_RECORDS.off then s.host.pending.length
  else if o = fTIME_NOW_LO_COUNT_LO.off then s.time.ft % 2 ^ 32
  else if o = fTIME_NOW_HI_COUNT_HI.off then s.time.ft / 2 ^ 32 % 2 ^ 32
  else if o = fTIME_NOW_FRAC_FRAC.off then s.time.ftFrac / 2 ^ 16
  else if o = fCOL_EARLY_ENTRIES.off then s.col.early.length
  else if 0xB00100 ≤ o ∧ o < 0xB00200 ∧ o % 16 = 0 then
    let q := (o - 0xB00100) / 16
    let mine := s.col.colls.filter fun c => c.core / 8 == q
    let data := mine.filter fun c => c.started && (c.gate == 0 || c.gate == 3)
    2 ^ 29 * (min 4 mine.length) + 2 ^ 28 * ((s.col.waiting.any fun c => c / 8 == q).toNat) + 2 ^ 27 * ((mine.any fun c => c.gate == 2).toNat) +
      2 ^ 26 * ((data.any (·.degraded)).toNat) + (match data with | c :: _ => c.node | [] => 0) % 65536
  else if 0xC00220 ≤ o ∧ o < 0xC00240 then
    let n := (o - 0xC00220) / 4
    2 ^ 13 * ((s.rmt.reqs.filter (·.span == n)).length) + (s.rmt.comb.filter (·.span == n)).length
  else if 0xC00240 ≤ o ∧ o < 0xC00250 then
    let d := (o - 0xC00240) / 4
    ((s.rmt.copies.filter (·.die == d)).map (·.eng)).eraseDups.foldl (fun a e => a + 2 ^ e) 0
  else if 0x600000 ≤ o ∧ o < 0x608000 ∧ o % 0x1000 = 0x24 then putBits v 31 31 (s.getF fTOP_READY_STACK / 2 ^ ((o - 0x600000) / 0x1000) % 2)
  else v

/-- The value of a register as a read returns it: fields a field map names, with WO fields 0; reserved bits are 0 (R12, R27). -/
def State.readWord (s : State) (o : Nat) : Nat :=
  (regFields o).foldl (fun a f => if f.acc = .wo then a else a + bitsOf (s.viewReg o) f.hi f.lo * 2 ^ f.lo) 0

/-- s with the RC fields of a register cleared that the bits lo to hi cover whole (R25, R27). -/
def State.clearRc (s : State) (o lo hi : Nat) : State :=
  (regFields o).foldl (fun st f => if f.acc = .rc ∧ lo ≤ f.lo ∧ f.hi ≤ hi then st.setF ⟨o, f.hi, f.lo⟩ 0 else st) s

/-- Whether a register is the low word of a pair, or the high one (R22). -/
def pairLow (o : Nat) : Bool := (findReg o).any (·.pairLow)
def pairHigh (o : Nat) : Bool := decide (4 ≤ o) && pairLow (o - 4)

/-- Whether a register has a field of an access code. -/
def hasField (o : Nat) (a : Access) : Bool := (regFields o).any (·.acc == a)

/-! ### Reads (R23, R25) -/

/-- The words that a read of a register captures: the high word of its pair; NOW_HI and NOW_FRAC for NOW_LO (R565). -/
def captures (o : Nat) : List Nat := if o = fTIME_NOW_LO_COUNT_LO.off then [o + 4, o + 8] else if pairLow o then [o + 4] else []

/-- Capture a word into the requester's latch: it counts as the read of the word. -/
def State.capture (s : State) (req o : Nat) : State :=
  let l := s.latches.filter fun e => !(e.req == req && e.off == o)
  ({ s with latches := l ++ [(⟨req, o, BitVec.ofNat 32 (s.readWord o)⟩ : Latch)] }).clearRc o 0 31

/-- A 32-bit read: the latched word where the requester holds one, else the register. -/
def State.read32 (s : State) (req o : Nat) : State × Nat := match s.latches.find? fun e => e.req == req && e.off == o with
  | some e => ({ s with latches := s.latches.filter fun x => !(x.req == req && x.off == o) }, e.val.toNat)
  | none => ((captures o).foldl (fun st k => st.capture req k) (s.clearRc o 0 31), s.readWord o)

/-- A 64-bit read: both words of a pair as one, else one register after the other. -/
def State.read64 (s : State) (req o : Nat) : State × Nat :=
  if pairLow o then ((s.clearRc o 0 31).clearRc (o + 4) 0 31, s.readWord o + 2 ^ 32 * (s.readWord (o + 4)))
  else
    let a := s.read32 req o
    let b := a.1.read32 req (o + 4)
    (b.1, a.2 + 2 ^ 32 * b.2)

/-! ### Writes (R27, R28) -/

/-- Whether SETUP_LOCK leaves a register's RWL fields open: the lock is clear, or the register is of a disabled control pair or of the PF its FID names (R336). -/
def State.rwlOpen (s : State) (o : Nat) : Bool :=
  !s.isSet fTOP_SETUP_LOCK_LOCK || (List.range 8).any fun k => s.ctlDisabled k &&
    ((decide (0x100200 + 0x20 * k ≤ o) && decide (o < 0x100220 + 0x20 * k)) ||
     (let f := pfIx (s.getF (fHOST_CTL_CFG_FID k)); decide (0x100100 + 0x10 * f ≤ o) && decide (o < 0x100110 + 0x10 * f)))

/-- The fields of a register as a write leaves them. -/
def State.writeFields (s : State) (o v : Nat) : State :=
  let free := s.rwlOpen o
  (regFields o).foldl (fun st f =>
    let x := bitsOf v f.hi f.lo
    let fl : Fld := ⟨o, f.hi, f.lo⟩
    match f.acc with
    | .rw => st.setF fl x
    | .rwl => if free then st.setF fl x else st
    | .w1c => st.setF fl (st.getF fl - (st.getF fl &&& x))
    | _ => st) s

/-- A write that the lock refused some field is counted once. -/
def State.countLocked (s : State) (o : Nat) : State := if hasField o .rwl && !s.rwlOpen o then s.bumpSat fTOP_LOCK_WRITES_COUNT else s

/-- A region of the device-interleaved map checked as VALID is written 1 (R244). -/
def State.dilFits (s : State) (i : Nat) : Bool :=
  let ap (k : Nat) : Nat := s.getF (fMEM_DIL_APER_APER_BASE k)
  let sz (k : Nat) : Nat := s.getF (fMEM_DIL_SIZE_SIZE k)
  let stk (k : Nat) : Nat := s.getF (fMEM_DIL_STACK_STACK_BASE k)
  let apart (a b : Nat) (x y : Nat) : Bool := decide (a + x ≤ b) || decide (b + y ≤ a)
  decide (1 ≤ sz i) && decide (ap i + sz i ≤ 12058624) && decide (stk i + sz i ≤ 12058624) &&
    (List.range 16).all fun k => k == i || !s.isSet (fMEM_DIL_APER_VALID k) || (apart (ap i) (ap k) (sz i) (sz k) && apart (stk i) (stk k) (sz i) (sz k))

/-- A write of DIL[i].APER (R244). -/
def State.dilWrite (s : State) (i v : Nat) : State :=
  if !s.rwlOpen 0xC00100 then s
  else
    let s1 := s.setF (fMEM_DIL_APER_APER_BASE i) v
    if bitsOf v 31 31 = 0 then (s1.setF (fMEM_DIL_APER_VALID i) 0).setF (fMEM_DIL_APER_BAD i) 0
    else if s1.dilFits i then s1.setF (fMEM_DIL_APER_VALID i) 1
    else (s1.setF (fMEM_DIL_APER_VALID i) 0).setF (fMEM_DIL_APER_BAD i) 1

/-- A write of DECK[d].CFG[h]: a change of CACHE_CODE asks for the new split, which DECK_SPLIT_APPLY brings into force (R253). -/
def State.deckWrite (s : State) (n v : Nat) : State :=
  let o := 0x500000 + 0x1000 * (n / 2) + 4 * (n % 2)
  if s.rwlOpen o then (s.setF ⟨o, 2, 0⟩ (v % 8)).setSpan n { s.span n with splitWant := v % 8 } else s

/-- A write of HOST.CTL[k].CFG: ENABLE from 0 to 1 starts the pair when its fields are in range, from 1 to 0 ends it (R336, R343). -/
def State.ctlWrite (s : State) (k v : Nat) : State :=
  let o := 0x100210 + 0x20 * k
  if !s.rwlOpen o then s
  else
    let was := s.isSet (fHOST_CTL_CFG_ENABLE k)
    let s1 := (s.writeFields o v).setF (fHOST_CTL_CFG_ENABLE k) was.toNat
    if bitsOf v 31 31 = 0 then (if was then (s1.setF (fHOST_CTL_CFG_ENABLE k) 0).ctlStop k else s1)
    else if !s1.ctlOk k then (if was then (s1.setF (fHOST_CTL_CFG_ENABLE k) 0).ctlStop k else s1)
    else if was then s1
    else (s1.setF (fHOST_CTL_CFG_ENABLE k) 1).ctlStart k

/-- A write of CHK.PRESET[k].CFG: VALID stays 0 with WIDTH outside 8–64 (R492). -/
def State.chkWrite (s : State) (k v : Nat) : State :=
  let o := 0xD00018 + 0x20 * k
  let s1 := s.writeFields o v
  if s.rwlOpen o ∧ ¬ (8 ≤ bitsOf v 6 0 ∧ bitsOf v 6 0 ≤ 64) then s1.setF (fCHK_CFG_VALID k) 0 else s1

/-- A write of TRC.CORE[c].CFG: ENABLE stays 0 where the ring reaches past the mapped scratch units (R724). -/
def State.trcWrite (s : State) (c v : Nat) : State :=
  let s1 := s.writeFields (0xF21000 + 0x20 * c) v
  let top := 4096 * (s.getF (fTRC_BASE_OFFSET c)) + 4096 * 2 ^ min 11 (s.getF (fTRC_SIZE_LOG2_4K c))
  if s.scratchBytes (c / 16) < top then s1.setF (fTRC_CFG_ENABLE c) 0 else s1

/-- The registers whose writes are commands of their own: 1 SETUP_LOCK, 2 LNK.CFG, 3 DIL.APER, 4 DECK.CFG, 5 HOST.CTL.CFG, 6 CHK.PRESET.CFG, 7 TRC.CORE.CFG; 0 none. With the index. -/
def writeClass (o : Nat) : Nat × Nat :=
  let at' (base step n : Nat) : Option Nat := if base ≤ o ∧ (o - base) % step = 0 ∧ (o - base) / step < n then some ((o - base) / step) else none
  if o = 0x20 then (1, 0)
  else match at' 0x800000 0x4000 34 with
    | some i => (2, i)
    | none => match at' 0xC00100 0x10 16 with
      | some i => (3, i)
      | none =>
        if 0x500000 ≤ o ∧ o < 0x504000 ∧ (o % 0x1000 = 0 ∨ o % 0x1000 = 4) then (4, (o - 0x500000) / 0x1000 * 2 + o % 0x1000 / 4)
        else match at' 0x100210 0x20 8 with
          | some i => (5, i)
          | none => match at' 0xD00018 0x20 16 with
            | some i => (6, i)
            | none => match at' 0xF21000 0x20 128 with
              | some i => (7, i)
              | none => (0, 0)

/-- The core whose TRC READ a register is. -/
def trcReadOf (o : Nat) : Option Nat := if 0xF21010 ≤ o ∧ o < 0xF22000 ∧ (o - 0xF21010) % 0x20 = 0 then some ((o - 0xF21010) / 0x20) else none

/-- A write of TRC READ may give a core's ring space, and the LOST record that it owes goes out; none while the core is PARKED or OFF (R719, R720). -/
def State.afterWrite (s : State) (o : Nat) : State := match trcReadOf o with
  | some c => if s.isSet (fTRC_CFG_ENABLE c) && decide ((s.coreSt c).power < 2) then s.traceLostFirst c else s
  | none => s

/-- A 32-bit write of a register: its fields and what more the register does. -/
def State.writeReg (s : State) (o v : Nat) : State := match writeClass o with
  | (1, _) => s.writeFields o v
  | (2, i) => s.lnkCfgWrite i v
  | (3, i) => s.dilWrite i v
  | (4, i) => s.deckWrite i v
  | (5, i) => s.ctlWrite i v
  | (6, i) => s.chkWrite i v
  | (7, i) => s.trcWrite i v
  | _ => (s.writeFields o v).afterWrite o

/-- A 32-bit write, with the count of R27; a write of LNK.CFG makes its own. -/
def State.write32 (s : State) (o v : Nat) : State := if (writeClass o).1 = 2 then s.writeReg o v else (s.countLocked o).writeReg o v

/-- A 64-bit write: both words of a pair as one, else one register after the other. -/
def State.write64 (s : State) (o v : Nat) : State :=
  let lo := v % 2 ^ 32
  let hi := v / 2 ^ 32
  if pairLow o then
    let s1 := if (hasField o .rwl || hasField (o + 4) .rwl) && !s.rwlOpen o then s.bumpSat fTOP_LOCK_WRITES_COUNT else s
    (s1.writeReg o lo).writeReg (o + 4) hi
  else (s.write32 o lo).write32 (o + 4) hi

/-! ### Commands -/

/-- Whether an access of 32 bits reaches a register: aligned, decoded, not turned away, from a live requester. -/
def State.reaches (s : State) (r o : Nat) : Bool := s.reqLive r && o % 4 == 0 && decoded o && !s.resetBlocked o

/-- Data returned to a requester. -/
def State.reply (x : State × Nat) (r size : Nat) : State := x.1.emit (.regData r size x.2)

/-- REGISTER_WRITE (R27): a register without W1C fields whose write is not a command of its own. -/
def execRegisterWrite (req : Fin 8) (offset : BitVec 26) (value : Word) (s : State) : Host.Outcome State Fault Refusal :=
  let o := offset.toNat
  .next (if s.reaches req.val o && (writeClass o).1 == 0 && !hasField o .w1c then ((s.countLocked o).writeFields o value.toNat).afterWrite o else s)

/-- W1C_WRITE (R28): an event of the same cycle is a later command, which leaves its bit set. -/
def execW1cWrite (req : Fin 8) (offset : BitVec 26) (value : Word) (s : State) : Host.Outcome State Fault Refusal :=
  let o := offset.toNat
  .next (if s.reaches req.val o && hasField o .w1c then (s.countLocked o).writeFields o value.toNat else s)

/-- RC_FIELD_READ (R27, R29): a 32-bit read of a register outside a pair, and of one without RC fields too; an event of the same cycle is a later command, which the field keeps. -/
def execRcFieldRead (req : Fin 8) (offset : BitVec 26) (s : State) : Host.Outcome State Fault Refusal :=
  let o := offset.toNat
  .next (if s.reaches req.val o && !pairLow o && !pairHigh o then State.reply (s.read32 req.val o) req.val 4 else s)

/-- PAIR_LOW_READ (R23). -/
def execPairLowRead (req : Fin 8) (offset : BitVec 26) (s : State) : Host.Outcome State Fault Refusal :=
  let o := offset.toNat
  .next (if s.reaches req.val o && pairLow o then State.reply (s.read32 req.val o) req.val 4 else s)

/-- PAIR_HIGH_READ (R23). -/
def execPairHighRead (req : Fin 8) (offset : BitVec 26) (s : State) : Host.Outcome State Fault Refusal :=
  let o := offset.toNat
  .next (if s.reaches req.val o && pairHigh o then State.reply (s.read32 req.val o) req.val 4 else s)

/-- PAIR_64BIT_ACCESS (R23): a read, or a write of `write`. -/
def execPair64bitAccess (req : Fin 8) (offset : BitVec 26) (write : Option DWord) (s : State) : Host.Outcome State Fault Refusal :=
  let o := offset.toNat
  .next (if s.reaches req.val o && o % 8 == 0 then
    match write with
    | some v => s.write64 o v.toNat
    | none => State.reply (s.read64 req.val o) req.val 8
  else s)

/-- NARROW_READ (R24, R25): 8 bits, or 16 that lie within one register; no latch. -/
def execNarrowRead (req : Fin 8) (offset : BitVec 26) (half : Bool) (s : State) : Host.Outcome State Fault Refusal :=
  let o := offset.toNat
  let r := o / 4 * 4
  let k := o % 4
  let n := if half then 2 else 1
  .next (if s.reaches req.val r && decide (k + n ≤ 4) then
    State.reply (s.clearRc r (8 * k) (8 * (k + n) - 1), s.readWord r / 2 ^ (8 * k) % 2 ^ (8 * n)) req.val n
  else s)

/-- Whether R24 turns an access of n bytes away: a write of 8 or 16 bits, or any unaligned one that is not a read within one register. -/
def badShape (o n : Nat) (write : Bool) : Bool :=
  if write then decide (n < 4) || o % n != 0 else if n < 4 then decide (4 < o % 4 + n) else o % n != 0

/-- A read turned away returns 0 in every byte. -/
def State.zeroReply (s : State) (r n : Nat) (write : Bool) : State := if write then s else s.emit (.regData r n 0)

/-- BAD_ACCESS (R24). -/
def execBadAccess (req : Fin 8) (offset : BitVec 26) (size : Fin 4) (write : Bool) (s : State) : Host.Outcome State Fault Refusal :=
  let n := 2 ^ size.val
  .next (if s.reqLive req.val && badShape offset.toNat n write then (s.bumpSat fTOP_BAD_ACCESS_COUNT).zeroReply req.val n write else s)

/-- UNMAPPED_ACCESS (R26). -/
def execUnmappedAccess (req : Fin 8) (offset : BitVec 26) (size : Fin 4) (write : Bool) (s : State) : Host.Outcome State Fault Refusal :=
  let n := 2 ^ size.val
  .next (if s.reqLive req.val && !badShape offset.toNat n write && !decoded offset.toNat then (s.bumpSat fTOP_BAD_ACCESS_COUNT).zeroReply req.val n write else s)

/-- RESET_BLOCKED_ACCESS (R665). -/
def execResetBlockedAccess (req : Fin 8) (offset : BitVec 26) (size : Fin 4) (write : Bool) (s : State) : Host.Outcome State Fault Refusal :=
  let n := 2 ^ size.val
  .next (if s.reqLive req.val && !badShape offset.toNat n write && s.resetBlocked offset.toNat then (s.bumpSat fTOP_RESET_BLOCKED_COUNT).zeroReply req.val n write else s)

/-- SETUP_LOCK_WRITE (R27, R296): once set, the lock is an RWL field that a write does not clear. -/
def execSetupLockWrite (req : Fin 8) (value : Word) (s : State) : Host.Outcome State Fault Refusal :=
  .next (if s.reqLive req.val then (s.countLocked 0x20).writeFields 0x20 value.toNat else s)

/-- DIL_VALID_WRITE (R244). -/
def execDilValidWrite (req : Fin 8) (region : Fin 16) (value : Word) (s : State) : Host.Outcome State Fault Refusal :=
  let o := 0xC00100 + 0x10 * region.val
  .next (if s.reaches req.val o then (s.countLocked o).dilWrite region.val value.toNat else s)

/-- DECK_SPLIT_WRITE (R253). -/
def execDeckSplitWrite (req : Fin 8) (span : SpanIx) (value : Word) (s : State) : Host.Outcome State Fault Refusal :=
  let o := 0x500000 + 0x1000 * (span.val / 2) + 4 * (span.val % 2)
  .next (if s.reaches req.val o then (s.countLocked o).deckWrite span.val value.toNat else s)

/-- CTL_ENABLE_WRITE (R336, R343). -/
def execCtlEnableWrite (req : Fin 8) (ring : Fin 8) (value : Word) (s : State) : Host.Outcome State Fault Refusal :=
  let o := 0x100210 + 0x20 * ring.val
  .next (if s.reaches req.val o then (s.countLocked o).ctlWrite ring.val value.toNat else s)

/-- CHK_PRESET_CFG_WRITE (R492). -/
def execChkPresetCfgWrite (req : Fin 8) (preset : Fin 16) (value : Word) (s : State) : Host.Outcome State Fault Refusal :=
  let o := 0xD00018 + 0x20 * preset.val
  .next (if s.reaches req.val o then (s.countLocked o).chkWrite preset.val value.toNat else s)

/-- TRACE_ENABLE_WRITE (R724). -/
def execTraceEnableWrite (req : Fin 8) (core : LCore) (value : Word) (s : State) : Host.Outcome State Fault Refusal :=
  let o := 0xF21000 + 0x20 * core.val
  .next (if s.reaches req.val o then (s.countLocked o).trcWrite core.val value.toNat else s)

/-! ### The debug ports (R710) -/

/-- A word of an SRAM that a debug port reaches: Deck scratch and scratchpads by device address; HBM by none. -/
def sramPlace : Place → Bool
  | .deck _ _ => true
  | .spad _ _ => true
  | _ => false

/-- A read of a debug port turned away returns 0. -/
def State.debugZero (s : State) (write : Bool) : State := if write then s else s.emit (.debugData 0)

/-- DEBUG_PORT_ACCESS (R710): while OPEN, through a port that SCOPE names: space 0 a register, as an access of 32 bits to the setup window (R24, R26, R665), 1 a word of Deck scratch or a scratchpad, 2 a word of a housekeeping core's boot SRAM (core in
bits 22–20, offset below). -/
def execDebugPortAccess (dap : Bool) (space : Fin 3) (addr : DevAddr) (value : Option Word) (s : State) : Host.Outcome State Fault Refusal :=
  let a := addr.toNat
  .next (if !s.debugOpen || s.getF fDBG_STATE_SCOPE / (if dap then 2 else 1) % 2 == 0 then s
  else match space.val with
    | 0 =>
      if 0x4000000 ≤ a then s
      else if a % 4 ≠ 0 ∨ ¬ decoded a then (s.bumpSat fTOP_BAD_ACCESS_COUNT).debugZero value.isSome
      else if s.resetBlocked a then (s.bumpSat fTOP_RESET_BLOCKED_COUNT).debugZero value.isSome
      else match value with
        | some v => s.write32 a v.toNat
        | none =>
          let r := s.read32 (if dap then 6 else 5) a
          r.1.emit (.debugData r.2)
    | 1 =>
      if a % 4 ≠ 0 ∨ ¬ sramPlace (s.place a) then s
      else match value with
        | some v => s.st a (leBytes 4 v.toNat)
        | none => s.emit (.debugData (s.ldNat a 4))
    | _ =>
      let k := a / 2 ^ 20
      let i := a % 2 ^ 20
      let m := (s.hkCore k).image
      if 7 ≤ k ∨ m.length < i + 4 then s
      else match value with
        | some v => s.setHk k { s.hkCore k with image := m.take i ++ leBytes 4 v.toNat ++ m.drop (i + 4) }
        | none => s.emit (.debugData (recNat m i 4)))

end Sys2Proof.Machine
end

