-- ==== Sys2Proof/Machine/Vector.lean ====
section
/-! DEFINITION. The VECTOR station (R201–R208). -/

namespace Sys2Proof.Machine

open Sys2Proof

def instVector : Nat := 0x50

/-- Fields of a VECTOR op (R201). -/
def vecFunc (op : List Byte) : Nat := opF op 1 47 44
def vecBcast (op : List Byte) : Nat := opF op 1 43 42
def vecBf16 (op : List Byte) : Bool := opF op 1 41 41 == 1
def vecFmt (op : List Byte) : Nat := opF op 1 40 35
def vecNonsat (op : List Byte) : Bool := opF op 1 34 34 == 1
def vecTiles (op : List Byte) : Nat := opF op 1 33 28 + 1
def vecK (op : List Byte) : Nat := opF op 1 27 24 + 1
def vecC1 (op : List Byte) : Val := ofF32 (opF op 2 63 32)
def vecC0 (op : List Byte) : Val := ofF32 (opF op 2 31 0)

/-- Whether C0 is positive and finite (R206). -/
def posFinite (v : Val) : Bool := match v with
  | .fin n m _ => !n && m != 0
  | _ => false

/-- Whether a VECTOR op keeps the layout of R201. -/
def vecOk (x : OpCtx) : Bool :=
  let op := x.op
  let f := vecFunc op
  outFormat (vecFmt op) && opInA op != noQ && opOut op != noQ && opF op 0 1 0 == 0 && opF op 1 23 0 == 0 && opF op 3 63 0 == 0 &&
    (match opCode op with
      | 1 => decide (f ≤ 5) && (if vecBcast op = 3 then opInB op == noQ else opInB op != noQ)
      | 2 => decide (f ≤ 4) && !vecBf16 op && (f != 4 || opInB op != noQ)
      | 3 => decide (f ≤ 3) && !vecBf16 op
      | 4 => !vecBf16 op && posFinite (vecC0 op)
      | 5 => decide (f ≤ 1) && !vecBf16 op && opInB op != noQ
      | _ => !vecBf16 op)

/-- A NaN met in an input carries ORIGIN 5; one that VECTOR makes carries 6 (R209). -/
def fromInput (v : Val) : Val := match v with
  | .nan _ => .nan 5
  | v => v
def vecOrigin (o : Nat) : Nat := if o = 5 then 5 else 6

/-- The input values of a tile. -/
def State.vecVals (s : State) (t : Tile) : List (List Val) := ((s.openTile t).values 8).map fun r => r.map fromInput

/-- A computed tile of values in the op's output format. -/
def vecTile (op : List Byte) (t : Tile) (rows cols : Nat) (poison : Bool) (vals : List (List Val)) : Tile × Nat :=
  let w := writeVals (vecFmt op) 0 8 (vecNonsat op) 0 rows cols vals
  ({ status := w.status, coordC := t.coordC, coordR := t.coordR, rows := rows, cols := cols, format := vecFmt op, layout := 0, poison := poison,
     payload := w.payload }, vecOrigin w.origin)

/-! ### EWISE (R201, R202) -/

/-- The larger or the smaller of two values; where IEEE binary32 arithmetic leaves it open (a NaN operand, zeros of both signs) the free choice
`pick` decides. -/
def extremum (wantMax pick : Bool) (a b : Val) : Val := match a, b with
  | .nan o, b => if pick then .nan o else b
  | a, .nan o => if pick then .nan o else a
  | a, b =>
    if a.isZero && b.isZero then (if pick then a else b)
    else if wantMax then (if a.lt b then b else a) else (if b.lt a then b else a)

/-- One element of EWISE, rounded once; in BF16 mode once to BF16. -/
def ewiseOne (func : Nat) (bf16 pick : Bool) (c1 a b : Val) : Val :=
  let fin32 (v : Val) : Val := match v with
    | .nan o => .nan o
    | v => (convElem (if bf16 then 2 else 1) false v).elem
  match func with
  | 0 => fin32 (a.add b)
  | 1 => fin32 (a.add b.negate)
  | 2 => fin32 (a.mul b)
  | 3 => fin32 (extremum true pick a b)
  | 4 => fin32 (extremum false pick a b)
  | _ => fin32 ((a.mul b).add c1)

/-- The second operand of element (r, c). -/
def ewiseB (bcast : Nat) (m : Array (Array Val)) (c0 : Val) (r c : Nat) : Val := match bcast with
  | 0 => (m.getD r #[]).getD c .zero
  | 1 => (m.getD 0 #[]).getD c .zero
  | 2 => (m.getD r #[]).getD 0 .zero
  | _ => c0

/-- Whether IN_B has the shape B_BCAST asks of it. -/
def ewiseShape (bcast : Nat) (a b : Tile) : Bool := match bcast with
  | 0 => b.rows == a.rows && b.cols == a.cols
  | 1 => b.rows == 1 && b.cols == a.cols
  | _ => b.rows == a.rows && b.cols == 1

/-- One repeat of EWISE. -/
def State.ewise (s : State) (x : OpCtx) : State :=
  let op := x.op
  match x.head (opInA op) with
  | none => s.stallOn x 1 (opInA op)
  | some a =>
    let run (b : Option Tile) : State :=
      let av := s.vecVals a
      let bm := match b with
        | some t => (((s.drew.vecVals t).map List.toArray)).toArray
        | none => #[]
      let pick := Config.free (s.freeCtr + 2) % 2 == 1
      let vals := ((List.range av.length).zip av).map fun r => ((List.range r.2.length).zip r.2).map fun e =>
        ewiseOne (vecFunc op) (vecBf16 op) pick (vecC1 op) e.2 (ewiseB (vecBcast op) bm (vecC0 op) r.1 e.1)
      let poison := a.poison || (match b with
        | some t => t.poison
        | none => false)
      let o := vecTile op a a.rows a.cols poison vals
      let s1 := (s.drew.drew.drew).stage x o.1 (x.owners a.rows) o.2
      let s2 := if b.isSome then s1.endRead x (opInB op) else s1
      (s2.endInA x).endRepeat x
    if vecBcast op = 3 then run none
    else match x.head (opInB op) with
      | none => s.stallOn x 1 (opInB op)
      | some b => if ewiseShape (vecBcast op) a b then run (some b) else s.opFault x cOperand

/-! ### MAP (R203, R204) -/

/-- Whether a PWP table tile keeps R204, and its columns. -/
def pwpOk (t : Tile) : Bool :=
  t.format == 1 && t.rows == 1 && t.cols == 260 &&
    (let c := ((t.values 8).headD []).toArray
     let seg := c.getD 2 .zero
     Val.lt (c.getD 0 .zero) (c.getD 1 .zero) && (c.getD 3 .zero).isZero && (List.range 64).any (fun i => decide (Val.le seg (nat32 (i + 1)) && Val.le (nat32 (i + 1)) seg)))

/-- The floor of a finite value that is not negative, else 0. -/
def floorNat (v : Val) : Nat := match v with
  | .fin false m e => if 0 ≤ e then m * 2 ^ e.toNat else m / 2 ^ (-e).toNat
  | _ => 0

/-- The piecewise polynomial of R204 at x. -/
def pwp (c : Array Val) (x : Val) : Val := match x with
  | .nan o => .nan o
  | x =>
    let lo := c.getD 0 .zero
    let hi := c.getD 1 .zero
    let segs := c.getD 2 .zero
    let y := if x.lt lo then lo else if hi.lt x then hi else x
    let w := mul32 (sub32 y lo) (div32 segs (sub32 hi lo))
    let k := min (floorNat w) (floorNat segs - 1)
    let r := sub32 w (nat32 k)
    let q (i : Nat) : Val := c.getD (4 + 4 * k + i) .zero
    fma32 (fma32 (fma32 (q 3) r (q 2)) r (q 1)) r (q 0)

/-- A function of MAP. -/
def mapFn (func : Nat) (tab : Array Val) (v : Val) : Val := match func with
  | 0 => exp32 v
  | 1 => log32 v
  | 2 => rsqrt32 v
  | 3 => recip32 v
  | _ => pwp tab v

/-- One repeat of MAP: f(C0 × x + C1), the product and the sum each rounded. -/
def State.mapOp (s : State) (x : OpCtx) : State :=
  let op := x.op
  match x.head (opInA op) with
  | none => s.stallOn x 1 (opInA op)
  | some a =>
    let run (tab : Array Val) (b : Option Tile) : State :=
      let vals := (s.vecVals a).map fun r => r.map fun v => mapFn (vecFunc op) tab (add32 (mul32 (vecC0 op) v) (vecC1 op))
      let poison := a.poison || (match b with
        | some t => t.poison
        | none => false)
      let o := vecTile op a a.rows a.cols poison vals
      let s1 := (s.opened a).stage x o.1 (x.owners a.rows) o.2
      let s2 := if b.isSome then s1.endRead x (opInB op) else s1
      (s2.endInA x).endRepeat x
    if vecFunc op ≠ 4 then run #[] none
    else match x.head (opInB op) with
      | none => s.stallOn x 1 (opInB op)
      | some b => if pwpOk b then run ((((b.values 8).headD []).map fromInput).toArray) (some b) else s.opFault x cOperand

/-! ### Row sets (R201, R205–R208) -/

/-- Working tile n of an instance: a tile of a row set taken in an earlier cycle. -/
def OpCtx.kept (x : OpCtx) (n : Nat) : Option Tile := (aget x.run.wbytes n).map fun b => tileOf (b.take 16) (b.drop 16)

/-- The tiles of a row set side by side: one list of values per row. -/
def State.rowsOf (s : State) (ts : List Tile) : List (List Val) := match ts with
  | [] => []
  | t :: _ => (List.range t.rows).map fun r => ts.flatMap fun u => (s.vecVals u).getD r []

/-- REDUCE of a row. -/
def reduceRow (func : Nat) (pick : Bool) (vs : List Val) : Val := match func with
  | 0 => rowSum vs
  | 1 => vs.tail.foldl (extremum true pick) (vs.headD .zero)
  | 2 => vs.tail.foldl (extremum false pick) (vs.headD .zero)
  | _ => rowSum (vs.map fun v => mul32 v v)

/-- NORM of a row with its gain and bias rows (R207). -/
def normRow (layer : Bool) (eps : Val) (gain bias : Array Val) (vs : List Val) : List Val :=
  let rn := recip32 (nat32 vs.length)
  let mean := mul32 (rowSum vs) rn
  let cs := if layer then vs.map fun v => sub32 v mean else vs
  let q := mul32 (rowSum (cs.map fun v => mul32 v v)) rn
  let r := rsqrt32 (add32 q eps)
  ((List.range cs.length).zip cs).map fun e =>
    let y := mul32 (mul32 e.2 r) (gain.getD e.1 .zero)
    if layer then add32 y (bias.getD e.1 .zero) else y

/-- Whether entry a ranks above entry b: larger values first, NaN below every other value, the lower index first on ties (R208). -/
def ranksAbove (a b : Nat × Val) : Bool :=
  if a.2.isNan then b.2.isNan && decide (a.1 < b.1)
  else if b.2.isNan then true
  else if a.2.lt b.2 then false
  else if b.2.lt a.2 then true
  else decide (a.1 < b.1)

/-- An entry put in its place among ranked entries. -/
def rankInsert (e : Nat × Val) : List (Nat × Val) → List (Nat × Val)
  | [] => [e]
  | y :: ys => if ranksAbove e y then e :: y :: ys else y :: rankInsert e ys

/-- The k entries of a row that rank highest. -/
def topRow (k : Nat) (vs : List Val) : List (Nat × Val) :=
  ((List.range vs.length).zip vs).foldl (fun a e => (rankInsert e a).take k) []

/-- Put an output row set back into tiles of the columns of the input tiles. -/
def splitCols : List Nat → List (List Val) → List (List (List Val))
  | [], _ => []
  | c :: cs, rows => rows.map (·.take c) :: splitCols cs (rows.map (·.drop c))

/-- Stage the tiles of a row set, in order. -/
def State.stageAll (s : State) (x : OpCtx) : List (Tile × Nat) → State
  | [] => s
  | o :: rest => (s.stage x o.1 (x.owners o.1.rows) o.2 (!rest.isEmpty)).stageAll x rest

/-- What a completed row set gives: the tiles to emit. -/
def State.rowSetOut (s : State) (x : OpCtx) (ts : List Tile) (gain : Option Tile) : List (Tile × Nat) :=
  let op := x.op
  let rows := s.rowsOf ts
  let poison := ts.any (·.poison) || (match gain with
    | some g => g.poison
    | none => false)
  let first := ts.headD { rows := 1 }
  let same (out : List (List Val)) : List (Tile × Nat) :=
    ((splitCols (ts.map (·.cols)) out).zip ts).map fun p => vecTile op p.2 p.2.rows p.2.cols poison p.1
  match opCode op with
  | 3 =>
    let col := rows.map fun r => [reduceRow (vecFunc op) (Config.free s.freeCtr % 2 == 1) r]
    let t := f32Tile first.coordR first.coordC first.rows 1 poison col
    [(t.1, vecOrigin t.2)]
  | 4 => same (rows.map (softRow (vecC0 op)))
  | 5 =>
    let g := match gain with
      | some t => ((((s.openTile t).values 8).map fun (r : List Val) => (r.map fromInput).toArray)).toArray
      | none => #[]
    same (rows.map (normRow (vecFunc op == 1) (vecC0 op) (g.getD 0 #[]) (g.getD 1 #[])))
  | _ =>
    let k := vecK op
    let tops := rows.map (topRow k)
    let vals := tops.map fun l => (l.map (·.2) ++ List.replicate (k - l.length) (.inf true))
    let ix := tops.map fun l => (l.map fun e => valOfInt e.1 0) ++ List.replicate (k - l.length) (valOfInt (-1) 0)
    let w := writeVals 0x0B 0 8 false 0 first.rows k ix
    [vecTile op first first.rows k poison vals,
     ({ status := w.status, coordC := first.coordC, coordR := first.coordR, rows := first.rows, cols := k, format := 0x0B, layout := 0, poison := poison,
        payload := w.payload }, 0)]

/-- Whether a row set's tiles agree: the same rows, and for TOPK 1,024 columns or fewer; for NORM a gain tile of the row's length. -/
def rowSetOk (op : List Byte) (ts : List Tile) (gain : Option Tile) : Bool :=
  let n := sumNat (ts.map (·.cols))
  ts.all (fun t => t.rows == (ts.headD { rows := 1 }).rows) && (opCode op != 6 || decide (n ≤ 1024)) &&
    (match gain with
      | some g => g.format == 1 && g.cols == n && decide ((if vecFunc op = 1 then 2 else 1) ≤ g.rows)
      | none => true)

/-- A row set is complete: compute it, stage its tiles, end the reads named and the repeat. -/
def State.rowSetDone (s : State) (x : OpCtx) (ts : List Tile) (gain : Option Tile) (ends : Nat) : State :=
  if !rowSetOk x.op ts gain then s.opFault x cOperand
  else
    let s1 := (s.drew).stageAll x (s.rowSetOut x ts gain)
    let s2 := (List.range ends).foldl (fun st _ => match st.step? x.slot with
      | some t => st.endRead { x with step := t } (opInA x.op)
      | none => st) s1
    let s3 := if gain.isSome then s2.endRead x (opInB x.op) else s2
    (s3.modInst x.slot x.core x.inst fun r => { r with work := [], wbytes := [] }).endRepeat x

/-- One cycle of REDUCE or TOPK: the next tile of the row set is taken; the last one completes it. Under HOLD_A the tiles stay in the queue and are
read together. -/
def State.rowSetStream (s : State) (x : OpCtx) : State :=
  let q := opInA x.op
  let n := vecTiles x.op
  let got := x.run.wbytes.length
  let finish (st : State) (ts : List Tile) (ends : Nat) : State := st.rowSetDone x ts none ends
  if opHoldA x.op then
    match (List.range n).mapM fun i => x.head q i with
    | none => s.stallOn x 1 q
    | some ts => finish s ts (if x.lastRep then n else 0)
  else match x.head q with
    | none => s.stallOn x 1 q
    | some t =>
      let ts := (List.range got).filterMap x.kept ++ [t]
      if n ≤ got + 1 then finish s ts 1
      else
        ((((s.unstall x).endRead x q).modInst x.slot x.core x.inst fun r => { r with wbytes := aput r.wbytes got (headerBytes t ++ t.payload) }).progress x.slot
          x.core x.inst)

/-- One repeat of SOFTMAX or NORM: the whole row set is at the head of the queue. -/
def State.rowSetWhole (s : State) (x : OpCtx) : State :=
  let q := opInA x.op
  let n := vecTiles x.op
  match (List.range n).mapM fun i => x.head q i with
  | none => s.stallOn x 1 q
  | some ts =>
    let ends := if opHoldA x.op && !x.lastRep then 0 else n
    if opCode x.op = 5 then
      match x.head (opInB x.op) with
      | none => s.stallOn x 1 (opInB x.op)
      | some g => s.rowSetDone x ts (some g) ends
    else s.rowSetDone x ts none ends

/-! ### The commands -/

/-- The opcodes of a VECTOR op. -/
def vecOps : List Nat := [1, 2, 3, 4, 5, 6]

/-- One repeat of an EWISE op. -/
def execEwise (slot : StepIx) (core : LCore) (s : State) : Host.Outcome State Fault Refusal :=
  .next (s.runOp slot core instVector vecOps 1 vecOk State.ewise)

/-- One repeat of a MAP op. -/
def execMap (slot : StepIx) (core : LCore) (s : State) : Host.Outcome State Fault Refusal :=
  .next (s.runOp slot core instVector vecOps 2 vecOk State.mapOp)

/-- One tile or the end of a row set of a REDUCE op. -/
def execReduce (slot : StepIx) (core : LCore) (s : State) : Host.Outcome State Fault Refusal :=
  .next (s.runOp slot core instVector vecOps 3 vecOk State.rowSetStream)

/-- One repeat of a SOFTMAX op. -/
def execSoftmax (slot : StepIx) (core : LCore) (s : State) : Host.Outcome State Fault Refusal :=
  .next (s.runOp slot core instVector vecOps 4 vecOk State.rowSetWhole)

/-- One repeat of a NORM op. -/
def execNorm (slot : StepIx) (core : LCore) (s : State) : Host.Outcome State Fault Refusal :=
  .next (s.runOp slot core instVector vecOps 5 vecOk State.rowSetWhole)

/-- One tile or the end of a row set of a TOPK op. -/
def execTopk (slot : StepIx) (core : LCore) (s : State) : Host.Outcome State Fault Refusal :=
  .next (s.runOp slot core instVector vecOps 6 vecOk State.rowSetStream)

end Sys2Proof.Machine
end

