-- ==== Sys2Proof/Machine/Windows.lean ====
section
/-! DEFINITION. The window table and the slice directory: WINDOW_WRITE and SLICE_WRITE (R438, R439, R443, R487). -/

namespace Sys2Proof.Machine

open Sys2Proof

/-- Reserved bits of a window entry are 0, its range is aligned to 4 KiB, and a range of ranks lies within 16 bits (R443). -/
def winGood (e : List Byte) : Bool :=
  recBits e 0 1 7 5 == 0 && recBits e 1 1 7 4 == 0 && recNat e 2 2 == 0 && recNat e 12 4 == 0 && recBits e 20 4 31 8 == 0 && recBits e 28 4 31 8 == 0 &&
    recNat e 16 2 % 4096 == 0 && recNat e 24 2 % 4096 == 0 &&
    (let top := if recBits e 0 1 1 1 = 1 then 2 ^ 21 else 2 ^ 16
     decide (recNat e 4 4 < top) && decide (recNat e 8 4 < top))

/-- One window entry. -/
def State.writeWindow (s : State) (i : Nat) (e : List Byte) : State :=
  let s1 := (((s.setF (fMEM_WIN0_FLAGS i) (recNat e 0 1)).setF (fMEM_WIN0_SET i) (recNat e 1 1)).setF (fMEM_WIN1_TGT_LO i) (recNat e 4 4)).setF (fMEM_WIN2_TGT_HI i) (recNat e 8 4)
  (((s1.setF (fMEM_WIN4_OFF_LO i) (recNat e 16 4 / 4096)).setF (fMEM_WIN5_OFF_LO_HI i) (recNat e 20 1)).setF (fMEM_WIN6_OFF_HI i) (recNat e 24 4 / 4096)).setF
    (fMEM_WIN7_OFF_HI_HI i) (recNat e 28 1)

/-- WINDOW_WRITE. -/
def State.windowWrite (s : State) (f : InFlight) (data : List Byte) : State :=
  let i := recNat f.desc 8 2
  let n := recNat f.desc 10 2
  if n = 0 ∨ 512 < i + n then s.finish f 0xB1 [] else s.tableWrite f i n 32 0xB0 0xB1 0xB4 data winGood State.writeWindow

/-- WINDOW_WRITE (R443, R487). -/
def execWindowWrite (sq : RingNo) (data : List Byte) (s : State) : Host.Outcome State Fault Refusal := .next (s.ringCmd sq.toNat 0x6B fun st f => st.windowWrite f data)

/-- Whether a step that names the slice is outstanding (R86, R439). -/
def State.sliceBusy (s : State) (slice : Nat) : Bool := s.host.flights.any fun g => g.opcode == 1 && recNat g.desc 12 2 == slice

/-- Reserved fields of a directory entry are 0 and its rank table is aligned (R438). -/
def sliceGood (e : List Byte) : Bool :=
  recBits e 0 1 7 2 == 0 && recBits e 1 1 7 4 == 0 && recNat e 6 2 == 0 && recNat e 13 3 == 0 && recNat e 8 1 % 64 == 0

/-- The checks of R439. -/
def State.sliceOk (s : State) (e : List Byte) : Bool :=
  let last := recNat e 2 2
  let own := recNat e 4 2
  let tab := recNat e 8 5
  let hbm : Place → Bool
    | .stack _ _ => true
    | _ => false
  decide (tab + 4 * (last + 1) ≤ 2 ^ 40) && s.rangeAll tab (4 * (last + 1)) hbm && decide (own ≤ last) && s.ldNat (tab + 4 * own) 4 % 2 ^ 21 == s.ownId &&
    (if recBits e 0 1 1 1 = 0 then decide (last ≤ 4095)
     else (List.range 8).all fun k => recNat e (16 + 2 * k) 2 == 0xFFFF || decide (recNat e (16 + 2 * k) 2 ≤ last))

/-- SLICE_WRITE: an entry is written whole, or the slice removed with VALID 0. -/
def State.sliceWrite (s : State) (f : InFlight) (data : Option (List Byte)) : State :=
  let slice := recNat f.desc 8 2
  let at' := 0x200000 * (s.getF fMEM_SLICE_LO_ADDR_LO) + 0x100000000 * (s.getF fMEM_SLICE_HI_ADDR_HI) + slice * 32
  if s.sliceBusy slice then s.finish f 0xB2 []
  else match s.hostGet f (recNat f.desc 16 8) 32 data with
    | (s1, none) => s1.finish f 0xB4 []
    | (s1, some e) =>
      if !sliceGood e then s1.finish f 0xB1 []
      else if recBits e 0 1 0 0 = 0 then (s1.st at' (List.replicate 32 0)).finish f 0xB0 []
      else if !s1.sliceOk e then s1.finish f 0xB3 []
      else (s1.st at' e).finish f 0xB0 []

/-- SLICE_WRITE (R439, R487). -/
def execSliceWrite (sq : RingNo) (data : Option (List Byte)) (s : State) : Host.Outcome State Fault Refusal := .next (s.ringCmd sq.toNat 0x6C fun st f => st.sliceWrite f data)

end Sys2Proof.Machine
end

