-- ==== Sys2Proof/Machine/Dispatch.lean ====
section
/-! DEFINITION. One arm per command of the opcode table: each arm is one direct call of that command's meaning. -/

namespace Sys2Proof.Machine

open Sys2Proof

def exec (i : Instr) (s : State) : Host.Outcome State Fault Refusal :=
  match i with
  | .registerWrite req offset value => Sys2Proof.Machine.execRegisterWrite req offset value s
  | .w1cWrite req offset value => Sys2Proof.Machine.execW1cWrite req offset value s
  | .rcFieldRead req offset => Sys2Proof.Machine.execRcFieldRead req offset s
  | .pairLowRead req offset => Sys2Proof.Machine.execPairLowRead req offset s
  | .pairHighRead req offset => Sys2Proof.Machine.execPairHighRead req offset s
  | .pair64bitAccess req offset write => Sys2Proof.Machine.execPair64bitAccess req offset write s
  | .narrowRead req offset half => Sys2Proof.Machine.execNarrowRead req offset half s
  | .badAccess req offset size write => Sys2Proof.Machine.execBadAccess req offset size write s
  | .unmappedAccess req offset size write => Sys2Proof.Machine.execUnmappedAccess req offset size write s
  | .setupLockWrite req value => Sys2Proof.Machine.execSetupLockWrite req value s
  | .resetBlockedAccess req offset size write => Sys2Proof.Machine.execResetBlockedAccess req offset size write s
  | .dilValidWrite req region value => Sys2Proof.Machine.execDilValidWrite req region value s
  | .deckSplitWrite req span value => Sys2Proof.Machine.execDeckSplitWrite req span value s
  | .deckSplitApply span => Sys2Proof.Machine.execDeckSplitApply span s
  | .ctlEnableWrite req ring value => Sys2Proof.Machine.execCtlEnableWrite req ring value s
  | .lnkCfgWrite port value => Sys2Proof.Machine.execLnkCfgWrite port value s
  | .chkPresetCfgWrite req preset value => Sys2Proof.Machine.execChkPresetCfgWrite req preset value s
  | .traceEnableWrite req core value => Sys2Proof.Machine.execTraceEnableWrite req core value s
  | .porRelease loc plan par => Sys2Proof.Machine.execPorRelease loc plan par s
  | .porAssert => Sys2Proof.Machine.execPorAssert s
  | .vinAonLoss => Sys2Proof.Machine.execVinAonLoss s
  | .railOutOfRange rail mv => Sys2Proof.Machine.execRailOutOfRange rail mv s
  | .railRestored rail => Sys2Proof.Machine.execRailRestored rail s
  | .bootStageDone stage die ok bad0 bad1 => Sys2Proof.Machine.execBootStageDone stage die ok bad0 bad1 s
  | .stackTrainAttemptDone stack ok => Sys2Proof.Machine.execStackTrainAttemptDone stack ok s
  | .spanReady span => Sys2Proof.Machine.execSpanReady span s
  | .stackHandover stack => Sys2Proof.Machine.execStackHandover stack s
  | .perstAssert port ptrs => Sys2Proof.Machine.execPerstAssert port ptrs s
  | .perstRelease port strapBif => Sys2Proof.Machine.execPerstRelease port strapBif s
  | .functionLevelReset fid => Sys2Proof.Machine.execFunctionLevelReset fid s
  | .hostLinkFail link readFailed ptrs => Sys2Proof.Machine.execHostLinkFail link readFailed ptrs s
  | .ideSecureLoss link stream ptrs => Sys2Proof.Machine.execIdeSecureLoss link stream ptrs s
  | .doorbellPoll fid => Sys2Proof.Machine.execDoorbellPoll fid s
  | .summarySwapDone fid word bits => Sys2Proof.Machine.execSummarySwapDone fid word bits s
  | .bellWrite fid value => Sys2Proof.Machine.execBellWrite fid value s
  | .sqRecordReadDone sq tail => Sys2Proof.Machine.execSqRecordReadDone sq tail s
  | .descriptorFetch sq desc => Sys2Proof.Machine.execDescriptorFetch sq desc s
  | .cqHeadRead cq head => Sys2Proof.Machine.execCqHeadRead cq head s
  | .recordPost cq => Sys2Proof.Machine.execRecordPost cq s
  | .irqCoalesceTimeout cq => Sys2Proof.Machine.execIrqCoalesceTimeout cq s
  | .nop sq => Sys2Proof.Machine.execNop sq s
  | .stepSubmit sq => Sys2Proof.Machine.execStepSubmit sq s
  | .hostCopy sq => Sys2Proof.Machine.execHostCopy sq s
  | .hostCopyDone sq data fail hits => Sys2Proof.Machine.execHostCopyDone sq data fail hits s
  | .ringCreate sq => Sys2Proof.Machine.execRingCreate sq s
  | .ringDestroy sq => Sys2Proof.Machine.execRingDestroy sq s
  | .ringDestroyDone ring => Sys2Proof.Machine.execRingDestroyDone ring s
  | .ringMove sq ptr => Sys2Proof.Machine.execRingMove sq ptr s
  | .funcConfig sq => Sys2Proof.Machine.execFuncConfig sq s
  | .graphRegister sq => Sys2Proof.Machine.execGraphRegister sq s
  | .graphUnregister sq => Sys2Proof.Machine.execGraphUnregister sq s
  | .resolveStep sq => Sys2Proof.Machine.execResolveStep sq s
  | .streamOpen sq img => Sys2Proof.Machine.execStreamOpen sq img s
  | .streamSet sq img => Sys2Proof.Machine.execStreamSet sq img s
  | .streamHold sq => Sys2Proof.Machine.execStreamHold sq s
  | .streamRelease sq => Sys2Proof.Machine.execStreamRelease sq s
  | .streamClose sq => Sys2Proof.Machine.execStreamClose sq s
  | .streamPin sq => Sys2Proof.Machine.execStreamPin sq s
  | .streamUnpin sq => Sys2Proof.Machine.execStreamUnpin sq s
  | .streamRead sq ok => Sys2Proof.Machine.execStreamRead sq ok s
  | .streamImport sq img => Sys2Proof.Machine.execStreamImport sq img s
  | .hbmRetire sq => Sys2Proof.Machine.execHbmRetire sq s
  | .hbmRekey sq => Sys2Proof.Machine.execHbmRekey sq s
  | .hbmTest sq => Sys2Proof.Machine.execHbmTest sq s
  | .hbmBistDone stack failing => Sys2Proof.Machine.execHbmBistDone stack failing s
  | .powerCap sq => Sys2Proof.Machine.execPowerCap sq s
  | .streamCtxCopyDone slot => Sys2Proof.Machine.execStreamCtxCopyDone slot s
  | .streamCacheFetchDone stream => Sys2Proof.Machine.execStreamCacheFetchDone stream s
  | .startTimeReached slot => Sys2Proof.Machine.execStartTimeReached slot s
  | .stepRun slot => Sys2Proof.Machine.execStepRun slot s
  | .tileEmit slot who => Sys2Proof.Machine.execTileEmit slot who s
  | .tileArrive slot queue => Sys2Proof.Machine.execTileArrive slot queue s
  | .slotRelease slot queue => Sys2Proof.Machine.execSlotRelease slot queue s
  | .creditArrive slot queue => Sys2Proof.Machine.execCreditArrive slot queue s
  | .endOp slot core inst => Sys2Proof.Machine.execEndOp slot core inst s
  | .stepDrainEnd slot => Sys2Proof.Machine.execStepDrainEnd slot s
  | .stepFault slot cause core inst => Sys2Proof.Machine.execStepFault slot cause core inst s
  | .abortQuiesceDone slot => Sys2Proof.Machine.execAbortQuiesceDone slot s
  | .abortStopTimeout slot core inst => Sys2Proof.Machine.execAbortStopTimeout slot core inst s
  | .deadlineExpire slot => Sys2Proof.Machine.execDeadlineExpire slot s
  | .inDoubtTimeout slot => Sys2Proof.Machine.execInDoubtTimeout slot s
  | .readyReceive src => Sys2Proof.Machine.execReadyReceive src s
  | .decideReceive src => Sys2Proof.Machine.execDecideReceive src s
  | .decideAckReceive src => Sys2Proof.Machine.execDecideAckReceive src s
  | .decideAckTimeout slice seq attempt => Sys2Proof.Machine.execDecideAckTimeout slice seq attempt s
  | .takeoverCommitTimeout slot => Sys2Proof.Machine.execTakeoverCommitTimeout slot s
  | .takeoverAbortTimeout slot => Sys2Proof.Machine.execTakeoverAbortTimeout slot s
  | .decisionReceive src => Sys2Proof.Machine.execDecisionReceive src s
  | .abortCellReceive src => Sys2Proof.Machine.execAbortCellReceive src s
  | .pass slot core => Sys2Proof.Machine.execPass slot core s
  | .trestlePassIssue slot core => Sys2Proof.Machine.execTrestlePassIssue slot core s
  | .trestleGroupFeed slot core lost ecc off => Sys2Proof.Machine.execTrestleGroupFeed slot core lost ecc off s
  | .trestleDrainStart slot core => Sys2Proof.Machine.execTrestleDrainStart slot core s
  | .trestleTileOut slot core => Sys2Proof.Machine.execTrestleTileOut slot core s
  | .trestleParityError slot core line => Sys2Proof.Machine.execTrestleParityError slot core line s
  | .decode slot core => Sys2Proof.Machine.execDecode slot core s
  | .codebookTileDecode slot core => Sys2Proof.Machine.execCodebookTileDecode slot core s
  | .convert slot core ix => Sys2Proof.Machine.execConvert slot core ix s
  | .ewise slot core => Sys2Proof.Machine.execEwise slot core s
  | .map slot core => Sys2Proof.Machine.execMap slot core s
  | .reduce slot core => Sys2Proof.Machine.execReduce slot core s
  | .softmax slot core => Sys2Proof.Machine.execSoftmax slot core s
  | .norm slot core => Sys2Proof.Machine.execNorm slot core s
  | .topk slot core => Sys2Proof.Machine.execTopk slot core s
  | .attend slot core hits => Sys2Proof.Machine.execAttend slot core hits s
  | .compact slot core => Sys2Proof.Machine.execCompact slot core s
  | .route slot core => Sys2Proof.Machine.execRoute slot core s
  | .draw slot core => Sys2Proof.Machine.execDraw slot core s
  | .accept slot core => Sys2Proof.Machine.execAccept slot core s
  | .load slot core ix hits => Sys2Proof.Machine.execLoad slot core ix hits s
  | .store slot core ix hits => Sys2Proof.Machine.execStore slot core ix hits s
  | .kvAppend slot core ix => Sys2Proof.Machine.execKvAppend slot core ix s
  | .patrolScrub stack hits => Sys2Proof.Machine.execPatrolScrub stack hits s
  | .retirementCopyDone stack bad faulty => Sys2Proof.Machine.execRetirementCopyDone stack bad faulty s
  | .skewWindowEnd stack => Sys2Proof.Machine.execSkewWindowEnd stack s
  | .combineLineIdle span => Sys2Proof.Machine.execCombineLineIdle span s
  | .spanResetEnter span => Sys2Proof.Machine.execSpanResetEnter span s
  | .queue slot core receive ix => Sys2Proof.Machine.execQueue slot core receive ix s
  | .queueCreditReceive src => Sys2Proof.Machine.execQueueCreditReceive src s
  | .queueCellReceive src => Sys2Proof.Machine.execQueueCellReceive src s
  | .queueChannelFree chan => Sys2Proof.Machine.execQueueChannelFree chan s
  | .put slot core ix => Sys2Proof.Machine.execPut slot core ix s
  | .copy slot core ix => Sys2Proof.Machine.execCopy slot core ix s
  | .copyComplete die engine => Sys2Proof.Machine.execCopyComplete die engine s
  | .atomic slot core ix => Sys2Proof.Machine.execAtomic slot core ix s
  | .fence slot core ix => Sys2Proof.Machine.execFence slot core ix s
  | .flag slot core ix => Sys2Proof.Machine.execFlag slot core ix s
  | .get slot core ix => Sys2Proof.Machine.execGet slot core ix s
  | .loadAtomicEngineSlot span => Sys2Proof.Machine.execLoadAtomicEngineSlot span s
  | .rdReqReceive src hits => Sys2Proof.Machine.execRdReqReceive src hits s
  | .wrReceive src => Sys2Proof.Machine.execWrReceive src s
  | .atomicReceive src => Sys2Proof.Machine.execAtomicReceive src s
  | .copyReceive src => Sys2Proof.Machine.execCopyReceive src s
  | .copyAckFlush src reqId => Sys2Proof.Machine.execCopyAckFlush src reqId s
  | .rdRspReceive src => Sys2Proof.Machine.execRdRspReceive src s
  | .wrAckReceive src => Sys2Proof.Machine.execWrAckReceive src s
  | .atomicRspReceive src => Sys2Proof.Machine.execAtomicRspReceive src s
  | .errorRspReceive src => Sys2Proof.Machine.execErrorRspReceive src s
  | .remoteTimeout reqId => Sys2Proof.Machine.execRemoteTimeout reqId s
  | .waitGe slot core ix => Sys2Proof.Machine.execWaitGe slot core ix s
  | .waitGeSatisfied slot core ix => Sys2Proof.Machine.execWaitGeSatisfied slot core ix s
  | .append slot core ix => Sys2Proof.Machine.execAppend slot core ix s
  | .verify slot core ix => Sys2Proof.Machine.execVerify slot core ix s
  | .windowWrite sq data => Sys2Proof.Machine.execWindowWrite sq data s
  | .sliceWrite sq data => Sys2Proof.Machine.execSliceWrite sq data s
  | .run slot core => Sys2Proof.Machine.execRun slot core s
  | .collectSlotFree slot seq => Sys2Proof.Machine.execCollectSlotFree slot seq s
  | .collectDataStart core => Sys2Proof.Machine.execCollectDataStart core s
  | .grantReceive src => Sys2Proof.Machine.execGrantReceive src s
  | .collectDataReceive src => Sys2Proof.Machine.execCollectDataReceive src s
  | .sizesReceive src entries => Sys2Proof.Machine.execSizesReceive src entries s
  | .collectChunkSend core => Sys2Proof.Machine.execCollectChunkSend core s
  | .collectComplete core => Sys2Proof.Machine.execCollectComplete core s
  | .collectResendTimeout core node rep peer => Sys2Proof.Machine.execCollectResendTimeout core node rep peer s
  | .collectGateOpen core => Sys2Proof.Machine.execCollectGateOpen core s
  | .cellRoute port => Sys2Proof.Machine.execCellRoute port s
  | .keystoneAdmit port sub => Sys2Proof.Machine.execKeystoneAdmit port sub s
  | .landingToInput port => Sys2Proof.Machine.execLandingToInput port s
  | .cellTransmit port sub => Sys2Proof.Machine.execCellTransmit port sub s
  | .subportReroute port sub => Sys2Proof.Machine.execSubportReroute port sub s
  | .creditCellReceive port sub => Sys2Proof.Machine.execCreditCellReceive port sub s
  | .creditCellSend port sub => Sys2Proof.Machine.execCreditCellSend port sub s
  | .creditStallTimeout port sub => Sys2Proof.Machine.execCreditStallTimeout port sub s
  | .kStallTimeout port sub => Sys2Proof.Machine.execKStallTimeout port sub s
  | .slowDestMark group => Sys2Proof.Machine.execSlowDestMark group s
  | .telemetrySample => Sys2Proof.Machine.execTelemetrySample s
  | .telemetryIntervalEnd => Sys2Proof.Machine.execTelemetryIntervalEnd s
  | .rteWrite sq data => Sys2Proof.Machine.execRteWrite sq data s
  | .psetWrite sq data => Sys2Proof.Machine.execPsetWrite sq data s
  | .ovrWrite sq data => Sys2Proof.Machine.execOvrWrite sq data s
  | .filterWrite sq data => Sys2Proof.Machine.execFilterWrite sq data s
  | .portRole sq => Sys2Proof.Machine.execPortRole sq s
  | .endpointAssign sq => Sys2Proof.Machine.execEndpointAssign sq s
  | .telemetryCfg sq => Sys2Proof.Machine.execTelemetryCfg sq s
  | .telemetryRead sq ok => Sys2Proof.Machine.execTelemetryRead sq ok s
  | .codewordTransmit port sub => Sys2Proof.Machine.execCodewordTransmit port sub s
  | .codewordReceive port sub n lanes => Sys2Proof.Machine.execCodewordReceive port sub n lanes s
  | .nakReceive port sub => Sys2Proof.Machine.execNakReceive port sub s
  | .replayReceive port sub => Sys2Proof.Machine.execReplayReceive port sub s
  | .nakLost port sub => Sys2Proof.Machine.execNakLost port sub s
  | .fillReceive port sub => Sys2Proof.Machine.execFillReceive port sub s
  | .trainReceive port sub => Sys2Proof.Machine.execTrainReceive port sub s
  | .lockAcquired port sub ok lanes => Sys2Proof.Machine.execLockAcquired port sub ok lanes s
  | .identReceive port sub => Sys2Proof.Machine.execIdentReceive port sub s
  | .certReceive port sub => Sys2Proof.Machine.execCertReceive port sub s
  | .authReceive port sub => Sys2Proof.Machine.execAuthReceive port sub s
  | .echoReqReceive port sub => Sys2Proof.Machine.execEchoReqReceive port sub s
  | .echoRspReceive port sub frac => Sys2Proof.Machine.execEchoRspReceive port sub frac s
  | .echoReqSend port sub => Sys2Proof.Machine.execEchoReqSend port sub s
  | .lanemapReceive port sub => Sys2Proof.Machine.execLanemapReceive port sub s
  | .swingCheckReceive port sub => Sys2Proof.Machine.execSwingCheckReceive port sub s
  | .lockTimeout port sub => Sys2Proof.Machine.execLockTimeout port sub s
  | .identTimeout port sub => Sys2Proof.Machine.execIdentTimeout port sub s
  | .noLightTimeout port sub => Sys2Proof.Machine.execNoLightTimeout port sub s
  | .nakStorm port sub => Sys2Proof.Machine.execNakStorm port sub s
  | .heaterUpdate port rings => Sys2Proof.Machine.execHeaterUpdate port rings s
  | .laneFail port chan rx laser => Sys2Proof.Machine.execLaneFail port chan rx laser s
  | .spareLaserTuned port laser => Sys2Proof.Machine.execSpareLaserTuned port laser s
  | .laserBiasSet port bias eol => Sys2Proof.Machine.execLaserBiasSet port bias eol s
  | .swing entry => Sys2Proof.Machine.execSwing entry s
  | .swingRelock port => Sys2Proof.Machine.execSwingRelock port s
  | .swingTimeout port => Sys2Proof.Machine.execSwingTimeout port s
  | .openFibreShutdown port => Sys2Proof.Machine.execOpenFibreShutdown port s
  | .openFibreProbe port => Sys2Proof.Machine.execOpenFibreProbe port s
  | .farLightDetect port => Sys2Proof.Machine.execFarLightDetect port s
  | .disable sq => Sys2Proof.Machine.execDisable sq s
  | .enable sq => Sys2Proof.Machine.execEnable sq s
  | .retrain sq => Sys2Proof.Machine.execRetrain sq s
  | .release sq => Sys2Proof.Machine.execRelease sq s
  | .acceptPeer sq => Sys2Proof.Machine.execAcceptPeer sq s
  | .setMode sq => Sys2Proof.Machine.execSetMode sq s
  | .substitute sq => Sys2Proof.Machine.execSubstitute sq s
  | .unsubstitute sq => Sys2Proof.Machine.execUnsubstitute sq s
  | .portExpect sq => Sys2Proof.Machine.execPortExpect sq s
  | .presetWrite sq => Sys2Proof.Machine.execPresetWrite sq s
  | .todRecordWrite rec => Sys2Proof.Machine.execTodRecordWrite rec s
  | .ppsEdge => Sys2Proof.Machine.execPpsEdge s
  | .ppsTimeout => Sys2Proof.Machine.execPpsTimeout s
  | .timeSourceLoss => Sys2Proof.Machine.execTimeSourceLoss s
  | .holdoverTimeout => Sys2Proof.Machine.execHoldoverTimeout s
  | .gateEntryBoundary port => Sys2Proof.Machine.execGateEntryBoundary port s
  | .gateTakeover port => Sys2Proof.Machine.execGateTakeover port s
  | .pauseReceive port sub => Sys2Proof.Machine.execPauseReceive port sub s
  | .pauseExpire port sub => Sys2Proof.Machine.execPauseExpire port sub s
  | .pauseAbuseTimeout port sub => Sys2Proof.Machine.execPauseAbuseTimeout port sub s
  | .pauseIgnoreEnd port sub => Sys2Proof.Machine.execPauseIgnoreEnd port sub s
  | .stepStart entry => Sys2Proof.Machine.execStepStart entry s
  | .thermalSyncAction entry => Sys2Proof.Machine.execThermalSyncAction entry s
  | .inject entry => Sys2Proof.Machine.execInject entry s
  | .pauseSend entry => Sys2Proof.Machine.execPauseSend entry s
  | .actionLate entry => Sys2Proof.Machine.execActionLate entry s
  | .actionSkipped entry => Sys2Proof.Machine.execActionSkipped entry s
  | .source sq => Sys2Proof.Machine.execSource sq s
  | .step sq => Sys2Proof.Machine.execStep sq s
  | .asym sq => Sys2Proof.Machine.execAsym sq s
  | .pause sq => Sys2Proof.Machine.execPause sq s
  | .gateWrite sq data => Sys2Proof.Machine.execGateWrite sq data s
  | .actionWrite sq data => Sys2Proof.Machine.execActionWrite sq data s
  | .regPhaseFail span phase => Sys2Proof.Machine.execRegPhaseFail span phase s
  | .hbmPhaseFail stack => Sys2Proof.Machine.execHbmPhaseFail stack s
  | .clockChange span => Sys2Proof.Machine.execClockChange span s
  | .didtWindow span => Sys2Proof.Machine.execDidtWindow span s
  | .didtDroop span => Sys2Proof.Machine.execDidtDroop span s
  | .powerLimitEvent watts => Sys2Proof.Machine.execPowerLimitEvent watts s
  | .marulCapExchange link first second repaired => Sys2Proof.Machine.execMarulCapExchange link first second repaired s
  | .marulFlitReceive link rev sent recv => Sys2Proof.Machine.execMarulFlitReceive link rev sent recv s
  | .marulNakReceive link rev => Sys2Proof.Machine.execMarulNakReceive link rev s
  | .marulAckDue link rev => Sys2Proof.Machine.execMarulAckDue link rev s
  | .marulLinkDown link lanes => Sys2Proof.Machine.execMarulLinkDown link lanes s
  | .marulLinkRestore link => Sys2Proof.Machine.execMarulLinkRestore link s
  | .sensorConversion sensor raw => Sys2Proof.Machine.execSensorConversion sensor raw s
  | .roundStart => Sys2Proof.Machine.execRoundStart s
  | .roundPublish stackTemps vmon imon watts => Sys2Proof.Machine.execRoundPublish stackTemps vmon imon watts s
  | .throttleLoop core req0 req1 => Sys2Proof.Machine.execThrottleLoop core req0 req1 s
  | .hkFirmwareWrite core field target value => Sys2Proof.Machine.execHkFirmwareWrite core field target value s
  | .hkWatchdogTimeout core => Sys2Proof.Machine.execHkWatchdogTimeout core s
  | .hkCoreFault core => Sys2Proof.Machine.execHkCoreFault core s
  | .hkLoad sq data => Sys2Proof.Machine.execHkLoad sq data s
  | .hkStart core => Sys2Proof.Machine.execHkStart core s
  | .hkRestart sq => Sys2Proof.Machine.execHkRestart sq s
  | .hkStop sq => Sys2Proof.Machine.execHkStop sq s
  | .thermalSet sq => Sys2Proof.Machine.execThermalSet sq s
  | .thermalSync sq => Sys2Proof.Machine.execThermalSync sq s
  | .thermalRead sq ok => Sys2Proof.Machine.execThermalRead sq ok s
  | .noProgressTimeout slot core inst => Sys2Proof.Machine.execNoProgressTimeout slot core inst s
  | .recoveryWindowEnd => Sys2Proof.Machine.execRecoveryWindowEnd s
  | .l2 sq => Sys2Proof.Machine.execL2 sq s
  | .l3 sq => Sys2Proof.Machine.execL3 sq s
  | .l4 sq => Sys2Proof.Machine.execL4 sq s
  | .resetComplete ix => Sys2Proof.Machine.execResetComplete ix s
  | .resetRelease sq => Sys2Proof.Machine.execResetRelease sq s
  | .coreSwap sq => Sys2Proof.Machine.execCoreSwap sq s
  | .coreTest sq => Sys2Proof.Machine.execCoreTest sq s
  | .coreTestDone core pass => Sys2Proof.Machine.execCoreTestDone core pass s
  | .coreRetire sq => Sys2Proof.Machine.execCoreRetire sq s
  | .logRead sq ok => Sys2Proof.Machine.execLogRead sq ok s
  | .injectPlan sq data => Sys2Proof.Machine.execInjectPlan sq data s
  | .injectStart sq => Sys2Proof.Machine.execInjectStart sq s
  | .injectCancel sq => Sys2Proof.Machine.execInjectCancel sq s
  | .wavelengthDrop plan => Sys2Proof.Machine.execWavelengthDrop plan s
  | .codewordCorrupt plan excess => Sys2Proof.Machine.execCodewordCorrupt plan excess s
  | .hbmCe plan => Sys2Proof.Machine.execHbmCe plan s
  | .hbmPoison plan => Sys2Proof.Machine.execHbmPoison plan s
  | .stationHang plan => Sys2Proof.Machine.execStationHang plan s
  | .sensor plan => Sys2Proof.Machine.execSensor plan s
  | .hkStopInject plan => Sys2Proof.Machine.execHkStopInject plan s
  | .spareRotateDue span => Sys2Proof.Machine.execSpareRotateDue span s
  | .getVersion chan => Sys2Proof.Machine.execGetVersion chan s
  | .getCapabilities chan => Sys2Proof.Machine.execGetCapabilities chan s
  | .negotiateAlgorithms chan offered => Sys2Proof.Machine.execNegotiateAlgorithms chan offered s
  | .getDigests chan => Sys2Proof.Machine.execGetDigests chan s
  | .getCertificate chan slot offset length => Sys2Proof.Machine.execGetCertificate chan slot offset length s
  | .challenge chan slot nonce => Sys2Proof.Machine.execChallenge chan slot nonce s
  | .getMeasurements chan sign index nonce => Sys2Proof.Machine.execGetMeasurements chan sign index nonce s
  | .keyExchange chan slot share => Sys2Proof.Machine.execKeyExchange chan slot share s
  | .finish chan session verified => Sys2Proof.Machine.execFinish chan session verified s
  | .heartbeat chan session => Sys2Proof.Machine.execHeartbeat chan session s
  | .keyUpdate chan session op => Sys2Proof.Machine.execKeyUpdate chan session op s
  | .endSession chan session => Sys2Proof.Machine.execEndSession chan session s
  | .ownerBind sq data => Sys2Proof.Machine.execOwnerBind sq data s
  | .ownerRevoke sq => Sys2Proof.Machine.execOwnerRevoke sq s
  | .ownerRelease sq => Sys2Proof.Machine.execOwnerRelease sq s
  | .svnAdvance sq => Sys2Proof.Machine.execSvnAdvance sq s
  | .debugChallenge sq ok => Sys2Proof.Machine.execDebugChallenge sq ok s
  | .debugUnlock sq token ptrs => Sys2Proof.Machine.execDebugUnlock sq token ptrs s
  | .debugEraseDone => Sys2Proof.Machine.execDebugEraseDone s
  | .lineKey sq data => Sys2Proof.Machine.execLineKey sq data s
  | .lineKeyActivate port sub => Sys2Proof.Machine.execLineKeyActivate port sub s
  | .corePower sq => Sys2Proof.Machine.execCorePower sq s
  | .portPower sq => Sys2Proof.Machine.execPortPower sq s
  | .coreIdleEnter core => Sys2Proof.Machine.execCoreIdleEnter core s
  | .corePark core => Sys2Proof.Machine.execCorePark core s
  | .coreWakeDone core => Sys2Proof.Machine.execCoreWakeDone core s
  | .powerOn => Sys2Proof.Machine.execPowerOn s
  | .hostLinkUp link speed width atomics => Sys2Proof.Machine.execHostLinkUp link speed width atomics s
  | .hostLinkDown link => Sys2Proof.Machine.execHostLinkDown link s
  | .d3hot fid enter => Sys2Proof.Machine.execD3hot fid enter s
  | .vfEnableWrite fid enable => Sys2Proof.Machine.execVfEnableWrite fid enable s
  | .msixUnmask fid vec => Sys2Proof.Machine.execMsixUnmask fid vec s
  | .ideKm link session stream => Sys2Proof.Machine.execIdeKm link session stream s
  | .doeDiscovery link index => Sys2Proof.Machine.execDoeDiscovery link index s
  | .openFibreProbeEnd port => Sys2Proof.Machine.execOpenFibreProbeEnd port s
  | .wavelengthDropEnd port chan => Sys2Proof.Machine.execWavelengthDropEnd port chan s
  | .debugPortAccess dap space addr value => Sys2Proof.Machine.execDebugPortAccess dap space addr value s

end Sys2Proof.Machine
end

