-- ==== Sys2Proof/Machine/Tick.lean ====
section
/-! DEFINITION. The tick of the model's clock: 1 ns, which passes when no command waits (log entry 2). -/

namespace Sys2Proof.Machine

open Sys2Proof

/-- Fabric time 1 ns of REF_25M later: set, it moves by 1 ns and the rate of R537. -/
def TimeSt.advance (t : TimeSt) (set : Bool) (rate : Int) : TimeSt :=
  let f : Nat := ((t.ftFrac : Int) + 2 ^ 32 + rate).toNat
  if set then { t with nowNs := t.nowNs + 1, ft := (t.ft + f / 2 ^ 32) % 2 ^ 64, ftFrac := f % 2 ^ 32 } else { t with nowNs := t.nowNs + 1 }

/-- A span's cycles of its Trestle clock 1 ns later. -/
def State.tickSpan (s : State) (n : Nat) : State :=
  let v := s.span n
  let f := v.cycFrac + s.getF (fSPN_CLK_CURRENT_MHZ n)
  s.setSpan n { v with cyc := v.cyc + f / 1000, cycFrac := f % 1000 }

/-- The tick that an empty queue leaves. -/
def State.tick (s : State) : State :=
  let s1 := { s with time := s.time.advance s.ftSet s.steer.rate }
  (List.range 8).foldl State.tickSpan s1

end Sys2Proof.Machine
end

