-- ==== Sys2Proof/Machine/Parts.lean ====
section
/-! DEFINITION. The parts of the state, and for every command the parts it may change: what a command leaves alone is every part that this table does not name for it. -/

namespace Sys2Proof.Machine

open Sys2Proof

/-- The parts of the state but for the queue. -/
inductive StatePart where
  | latches  -- the latches of high words (R23)
  | time  -- the clocks
  | host  -- rings, records, functions and links
  | steps  -- graph slots and steps
  | mm  -- memories but for their bytes: poison marks, spans, Deck lines, stacks, early arrivals
  | faults  -- resets, injections, spares and recovery
  | log  -- the log flash
  | streams  -- the stream context cache
  | router  -- cells and frames in the router
  | trs  -- TRESTLE instances
  | cbk  -- codebook engines
  | power  -- supplies and droop
  | traceLost  -- trace records lost in the step
  | rmt  -- remote requests, copies and waits
  | col  -- collectives
  | cores  -- power states of the cores
  | ports  -- optical ports
  | subs  -- sub-ports
  | parts  -- frames being put together
  | cutFrames  -- frames broken off
  | tele  -- telemetry
  | steer  -- time references and steering
  | actions  -- timed actions
  | boot  -- bring-up
  | marul  -- Marul links
  | hk  -- housekeeping cores
  | therm  -- sensors
  | clk  -- clocks of the spans
  | sec  -- fuses, sessions, keys and the debug state
  | regs  -- setup registers
  | out  -- what has been sent
  | freeCtr  -- the count of free values
  | mem  -- the bytes of the addressed memories
  deriving DecidableEq, Repr

/-- The state with the parts that P picks put back to their defaults: two states that agree under it agree in every other part. -/
def State.without (P : StatePart → Bool) (s : State) : State where
  pending := s.pending
  regs := if P .regs then [] else s.regs
  latches := if P .latches then [] else s.latches
  time := if P .time then {} else s.time
  host := if P .host then {} else s.host
  steps := if P .steps then {} else s.steps
  mm := { (if P .mm then ({} : MemSt) else s.mm) with mem := if P .mem then {} else s.mm.mem }
  faults := if P .faults then {} else s.faults
  log := if P .log then {} else s.log
  streams := if P .streams then {} else s.streams
  router := if P .router then {} else s.router
  trs := if P .trs then [] else s.trs
  cbk := if P .cbk then [] else s.cbk
  power := if P .power then {} else s.power
  traceLost := if P .traceLost then [] else s.traceLost
  rmt := if P .rmt then {} else s.rmt
  col := if P .col then {} else s.col
  cores := if P .cores then [] else s.cores
  ports := if P .ports then [] else s.ports
  subs := if P .subs then [] else s.subs
  parts := if P .parts then [] else s.parts
  cutFrames := if P .cutFrames then [] else s.cutFrames
  tele := if P .tele then {} else s.tele
  steer := if P .steer then {} else s.steer
  actions := if P .actions then [] else s.actions
  boot := if P .boot then {} else s.boot
  marul := if P .marul then [] else s.marul
  hk := if P .hk then [] else s.hk
  therm := if P .therm then {} else s.therm
  clk := if P .clk then {} else s.clk
  sec := if P .sec then {} else s.sec
  out := if P .out then [] else s.out
  freeCtr := if P .freeCtr then 0 else s.freeCtr

/-- The parts that a command may change. -/
def touches : Instr → List StatePart
  | .registerWrite _ _ _ => [.mm, .traceLost, .regs, .mem]
  | .w1cWrite _ _ _ => [.regs]
  | .rcFieldRead _ _ => [.latches, .regs, .out]
  | .pairLowRead _ _ => [.latches, .regs, .out]
  | .pairHighRead _ _ => [.latches, .regs, .out]
  | .pair64bitAccess _ _ _ => [.latches, .host, .mm, .traceLost, .ports, .subs, .regs, .out, .mem]
  | .narrowRead _ _ _ => [.regs, .out]
  | .badAccess _ _ _ _ => [.regs, .out]
  | .unmappedAccess _ _ _ _ => [.regs, .out]
  | .setupLockWrite _ _ => [.regs]
  | .resetBlockedAccess _ _ _ _ => [.regs, .out]
  | .dilValidWrite _ _ _ => [.regs]
  | .deckSplitWrite _ _ _ => [.mm, .regs]
  | .deckSplitApply _ => [.mm, .traceLost, .regs, .freeCtr, .mem]
  | .ctlEnableWrite _ _ _ => [.host, .regs, .out]
  | .lnkCfgWrite _ _ => [.host, .ports, .subs, .regs, .out]
  | .chkPresetCfgWrite _ _ _ => [.regs]
  | .traceEnableWrite _ _ _ => [.regs]
  | .porRelease _ _ _ => [.time, .host, .log, .boot, .regs, .out]
  | .porAssert => [.latches, .time, .host, .steps, .mm, .faults, .streams, .router, .trs, .cbk, .power, .traceLost, .rmt, .col, .cores, .ports, .subs, .parts, .cutFrames, .tele, .steer, .actions, .boot, .marul, .hk, .therm, .clk, .sec, .regs, .freeCtr, .mem]
  | .vinAonLoss => [.latches, .time, .host, .steps, .mm, .faults, .streams, .router, .trs, .cbk, .power, .traceLost, .rmt, .col, .cores, .ports, .subs, .parts, .cutFrames, .tele, .steer, .actions, .boot, .marul, .hk, .therm, .clk, .sec, .regs, .freeCtr, .mem]
  | .railOutOfRange _ _ => [.host, .steps, .mm, .faults, .log, .streams, .router, .rmt, .col, .cores, .ports, .subs, .boot, .sec, .regs, .out, .freeCtr, .mem]
  | .railRestored _ => [.mm, .faults, .boot, .regs]
  | .bootStageDone _ _ _ _ _ => [.host, .log, .boot, .regs, .out, .mem]
  | .stackTrainAttemptDone _ _ => [.host, .mm, .log, .regs, .out]
  | .spanReady _ => [.mm, .regs]
  | .stackHandover _ => [.mm, .regs]
  | .perstAssert _ _ => [.host, .log, .regs, .out]
  | .perstRelease _ _ => [.host, .regs]
  | .functionLevelReset _ => [.host, .regs]
  | .hostLinkFail _ _ _ => [.host, .log, .regs, .out]
  | .ideSecureLoss _ _ _ => [.host, .log, .regs, .out]
  | .doorbellPoll _ => [.host, .out]
  | .summarySwapDone _ _ _ => [.host, .out]
  | .bellWrite _ _ => [.host, .regs, .out]
  | .sqRecordReadDone _ _ => [.host, .log, .regs, .out]
  | .descriptorFetch _ _ => [.host, .regs, .out]
  | .cqHeadRead _ _ => [.host, .regs, .out]
  | .recordPost _ => [.host, .regs, .out]
  | .irqCoalesceTimeout _ => [.host, .out]
  | .nop _ => [.host, .regs, .out]
  | .stepSubmit _ => [.host, .steps, .streams, .cores, .regs, .out]
  | .hostCopy _ => [.host, .regs, .out]
  | .hostCopyDone _ _ _ _ => [.host, .steps, .mm, .faults, .log, .streams, .router, .rmt, .col, .cores, .ports, .sec, .regs, .out, .freeCtr, .mem]
  | .ringCreate _ => [.host, .regs, .out]
  | .ringDestroy _ => [.host, .regs, .out]
  | .ringDestroyDone _ => [.host, .regs, .out]
  | .ringMove _ _ => [.host, .log, .regs, .out]
  | .funcConfig _ => [.host, .regs, .out]
  | .graphRegister _ => [.host, .steps, .regs, .out]
  | .graphUnregister _ => [.host, .steps, .regs, .out]
  | .resolveStep _ => [.host, .steps, .mm, .streams, .traceLost, .rmt, .col, .cores, .regs, .out, .mem]
  | .streamOpen _ _ => [.host, .mm, .regs, .out, .mem]
  | .streamSet _ _ => [.host, .mm, .regs, .out, .mem]
  | .streamHold _ => [.host, .mm, .regs, .out, .mem]
  | .streamRelease _ => [.host, .mm, .regs, .out, .mem]
  | .streamClose _ => [.host, .mm, .streams, .regs, .out, .mem]
  | .streamPin _ => [.host, .mm, .streams, .regs, .out, .mem]
  | .streamUnpin _ => [.host, .mm, .streams, .regs, .out, .mem]
  | .streamRead _ _ => [.host, .regs, .out]
  | .streamImport _ _ => [.host, .mm, .regs, .out, .mem]
  | .hbmRetire _ => [.host, .mm, .log, .regs, .out]
  | .hbmRekey _ => [.host, .mm, .regs, .out, .freeCtr, .mem]
  | .hbmTest _ => [.host, .mm, .regs, .out, .freeCtr, .mem]
  | .hbmBistDone _ _ => [.host, .mm, .log, .regs, .out, .freeCtr, .mem]
  | .powerCap _ => [.host, .regs, .out]
  | .streamCtxCopyDone _ => [.steps, .mm, .regs, .mem]
  | .streamCacheFetchDone _ => [.steps, .streams, .regs]
  | .startTimeReached _ => [.host, .steps, .mm, .log, .streams, .router, .trs, .cbk, .traceLost, .rmt, .col, .cores, .regs, .out, .mem]
  | .stepRun _ => [.host, .steps, .mm, .log, .streams, .router, .trs, .cbk, .traceLost, .rmt, .col, .cores, .regs, .out, .mem]
  | .tileEmit _ _ => [.host, .steps, .mm, .log, .router, .traceLost, .regs, .out, .mem]
  | .tileArrive _ _ => [.host, .steps, .mm, .faults, .log, .router, .traceLost, .rmt, .col, .regs, .out, .mem]
  | .slotRelease _ _ => [.steps, .router, .rmt]
  | .creditArrive _ _ => [.steps]
  | .endOp _ _ _ => [.steps, .mm, .traceLost, .regs, .mem]
  | .stepDrainEnd _ => [.host, .steps, .mm, .log, .streams, .router, .traceLost, .rmt, .col, .cores, .regs, .out, .mem]
  | .stepFault _ _ _ _ => [.host, .steps, .log, .router, .regs, .out]
  | .abortQuiesceDone _ => [.host, .steps, .mm, .streams, .trs, .cbk, .traceLost, .rmt, .col, .cores, .regs, .out, .mem]
  | .abortStopTimeout _ _ _ => [.host, .steps, .mm, .faults, .log, .streams, .router, .rmt, .col, .cores, .ports, .sec, .regs, .out, .freeCtr, .mem]
  | .deadlineExpire _ => [.host, .steps, .log, .router, .regs, .out]
  | .inDoubtTimeout _ => [.host, .steps, .regs, .out]
  | .readyReceive _ => [.steps, .router, .regs]
  | .decideReceive _ => [.steps, .router, .regs]
  | .decideAckReceive _ => [.host, .steps, .mm, .streams, .router, .traceLost, .rmt, .col, .cores, .regs, .out, .mem]
  | .decideAckTimeout _ _ _ => [.host, .steps, .regs, .out]
  | .takeoverCommitTimeout _ => [.host, .steps, .mm, .streams, .router, .traceLost, .rmt, .col, .cores, .regs, .out, .mem]
  | .takeoverAbortTimeout _ => [.host, .steps, .mm, .streams, .router, .traceLost, .rmt, .col, .cores, .regs, .out, .mem]
  | .decisionReceive _ => [.host, .steps, .mm, .log, .streams, .router, .traceLost, .rmt, .col, .cores, .regs, .out, .mem]
  | .abortCellReceive _ => [.host, .steps, .mm, .streams, .router, .traceLost, .rmt, .col, .cores, .regs, .out, .mem]
  | .pass _ _ => [.host, .steps, .mm, .log, .router, .traceLost, .regs, .out, .mem]
  | .trestlePassIssue _ _ => [.host, .steps, .mm, .log, .router, .trs, .traceLost, .regs, .out, .mem]
  | .trestleGroupFeed _ _ _ _ _ => [.host, .steps, .mm, .faults, .log, .streams, .router, .trs, .cbk, .traceLost, .rmt, .col, .cores, .ports, .sec, .regs, .out, .freeCtr, .mem]
  | .trestleDrainStart _ _ => [.steps, .mm, .trs, .traceLost, .regs, .mem]
  | .trestleTileOut _ _ => [.host, .steps, .mm, .log, .router, .trs, .traceLost, .regs, .out, .mem]
  | .trestleParityError _ _ _ => [.host, .steps, .mm, .faults, .log, .streams, .router, .rmt, .col, .cores, .ports, .sec, .regs, .out, .freeCtr, .mem]
  | .decode _ _ => [.host, .steps, .mm, .log, .router, .traceLost, .regs, .out, .mem]
  | .codebookTileDecode _ _ => [.host, .steps, .mm, .log, .router, .cbk, .traceLost, .regs, .out, .mem]
  | .convert _ _ _ => [.host, .steps, .mm, .log, .router, .traceLost, .regs, .out, .freeCtr, .mem]
  | .ewise _ _ => [.host, .steps, .mm, .log, .router, .traceLost, .regs, .out, .freeCtr, .mem]
  | .map _ _ => [.host, .steps, .mm, .log, .router, .traceLost, .regs, .out, .freeCtr, .mem]
  | .reduce _ _ => [.host, .steps, .mm, .log, .router, .traceLost, .regs, .out, .freeCtr, .mem]
  | .softmax _ _ => [.host, .steps, .mm, .log, .router, .traceLost, .regs, .out, .freeCtr, .mem]
  | .norm _ _ => [.host, .steps, .mm, .log, .router, .traceLost, .regs, .out, .freeCtr, .mem]
  | .topk _ _ => [.host, .steps, .mm, .log, .router, .traceLost, .regs, .out, .freeCtr, .mem]
  | .attend _ _ _ => [.host, .steps, .mm, .faults, .log, .streams, .router, .traceLost, .rmt, .col, .cores, .ports, .sec, .regs, .out, .freeCtr, .mem]
  | .compact _ _ => [.host, .steps, .mm, .faults, .log, .router, .traceLost, .rmt, .regs, .out, .freeCtr, .mem]
  | .route _ _ => [.host, .steps, .mm, .faults, .log, .router, .traceLost, .rmt, .regs, .out, .mem]
  | .draw _ _ => [.host, .steps, .mm, .log, .router, .traceLost, .regs, .out, .freeCtr, .mem]
  | .accept _ _ => [.host, .steps, .mm, .log, .router, .traceLost, .regs, .out, .mem]
  | .load _ _ _ _ => [.host, .steps, .mm, .faults, .log, .streams, .router, .traceLost, .rmt, .col, .cores, .ports, .sec, .regs, .out, .freeCtr, .mem]
  | .store _ _ _ _ => [.host, .steps, .mm, .faults, .log, .streams, .router, .traceLost, .rmt, .col, .cores, .ports, .sec, .regs, .out, .freeCtr, .mem]
  | .kvAppend _ _ _ => [.host, .steps, .mm, .faults, .log, .router, .traceLost, .rmt, .regs, .out, .freeCtr, .mem]
  | .patrolScrub _ _ => [.host, .mm, .log, .regs, .out, .freeCtr]
  | .retirementCopyDone _ _ _ => [.host, .mm, .log, .regs, .out, .freeCtr]
  | .skewWindowEnd _ => [.host, .mm, .log, .regs, .out]
  | .combineLineIdle _ => [.mm, .rmt, .regs]
  | .spanResetEnter _ => [.steps, .mm, .faults, .trs, .cbk, .traceLost, .rmt, .cores, .regs, .freeCtr, .mem]
  | .queue _ _ _ _ => [.host, .steps, .mm, .log, .router, .traceLost, .rmt, .regs, .out, .mem]
  | .queueCreditReceive _ => [.steps, .router, .rmt]
  | .queueCellReceive _ => [.host, .steps, .mm, .log, .router, .traceLost, .rmt, .regs, .out, .mem]
  | .queueChannelFree _ => [.rmt]
  | .put _ _ _ => [.host, .steps, .mm, .faults, .log, .router, .traceLost, .rmt, .regs, .out, .mem]
  | .copy _ _ _ => [.host, .steps, .mm, .faults, .log, .router, .traceLost, .rmt, .regs, .out, .freeCtr, .mem]
  | .copyComplete _ _ => [.steps, .mm, .traceLost, .rmt, .regs, .mem]
  | .atomic _ _ _ => [.host, .steps, .mm, .faults, .log, .router, .traceLost, .rmt, .regs, .out, .freeCtr, .mem]
  | .fence _ _ _ => [.host, .steps, .mm, .log, .router, .traceLost, .rmt, .regs, .out, .mem]
  | .flag _ _ _ => [.host, .steps, .mm, .faults, .log, .router, .traceLost, .rmt, .regs, .out, .mem]
  | .get _ _ _ => [.host, .steps, .mm, .faults, .log, .router, .traceLost, .rmt, .regs, .out, .freeCtr, .mem]
  | .loadAtomicEngineSlot _ => [.steps, .router, .rmt]
  | .rdReqReceive _ _ => [.host, .steps, .mm, .faults, .log, .streams, .router, .rmt, .col, .cores, .ports, .sec, .regs, .out, .freeCtr, .mem]
  | .wrReceive _ => [.host, .mm, .faults, .log, .router, .rmt, .regs, .out, .mem]
  | .atomicReceive _ => [.host, .mm, .faults, .log, .router, .rmt, .regs, .out, .freeCtr, .mem]
  | .copyReceive _ => [.host, .mm, .faults, .log, .router, .rmt, .regs, .out, .mem]
  | .copyAckFlush _ _ => [.router, .rmt]
  | .rdRspReceive _ => [.steps, .mm, .router, .traceLost, .rmt, .regs, .mem]
  | .wrAckReceive _ => [.host, .steps, .mm, .faults, .log, .router, .traceLost, .rmt, .regs, .out, .freeCtr, .mem]
  | .atomicRspReceive _ => [.steps, .mm, .router, .traceLost, .rmt, .regs, .mem]
  | .errorRspReceive _ => [.host, .steps, .log, .router, .rmt, .regs, .out]
  | .remoteTimeout _ => [.host, .steps, .log, .router, .rmt, .regs, .out]
  | .waitGe _ _ _ => [.host, .steps, .mm, .log, .router, .traceLost, .regs, .out, .mem]
  | .waitGeSatisfied _ _ _ => [.host, .steps, .mm, .log, .router, .traceLost, .regs, .out, .mem]
  | .append _ _ _ => [.host, .steps, .mm, .log, .router, .traceLost, .rmt, .regs, .out, .mem]
  | .verify _ _ _ => [.host, .steps, .mm, .log, .router, .traceLost, .rmt, .regs, .out, .mem]
  | .windowWrite _ _ => [.host, .regs, .out]
  | .sliceWrite _ _ => [.host, .mm, .regs, .out, .mem]
  | .run _ _ => [.host, .steps, .mm, .log, .router, .traceLost, .col, .regs, .out, .mem]
  | .collectSlotFree _ _ => [.host, .steps, .mm, .log, .router, .traceLost, .col, .regs, .out, .mem]
  | .collectDataStart _ => [.host, .steps, .mm, .faults, .log, .router, .traceLost, .rmt, .col, .regs, .out, .mem]
  | .grantReceive _ => [.host, .steps, .log, .router, .col, .regs, .out]
  | .collectDataReceive _ => [.host, .steps, .mm, .faults, .log, .router, .rmt, .col, .regs, .out, .mem]
  | .sizesReceive _ _ => [.host, .steps, .mm, .log, .router, .col, .regs, .out, .mem]
  | .collectChunkSend _ => [.host, .steps, .mm, .faults, .log, .router, .rmt, .col, .regs, .out]
  | .collectComplete _ => [.steps, .mm, .traceLost, .col, .regs, .mem]
  | .collectResendTimeout _ _ _ _ => [.steps, .router, .col, .regs]
  | .collectGateOpen _ => [.col]
  | .cellRoute _ => [.host, .steps, .log, .router, .ports, .subs, .parts, .cutFrames, .tele, .regs, .out]
  | .keystoneAdmit _ _ => [.subs]
  | .landingToInput _ => [.ports, .subs]
  | .cellTransmit _ _ => [.subs, .regs]
  | .subportReroute _ _ => [.subs, .tele, .regs]
  | .creditCellReceive _ _ => [.subs, .regs]
  | .creditCellSend _ _ => [.subs]
  | .creditStallTimeout _ _ => [.host, .log, .subs, .tele, .regs, .out]
  | .kStallTimeout _ _ => [.host, .log, .subs, .tele, .regs, .out]
  | .slowDestMark _ => [.regs]
  | .telemetrySample => [.tele]
  | .telemetryIntervalEnd => [.router, .tele, .regs]
  | .rteWrite _ _ => [.host, .regs, .out]
  | .psetWrite _ _ => [.host, .regs, .out]
  | .ovrWrite _ _ => [.host, .regs, .out]
  | .filterWrite _ _ => [.host, .regs, .out]
  | .portRole _ => [.host, .regs, .out]
  | .endpointAssign _ => [.host, .log, .subs, .regs, .out, .freeCtr]
  | .telemetryCfg _ => [.host, .regs, .out]
  | .telemetryRead _ _ => [.host, .regs, .out]
  | .codewordTransmit _ _ => [.faults, .subs, .regs, .out]
  | .codewordReceive _ _ _ _ => [.ports, .subs, .tele, .regs]
  | .nakReceive _ _ => [.host, .log, .ports, .subs, .regs, .out]
  | .replayReceive _ _ => [.subs]
  | .nakLost _ _ => [.host, .log, .ports, .subs, .regs, .out]
  | .fillReceive _ _ => [.subs]
  | .trainReceive _ _ => [.host, .ports, .subs, .regs, .out]
  | .lockAcquired _ _ _ _ => [.host, .ports, .subs, .regs, .out, .freeCtr]
  | .identReceive _ _ => [.host, .ports, .subs, .regs, .out, .freeCtr]
  | .certReceive _ _ => [.subs, .freeCtr]
  | .authReceive _ _ => [.host, .ports, .subs, .regs, .out]
  | .echoReqReceive _ _ => [.subs]
  | .echoRspReceive _ _ _ => [.host, .log, .ports, .subs, .steer, .regs, .out, .freeCtr]
  | .echoReqSend _ _ => [.subs]
  | .lanemapReceive _ _ => [.host, .ports, .subs, .regs, .out]
  | .swingCheckReceive _ _ => [.host, .ports, .subs, .regs, .out]
  | .lockTimeout _ _ => [.host, .ports, .subs, .regs, .out]
  | .identTimeout _ _ => [.host, .ports, .subs, .regs, .out]
  | .noLightTimeout _ _ => [.host, .ports, .subs, .regs, .out]
  | .nakStorm _ _ => [.host, .ports, .subs, .regs, .out]
  | .heaterUpdate _ _ => [.host, .ports, .subs, .regs, .out]
  | .laneFail _ _ _ _ => [.host, .ports, .subs, .regs, .out]
  | .spareLaserTuned _ _ => [.host, .ports, .subs, .regs, .out]
  | .laserBiasSet _ _ _ => [.host, .ports, .subs, .regs, .out]
  | .swing _ => [.host, .ports, .subs, .actions, .regs, .out]
  | .swingRelock _ => [.subs]
  | .swingTimeout _ => [.host, .log, .ports, .subs, .regs, .out]
  | .openFibreShutdown _ => [.host, .ports, .subs, .regs, .out, .freeCtr]
  | .openFibreProbe _ => [.ports, .out]
  | .farLightDetect _ => [.ports, .regs, .out]
  | .disable _ => [.host, .ports, .subs, .regs, .out]
  | .enable _ => [.host, .ports, .subs, .regs, .out]
  | .retrain _ => [.host, .ports, .subs, .regs, .out]
  | .release _ => [.host, .ports, .subs, .regs, .out]
  | .acceptPeer _ => [.host, .ports, .subs, .regs, .out]
  | .setMode _ => [.host, .ports, .subs, .regs, .out]
  | .substitute _ => [.host, .ports, .subs, .regs, .out]
  | .unsubstitute _ => [.host, .ports, .subs, .regs, .out]
  | .portExpect _ => [.host, .ports, .subs, .regs, .out]
  | .presetWrite _ => [.host, .ports, .regs, .out]
  | .todRecordWrite _ => [.steer, .regs]
  | .ppsEdge => [.time, .host, .log, .steer, .regs, .out, .freeCtr]
  | .ppsTimeout => [.regs]
  | .timeSourceLoss => [.host, .log, .steer, .regs, .out]
  | .holdoverTimeout => [.steer, .regs]
  | .gateEntryBoundary _ => [.regs]
  | .gateTakeover _ => [.ports, .regs]
  | .pauseReceive _ _ => [.subs, .regs]
  | .pauseExpire _ _ => [.subs]
  | .pauseAbuseTimeout _ _ => [.host, .log, .subs, .regs, .out, .freeCtr]
  | .pauseIgnoreEnd _ _ => [.subs]
  | .stepStart _ => [.host, .steps, .faults, .log, .subs, .actions, .therm, .regs, .out]
  | .thermalSyncAction _ => [.host, .steps, .faults, .log, .subs, .actions, .therm, .regs, .out]
  | .inject _ => [.host, .steps, .faults, .log, .subs, .actions, .therm, .regs, .out]
  | .pauseSend _ => [.host, .steps, .faults, .log, .subs, .actions, .therm, .regs, .out]
  | .actionLate _ => [.host, .steps, .faults, .log, .subs, .actions, .therm, .regs, .out]
  | .actionSkipped _ => [.actions, .regs]
  | .source _ => [.host, .steer, .regs, .out]
  | .step _ => [.time, .host, .subs, .steer, .regs, .out]
  | .asym _ => [.host, .regs, .out]
  | .pause _ => [.host, .subs, .regs, .out]
  | .gateWrite _ _ => [.host, .ports, .regs, .out]
  | .actionWrite _ _ => [.host, .actions, .regs, .out]
  | .regPhaseFail _ _ => [.host, .steps, .mm, .faults, .log, .streams, .router, .rmt, .col, .cores, .ports, .sec, .regs, .out, .freeCtr, .mem]
  | .hbmPhaseFail _ => [.host, .steps, .mm, .faults, .log, .streams, .router, .rmt, .col, .cores, .ports, .clk, .sec, .regs, .out, .freeCtr, .mem]
  | .clockChange _ => [.clk, .regs]
  | .didtWindow _ => [.trs]
  | .didtDroop _ => [.power]
  | .powerLimitEvent _ => [.power, .regs, .freeCtr]
  | .marulCapExchange _ _ _ _ => [.host, .log, .boot, .marul, .regs, .out]
  | .marulFlitReceive _ _ _ _ => [.marul, .regs, .out]
  | .marulNakReceive _ _ => [.marul, .regs, .out]
  | .marulAckDue _ _ => [.marul, .out]
  | .marulLinkDown _ _ => [.host, .log, .marul, .regs, .out]
  | .marulLinkRestore _ => [.regs]
  | .sensorConversion _ _ => [.host, .log, .power, .ports, .therm, .regs, .out]
  | .roundStart => [.therm]
  | .roundPublish _ _ _ _ => [.host, .faults, .log, .power, .ports, .therm, .regs, .out]
  | .throttleLoop _ _ _ => [.hk, .therm, .clk, .regs]
  | .hkFirmwareWrite _ _ _ _ => [.ports, .hk, .therm, .clk, .regs]
  | .hkWatchdogTimeout _ => [.host, .log, .regs, .out]
  | .hkCoreFault _ => [.host, .log, .regs, .out]
  | .hkLoad _ _ => [.host, .log, .hk, .regs, .out]
  | .hkStart _ => [.host, .hk, .clk, .regs, .out]
  | .hkRestart _ => [.host, .log, .hk, .regs, .out]
  | .hkStop _ => [.host, .log, .hk, .regs, .out]
  | .thermalSet _ => [.host, .regs, .out]
  | .thermalSync _ => [.host, .therm, .regs, .out]
  | .thermalRead _ _ => [.host, .regs, .out]
  | .noProgressTimeout _ _ _ => [.host, .steps, .mm, .faults, .log, .streams, .router, .rmt, .col, .cores, .ports, .sec, .regs, .out, .freeCtr, .mem]
  | .recoveryWindowEnd => [.faults]
  | .l2 _ => [.host, .steps, .mm, .faults, .log, .streams, .router, .rmt, .col, .cores, .ports, .sec, .regs, .out, .freeCtr, .mem]
  | .l3 _ => [.host, .steps, .mm, .faults, .log, .streams, .router, .rmt, .col, .cores, .ports, .sec, .regs, .out, .freeCtr, .mem]
  | .l4 _ => [.host, .steps, .mm, .faults, .log, .streams, .router, .rmt, .col, .cores, .ports, .sec, .regs, .out, .freeCtr, .mem]
  | .resetComplete _ => [.host, .mm, .faults, .log, .regs, .out]
  | .resetRelease _ => [.host, .mm, .faults, .regs, .out]
  | .coreSwap _ => [.host, .steps, .mm, .faults, .log, .trs, .cbk, .regs, .out, .freeCtr, .mem]
  | .coreTest _ => [.host, .faults, .regs, .out]
  | .coreTestDone _ _ => [.host, .mm, .faults, .log, .regs, .out, .freeCtr, .mem]
  | .coreRetire _ => [.host, .steps, .mm, .faults, .log, .trs, .cbk, .regs, .out, .freeCtr, .mem]
  | .logRead _ _ => [.host, .regs, .out]
  | .injectPlan _ _ => [.host, .regs, .out]
  | .injectStart _ => [.host, .faults, .log, .regs, .out]
  | .injectCancel _ => [.host, .faults, .log, .ports, .regs, .out]
  | .wavelengthDrop _ => [.host, .faults, .log, .ports, .regs, .out]
  | .codewordCorrupt _ _ => [.host, .faults, .log, .ports, .regs, .out]
  | .hbmCe _ => [.host, .faults, .log, .ports, .regs, .out]
  | .hbmPoison _ => [.host, .faults, .log, .ports, .regs, .out]
  | .stationHang _ => [.host, .faults, .log, .ports, .regs, .out]
  | .sensor _ => [.host, .faults, .log, .ports, .regs, .out]
  | .hkStopInject _ => [.host, .faults, .log, .ports, .regs, .out]
  | .spareRotateDue _ => [.host, .log, .regs, .out]
  | .getVersion _ => [.sec, .out]
  | .getCapabilities _ => [.sec, .out]
  | .negotiateAlgorithms _ _ => [.sec, .out]
  | .getDigests _ => [.out]
  | .getCertificate _ _ _ _ => [.out]
  | .challenge _ _ _ => [.out, .freeCtr]
  | .getMeasurements _ _ _ _ => [.out, .freeCtr]
  | .keyExchange _ _ _ => [.sec, .out, .freeCtr]
  | .finish _ _ _ => [.sec, .out]
  | .heartbeat _ _ => [.out]
  | .keyUpdate _ _ _ => [.sec, .out]
  | .endSession _ _ => [.sec, .out]
  | .ownerBind _ _ => [.host, .log, .sec, .regs, .out]
  | .ownerRevoke _ => [.host, .log, .sec, .regs, .out]
  | .ownerRelease _ => [.host, .log, .regs, .out]
  | .svnAdvance _ => [.host, .regs, .out]
  | .debugChallenge _ _ => [.host, .log, .sec, .regs, .out, .freeCtr]
  | .debugUnlock _ _ _ => [.host, .steps, .mm, .faults, .log, .streams, .router, .rmt, .col, .cores, .ports, .subs, .sec, .regs, .out, .freeCtr, .mem]
  | .debugEraseDone => [.host, .mm, .log, .streams, .router, .trs, .cbk, .rmt, .ports, .subs, .parts, .tele, .hk, .sec, .regs, .out, .mem]
  | .lineKey _ _ => [.host, .subs, .regs, .out]
  | .lineKeyActivate _ _ => [.subs, .regs]
  | .corePower _ => [.host, .cores, .regs, .out]
  | .portPower _ => [.host, .ports, .regs, .out]
  | .coreIdleEnter _ => [.cores]
  | .corePark _ => [.mm, .traceLost, .cores, .regs, .mem]
  | .coreWakeDone _ => [.mm, .traceLost, .cores, .regs, .freeCtr, .mem]
  | .powerOn => [.latches, .time, .host, .steps, .mm, .faults, .streams, .router, .trs, .cbk, .power, .traceLost, .rmt, .col, .cores, .ports, .subs, .parts, .cutFrames, .tele, .steer, .actions, .boot, .marul, .hk, .therm, .clk, .sec, .regs, .freeCtr, .mem]
  | .hostLinkUp _ _ _ _ => [.host, .regs]
  | .hostLinkDown _ => [.host, .regs]
  | .d3hot _ _ => [.host]
  | .vfEnableWrite _ _ => [.host, .regs]
  | .msixUnmask _ _ => [.host, .out]
  | .ideKm _ _ _ => [.host, .regs, .out]
  | .doeDiscovery _ _ => [.out]
  | .openFibreProbeEnd _ => [.ports, .out]
  | .wavelengthDropEnd _ _ => [.faults, .ports, .out]
  | .debugPortAccess _ _ _ _ => [.latches, .host, .mm, .traceLost, .ports, .subs, .hk, .regs, .out, .mem]

end Sys2Proof.Machine
end

