-- ==== Sys2Proof/Certificates/Slice0/Obligations.lean ====
section
/-! DEFINITION. The statements about this machine: how a step runs, what reset leaves, what every command leaves alone, the laws of the setup window and of the memories, and, for
every command, a next state in which its own effect has come about. -/

open Sys2Proof Sys2Proof.Machine

/-- The block takes the command at the front of its queue and carries it out on the state with the queue's rest. -/
def Obligations.StepTakesFrontCommand : Prop :=
  ∀ (i : Instr) (rest : List Instr) (s : State), step { s with pending := i :: rest } = exec i { s with pending := rest }


/-- The model's choice (log entry 2): with no command waiting a step is a tick, one nanosecond of the block's clock, which changes no part of the state but the clocks. -/
def Obligations.EmptyQueueTicks : Prop :=
  ∀ s : State, s.pending = [] → ∃ t, step s = .next t ∧ t.time.nowNs = s.time.nowNs + 1 ∧ t.pending = [] ∧ t.mm.mem = s.mm.mem ∧
    t.without (fun p => [StatePart.time, StatePart.mm].contains p) = s.without (fun p => [StatePart.time, StatePart.mm].contains p)


/-- R31 and R32: every field of every register reads its Reset value at power-on; a reset puts a field of the registers it touches back to that value when its level is above
the Survives column, and leaves every other field as it was. CRC presets 0–3 take their values from R481. -/
def Obligations.FieldsResetAsTheMapsSay : Prop :=
  (∀ (o : Nat) (f : FieldDef), f ∈ regFields o → ¬ (0xD00000 ≤ o ∧ o < 0xD00080) → State.reset.getF ⟨o, f.hi, f.lo⟩ = f.rst) ∧
  (∀ (s : State) (lvl : Nat) (dom : Nat → Bool) (o : Nat) (f : FieldDef), keysRise s.regs = true → f ∈ regFields o →
    (dom o = true → f.surv < lvl → (s.resetRegs lvl dom).getF ⟨o, f.hi, f.lo⟩ = State.reset.getF ⟨o, f.hi, f.lo⟩) ∧
    (dom o = false ∨ lvl ≤ f.surv → (s.resetRegs lvl dom).getF ⟨o, f.hi, f.lo⟩ = s.getF ⟨o, f.hi, f.lo⟩))


namespace Sys2Proof.Machine

/-- The canonical forms of the state: the memories list no byte that reads as an unlisted one and none in an undefined range, the register map no register at its reset
value, both with rising keys. -/
def StateCanonical (s : State) : Prop := s.mm.mem.wf = true ∧ keysRise s.regs = true ∧ ∀ e ∈ s.regs, e.2 ≠ regDefault e.1


end Sys2Proof.Machine

/-- The state after power-on is in canonical form; every byte of the memories is undefined and every register holds its reset value. -/
def Obligations.ResetCanonical : Prop :=
  StateCanonical State.reset ∧ State.reset.pending = [] ∧ State.reset.mm.mem.cells = [] ∧ (∀ o, State.reset.reg o = regDefault o) ∧
    ∀ a, a < 0x20000000000 → State.reset.mm.mem.get a = Config.undefByte 0 a


/-- Every step, of every command and of the clock, keeps the canonical forms. -/
def Obligations.StepKeepsCanonical : Prop := ∀ s t : State, StateCanonical s → step s = .next t → StateCanonical t


/-- No command is turned into a fault or a refusal: in every state each answers a next state, in which the rest of the queue waits untouched, what was sent before is still
sent, and no free value is drawn twice. -/
def Obligations.EveryCommandAnswers : Prop :=
  ∀ (i : Instr) (s : State), ∃ t, exec i s = .next t ∧ t.pending = s.pending ∧ (∃ l, t.out = s.out ++ l) ∧ s.freeCtr ≤ t.freeCtr


/-- The frame of every command: outside the parts that `touches` names for it, nothing changes; and a command that does not name the memories leaves every byte as it was. -/
def Obligations.FrameOfEveryCommand : Prop :=
  ∀ (i : Instr) (s t : State), exec i s = .next t →
    t.without (fun p => (touches i).contains p) = s.without (fun p => (touches i).contains p) ∧
    (.mem ∉ touches i → ∀ a, t.mm.mem.get a = s.mm.mem.get a) ∧ (.regs ∉ touches i → ∀ o, t.reg o = s.reg o)


namespace Sys2Proof.Machine

/-- The commands of the setup window. -/
def setupCommand : Instr → Bool
  | .registerWrite .. | .w1cWrite .. | .rcFieldRead .. | .pairLowRead .. | .pairHighRead .. | .pair64bitAccess .. | .narrowRead .. | .badAccess .. | .unmappedAccess ..
  | .resetBlockedAccess .. | .setupLockWrite .. | .dilValidWrite .. | .deckSplitWrite .. | .ctlEnableWrite .. | .lnkCfgWrite .. | .chkPresetCfgWrite .. | .traceEnableWrite .. => true
  | _ => false


end Sys2Proof.Machine

/-- R27 with R336: while SETUP_LOCK is 1 and no control ring pair is disabled, no access to the setup window changes an RWL field of any register, the lock among them. -/
def Obligations.LockedFieldsStand : Prop :=
  ∀ (i : Instr) (s t : State) (o : Nat) (f : FieldDef), setupCommand i = true → s.getF fTOP_SETUP_LOCK_LOCK = 1 → (∀ k, k < 8 → s.ctlDisabled k = false) →
    exec i s = .next t → f ∈ regFields o → f.acc = .rwl → t.getF ⟨o, f.hi, f.lo⟩ = s.getF ⟨o, f.hi, f.lo⟩


namespace Sys2Proof.Machine

/-- What a write of v leaves in a field by its access code (R27). -/
def fieldAfterWrite (acc : Access) (open' : Bool) (old x : Nat) : Nat := match acc with
  | .rw => x
  | .rwl => if open' then x else old
  | .w1c => old - (old &&& x)
  | _ => old


end Sys2Proof.Machine

/-- R27, the writes: a write that reaches a register without a command of its own leaves in each field what its access code says, raises LOCK_WRITES by one (saturating)
when the lock refuses an RWL field, and leaves every other register alone. -/
def Obligations.WritesFollowAccessCodes : Prop :=
  ∀ (s : State) (req : Fin 8) (offset : BitVec 26) (value : Word), s.reaches req.val offset.toNat = true → writeClass offset.toNat = (0, 0) →
    ∃ t, exec (if hasField offset.toNat .w1c then .w1cWrite req offset value else .registerWrite req offset value) s = .next t ∧
      (∀ f ∈ regFields offset.toNat, t.getF ⟨offset.toNat, f.hi, f.lo⟩ =
        fieldAfterWrite f.acc (s.rwlOpen offset.toNat) (s.getF ⟨offset.toNat, f.hi, f.lo⟩) (bitsOf value.toNat f.hi f.lo)) ∧
      (∀ o, o ≠ offset.toNat → t.reg o = if o = 0x28 ∧ hasField offset.toNat .rwl ∧ ¬ s.rwlOpen offset.toNat
        then BitVec.ofNat 32 (min ((s.reg 0x28).toNat + 1) (2 ^ 32 - 1)) else s.reg o)


/-- R26: an access to an offset that no block decodes returns 0 for a read, discards a write, and increments TOP.BAD_ACCESS in both cases; nothing else is answered or changed. -/
def Obligations.UndecodedOffsets : Prop :=
  ∀ (s : State) (req : Fin 8) (offset : BitVec 26) (size : Fin 4) (write : Bool), s.reqLive req.val = true → badShape offset.toNat (2 ^ size.val) write = false →
    decoded offset.toNat = false → ∃ t, exec (.unmappedAccess req offset size write) s = .next t ∧
      t.getF fTOP_BAD_ACCESS_COUNT = min (s.getF fTOP_BAD_ACCESS_COUNT + 1) (2 ^ 32 - 1) ∧
      t.out = s.out ++ (if write then [] else [.regData req.val (2 ^ size.val) 0]) ∧
      (∀ o, o ≠ 0x24 → t.reg o = s.reg o) ∧
      t.without (fun p => [StatePart.regs, StatePart.out].contains p) = s.without (fun p => [StatePart.regs, StatePart.out].contains p)


/-- A write of data through the address map: each byte written reads back at its address, by whichever address its place is reached; a byte at any other place is unchanged. -/
def Obligations.MemoryWriteThenRead : Prop :=
  (∀ (s : State) (a x i : Nat) (bs : List Byte), i < bs.length → (s.placeKey (s.place (a + i))).isSome = true →
    s.placeKey (s.place x) = s.placeKey (s.place (a + i)) → (∀ j, i < j → j < bs.length → s.placeKey (s.place (a + j)) ≠ s.placeKey (s.place x)) →
    (s.st a bs).ld1 x = bs.getD i 0) ∧
  (∀ (s : State) (a x : Nat) (bs : List Byte), (∀ j, j < bs.length → s.placeKey (s.place (a + j)) ≠ s.placeKey (s.place x)) → (s.st a bs).ld1 x = s.ld1 x)


/-- R267: a write of data that covers a whole 64-byte block of a stack takes the poison mark from it; one that covers part of a marked block, or none of it, leaves the mark. -/
def Obligations.WholeBlockClearsPoison : Prop :=
  ∀ (s : State) (n a b : Nat) (bs : List Byte), n < 8 → 0x1000000000 * n ≤ a → a + bs.length ≤ 0x1000000000 * n + stackVisible →
    (b ∈ (s.st a bs).mm.poison ↔ b ∈ s.mm.poison ∧ ¬ (a ≤ 64 * b ∧ 64 * b + 64 ≤ a + bs.length))


/-- R245: a place in a region of the aperture and the same stack offset in its stack window are one location. -/
def Obligations.ApertureAndWindowAreOne : Prop :=
  ∀ (s : State) (x n off : Nat), x < 0x5C00000000 → s.place (0x8000000000 + x) = .stack n off → off < stackVisible →
    s.place (0x1000000000 * n + off) = .stack n off ∧ n < 8 ∧
    s.ld1 (0x8000000000 + x) = s.ld1 (0x1000000000 * n + off) ∧
    ∀ b, (s.st (0x8000000000 + x) [b]).ld1 (0x1000000000 * n + off) = b ∧ (s.st (0x1000000000 * n + off) [b]).ld1 (0x8000000000 + x) = b


namespace Sys2Proof.Machine

/-- A candidate that a cell of class S may take: R405 allows the hop, the two halves of the router reach each other, and its sub-port is available and not in a swing. -/
def sprayMay (s : State) (c : Cell) (inPort : Option Nat) (e : Nat × Nat) : Bool :=
  s.hopAllowed c inPort e.1 && s.sameHalf inPort (s.candSub e).1 && s.available (s.candSub e).1 (s.candSub e).2 5


end Sys2Proof.Machine

namespace Sys2Proof.Machine

/-- The cells sent on a candidate's sub-port and not freed, over all virtual channels. -/
def sprayLoad (s : State) (e : Nat × Nat) : Nat := sumNat (s.sub (s.candSub e).1 (s.candSub e).2).occ


end Sys2Proof.Machine

/-- R417: for class S the router takes, of the candidates it may use, the first of those with the fewest cells sent and not freed. -/
def Obligations.SprayTakesLeastLoaded : Prop :=
  ∀ (s : State) (c : Cell) (set : Nat) (inPort : Option Nat), c.cls = 5 →
    (s.chooseSub c set inPort = none ∧ ∀ e ∈ s.candidates set, sprayMay s c inPort e = false) ∨
    ∃ before e after, s.candidates set = before ++ e :: after ∧ sprayMay s c inPort e = true ∧ s.chooseSub c set inPort = some (s.candSub e) ∧
      (∀ x ∈ before, sprayMay s c inPort x = true → sprayLoad s e < sprayLoad s x) ∧ (∀ x ∈ after, sprayMay s c inPort x = true → sprayLoad s e ≤ sprayLoad s x)


/-- R558: an action entry done with becomes invalid when PERIOD is 0; else its TIME moves by the smallest multiple of PERIOD, at least one, that puts it in the future, and
its other bytes stand. -/
def Obligations.ActionsRepeatInTheFuture : Prop :=
  ∀ (s : State) (i : Nat) (e : List Byte),
    (actPeriod e = 0 → aget (s.actNext i e).actions i = none) ∧
    (0 < actPeriod e → s.time.ft + actPeriod e < 2 ^ 64 → actTime e + actPeriod e < 2 ^ 64 →
      ∃ e' m, aget (s.actNext i e).actions i = some e' ∧ 0 < m ∧ actTime e' = actTime e + m * actPeriod e ∧ s.time.ft < actTime e' ∧
        (∀ k, 0 < k → s.time.ft < actTime e + k * actPeriod e → m ≤ k) ∧ ∀ j, 8 ≤ j → j < 32 → e'.getD j 0 = e.getD j 0) ∧
    ∀ j, j ≠ i → aget (s.actNext i e).actions j = aget s.actions j

/-- For every state, requester and offset: a write that reaches a register with no command of its own writes its fields, and counts a refused RWL write (REGISTER_WRITE,
W1C_WRITE); a 32-bit read outside a pair returns the value before it clears the RC fields (RC_FIELD_READ); a read of a low word captures the high word, a read of a high
word under a latch returns the latched word and drops the latch (PAIR_LOW_READ, PAIR_HIGH_READ); a 64-bit read of a pair returns both words; an 8- or 16-bit read within
one register clears only the RC fields it covers (NARROW_READ); an access of a wrong shape, to an offset no block decodes, or to a compute block in L4 returns 0 and
raises its count (BAD_ACCESS, UNMAPPED_ACCESS, RESET_BLOCKED_ACCESS). -/
def Obligations.SetupAccessesAnswer : Prop :=
  (∀ (s : State) (req : Fin 8) (offset : BitVec 26) (value : Word),
      s.reaches req.val offset.toNat = true →
      writeClass offset.toNat = (0, 0) →
      hasField offset.toNat .w1c = false →
      exec (.registerWrite req offset value) s = .next (((s.countLocked offset.toNat).writeFields offset.toNat value.toNat).afterWrite offset.toNat)) ∧
  (∀ (s : State) (req : Fin 8) (offset : BitVec 26) (value : Word),
      s.reaches req.val offset.toNat = true →
      writeClass offset.toNat = (0, 0) →
      hasField offset.toNat .w1c = true →
      exec (.w1cWrite req offset value) s = .next ((s.countLocked offset.toNat).writeFields offset.toNat value.toNat)) ∧
  (∀ (s : State) (req : Fin 8) (offset : BitVec 26),
      s.reaches req.val offset.toNat = true →
      pairLow offset.toNat = false →
      pairHigh offset.toNat = false →
      (s.latches.find? (fun e => e.req == req.val && e.off == offset.toNat) = none) →
      captures offset.toNat = [] →
      exec (.rcFieldRead req offset) s = .next ((s.clearRc offset.toNat 0 31).emit (.regData req.val 4 (s.readWord offset.toNat)))) ∧
  (∀ (s : State) (req : Fin 8) (offset : BitVec 26),
      s.reaches req.val offset.toNat = true →
      pairLow offset.toNat = true →
      (s.latches.find? (fun e => e.req == req.val && e.off == offset.toNat) = none) →
      exec (.pairLowRead req offset) s = .next (((captures offset.toNat).foldl (fun st k => st.capture req.val k) (s.clearRc offset.toNat 0 31)).emit (.regData req.val 4 (s.readWord offset.toNat)))) ∧
  (∀ (s : State) (req : Fin 8) (offset : BitVec 26) (l : Latch),
      s.reaches req.val offset.toNat = true →
      pairHigh offset.toNat = true →
      (s.latches.find? (fun e => e.req == req.val && e.off == offset.toNat) = some l) →
      exec (.pairHighRead req offset) s = .next (State.emit { s with latches := s.latches.filter fun x => !(x.req == req.val && x.off == offset.toNat) } (.regData req.val 4 l.val.toNat))) ∧
  (∀ (s : State) (req : Fin 8) (offset : BitVec 26),
      s.reaches req.val offset.toNat = true →
      offset.toNat % 8 = 0 →
      pairLow offset.toNat = true →
      exec (.pair64bitAccess req offset none) s = .next (((s.clearRc offset.toNat 0 31).clearRc (offset.toNat + 4) 0 31).emit (.regData req.val 8 (s.readWord offset.toNat + 2 ^ 32 * s.readWord (offset.toNat + 4))))) ∧
  (∀ (s : State) (req : Fin 8) (offset : BitVec 26) (half : Bool),
      s.reaches req.val (offset.toNat / 4 * 4) = true →
      (offset.toNat % 4 + (if half then 2 else 1) ≤ 4) →
      exec (.narrowRead req offset half) s = .next ((s.clearRc (offset.toNat / 4 * 4) (8 * (offset.toNat % 4)) (8 * (offset.toNat % 4 + (if half then 2 else 1)) - 1)).emit (.regData req.val (if half then 2 else 1) (s.readWord (offset.toNat / 4 * 4) / 2 ^ (8 * (offset.toNat % 4)) % 2 ^ (8 * (if half then 2 else 1)))))) ∧
  (∀ (s : State) (req : Fin 8) (offset : BitVec 26) (size : Fin 4) (write : Bool),
      s.reqLive req.val = true →
      badShape offset.toNat (2 ^ size.val) write = true →
      exec (.badAccess req offset size write) s = .next (if write then s.bumpSat fTOP_BAD_ACCESS_COUNT else (s.bumpSat fTOP_BAD_ACCESS_COUNT).emit (.regData req.val (2 ^ size.val) 0))) ∧
  (∀ (s : State) (req : Fin 8) (offset : BitVec 26) (size : Fin 4) (write : Bool),
      s.reqLive req.val = true →
      badShape offset.toNat (2 ^ size.val) write = false →
      decoded offset.toNat = false →
      exec (.unmappedAccess req offset size write) s = .next (if write then s.bumpSat fTOP_BAD_ACCESS_COUNT else (s.bumpSat fTOP_BAD_ACCESS_COUNT).emit (.regData req.val (2 ^ size.val) 0))) ∧
  (∀ (s : State) (req : Fin 8) (offset : BitVec 26) (size : Fin 4) (write : Bool),
      s.reqLive req.val = true →
      badShape offset.toNat (2 ^ size.val) write = false →
      computeBlock offset.toNat = true →
      s.inL4 = true →
      exec (.resetBlockedAccess req offset size write) s = .next (if write then s.bumpSat fTOP_RESET_BLOCKED_COUNT else (s.bumpSat fTOP_RESET_BLOCKED_COUNT).emit (.regData req.val (2 ^ size.val) 0)))

/-- While the writes reach the window and the lock leaves RWL fields open: a write of SETUP_LOCK sets the lock while it is clear; VALID written 1 to a region that fits sets
VALID with the new base, and 0 clears VALID and BAD (R244); a CACHE_CODE write asks for the new split and leaves the one in force (R253); ENABLE written 0 then 1 to a
control pair whose fields are in range starts it (R336, R343); LNK.CFG takes its fields, counting a refused write (R390); a CRC preset with WIDTH in 8 to 64 takes its
fields (R492); a trace unit takes its fields, ENABLE staying 0 where its ring reaches past the mapped scratch (R724); through an open debug port that SCOPE names, a write
reaches a register (R710). -/
def Obligations.SetupWritesWithEffects : Prop :=
  (∀ (s : State) (req : Fin 8) (value : Word),
      s.reqLive req.val = true →
      exec (.setupLockWrite req value) s = .next ((s.countLocked 0x20).writeFields 0x20 value.toNat)) ∧
  (∀ (s : State) (req : Fin 8) (region : Fin 16) (value : Word),
      s.reaches req.val (0xC00100 + 0x10 * region.val) = true →
      s.rwlOpen 0xC00100 = true →
      s.rwlOpen (0xC00100 + 0x10 * region.val) = true →
      bitsOf value.toNat 31 31 = 1 →
      (s.setF (fMEM_DIL_APER_APER_BASE region.val) value.toNat).dilFits region.val = true →
      exec (.dilValidWrite req region value) s = .next ((s.setF (fMEM_DIL_APER_APER_BASE region.val) value.toNat).setF (fMEM_DIL_APER_VALID region.val) 1)) ∧
  (∀ (s : State) (req : Fin 8) (span : SpanIx) (value : Word),
      s.reaches req.val (0x500000 + 0x1000 * (span.val / 2) + 4 * (span.val % 2)) = true →
      s.rwlOpen (0x500000 + 0x1000 * (span.val / 2) + 4 * (span.val % 2)) = true →
      exec (.deckSplitWrite req span value) s = .next ((s.setF ⟨0x500000 + 0x1000 * (span.val / 2) + 4 * (span.val % 2), 2, 0⟩ (value.toNat % 8)).setSpan span.val { s.span span.val with splitWant := value.toNat % 8 })) ∧
  (∀ (s : State) (req : Fin 8) (ring : Fin 8) (value : Word),
      s.reaches req.val (0x100210 + 0x20 * ring.val) = true →
      s.rwlOpen (0x100210 + 0x20 * ring.val) = true →
      s.isSet (fHOST_CTL_CFG_ENABLE ring.val) = false →
      bitsOf value.toNat 31 31 = 1 →
      ((s.writeFields (0x100210 + 0x20 * ring.val) value.toNat).setF (fHOST_CTL_CFG_ENABLE ring.val) 0).ctlOk ring.val = true →
      exec (.ctlEnableWrite req ring value) s = .next ((((s.writeFields (0x100210 + 0x20 * ring.val) value.toNat).setF (fHOST_CTL_CFG_ENABLE ring.val) 0).setF (fHOST_CTL_CFG_ENABLE ring.val) 1).ctlStart ring.val)) ∧
  (∀ (s : State) (port : Port) (value : Word),
      s.isSet fTOP_SETUP_LOCK_LOCK = false →
      value.toNat / 2 ^ 31 = 1 →
      State.isDark ((((s.setEnable port.val true).setF (fLNK_CFG_SPLIT port.val) (value.toNat / 2 ^ 30 % 2)).setF (fLNK_CFG_WIDTH_MAX port.val) (value.toNat / 2 ^ 28 % 4)).setF (fLNK_CFG_FF_GAIN port.val) (value.toNat / 2 ^ 16 % 256)) port.val = true →
      exec (.lnkCfgWrite port value) s = .next (((((s.setEnable port.val true).setF (fLNK_CFG_SPLIT port.val) (value.toNat / 2 ^ 30 % 2)).setF (fLNK_CFG_WIDTH_MAX port.val) (value.toNat / 2 ^ 28 % 4)).setF (fLNK_CFG_FF_GAIN port.val) (value.toNat / 2 ^ 16 % 256)).lightPort port.val)) ∧
  (∀ (s : State) (req : Fin 8) (preset : Fin 16) (value : Word),
      s.reaches req.val (0xD00018 + 0x20 * preset.val) = true →
      s.rwlOpen (0xD00018 + 0x20 * preset.val) = true →
      8 ≤ bitsOf value.toNat 6 0 ∧ bitsOf value.toNat 6 0 ≤ 64 →
      exec (.chkPresetCfgWrite req preset value) s = .next (s.writeFields (0xD00018 + 0x20 * preset.val) value.toNat)) ∧
  (∀ (s : State) (req : Fin 8) (core : LCore) (value : Word),
      s.reaches req.val (0xF21000 + 0x20 * core.val) = true →
      s.reaches req.val (0xF21000 + 0x20 * core.val) = true →
      exec (.traceEnableWrite req core value) s = .next (if (s.countLocked (0xF21000 + 0x20 * core.val)).scratchBytes (core.val / 16) < 4096 * (s.countLocked (0xF21000 + 0x20 * core.val)).getF (fTRC_BASE_OFFSET core.val) + 4096 * 2 ^ min 11 ((s.countLocked (0xF21000 + 0x20 * core.val)).getF (fTRC_SIZE_LOG2_4K core.val)) then ((s.countLocked (0xF21000 + 0x20 * core.val)).writeFields (0xF21000 + 0x20 * core.val) value.toNat).setF (fTRC_CFG_ENABLE core.val) 0 else (s.countLocked (0xF21000 + 0x20 * core.val)).writeFields (0xF21000 + 0x20 * core.val) value.toNat)) ∧
  (∀ (s : State) (dap : Bool) (space : Fin 3) (addr : DevAddr) (value : Option Word) (v : Word),
      s.debugOpen = true →
      (s.getF fDBG_STATE_SCOPE / (if dap then 2 else 1) % 2 = 1) →
      space = 0 →
      value = some v →
      addr.toNat % 4 = 0 →
      addr.toNat < 0x4000000 →
      decoded addr.toNat = true →
      s.resetBlocked addr.toNat = false →
      exec (.debugPortAccess dap space addr value) s = .next (s.write32 addr.toNat v.toNat))

/-- POWER_ON of a device without power clears it but for what outlives L5 and does stage 1; VIN_AON_LOSS ends its power; POR_RELEASE latches the straps, with port types by
the plan when parity is good and an alert and a BOOT record when it is bad; POR_ASSERT leaves only the always-on island's registers and raises GRAPH_EPOCH; a boot stage
that ends for a die is done, stage 6 mapping the cores and clearing the memories, or fails with a record; a stack whose training ends well is trained; a span whose die
and stack are ready takes its stack and is ready. -/
def Obligations.StartUpStages : Prop :=
  (∀ (s : State),
      s.boot.on = false →
      exec .powerOn s = .next (s.cleared.setBoot { done := [(1, 4)] })) ∧
  (∀ (s : State),
      s.boot.on = true →
      exec .vinAonLoss s = .next (s.cleared.setBoot { on := false })) ∧
  (∀ (s : State) (loc : BitVec 20) (plan : BitVec 3) (par : Bool) (t : State),
      s.boot.on = true →
      s.boot.por = false →
      parityGo 24 (loc.toNat + 2 ^ 20 * plan.toNat + 2 ^ 23 * par.toNat) = 1 →
      t = (((State.setF { s.setBoot { s.boot with por := true } with time := { s.time with porAt := s.time.nowNs } } fTOP_STRAPS_PAR_FAIL 0).setF fTOP_STRAPS_PLAN plan.toNat).setF fTOP_STRAPS_LOC loc.toNat).setF fRTE_OWN_ID_ID loc.toNat →
      exec (.porRelease loc plan par) s = .next ((List.range 34).foldl (fun st p => st.setF (fRTE_PORT_CFG_TYPE p) (planType plan.toNat p)) (t.setF fRTE_STATUS_PLAN plan.toNat))) ∧
  (∀ (s : State) (loc : BitVec 20) (plan : BitVec 3) (par : Bool) (t : State),
      s.boot.on = true →
      s.boot.por = false →
      parityGo 24 (loc.toNat + 2 ^ 20 * plan.toNat + 2 ^ 23 * par.toNat) = 0 →
      t = (((State.setF { s.setBoot { s.boot with por := true } with time := { s.time with porAt := s.time.nowNs } } fTOP_STRAPS_PAR_FAIL 1).setF fTOP_STRAPS_PLAN plan.toNat).setF fTOP_STRAPS_LOC loc.toNat).setF fRTE_OWN_ID_ID loc.toNat →
      exec (.porRelease loc plan par) s = .next ((((List.range 34).foldl (fun st p => st.setF (fRTE_PORT_CFG_TYPE p) 3) (t.setF fRTE_STATUS_PLAN plan.toNat)).setF fTOP_ALERT_STRAP_PAR 1).bootRec 2 4 1)) ∧
  (∀ (s : State) (t : State),
      s.boot.on = true →
      s.boot.por = true →
      (t = ([fTOP_STRAPS_LOC.off, fTHM_TRIP_LATCHED.off, fTOP_LOG_NEXT_SEQ.off, fTOP_LOG_STATE_LEDGER_USED.off, fTOP_GRAPH_EPOCH_EPOCH.off, fSEC_STATE_KEY_BLOCKED.off, fDBG_STATE_STATE.off] : List Nat).foldl (fun st o => st.setReg o (s.reg o)) (s.cleared.setBoot { done := [(1, 4)] })) →
      t.getF fDBG_STATE_STATE ≠ 1 →
      exec .porAssert s = .next ({ t.bumpWrap fTOP_GRAPH_EPOCH_EPOCH with power := { tripped := s.power.tripped }, sec := { owners := s.sec.owners, revoked := s.sec.revoked, opened := s.sec.opened, erasing := s.sec.erasing, scope := s.sec.scope } })) ∧
  (∀ (s : State) (stage : Fin 7) (die : Fin 10) (ok : Bool) (bad0 bad1 : BitVec 18),
      s.stageOpen stage.val die.val = true →
      stage.val ≠ 6 →
      exec (.bootStageDone stage die ok bad0 bad1) s = .next (if ok then s.setBoot { s.boot with done := s.boot.done ++ [(stage.val, die.val)] } else (s.setBoot { s.boot with failed := s.boot.failed ++ [(stage.val, die.val)] }).bootFail stage.val die.val 1)) ∧
  (∀ (s : State) (stage : Fin 7) (die : Fin 10) (bad0 bad1 : BitVec 18) (t : State),
      s.stageOpen stage.val die.val = true →
      stage.val = 6 →
      t = (((s.setBoot { s.boot with done := s.boot.done ++ [(6, die.val)] }).mapCores (2 * die.val) bad0.toNat).mapCores (2 * die.val + 1) bad1.toNat).setF fTOP_READY_COLL 1 →
      exec (.bootStageDone stage die true bad0 bad1) s = .next ((((t.clearSpan (2 * die.val)).clearSpan (2 * die.val + 1)).showCeiling (2 * die.val)).showCeiling (2 * die.val + 1))) ∧
  (∀ (s : State) (stack : SpanIx) (ok : Bool),
      s.boot.on = true ∧ s.boot.por = true ∧ s.power.tripped = false ∧ s.boot.stage4 = true ∧ s.boot.footingUp (stack.val / 2) = true →
      (s.stack stack.val).trained = false →
      (s.stack stack.val).trainTries < 2 →
      exec (.stackTrainAttemptDone stack ok) s = .next (if ok then (s.setStack stack.val { s.stack stack.val with trainTries := (s.stack stack.val).trainTries + 1 }).stackTrained stack.val else s.setStack stack.val { s.stack stack.val with trainTries := (s.stack stack.val).trainTries + 1 })) ∧
  (∀ (s : State) (span : SpanIx) (t : State),
      s.boot.isDone 6 (span.val / 2) = true ∧ (s.getF fTOP_READY_STACK / 2 ^ span.val % 2 == 1) = true ∧ s.spanReady span.val = false ∧ s.spanInReset span.val = false ∧ (s.stack span.val).bist = false →
      t = (s.ownStack span.val false).setReadySpan span.val true →
      exec (.spanReady span) s = .next (t.setSpan span.val { t.span span.val with cyc := 0, cycFrac := 0 }))

/-- A rail out of range is recorded with RAIL in TOP.ALERT, holding the compute dies in L4 (VIN_CORE, VIN_MEM) or shutting the I/O side (VIN_IO, VIN_OPT); a rail back in
range leaves the set. A phase of a span's bank that fails is marked. The first failed phase of a stack is counted, the second is recorded and holds the span. A span takes
its clock and voltage when the target differs and 100 us have passed. A limiter window of every core of a span opens; a droop withholds a span's groups for 16 cycles.
Input power above 1.10 x the cap counts an event and withholds groups by a free reduction; below the cap the withholding ends. -/
def Obligations.RegulatorsClocksPower : Prop :=
  (∀ (s : State) (rail : Fin 5) (mv : Half) (u t : State),
      s.boot.por = true →
      s.boot.railsOut.contains rail.val = false →
      u = s.setBoot { s.boot with railsOut := insNat rail.val s.boot.railsOut } →
      (t = (u.powerRec 1 1 rail.val mv.toNat 3 (if rail.val < 2 && !u.faults.railHold then u.startLevel 4 .device else 0)).setF fTOP_ALERT_RAIL 1) →
      exec (.railOutOfRange rail mv) s = .next (if rail.val < 2 then (if t.faults.railHold then t else ((t.setFaults { t.faults with railHold := true }).faultReset 4 .device false).showReset) else if rail.val < 4 then t.shutIo else t)) ∧
  (∀ (s : State) (rail : Fin 5),
      s.faults.railHold = false →
      exec (.railRestored rail) s = .next (s.setBoot { s.boot with railsOut := s.boot.railsOut.filter (· != rail.val) })) ∧
  (∀ (s : State) (span : SpanIx) (phase : Fin 24),
      (s.getF (fSPN_PHASES_FAILED span.val)).testBit phase.val = false →
      23 ≤ s.getF (fSPN_PHASES_HEALTHY span.val) →
      exec (.regPhaseFail span phase) s = .next (State.showCeiling (((s.setF (fSPN_PHASES_FAILED span.val) (s.getF (fSPN_PHASES_FAILED span.val) + 2 ^ phase.val)).setF (fSPN_PHASES_HEALTHY span.val) (s.getF (fSPN_PHASES_HEALTHY span.val) - 1)).setF (fSPN_PHASES_SPARES_USED span.val) (if (decide (phase.val < 22) || (sparesIn (s.getF (fSPN_PHASES_FAILED span.val)) (s.getF (fSPN_PHASES_SPARES_USED span.val))).contains phase.val) && !(([22, 23].filter fun x => !(sparesIn (s.getF (fSPN_PHASES_FAILED span.val)) (s.getF (fSPN_PHASES_SPARES_USED span.val))).contains x && !(s.getF (fSPN_PHASES_FAILED span.val)).testBit x && x != phase.val).isEmpty) then s.getF (fSPN_PHASES_SPARES_USED span.val) + 1 else s.getF (fSPN_PHASES_SPARES_USED span.val))) span.val)) ∧
  (∀ (s : State) (stack : SpanIx),
      (aget s.clk.hbmFailed stack.val).getD 0 = 0 →
      exec (.hbmPhaseFail stack) s = .next (s.setClk { s.clk with hbmFailed := aput s.clk.hbmFailed stack.val 1 })) ∧
  (∀ (s : State) (stack : SpanIx),
      (aget s.clk.hbmFailed stack.val).getD 0 = 1 →
      exec (.hbmPhaseFail stack) s = .next ((((s.setClk { s.clk with hbmFailed := aput s.clk.hbmFailed stack.val 2 }).powerRec 2 4 stack.val 2 2 ((s.setClk { s.clk with hbmFailed := aput s.clk.hbmFailed stack.val 2 }).startLevel 3 (.span stack.val))).setF fTOP_ALERT_PHASES 1).holdPhases stack.val true)) ∧
  (∀ (s : State) (span : SpanIx),
      s.clockTarget span.val ≠ s.getF (fSPN_CLK_CURRENT_MHZ span.val) →
      (match aget s.clk.changedAt span.val with | some a => decide (a + 100000 ≤ s.time.nowNs) | none => true) = true →
      exec (.clockChange span) s = .next (((s.setClk { s.clk with changedAt := aput s.clk.changedAt span.val s.time.nowNs }).setF (fSPN_CLK_CURRENT_MHZ span.val) (s.clockTarget span.val)).setF (fSPN_CLK_VOLT_MV span.val) (max 620 (min 850 (Config.fusedMv span.val (s.clockTarget span.val)))))) ∧
  (∀ (s : State) (span : SpanIx),
      exec (.didtWindow span) s = .next ({ s with trs := s.trs.map fun (e : Nat × TrsSt) => if e.1 / 16 = span.val then (e.1, e.2.window (s.span span.val).cyc) else e })) ∧
  (∀ (s : State) (span : SpanIx),
      exec (.didtDroop span) s = .next ({ s with power := { s.power with droop := aput s.power.droop span.val ((s.span span.val).cyc + 16) } })) ∧
  (∀ (s : State) (watts : Half),
      s.getF fTOP_POWER_CAP_W * 11 < watts.toNat * 10 →
      s.power.capRed = 0 →
      exec (.powerLimitEvent watts) s = .next (State.showApplied { (s.bumpSat fTOP_POWER_LIMIT_EVENTS).drew with power := { (s.bumpSat fTOP_POWER_LIMIT_EVENTS).power with capRed := Config.free (s.bumpSat fTOP_POWER_LIMIT_EVENTS).freeCtr % 256 + 1 } })) ∧
  (∀ (s : State) (watts : Half),
      ¬ s.getF fTOP_POWER_CAP_W * 11 < watts.toNat * 10 →
      watts.toNat < s.getF fTOP_POWER_CAP_W →
      exec (.powerLimitEvent watts) s = .next (State.showApplied { s with power := { s.power with capRed := 0 } }))

/-- For every state in which the next descriptor of the ring is a PORT_CONTROL of the action, naming a port below 34: DISABLE takes a whole port to DARK with ENABLE clear;
ENABLE trains a DARK port; RETRAIN trains one that is not DARK; RELEASE trains the sub-ports in QUARANTINE; ACCEPT_PEER makes the observed peers the expected ones and the
sub-ports ACTIVE; SET_MODE writes SPLIT and WIDTH_MAX and retrains a port that is not DARK; SUBSTITUTE gives a spare the configuration of the port it replaces, which goes
DARK; UNSUBSTITUTE brings the replaced port back (R369, R387). Each completes with 0x90. -/
def Obligations.PortControlCompletes : Prop :=
  (∀ (s : State) (sq : RingNo) (f : InFlight) (qs : List Nat),
      s.nextCmd sq.toNat 0x68 = some f →
      recNat f.desc 9 1 = 0 →
      s.pcSubs f.desc = some qs →
      pcWhole f.desc = true →
      exec (.disable sq) s = .next (((s.darkPort (recNat f.desc 8 1) 0x0E).setEnable (recNat f.desc 8 1) false).finish f 0x90 [])) ∧
  (∀ (s : State) (sq : RingNo) (f : InFlight) (qs : List Nat),
      s.nextCmd sq.toNat 0x68 = some f →
      recNat f.desc 9 1 = 1 →
      s.pcSubs f.desc = some qs →
      pcWhole f.desc = true →
      s.isDark (recNat f.desc 8 1) = true →
      exec (.enable sq) s = .next (((s.setEnable (recNat f.desc 8 1) true).lightPort (recNat f.desc 8 1)).finish f 0x90 [])) ∧
  (∀ (s : State) (sq : RingNo) (f : InFlight) (qs : List Nat),
      s.nextCmd sq.toNat 0x68 = some f →
      recNat f.desc 9 1 = 2 →
      s.pcSubs f.desc = some qs →
      pcWhole f.desc = true →
      s.isDark (recNat f.desc 8 1) = false →
      exec (.retrain sq) s = .next ((s.pcTrain (recNat f.desc 8 1) qs true).finish f 0x90 [])) ∧
  (∀ (s : State) (sq : RingNo) (f : InFlight) (qs : List Nat),
      s.nextCmd sq.toNat 0x68 = some f →
      recNat f.desc 9 1 = 3 →
      s.pcSubs f.desc = some qs →
      ((qs.filter fun q => (s.sub (recNat f.desc 8 1) q).state == 7).isEmpty = false) →
      exec (.release sq) s = .next ((s.pcTrain (recNat f.desc 8 1) (qs.filter fun q => (s.sub (recNat f.desc 8 1) q).state == 7) (pcWhole f.desc && !(s.port (recNat f.desc 8 1)).split)).finish f 0x90 [])) ∧
  (∀ (s : State) (sq : RingNo) (f : InFlight) (qs : List Nat),
      s.nextCmd sq.toNat 0x68 = some f →
      recNat f.desc 9 1 = 4 →
      s.pcSubs f.desc = some qs →
      ((qs.filter fun q => (s.sub (recNat f.desc 8 1) q).state == 6).isEmpty = false) →
      exec (.acceptPeer sq) s = .next (((qs.filter fun q => (s.sub (recNat f.desc 8 1) q).state == 6).foldl (fun st q => st.acceptOne (recNat f.desc 8 1) q) s).finish f 0x90 [])) ∧
  (∀ (s : State) (sq : RingNo) (f : InFlight) (qs : List Nat),
      s.nextCmd sq.toNat 0x68 = some f →
      recNat f.desc 9 1 = 5 →
      s.pcSubs f.desc = some qs →
      recNat f.desc 11 1 < 8 →
      pcWhole f.desc = true →
      State.isDark ((s.setF (fLNK_CFG_SPLIT (recNat f.desc 8 1)) (recBits f.desc 11 1 0 0)).setF (fLNK_CFG_WIDTH_MAX (recNat f.desc 8 1)) (recBits f.desc 11 1 2 1)) (recNat f.desc 8 1) = s.isDark (recNat f.desc 8 1) →
      exec (.setMode sq) s = .next (State.finish (if s.isDark (recNat f.desc 8 1) then ((s.setF (fLNK_CFG_SPLIT (recNat f.desc 8 1)) (recBits f.desc 11 1 0 0)).setF (fLNK_CFG_WIDTH_MAX (recNat f.desc 8 1)) (recBits f.desc 11 1 2 1)) else State.lightPort ((s.setF (fLNK_CFG_SPLIT (recNat f.desc 8 1)) (recBits f.desc 11 1 0 0)).setF (fLNK_CFG_WIDTH_MAX (recNat f.desc 8 1)) (recBits f.desc 11 1 2 1)) (recNat f.desc 8 1)) f 0x90 [])) ∧
  (∀ (s : State) (sq : RingNo) (f : InFlight) (p x : Nat),
      s.nextCmd sq.toNat 0x68 = some f →
      recNat f.desc 9 1 = 6 →
      recNat f.desc 8 1 = p ∧ recNat f.desc 11 1 = x →
      32 ≤ p ∧ p < 34 ∧ x < 32 →
      (s.pcSubs f.desc).isNone = false →
      s.isSet (fLNK_STATUS_SUBST p) = false →
      exec (.substitute sq) s = .next ((((((((s.copyConfig p x).darkPort x 0x0E).setEnable x false).setF (fLNK_STATUS_SUBST p) 1).setF (fLNK_STATUS_ALIAS p) x).setEnable p true).lightPort p).finish f 0x90 [])) ∧
  (∀ (s : State) (sq : RingNo) (f : InFlight),
      s.nextCmd sq.toNat 0x68 = some f →
      recNat f.desc 9 1 = 7 →
      (s.pcSubs f.desc).isNone = false →
      32 ≤ recNat f.desc 8 1 →
      s.isSet (fLNK_STATUS_SUBST (recNat f.desc 8 1)) = true →
      exec (.unsubstitute sq) s = .next ((State.lightPort (State.setEnable (State.setF (State.setF ((s.darkPort (recNat f.desc 8 1) 0x0E).setEnable (recNat f.desc 8 1) false) (fLNK_STATUS_SUBST (recNat f.desc 8 1)) 0) (fLNK_STATUS_ALIAS (recNat f.desc 8 1)) 0) (s.getF (fLNK_STATUS_ALIAS (recNat f.desc 8 1))) true) (s.getF (fLNK_STATUS_ALIAS (recNat f.desc 8 1)))).finish f 0x90 []))

/-- PORT_EXPECT on a sub-port that is not up stores the expected peer and completes with 0x90; PRESET_WRITE to a bonded port with no swing in hand writes the preset at once;
PORT_POWER on a DARK port holds or drops the heaters and completes with 0xF0. -/
def Obligations.PortSettingsComplete : Prop :=
  (∀ (s : State) (sq : RingNo) (f : InFlight) (p q : Nat),
      s.nextCmd sq.toNat 0x69 = some f →
      recNat f.desc 8 1 = p ∧ p < 34 ∧ recNat f.desc 16 1 < 34 →
      (s.port p).split = false ∧ recNat f.desc 9 1 = 0xFF ∧ q = 0 ∨ (s.port p).split = true ∧ recNat f.desc 9 1 = q ∧ q < 16 →
      (SubPort.up (State.sub (s.modSub p q fun u => { u with expect := if recBits f.desc 10 1 0 0 = 1 then none else some ⟨recNat f.desc 12 4, recNat f.desc 16 1, recNat f.desc 17 1⟩ }) p q) = false) →
      exec (.portExpect sq) s = .next (State.finish (s.modSub p q fun u => { u with expect := if recBits f.desc 10 1 0 0 = 1 then none else some ⟨recNat f.desc 12 4, recNat f.desc 16 1, recNat f.desc 17 1⟩ }) f 0x90 [])) ∧
  (∀ (s : State) (sq : RingNo) (f : InFlight),
      s.nextCmd sq.toNat 0x6A = some f →
      recNat f.desc 8 1 < 34 ∧ recNat f.desc 16 1 < 34 ∧ recNat f.desc 18 2 ≤ 20000 →
      s.isSet (fLNK_CFG_SPLIT (recNat f.desc 8 1)) = false →
      (s.port (recNat f.desc 8 1)).split = false →
      (s.sub (recNat f.desc 8 1) 0).swing = none →
      exec (.presetWrite sq) s = .next (s.presetWrite f)) ∧
  (∀ (s : State) (sq : RingNo) (f : InFlight),
      s.nextCmd sq.toNat 0x98 = some f →
      recNat f.desc 8 1 < 34 ∧ recNat f.desc 9 1 < 2 →
      s.isDark (recNat f.desc 8 1) = true →
      exec (.portPower sq) s = .next (State.finish (s.modPort (recNat f.desc 8 1) fun v => { v with hold := recNat f.desc 9 1 == 0, heater := if recNat f.desc 9 1 = 0 then v.heater else [] }) f 0xF0 []))

/-- A codeword leaves a lit sub-port that is up as R353, R358 and R359 order what waits, one in LIGHT as TRAIN; a DATA payload with every lane there and no key is delivered,
lanes without light are only noted; FILL is consumed; NAK for a codeword still kept has it and those after it sent again behind REPLAY; REPLAY ends the wait; without it
for HOLD + RTT the codeword is lost. -/
def Obligations.CodewordsComplete : Prop :=
  (∀ (s : State) (port : Port) (sub : Sub) (u : SubPort),
      s.subNamed port.val sub.val = true ∧ (s.port port.val).lit = true ∧ (s.sub port.val sub.val).state ≠ 0 ∧ (s.sub port.val sub.val).nextNo ≤ s.codeNo →
      u = (s.sub port.val sub.val).readyTx s.codeNo s.time.nowNs →
      u.state = 4 ∨ u.state = 5 →
      exec (.codewordTransmit port sub) s = .next (((s.showMap port.val sub.val (s.sub port.val sub.val) u).showKey port.val).sendNext port.val sub.val s.codeNo)) ∧
  (∀ (s : State) (port : Port) (sub : Sub) (u : SubPort),
      s.subNamed port.val sub.val = true ∧ (s.port port.val).lit = true ∧ (s.sub port.val sub.val).state ≠ 0 ∧ (s.sub port.val sub.val).nextNo ≤ s.codeNo →
      u = (s.sub port.val sub.val).readyTx s.codeNo s.time.nowNs →
      u.state = 1 →
      exec (.codewordTransmit port sub) s = .next (((s.showMap port.val sub.val (s.sub port.val sub.val) u).showKey port.val).sendTrain port.val sub.val s.codeNo)) ∧
  (∀ (s : State) (port : Port) (sub : Sub) (n : DWord) (lanes : List (Option (List (BitVec 10)))) (u : State),
      s.subNamed port.val sub.val = true ∧ (s.sub port.val sub.val).state ≠ 0 →
      (u = (s.modSub port.val sub.val fun v => v.readyRx n.toNat).rxCount port.val sub.val (rxWords n.toNat lanes)) →
      (rxGot (rxWords n.toNat lanes)).find? (·.1) = none →
      (u.sub port.val sub.val).width ≤ (rxGot (rxWords n.toNat lanes)).length ∧ (u.sub port.val sub.val).keyAt n.toNat = none →
      exec (.codewordReceive port sub n lanes) s = .next (u.takeData port.val sub.val n.toNat (rxPayload (rxGot (rxWords n.toNat lanes)) (u.sub port.val sub.val).width) (2550 * (u.sub port.val sub.val).width))) ∧
  (∀ (s : State) (port : Port) (sub : Sub) (n : DWord) (lanes : List (Option (List (BitVec 10)))) (u : State),
      s.subNamed port.val sub.val = true ∧ (s.sub port.val sub.val).state ≠ 0 →
      (u = (s.modSub port.val sub.val fun v => v.readyRx n.toNat).rxCount port.val sub.val (rxWords n.toNat lanes)) →
      (rxGot (rxWords n.toNat lanes)).find? (·.1) = none →
      (rxGot (rxWords n.toNat lanes)).length < (u.sub port.val sub.val).width ∧ (rxWords n.toNat lanes).any (·.isSome) = false →
      exec (.codewordReceive port sub n lanes) s = .next (u)) ∧
  (∀ (s : State) (port : Port) (sub : Sub) (b : List Byte) (t : State),
      s.takeType port.val sub.val 0x01 = some (b, t) →
      exec (.fillReceive port sub) s = .next (t)) ∧
  (∀ (s : State) (port : Port) (sub : Sub) (b : List Byte) (t u : State) (n : Nat),
      s.takeType port.val sub.val 0x04 = some (b, t) →
      (u = (t.bumpSat (fLNK_NAKS_RECEIVED port.val)).modSub port.val sub.val fun v => { v with naks := v.naks ++ [s.time.nowNs] }) →
      n = (u.sub port.val sub.val).nakNo (recNat b 1 4) ∧ (u.sub port.val sub.val).up = true →
      (u.sub port.val sub.val).replayTo = none ∧ u.codeNo * 85 / 4 ≤ n * 85 / 4 + (u.sub port.val sub.val).hold →
      exec (.nakReceive port sub) s = .next (u.setSub port.val sub.val ((u.sub port.val sub.val).replayFrom n))) ∧
  (∀ (s : State) (port : Port) (sub : Sub) (b : List Byte) (t : State) (a : Nat × Nat),
      s.takeType port.val sub.val 0x02 = some (b, t) →
      (t.sub port.val sub.val).await = some a ∧ (recNat b 1 4 + 2 ^ 32 - a.1 % 2 ^ 32) % 2 ^ 32 < 2 ^ 31 →
      exec (.replayReceive port sub) s = .next (t.setSub port.val sub.val { t.sub port.val sub.val with await := none, nakDue := 0 })) ∧
  (∀ (s : State) (port : Port) (sub : Sub) (a : Nat × Nat),
      (s.sub port.val sub.val).await = some a ∧ (s.sub port.val sub.val).up = true →
      a.2 + (s.sub port.val sub.val).hold + (s.sub port.val sub.val).rtt ≤ s.time.nowNs →
      exec (.nakLost port sub) s = .next ((((s.portRec port.val sub.val 0x09 0).modSub port.val sub.val fun u => u.fresh false).enterSub port.val sub.val 2 (some 0x09))))

/-- TRAIN seen on the channels needed takes LIGHT to LOCK; agreement on the lanes of a width takes LOCK to IDENT with their map, the values learned and an IDENT record sent;
IDENT takes the peer's record and its common capabilities; certificate fragments are kept and the last has AUTH sent; AUTH that verifies goes on, one that does not is
quarantined; LOCK after 5 ms (50 ms with fabric time unlocked), IDENT after 20 ms, 20 µs without light, or more than 256 NAKs in 1 ms go back to LIGHT with their causes. -/
def Obligations.TrainingAndIdentity : Prop :=
  (∀ (s : State) (port : Port) (sub : Sub) (b : List Byte) (t : State),
      s.takeType port.val sub.val 0x03 = some (b, t) →
      (t.sub port.val sub.val).state = 1 →
      ((if (s.port port.val).split then (t.sub port.val sub.val).trainSeen.testBit sub.val else (t.sub port.val sub.val).trainSeen.testBit 0 && (t.sub port.val sub.val).trainSeen.testBit 1) = true) →
      exec (.trainReceive port sub) s = .next (t.enterSub port.val sub.val 2 none)) ∧
  (∀ (s : State) (port : Port) (sub : Sub) (ok : BitVec 18) (lanes : List (Chan × Byte × Byte × BitVec 12)) (u : SubPort) (m : List Nat),
      s.subNamed port.val sub.val = true ∧ u = s.sub port.val sub.val →
      u.state = 2 ∧ u.swing = none ∧ m.isEmpty = false ∧ m = s.lockMap port.val sub.val ok.toNat →
      exec (.lockAcquired port sub ok lanes) s = .next ((((s.setSub port.val sub.val { u with width := m.length, txMap := m, rxMap := m, echoes := [], rtts := [], lanes := lanes.foldl (fun a l => aput a l.1.val (l.2.1.toNat, l.2.2.1.toNat, l.2.2.2.toNat)) u.lanes }).showSpares port.val).enterSub port.val sub.val 3 none).startIdent port.val sub.val)) ∧
  (∀ (s : State) (port : Port) (sub : Sub),
      s.subNamed port.val sub.val = true ∧ (s.sub port.val sub.val).state = 2 ∧ (s.sub port.val sub.val).swing = none →
      ((s.sub port.val sub.val).since + (if s.timeUnlocked then 50000000 else 5000000) ≤ s.time.nowNs) →
      exec (.lockTimeout port sub) s = .next (s.toLight port.val sub.val (some 0x02) true)) ∧
  (∀ (s : State) (port : Port) (sub : Sub),
      s.subNamed port.val sub.val = true ∧ (s.sub port.val sub.val).state = 3 →
      (s.sub port.val sub.val).since + 20000000 ≤ s.time.nowNs →
      exec (.identTimeout port sub) s = .next ((s.toLight port.val sub.val (some 0x03) true).bumpSat (fLNK_EVENTS_IDENT_FAIL port.val))) ∧
  (∀ (s : State) (port : Port) (sub : Sub),
      s.subNamed port.val sub.val = true ∧ ((s.sub port.val sub.val).up || (s.sub port.val sub.val).state == 6) = true ∧ (s.sub port.val sub.val).swing = none →
      (max (if (s.sub port.val sub.val).state = 6 then (s.sub port.val sub.val).seenAt else (s.sub port.val sub.val).lightAt) (s.sub port.val sub.val).since + 20000 ≤ s.time.nowNs) →
      exec (.noLightTimeout port sub) s = .next (s.toLight port.val sub.val (some 0x01) false)) ∧
  (∀ (s : State) (port : Port) (sub : Sub),
      s.subNamed port.val sub.val = true ∧ (s.sub port.val sub.val).up = true →
      (256 < ((s.sub port.val sub.val).naks.filter fun t => decide (s.time.nowNs < t + 1000000)).length) →
      exec (.nakStorm port sub) s = .next (s.toLight port.val sub.val (some 0x08) true)) ∧
  (∀ (s : State) (port : Port) (sub : Sub) (b : List Byte) (t w : State) (v : SubPort),
      s.takeType port.val sub.val 0x09 = some (b, t) →
      (t.sub port.val sub.val).state = 3 ∧ v = (t.sub port.val sub.val).takeIdent (byteField b 1 64) ∧ w = t.setSub port.val sub.val v →
      w.commonOk port.val v.common (t.sub port.val sub.val).width = true →
      exec (.identReceive port sub) s = .next (w.showSub port.val sub.val)) ∧
  (∀ (s : State) (port : Port) (sub : Sub) (b : List Byte) (t : State) (v : SubPort),
      s.takeType port.val sub.val 0x0A = some (b, t) →
      (t.sub port.val sub.val).state = 3 ∧ recNat b 1 1 < 16 →
      v = { t.sub port.val sub.val with cert := aput (t.sub port.val sub.val).cert (recNat b 1 1) (byteField b 2 256) } ∧ v.cert.length ≠ 16 →
      exec (.certReceive port sub) s = .next (t.setSub port.val sub.val v)) ∧
  (∀ (s : State) (port : Port) (sub : Sub) (b : List Byte) (t : State),
      s.takeType port.val sub.val 0x0B = some (b, t) →
      (t.sub port.val sub.val).state = 3 →
      exec (.authReceive port sub) s = .next (if (t.sub port.val sub.val).authGood (byteField b 1 96) then t.authDone port.val sub.val else t.quarantine port.val sub.val 0x04))

/-- The peer's lane map holds from the number it names, for this end too; a failed lane of a bonded port that is up moves to a healthy spare channel by a new map; a failed
ring takes its sublink to DARK; a spare laser that is tuned brings its sublink back, or the full width of a bonded port; heater and laser updates are noted for a lit
port; a swung port that relocks sends SWING_CHECK, a matching check brings it back, one not back 10 µs after its switching time fails. A lit port without any light for
200 µs is darkened and shut; it probes once a second for 2 ms, and far light ends that. -/
def Obligations.LanesSwingsAndEyeSafety : Prop :=
  (∀ (s : State) (port : Port) (sub : Sub) (b : List Byte) (t u : State) (m : List Nat) (n : Nat),
      s.takeType port.val sub.val 0x08 = some (b, t) →
      m = ((b.drop 5).map (·.toNat)).filter (· != 0xFF) ∧ n = nearNo s.codeNo (recNat b 1 4) →
      ([16, 8, 4, 2, 1].contains m.length && m.all (· < 18) && m.Nodup) = true ∧ (t.sub port.val sub.val).up = true →
      u = t.setSub port.val sub.val { t.sub port.val sub.val with rxNext := some (n, m) } →
      exec (.lanemapReceive port sub) s = .next (u.adoptMap port.val sub.val n m)) ∧
  (∀ (s : State) (port : Port) (chan : Chan) (rx laser : Bool) (u : State) (was m : List Nat),
      u = s.failChan port.val chan.val rx ∧ was = (((u.sub port.val 0).txNext.map (·.2)).getD (u.sub port.val 0).txMap) →
      (s.port port.val).split = false ∧ (u.sub port.val 0).up = true ∧ was.contains chan.val = true →
      (mendMap (u.badChans port.val) (u.spareChans port.val) was).any (u.badChans port.val).testBit = false →
      u.mapFor port.val was = some m ∧ m.length = was.length →
      exec (.laneFail port chan rx laser) s = .next ((u.bumpSat (fLNK_EVENTS_LANE_MOVES port.val)).announceMap port.val 0 m)) ∧
  (∀ (s : State) (port : Port) (chan : Chan) (rx laser : Bool) (u : State),
      u = s.failChan port.val chan.val rx →
      (s.port port.val).split = true ∧ chan.val < 16 ∧ (u.sub port.val chan.val).state ≠ 0 ∧ (laser && !rx) = false →
      exec (.laneFail port chan rx laser) s = .next (((u.modSub port.val chan.val fun v => { (v.fresh true) with state := v.state }).enterSub port.val chan.val 0 (some 0x0C)))) ∧
  (∀ (s : State) (port : Port) (laser : Chan) (e : Nat × Nat) (t : State),
      (s.port port.val).tuning.find? (·.1 == laser.val) = some e ∧ (s.port port.val).split = true →
      t = s.tunedLaser port.val laser.val e.2 →
      (t.sub port.val e.2).state = 1 ∧ (t.sub port.val e.2).authOk = true →
      exec (.spareLaserTuned port laser) s = .next ((t.goActive port.val e.2).bumpSat (fLNK_EVENTS_LANE_MOVES port.val))) ∧
  (∀ (s : State) (port : Port) (laser : Chan) (e : Nat × Nat) (t : State) (m : List Nat),
      (s.port port.val).tuning.find? (·.1 == laser.val) = some e ∧ (s.port port.val).split = false →
      t = s.tunedLaser port.val laser.val e.2 →
      (t.sub port.val 0).up = true ∧ t.mapFor port.val (List.range 16) = some m →
      exec (.spareLaserTuned port laser) s = .next ((t.announceMap port.val 0 m).bumpSat (fLNK_EVENTS_LANE_MOVES port.val))) ∧
  (∀ (s : State) (port : Port) (rings : List (Chan × Bool × Int × Int)),
      (s.port port.val).lit = true →
      exec (.heaterUpdate port rings) s = .next (rings.foldl (State.heaterRing port.val (s.portForward port.val)) s)) ∧
  (∀ (s : State) (port : Port) (bias : List (Chan × Half)) (eol : List Chan),
      exec (.laserBiasSet port bias eol) s = .next ((eol.map (·.val)).foldl (State.laserEol port.val) (s.modPort port.val fun v => { v with bias := bias.foldl (fun a b => aput a b.1.val b.2.toNat) v.bias }))) ∧
  (∀ (s : State) (port : Port) (w : Swing),
      (s.sub port.val 0).swing = some w ∧ (s.sub port.val 0).state = 2 ∧ w.loaded = true ∧ w.relocked = false →
      exec (.swingRelock port) s = .next (s.modSub port.val 0 fun u => { u with swing := some { w with relocked := true }, ctlOut := u.ctlOut ++ [[0x05] ++ leBytes 3 s.ownId ++ leBytes 1 (s.roleOf port.val) ++ leBytes 4 (s.preWord port.val w.preset 2)] })) ∧
  (∀ (s : State) (port : Port) (sub : Sub) (b : List Byte) (t : State) (w : Swing),
      s.takeType port.val sub.val 0x05 = some (b, t) →
      (t.sub port.val 0).swing = some w ∧ (t.sub port.val 0).state = 2 ∧ w.loaded = true →
      recNat b 1 3 = s.preWord port.val w.preset 0 % 2 ^ 21 ∧ recBits b 4 1 5 0 = s.preWord port.val w.preset 1 % 64 ∧ recNat b 5 4 = s.preWord port.val w.preset 2 →
      exec (.swingCheckReceive port sub) s = .next (t.goActive port.val 0)) ∧
  (∀ (s : State) (port : Port) (w : Swing),
      (s.sub port.val 0).swing = some w ∧ w.loaded = true →
      w.ts + s.preWord port.val w.preset 1 / 65536 + 10000 ≤ s.time.ft →
      exec (.swingTimeout port) s = .next (((s.portRec port.val 0 0x0A 0).toLight port.val 0 (some 0x0A) true).bumpSat (fLNK_EVENTS_SWINGS_FAILED port.val))) ∧
  (∀ (s : State) (port : Port) (t : State),
      (s.port port.val).lit = true ∧ (s.port port.val).shut = false ∧ (s.port port.val).anyLight + 200000 ≤ s.time.nowNs →
      (t = (((s.setLit port.val false).drew).subsOf port.val).foldl (fun st q => if (st.sub port.val q).state = 0 ∨ (st.sub port.val q).state = 7 then st else st.toLight port.val q (some 0x0D) false) (s.setLit port.val false).drew) →
      exec (.openFibreShutdown port) s = .next ((t.modPort port.val fun x => { x with shut := true, probeAt := s.time.nowNs + Config.free s.freeCtr % 1000000000 }).setF (fLNK_STATUS_OPEN_FIBRE port.val) 1)) ∧
  (∀ (s : State) (port : Port),
      (s.port port.val).shut = true ∧ (s.port port.val).probeEnd = none ∧ (s.port port.val).probeAt ≤ s.time.nowNs →
      exec (.openFibreProbe port) s = .next ((List.range 16).foldl (fun st c => st.emit (.light port.val c true)) (s.modPort port.val fun x => { x with lit := true, probeEnd := some (s.time.nowNs + 2000000), probeAt := x.probeAt + 1000000000 }))) ∧
  (∀ (s : State) (port : Port) (e : Nat),
      (s.port port.val).probeEnd = some e ∧ (s.port port.val).shut = true ∧ e ≤ s.time.nowNs →
      exec (.openFibreProbeEnd port) s = .next ((List.range 16).foldl (fun st c => st.emit (.light port.val c false)) (s.modPort port.val fun x => { x with lit := false, probeEnd := none }))) ∧
  (∀ (s : State) (port : Port) (t : State),
      (s.port port.val).shut = true →
      (t = (s.modPort port.val fun x => { x with shut := false, probeEnd := none, anyLight := s.time.nowNs }).setF (fLNK_STATUS_OPEN_FIBRE port.val) 0) →
      exec (.farLightDetect port) s = .next (if (s.port port.val).lit then t else t.setLit port.val true))

/-- CELL_ROUTE takes the next cell of a port's input buffer through the checks of R411, an originated one to the tables; KEYSTONE_ADMIT lets the oldest waiting class K cell
go for a token; LANDING_TO_INPUT moves the next cell and counts its channel's freed count up; SUBPORT_REROUTE chooses again for the cells of an unavailable sub-port;
CELL_TRANSMIT sends a due CREDIT cell first, else the next cell with the header it leaves with, counting its channel's occupancy and TX_CELLS. -/
def Obligations.RouterMovesCells : Prop :=
  (∀ (s : State) (port : Option Port) (p : Port) (e : InCell),
      port = some p →
      nextInput (s.port p.val).input = some e →
      exec (.cellRoute port) s = .next ((s.modPort p.val fun v => { v with input := dropFirst (· == e) v.input }).routeArrived p.val e)) ∧
  (∀ (s : State) (port : Option Port) (c : Cell) (rest : List Cell),
      port = none →
      s.router.egress = c :: rest →
      exec (.cellRoute port) s = .next ((s.setRouter { s.router with egress := rest }).lookUp c none)) ∧
  (∀ (s : State) (port : Port) (sub : Sub) (c : OutCell) (rest : List OutCell) (b : Bucket),
      (s.sub port.val sub.val).admitQ = c :: rest →
      (s.refill port.val sub.val (s.sub port.val sub.val).admission).take = some b →
      exec (.keystoneAdmit port sub) s = .next (s.setSub port.val sub.val { s.sub port.val sub.val with admission := b, admitQ := rest, outQ := (s.sub port.val sub.val).outQ ++ [{ c with at' := s.time.nowNs }] })) ∧
  (∀ (s : State) (port : Port) (cls q : Nat) (c : Cell),
      s.landingPick port.val = some (cls, q, c) →
      exec (.landingToInput port) s = .next (s.landingMove port.val cls q c)) ∧
  (∀ (s : State) (port : Port) (sub : Sub),
      exec (.subportReroute port sub) s = .next (s.reroute port.val sub.val)) ∧
  (∀ (s : State) (port : Port) (sub : Sub) (u : SubPort),
      s.subNamed port.val sub.val = true ∧ s.maySend port.val sub.val = true →
      u = s.sub port.val sub.val ∧ u.tx.n < u.roomBits u.nextNo →
      s.creditDue port.val sub.val = true →
      exec (.cellTransmit port sub) s = .next (s.sendPortCredit port.val sub.val)) ∧
  (∀ (s : State) (port : Port) (sub : Sub) (u : SubPort) (c : OutCell) (o : Cell),
      s.subNamed port.val sub.val = true ∧ s.maySend port.val sub.val = true →
      u = s.sub port.val sub.val ∧ u.tx.n < u.roomBits u.nextNo →
      s.creditDue port.val sub.val = false →
      s.nextOut port.val sub.val = some c ∧ o = s.leaving port.val c.cell →
      exec (.cellTransmit port sub) s = .next ((s.setSub port.val sub.val { (u.pushCell o) with outQ := dropFirst (· == c) u.outQ, occ := vcSet u.occ (vcOf o) (vcGet u.occ (vcOf o) + 1) }).bumpWrap (fRTE_PORT_TX_CELLS_COUNT (s.roleOf port.val))))

/-- A due CREDIT cell is sent; a received one lowers the occupancy of each channel by the growth of its freed count modulo 2¹⁶, and ends stalls whose channel it freed. A cell
without a credit for 50 µs marks CREDIT_STALL, a class K cell for 1 µs K_STALL: counted, shown in MARKS, recorded, and the sub-port's cells are chosen again. A slow
destination sets its group's bit. Once per µs of fabric time the bins are sampled; once per 100 µs the interval's image is kept, counts start afresh, and TELE_PUSH sends
it to the collector. -/
def Obligations.CreditsStallsAndTelemetry : Prop :=
  (∀ (s : State) (port : Port) (sub : Sub),
      s.subNamed port.val sub.val = true ∧ s.creditDue port.val sub.val = true →
      exec (.creditCellSend port sub) s = .next (s.sendPortCredit port.val sub.val)) ∧
  (∀ (s : State) (port : Port) (sub : Sub) (c : Cell) (t : State) (u : SubPort) (got : List Nat) (back : Nat → Nat),
      s.takeLink port.val sub.val 1 = some (c, t) →
      (u = t.sub port.val sub.val ∧ got = (List.range 18).map (fun v => recNat c.payload (2 * v) 2)) →
      ((∀ v, back v = (vcGet got v + 65536 - vcGet u.freedPeer v % 65536) % 65536)) →
      exec (.creditCellReceive port sub) s = .next ((t.setSub port.val sub.val { u with occ := (List.range 18).map fun v => vcGet u.occ v - back v, freedPeer := got, creditAt := s.time.nowNs, stall := u.stall.filter fun v => back v == 0, kStall := u.kStall.filter fun v => back v == 0 }).showMarks port.val)) ∧
  (∀ (s : State) (port : Port) (sub : Sub) (c : OutCell),
      s.wantsCredit port.val sub.val false = some c →
      (s.sub port.val sub.val).stall = none ∧ (s.sub port.val sub.val).up = true ∧ max (s.sub port.val sub.val).creditAt (s.sub port.val sub.val).since + 50000 ≤ s.time.nowNs →
      exec (.creditStallTimeout port sub) s = .next (((((s.modSub port.val sub.val fun v => { v with stall := some (vcOf (s.leaving port.val c.cell)) }).bumpSat (fRTE_PORT_STALLS_CREDIT_STALL port.val)).showMarks port.val).fabricRec 3 c.cell.src c.cell.cls 7 (s.portUnit port.val sub.val)).reroute port.val sub.val)) ∧
  (∀ (s : State) (port : Port) (sub : Sub) (c : OutCell),
      s.wantsCredit port.val sub.val true = some c →
      (s.sub port.val sub.val).kStall = none ∧ (s.sub port.val sub.val).up = true ∧ c.at' + 1000 ≤ s.time.nowNs →
      exec (.kStallTimeout port sub) s = .next (((((s.modSub port.val sub.val fun v => { v with kStall := some (vcOf (s.leaving port.val c.cell)) }).bumpSat (fRTE_PORT_STALLS_K_STALL port.val)).showMarks port.val).fabricRec 4 c.cell.src 0 7 (s.portUnit port.val sub.val)).reroute port.val sub.val)) ∧
  (∀ (s : State) (group : BitVec 12),
      s.slowFor group.toNat = true →
      exec (.slowDestMark group) s = .next (s.setF (fRTE_SLOW_MAP_BITS (group.toNat / 32)) (putBits (s.getF (fRTE_SLOW_MAP_BITS (group.toNat / 32))) (group.toNat % 32) (group.toNat % 32) 1))) ∧
  (∀ (s : State),
      s.ftSet = true ∧ s.tele.sampled / 1000 < s.time.ft / 1000 →
      exec .telemetrySample s = .next ({ s with tele := { s.tele with bins := s.sampleBins, sampled := s.time.ft } })) ∧
  (∀ (s : State) (t : Nat),
      s.ftSet = true ∧ t = 100000 * (s.time.ft / 100000) ∧ s.tele.began < t →
      exec .telemetryIntervalEnd s = .next (if s.isSet fRTE_CFG_TELE_PUSH && s.getF fRTE_COLLECTOR_ID != s.ownId then (s.teleEnd t).sendFrame (s.getF fRTE_COLLECTOR_ID) 1 3 (cut64 (s.teleImage (t - 100000))) else s.teleEnd t))

/-- Each table command with its range inside the table writes its entries one after another as they are read and pass their check, and completes with 0xA0 when all are;
FILTER_WRITE sets FILTER_EN once its 16 ranges are whole; PORT_ROLE sets TYPE and KEY_SHARE; ENDPOINT_ASSIGN of a new ID sets it, records it, and has every sub-port that
is up prove it, returning the old one; TELEMETRY_CFG sets its fields; TELEMETRY_READ writes the last image and returns its number. -/
def Obligations.RouterTableCommands : Prop :=
  (∀ (s : State) (sq : RingNo) (data : List Byte) (f : InFlight) (i n : Nat),
      s.nextCmd sq.toNat 0x60 = some f →
      i = recNat f.desc 8 4 ∧ n = recNat f.desc 12 4 ∧ 0 < n ∧ i + n ≤ 2 ^ 21 →
      exec (.rteWrite sq data) s = .next (s.tableWrite f i n 2 0xA0 0xA1 0xA2 data (fun b => recBits b 0 2 13 12 == 0) State.writeFlat)) ∧
  (∀ (s : State) (sq : RingNo) (data : List Byte) (f : InFlight) (i n : Nat),
      s.nextCmd sq.toNat 0x61 = some f →
      i = recNat f.desc 8 2 ∧ n = recNat f.desc 10 2 ∧ 0 < n ∧ i + n ≤ 4096 →
      exec (.psetWrite sq data) s = .next (s.tableWrite f i n 8 0xA0 0xA1 0xA2 data goodSet State.writeSet)) ∧
  (∀ (s : State) (sq : RingNo) (data : List Byte) (f : InFlight) (i n : Nat),
      s.nextCmd sq.toNat 0x62 = some f →
      i = recNat f.desc 8 1 ∧ n = recNat f.desc 10 2 ∧ 0 < n ∧ i + n ≤ 256 →
      exec (.ovrWrite sq data) s = .next (s.tableWrite f i n 16 0xA0 0xA1 0xA2 data (fun b => recBits b 0 4 17 0 == 0) State.writeOvr)) ∧
  (∀ (s : State) (sq : RingNo) (data : List Byte) (f : InFlight) (p : Nat),
      s.nextCmd sq.toNat 0x63 = some f →
      p = recNat f.desc 8 1 ∧ p < 34 →
      (s.fidLive (s.sqFid f.sq) = true ∧ 128 ≤ data.length ∧ ((List.range 16).all fun i => goodFilter (byteField data (8 * i) 8)) = true) →
      exec (.filterWrite sq data) s = .next ((s.setF (fRTE_PORT_CFG_FILTER_EN p) (recNat f.desc 9 1)).tableWrite f 0 16 8 0xA0 0xA1 0xA2 data goodFilter (State.writeFilter p))) ∧
  (∀ (s : State) (sq : RingNo) (f : InFlight) (p k : Nat),
      s.nextCmd sq.toNat 0x64 = some f →
      p = recNat f.desc 8 1 ∧ k = recNat f.desc 10 1 ∧ p < 34 ∧ 1 ≤ k ∧ k ≤ 25 →
      exec (.portRole sq) s = .next (((s.setF (fRTE_PORT_CFG_TYPE p) (recNat f.desc 9 1)).setF (fRTE_PORT_CFG_KEY_SHARE p) k).finish f 0xA0 [])) ∧
  (∀ (s : State) (sq : RingNo) (f : InFlight),
      s.nextCmd sq.toNat 0x65 = some f →
      recNat f.desc 8 4 ≠ s.ownId →
      exec (.endpointAssign sq) s = .next ((State.reproveAll ((s.setF fRTE_OWN_ID_ID (recNat f.desc 8 4)).errRec { typ := 0x10, sev := 1, unitKind := 1, arg0 := 5, arg1 := s.ownId, arg2 := recNat f.desc 8 4 })).finish f 0xA0 (leBytes 4 s.ownId))) ∧
  (∀ (s : State) (sq : RingNo) (f : InFlight),
      s.nextCmd sq.toNat 0x66 = some f →
      recNat f.desc 13 1 ≠ 0 →
      exec (.telemetryCfg sq) s = .next ((((s.setF fRTE_COLLECTOR_ID (recNat f.desc 8 4)).setF fRTE_CFG_TELE_PUSH (recNat f.desc 12 1)).setF fRTE_CFG_SLOW_100NS (recNat f.desc 13 1)).finish f 0xA0 [])) ∧
  (∀ (s : State) (sq : RingNo) (ok : Bool) (f : InFlight) (u : State),
      s.nextCmd sq.toNat 0x67 = some f →
      (s.hostPut f (recNat f.desc 16 8) (if s.tele.image.isEmpty then List.replicate 20160 0 else s.tele.image) ok = (u, true)) →
      exec (.telemetryRead sq ok) s = .next (u.finish f 0xA0 (leBytes 4 s.tele.imageNo)))

/-- Records exchanged on a link that is not up train it; on links 4 and 5 CAP shows the I/O die and an accepted one trains. A flit its end may send is held and arrives at the
other end; a NAK has every held flit resent and is counted; a due acknowledgement goes as a flit without payload; a stuck link's flits go out again on its detour with the
link DOWN, counted and recorded; a trained link clean for 1 s takes its traffic back once its detour is acknowledged. -/
def Obligations.MarulLinksComplete : Prop :=
  (∀ (s : State) (link : Fin 7) (first second : List Byte) (repaired : Byte),
      s.boot.on = true ∧ s.boot.por = true ∧ s.power.tripped = false ∧ (s.getF (fD2D_LINK0_STATE link.val) == 2) = false →
      link.val ≠ 4 ∧ link.val ≠ 5 →
      exec (.marulCapExchange link first second repaired) s = .next ((s.trainLink link.val (byteField first 0 32) (byteField second 0 32)).setF (fD2D_LINK0_LANES_REPAIRED link.val) repaired.toNat)) ∧
  (∀ (s : State) (link : Fin 7) (first second : List Byte) (repaired : Byte) (i : Nat) (a b : List Byte),
      s.boot.on = true ∧ s.boot.por = true ∧ s.power.tripped = false ∧ (s.getF (fD2D_LINK0_STATE link.val) == 2) = false →
      link.val = i + 4 ∧ i < 2 ∧ a = byteField first 0 32 ∧ b = byteField second 0 32 →
      s.capOk i a b = true →
      exec (.marulCapExchange link first second repaired) s = .next ((((s.showCap i a b true).trainLink link.val a b).setF (fD2D_LINK0_LANES_REPAIRED link.val) repaired.toNat).checkHost)) ∧
  (∀ (s : State) (link : Fin 7) (rev : Bool) (sent recv : List Byte) (d : MarulDir),
      s.d2dUp link.val = true ∧ flitGood sent = true →
      (s.mdir link.val rev).sent sent s.time.nowNs = some d →
      exec (.marulFlitReceive link rev sent recv) s = .next ((s.setMdir link.val rev d).flitIn link.val rev recv)) ∧
  (∀ (s : State) (link : Fin 7) (rev : Bool) (d : MarulDir) (a n : Nat) (u : State),
      d = s.mdir link.val rev ∧ d.nakIn = some a ∧ d.again = none ∧ d.held ≠ [] →
      u = (s.setMdir link.val rev { d with nakIn := none, again := some ((a + 1) % 4096, 1) }).bumpSat (fD2D_LINK1_RESENDS link.val) →
      exec (.marulNakReceive link rev) s = .next (d.held.foldl (fun st e => st.emit (.flit link.val 2 e.1 e.2)) (u.setMlink link.val { u.mlink link.val with cleanAt := s.time.nowNs }))) ∧
  (∀ (s : State) (link : Fin 7) (rev : Bool),
      s.d2dUp link.val = true ∧ (s.mdir link.val rev).unacked.isSome = true →
      exec (.marulAckDue link rev) s = .next (s.sendNull link.val rev false)) ∧
  (∀ (s : State) (link : Fin 7) (lanes : Bool) (u w : State),
      s.d2dUp link.val = true →
      (lanes || (s.mdir link.val false).stuck s.time.nowNs || (s.mdir link.val true).stuck s.time.nowNs) = true →
      u = (s.moveToDetour link.val false).moveToDetour link.val true →
      w = (((u.setMlink link.val { u.mlink link.val with trained := false }).setF (fD2D_LINK0_STATE link.val) 3).bumpSat (fD2D_LINK2_DETOURS link.val)).bumpSat (fD2D_LINK2_DOWN_EVENTS link.val) →
      exec (.marulLinkDown link lanes) s = .next ((w.setF fTOP_ALERT_D2D 1).powerRec 3 10 link.val (w.getF (fD2D_LINK2_DOWN_EVENTS link.val)) 2)) ∧
  (∀ (s : State) (link : Fin 7),
      s.getF (fD2D_LINK0_STATE link.val) = 3 ∧ (s.mlink link.val).trained = true ∧ (s.mlink link.val).cleanAt + 1000000000 ≤ s.time.nowNs →
      (([detourLink link.val false, detourLink link.val true].all fun d => [false, true].all fun r => (s.mdir d r).held.isEmpty) = true) →
      exec (.marulLinkRestore link) s = .next (s.setF (fD2D_LINK0_STATE link.val) 2))

/-- A conversion that is due in its round is kept, remembered for the comparator when plausible, and compared; a round starts 1 ms after the last; 400 µs into it the round is
published once. A running core with a footing's duties runs its loop for its two spans every 100 µs; its write of a clock request within its duties is taken; its watchdog
not written for 10 ms, or a fault, stops it with its cause, the warning, a record, and the fallback of its spans. -/
def Obligations.HeatRoundAndLoops : Prop :=
  (∀ (s : State) (sensor : Fin 96) (raw : BitVec 20) (t : Int),
      s.boot.por = true ∧ (s.therm.roundNo == 0) = false ∧ s.therm.published = false ∧ aget s.therm.conv sensor.val = none →
      s.therm.roundAt + 40000 * (sensor.val % 8 + 1) ≤ s.time.nowNs →
      t = tempQ raw.toNat (Config.sensorN0 sensor.val) (Config.sensorSlope sensor.val) →
      exec (.sensorConversion sensor raw) s = .next ((s.setTherm { s.therm with conv := aput s.therm.conv sensor.val (s.converted sensor.val raw.toNat), latest := if raw.toNat = 0 ∨ implausible t then adel s.therm.latest sensor.val else aput s.therm.latest sensor.val (t, s.therm.roundNo) }).compareSensors)) ∧
  (∀ (s : State),
      s.boot.por = true ∧ s.therm.roundAt + 1000000 ≤ s.time.nowNs →
      exec .roundStart s = .next (s.setTherm { s.therm with roundAt := s.time.nowNs, roundNo := s.therm.roundNo + 1, conv := [], published := false })) ∧
  (∀ (s : State) (stackTemps : List (Option Half)) (vmon imon : List Half) (watts : Half),
      s.boot.por = true ∧ (s.therm.roundNo != 0) = true ∧ s.therm.published = false ∧ s.therm.roundAt + 400000 ≤ s.time.nowNs →
      exec (.roundPublish stackTemps vmon imon watts) s = .next (s.publish stackTemps vmon imon watts.toNat)) ∧
  (∀ (s : State) (core : HkIx) (req0 req1 : BitVec 11),
      s.hkState core.val = 2 ∧ s.hkDuty core.val < 4 ∧ (s.hkCore core.val).loopAt + 100000 ≤ s.time.nowNs →
      exec (.throttleLoop core req0 req1) s = .next ((State.loopSpan (s.setHk core.val { s.hkCore core.val with loopAt := s.time.nowNs }) (2 * s.hkDuty core.val) req0.toNat).loopSpan (2 * s.hkDuty core.val + 1) req1.toNat)) ∧
  (∀ (s : State) (core : HkIx) (field target : Byte) (value : Word),
      s.hkState core.val = 2 ∧ field.toNat = 0 ∧ s.hkDuty core.val < 4 ∧ target.toNat / 2 = s.hkDuty core.val →
      exec (.hkFirmwareWrite core field target value) s = .next (s.setReq target.toNat value.toNat)) ∧
  (∀ (s : State) (core : HkIx) (field target : Byte) (value : Word),
      s.hkState core.val = 2 ∧ field.toNat = 4 →
      exec (.hkFirmwareWrite core field target value) s = .next (s.setHk core.val { s.hkCore core.val with wdogAt := s.time.nowNs })) ∧
  (∀ (s : State) (core : HkIx),
      s.hkState core.val = 2 ∧ (s.hkCore core.val).wdogAt + 10000000 ≤ s.time.nowNs →
      exec (.hkWatchdogTimeout core) s = .next (s.hkFail core.val 1)) ∧
  (∀ (s : State) (core : HkIx),
      s.hkState core.val = 2 →
      exec (.hkCoreFault core) s = .next (s.hkFail core.val 2))

/-- HK_LOAD of a core for a die it may serve stops the core, takes the image and verifies it; a verified core starts and completes its command; HK_RESTART verifies the image
again; HK_STOP stops the core, releases its duty and lets the fallback watch; THERMAL_SET sets T_THR and GAIN; THERMAL_SYNC restarts the round with filters loaded afresh
and SETTLE 4, returning fabric time; THERMAL_READ writes the 512 registers. -/
def Obligations.HousekeepingCommands : Prop :=
  (∀ (s : State) (sq : RingNo) (data : Option (List Byte)) (f : InFlight) (k die : Nat) (u v w : State) (m : List Byte),
      s.nextCmd sq.toNat 0x80 = some f →
      k = recNat f.desc 8 1 ∧ die = recNat f.desc 9 1 ∧ dutyAllowed k die = true →
      0 < recNat f.desc 24 4 ∧ recNat f.desc 24 4 ≤ 524288 →
      s.hkState k ≠ 1 ∧ (k = 6 ∨ s.hkDuty 6 ≠ die) ∧ u = s.hkCmdStop k ∧ u.dutyCore die = none →
      v = u.setHk k { u.hkCore k with image := [], running := [], wait := none } →
      v.hostGet f (recNat f.desc 16 8) (recNat f.desc 24 4) data = (w, some m) →
      exec (.hkLoad sq data) s = .next (State.hkVerify (w.setHk k { w.hkCore k with image := m }) f k die m)) ∧
  (∀ (s : State) (core : HkIx) (no : Nat) (f : InFlight),
      (s.hkCore core.val).wait = some no →
      (s.hkRun core.val).flight no = some f →
      exec (.hkStart core) s = .next ((s.hkRun core.val).finish f 0xD0 (if f.opcode = 0x80 then leBytes 4 ((s.hkRun core.val).getF (fTHM_HK_VERSION_FW_VERSION core.val)) else []))) ∧
  (∀ (s : State) (sq : RingNo) (f : InFlight) (k : Nat),
      s.nextCmd sq.toNat 0x81 = some f →
      k = recNat f.desc 8 1 ∧ k < 7 ∧ (s.hkCore k).image ≠ [] ∧ s.hkState k ≠ 1 →
      exec (.hkRestart sq) s = .next ((s.hkCmdStop k).hkVerify f k (s.hkDuty k) (s.hkCore k).image)) ∧
  (∀ (s : State) (sq : RingNo) (f : InFlight) (k : Nat) (u : State),
      s.nextCmd sq.toNat 0x82 = some f →
      k = recNat f.desc 8 1 ∧ k < 7 ∧ (s.hkCore k).image ≠ [] ∧ s.hkState k ≠ 1 →
      u = (s.hkCmdStop k).setF (fTHM_HK_STATUS_DUTY k) 7 →
      exec (.hkStop sq) s = .next ((State.fallbackOf (u.setHk k { u.hkCore k with running := [] }) (s.hkDuty k)).finish f 0xD0 [])) ∧
  (∀ (s : State) (sq : RingNo) (f : InFlight) (t g : Nat),
      s.nextCmd sq.toNat 0x83 = some f →
      t = recNat f.desc 8 1 ∧ g = recNat f.desc 9 1 ∧ 80 ≤ t ∧ t ≤ 100 ∧ 1 ≤ g ∧ g ≤ 10 →
      exec (.thermalSet sq) s = .next (((s.setF fTHM_CFG_T_THR t).setF fTHM_CFG_GAIN g).finish f 0xD0 [])) ∧
  (∀ (s : State) (sq : RingNo) (f : InFlight),
      s.nextCmd sq.toNat 0x84 = some f →
      exec (.thermalSync sq) s = .next (State.finish ((s.setTherm { s.therm with roundAt := s.time.nowNs, roundNo := s.therm.roundNo + 1, conv := [], published := false, load := List.range 104, away := [], near := [] }).setF fTHM_STATUS_SETTLE 4) f 0xD0 (leBytes 8 s.ftOrZero))) ∧
  (∀ (s : State) (sq : RingNo) (ok : Bool) (f : InFlight) (u : State),
      s.nextCmd sq.toNat 0x85 = some f →
      (s.hostPut f (recNat f.desc 16 8) ((List.range 512).flatMap fun i => leBytes 4 (s.reg (0xE00000 + 4 * i)).toNat) ok = (u, true)) →
      exec (.thermalRead sq ok) s = .next (u.finish f 0xD0 []))

/-- A wanted record read takes TAIL up (R300); a descriptor read while the SQ may be fetched from is taken up (R306); a due poll of a live, enabled function reads its lines
(R323); a Swap of a summary word asks for the records it names; a BELL write for a valid SQ of the function asks for its record, any other counts BELL_IGNORED (R324); a
HEAD read releases the records it passes and posts held ones (R317, R319); RECORD_POST posts one held record; a coalescing timeout sends the due interrupt of a live CQ
(R320); unmasking a pending vector sends it; NOP completes with 0x80 (R310). -/
def Obligations.FetchAndPolling : Prop :=
  (∀ (s : State) (sq : RingNo) (tail : Word),
      (s.sq sq.toNat).wantRead = true →
      s.isSet (fHOST_SQ_STATE_HI_VALID sq.toNat) = true ∧ s.isSet (fHOST_SQ_STATE_HI_DISABLED sq.toNat) = false ∧ s.fidLive (s.sqFid sq.toNat) = true →
      (tail.toNat + 2 ^ 32 - s.getF (fHOST_SQ_STATE_LO_FETCHED sq.toNat)) % 2 ^ 32 ≤ s.sqSize sq.toNat →
      exec (.sqRecordReadDone sq tail) s = .next (s.setSq sq.toNat { s.sq sq.toNat with tail := tail.toNat, wantRead := false })) ∧
  (∀ (s : State) (sq : RingNo) (desc : Option (List Byte)) (d : List Byte) (x : Nat × Nat × Nat),
      desc = some d →
      s.fetchPick = some x ∧ x.2.1 = sq.toNat →
      exec (.descriptorFetch sq desc) s = .next (State.fetchDesc ((s.takeTurn x).emit (.hostRead (s.sqFid sq.toNat) ((s.sq sq.toNat).base + s.getF (fHOST_SQ_STATE_LO_FETCHED sq.toNat) % s.sqSize sq.toNat * 64) 64)) sq.toNat d)) ∧
  (∀ (s : State) (fid : Fid) (a : Nat),
      s.fidLive fid.toNat = true ∧ (s.fn fid.toNat).enabled = true →
      aget s.host.polledAt fid.toNat = some a ∧ a + s.pollNs ≤ s.time.nowNs →
      exec (.doorbellPoll fid) s = .next (s.poll fid.toNat)) ∧
  (∀ (s : State) (fid : Fid) (word : Fin 512) (bits : DWord),
      s.fidLive fid.toNat = true ∧ s.summaryMode fid.toNat = true →
      exec (.summarySwapDone fid word bits) s = .next ((((List.range 64).filter fun b => bits.toNat.testBit b).map (64 * word.val + ·)).foldl (fun st n => if st.isSet (fHOST_SQ_STATE_HI_VALID n) && st.sqFid n == fid.toNat then st.wantRecord fid.toNat n else st) (s.emit (.hostSwap fid.toNat (s.dbBase fid.toNat + 8 * word.val))))) ∧
  (∀ (s : State) (fid : Fid) (value : Word),
      s.fidLive fid.toNat = true →
      exec (.bellWrite fid value) s = .next (if s.isSet (fHOST_SQ_STATE_HI_VALID (value.toNat % 32768)) && s.sqFid (value.toNat % 32768) == fid.toNat then s.wantRecord fid.toNat (value.toNat % 32768) else s.bumpSat fHOST_COUNTS_BELL_IGNORED)) ∧
  (∀ (s : State) (cq : RingNo) (head : Word) (t : State),
      s.isSet (fHOST_CQ_STATE_HI_VALID cq.toNat) = true ∧ s.fidLive (s.cqFid cq.toNat) = true →
      t = (s.emit (.hostRead (s.cqFid cq.toNat) (s.dbBase (s.cqFid cq.toNat) + 0x41000 + 8 * cq.toNat) 8)).setCq cq.toNat { s.cq cq.toNat with head := head.toNat, live := (s.cq cq.toNat).live.drop ((s.cq cq.toNat).live.length - min ((s.getF (fHOST_CQ_STATE_LO_POSTED cq.toNat) + 2 ^ 32 - head.toNat) % 2 ^ 32) (s.cq cq.toNat).live.length) } →
      exec (.cqHeadRead cq head) s = .next (t.drainCq t.host.pending.length cq.toNat)) ∧
  (∀ (s : State) (cq : RingNo),
      exec (.recordPost cq) s = .next (s.drainCq 1 cq.toNat)) ∧
  (∀ (s : State) (cq : RingNo),
      s.cqLive cq.toNat = true →
      s.irqDue cq.toNat = true →
      exec (.irqCoalesceTimeout cq) s = .next ((s.setCq cq.toNat { s.cq cq.toNat with since := 0, irqNow := false }).sendVector (s.cqFid cq.toNat) (s.cqVec cq.toNat))) ∧
  (∀ (s : State) (fid : Fid) (vec : Fin 2048),
      s.fidNames fid.toNat = true →
      (s.fn fid.toNat).msixPend.contains vec.val = true →
      exec (.msixUnmask fid vec) s = .next ((s.setFn fid.toNat { s.fn fid.toNat with unmasked := insNat vec.val (s.fn fid.toNat).unmasked, msixPend := (s.fn fid.toNat).msixPend.filter (· != vec.val) }).emit (.msix fid.toNat vec.val))) ∧
  (∀ (s : State) (sq : RingNo) (f : InFlight),
      s.nextCmd sq.toNat 0x00 = some f →
      exec (.nop sq) s = .next (s.finish f 0x80 []))

/-- RING_CREATE with no BAD_RING condition and fields in range makes the ring and completes with 0x80; RING_DESTROY of an idle SQ removes it at once, of a busy one when its
last descriptor is done (RING_DESTROY_DONE); RING_MOVE of a ring that is there already changes nothing, to the other function moves it; FUNC_CONFIG of a VF stores its
fields; POWER_CAP sets the nearest cap of 1,200 to 2,400 W and reports it. -/
def Obligations.RingCommandsComplete : Prop :=
  (∀ (s : State) (sq : RingNo) (f : InFlight),
      s.nextCmd sq.toNat 0x10 = some f →
      recBits f.desc 10 1 0 0 ≠ 1 →
      s.createBad false (recNat f.desc 8 2) (recNat f.desc 12 1) (recNat f.desc 13 1) (recNat f.desc 14 2) = false →
      4 ≤ recNat f.desc 11 1 ∧ recNat f.desc 11 1 ≤ 15 ∧ recNat f.desc 16 8 % 4096 = 0 →
      exec (.ringCreate sq) s = .next ((s.makeSq (recNat f.desc 8 2) (recNat f.desc 14 2) (recNat f.desc 11 1) (recNat f.desc 12 1) (recNat f.desc 13 1) (recNat f.desc 16 8) (recBits f.desc 26 1 0 0)).finish f 0x80 [])) ∧
  (∀ (s : State) (sq : RingNo) (f : InFlight) (n : Nat),
      s.nextCmd sq.toNat 0x11 = some f →
      recNat f.desc 8 2 = n ∧ 8 ≤ n ∧ n < 32768 ∧ recBits f.desc 10 1 0 0 ≠ 1 →
      s.sqValid n = true →
      (State.host (s.setSq n { s.sq n with destroying := true })).flights.any (·.sq == n) = false →
      exec (.ringDestroy sq) s = .next (State.finish (State.dropSq (s.setSq n { s.sq n with destroying := true }) n) f 0x80 [])) ∧
  (∀ (s : State) (ring : RingNo) (f : InFlight),
      (s.host.flights.find? (fun f => f.opcode == 0x11 && f.stage == .started && f.a == ring.toNat) = some f) →
      s.host.flights.any (·.sq == ring.toNat) = false →
      exec (.ringDestroyDone ring) s = .next ((s.dropSq ring.toNat).finish f 0x80 [])) ∧
  (∀ (s : State) (sq : RingNo) (ptr : Word) (f : InFlight) (n : Nat) (toStby : Bool),
      s.nextCmd sq.toNat 0x12 = some f →
      recNat f.desc 8 2 = n ∧ 8 ≤ n ∧ n < 32768 ∧ (recBits f.desc 10 1 0 0 == 1) = false ∧ (recBits f.desc 11 1 0 0 == 1) = toStby →
      s.sqValid n = true ∧ (s.sq n).stby ≠ 0xFF →
      (s.isSet (fHOST_LINK_UP (s.fidLink (if toStby then (s.sq n).stby else s.getF (fHOST_SQ_STATE_HI_FID n)))) = true) →
      exec (.ringMove sq ptr) s = .next ((if s.isSet (fHOST_SQ_STATE_HI_ON_STBY n) = toStby then s else s.moveSq n toStby (some ptr.toNat)).finish f 0x80 [])) ∧
  (∀ (s : State) (sq : RingNo) (f : InFlight) (fid : Nat),
      s.nextCmd sq.toNat 0x13 = some f →
      recNat f.desc 8 1 = fid ∧ s.fidNames fid = true ∧ isPf fid = false ∧ recNat f.desc 16 8 % 4096 = 0 →
      recNat f.desc 24 8 % 4096 = 0 ∧ recNat f.desc 32 8 % 4096 = 0 ∧ recNat f.desc 12 2 < 4096 ∧ recNat f.desc 14 2 < 4096 →
      recNat f.desc 10 2 = 0xFFFF →
      exec (.funcConfig sq) s = .next ((s.setFn fid { s.fn fid with enabled := recBits f.desc 9 1 0 0 == 1, errCq := 0xFFFF, slotLo := recNat f.desc 12 2, slotHi := recNat f.desc 14 2, memBase := recNat f.desc 24 8, memSize := recNat f.desc 32 8, dbBase := recNat f.desc 16 8 }).finish f 0x80 [])) ∧
  (∀ (s : State) (sq : RingNo) (f : InFlight),
      s.nextCmd sq.toNat 0x50 = some f →
      exec (.powerCap sq) s = .next ((s.setF fTOP_POWER_CAP_W (min (max (recNat f.desc 8 2) 1200) 2400)).finish f 0x80 (leBytes 2 (min (max (recNat f.desc 8 2) 1200) 2400))))

/-- PERST_N going low resets the port's functions and fails its links; going high samples STRAP_BIF. A link failure that the rules count moves its rings. A stream that leaves
the Secure state clears IDE_SECURE when it was the last. A link that trains shows its speed and width and makes READY.HOST; a link that goes down shows 0. A function-
level reset and VF Enable written 0 disable the functions' rings; D3hot is entered and left. -/
def Obligations.LinksAndFunctions : Prop :=
  (∀ (s : State) (port : Fin 2) (ptrs : List (RingNo × Bool × Word)) (t : State),
      port.val = 0 →
      s.host.perst0 = false →
      s.bif 0 = false →
      t = ((((s.setHost { s.host with perst0 := true }).bumpSat (fHOST_LINK_PERST 0)).linkDown 0).setF (fHOST_LINK_IDE_SECURE 0) 0).setLink 0 { State.link (s.setHost { s.host with perst0 := true }) 0 with downAt := s.time.nowNs, ideSecure := [] } →
      ((((t.portFids 0).foldl (fun st fid => st.resetFn fid) t).link 0).failed = false) →
      exec (.perstAssert port ptrs) s = .next (((t.portFids 0).foldl (fun st fid => st.resetFn fid) t).linkFail 0 true ptrs)) ∧
  (∀ (s : State) (port : Fin 2) (strapBif : Bool) (t : State),
      s.perst port.val = true →
      (t = s.setHost (if port.val = 0 then { s.host with perst0 := false } else { s.host with perst1 := false })) →
      exec (.perstRelease port strapBif) s = .next (t.setF fTOP_STRAPS_BIF (putBits (t.getF fTOP_STRAPS_BIF) port.val port.val strapBif.toNat))) ∧
  (∀ (s : State) (link : LinkIx) (readFailed : Bool) (ptrs : List (RingNo × Bool × Word)),
      (s.link link.val).failed = false →
      readFailed = true ∧ s.isSet (fHOST_LINK_UP link.val) = true ∨ s.isSet (fHOST_LINK_UP link.val) = false ∧ (s.link link.val).downAt + s.failNs ≤ s.time.nowNs →
      exec (.hostLinkFail link readFailed ptrs) s = .next (s.linkFail link.val false ptrs)) ∧
  (∀ (s : State) (link : LinkIx) (stream : Fin 5) (ptrs : List (RingNo × Bool × Word)) (t : State),
      (s.link link.val).ideSecure.contains stream.val = true →
      (t = (s.setLink link.val { s.link link.val with ideSecure := (s.link link.val).ideSecure.filter (· != stream.val) }).setF (fHOST_LINK_IDE_SECURE link.val) (if ((s.link link.val).ideSecure.filter (· != stream.val)).isEmpty then 0 else 1)) →
      exec (.ideSecureLoss link stream ptrs) s = .next (if t.isSet fHOST_CFG_IDE_REQUIRED && !(t.link link.val).failed then t.linkFail link.val false ptrs else t)) ∧
  (∀ (s : State) (link : LinkIx) (speed : Fin 7) (width : Fin 17) (atomics : Bool) (t : State) (u : State),
      s.perst (link.val / 2) = false ∧ s.boot.ioDead = false ∧ s.fidNames (link.val / 2 * 128 + link.val % 2) = true ∧ speed.val ≠ 0 ∧ width.val ≠ 0 →
      t = ((s.setF (fHOST_LINK_UP link.val) 1).setF (fHOST_LINK_SPEED link.val) speed.val).setF (fHOST_LINK_WIDTH link.val) width.val →
      u = (t.setF (fHOST_LINK_SUMMARY link.val) atomics.toNat).setFn (link.val / 2 * 128 + link.val % 2) { t.fn (link.val / 2 * 128 + link.val % 2) with atomicEn := atomics } →
      exec (.hostLinkUp link speed width atomics) s = .next ((u.setLink link.val { u.link link.val with failed := false }).showHostReady)) ∧
  (∀ (s : State) (link : LinkIx),
      s.isSet (fHOST_LINK_UP link.val) = true →
      exec (.hostLinkDown link) s = .next (s.linkDown link.val)) ∧
  (∀ (s : State) (fid : Fid),
      s.fidNames fid.toNat = true →
      exec (.functionLevelReset fid) s = .next (if isPf fid.toNat then ((s.disableRings (· == fid.toNat)).resetFn fid.toNat).dropVfs fid.toNat else (s.disableRings (· == fid.toNat)).resetFn fid.toNat)) ∧
  (∀ (s : State) (fid : Fid) (enable : Bool),
      isPf fid.toNat = true ∧ s.fidNames fid.toNat = true →
      exec (.vfEnableWrite fid enable) s = .next (if enable then s.setFn fid.toNat { s.fn fid.toNat with vfEnable := true } else (s.setFn fid.toNat { s.fn fid.toNat with vfEnable := false }).dropVfs fid.toNat)) ∧
  (∀ (s : State) (fid : Fid) (enter : Bool),
      s.fidNames fid.toNat = true →
      exec (.d3hot fid enter) s = .next (s.setFn fid.toNat { s.fn fid.toNat with d3hot := enter }))

/-- A HOST_COPY of a length above 0 whose device range the function may copy is started; the end of the oldest started copy of an SQ moves its bytes and completes it;
HBM_RETIRE of a page of the visible 46 GiB that is not retired, with the reserve not full, raises the retirement and completes with 0x60; HBM_REKEY of a span held in L3
writes the five key words, leaves the contents undefined and completes with 0x60; HBM_TEST of a stack that maintenance owns starts BIST. -/
def Obligations.HostCopyAndStackCommands : Prop :=
  (∀ (s : State) (sq : RingNo) (f : InFlight),
      s.nextCmd sq.toNat 0x02 = some f →
      copyLen f.desc ≠ 0 →
      s.copyMay (s.sqFid f.sq) (copyDev f.desc) (copyLen f.desc) = true →
      exec (.hostCopy sq) s = .next (s.startFlight f 0 0)) ∧
  (∀ (s : State) (sq : RingNo) (data : List Byte) (fail : Option Word) (hits : List EccHit) (f : InFlight) (n : Nat),
      (s.host.flights.find? (fun f => f.sq == sq.toNat && f.opcode == 2 && f.stage == .started) = some f) →
      fail = none ∧ s.fidLive (s.sqFid f.sq) = true ∧ copyOut f.desc = false ∧ copyLen f.desc = n →
      s.copyMay (s.sqFid f.sq) (copyDev f.desc) n = true ∧ s.readyPrefix (copyDev f.desc) n = n →
      exec (.hostCopyDone sq data fail hits) s = .next ((s.copyMove f n data hits).finish f 0x80 [])) ∧
  (∀ (s : State) (sq : RingNo) (f : InFlight),
      s.nextCmd sq.toNat 0x40 = some f →
      recNat f.desc 12 4 < 94208 ∧ aget (s.stack (recNat f.desc 8 1)).remap (recNat f.desc 12 4) = none →
      s.isSet (fHBM_STATUS_RESERVE_FULL (recNat f.desc 8 1)) = false →
      exec (.hbmRetire sq) s = .next ((s.raiseRetire (recNat f.desc 8 1) (recNat f.desc 12 4)).finish f 0x60 [])) ∧
  (∀ (s : State) (sq : RingNo) (f : InFlight),
      s.nextCmd sq.toNat 0x41 = some f →
      s.faults.heldSpans.contains (recNat f.desc 8 1) = true →
      exec (.hbmRekey sq) s = .next ((((List.range 5).foldl (fun st k => st.setF (fHBM_KEY_MASK (recNat f.desc 8 1) k) (recNat f.desc (16 + 4 * k) 4)) s).forgetStack (recNat f.desc 8 1)).finish f 0x60 [])) ∧
  (∀ (s : State) (sq : RingNo) (f : InFlight),
      s.nextCmd sq.toNat 0x42 = some f →
      s.getF (fHBM_STATUS_OWNER (recNat f.desc 8 1)) ≠ 0 →
      exec (.hbmTest sq) s = .next (((s.setStack (recNat f.desc 8 1) { s.stack (recNat f.desc 8 1) with bist := true }).forgetStack (recNat f.desc 8 1)).startFlight f (recNat f.desc 8 1) 0))

/-- A patrol scrub of a trained stack reads the next granule and reports what it found in it (PATROL_SCRUB, R268). The end of a retirement copy marks the blocks that failed,
takes up the next retirement and gives the page to a reserve page (RETIREMENT_COPY_DONE, R270). A skew window with at least 2,400 granules reports the share of its
busiest pseudo-channel (SKEW_WINDOW_END, R276). A waiting Deck split comes into force (DECK_SPLIT_APPLY, R254). A handover asked for hands the stack over (STACK_HANDOVER,
R45). The end of BIST leaves the contents undefined and completes HBM_TEST with 0x60 and no new retirements when no cell failed (HBM_BIST_DONE, R274). -/
def Obligations.MemoryEventsAct : Prop :=
  (∀ (s : State) (stack : SpanIx) (hits : List EccHit),
      s.getF (fHBM_CFG_SCRUB_H stack.val) ≠ 0 →
      (s.stack stack.val).trained = true →
      exec (.patrolScrub stack hits) s = .next ((hits.filter fun h => decide (stackKey stack.val ((s.stack stack.val).scrubAt * 512) ≤ h.addr) && decide (h.addr < stackKey stack.val ((s.stack stack.val).scrubAt * 512) + 512)).foldl (State.scrubHit stack.val) (s.setStack stack.val { s.stack stack.val with scrubAt := ((s.stack stack.val).scrubAt + 1) % scrubGranules }))) ∧
  (∀ (s : State) (stack : SpanIx) (bad : List (Fin 8192)) (faulty : Fin 4097) (page : Nat) (rest : List Nat),
      (s.stack stack.val).retireQ = page :: rest →
      exec (.retirementCopyDone stack bad faulty) s = .next (State.retireNow (((bad.foldl (fun st b => st.hbmUe stack.val (0x80000 * page + b.val * 64)) s).setStack stack.val { (bad.foldl (fun st b => st.hbmUe stack.val (0x80000 * page + b.val * 64)) s).stack stack.val with retireQ := rest }).setF (fHBM_STATUS_RETIRING stack.val) (if rest.isEmpty then 0 else 1)) stack.val page faulty.val)) ∧
  (∀ (s : State) (stack : SpanIx) (total : Nat),
      s.isSet (fHBM_CFG_SKEW_EN stack.val) = true →
      sumNat ((s.stack stack.val).chan.map (·.2)) = total →
      2400 ≤ total →
      (busiest (s.stack stack.val).chan).2 * 32 < 4 * total →
      exec (.skewWindowEnd stack) s = .next (State.setF (s.setStack stack.val { s.stack stack.val with chan := [], badWindows := 0 }) (fHBM_SKEW_RATIO_X8 stack.val) (min 255 ((busiest (s.stack stack.val).chan).2 * 32 * 8 / total)))) ∧
  (∀ (s : State) (span : SpanIx),
      (s.span span.val).splitWant ≠ (s.span span.val).split →
      exec (.deckSplitApply span) s = .next (s.applySplit span.val)) ∧
  (∀ (s : State) (stack : SpanIx),
      (s.stack stack.val).handover = 1 ∨ (s.stack stack.val).handover = 2 →
      exec (.stackHandover stack) s = .next (s.ownStack stack.val ((s.stack stack.val).handover == 2))) ∧
  (∀ (s : State) (stack : SpanIx) (f : InFlight),
      (s.stack stack.val).bist = true →
      State.bistFlight (((s.setStack stack.val { s.stack stack.val with bist := false }).forgetStack stack.val).setF (fHBM_STATUS_BIST_FAIL stack.val) 0) stack.val = some f →
      State.retired (((s.setStack stack.val { s.stack stack.val with bist := false }).forgetStack stack.val).setF (fHBM_STATUS_BIST_FAIL stack.val) 0) stack.val = State.retired ((s.setStack stack.val { s.stack stack.val with bist := false }).forgetStack stack.val) stack.val →
      exec (.hbmBistDone stack []) s = .next ((((s.setStack stack.val { s.stack stack.val with bist := false }).forgetStack stack.val).setF (fHBM_STATUS_BIST_FAIL stack.val) 0).finish f 0x60 (leBytes 4 0)))

/-- With the op started and its operands there: ATTEND over pages that are mapped and reachable appends the new rows, attends and stages the head's tile; COMPACT copies the
accepted rows in every layer and head; the logits tile that covers the vocabulary ends the walk of DRAW and stages its outcome; ACCEPT stages the outcome of its
acceptance tile and passes the tile on; LOAD stages the tile it reads; STORE writes the tile and stages its acknowledge tile; KV_APPEND appends the rows of a head. -/
def Obligations.AttentionAndMemoryStationsComplete : Prop :=
  (∀ (s : State) (slot : StepIx) (core : LCore) (hits : List EccHit) (x : OpCtx) (q kv : Tile) (pages : Array Nat) (u : State) (h n : Nat),
      s.active slot.val core.val instAttend = some x →
      x.atEnd = false ∧ x.run.outbox = [] ∧ s.tripHolds instAttend = false ∧ x.run.started = true ∧ opCode x.op = 1 →
      opF x.op 2 31 20 = noQ ∧ h = (aget x.run.work 0).getD 0 ∧ n = q.rows / (opF x.op 1 35 32 + 1) →
      (x.head (opInA x.op) (if opHoldA x.op && !x.lastRep then h else 0) = some q ∧ x.head (opInB x.op) = some kv ∧ attendShapes x.op q kv none = true) →
      s.kvReach x (kvLay x.op) n = .inr pages ∧ s.addrCheck (pageRuns pages ++ (kvLay x.op).tableRuns) = none ∧ s.walkFault x (kvLay x.op) n = none →
      u = s.attendRead x (kvLay x.op) pages h n kv hits →
      exec (.attend slot core hits) s = .next (State.drew (u.attendOut x h q (u.attend x (kvLay x.op) pages h n (opF x.op 1 35 32 + 1) q none) (q.poison || kv.poison || false || u.kvPoisoned (kvLay x.op) pages h (s.committedLen x + n))))) ∧
  (∀ (s : State) (slot : StepIx) (core : LCore) (x : OpCtx) (t : Tile) (ps : List (List Nat)),
      s.active slot.val core.val instAttend = some x →
      x.atEnd = false ∧ x.run.outbox = [] ∧ s.tripHolds instAttend = false ∧ x.run.started = true ∧ opCode x.op = 2 →
      x.head (opInA x.op) = some t ∧ acceptOk t = true ∧ (compactMoves (acceptInts t)).isEmpty = false →
      s.compactPages x (compactMoves (acceptInts t)) = some ps →
      (s.addrCheck (ps.flatMap fun p => pageRuns p.toArray) = none ∧ s.compactWalk x (compactMoves (acceptInts t)) = none) →
      exec (.compact slot core) s = .next (State.compactDone (ps.foldl (fun st p => (List.range ((kvLay x.op).heads * 2)).foldl (fun s2 hk => (compactMoves (acceptInts t)).foldl (fun s3 m => s3.compactRow (kvLay x.op) p (s.committedLen x) hk m) s2) st) s) x t)) ∧
  (∀ (s : State) (slot : StepIx) (core : LCore) (x : OpCtx) (t : Tile),
      s.active slot.val core.val instSample = some x →
      x.atEnd = false ∧ x.run.outbox = [] ∧ s.tripHolds instSample = false ∧ x.run.started = true ∧ opCode x.op = 1 →
      opInB x.op = noQ ∧ opHoldA x.op = false ∧ x.run.wbytes = [] →
      x.head (opInA x.op) 0 = some t ∧ drawShape t none = true ∧ opF x.op 1 47 28 + 1 ≤ t.cols →
      exec (.draw slot core) s = .next (State.drawEnd (s.endRead x (opInA x.op)) x (s.drawWalk x [t] none t.rows) (t.poison || false || false))) ∧
  (∀ (s : State) (slot : StepIx) (core : LCore) (x : OpCtx) (t : Tile),
      s.active slot.val core.val instSample = some x →
      x.atEnd = false ∧ x.run.outbox = [] ∧ s.tripHolds instSample = false ∧ x.run.started = true ∧ opCode x.op = 2 →
      x.head (opInA x.op) = some t ∧ acceptOk t = true ∧ (acceptInts t).getD 19 (-1) = (((x.step.streams.map (·.id)).getD x.run.streamIx 0 : Nat) : Int) →
      exec (.accept slot core) s = .next (State.endRepeat (State.endInA (State.stage (State.poisonExcl (s.stageOutcome x ((acceptInts t).getD 0 0).toNat (unsignedOf 32 ((acceptInts t).getD 1 0)) (((acceptInts t).getD 2 0) % 2 == 1)) x.slot x.run.streamIx t.poison) x t (x.owners 1)) x) x)) ∧
  (∀ (s : State) (slot : StepIx) (core : LCore) (ix : Fin 4) (hits : List EccHit) (x : OpCtx) (runs : List (Nat × Nat)) (u : State),
      s.active slot.val core.val (0x10+ix.val) = some x →
      x.atEnd = false ∧ x.run.outbox = [] ∧ s.tripHolds (0x10+ix.val) = false ∧ x.run.started = true ∧ opCode x.op = 1 →
      runs = lsRuns x.op x.repNo (loadRows x.op) (loadBytes x.op) →
      s.addrCheck runs = none →
      (u = runs.foldl (fun st q => (st.access q.1 q.2 false (lsHint x.op == 0)).ecc x.slot q.1 q.2 hits) s) →
      exec (.load slot core ix hits) s = .next (State.endRepeat (u.drew.stage x { coordC := x.repNo % 65536, rows := loadRows x.op, cols := loadCols x.op, format := loadFmt x.op, layout := loadLayout x.op, sparse := opF x.op 1 15 15 == 1, poison := runs.any fun q => u.poisoned q.1 q.2, payload := runs.flatMap fun q => u.rd q.1 q.2 } (x.owners (loadRows x.op))) x)) ∧
  (∀ (s : State) (slot : StepIx) (core : LCore) (ix : Fin 2) (hits : List EccHit) (x : OpCtx) (t : Tile) (runs : List (Nat × Nat)),
      s.active slot.val core.val (0x20+ix.val) = some x →
      x.atEnd = false ∧ x.run.outbox = [] ∧ s.tripHolds (0x20+ix.val) = false ∧ x.run.started = true ∧ opCode x.op = 1 →
      x.head (opInA x.op) = some t ∧ opF x.op 3 63 40 = 0 →
      runs = lsRuns x.op x.repNo t.rows t.payload.length →
      s.addrCheck runs = none →
      exec (.store slot core ix hits) s = .next (State.endRepeat (State.endInA (State.stage (runs.foldl (fun (st : State × List Byte) q => (((st.1.access q.1 q.2 true (lsHint x.op == 0)).ecc x.slot q.1 q.2 hits).st q.1 (st.2.take q.2) t.poison, st.2.drop q.2)) (s, t.payload)).1 x (ackTile x.repNo) (x.owners 1)) x) x)) ∧
  (∀ (s : State) (slot : StepIx) (core : LCore) (ix : Fin 2) (x : OpCtx) (kv : Tile) (pages : Array Nat) (h : Nat),
      s.active slot.val core.val (0x20+ix.val) = some x →
      x.atEnd = false ∧ x.run.outbox = [] ∧ s.tripHolds (0x20+ix.val) = false ∧ x.run.started = true ∧ opCode x.op = 2 →
      h = (aget x.run.work 0).getD 0 →
      (x.head (opInA x.op) (if opHoldA x.op && !x.lastRep then h else 0) = some kv ∧ kvShape (kvLay x.op) kv = true) →
      s.kvReach x (kvLay x.op) (kv.rows / 2) = .inr pages ∧ s.addrCheck (pageRuns pages ++ (kvLay x.op).tableRuns) = none ∧ s.walkFault x (kvLay x.op) (kv.rows / 2) = none →
      exec (.kvAppend slot core ix) s = .next ((s.kvAppend x (kvLay x.op) pages h (kv.rows / 2) kv).kvDone x h kv))

/-- GRAPH_REGISTER into a slot that is not registered checks the image: one that passes takes the next generation of the slot and returns its handle with 0x40, one that fails
completes with the code of the first failure and, for 0x44 and 0x46, its offset; GRAPH_UNREGISTER of a current handle no outstanding step names ends its registration;
STEP_SUBMIT that passes every check and finds no early abort takes a free slot, QUEUED; RESOLVE_STEP with no list ends the IN_DOUBT step as it says and reports how many
of its streams held staged changes. -/
def Obligations.GraphAndStepCommands : Prop :=
  (∀ (s : State) (sq : RingNo) (f : InFlight) (a slot : Nat),
      s.nextCmd sq.toNat 0x20 = some f →
      recBits f.desc 8 8 39 0 = a ∧ a % 64 = 0 ∧ recNat f.desc 16 2 = slot ∧ slot ≤ s.getF fTOP_STEP_CFG_GRAPH_SLOTS_M1 →
      ((aget s.steps.graphs slot).getD {}).reg = false →
      exec (.graphRegister sq) s = .next (match s.checkImage a with | .inr img => (s.setGraph slot (graphSlotOf ((((aget s.steps.graphs slot).getD {}).gen + 1) % 4096) a img)).finish f 0x40 (leBytes 4 ((s.setGraph slot (graphSlotOf ((((aget s.steps.graphs slot).getD {}).gen + 1) % 4096) a img)).handleOf slot (graphSlotOf ((((aget s.steps.graphs slot).getD {}).gen + 1) % 4096) a img))) | .inl e => s.finish f e.1 (leBytes 4 0 ++ leBytes 4 (if e.1 = 0x44 ∨ e.1 = 0x46 then e.2 else 0)))) ∧
  (∀ (s : State) (sq : RingNo) (f : InFlight) (h : Nat),
      s.nextCmd sq.toNat 0x21 = some f →
      recNat f.desc 8 4 = h ∧ h % 4096 ≤ s.getF fTOP_STEP_CFG_GRAPH_SLOTS_M1 →
      s.handleOk h = true →
      s.handleBusy h = false →
      exec (.graphUnregister sq) s = .next ((s.setGraph (h % 4096) { (aget s.steps.graphs (h % 4096)).getD {} with reg := false }).finish f 0x40 [])) ∧
  (∀ (s : State) (sq : RingNo) (f : InFlight) (i : Nat),
      s.nextCmd sq.toNat 0x01 = some f →
      s.submitCheck (s.sqFid f.sq) f.desc = none →
      (s.steps.early.find? (fun e => e.slice == (s.newStep f (s.sqFid f.sq)).slice && e.seq == (s.newStep f (s.sqFid f.sq)).seq && e.attempt == (s.newStep f (s.sqFid f.sq)).attempt) = none) →
      s.freeSlot = some i →
      exec (.stepSubmit sq) s = .next (((s.setFlight { f with stage := .started }).setStep i (s.newStep f (s.sqFid f.sq))).startCopies)) ∧
  (∀ (s : State) (sq : RingNo) (f : InFlight) (i : Nat) (st : Step),
      s.nextCmd sq.toNat 0x22 = some f →
      (recBits f.desc 16 1 5 4 = 1 ∨ recBits f.desc 16 1 5 4 = 2) ∧ recNat f.desc 18 2 = 0 →
      (s.steps.slots.find? (fun e => e.2.slice == recNat f.desc 8 2 && e.2.seq == recNat f.desc 10 6 && e.2.attempt == recBits f.desc 16 1 3 0 && e.2.phase == .inDoubt) = some (i, st)) →
      exec (.resolveStep sq) s = .next ((s.resolveAs i (recBits f.desc 16 1 5 4 == 1)).finish f 0x80 (leBytes 2 (s.stagedOf (st.streams.map (·.id))).length)))

/-- With the image read and in range and the stream FREE, STREAM_OPEN writes its entry; STREAM_SET of fields in range on an open stream that is not busy writes them;
STREAM_HOLD takes an ACTIVE stream that is not busy to HELD and STREAM_RELEASE back; STREAM_CLOSE unpins and frees; STREAM_PIN and STREAM_UNPIN change PINNED; STREAM_READ
writes the 128 bytes to host memory; STREAM_IMPORT into a FREE stream writes the image whole; each completes with 0x50. The end of a fetch fills the entry's way and lets
the copies that waited for it go on. -/
def Obligations.StreamCommandsComplete : Prop :=
  (∀ (s : State) (sq : RingNo) (img : Option (List Byte)) (f : InFlight) (t : State) (e : List Byte),
      s.nextCmd sq.toNat 0x30 = some f →
      s.hostGet f (recNat f.desc 16 8) 128 img = (t, some e) →
      openImageOk e = true →
      entState (s.entry (recNat f.desc 8 2)) = 0 →
      exec (.streamOpen sq img) s = .next ((t.putEntry (recNat f.desc 8 2) 0 (openEntry e)).finish f 0x50 [])) ∧
  (∀ (s : State) (sq : RingNo) (img : Option (List Byte)) (f : InFlight) (t : State) (e : List Byte) (ks : List Nat),
      s.nextCmd sq.toNat 0x31 = some f →
      s.hostGet f (recNat f.desc 16 8) 128 img = (t, some e) →
      ks = (List.range 12).filter (recNat f.desc 10 2).testBit →
      (!ks.all (imageFieldOk e) || (ks.contains 11 && decide (recNat (s.entry (recNat f.desc 8 2)) 16 4 < recNat e 16 4)) || (ks.contains 10 && recBits e 1 1 0 0 == 0 && recBits (s.entry (recNat f.desc 8 2)) 1 1 1 1 == 1)) = false →
      entState (s.entry (recNat f.desc 8 2)) ≠ 0 →
      s.streamBusy (recNat f.desc 8 2) = false →
      exec (.streamSet sq img) s = .next ((ks.foldl (fun st k => st.setField (recNat f.desc 8 2) e k) t).finish f 0x50 [])) ∧
  (∀ (s : State) (sq : RingNo) (f : InFlight),
      s.nextCmd sq.toNat 0x32 = some f →
      entState (s.entry (recNat f.desc 8 2)) = 1 →
      s.streamBusy (recNat f.desc 8 2) = false →
      exec (.streamHold sq) s = .next ((s.putCommitted (recNat f.desc 8 2) 3).finish f 0x50 [])) ∧
  (∀ (s : State) (sq : RingNo) (f : InFlight),
      s.nextCmd sq.toNat 0x33 = some f →
      entState (s.entry (recNat f.desc 8 2)) = 3 →
      s.streamBusy (recNat f.desc 8 2) = false →
      exec (.streamRelease sq) s = .next ((s.putCommitted (recNat f.desc 8 2) 1).finish f 0x50 [])) ∧
  (∀ (s : State) (sq : RingNo) (f : InFlight),
      s.nextCmd sq.toNat 0x34 = some f →
      entState (s.entry (recNat f.desc 8 2)) ≠ 0 →
      s.streamBusy (recNat f.desc 8 2) = false →
      exec (.streamClose sq) s = .next (((s.setPinned (recNat f.desc 8 2) false).putCommitted (recNat f.desc 8 2) 0).finish f 0x50 [])) ∧
  (∀ (s : State) (sq : RingNo) (f : InFlight),
      s.nextCmd sq.toNat 0x35 = some f →
      recBits (s.entry (recNat f.desc 8 2)) 1 1 0 0 ≠ 0 ∧ entState (s.entry (recNat f.desc 8 2)) ≠ 0 →
      s.streams.pinned (recNat f.desc 8 2) = false ∧ s.streams.pins < 1024 ∧ s.streams.setPins (recNat f.desc 8 2) < 8 →
      exec (.streamPin sq) s = .next ((s.setPinned (recNat f.desc 8 2) true).finish f 0x50 [])) ∧
  (∀ (s : State) (sq : RingNo) (f : InFlight),
      s.nextCmd sq.toNat 0x36 = some f →
      entState (s.entry (recNat f.desc 8 2)) ≠ 0 →
      exec (.streamUnpin sq) s = .next ((s.setPinned (recNat f.desc 8 2) false).finish f 0x50 [])) ∧
  (∀ (s : State) (sq : RingNo) (ok : Bool) (f : InFlight),
      s.nextCmd sq.toNat 0x37 = some f →
      s.fidLive (s.sqFid f.sq) = true →
      exec (.streamRead sq ok) s = .next (if ok then (s.emit (.hostWrite (s.sqFid f.sq) (recNat f.desc 16 8) (s.entry (recNat f.desc 8 2)))).finish f 0x50 [] else s.finish f 0x56 [])) ∧
  (∀ (s : State) (sq : RingNo) (img : Option (List Byte)) (f : InFlight) (t : State) (e : List Byte),
      s.nextCmd sq.toNat 0x75 = some f →
      s.hostGet f (recNat f.desc 16 8) 128 img = (t, some e) →
      recBits e 0 1 7 7 ≠ 1 ∧ (recBits e 0 1 3 3 == 0 && recBits e 1 1 7 2 == 0 && recBits e 2 2 15 15 == 0 && recNat e 8 8 % 2 ^ 14 == 0 && decide (recNat e 8 8 < 2 ^ 40) && imageReserved e) = true →
      entState (s.entry (recNat f.desc 8 2)) = 0 →
      exec (.streamImport sq img) s = .next ((t.putEntry (recNat f.desc 8 2) 0 e).finish f 0x50 [])) ∧
  (∀ (s : State) (stream : Half) (e : Nat × Nat) (t : State),
      s.streams.fetching.find? (·.1 == stream.toNat) = some e →
      s.streams.queued = [] →
      t = ((s.setStreams { s.streams with fetching := dropFirst (·.1 == stream.toNat) s.streams.fetching }).maxF fSTREAM_WALK_FETCH_MAX_NS (s.time.nowNs - e.2)).loadStream stream.toNat →
      exec (.streamCacheFetchDone stream) s = .next ({ t with steps := { t.steps with slots := t.steps.slots.map fun (x : Nat × Step) => (x.1, { x.2 with ctxPend := x.2.ctxPend.filter (· != stream.toNat) }) } }))

/-- The contexts of a QUEUED step whose entries have been fetched are copied; a step whose START_TIME has come and that nothing holds enters RUNNING; an instance's staged
tile goes out while it has a credit; the oldest tile on its way reaches the head; a read tile frees its slot and starts a credit back, which its producer then gains; an
instance at END that owes nothing has ended; a step whose instances have all ended with its credits back and nothing left behind enters PREPARED. -/
def Obligations.StepRunsAndEnds : Prop :=
  (∀ (s : State) (slot : StepIx) (t : Step),
      s.step? slot.val = some t →
      t.phase = .queued ∧ t.ctxBegun = true ∧ t.ctxPend = [] ∧ t.ctxDone = false →
      exec (.streamCtxCopyDone slot) s = .next (s.copyContexts slot.val)) ∧
  (∀ (s : State) (slot : StepIx) (t : Step),
      s.step? slot.val = some t →
      t.phase = .queued ∧ t.startTime ≠ 0 ∧ s.startDue t = true →
      exec (.startTimeReached slot) s = .next (if s.mayRun slot.val t then s.enterRunning slot.val t (t.lateStart || decide (t.startTime + 50 < s.time.ft)) else s.modStep slot.val fun u => { u with startCome := true, lateStart := true })) ∧
  (∀ (s : State) (slot : StepIx) (t : Step),
      s.step? slot.val = some t →
      s.startDue t = true ∧ s.mayRun slot.val t = true →
      exec (.stepRun slot) s = .next (s.enterRunning slot.val t (t.startTime != 0 && (t.lateStart || decide (t.startTime + 50 < s.time.ft))))) ∧
  (∀ (s : State) (slot : StepIx) (core : LCore) (inst : Byte) (t : Step) (r : InstRun) (o : OutTile) (rest : List OutTile) (u : Queue),
      s.step? slot.val = some t ∧ t.inst? core.val inst.toNat = some r ∧ r.outbox = o :: rest ∧ t.queue? o.q = some u →
      t.phase = .running ∧ r.stopped = false ∧ r.hung = false →
      0 < u.avail (s.cycOf u.prodCore) →
      exec (.tileEmit slot [(core, inst)]) s = .next (State.emitTile (s.modInst slot.val core.val inst.toNat fun v => { v with outbox := rest }) slot.val core.val inst.toNat o true)) ∧
  (∀ (s : State) (slot : StepIx) (queue : BitVec 12) (t : Step) (u v : Queue) (tile : Tile),
      s.step? slot.val = some t ∧ t.queue? queue.toNat = some u ∧ u.arrive = some (tile, v) →
      t.phase = .running ∧ fmtNamed tile.format = true ∧ u.consInst ≠ instCollect ∧ (computes u.consInst && tile.short) = false →
      exec (.tileArrive slot queue) s = .next (s.modQueue slot.val queue.toNat fun _ => v)) ∧
  (∀ (s : State) (slot : StepIx) (queue : BitVec 12) (u : Queue) (it : QItem) (rest : List QItem),
      (s.step? slot.val).bind (·.queue? queue.toNat) = some u →
      u.items = it :: rest ∧ it.read = true ∧ u.kind ≠ 2 →
      exec (.slotRelease slot queue) s = .next (s.modQueue slot.val queue.toNat fun v => { v with items := rest, flight := v.flight + 1 })) ∧
  (∀ (s : State) (slot : StepIx) (queue : BitVec 12) (u : Queue),
      (s.step? slot.val).bind (·.queue? queue.toNat) = some u →
      0 < u.flight →
      exec (.creditArrive slot queue) s = .next (s.modQueue slot.val queue.toNat fun v => { v.gain (s.cycOf v.prodCore) with flight := v.flight - 1 })) ∧
  (∀ (s : State) (slot : StepIx) (core : LCore) (inst : Byte) (x : OpCtx),
      s.active slot.val core.val inst.toNat = some x →
      x.atEnd = true ∧ s.owes x = false →
      exec (.endOp slot core inst) s = .next (((s.unstall x).modInst slot.val core.val inst.toNat fun r => { r with ended := true }).modStep slot.val fun t => { t with endAt := s.time.nowNs })) ∧
  (∀ (s : State) (slot : StepIx) (t : Step),
      s.step? slot.val = some t →
      (t.phase = .running ∧ t.insts.all (·.ended) = true ∧ t.queues.all (fun e => e.2.flight == 0) = true) →
      s.residue t = none ∧ t.exclList.length ≤ 16 →
      exec (.stepDrainEnd slot) s = .next (s.prepare slot.val t))

/-- A step-wide cause detected in a running step aborts it with the instance named (R109); an abort that has quiesced drops the step's collectives and counters and posts
ABORTED (R110); an instance not stopped 4 us after the abort is recorded, marks its core FAULTED and, outside recovery, is reset at L2 (R658); a passed deadline aborts a
RUNNING step with DEADLINE (R88); 50 us later a PREPARED step goes IN_DOUBT; an instance without progress for NP_US aborts its step with HANG and calls for L2 (R657). -/
def Obligations.StepFaultsAndAborts : Prop :=
  (∀ (s : State) (slot : StepIx) (cause : Half) (core : LCore) (inst : Byte),
      1 ≤ cause.toNat ∧ cause.toNat ≤ 0x18 →
      exec (.stepFault slot cause core inst) s = .next (s.stepFault slot.val cause.toNat (instInfo core.val inst.toNat 0))) ∧
  (∀ (s : State) (slot : StepIx) (t : Step) (u : State),
      s.step? slot.val = some t →
      (t.phase = .aborted ∧ t.quiescing = true ∧ t.insts.all (fun r => !r.hung || r.stopped) = true) →
      (u = (s.stepCores t).foldl (fun st c => (st.stopTrestle c).modCore c fun v => { v with usedAt := st.time.nowNs, usedCyc := st.cycOf c }) s) →
      exec (.abortQuiesceDone slot) s = .next (((u.clearCounters t).dropColls slot.val).abortPost slot.val (abortStatus t.cause t.abortLocal))) ∧
  (∀ (s : State) (slot : StepIx) (core : LCore) (inst : Byte) (t : Step) (r : InstRun) (u : State),
      s.step? slot.val = some t ∧ t.inst? core.val inst.toNat = some r →
      t.phase = .aborted ∧ t.quiescing = true ∧ r.stopped = false ∧ t.abortAt + 4000 ≤ s.time.nowNs →
      (u = ((s.hangRec t r (s.startLevel 2 (.core core.val)) r.progressAt).cancelOnFault fun j => !r.hung && j.inDomain (.core core.val)).markFaulted (.core core.val) true) →
      u.inRecovery (.core core.val) = false →
      exec (.abortStopTimeout slot core inst) s = .next ((u.openWindow 2 1 [.core core.val]).startReset 2 [.inst core.val inst.toNat] 2 false false [] false)) ∧
  (∀ (s : State) (slot : StepIx) (t : Step),
      s.step? slot.val = some t →
      t.phase = .running ∧ t.deadlineUs ≠ 0 ∧ t.runAt + 1000 * t.deadlineUs ≤ s.time.nowNs →
      exec (.deadlineExpire slot) s = .next (s.stepFault slot.val 0x06)) ∧
  (∀ (s : State) (slot : StepIx) (t : Step),
      s.step? slot.val = some t →
      t.phase = .prepared ∧ t.deadlineUs ≠ 0 ∧ t.runAt + 1000 * t.deadlineUs + 50000 ≤ s.time.nowNs →
      exec (.inDoubtTimeout slot) s = .next (s.enterInDoubt slot.val)) ∧
  (∀ (s : State) (slot : StepIx) (core : LCore) (inst : Byte) (t : Step) (r : InstRun) (u : State),
      s.step? slot.val = some t ∧ t.inst? core.val inst.toNat = some r →
      t.phase = .running ∧ r.ended = false ∧ (r.stall != 4) = true ∧ t.lastProgress r + s.npNs ≤ s.time.nowNs →
      u = (s.hangRec t r (s.callLevel 2 (.inst core.val inst.toNat)) (t.lastProgress r)).bumpSat fTOP_FLT_COUNTS_HANGS →
      exec (.noProgressTimeout slot core inst) s = .next ((u.stepFault slot.val 0x01 { quiet := true }).faultCall 2 (.inst core.val inst.toNat) r.hung))

/-- A commit cell of its slice that passes R96 and R103 is used: READY is recorded by ranks 0 and 1; rank 1 records the first decision and answers DECIDE with its record;
rank 0 that holds a proposal and has sent no DECISION sends rank 1's decision to every other rank and applies it to the step it holds; DECISION is applied to a held step
with none applied, and an ABORT for a step not fetched is kept; ABORT for a step not held and not resolved is kept, and for a held one aborts it. DECIDE_ACK_TIMEOUT
closes a round that waits; rank 1 takes over with COMMIT when every READY is held and with ABORT when its deadline has passed. -/
def Obligations.CommitRoundAnswers : Prop :=
  (∀ (s : State) (src : Endpoint) (fr : Frame) (u : State) (c : CommitCell),
      s.takeFrame 0x0F src.toNat = some (fr, u) →
      c = commitOf fr.body →
      u.sliceValid c.slice = true ∧ u.endpointRank c.slice src.toNat = some c.sender ∧ commitClean 0x0F fr.body = true →
      u.sliceOwnRank c.slice ≤ 1 →
      exec (.readyReceive src) s = .next (u.recordReady c.slice c.seq c.attempt c.sender c.excl)) ∧
  (∀ (s : State) (src : Endpoint) (fr : Frame) (u : State) (c : CommitCell) (d : Decision),
      s.takeFrame 0x10 src.toNat = some (fr, u) →
      c = commitOf fr.body →
      u.sliceValid c.slice = true ∧ u.endpointRank c.slice src.toNat = some c.sender ∧ commitClean 0x10 fr.body = true ∧ c.sender = 0 →
      u.attemptCurrent c = true →
      u.sliceOwnRank c.slice = 1 →
      d = ((u.coord c.slice c.seq c.attempt).recorded.getD c.decision) →
      exec (.decideReceive src) s = .next ((u.setCoord { u.coord c.slice c.seq c.attempt with recorded := some d }).sendCommit 0x11 c.slice c.seq c.attempt 0 (some d) d.excl)) ∧
  (∀ (s : State) (src : Endpoint) (fr : Frame) (u : State) (c : CommitCell) (t : State),
      s.takeFrame 0x11 src.toNat = some (fr, u) →
      c = commitOf fr.body →
      u.sliceValid c.slice = true ∧ u.endpointRank c.slice src.toNat = some c.sender ∧ commitClean 0x11 fr.body = true ∧ c.sender = 1 →
      u.attemptCurrent c = true →
      u.sliceOwnRank c.slice = 0 →
      (u.coord c.slice c.seq c.attempt).proposal.isSome = true ∧ (u.coord c.slice c.seq c.attempt).sent = false ∧ (u.coord c.slice c.seq c.attempt).noDecision = false →
      t = (u.setCoord { u.coord c.slice c.seq c.attempt with sent := true }).sendDecisions c.slice c.seq c.attempt c.decision →
      exec (.decideAckReceive src) s = .next (match t.heldAs c.slice c.seq c.attempt with | some e => t.applyDecision e.1 c.decision | none => t)) ∧
  (∀ (s : State) (slice : Half) (seq : BitVec 48) (attempt : Fin 16) (k : Coord),
      k = s.coord slice.toNat seq.toNat attempt.val →
      k.proposal.isSome = true ∧ k.sent = false ∧ k.noDecision = false ∧ k.decideAt + 1000 * (s.getF fTOP_STEP_CFG_TAKEOVER_US) ≤ s.time.nowNs →
      (s.setCoord { k with noDecision := true }).heldAs slice.toNat seq.toNat attempt.val = none →
      exec (.decideAckTimeout slice seq attempt) s = .next (s.setCoord { k with noDecision := true })) ∧
  (∀ (s : State) (slot : StepIx) (t : Step) (a : Nat),
      s.step? slot.val = some t →
      (s.coord t.slice t.seq t.attempt).allReadyAt = some a ∧ t.rank = 1 ∧ (s.coord t.slice t.seq t.attempt).recorded = none →
      a + 1000 * (s.getF fTOP_STEP_CFG_TAKEOVER_US) ≤ s.time.nowNs →
      exec (.takeoverCommitTimeout slot) s = .next (s.takeOver slot.val t true)) ∧
  (∀ (s : State) (slot : StepIx) (t : Step),
      s.step? slot.val = some t →
      t.rank = 1 ∧ t.ran = true ∧ t.deadlineUs ≠ 0 ∧ (s.coord t.slice t.seq t.attempt).allReadyAt = none ∧ (s.coord t.slice t.seq t.attempt).recorded = none →
      t.runAt + 1000 * t.deadlineUs + 1000 * (s.getF fTOP_STEP_CFG_TAKEOVER_US) ≤ s.time.nowNs →
      exec (.takeoverAbortTimeout slot) s = .next (s.takeOver slot.val t false)) ∧
  (∀ (s : State) (src : Endpoint) (fr : Frame) (u : State) (c : CommitCell) (i : Nat) (st : Step),
      s.takeFrame 0x12 src.toNat = some (fr, u) →
      c = commitOf fr.body →
      u.sliceValid c.slice = true ∧ u.endpointRank c.slice src.toNat = some c.sender ∧ commitClean 0x12 fr.body = true ∧ c.sender ≤ 1 →
      u.attemptCurrent c = true →
      u.heldAs c.slice c.seq c.attempt = some (i, st) ∧ st.applied = none →
      exec (.decisionReceive src) s = .next (u.applyDecision i c.decision)) ∧
  (∀ (s : State) (src : Endpoint) (fr : Frame) (u : State) (c : CommitCell) (i : Nat) (st : Step),
      s.takeFrame 0x13 src.toNat = some (fr, u) →
      c = commitOf fr.body →
      u.sliceValid c.slice = true ∧ u.endpointRank c.slice src.toNat = some c.sender ∧ commitClean 0x13 fr.body = true →
      u.heldAs c.slice c.seq c.attempt = some (i, st) →
      u.sliceOwnRank c.slice ≠ 0 →
      exec (.abortCellReceive src) s = .next (u.abortRemote i c.cause))

/-- PASS and DECODE start an op that keeps its layout. A pass issues when its A and B operands are there and go together; a group that nothing withholds enters beam 0; the
oldest bank whose 13 cycles have passed starts to drain when the output path holds a credit; its tile goes out 196 cycles later; a parity error is counted and faults the
engine; a codebook tile whose tables are loaded delivers a run. -/
def Obligations.TrestleActs : Prop :=
  (∀ (s : State) (slot : StepIx) (core : LCore) (x : OpCtx),
      s.active slot.val core.val instTrestle = some x →
      x.atEnd = false ∧ x.run.outbox = [] ∧ s.tripHolds instTrestle = false ∧ x.run.started = false ∧ opCode x.op = 1 →
      passOk x = true →
      exec (.pass slot core) s = .next ((s.traceInst x.step x.core x.inst (opNode x.op) 0x02 x.opIx (opRepeat x.op)).modInst x.slot x.core x.inst fun r => { r with started := true })) ∧
  (∀ (s : State) (slot : StepIx) (core : LCore) (x : OpCtx) (a : Tile) (b : SegB),
      s.active slot.val core.val instTrestle = some x →
      x.atEnd = false ∧ x.run.outbox = [] ∧ s.tripHolds instTrestle = false ∧ x.run.started = true ∧ opCode x.op = 1 →
      (s.trsOf core.val).pass = none ∧ (s.trsOf core.val).mayIssue = true →
      x.aTile 0 = some a ∧ s.segB x a.format 0 = some b ∧ segFits a b (passSegs x.op) none = true →
      exec (.trestlePassIssue slot core) s = .next (State.showTrs (State.unstall (s.setTrs core.val { s.trsOf core.val with slot := slot.val, pass := some { bank := (s.trsOf core.val).nextBank, rep := x.run.rep, d := b.depth.getD 8, sparse := b.sparse, rows := a.rows, cols := b.cols, coordR := a.coordR, coordC := b.coordC, acc := zeroAcc a.rows b.cols }, passes := (s.trsOf core.val).passes + 1 }) x) core.val false false false false false)) ∧
  (∀ (s : State) (slot : StepIx) (core : LCore) (lost : Bool) (ecc : Fin 3) (off : Nat) (x : OpCtx) (t : TrsSt) (p : TrsPass) (a : Tile) (b : SegB),
      s.active slot.val core.val instTrestle = some x →
      t = s.trsCycle core.val →
      t.pass = some p ∧ x.aTile p.aIx = some a ∧ State.segB (s.setTrs core.val t) x a.format p.bIx = some b ∧ segFits a b (passSegs x.op) (some p) = true →
      (lost && x.shareHalf) = false ∧ dutyHit (s.trsOf core.val).tick.duty (s.duty (core.val / 16)) = false ∧ s.didtHit (core.val / 16) (s.trsOf core.val).tick = false ∧ ecc.val ≠ 2 →
      exec (.trestleGroupFeed slot core lost ecc off) s = .next (State.activity (State.showTrs (State.feedGroup (State.onCore (State.spadEcc (s.setTrs core.val t) slot.val core.val ecc.val off) core.val fun q st => st.bumpWrap (fCORE_TRS_FEED_CYCLES_COUNT q)) x t p a b) core.val false false false false true) core.val)) ∧
  (∀ (s : State) (slot : StepIx) (core : LCore) (x : OpCtx) (b : TrsBank) (u : Queue),
      s.active slot.val core.val instTrestle = some x →
      (s.trsOf core.val).banks.find? (·.drainAt.isNone) = some b ∧ x.step.queue? (opOut b.op) = some u →
      b.lastCyc + 13 ≤ (s.trsOf core.val).cyc ∧ 0 < u.avail (s.cycOf core.val) →
      exec (.trestleDrainStart slot core) s = .next ((s.setTrs core.val { s.trsOf core.val with banks := mapFirst (·.drainAt.isNone) (fun v => { v with drainAt := some (s.trsOf core.val).cyc }) (s.trsOf core.val).banks, bankD := aput (s.trsOf core.val).bankD b.bank (s.trsOf core.val).cyc }).modQueue slot.val (opOut b.op) fun v => v.spend (s.cycOf core.val))) ∧
  (∀ (s : State) (slot : StepIx) (core : LCore) (x : OpCtx) (b : TrsBank) (rest : List TrsBank) (d : Nat),
      s.active slot.val core.val instTrestle = some x →
      (s.trsOf core.val).banks = b :: rest ∧ b.drainAt = some d ∧ d + 196 ≤ (s.trsOf core.val).cyc →
      passInE b.op = noQ →
      exec (.trestleTileOut slot core) s = .next (State.emitTile (State.onCore (s.setTrs core.val { s.trsOf core.val with banks := rest }) core.val fun p st => st.bumpWrap (fCORE_TRS_PASSES_COUNT p)) slot.val core.val instTrestle { q := opOut b.op, tile := (bankTile b none).1, owners := if opPerStream b.op then [(b.stream, b.rows)] else [], origin := (bankTile b none).2, node := opNode b.op, rep := b.rep } false)) ∧
  (∀ (s : State) (slot : StepIx) (core : LCore) (line : Nat),
      exec (.trestleParityError slot core line) s = .next (State.engineFault (s.onCore core.val fun p st => st.bumpSat (fCORE_TRS_PARITY_COUNT p)) slot.val core.val 1 line 0 0x03)) ∧
  (∀ (s : State) (slot : StepIx) (core : LCore) (x : OpCtx),
      s.active slot.val core.val instCodebook = some x →
      x.atEnd = false ∧ x.run.outbox = [] ∧ s.tripHolds instCodebook = false ∧ x.run.started = false ∧ opCode x.op = 1 →
      decodeOk x = true →
      exec (.decode slot core) s = .next ((s.traceInst x.step x.core x.inst (opNode x.op) 0x02 x.opIx (opRepeat x.op)).modInst x.slot x.core x.inst fun r => { r with started := true })) ∧
  (∀ (s : State) (slot : StepIx) (core : LCore) (x : OpCtx) (t : Tile) (c : CbkSt),
      s.active slot.val core.val instCodebook = some x →
      x.atEnd = false ∧ x.run.outbox = [] ∧ s.tripHolds instCodebook = false ∧ x.run.started = true ∧ opCode x.op = 1 →
      s.cbkOf core.val = c ∧ x.head (opInA x.op) c.ix = some t ∧ cbTileOk t = true →
      c.loaded = true ∧ c.load = 0 ∧ c.runs.length < 32 ∧ c.run + 1 < t.rows / 8 →
      exec (.codebookTileDecode slot core) s = .next (State.setCbk ((s.unstall x).progress slot.val core.val instCodebook) core.val { c with runs := c.runs ++ [cbRun t c.run], run := c.run + 1, cycles := c.cycles + 1 }))

/-- With the op started and its operands at the heads of their queues: CONVERT stages the converted tile; EWISE with no second tile, MAP of a function without a table, REDUCE
and TOPK of a one-tile row set, SOFTMAX and NORM of a whole row set that keeps R201 stage their results; ROUTE with a map that names ranks of the step writes the dispatch
area and stages its summary tile. Each releases what it read and ends the repeat. -/
def Obligations.ArithmeticStationsComplete : Prop :=
  (∀ (s : State) (slot : StepIx) (core : LCore) (ix : Fin 2) (x : OpCtx) (t0 t : Tile) (w : Written),
      s.active slot.val core.val (0x90+ix.val) = some x →
      x.atEnd = false ∧ x.run.outbox = [] ∧ s.tripHolds (0x90+ix.val) = false ∧ x.run.started = true ∧ opCode x.op = 1 →
      x.head (opInA x.op) = some t0 →
      ((!(t0.layout == 2 && !isCb t0.format) && opF x.op 1 37 36 != 0) || (opF x.op 1 41 40 == 2 && decide (128 < t0.cols))) = false ∧ t0.short (depthOf (opF x.op 1 37 36)) = false →
      (t = (if t0.sparse then s.openTile t0 else t0)) →
      (w = writeVals (opF x.op 1 47 42) (opF x.op 1 41 40) (depthOf (opF x.op 1 39 38)) (opF x.op 1 35 35 == 1) (Config.free s.freeCtr) t.rows t.cols ((t.values (depthOf (opF x.op 1 37 36))).map fun row => row.map (convertIn t.format (opF x.op 1 34 27)))) →
      exec (.convert slot core ix) s = .next (State.endRepeat (State.endInA (s.drew.stage x { status := w.status, coordC := t.coordC, coordR := t.coordR, rows := t.rows, cols := t.cols, format := opF x.op 1 47 42, layout := opF x.op 1 41 40, poison := t.poison, payload := w.payload } (x.owners t.rows) w.origin) x) x)) ∧
  (∀ (s : State) (slot : StepIx) (core : LCore) (x : OpCtx) (a : Tile) (o : Tile × Nat),
      s.active slot.val core.val instVector = some x →
      x.atEnd = false ∧ x.run.outbox = [] ∧ s.tripHolds instVector = false ∧ x.run.started = true ∧ opCode x.op = 1 →
      x.head (opInA x.op) = some a ∧ vecBcast x.op = 3 →
      (o = vecTile x.op a a.rows a.cols (a.poison || false) (((List.range (s.vecVals a).length).zip (s.vecVals a)).map fun r => ((List.range r.2.length).zip r.2).map fun e => ewiseOne (vecFunc x.op) (vecBf16 x.op) (Config.free (s.freeCtr + 2) % 2 == 1) (vecC1 x.op) e.2 (vecC0 x.op))) →
      exec (.ewise slot core) s = .next (State.endRepeat (State.endInA ((s.drew.drew.drew).stage x o.1 (x.owners a.rows) o.2) x) x)) ∧
  (∀ (s : State) (slot : StepIx) (core : LCore) (x : OpCtx) (a : Tile) (o : Tile × Nat),
      s.active slot.val core.val instVector = some x →
      x.atEnd = false ∧ x.run.outbox = [] ∧ s.tripHolds instVector = false ∧ x.run.started = true ∧ opCode x.op = 2 →
      x.head (opInA x.op) = some a ∧ vecFunc x.op ≠ 4 →
      (o = vecTile x.op a a.rows a.cols (a.poison || false) ((s.vecVals a).map fun r => r.map fun v => mapFn (vecFunc x.op) #[] (add32 (mul32 (vecC0 x.op) v) (vecC1 x.op)))) →
      exec (.map slot core) s = .next (State.endRepeat (State.endInA ((s.opened a).stage x o.1 (x.owners a.rows) o.2) x) x)) ∧
  (∀ (s : State) (slot : StepIx) (core : LCore) (x : OpCtx) (t : Tile) (u : State),
      s.active slot.val core.val instVector = some x →
      x.atEnd = false ∧ x.run.outbox = [] ∧ s.tripHolds instVector = false ∧ x.run.started = true ∧ opCode x.op = 3 →
      opHoldA x.op = false ∧ x.run.wbytes = [] ∧ vecTiles x.op = 1 →
      x.head (opInA x.op) = some t ∧ rowSetOk x.op [t] none = true →
      (u = (List.range 1).foldl (fun st _ => match st.step? x.slot with | some v => st.endRead { x with step := v } (opInA x.op) | none => st) (s.drew.stageAll x (s.rowSetOut x [t] none))) →
      exec (.reduce slot core) s = .next (State.endRepeat (u.modInst x.slot x.core x.inst fun r => { r with work := [], wbytes := [] }) x)) ∧
  (∀ (s : State) (slot : StepIx) (core : LCore) (x : OpCtx) (t : Tile) (u : State),
      s.active slot.val core.val instVector = some x →
      x.atEnd = false ∧ x.run.outbox = [] ∧ s.tripHolds instVector = false ∧ x.run.started = true ∧ opCode x.op = 6 →
      opHoldA x.op = false ∧ x.run.wbytes = [] ∧ vecTiles x.op = 1 →
      x.head (opInA x.op) = some t ∧ rowSetOk x.op [t] none = true →
      (u = (List.range 1).foldl (fun st _ => match st.step? x.slot with | some v => st.endRead { x with step := v } (opInA x.op) | none => st) (s.drew.stageAll x (s.rowSetOut x [t] none))) →
      exec (.topk slot core) s = .next (State.endRepeat (u.modInst x.slot x.core x.inst fun r => { r with work := [], wbytes := [] }) x)) ∧
  (∀ (s : State) (slot : StepIx) (core : LCore) (x : OpCtx) (ts : List Tile) (u : State),
      s.active slot.val core.val instVector = some x →
      x.atEnd = false ∧ x.run.outbox = [] ∧ s.tripHolds instVector = false ∧ x.run.started = true ∧ opCode x.op = 4 →
      ((List.range (vecTiles x.op)).mapM (fun i => x.head (opInA x.op) i) = some ts ∧ rowSetOk x.op ts none = true) →
      (u = (List.range (if opHoldA x.op && !x.lastRep then 0 else vecTiles x.op)).foldl (fun st _ => match st.step? x.slot with | some v => st.endRead { x with step := v } (opInA x.op) | none => st) (s.drew.stageAll x (s.rowSetOut x ts none))) →
      exec (.softmax slot core) s = .next (State.endRepeat (u.modInst x.slot x.core x.inst fun r => { r with work := [], wbytes := [] }) x)) ∧
  (∀ (s : State) (slot : StepIx) (core : LCore) (x : OpCtx) (ts : List Tile) (g : Tile) (u : State),
      s.active slot.val core.val instVector = some x →
      x.atEnd = false ∧ x.run.outbox = [] ∧ s.tripHolds instVector = false ∧ x.run.started = true ∧ opCode x.op = 5 →
      ((List.range (vecTiles x.op)).mapM (fun i => x.head (opInA x.op) i) = some ts ∧ x.head (opInB x.op) = some g ∧ rowSetOk x.op ts (some g) = true) →
      (u = (List.range (if opHoldA x.op && !x.lastRep then 0 else vecTiles x.op)).foldl (fun st _ => match st.step? x.slot with | some v => st.endRead { x with step := v } (opInA x.op) | none => st) (s.drew.stageAll x (s.rowSetOut x ts (some g)))) →
      exec (.norm slot core) s = .next (State.endRepeat ((u.endRead x (opInB x.op)).modInst x.slot x.core x.inst fun r => { r with work := [], wbytes := [] }) x)) ∧
  (∀ (s : State) (slot : StepIx) (core : LCore) (x : OpCtx) (t : Tile) (es : List Expert),
      s.active slot.val core.val instDispatch = some x →
      x.atEnd = false ∧ x.run.outbox = [] ∧ s.tripHolds instDispatch = false ∧ x.run.started = true ∧ opCode x.op = 1 →
      x.head (opInA x.op) = some t ∧ (t.format == 1 || t.format == 2) = true ∧ t.layout = 0 →
      s.addrCheck [(opF x.op 2 39 0, 4 * t.cols)] = none →
      es = s.experts (opF x.op 2 39 0) t.cols →
      (es.any (fun e => e.valid && decide (x.step.ranks ≤ e.rank)) = false) →
      s.addrCheck [(opF x.op 3 39 0, (s.routeBuild x t es).1.length)] = none →
      exec (.route slot core) s = .next (State.endRepeat (State.endInA (State.stage ((s.access (opF x.op 3 39 0) (s.routeBuild x t es).1.length true true).st (opF x.op 3 39 0) (s.routeBuild x t es).1) x (routeTile (s.routeBuild x t es).2 t.poison) []) x) x))

/-- A frame of a step this device holds running under that attempt, clean and at bytes it may address, is performed: RD_REQ answers RD_RSP with its bytes, WR writes its
bytes, counts them and acknowledges when asked, ATOMIC answers with the old value, COPY data is written and added to a new entry of the acknowledgement table. An entry
that holds 16 KiB or is 500 ns old goes as one WR_ACK; a combining-buffer line idle for 1 µs goes back to the Deck; a span with its writeback done enters its reset. -/
def Obligations.RemoteTargetCompletes : Prop :=
  (∀ (s : State) (src : Endpoint) (hits : List EccHit) (fr : Frame) (u w : State) (h : ReqHdr) (i : Nat),
      s.takeFrame 6 src.toNat = some (fr, u) →
      h = hdrOf fr.body →
      u.matchStep h.slice h.seq h.attempt = .run i ∧ h.clean false = true ∧ u.rmtError false h.addr h.len = none →
      w = (u.access h.addr h.len false true).ecc i h.addr h.len hits →
      exec (.rdReqReceive src hits) s = .next (w.drew.respond fr.src 9 (leBytes 2 h.id ++ leBytes 2 (h.len - 1) ++ leBytes 1 (w.poisoned h.addr h.len).toNat ++ [0, 0, 0] ++ w.rd h.addr h.len))) ∧
  (∀ (s : State) (src : Endpoint) (fr : Frame) (u w : State) (h : ReqHdr) (i : Nat),
      s.takeFrame 7 src.toNat = some (fr, u) →
      h = hdrOf fr.body →
      u.matchStep h.slice h.seq h.attempt = .run i ∧ h.clean false = true ∧ u.rmtError false h.addr h.len = none ∧ 16 + h.len ≤ fr.body.length →
      w = u.rmtWrite h (byteField fr.body 16 h.len) (ceilDiv (16 + h.len) 64) →
      exec (.wrReceive src) s = .next (if h.ackReq then w.respond fr.src 0x0A (leBytes 2 h.id ++ [0, 0] ++ leBytes 4 h.len) else w)) ∧
  (∀ (s : State) (src : Endpoint) (fr : Frame) (u : State) (h : ReqHdr) (i : Nat) (r : State × Nat × Bool),
      s.takeFrame 8 src.toNat = some (fr, u) →
      h = hdrOf fr.body →
      u.matchStep h.slice h.seq h.attempt = .run i ∧ h.clean true = true ∧ u.rmtError false h.addr h.word = none ∧ aligned h.word h.addr = true →
      h.arg % 16 < 7 ∧ (h.arg % 16 == 6 && h.word == 8) = false →
      r = u.rmtAtomic h.addr (h.arg % 16) (h.word == 8) (recNat fr.body 16 8) (recNat fr.body 24 8) →
      exec (.atomicReceive src) s = .next (r.1.respond fr.src 0x0B (leBytes 2 h.id ++ leBytes 1 r.2.2.toNat ++ leBytes 5 0 ++ leBytes 8 r.2.1))) ∧
  (∀ (s : State) (src : Endpoint) (fr : Frame) (u w : State) (h : ReqHdr) (i : Nat),
      s.takeFrame 0x0C src.toNat = some (fr, u) →
      h = hdrOf fr.body →
      u.matchStep h.slice h.seq h.attempt = .run i ∧ h.clean false = true ∧ u.rmtError true h.addr h.len = none ∧ 16 + h.len ≤ fr.body.length →
      w = u.rmtWrite h (byteField fr.body 16 h.len) (ceilDiv (16 + h.len) 64) →
      (w.rmt.acks.any (fun e => e.src == fr.src && e.id == h.id) = false ∧ w.rmt.acks.length < 1024) →
      exec (.copyReceive src) s = .next ({ w with rmt := { w.rmt with acks := w.rmt.acks ++ [⟨fr.src, h.id, h.len, w.time.nowNs⟩] } })) ∧
  (∀ (s : State) (src : Endpoint) (reqId : Half) (e : AckEntry),
      (s.rmt.acks.find? (fun e => e.src == src.toNat && e.id == reqId.toNat) = some e) →
      16384 ≤ e.bytes ∨ e.since + 500 ≤ s.time.nowNs →
      exec (.copyAckFlush src reqId) s = .next (State.ackCopy { s with rmt := { s.rmt with acks := dropFirst (fun e => e.src == src.toNat && e.id == reqId.toNat) s.rmt.acks } } e.src e.id e.bytes)) ∧
  (∀ (s : State) (span : SpanIx) (c : CombLine),
      s.rmt.comb.find? (·.span == span.val) = some c →
      c.usedAt + 1000 ≤ s.time.nowNs →
      exec (.combineLineIdle span) s = .next (s.flushComb c)) ∧
  (∀ (s : State) (span : SpanIx) (r : ResetRun) (u w : State),
      (s.faults.resets.find? (fun r => r.awaitWb.contains span.val) = some r) →
      (u = ((((s.rmt.comb.filter (·.span == span.val)).foldl State.flushComb s).span span.val).cache.flatMap fun e => e.2.filter (·.dirty)).foldl (fun st c => st.serve span.val (c.line * 256)) ((s.rmt.comb.filter (·.span == span.val)).foldl State.flushComb s)) →
      (w = u.setFaults { u.faults with resets := mapFirst (fun x => x.awaitWb.contains span.val) (fun x => { x with awaitWb := x.awaitWb.filter (· != span.val), entered := (x.awaitWb.filter (· != span.val)).isEmpty }) u.faults.resets }) →
      exec (.spanResetEnter span) s = .next ((w.enterSpan span.val r.level r.hbmFault).showReset))

/-- A SEND QUEUE op that starts with a credit and a tile sends the tile and ends its repeat; a RECEIVE QUEUE op starts, takes its channel and takes up what has come. A
QUEUE_CREDIT for a running step's queue adds the credits granted modulo 2¹⁶ to the producer's record and, with GRANT, sets the channel. A QUEUE cell of an allocated
channel from the right endpoint and attempt is kept under its TAG and released in TAG order. A channel freed 100 µs ago may be allocated again. WAIT_GE below TARGET
stalls; at TARGET it subtracts it under CONSUME and emits its tile. -/
def Obligations.QueuesBetweenDevicesAndWait : Prop :=
  (∀ (s : State) (slot : StepIx) (core : LCore) (receive : Bool) (ix : Fin 4) (x : OpCtx) (t : Tile) (v : Queue) (w : TxQueue),
      receive = false ∧ s.rmtBusy slot.val core.val (instSend+ix.val) = false →
      s.active slot.val core.val (instSend+ix.val) = some x →
      x.atEnd = false ∧ x.run.outbox = [] ∧ s.tripHolds (instSend+ix.val) = false ∧ x.run.started = true ∧ opCode x.op = 1 →
      x.step.queue? (opInA x.op) = some v ∧ s.txOf x.slot (opInA x.op) = some w ∧ w.sent < w.granted →
      x.head (opInA x.op) = some t →
      exec (.queue slot core receive ix) s = .next (State.endRepeat (State.endInA (State.sendTile (s.setRmt { s.rmt with tx := mapFirst (fun e => e.slot == x.slot && e.queue == opInA x.op) (fun e => { e with sent := e.sent + 1 }) s.rmt.tx }) x.step v w.chan t) x) x)) ∧
  (∀ (s : State) (slot : StepIx) (core : LCore) (receive : Bool) (ix : Fin 4) (x : OpCtx) (u : State) (y : OpCtx),
      receive = true ∧ s.rmtBusy slot.val core.val (instReceive+ix.val) = false →
      s.active slot.val core.val (instReceive+ix.val) = some x →
      x.atEnd = false ∧ opCode x.op = 1 →
      u = s.startOp x (queueRxOk x) →
      u.active slot.val core.val (instReceive+ix.val) = some y →
      exec (.queue slot core receive ix) s = .next (State.releaseRx (if (aget y.run.work 0).isSome then u else u.allocChan y (opOut y.op)) slot.val core.val (instReceive+ix.val) (opOut y.op) 64)) ∧
  (∀ (s : State) (src : Endpoint) (fr : Frame) (u : State) (i : Nat) (t : Step) (v : Queue) (w : TxQueue) (q : Nat),
      s.takeFrame 5 src.toNat = some (fr, u) →
      (u.steps.slots.find? (fun e => e.2.phase == .running && e.2.slice == recNat fr.body 0 2 && e.2.seq % 65536 == recNat fr.body 2 2 && e.2.attempt == recBits fr.body 4 1 3 0) = some (i, t)) →
      q = recBits fr.body 6 2 11 0 ∧ t.queue? q = some v ∧ v.kind = 2 ∧ v.consInst / 16 = 0xB →
      u.txOf i q = some w →
      exec (.queueCreditReceive src) s = .next ((u.setRmt { u.rmt with tx := mapFirst (fun e => e.slot == i && e.queue == q) (fun _ => { w with granted := w.granted + (recNat fr.body 10 2 + 65536 - w.granted % 65536) % 65536, chan := if recBits fr.body 4 1 4 4 = 1 then recBits fr.body 8 2 11 0 else w.chan }) u.rmt.tx }).progress i v.consCore v.consInst)) ∧
  (∀ (s : State) (src : Endpoint) (fr : Frame) (u : State) (r : RxQueue) (t : Step) (v : Queue) (b : Nat),
      s.takeFrame 4 src.toNat = some (fr, u) →
      (fr.cls = 5 ∧ b = recNat fr.body 0 8 ∧ u.rmt.rx.find? (fun r => r.chans.contains (b % 4096)) = some r) →
      u.step? r.slot = some t ∧ t.queue? r.queue = some v →
      t.phase = .running ∧ u.rankEndpoint t.slice v.peerRank = fr.src ∧ t.attempt % 2 = b / 4096 % 2 →
      exec (.queueCellReceive src) s = .next (((u.setRx { r with parts := aput r.parts (b / 2 ^ 16 % 65536) (aput ((aget r.parts (b / 2 ^ 16 % 65536)).getD []) (b / 2 ^ 32 % 2048) (byteField fr.body 8 56)) }).progress r.slot r.core r.inst).releaseRx r.slot r.core r.inst r.queue 64)) ∧
  (∀ (s : State) (chan : BitVec 12),
      exec (.queueChannelFree chan) s = .next (s.setRmt { s.rmt with freed := s.rmt.freed.filter fun e => !(e.1 == chan.toNat && decide (e.2 + 100000 ≤ s.time.nowNs)) })) ∧
  (∀ (s : State) (slot : StepIx) (core : LCore) (ix : Fin 2) (x : OpCtx),
      s.active slot.val core.val (instWait+ix.val) = some x →
      x.atEnd = false ∧ x.run.outbox = [] ∧ s.tripHolds (instWait+ix.val) = false ∧ x.run.started = true ∧ opCode x.op = 1 →
      s.arrival (opF x.op 1 45 32) < opF x.op 2 63 0 →
      exec (.waitGe slot core ix) s = .next (s.stallOn x 3 (opF x.op 1 45 32))) ∧
  (∀ (s : State) (slot : StepIx) (core : LCore) (ix : Fin 2) (x : OpCtx),
      s.active slot.val core.val (instWait+ix.val) = some x →
      x.atEnd = false ∧ x.run.outbox = [] ∧ s.tripHolds (instWait+ix.val) = false ∧ x.run.started = true ∧ opCode x.op = 1 →
      opF x.op 2 63 0 ≤ s.arrival (opF x.op 1 45 32) →
      exec (.waitGeSatisfied slot core ix) s = .next (State.endRepeat (State.stage (if opF x.op 1 47 47 = 1 then s.setArrival (opF x.op 1 45 32) (s.arrival (opF x.op 1 45 32) - opF x.op 2 63 0) else s) x (doneTile x.repNo) (x.owners 1)) x))

/-- APPEND with a valid preset gives the tile its place in the queue as TAG, adds the 16-byte trailer with the preset's check value over header, payload and trailer bytes 8
to 15, and counts the pair's alive counter up; VERIFY passes on the tile whose trailer is of this step, attempt and stream, whose check value agrees and whose alive
counter is the expected one, without the trailer, and counts on. -/
def Obligations.CheckStationCompletes : Prop :=
  (∀ (s : State) (slot : StepIx) (core : LCore) (ix : Fin 2) (x : OpCtx) (t : Tile) (r : StreamRun) (v : Queue) (a : Nat) (tail : List Byte) (n : Tile),
      s.active slot.val core.val (instCheck+ix.val) = some x →
      x.atEnd = false ∧ x.run.outbox = [] ∧ s.tripHolds (instCheck+ix.val) = false ∧ x.run.started = true ∧ opCode x.op = 1 →
      s.isSet (fCHK_CFG_VALID (chkPreset x.op)) = true ∧ x.head (opInA x.op) = some t →
      x.step.streams[x.chkStream]? = some r ∧ x.step.queue? (opOut x.op) = some v ∧ s.aliveOf x r.id = some a →
      n = { t with tag := v.emitted % 65536, last := s.isLastTile x } ∧ tail = trailerTail a r.id x.step.seq x.step.attempt →
      exec (.append slot core ix) s = .next (State.endRepeat (State.endInA (State.stage (s.setAlive x r.id (a + 1)) x { n with payload := t.payload ++ leBytes 8 (checkValue (s.preset (chkPreset x.op)) n t.payload tail) ++ tail } (x.owners t.rows) 5) x) x)) ∧
  (∀ (s : State) (slot : StepIx) (core : LCore) (ix : Fin 2) (x : OpCtx) (t : Tile) (r : StreamRun) (a : Nat) (tr : List Byte),
      s.active slot.val core.val (instCheck+ix.val) = some x →
      x.atEnd = false ∧ x.run.outbox = [] ∧ s.tripHolds (instCheck+ix.val) = false ∧ x.run.started = true ∧ opCode x.op = 2 →
      s.isSet (fCHK_CFG_VALID (chkPreset x.op)) = true ∧ x.head (opInA x.op) = some t →
      x.step.streams[x.chkStream]? = some r ∧ s.aliveOf x r.id = some a ∧ tr = t.payload.drop (t.payload.length - 16) →
      recNat tr 12 2 = x.step.seq % 65536 ∧ recBits tr 14 1 3 0 = x.step.attempt ∧ recNat tr 10 2 = r.id ∧ recNat tr 8 2 = a →
      recNat tr 0 8 = checkValue (s.preset (chkPreset x.op)) t (t.payload.take (t.payload.length - 16)) (tr.drop 8) →
      exec (.verify slot core ix) s = .next (State.endRepeat (State.endInA (State.stage (s.setAlive x r.id (a + 1)) x { t with payload := t.payload.take (t.payload.length - 16) } (x.owners t.rows) 5) x) x))

/-- PUT whose pieces all pass a window on another rank takes its tile, awaits one acknowledge and issues its WR frames of 4,096 B in ascending order; GET asks for its pieces
with RD_REQs and awaits a tile of as many parts; ATOMIC performs or sends its rows in order and awaits their old values; FENCE completes once nothing is unacknowledged;
FLAG, once no copy to its destination is unacknowledged, sends its word as a WR frame; COPY takes the lowest free engine of the die, a REQ_ID and its input tile, and
starts to send. A copy with every byte acknowledged frees its engine and gives its done tile. -/
def Obligations.RemoteOpsComplete : Prop :=
  (∀ (s : State) (slot : StepIx) (core : LCore) (ix : Fin 4) (x : OpCtx) (rank o : Nat) (t : Tile) (r : State × Option Nat),
      s.rmtBusy slot.val core.val (instSend+ix.val) = false →
      s.active slot.val core.val (instSend+ix.val) = some x →
      x.atEnd = false ∧ x.run.outbox = [] ∧ s.tripHolds (instSend+ix.val) = false ∧ x.run.started = true ∧ opCode x.op = 2 →
      s.gAddr x.step.slice (opF x.op 2 63 0) = some (rank, o) ∧ x.head (opInA x.op) = some t ∧ rank ≠ x.step.rank →
      (cut4k t.payload.length).all (s.piecePasses x rank o permWr) = true →
      r = (s.endInA x).awaitRes x (doneTile x.repNo) 1 →
      exec (.put slot core ix) s = .next (State.endIssue (r.1.issue { req := x.req 7 (s.rankEndpoint x.step.slice rank) 0 ((cut4k t.payload.length).getLastD (0, 0)).2 r.2, frames := x.putFrames o t (cut4k t.payload.length) }) x)) ∧
  (∀ (s : State) (slot : StepIx) (core : LCore) (ix : Fin 4) (x : OpCtx) (rank o : Nat) (r : State × Option Nat),
      s.rmtBusy slot.val core.val (instReceive+ix.val) = false →
      s.active slot.val core.val (instReceive+ix.val) = some x →
      x.atEnd = false ∧ x.run.outbox = [] ∧ s.tripHolds (instReceive+ix.val) = false ∧ x.run.started = true ∧ opCode x.op = 2 →
      s.gAddr x.step.slice (opF x.op 2 63 0) = some (rank, o) ∧ rank ≠ x.step.rank →
      (cut4k (opF x.op 1 15 0 + 1)).all (s.piecePasses x rank o permRd) = true →
      r = s.awaitRes x x.getTile (cut4k (opF x.op 1 15 0 + 1)).length →
      exec (.get slot core ix) s = .next (State.endIssue ((cut4k (opF x.op 1 15 0 + 1)).foldl (fun st p => st.issue (x.getWait (s.rankEndpoint x.step.slice rank) o r.2 p)) r.1) x)) ∧
  (∀ (s : State) (slot : StepIx) (core : LCore) (ix : Fin 4) (x : OpCtx) (t : Tile) (r : State × Option Nat),
      s.rmtBusy slot.val core.val (instSend+ix.val) = false →
      s.active slot.val core.val (instSend+ix.val) = some x →
      x.atEnd = false ∧ x.run.outbox = [] ∧ s.tripHolds (instSend+ix.val) = false ∧ x.run.started = true ∧ opCode x.op = 4 →
      x.head (opInA x.op) = some t ∧ t.format = 0x0B ∧ t.layout = 0 ∧ t.cols = 6 →
      r = s.awaitRes x { rows := t.rows, cols := 2, format := 0x0B, layout := 0, poison := t.poison, payload := List.replicate (8 * t.rows) 0 } t.rows →
      (r.1.atomicRows x r.2 t).2 = false →
      exec (.atomic slot core ix) s = .next (State.endIssue ((r.1.atomicRows x r.2 t).1.endInA x) x)) ∧
  (∀ (s : State) (slot : StepIx) (core : LCore) (ix : Fin 4) (x : OpCtx),
      s.rmtBusy slot.val core.val (instSend+ix.val) = false →
      s.active slot.val core.val (instSend+ix.val) = some x →
      x.atEnd = false ∧ x.run.outbox = [] ∧ s.tripHolds (instSend+ix.val) = false ∧ x.run.started = true ∧ opCode x.op = 5 →
      s.unacked x.slot x.core x.inst = false →
      exec (.fence slot core ix) s = .next (State.endIssue (s.awaitRes x (doneTile x.repNo) 0).1 x)) ∧
  (∀ (s : State) (slot : StepIx) (core : LCore) (ix : Fin 4) (x : OpCtx) (rank o n : Nat) (r : State × Option Nat),
      s.rmtBusy slot.val core.val (instSend+ix.val) = false →
      s.active slot.val core.val (instSend+ix.val) = some x →
      x.atEnd = false ∧ x.run.outbox = [] ∧ s.tripHolds (instSend+ix.val) = false ∧ x.run.started = true ∧ opCode x.op = 6 →
      (s.gAddr x.step.slice (opF x.op 2 63 0) = some (rank, o) ∧ rank ≠ x.step.rank ∧ n = (if opF x.op 1 47 47 = 1 then 8 else 4) ∧ o % n = 0) →
      (s.rmt.copies.any (fun c => c.slot == x.slot && c.core == x.core && c.inst == x.inst && c.dst == s.rankEndpoint x.step.slice rank && decide (c.acked < c.total)) = false) →
      s.windowOk x.step.slice false rank o n permWr = true →
      r = s.awaitRes x (doneTile x.repNo) 1 →
      exec (.flag slot core ix) s = .next (State.endIssue (r.1.issue { req := x.req 7 (s.rankEndpoint x.step.slice rank) 0 n r.2, frames := [hdrBytes { x.hdr o (lenArg n) (lenExt n false) with ackReq := true } ++ leBytes n (opF x.op 3 63 0)] }) x)) ∧
  (∀ (s : State) (slot : StepIx) (core : LCore) (ix : Fin 4) (x : OpCtx) (e rank o : Nat) (i : State × Nat) (q : State × Option Nat) (c : CopyRun),
      s.rmtBusy slot.val core.val (instSend+ix.val) = false →
      s.active slot.val core.val (instSend+ix.val) = some x →
      x.atEnd = false ∧ x.run.outbox = [] ∧ s.tripHolds (instSend+ix.val) = false ∧ x.run.started = true ∧ opCode x.op = 3 →
      opInA x.op ≠ noQ ∧ (x.head (opInA x.op)).isSome = true ∧ opF x.op 1 47 47 = 0 →
      s.freeEngine (x.core / 32) = some e ∧ s.gAddr x.step.slice (opF x.op 3 63 0) = some (rank, o) →
      s.windowOk x.step.slice false rank ((o + x.repNo * (opF x.op 1 29 0 + 1)) % 2 ^ 40) (opF x.op 1 29 0 + 1) permWr = true →
      q = (s.endInA x).awaitRes x (doneTile x.repNo) 1 ∧ i = q.1.takeId →
      c = x.copyRun e i.2 (s.rankEndpoint x.step.slice rank) ((o + x.repNo * (opF x.op 1 29 0 + 1)) % 2 ^ 40) (opF x.op 1 29 0 + 1) s.time.nowNs q.2 →
      exec (.copy slot core ix) s = .next (State.pumpCopy (State.endIssue (i.1.setRmt { i.1.rmt with copies := i.1.rmt.copies ++ [c] }) x) c)) ∧
  (∀ (s : State) (die : Fin 4) (engine : Fin 16) (c : CopyRun),
      (s.rmt.copies.find? (fun c => c.die == die.val && c.eng == engine.val && decide (c.total ≤ c.acked)) = some c) →
      exec (.copyComplete die engine) s = .next ((s.setRmt { s.rmt with copies := dropFirst (fun c => c.die == die.val && c.eng == engine.val && decide (c.total ≤ c.acked)) s.rmt.copies }).resPart c.res 0 [] false))

/-- A request that waits for its load/atomic engine is sent when the engine has an entry free. RD_RSP, WR_ACK and ATOMIC_RSP for an outstanding request free its entry, count
as progress and bring one part of its result; WR_ACK for a copy accounts for its bytes and lets it send on. ERROR_RSP for an outstanding request counts ERR_RECEIVED and
fails the step with REMOTE_ERROR. A request of a running step unanswered for REQ_TIMEOUT_US counts a timeout and fails the step with REMOTE_TIMEOUT. -/
def Obligations.RemoteResponsesAndEngines : Prop :=
  (∀ (s : State) (span : SpanIx) (w : RmtWait),
      s.rmt.waiting.find? (·.req.span == span.val) = some w →
      s.engineFree span.val = true →
      exec (.loadAtomicEngineSlot span) s = .next ((s.setRmt { s.rmt with waiting := dropFirst (·.req.span == span.val) s.rmt.waiting }).sendReq w)) ∧
  (∀ (s : State) (src : Endpoint) (fr : Frame) (u : State) (r : RmtReq),
      s.takeFrame 9 src.toNat = some (fr, u) →
      u.reqOf fr 6 = some r →
      exec (.rdRspReceive src) s = .next (((u.dropReq r.id).progress r.slot r.core r.inst).resPart r.res r.off (byteField fr.body 8 r.len) (recBits fr.body 4 1 0 0 == 1))) ∧
  (∀ (s : State) (src : Endpoint) (fr : Frame) (u : State) (r : RmtReq),
      s.takeFrame 0x0A src.toNat = some (fr, u) →
      u.reqOf fr 7 = some r →
      exec (.wrAckReceive src) s = .next (((u.dropReq r.id).progress r.slot r.core r.inst).resPart r.res 0 [] false)) ∧
  (∀ (s : State) (src : Endpoint) (fr : Frame) (u : State) (c d : CopyRun),
      s.takeFrame 0x0A src.toNat = some (fr, u) →
      u.reqOf fr 7 = none →
      (u.rmt.copies.find? (fun c => c.id == recNat fr.body 0 2 && c.dst == fr.src) = some c) →
      d = { c with acked := min c.sent (c.acked + recNat fr.body 4 4), sentAt := u.time.nowNs } →
      exec (.wrAckReceive src) s = .next (((u.setRmt { u.rmt with copies := mapFirst (fun c => c.id == recNat fr.body 0 2 && c.dst == fr.src) (fun _ => d) u.rmt.copies }).progress c.slot c.core c.inst).pumpCopy d)) ∧
  (∀ (s : State) (src : Endpoint) (fr : Frame) (u : State) (r : RmtReq),
      s.takeFrame 0x0B src.toNat = some (fr, u) →
      u.reqOf fr 8 = some r →
      exec (.atomicRspReceive src) s = .next (((u.dropReq r.id).progress r.slot r.core r.inst).resPart r.res r.off (byteField fr.body 8 8) (recBits fr.body 2 1 0 0 == 1))) ∧
  (∀ (s : State) (src : Endpoint) (fr : Frame) (u : State) (r : RmtReq),
      s.takeFrame 0x0E src.toNat = some (fr, u) →
      (u.rmt.reqs.find? (fun r => r.id == recNat fr.body 0 2 && r.dst == fr.src) = some r) →
      exec (.errorRspReceive src) s = .next (((u.dropReq (recNat fr.body 0 2)).bumpSat fMEM_RMT_ERRORS_ERR_RECEIVED).remoteError r.slot r.core r.inst (recNat fr.body 2 1) (recNat fr.body 8 5))) ∧
  (∀ (s : State) (reqId : Half) (r : RmtReq) (t : Step),
      s.rmt.reqs.find? (·.id == reqId.toNat) = some r →
      r.sentAt + s.rmtLimit ≤ s.time.nowNs →
      (s.dropReq reqId.toNat).step? r.slot = some t ∧ t.phase = .running →
      exec (.remoteTimeout reqId) s = .next (((s.dropReq reqId.toNat).bumpSat fMEM_RMT_ERRORS_TIMEOUTS).stepFault r.slot 0x0F { unitKind := 6, unitIx := r.core * 256 + r.inst, arg0 := r.dst }))

/-- WINDOW_WRITE of entries inside the 512 whose bytes are read and whose reserved fields are 0 writes each of them, and completes with 0xB0; SLICE_WRITE of a slice no
outstanding step names, with a good entry that passes R439, stores its 32 bytes in the directory and completes with 0xB0. -/
def Obligations.WindowsAndSlices : Prop :=
  (∀ (s : State) (sq : RingNo) (data : List Byte) (f : InFlight) (i n : Nat),
      s.nextCmd sq.toNat 0x6B = some f →
      i = recNat f.desc 8 2 ∧ n = recNat f.desc 10 2 ∧ 0 < n ∧ i + n ≤ 512 →
      exec (.windowWrite sq data) s = .next (s.tableWrite f i n 32 0xB0 0xB1 0xB4 data winGood State.writeWindow)) ∧
  (∀ (s : State) (sq : RingNo) (data : Option (List Byte)) (f : InFlight) (u : State) (e : List Byte),
      s.nextCmd sq.toNat 0x6C = some f →
      s.sliceBusy (recNat f.desc 8 2) = false →
      s.hostGet f (recNat f.desc 16 8) 32 data = (u, some e) →
      sliceGood e = true ∧ recBits e 0 1 0 0 ≠ 0 ∧ u.sliceOk e = true →
      exec (.sliceWrite sq data) s = .next ((u.st (0x200000 * (s.getF fMEM_SLICE_LO_ADDR_LO) + 0x100000000 * (s.getF fMEM_SLICE_HI_ADDR_HI) + recNat f.desc 8 2 * 32) e).finish f 0xB0 []))

/-- A RUN op whose descriptor and ranges pass their checks, while its sequencer and its core have a slot, arms the collective of its repeat; a slot that becomes free arms the
one that has waited longest; the collective armed first starts its data phase when its step runs; a gate whose time has come opens. -/
def Obligations.CollectArmsAndStarts : Prop :=
  (∀ (s : State) (slot : StepIx) (core : LCore) (x y : OpCtx) (u : State),
      s.active slot.val core.val instCollect = some x →
      x.atEnd = false ∧ opCode x.op = 1 ∧ u = s.startOp x (runOk x) →
      u.active slot.val core.val instCollect = some y ∧ u.mayArm core.val = true →
      u.collAddr [(opF y.op 2 39 0, 128)] = none →
      (u.collOf y (opF y.op 2 39 0)).ok y.step = true ∧ u.rangeFault y.step (u.collOf y (opF y.op 2 39 0)).ranges = none →
      exec (.run slot core) s = .next (u.armed y (u.collOf y (opF y.op 2 39 0)))) ∧
  (∀ (s : State) (slot : StepIx) (seq : Fin 16) (core : Nat) (x y : OpCtx) (u : State),
      (s.col.waiting.find? (fun c => c / 8 == seq.val && s.mayArm c) = some core) →
      s.active slot.val core instCollect = some x →
      x.atEnd = false ∧ opCode x.op = 1 ∧ u = s.startOp x (runOk x) →
      u.active slot.val core instCollect = some y ∧ u.mayArm core = true →
      u.collAddr [(opF y.op 2 39 0, 128)] = none →
      (u.collOf y (opF y.op 2 39 0)).ok y.step = true ∧ u.rangeFault y.step (u.collOf y (opF y.op 2 39 0)).ranges = none →
      exec (.collectSlotFree slot seq) s = .next (u.armed y (u.collOf y (opF y.op 2 39 0)))) ∧
  (∀ (s : State) (core : LCore) (c : Coll) (t : Step),
      s.collHead core.val = some c →
      s.step? c.slot = some t ∧ c.started = false ∧ t.phase = .running ∧ c.unequal = false →
      exec (.collectDataStart core) s = .next (s.beginData c t 0)) ∧
  (∀ (s : State) (core : LCore) (c : Coll) (t : Step),
      s.collHead core.val = some c →
      s.step? c.slot = some t →
      c.gate = 2 ∧ t.startTime + c.gateNs ≤ s.time.ft →
      exec (.collectGateOpen core) s = .next (s.modColl c.no fun v => { v with gate := 3 }))

/-- A GRANT for an armed collective raises what its sender may send and what its peer has done; a DATA frame within what was granted is written at its place, or kept for the
fold of its chunk, and DONE follows; a SIZES cell of an A2AV_RET member that agrees with its area sets the length and is granted with SIZES_SEEN; a chunk goes to the
first peer in turn that has one granted; resends count; a finished collective frees its slot, counts on its sequencer and gives its done tile. -/
def Obligations.CollectMovesAndEnds : Prop :=
  (∀ (s : State) (src : Endpoint) (fr : Frame) (u : State) (no h : Nat) (c : Coll) (w : CollTx),
      s.takeColl src.toNat 1 = some (fr, u) →
      u.matchColl fr = .hit no h →
      u.coll? no = some c →
      c.txOf (recBits fr.body 4 1 6 6) h = some w →
      exec (.grantReceive src) s = .next ((u.modColl no fun v => { (v.setTx { w with granted := max w.granted (recNat fr.body 8 4), done := max w.done (recBits fr.body 12 4 30 0), sizesSeen := w.sizesSeen || recBits fr.body 12 4 31 31 == 1 }) with rx := v.rx.map fun r => if r.peer = h then { r with heardAt := u.time.nowNs } else r }).progress c.slot c.core instCollect)) ∧
  (∀ (s : State) (src : Endpoint) (fr : Frame) (u w : State) (no h p lo n m : Nat) (bad : Bool) (c : Coll) (r : CollRx) (t : Step),
      s.takeColl src.toNat 0 = some (fr, u) →
      u.matchColl fr = .hit no h →
      u.coll? no = some c →
      p = recBits fr.body 4 1 6 6 ∧ lo = recNat fr.body 8 4 ∧ n = recBits fr.body 12 4 11 0 + 1 ∧ bad = (recBits fr.body 12 4 12 12 == 1) →
      c.rxOf p h = some r ∧ u.step? c.slot = some t ∧ r.len = some m →
      lo + n ≤ m ∧ lo + n ≤ r.granted * c.chunk ∧ c.op ≠ 6 ∧ c.reduces = false →
      (w = ((u.modColl no fun v => v.setRx { r with heardAt := u.time.nowNs }).progress c.slot c.core instCollect).collPut no (State.collDst ((u.modColl no fun v => v.setRx { r with heardAt := u.time.nowNs }).progress c.slot c.core instCollect) c t.rank p h + lo) (byteField fr.body 16 n) bad) →
      exec (.collectDataReceive src) s = .next ((w.modColl no fun v => match v.rxOf p h with | some q => v.setRx { q with got := mergeGot q.got lo (lo + n) } | none => v).advanceRx no p h)) ∧
  (∀ (s : State) (src : Endpoint) (fr : Frame) (u : State) (no h lo n m : Nat) (bad : Bool) (c : Coll) (r : CollRx) (t : Step),
      s.takeColl src.toNat 0 = some (fr, u) →
      u.matchColl fr = .hit no h →
      u.coll? no = some c →
      recBits fr.body 4 1 6 6 = 0 ∧ lo = recNat fr.body 8 4 ∧ n = recBits fr.body 12 4 11 0 + 1 ∧ bad = (recBits fr.body 12 4 12 12 == 1) →
      c.rxOf 0 h = some r ∧ u.step? c.slot = some t ∧ r.len = some m →
      lo + n ≤ m ∧ lo + n ≤ r.granted * c.chunk ∧ c.op ≠ 6 ∧ c.reduces = true →
      exec (.collectDataReceive src) s = .next ((((u.modColl no fun v => v.setRx { r with heardAt := u.time.nowNs }).progress c.slot c.core instCollect).modColl no fun v => { v with stage := addPiece v.stage (lo / c.chunk, h) (lo % c.chunk, byteField fr.body 16 n, bad) }).foldAll no)) ∧
  (∀ (s : State) (src : Endpoint) (entries : List DWord) (fr : Frame) (u : State) (no h : Nat) (c : Coll) (r : CollRx) (t : Step),
      s.takeColl src.toNat 2 = some (fr, u) →
      u.matchColl fr = .hit no h →
      u.coll? no = some c →
      c.rxOf 0 h = some r ∧ u.step? c.slot = some t →
      c.op = 6 ∧ c.started = true ∧ recNat fr.body 8 4 ≤ c.rxCap ∧ recNat fr.body 8 4 = u.ldNat (c.area + 64 + 16 * c.memberRank t.rank h) 4 →
      exec (.sizesReceive src entries) s = .next ((((u.modColl no fun v => v.setRx { r with sizes := some (recNat fr.body 8 4), len := some (recNat fr.body 8 4 * c.rowBytes), heardAt := u.time.nowNs }).progress c.slot c.core instCollect).modColl no fun v => match v.rxOf 0 h with | some q => v.setRx { q with done := max q.done (v.doneOf q) } | none => v).sendGrant no 0 h)) ∧
  (∀ (s : State) (core : LCore) (c v : Coll) (t : Step) (h p lo : Nat) (bytes : List Byte) (bad : Bool) (u : State),
      s.collHead core.val = some c →
      s.step? c.slot = some t ∧ c.started = true ∧ (t.phase == .running || t.phase == .prepared) = true →
      (((List.range c.size).map fun k => (c.turn + 1 + k) % c.size).find? (fun h => h != c.own && ((s.nextChunk c t.rank h).isSome || c.sizesDue h)) = some h) →
      s.nextChunk c t.rank h = some (p, bytes, bad, lo) →
      (u = (if c.srcQ then s else s.access ((c.src + c.srcOff h + lo) % 2 ^ 40) bytes.length false true).sendChunk c t h p lo bytes bad) →
      u.coll? c.no = some v ∧ v.sizesDue h = false →
      exec (.collectChunkSend core) s = .next (u)) ∧
  (∀ (s : State) (core : LCore) (c : Coll) (u : State),
      s.collHead core.val = some c →
      c.finished = true ∧ c.op ≠ 5 →
      u = ((s.setCol { s.col with colls := s.col.colls.filter (·.no != c.no), complete := s.col.complete ++ [(c.slot, c.node, c.rep % 256)] }).bumpWrap (fCOL_SEQ_DONE_COUNT (c.core / 8))).progress c.slot c.core instCollect →
      exec (.collectComplete core) s = .next ((if !c.dstQ && c.outQ != noQ then u.modInst c.slot c.core instCollect fun v => { v with outbox := v.outbox ++ [{ q := c.outQ, tile := c.doneTile, origin := 6, node := c.node, rep := c.rep }] } else u).collOpEnd c)) ∧
  (∀ (s : State) (core : LCore) (node : Half) (rep : Byte) (peer : Half) (c : Coll) (w : CollTx),
      (s.col.colls.find? (fun c => c.core == core.val && c.node == node.toNat && c.rep % 256 == rep.toNat) = some c) →
      c.txOf 0 peer.toNat = some w →
      exec (.collectResendTimeout core node rep peer) s = .next (if w.sizesSent && !w.sizesSeen && decide (w.sizesAt + s.resendNs ≤ s.time.nowNs) then (State.sendSizes ((c.rx.filter (s.grantOwed c peer.toNat)).foldl (fun st r => (st.sendGrant c.no r.phase peer.toNat).bumpSat fCOL_RESENDS_COUNT) s) c.no peer.toNat).bumpSat fCOL_RESENDS_COUNT else (c.rx.filter (s.grantOwed c peer.toNat)).foldl (fun st r => (st.sendGrant c.no r.phase peer.toNat).bumpSat fCOL_RESENDS_COUNT) s))

/-- A good TOD_RECORD is accepted with its fields; a PPS edge in its window after a record sets unset fabric time to that second; 1.5 s without a valid edge clears PPS_OK;
losing the only good source while LOCKED goes to HOLDOVER with a record, and after HOLDOVER_S to FREE with READY.FTIME cleared and the alert; SOURCE with fields in range
sets the sources; STEP with no sub-port in use moves the count by the signed offset; ASYM sets a port's asymmetry. -/
def Obligations.TimeReferencesAndState : Prop :=
  (∀ (s : State) (rec : List Byte),
      rec.length = 16 ∧ recNat rec 12 4 = crc32c (rec.take 12) ∧ recBits rec 8 1 7 2 = 0 ∧ recNat rec 9 3 = 0 ∧ recBits rec 8 1 0 0 = 1 →
      exec (.todRecordWrite rec) s = .next ((((s.setF fTIME_STATUS_TOD_OK 1).setF fTIME_TOD_UTC_OFFSET (recNat rec 6 2)).setF fTIME_TOD_LEAP_PENDING (recBits rec 8 1 1 1)).setSteer { s.steer with tod := some (recNat rec 0 6, s.time.nowNs), firstEdge := true })) ∧
  (∀ (s : State) (sec : Nat) (t : State),
      s.steer.firstEdge = true ∧ s.todNow = some sec ∧ s.timeState = 0 →
      t = (s.setF fTIME_STATUS_PPS_OK 1).setSteer { s.steer with ppsAt := some s.time.nowNs, firstEdge := false } →
      exec .ppsEdge s = .next (((({ t with time := { t.time with ft := 1000000000 * sec, ftFrac := 0 } } : State).setTimeState 1).setSteer { t.steer with tod := none, good := 0 }).sourceCheck)) ∧
  (∀ (s : State) (t : Nat),
      s.steer.ppsAt = some t ∧ s.isSet fTIME_STATUS_PPS_OK = true ∧ t + 1500000000 ≤ s.time.nowNs →
      exec .ppsTimeout s = .next ((s.setF fTIME_STATUS_PPS_OK 0).bumpSat fTIME_EVENTS_PPS_MISSED)) ∧
  (∀ (s : State) (t : State),
      (s.timeState = 2 ∧ s.sourceGood (if s.isSet fTIME_STATUS_ON_SECONDARY then s.secondary else s.primary) = false) →
      s.source = .none →
      t = ((s.bumpSat fTIME_EVENTS_LOCK_LOSS).setTimeState 3).timeRec 2 1 0 0 →
      exec .timeSourceLoss s = .next (t.setSteer { t.steer with holdAt := s.time.nowNs })) ∧
  (∀ (s : State),
      s.timeState = 3 ∧ s.steer.holdAt + 1000000000 * (s.getF fTIME_SOURCE_HOLDOVER_S) ≤ s.time.nowNs →
      exec .holdoverTimeout s = .next (((s.setTimeState 4).setF fTOP_READY_FTIME 0).setF fTOP_ALERT_TIME_FREE 1)) ∧
  (∀ (s : State) (sq : RingNo) (f : InFlight) (d : List Byte),
      s.nextCmd sq.toNat 0x6D = some f →
      recNat f.desc 8 1 = 0 →
      d = f.desc ∧ recNat d 9 1 ≠ 3 ∧ recNat d 12 1 ≠ 3 ∧ recNat d 10 1 < 34 ∧ recNat d 13 1 < 34 →
      (recNat d 11 1 = 0xFF ∨ recNat d 11 1 < 16) ∧ (recNat d 14 1 = 0xFF ∨ recNat d 14 1 < 16) ∧ 1 ≤ recNat d 15 1 ∧ recNat d 15 1 ≤ 60 →
      exec (.source sq) s = .next (((((((((s.setF fTIME_SOURCE_PRI_KIND (recNat d 9 1)).setF fTIME_SOURCE_PRI_PORT (recNat d 10 1)).setF fTIME_SOURCE_PRI_SUB (recNat d 11 1 % 16)).setF fTIME_SOURCE_SEC_KIND (recNat d 12 1)).setF fTIME_SOURCE_SEC_PORT (recNat d 13 1)).setF fTIME_SOURCE_SEC_SUB (recNat d 14 1 % 16)).setF fTIME_SOURCE_HOLDOVER_S (recNat d 15 1)).setSteer { s.steer with good := 0, ppsThetas := [] }).sourceCheck.finish f 0xC0 [])) ∧
  (∀ (s : State) (sq : RingNo) (f : InFlight),
      s.nextCmd sq.toNat 0x6D = some f →
      recNat f.desc 8 1 = 1 →
      s.ftSet = true ∧ s.portsUp = false →
      exec (.step sq) s = .next (((((({ s with time := { s.time with ft := (s.time.ft + recNat f.desc 16 8) % 2 ^ 64 } } : State).setSteer { s.steer with ppsThetas := [] }).dropAllKeys).setTimeState 1).setF fTIME_STATUS_TIME_FAR 0).finish f 0xC0 [])) ∧
  (∀ (s : State) (sq : RingNo) (f : InFlight),
      s.nextCmd sq.toNat 0x6D = some f →
      recNat f.desc 8 1 = 2 →
      recNat f.desc 9 1 < 34 →
      exec (.asym sq) s = .next ((s.setF (fTIME_PORT_ASYM_ASYM (recNat f.desc 9 1)) (recNat f.desc 10 2)).finish f 0xC0 []))

/-- A sub-port that exchanges timestamps sends ECHO_REQ when its gap has passed, bound to a codeword number; an ECHO_REQ is answered 15 ns or more after t2; an ECHO_RSP gives
an offset and a round trip for the filter. A gate boundary shows the entry in force, a pending schedule takes over at its time, GATE_WRITE loads it. PAUSE pauses the
classes it names, ends with its duration, and after 10 ms without a break is cleared, ignored for 100 ms, counted and recorded. -/
def Obligations.TimeExchangeGatesAndPauses : Prop :=
  (∀ (s : State) (port : Port) (sub : Sub) (u : SubPort),
      s.echoing port.val sub.val = true ∧ u = s.sub port.val sub.val →
      (u.echoAt + (if u.state = 3 then 1000 else 64000) ≤ s.linkClock) →
      exec (.echoReqSend port sub) s = .next (s.setSub port.val sub.val { u with echoAt := s.linkClock, echoes := (u.echoes.filter fun t => decide (s.linkClock < t + 60000)) ++ [noTime (s.echoNo port.val sub.val s.linkClock)], ctlAt := u.ctlAt ++ [(s.echoNo port.val sub.val s.linkClock, (0x06 : Byte) :: leBytes 8 (noTime (s.echoNo port.val sub.val s.linkClock)))] })) ∧
  (∀ (s : State) (port : Port) (sub : Sub) (b : List Byte) (t : State),
      s.takeType port.val sub.val 0x06 = some (b, t) →
      (t.sub port.val sub.val).state = 3 →
      exec (.echoReqReceive port sub) s = .next (t.modSub port.val sub.val fun u => { u with ctlAt := u.ctlAt ++ [(t.echoNo port.val sub.val (s.clockRounded + 15), [0x07] ++ leBytes 8 s.clockRounded ++ leBytes 8 (noTime (t.echoNo port.val sub.val (s.clockRounded + 15))))] })) ∧
  (∀ (s : State) (port : Port) (sub : Sub) (frac : Half) (b : List Byte) (t : State) (t1 : Nat) (rest : List Nat) (l : List Int) (u : SubPort),
      s.takeType port.val sub.val 0x07 = some (b, t) →
      u = t.sub port.val sub.val ∧ u.echoes = t1 :: rest ∧ l = (s.echoTheta port.val b t1 frac.toNat :: u.thetas).take 16 →
      exec (.echoRspReceive port sub frac) s = .next ((State.useOffset (t.setSub port.val sub.val { u with echoes := rest, thetas := l, rtts := if u.rtts.length < 16 then u.rtts ++ [s.echoRtt b t1 frac.toNat] else u.rtts }) port.val sub.val (Config.offsetFilter l)).endIdent port.val sub.val)) ∧
  (∀ (s : State) (port : Port),
      s.ftSet = true →
      exec (.gateEntryBoundary port) s = .next (s.showGate port.val)) ∧
  (∀ (s : State) (port : Port) (g : Gate),
      (s.port port.val).nextGate = some g ∧ g.takeover ≤ s.time.ft →
      exec (.gateTakeover port) s = .next ((s.modPort port.val fun v => { v with gate := g, nextGate := none }).showGate port.val)) ∧
  (∀ (s : State) (sq : RingNo) (data : Option (List Byte)) (f : InFlight) (u : State) (b : List Byte) (g : Gate),
      s.nextCmd sq.toNat 0x6E = some f →
      recNat f.desc 8 1 < 34 ∧ 125 ≤ recNat f.desc 12 4 ∧ recNat f.desc 12 4 ≤ 128000 ∧ s.ftSet = true →
      s.hostGet f (recNat f.desc 32 8) 256 data = (u, some b) →
      (((List.range 64).any fun i => recBits b (4 * i) 4 26 17 != 0) = false ∧ g = newGate f.desc b s.time.ft) →
      exec (.gateWrite sq data) s = .next ((((u.modPort (recNat f.desc 8 1) fun v => { v with nextGate := some g }).showGate (recNat f.desc 8 1)).setF (fTIME_GATE_LATE (recNat f.desc 8 1)) (decide (g.activateAt < s.time.ft)).toNat).finish f 0xC0 [])) ∧
  (∀ (s : State) (port : Port) (sub : Sub) (c : Cell) (t u : State),
      s.takeLink port.val sub.val 2 = some (c, t) →
      (u = (if recBits c.payload 0 1 0 0 = 1 then t.bumpSat fTIME_EVENTS2_PAUSE_K_IGNORED else t)) →
      (((u.sub port.val sub.val).ignoreUntil.any fun t => decide (s.time.nowNs < t)) = false) →
      exec (.pauseReceive port sub) s = .next (u.setSub port.val sub.val ((u.sub port.val sub.val).takePause s.time.nowNs c.payload))) ∧
  (∀ (s : State) (port : Port) (sub : Sub),
      exec (.pauseExpire port sub) s = .next (s.modSub port.val sub.val fun u => { u with paused := u.paused.filter fun e => decide (s.time.nowNs < e.2.1) })) ∧
  (∀ (s : State) (port : Port) (sub : Sub),
      (((s.sub port.val sub.val).paused.any fun e => decide (s.time.nowNs < e.2.1) && decide (e.2.2 + 10000000 ≤ s.time.nowNs)) = true) →
      exec (.pauseAbuseTimeout port sub) s = .next ((((s.modSub port.val sub.val fun u => { u with paused := [], ignoreUntil := some (s.time.nowNs + 100000000) }).bumpSat fTIME_EVENTS2_PAUSE_ABUSE).fabricRec (Config.free s.freeCtr) 0 0 7 (s.portUnit port.val sub.val)).drew)) ∧
  (∀ (s : State) (port : Port) (sub : Sub),
      exec (.pauseIgnoreEnd port sub) s = .next (s.modSub port.val sub.val fun u => { u with ignoreUntil := u.ignoreUntil.filter fun t => decide (s.time.nowNs < t) })) ∧
  (∀ (s : State) (sq : RingNo) (f : InFlight),
      s.nextCmd sq.toNat 0x6D = some f →
      recNat f.desc 8 1 = 3 →
      recNat f.desc 9 1 < 34 ∧ (recNat f.desc 10 1 = 0xFF ∨ recNat f.desc 10 1 < 16) ∧ recNat f.desc 11 1 < 64 →
      exec (.pause sq) s = .next ((s.sendPauses (recNat f.desc 9 1) (recNat f.desc 10 1) (recNat f.desc 11 1) (recNat f.desc 12 2)).finish f 0xC0 []))

/-- An entry that is due, its target ready and not late, does what its kind says and then ends or moves on by its period: SWING begins from T_s minus HOLD and stays until
T_s, STEP_START starts the slice's earliest queued step, THERMAL_SYNC, INJECT of a plan that may start, PAUSE_SEND on its sub-ports. A late one is counted and performed
at once, a late SWING is recorded and not performed; one whose target is not ready is counted as skipped. ACTION_WRITE writes its entries. -/
def Obligations.TimedActionsComplete : Prop :=
  (∀ (s : State) (entry : Fin 256) (e : List Byte),
      s.actNow entry.val = some e →
      actKind e = 1 ∧ s.actReady e = true ∧ s.actLate e = false →
      exec (.swing entry) s = .next (if (s.swingAct (s.actPort e) (actPreset e) (actTime e)).actBegun e then s.swingAct (s.actPort e) (actPreset e) (actTime e) else (s.swingAct (s.actPort e) (actPreset e) (actTime e)).actNext entry.val e)) ∧
  (∀ (s : State) (entry : Fin 256) (e : List Byte),
      s.actNow entry.val = some e →
      actKind e = 2 ∧ s.actReady e = true ∧ s.actLate e = false →
      exec (.stepStart entry) s = .next ((s.actStepStart (recNat e 20 2) (actTime e)).actNext entry.val e)) ∧
  (∀ (s : State) (entry : Fin 256) (e : List Byte),
      s.actNow entry.val = some e →
      actKind e = 3 ∧ s.actReady e = true ∧ s.actLate e = false →
      exec (.thermalSyncAction entry) s = .next (s.thermSync.actNext entry.val e)) ∧
  (∀ (s : State) (entry : Fin 256) (e : List Byte),
      s.actNow entry.val = some e →
      actKind e = 4 ∧ s.actReady e = true ∧ s.actLate e = false →
      s.mayStart (recNat e 20 1) = true →
      exec (.inject entry) s = .next ((s.startPlan (recNat e 20 1)).actNext entry.val e)) ∧
  (∀ (s : State) (entry : Fin 256) (e : List Byte),
      s.actNow entry.val = some e →
      actKind e = 5 ∧ s.actReady e = true ∧ s.actLate e = false →
      exec (.pauseSend entry) s = .next ((s.sendPauses (s.actPort e) (recNat e 21 1) (recNat e 22 1) (recNat e 24 2)).actNext entry.val e)) ∧
  (∀ (s : State) (entry : Fin 256) (e : List Byte),
      s.actNow entry.val = some e →
      s.actReady e = true ∧ s.actLate e = true →
      exec (.actionLate entry) s = .next ((if actKind e = 1 then (s.bumpSat fTIME_EVENTS_ACTIONS_LATE).timeRec 3 1 ((s.time.ft - s.actDue e : Nat) : Int) entry.val else (s.bumpSat fTIME_EVENTS_ACTIONS_LATE).actFire e s.time.ft).actNext entry.val e)) ∧
  (∀ (s : State) (entry : Fin 256) (e : List Byte),
      s.actNow entry.val = some e →
      s.actReady e = false →
      exec (.actionSkipped entry) s = .next ((if actKind e = 1 then (s.bumpSat fTIME_EVENTS_ACTIONS_SKIPPED).bumpSat (fLNK_EVENTS_SWINGS_FAILED (s.actPort e)) else s.bumpSat fTIME_EVENTS_ACTIONS_SKIPPED).actNext entry.val e)) ∧
  (∀ (s : State) (sq : RingNo) (data : List Byte) (f : InFlight) (i n : Nat),
      s.nextCmd sq.toNat 0x6F = some f →
      i = recNat f.desc 8 1 ∧ n = recNat f.desc 10 2 ∧ 0 < n ∧ i + n ≤ 256 ∧ s.ftSet = true →
      exec (.actionWrite sq data) s = .next (s.tableWrite f i n 32 0xC0 0xC1 0xC4 data actGood State.writeAction))

/-- INJECT_PLAN loads a plan whose entries are in range and in order; INJECT_START starts a loaded plan that does not run, with a record, and returns fabric time;
INJECT_CANCEL ends the injections of the plans it names. A due injection of each kind that no interlock stops is counted as fired and takes effect, and the plan goes on
to its next entry or ends; a wavelength drop whose time is over is lit again. -/
def Obligations.LoadTestUnitCompletes : Prop :=
  (∀ (s : State) (sq : RingNo) (data : Option (List Byte)) (f : InFlight) (u w : State) (d : List Byte) (k : Nat),
      s.nextCmd sq.toNat 0x77 = some f →
      k = recNat f.desc 8 1 ∧ k < 16 ∧ s.isSet fINJ_CFG_ENABLE = true ∧ s.planRuns k = false →
      s.hostGet f (recNat f.desc 16 8) 256 data = (u, some d) →
      (planOk ((List.range 16).map fun i => byteField d (16 * i) 16) 0 = true) →
      (w = (List.range 64).foldl (fun st w => st.setF (fINJ_PLAN_WORD k w) (recNat d (4 * w) 4)) u) →
      exec (.injectPlan sq data) s = .next ((w.setF fINJ_STATUS_LOADED (putBits (w.getF fINJ_STATUS_LOADED) k k 1)).finish f 0xE0 [])) ∧
  (∀ (s : State) (sq : RingNo) (f : InFlight) (k : Nat),
      s.nextCmd sq.toNat 0x78 = some f →
      k = recNat f.desc 8 1 ∧ k < 16 ∧ s.isSet fINJ_CFG_ENABLE = true ∧ (s.getF fINJ_STATUS_LOADED).testBit k = true ∧ s.planRuns k = false →
      exec (.injectStart sq) s = .next ((State.injRec ((s.setFaults { s.faults with plans := s.faults.plans ++ [⟨k, s.time.nowNs, 0⟩] }).setActive k true) 1 k 0).finish f 0xE0 (leBytes 8 s.ftOrZero))) ∧
  (∀ (s : State) (sq : RingNo) (f : InFlight),
      s.nextCmd sq.toNat 0x79 = some f →
      recNat f.desc 8 1 < 16 ∨ recNat f.desc 8 1 = 0xFF →
      exec (.injectCancel sq) s = .next (((if recNat f.desc 8 1 = 0xFF then List.range 16 else [recNat f.desc 8 1]).foldl State.cancelPlan s).finish f 0xE0 [])) ∧
  (∀ (s : State) (port : Port) (chan : Chan) (u : State),
      u = s.relight (s.faults.injections.filter (·.darkOver port.val chan.val s.time.nowNs)) →
      exec (.wavelengthDropEnd port chan) s = .next (u.setInjections (u.faults.injections.filter fun j => !j.darkOver port.val chan.val s.time.nowNs))) ∧
  (∀ (s : State) (plan : Fin 16) (r : PlanRun) (e : List Byte) (u : State),
      s.faults.plans.find? (·.plan == plan.val) = some r →
      e = s.planEntry plan.val r.next ∧ entKind e = 1 ∧ r.startAt + 1000 * (entOffset e) ≤ s.time.nowNs →
      u = s.planNext plan.val →
      u.injSkip 1 (entA e) (entB e) false = false →
      exec (.wavelengthDrop plan) s = .next (((u.bumpSat fINJ_COUNTS_FIRED).injFire plan.val r.next e).endPlan plan.val (r.next + 1))) ∧
  (∀ (s : State) (plan : Fin 16) (excess : Bool) (r : PlanRun) (e : List Byte) (u : State),
      s.faults.plans.find? (·.plan == plan.val) = some r →
      e = s.planEntry plan.val r.next ∧ entKind e = 2 ∧ r.startAt + 1000 * (entOffset e) ≤ s.time.nowNs →
      u = s.planNext plan.val →
      u.injSkip 2 (entA e) (entB e) excess = false →
      exec (.codewordCorrupt plan excess) s = .next (((u.bumpSat fINJ_COUNTS_FIRED).injFire plan.val r.next e).endPlan plan.val (r.next + 1))) ∧
  (∀ (s : State) (plan : Fin 16) (r : PlanRun) (e : List Byte) (u : State),
      s.faults.plans.find? (·.plan == plan.val) = some r →
      e = s.planEntry plan.val r.next ∧ entKind e = 3 ∧ r.startAt + 1000 * (entOffset e) ≤ s.time.nowNs →
      u = s.planNext plan.val →
      u.injSkip 3 (entA e) (entB e) false = false →
      exec (.hbmCe plan) s = .next (((u.bumpSat fINJ_COUNTS_FIRED).injFire plan.val r.next e).endPlan plan.val (r.next + 1))) ∧
  (∀ (s : State) (plan : Fin 16) (r : PlanRun) (e : List Byte) (u : State),
      s.faults.plans.find? (·.plan == plan.val) = some r →
      e = s.planEntry plan.val r.next ∧ entKind e = 4 ∧ r.startAt + 1000 * (entOffset e) ≤ s.time.nowNs →
      u = s.planNext plan.val →
      u.injSkip 4 (entA e) (entB e) false = false →
      exec (.hbmPoison plan) s = .next (((u.bumpSat fINJ_COUNTS_FIRED).injFire plan.val r.next e).endPlan plan.val (r.next + 1))) ∧
  (∀ (s : State) (plan : Fin 16) (r : PlanRun) (e : List Byte) (u : State),
      s.faults.plans.find? (·.plan == plan.val) = some r →
      e = s.planEntry plan.val r.next ∧ entKind e = 5 ∧ r.startAt + 1000 * (entOffset e) ≤ s.time.nowNs →
      u = s.planNext plan.val →
      u.injSkip 5 (entA e) (entB e) false = false →
      exec (.stationHang plan) s = .next (((u.bumpSat fINJ_COUNTS_FIRED).injFire plan.val r.next e).endPlan plan.val (r.next + 1))) ∧
  (∀ (s : State) (plan : Fin 16) (r : PlanRun) (e : List Byte) (u : State),
      s.faults.plans.find? (·.plan == plan.val) = some r →
      e = s.planEntry plan.val r.next ∧ entKind e = 6 ∧ r.startAt + 1000 * (entOffset e) ≤ s.time.nowNs →
      u = s.planNext plan.val →
      u.injSkip 6 (entA e) (entB e) false = false →
      exec (.sensor plan) s = .next (((u.bumpSat fINJ_COUNTS_FIRED).injFire plan.val r.next e).endPlan plan.val (r.next + 1))) ∧
  (∀ (s : State) (plan : Fin 16) (r : PlanRun) (e : List Byte) (u : State),
      s.faults.plans.find? (·.plan == plan.val) = some r →
      e = s.planEntry plan.val r.next ∧ entKind e = 7 ∧ r.startAt + 1000 * (entOffset e) ≤ s.time.nowNs →
      u = s.planNext plan.val →
      u.injSkip 7 (entA e) (entB e) false = false →
      exec (.hkStopInject plan) s = .next (((u.bumpSat fINJ_COUNTS_FIRED).injFire plan.val r.next e).endPlan plan.val (r.next + 1)))

/-- With no domain in recovery that overlaps the one named, RESET_REQUEST at level 2 (a station instance or a core), 3 (a span) or 4 (the compute dies) opens a recovery
window and starts the reset of its level; the end of a reset completes it and the requests it answers; windows that have run out close; RESET_RELEASE lets a held span, or
the held compute dies, run again and completes with 0xE0. -/
def Obligations.ResetsComplete : Prop :=
  (∀ (s : State) (sq : RingNo) (f : InFlight) (d : Domain),
      s.nextCmd sq.toNat 0x70 = some f →
      recNat f.desc 8 1 = 2 ∧ recNat f.desc 10 1 < 128 ∧ recBits f.desc 9 1 1 0 = 0 →
      recNat f.desc 11 1 = 0xFF ∧ d = .core (recNat f.desc 10 1) ∨ recNat f.desc 11 1 ≠ 0xFF ∧ instNamed (recNat f.desc 11 1) = true ∧ d = .inst (recNat f.desc 10 1) (recNat f.desc 11 1) →
      ((s.openWindows.filter fun w => w.doms.any (·.overlaps d)).isEmpty = true) →
      exec (.l2 sq) s = .next (((s.startFlight f 2 0).openWindow 2 0 [d]).startReset 2 [d] 2 false false [f.no] false)) ∧
  (∀ (s : State) (sq : RingNo) (f : InFlight),
      s.nextCmd sq.toNat 0x70 = some f →
      recNat f.desc 8 1 = 3 ∧ recNat f.desc 10 1 < 8 ∧ recNat f.desc 11 1 = 0 →
      ((s.openWindows.filter fun w => w.doms.any (·.overlaps (.span (recNat f.desc 10 1)))).isEmpty = true) →
      exec (.l3 sq) s = .next (((s.startFlight f 3 0).openWindow 3 0 [.span (recNat f.desc 10 1)]).startReset 3 [.span (recNat f.desc 10 1)] 3 (recBits f.desc 9 1 1 1 == 1) (recBits f.desc 9 1 0 0 == 1) [f.no] false)) ∧
  (∀ (s : State) (sq : RingNo) (f : InFlight),
      s.nextCmd sq.toNat 0x70 = some f →
      recNat f.desc 8 1 = 4 ∧ recNat f.desc 10 1 = 0 ∧ recNat f.desc 11 1 = 0 →
      s.faults.l5Hold = false →
      ((s.openWindows.filter fun w => w.doms.any (·.overlaps .device)).isEmpty = true) →
      exec (.l4 sq) s = .next (((s.startFlight f 4 0).openWindow 4 0 [.device]).startReset 4 [.device] 4 (recBits f.desc 9 1 1 1 == 1) (recBits f.desc 9 1 0 0 == 1) [f.no] false)) ∧
  (∀ (s : State) (ix : Fin 64) (r : ResetRun),
      s.faults.resets[ix.val]? = some r →
      r.entered = true →
      exec (.resetComplete ix) s = .next (s.completeReset r)) ∧
  (∀ (s : State),
      exec .recoveryWindowEnd s = .next (s.setFaults { s.faults with windows := s.openWindows })) ∧
  (∀ (s : State) (sq : RingNo) (f : InFlight),
      s.nextCmd sq.toNat 0x71 = some f →
      recNat f.desc 8 1 = 3 ∧ recBits f.desc 10 1 7 0 < 8 →
      s.faults.heldSpans.contains (recBits f.desc 10 1 7 0) = true →
      exec (.resetRelease sq) s = .next (State.finish (State.showReset (State.spanUp (s.setFaults { s.faults with heldSpans := s.faults.heldSpans.filter (· != recBits f.desc 10 1 7 0) }) (recBits f.desc 10 1 7 0))) f 0xE0 []))

/-- CORE_SWAP onto a healthy unmapped core of the span moves the logical core and completes with 0xE0; CORE_TEST of such a core starts the test, whose end leaves the
scratchpad undefined and marks the core TESTED or FAILED; CORE_RETIRE of an unmapped core marks it FAILED and answers 0xFF; a span's OLDEST_H shows the longest wait of
its spares; LOG_READ with no record to return answers the next SEQ and counts. -/
def Obligations.SpareCoresAndLog : Prop :=
  (∀ (s : State) (sq : RingNo) (f : InFlight) (c p : Nat),
      s.nextCmd sq.toNat 0x72 = some f →
      recNat f.desc 8 1 = c ∧ recNat f.desc 9 1 = p ∧ c < 128 ∧ p < 144 ∧ p / 18 = c / 16 →
      (s.logOf p).isSome = false ∧ s.coreFailed p = false →
      s.coreInUse c = false ∧ s.faults.testing.contains p = false →
      exec (.coreSwap sq) s = .next (State.finish ((s.moveCore c (some p)).spareRec 1 p ((s.physOf c).getD 0xFF) p) f 0xE0 [])) ∧
  (∀ (s : State) (sq : RingNo) (f : InFlight) (p : Nat),
      s.nextCmd sq.toNat 0x73 = some f →
      recNat f.desc 9 1 = p ∧ p < 144 →
      (s.logOf p).isSome = false ∧ s.coreFailed p = false ∧ s.faults.testing.contains p = false →
      exec (.coreTest sq) s = .next (State.startFlight (s.setFaults { s.faults with testing := insNat p s.faults.testing }) f p 0)) ∧
  (∀ (s : State) (core : PCore) (pass : Bool) (t : State) (f : InFlight),
      s.faults.testing.contains core.val = true →
      (t = (if pass then (State.setTested ((s.setFaults { s.faults with testing := s.faults.testing.filter (· != core.val) }).forgetSpad core.val) core.val true).coreUsed core.val else (State.markFailed ((s.setFaults { s.faults with testing := s.faults.testing.filter (· != core.val) }).forgetSpad core.val) core.val).spareRec 3 core.val core.val core.val)) →
      (t.host.flights.find? (fun f => f.opcode == 0x73 && f.stage == .started && f.a == core.val) = some f) →
      exec (.coreTestDone core pass) s = .next (t.finish f (if pass then 0xE0 else 0xE4) (leBytes 1 pass.toNat))) ∧
  (∀ (s : State) (sq : RingNo) (f : InFlight),
      s.nextCmd sq.toNat 0x74 = some f →
      recNat f.desc 9 1 < 144 →
      s.logOf (recNat f.desc 9 1) = none →
      s.faults.testing.contains (recNat f.desc 9 1) = false →
      exec (.coreRetire sq) s = .next (State.finish ((s.markFailed (recNat f.desc 9 1)).spareRec 2 (recNat f.desc 9 1) (recNat f.desc 9 1) 0xFF) f 0xE0 [0xFF])) ∧
  (∀ (s : State) (span : SpanIx),
      s.isSet (fSPN_SPARE_ROTATE_DUE span.val) = true →
      exec (.spareRotateDue span) s = .next (s.setF (fSPN_SPARE_OLDEST_H span.val) (min 65535 ((s.spareAges span.val).foldl (fun a e => max a e.2) 0 / 3600000000000)))) ∧
  (∀ (s : State) (sq : RingNo) (ok : Bool) (f : InFlight) (want : List (List Byte)),
      s.nextCmd sq.toNat 0x76 = some f →
      (want = (if recNat f.desc 12 4 = 0xFFFFFFFF then s.log.inOrder (recBits f.desc 8 1 0 0 == 1) else (s.log.inOrder (recBits f.desc 8 1 0 0 == 1)).dropWhile fun r => logGood r && decide (recNat r 0 4 < recNat f.desc 12 4))) →
      want.filter logGood = [] →
      exec (.logRead sq ok) s = .next (s.finish f 0xE0 (leBytes 4 0 ++ leBytes 4 (s.getF fTOP_LOG_NEXT_SEQ) ++ leBytes 4 want.length)))

/-- On a live transport that has negotiated far enough: GET_VERSION restarts the negotiation and answers 1.3; GET_CAPABILITIES and NEGOTIATE_ALGORITHMS go on with it;
GET_DIGESTS, GET_CERTIFICATE of slot 0, CHALLENGE, GET_MEASUREMENTS and KEY_EXCHANGE answer from the device's chain, measurements and key; FINISH opens the session or
ends it; HEARTBEAT, KEY_UPDATE and END_SESSION work in an open session; IDE_KM secures a stream of its link; DOE discovery lists the mailbox's protocols. -/
def Obligations.SpdmResponderAnswers : Prop :=
  (∀ (s : State) (chan : Fin 5),
      s.chanLive chan.val = true →
      exec (.getVersion chan) s = .next ((s.setSpdm chan.val 1).answer chan.val (0x04, [1, 0, 0x13]))) ∧
  (∀ (s : State) (chan : Fin 5),
      s.chanLive chan.val = true ∧ 1 ≤ s.spdmDone chan.val →
      exec (.getCapabilities chan) s = .next ((s.setSpdm chan.val (max 2 (s.spdmDone chan.val))).answer chan.val (0x61, []))) ∧
  (∀ (s : State) (chan : Fin 5) (offered : Bool),
      s.chanLive chan.val = true ∧ 2 ≤ s.spdmDone chan.val →
      exec (.negotiateAlgorithms chan offered) s = .next (if offered then (s.setSpdm chan.val 3).answer chan.val (0x63, []) else s.answer chan.val (spdmErr errInvalid))) ∧
  (∀ (s : State) (chan : Fin 5),
      s.chanLive chan.val = true ∧ 3 ≤ s.spdmDone chan.val →
      exec (.getDigests chan) s = .next (s.answer chan.val (0x01, (1 : Byte) :: digest Config.identityChain))) ∧
  (∀ (s : State) (chan : Fin 5) (slot : Byte) (offset length : Half),
      s.chanLive chan.val = true ∧ 3 ≤ s.spdmDone chan.val →
      exec (.getCertificate chan slot offset length) s = .next (if slot.toNat ≠ 0 ∨ (Config.identityChain.take 4000).length ≤ offset.toNat then s.answer chan.val (spdmErr errInvalid) else s.answer chan.val (0x02, leBytes 2 (((Config.identityChain.take 4000).drop offset.toNat).take length.toNat).length ++ leBytes 2 ((Config.identityChain.take 4000).length - offset.toNat - (((Config.identityChain.take 4000).drop offset.toNat).take length.toNat).length) ++ ((Config.identityChain.take 4000).drop offset.toNat).take length.toNat))) ∧
  (∀ (s : State) (chan : Fin 5) (slot : Byte) (nonce : List Byte),
      s.chanLive chan.val = true ∧ 3 ≤ s.spdmDone chan.val →
      s.keyBlocked = false ∧ slot.toNat = 0 →
      exec (.challenge chan slot nonce) s = .next ((s.answer chan.val (0x03, (digest Config.identityChain ++ s.random 32) ++ s.signed (nonce ++ (digest Config.identityChain ++ s.random 32)))).drew)) ∧
  (∀ (s : State) (chan : Fin 5) (sign : Bool) (index : Byte) (nonce : List Byte),
      s.chanLive chan.val = true ∧ 3 ≤ s.spdmDone chan.val →
      sign = false ∧ 1 ≤ index.toNat ∧ index.toNat ≤ 10 →
      exec (.getMeasurements chan sign index nonce) s = .next ((s.answer chan.val (0x60, (1 : Byte) :: s.measBlock index.toNat ++ s.random 32)).drew)) ∧
  (∀ (s : State) (chan : Fin 5) (slot : Byte) (share : List Byte),
      s.chanLive chan.val = true ∧ 3 ≤ s.spdmDone chan.val →
      s.keyBlocked = false ∧ slot.toNat = 0 ∧ s.sec.sessions.length < 4 →
      exec (.keyExchange chan slot share) s = .next (((s.setSec { s.sec with sessions := s.sec.sessions ++ [⟨s.sec.nextSession, chan.val, false, 0, 0⟩], nextSession := s.sec.nextSession + 1 }).answer chan.val (0x64, (leBytes 2 s.sec.nextSession ++ s.random 128) ++ s.signed (share ++ (leBytes 2 s.sec.nextSession ++ s.random 128)))).drew)) ∧
  (∀ (s : State) (chan : Fin 5) (session : Half) (verified : Bool) (v : SpdmSession),
      s.chanLive chan.val = true →
      s.session chan.val session.toNat = some v ∧ v.open' = false →
      exec (.finish chan session verified) s = .next (if verified then (s.modSession session.toNat fun v => { v with open' := true }).answer chan.val (0x65, []) else (s.dropSession session.toNat).answer chan.val (spdmErr errDecrypt))) ∧
  (∀ (s : State) (chan : Fin 5) (session : Half) (v : SpdmSession),
      s.chanLive chan.val = true →
      s.session chan.val session.toNat = some v ∧ v.open' = true →
      exec (.heartbeat chan session) s = .next (s.answer chan.val (0x68, []))) ∧
  (∀ (s : State) (chan : Fin 5) (session : Half) (op : Fin 3) (v : SpdmSession),
      s.chanLive chan.val = true →
      s.session chan.val session.toNat = some v ∧ v.open' = true →
      exec (.keyUpdate chan session op) s = .next ((s.modSession session.toNat fun v => { v with reqKey := if op.val = 2 then v.reqKey else v.reqKey + 1, rspKey := if op.val = 1 then v.rspKey + 1 else v.rspKey }).answer chan.val (0x69, leBytes 1 (op.val + 1)))) ∧
  (∀ (s : State) (chan : Fin 5) (session : Half) (v : SpdmSession),
      s.chanLive chan.val = true →
      s.session chan.val session.toNat = some v ∧ v.open' = true →
      exec (.endSession chan session) s = .next ((s.answer chan.val (0x6C, [])).dropSession session.toNat)) ∧
  (∀ (s : State) (link : LinkIx) (session : Half) (stream : Fin 5) (v : SpdmSession),
      s.chanLive link.val = true →
      s.session link.val session.toNat = some v ∧ v.open' = true →
      exec (.ideKm link session stream) s = .next (((s.setLink link.val { s.link link.val with ideSecure := insNat stream.val (s.link link.val).ideSecure, failed := false }).setF (fHOST_LINK_IDE_SECURE link.val) 1).answer link.val (0xFE, leBytes 1 stream.val))) ∧
  (∀ (s : State) (link : LinkIx) (index : Byte),
      s.chanLive link.val = true ∧ index.toNat = 1 →
      exec (.doeDiscovery link index) s = .next (s.emit (.spdm link.val 0 [1, 0, 1, 2])))

/-- OWNER_BIND puts the digest of a key into the lowest free bank; OWNER_REVOKE revokes the active bank; OWNER_RELEASE and SVN_ADVANCE set their fuses. DEBUG_CHALLENGE gives
a fresh nonce; a DEBUG_UNLOCK token whose nonce is not valid is refused, counted and recorded with F3; the erase over, the ports of the scope open. LINE_KEY keeps the key
until its codeword number is reached, when it holds. CORE_POWER limits a core's depth; a core idles after 64 cycles, parks after 10 µs, and wakes with RESUME. -/
def Obligations.FusesDebugAndCorePower : Prop :=
  (∀ (s : State) (sq : RingNo) (data : Option (List Byte)) (f : InFlight) (b : Nat) (u : State) (k : List Byte),
      s.nextCmd sq.toNat 0x90 = some f →
      s.isSet fSEC_STATE_OWNER_RELEASED = false →
      ((List.range 4).find? (fun b => (aget s.sec.owners b).isNone) = some b) →
      s.hostGet f (recNat f.desc 16 8) 96 data = (u, some k) →
      exec (.ownerBind sq data) s = .next ((((u.setSec { u.sec with owners := aput u.sec.owners b (digest k) }).showOwner).secRec 6 b 0).finish f 0xF0 (leBytes 1 b))) ∧
  (∀ (s : State) (sq : RingNo) (f : InFlight) (b : Nat),
      s.nextCmd sq.toNat 0x91 = some f →
      s.isSet fSEC_STATE_OWNER_RELEASED = false ∧ s.sec.activeBank = some b →
      exec (.ownerRevoke sq) s = .next ((((s.setSec { s.sec with revoked := insNat b s.sec.revoked }).showOwner).secRec 8 b 0).finish f 0xF0 (leBytes 1 b))) ∧
  (∀ (s : State) (sq : RingNo) (f : InFlight),
      s.nextCmd sq.toNat 0x92 = some f →
      exec (.ownerRelease sq) s = .next (((s.setF fSEC_STATE_OWNER_RELEASED 1).secRec 7 0 0).finish f 0xF0 [])) ∧
  (∀ (s : State) (sq : RingNo) (f : InFlight) (v : Nat),
      s.nextCmd sq.toNat 0x93 = some f →
      recNat f.desc 8 1 = 1 ∧ v = recNat f.desc 9 1 ∧ v ≤ 64 ∧ s.getF fSEC_SVN_SVN_FOOTING ≤ v →
      (((List.range 7).any fun k => s.hkState k == 2 && imgKind (s.hkCore k).image == 1 && decide ((s.hkCore k).svn < v)) = false) →
      exec (.svnAdvance sq) s = .next ((s.setF fSEC_SVN_SVN_FOOTING v).finish f 0xF0 (leBytes 1 v))) ∧
  (∀ (s : State) (sq : RingNo) (ok : Bool) (f : InFlight) (u : State),
      s.nextCmd sq.toNat 0x94 = some f →
      s.getF fDBG_STATE_STATE < 2 →
      s.drew.hostPut f (recNat f.desc 16 8) (s.random 48 ++ deviceDigest) ok = (u, true) →
      exec (.debugChallenge sq ok) s = .next ((((u.setSec { u.sec with nonce := some (s.random 48) }).setF fDBG_STATE_STATE 1).secRec 3 0 0).finish f 0xF0 [])) ∧
  (∀ (s : State) (sq : RingNo) (token : Option (List Byte)) (ptrs : List (RingNo × Bool × Word)) (f : InFlight) (u : State) (t : List Byte),
      s.nextCmd sq.toNat 0x95 = some f →
      s.getF fDBG_STATE_STATE = 1 →
      s.hostGet f (recNat f.desc 16 8) 416 token = (u, some t) →
      tokenShape t = true ∧ u.tokenStale t = false →
      exec (.debugUnlock sq token ptrs) s = .next (if u.tokenSigned t then u.beginErase (recNat t 4 4) ptrs f else u.refuseToken 0xF2 f)) ∧
  (∀ (s : State) (sq : RingNo) (token : Option (List Byte)) (ptrs : List (RingNo × Bool × Word)) (f : InFlight) (u : State) (t : List Byte),
      s.nextCmd sq.toNat 0x95 = some f →
      s.getF fDBG_STATE_STATE = 1 →
      s.hostGet f (recNat f.desc 16 8) 416 token = (u, some t) →
      tokenShape t = true ∧ u.tokenStale t = true →
      exec (.debugUnlock sq token ptrs) s = .next (((((u.setSec { u.sec with nonce := none }).setF fDBG_STATE_STATE 0).bumpSat fDBG_STATE_REFUSED).secRec 5 0xF3 0).finish f 0xF3 [])) ∧
  (∀ (s : State) (t : State),
      (s.getF fDBG_STATE_STATE = 2 ∧ s.faults.resets.any (fun r => decide (4 ≤ r.level)) = false) →
      t = (((s.eraseSrams).setSec { s.sec with opened := true, erasing := none, eraseKeys := [] }).setF fDBG_STATE_STATE 3).setF fDBG_STATE_SCOPE (s.sec.scope % 4) →
      s.sec.erasing = none →
      exec .debugEraseDone s = .next (t)) ∧
  (∀ (s : State) (sq : RingNo) (data : Option (List Byte)) (f : InFlight) (p q : Nat) (u : State) (k : List Byte),
      s.nextCmd sq.toNat 0x96 = some f →
      p = recNat f.desc 8 1 ∧ p < 34 ∧ recNat f.desc 9 1 = 0xFF ∧ q = 0 ∧ (s.port p).split = false ∧ recNat f.desc 10 1 ≠ 0 →
      s.portType p = 2 ∧ (recNat (s.sub p q).peer 8 4).testBit 7 = true →
      s.hostGet f (recNat f.desc 24 8) 64 data = (u, some k) →
      exec (.lineKey sq data) s = .next ((u.modSub p q fun v => { v with nextKey := some ⟨recNat f.desc 10 1, recNat f.desc 12 4, byteField k 0 32, byteField k 32 32, recNat f.desc 16 8⟩ }).finish f 0xF0 [])) ∧
  (∀ (s : State) (port : Port) (sub : Sub) (k : LineKey),
      (s.sub port.val sub.val).nextKey = some k ∧ noReached (s.sub port.val sub.val).nextNo k.activateAt = true →
      exec (.lineKeyActivate port sub) s = .next ((s.setSub port.val sub.val { s.sub port.val sub.val with key := some k, nextKey := none }).showKey port.val)) ∧
  (∀ (s : State) (sq : RingNo) (f : InFlight) (c v : Nat),
      s.nextCmd sq.toNat 0x97 = some f →
      c = recNat f.desc 8 1 ∧ v = recNat f.desc 9 1 ∧ (c < 128 ∨ c = 0xFF) ∧ (v = 0 ∨ v = 2 ∨ v = 3) →
      exec (.corePower sq) s = .next (((if c = 0xFF then List.range 128 else [c]).foldl (fun st k => st.modCore k fun x => { x with deepest := v }) s).finish f 0xF0 [])) ∧
  (∀ (s : State) (core : LCore),
      (s.coreSt core.val).power = 0 ∧ (s.physOf core.val).isSome = true ∧ s.coreRuns core.val = false ∧ (s.coreSt core.val).usedCyc + 64 ≤ s.cycOf core.val →
      exec (.coreIdleEnter core) s = .next (s.modCore core.val fun x => { x with power := 1 })) ∧
  (∀ (s : State) (core : LCore),
      (s.coreSt core.val).power = 1 ∧ 2 ≤ (s.coreSt core.val).deepest ∧ (s.coreSt core.val).usedAt + 10000 ≤ s.time.nowNs ∧ s.coreRuns core.val = false ∧ s.coreAwaited core.val = false →
      exec (.corePark core) s = .next ((s.trace core.val { event := 9, arg0 := (s.coreSt core.val).deepest }).modCore core.val fun v => { v with power := v.deepest, waking := none })) ∧
  (∀ (s : State) (core : LCore) (t : Nat),
      (s.coreSt core.val).waking = some t ∧ (s.coreSt core.val).power = 2 →
      exec (.coreWakeDone core) s = .next ((s.modCore core.val fun v => { v with power := 0, waking := none, usedAt := s.time.nowNs, usedCyc := s.cycOf core.val }).trace core.val { event := 0x0A, arg0 := 2, arg1 := s.time.nowNs - t }))
end

