-- ==== Sys2Proof/Laws/Assoc.lean ====
section
/-! SUPPORT. What the operations on sparse tables keep and read back. -/

namespace Sys2Proof.Machine

variable {α : Type}

/-- Every key of a table is above k. -/
def keysAbove (k : Nat) (m : List (Nat × α)) : Prop := ∀ e ∈ m, k < e.1

theorem keysRise_cons (e : Nat × α) (m : List (Nat × α)) : keysRise (e :: m) = true ↔ keysAbove e.1 m ∧ keysRise m = true := by
  induction m generalizing e with
  | nil => simp [keysRise, keysAbove]
  | cons f fs ih =>
    simp only [keysRise, Bool.and_eq_true, decide_eq_true_eq]
    constructor
    · rintro ⟨h1, h2⟩
      refine ⟨?_, h2⟩
      intro x hx
      rcases List.mem_cons.1 hx with rfl | hx
      · exact h1
      · exact Nat.lt_trans h1 (((ih f).1 h2).1 x hx)
    · rintro ⟨h1, h2⟩
      exact ⟨h1 f (by simp), h2⟩

/-- A sublist of a rising table rises. -/
theorem keysRise_sublist {m n : List (Nat × α)} (h : m.Sublist n) (hn : keysRise n = true) : keysRise m = true := by
  induction h with
  | slnil => rfl
  | cons a _ ih => exact ih ((keysRise_cons _ _).1 hn).2
  | cons_cons a h ih =>
    have h2 := (keysRise_cons _ _).1 hn
    exact (keysRise_cons _ _).2 ⟨fun x hx => h2.1 x (h.subset hx), ih h2.2⟩

theorem keysRise_filter (p : Nat × α → Bool) {m : List (Nat × α)} (h : keysRise m = true) : keysRise (m.filter p) = true :=
  keysRise_sublist List.filter_sublist h

theorem keysRise_adel (k : Nat) {m : List (Nat × α)} (h : keysRise m = true) : keysRise (adel m k) = true := keysRise_filter _ h

/-- Every entry of a table after a put is the new one or an old one. -/
theorem mem_aput {m : List (Nat × α)} {k : Nat} {v : α} {e : Nat × α} (h : e ∈ aput m k v) : e = (k, v) ∨ e ∈ m := by
  induction m with
  | nil => simpa [aput] using h
  | cons f fs ih =>
    unfold aput at h
    split at h
    · rcases List.mem_cons.1 h with h | h
      · exact .inl h
      · exact .inr h
    · split at h
      · rcases List.mem_cons.1 h with h | h
        · exact .inl h
        · exact .inr (List.mem_cons_of_mem _ h)
      · rcases List.mem_cons.1 h with h | h
        · exact .inr (h ▸ List.mem_cons_self)
        · rcases ih h with h | h
          · exact .inl h
          · exact .inr (List.mem_cons_of_mem _ h)

theorem keysRise_aput (k : Nat) (v : α) {m : List (Nat × α)} (h : keysRise m = true) : keysRise (aput m k v) = true := by
  induction m with
  | nil => rfl
  | cons e es ih =>
    have h2 := (keysRise_cons _ _).1 h
    unfold aput
    split
    · rename_i hk
      refine (keysRise_cons _ _).2 ⟨?_, h⟩
      intro x hx
      rcases List.mem_cons.1 hx with rfl | hx
      · exact hk
      · exact Nat.lt_trans hk (h2.1 x hx)
    · split
      · rename_i hk
        exact (keysRise_cons _ _).2 ⟨fun x hx => hk ▸ h2.1 x hx, h2.2⟩
      · rename_i hk hne
        refine (keysRise_cons _ _).2 ⟨?_, ih h2.2⟩
        intro x hx
        rcases mem_aput hx with rfl | hx
        · show e.1 < k
          omega
        · exact h2.1 x hx

/-- Entries of a table that none of its rewritten values reads differently: a map of the values keeps the keys. -/
theorem keysRise_filterMap (f : Nat × α → Option (Nat × α)) (hf : ∀ e x, f e = some x → x.1 = e.1) {m : List (Nat × α)} (h : keysRise m = true) :
    keysRise (m.filterMap f) = true := by
  induction m with
  | nil => rfl
  | cons e es ih =>
    have h2 := (keysRise_cons _ _).1 h
    cases he : f e with
    | none => simpa [List.filterMap_cons, he] using ih h2.2
    | some x =>
      simp only [List.filterMap_cons, he]
      refine (keysRise_cons _ _).2 ⟨?_, ih h2.2⟩
      intro y hy
      obtain ⟨z, hz, hzy⟩ := List.mem_filterMap.1 hy
      rw [hf e x he, hf z y hzy]
      exact h2.1 z hz

theorem aget_eq_none_of_above {m : List (Nat × α)} {k : Nat} (h : keysAbove k m) : aget m k = none := by
  induction m with
  | nil => rfl
  | cons e es ih =>
    have h1 : k < e.1 := h e (by simp)
    simp only [aget]
    rw [if_neg (by omega)]
    exact ih fun x hx => h x (List.mem_cons_of_mem _ hx)

/-- What was put under a key is read back under it. -/
@[simp] theorem aget_aput_self (m : List (Nat × α)) (k : Nat) (v : α) : aget (aput m k v) k = some v := by
  induction m with
  | nil => simp [aput, aget]
  | cons e es ih =>
    unfold aput
    split
    · simp [aget]
    · split
      · simp [aget]
      · rename_i h
        simp [aget, h, ih]

/-- A put under one key leaves every other key's entry. -/
theorem aget_aput_ne (m : List (Nat × α)) {k j : Nat} (v : α) (h : j ≠ k) : aget (aput m k v) j = aget m j := by
  induction m with
  | nil => simp [aput, aget, Ne.symm h]
  | cons e es ih =>
    unfold aput
    split
    · simp [aget, Ne.symm h]
    · split
      · rename_i hk
        simp [aget, Ne.symm h, hk]
      · by_cases hj : e.1 = j
        · simp [aget, hj]
        · simp [aget, hj, ih]

theorem aget_adel_ne (m : List (Nat × α)) {k j : Nat} (h : j ≠ k) : aget (adel m k) j = aget m j := by
  induction m with
  | nil => rfl
  | cons e es ih =>
    unfold adel at ih ⊢
    by_cases hk : e.1 = k
    · simp only [List.filter_cons, hk, bne_self_eq_false, Bool.false_eq_true, if_false, aget]
      rw [if_neg (Ne.symm h)]
      exact ih
    · have : (e.1 != k) = true := by simp [hk]
      simp only [List.filter_cons, this, if_true, aget]
      split
      · rfl
      · exact ih

@[simp] theorem aget_adel_self (m : List (Nat × α)) (k : Nat) : aget (adel m k) k = none := by
  induction m with
  | nil => rfl
  | cons e es ih =>
    unfold adel at ih ⊢
    by_cases hk : e.1 = k
    · simpa [List.filter_cons, hk] using ih
    · have : (e.1 != k) = true := by simp [hk]
      simp only [List.filter_cons, this, if_true, aget]
      rw [if_neg hk]
      exact ih

/-- What a table with entries changed or dropped lists under a key. -/
theorem aget_filterMap (f : Nat × α → Option (Nat × α)) (hf : ∀ e x, f e = some x → x.1 = e.1) {m : List (Nat × α)} (h : keysRise m = true) (k : Nat) :
    aget (m.filterMap f) k = (aget m k).bind fun v => (f (k, v)).map (·.2) := by
  induction m with
  | nil => rfl
  | cons e es ih =>
    have hk := (keysRise_cons e es).1 h
    have above : keysAbove e.1 (es.filterMap f) := by
      intro z hz
      obtain ⟨y, hy, hyz⟩ := List.mem_filterMap.1 hz
      rw [hf y z hyz]; exact hk.1 y hy
    by_cases c : e.1 = k
    · have ek : (k, e.2) = e := by rw [← c]
      rw [show aget (e :: es) k = some e.2 from if_pos c, Option.bind_some, ek]
      cases q : f e with
      | none => rw [List.filterMap_cons_none q, ← c]; exact aget_eq_none_of_above above
      | some x => rw [List.filterMap_cons_some q]; exact if_pos ((hf e x q).trans c)
    · rw [show aget (e :: es) k = aget es k from if_neg c, ← ih hk.2]
      cases q : f e with
      | none => rw [List.filterMap_cons_none q]
      | some x => rw [List.filterMap_cons_some q]; exact if_neg (fun z => c ((hf e x q).symm.trans z))

end Sys2Proof.Machine
end

