-- ==== Sys2Proof/Laws/Memory.lean ====
section
/-! SUPPORT. Every memory operation keeps the canonical form (R236's memories as plain data). -/

namespace Sys2Proof.Machine

theorem Memory.wf_iff (m : Memory) : m.wf = true ↔ (keysRise m.cells = true ∧ ∀ e ∈ m.cells, e.2 ≠ unlistedByte) ∧ (∀ u ∈ m.undef, u.lo < u.hi) ∧
    ∀ e ∈ m.cells, ∀ u ∈ m.undef, e.1 < u.lo ∨ u.hi ≤ e.1 := by
  simp [Memory.wf, List.all_eq_true, and_assoc]

/-- Cells in canonical form. -/
def cellsWf (c : List Host.Cell) : Prop := keysRise c = true ∧ ∀ e ∈ c, e.2 ≠ unlistedByte

theorem cellsWf_filter (p : Host.Cell → Bool) {c : List Host.Cell} (h : cellsWf c) : cellsWf (c.filter p) :=
  ⟨keysRise_filter p h.1, fun e he => h.2 e (List.mem_filter.1 he).1⟩

theorem cellsWf_put {c : List Host.Cell} (a : Nat) (b : Byte) (h : cellsWf c) : cellsWf (cellsPut c a b) := by
  unfold cellsPut
  split
  · exact cellsWf_filter _ h
  · rename_i hb
    refine ⟨keysRise_aput a b h.1, fun e he => ?_⟩
    rcases mem_aput he with rfl | he
    · exact hb
    · exact h.2 e he

theorem cellsWf_write (bs : List Byte) : ∀ {c : List Host.Cell} (a : Nat), cellsWf c → cellsWf (cellsWrite c a bs) := by
  induction bs with
  | nil => intro c a h; exact h
  | cons b bs ih => intro c a h; exact ih (a + 1) (cellsWf_put a b h)

/-- A cell after a write is an old one or lies among the bytes written. -/
theorem mem_cellsWrite (bs : List Byte) : ∀ {c : List Host.Cell} {a : Nat} {e : Host.Cell}, e ∈ cellsWrite c a bs → e ∈ c ∨ (a ≤ e.1 ∧ e.1 < a + bs.length) := by
  induction bs with
  | nil => intro c a e h; exact .inl h
  | cons b bs ih =>
    intro c a e h
    rcases ih h with h | h
    · unfold cellsPut at h
      split at h
      · exact .inl (List.mem_filter.1 h).1
      · rcases mem_aput h with rfl | h
        · exact .inr ⟨Nat.le_refl _, by simp⟩
        · exact .inl h
    · exact .inr ⟨by omega, by simp only [List.length_cons]; omega⟩

/-- What is left of the undefined ranges lies in one of them, is not empty, and keeps clear of what was cut out. -/
theorem mem_undefCut {us : List Undef} {lo hi : Nat} {v : Undef} (h : v ∈ undefCut us lo hi) (w : ∀ u ∈ us, u.lo < u.hi) :
    (∃ u ∈ us, u.lo ≤ v.lo ∧ v.hi ≤ u.hi) ∧ v.lo < v.hi ∧ (hi ≤ lo ∨ hi ≤ v.lo ∨ v.hi ≤ lo) := by
  obtain ⟨u, hu, hv⟩ := List.mem_flatMap.1 h
  have l := w u hu
  split at hv
  · rcases List.mem_singleton.1 hv with rfl
    exact ⟨⟨v, hu, Nat.le_refl _, Nat.le_refl _⟩, l, by omega⟩
  · rcases List.mem_append.1 hv with hv | hv <;> split at hv
    · rcases List.mem_singleton.1 hv with rfl
      exact ⟨⟨u, hu, Nat.le_refl _, by simp only []; omega⟩, by simpa using ‹u.lo < lo›, by simp⟩
    · cases hv
    · rcases List.mem_singleton.1 hv with rfl
      exact ⟨⟨u, hu, by simp only []; omega, Nat.le_refl _⟩, by simpa using ‹hi < u.hi›, by simp⟩
    · cases hv

/-- A write keeps the canonical form. -/
theorem Memory.wf_write {m : Memory} (a : Nat) (bs : List Byte) (h : m.wf = true) : (m.write a bs).wf = true := by
  obtain ⟨c, w, d⟩ := (Memory.wf_iff _).1 h
  refine (Memory.wf_iff _).2 ⟨cellsWf_write bs a c, fun v hv => (mem_undefCut hv w).2.1, fun e he v hv => ?_⟩
  obtain ⟨⟨u, hu, h1, h2⟩, -, h3⟩ := mem_undefCut hv w
  rcases mem_cellsWrite bs he with he | he
  · have := d e he u hu; omega
  · omega

theorem filter_clear {c : List Host.Cell} {lo hi : Nat} {e : Host.Cell} (h : e ∈ c.filter (fun e => decide (e.1 < lo) || decide (hi ≤ e.1))) :
    e ∈ c ∧ (e.1 < lo ∨ hi ≤ e.1) := by
  simpa using List.mem_filter.1 h

/-- Undefined contents keep the canonical form. -/
theorem Memory.wf_forget {m : Memory} (lo hi gen : Nat) (h : m.wf = true) : (m.forget lo hi gen).wf = true := by
  obtain ⟨c, w, d⟩ := (Memory.wf_iff _).1 h
  refine (Memory.wf_iff _).2 ⟨cellsWf_filter _ c, fun v hv => ?_, fun e he v hv => ?_⟩
  · rcases List.mem_append.1 hv with hv | hv
    · exact (mem_undefCut hv w).2.1
    · split at hv
      · rcases List.mem_singleton.1 hv with rfl; assumption
      · cases hv
  · have he := filter_clear he
    rcases List.mem_append.1 hv with hv | hv
    · obtain ⟨⟨u, hu, h1, h2⟩, -, -⟩ := mem_undefCut hv w
      have := d e he.1 u hu; omega
    · split at hv
      · rcases List.mem_singleton.1 hv with rfl; exact he.2
      · cases hv

/-- Clearing keeps the canonical form. -/
theorem Memory.wf_clear {m : Memory} (lo hi : Nat) (h : m.wf = true) : (m.clear lo hi).wf = true := by
  obtain ⟨c, w, d⟩ := (Memory.wf_iff _).1 h
  refine (Memory.wf_iff _).2 ⟨cellsWf_filter _ c, fun v hv => (mem_undefCut hv w).2.1, fun e he v hv => ?_⟩
  obtain ⟨⟨u, hu, h1, h2⟩, -, -⟩ := mem_undefCut hv w
  have := d e (filter_clear he).1 u hu; omega

/-! ### Reading after writing -/

/-- The byte that cells list, or what an unlisted byte reads as. -/
theorem cellsPut_get (c : List Host.Cell) (a : Nat) (b : Byte) (k : Nat) :
    (aget (cellsPut c a b) k).getD unlistedByte = if k = a then b else (aget c k).getD unlistedByte := by
  unfold cellsPut
  by_cases e : k = a
  · subst e
    split
    · next h => rw [aget_adel_self, if_pos rfl]; exact h.symm
    · rw [aget_aput_self, if_pos rfl]; rfl
  · rw [if_neg e]
    split
    · rw [aget_adel_ne _ e]
    · rw [aget_aput_ne _ _ e]

theorem cellsWrite_get (bs : List Byte) : ∀ (c : List Host.Cell) (a k : Nat),
    (aget (cellsWrite c a bs) k).getD unlistedByte = if a ≤ k ∧ k < a + bs.length then bs.getD (k - a) 0 else (aget c k).getD unlistedByte := by
  induction bs with
  | nil => intro c a k; rw [if_neg (by simp only [List.length_nil]; omega)]; rfl
  | cons b bs ih =>
    intro c a k
    rw [cellsWrite, ih, cellsPut_get]
    simp only [List.length_cons]
    by_cases h1 : a + 1 ≤ k ∧ k < a + 1 + bs.length
    · rw [if_pos h1, if_pos (by omega), show k - a = (k - (a + 1)) + 1 by omega]; rfl
    · rw [if_neg h1]
      by_cases h2 : k = a
      · subst h2; rw [if_pos rfl, if_pos (by omega), Nat.sub_self]; rfl
      · rw [if_neg h2, if_neg (by omega)]

/-- Whether a key lies in an undefined range. -/
def Undef.has (u : Undef) (k : Nat) : Bool := decide (u.lo ≤ k) && decide (k < u.hi)

theorem undefCut_find (us : List Undef) (lo hi k : Nat) :
    ((undefCut us lo hi).find? (·.has k)).map (·.gen) = if lo ≤ k ∧ k < hi then none else (us.find? (·.has k)).map (·.gen) := by
  induction us with
  | nil => simp [undefCut]
  | cons u us ih =>
    have e : undefCut (u :: us) lo hi = (if hi ≤ u.lo ∨ u.hi ≤ lo then [u]
        else (if u.lo < lo then [{ u with hi := lo }] else []) ++ (if hi < u.hi then [{ u with lo := hi }] else [])) ++ undefCut us lo hi := rfl
    rw [e, List.find?_append]
    by_cases hk : lo ≤ k ∧ k < hi
    · rw [if_pos hk] at ih ⊢
      have : ((if hi ≤ u.lo ∨ u.hi ≤ lo then [u]
        else (if u.lo < lo then [{ u with hi := lo }] else []) ++ (if hi < u.hi then [{ u with lo := hi }] else []) : List Undef).find? (·.has k)) = none := by
        rw [List.find?_eq_none]
        intro v hv
        simp only [Undef.has, Bool.and_eq_true, decide_eq_true_eq]
        split at hv
        · rcases List.mem_singleton.1 hv with rfl; omega
        · rcases List.mem_append.1 hv with hv | hv <;> split at hv
          · rcases List.mem_singleton.1 hv with rfl; dsimp only; omega
          · cases hv
          · rcases List.mem_singleton.1 hv with rfl; dsimp only; omega
          · cases hv
      rw [this, Option.none_or]; exact ih
    · rw [if_neg hk] at ih ⊢
      by_cases hu : u.has k = true
      · rw [show (u :: us).find? (fun x => x.has k) = some u from List.find?_cons_of_pos hu]
        simp only [Undef.has, Bool.and_eq_true, decide_eq_true_eq] at hu
        have : ∃ v, ((if hi ≤ u.lo ∨ u.hi ≤ lo then [u]
          else (if u.lo < lo then [{ u with hi := lo }] else []) ++ (if hi < u.hi then [{ u with lo := hi }] else []) : List Undef).find? (·.has k)) = some v ∧ v.gen = u.gen := by
          split
          · exact ⟨u, List.find?_cons_of_pos (by simp [Undef.has, hu]), rfl⟩
          · by_cases c : k < lo
            · rw [if_pos (by omega), List.find?_append, List.find?_cons_of_pos (by simp only [Undef.has, Bool.and_eq_true, decide_eq_true_eq]; omega)]
              exact ⟨_, rfl, rfl⟩
            · refine ⟨{ u with lo := hi }, ?_, rfl⟩
              rw [if_pos (show hi < u.hi by omega), List.find?_append]
              rw [show (if u.lo < lo then [{ u with hi := lo }] else [] : List Undef).find? (·.has k) = none from ?_]
              · rw [Option.none_or]
                exact List.find?_cons_of_pos (by simp only [Undef.has, Bool.and_eq_true, decide_eq_true_eq]; omega)
              · rw [List.find?_eq_none]
                intro v hv
                split at hv
                · rcases List.mem_singleton.1 hv with rfl
                  simp only [Undef.has, Bool.and_eq_true, decide_eq_true_eq]; omega
                · cases hv
        obtain ⟨v, hv, hg⟩ := this
        rw [hv, Option.some_or, Option.map_some, Option.map_some, hg]
      · rw [show (u :: us).find? (fun x => x.has k) = us.find? (fun x => x.has k) from List.find?_cons_of_neg hu]
        simp only [Undef.has, Bool.and_eq_true, decide_eq_true_eq] at hu
        have : ((if hi ≤ u.lo ∨ u.hi ≤ lo then [u]
          else (if u.lo < lo then [{ u with hi := lo }] else []) ++ (if hi < u.hi then [{ u with lo := hi }] else []) : List Undef).find? (·.has k)) = none := by
          rw [List.find?_eq_none]
          intro v hv
          simp only [Undef.has, Bool.and_eq_true, decide_eq_true_eq]
          split at hv
          · rcases List.mem_singleton.1 hv with rfl; exact hu
          · rcases List.mem_append.1 hv with hv | hv <;> split at hv
            · rcases List.mem_singleton.1 hv with rfl; dsimp only; omega
            · cases hv
            · rcases List.mem_singleton.1 hv with rfl; dsimp only; omega
            · cases hv
        rw [this, Option.none_or]; exact ih

theorem Memory.get_eq (m : Memory) (k : Nat) :
    m.get k = match (m.undef.find? (·.has k)).map (·.gen) with
      | some g => Config.undefByte g k
      | none => (aget m.cells k).getD unlistedByte := by
  unfold Memory.get
  rw [show (fun u : Undef => decide (u.lo ≤ k) && decide (k < u.hi)) = (·.has k) from rfl]
  cases m.undef.find? (·.has k) <;> rfl

/-- A byte after a write is the byte written there, or the byte as it was. -/
theorem Memory.get_write (m : Memory) (a : Nat) (bs : List Byte) (k : Nat) :
    (m.write a bs).get k = if a ≤ k ∧ k < a + bs.length then bs.getD (k - a) 0 else m.get k := by
  rw [Memory.get_eq, Memory.get_eq]
  simp only [Memory.write]
  rw [undefCut_find, cellsWrite_get]
  by_cases h : a ≤ k ∧ k < a + bs.length
  · rw [if_pos h, if_pos h, if_pos h]
  · rw [if_neg h, if_neg h, if_neg h]

end Sys2Proof.Machine
end

