-- ==== Sys2Proof/Laws/Address.lean ====
section
/-! SUPPORT. The address map within a granule of 4 KiB, and what a write of data leaves at every key (R236, R243, R245, R246, R249). -/

namespace Sys2Proof.Machine

open Sys2Proof

/-- Within a granule the map is an offset: the aperture. -/
theorem dil_granule (s : State) (x j : Nat) (h : x % 4096 + j < 4096) :
    s.placeKey (s.dilResolve (x + j)) = (s.placeKey (s.dilResolve x)).map (· + j) := by
  have p : ((List.range 16).find? fun i => s.isSet (fMEM_DIL_APER_VALID i) && decide (32768 * (s.getF (fMEM_DIL_APER_APER_BASE i)) ≤ x + j) &&
        decide (x + j < 32768 * (s.getF (fMEM_DIL_APER_APER_BASE i) + s.getF (fMEM_DIL_SIZE_SIZE i)))) =
      ((List.range 16).find? fun i => s.isSet (fMEM_DIL_APER_VALID i) && decide (32768 * (s.getF (fMEM_DIL_APER_APER_BASE i)) ≤ x) &&
        decide (x < 32768 * (s.getF (fMEM_DIL_APER_APER_BASE i) + s.getF (fMEM_DIL_SIZE_SIZE i)))) := by
    congr 1; funext i
    rw [show decide (32768 * (s.getF (fMEM_DIL_APER_APER_BASE i)) ≤ x + j) = decide (32768 * (s.getF (fMEM_DIL_APER_APER_BASE i)) ≤ x) from by rw [decide_eq_decide]; omega,
      show decide (x + j < 32768 * (s.getF (fMEM_DIL_APER_APER_BASE i) + s.getF (fMEM_DIL_SIZE_SIZE i))) = decide (x < 32768 * (s.getF (fMEM_DIL_APER_APER_BASE i) + s.getF (fMEM_DIL_SIZE_SIZE i))) from by
        rw [decide_eq_decide]; omega]
  unfold State.dilResolve
  dsimp only
  rw [p]
  cases e : (List.range 16).find? fun i => s.isSet (fMEM_DIL_APER_VALID i) && decide (32768 * (s.getF (fMEM_DIL_APER_APER_BASE i)) ≤ x) &&
        decide (x < 32768 * (s.getF (fMEM_DIL_APER_APER_BASE i) + s.getF (fMEM_DIL_SIZE_SIZE i))) with
  | none => rfl
  | some i =>
    have hb : 32768 * (s.getF (fMEM_DIL_APER_APER_BASE i)) ≤ x := by
      have := List.find?_some e
      simp only [Bool.and_eq_true, decide_eq_true_eq] at this
      exact this.1.2
    simp only [State.placeKey, stackKey, Option.map_some, Option.some.injEq]
    generalize s.getF (fMEM_DIL_APER_APER_BASE i) = B at hb ⊢
    have e1 : (x + j - 32768 * B) / 4096 = (x - 32768 * B) / 4096 := by omega
    have e2 : (x + j - 32768 * B) % 4096 = (x - 32768 * B) % 4096 + j := by omega
    rw [e1, e2]
    omega

/-- A place where it is mapped, else nowhere. -/
def ifMap (c : Bool) (p : Place) : Place := if c then p else .unmapped

/-- The stack windows. -/
theorem place_stack (s : State) {a : Nat} (h : a < 0x8000000000) : s.place a = ifMap (decide (a % 0x1000000000 < stackVisible)) (.stack (a / 0x1000000000) (a % 0x1000000000)) := by
  unfold State.place ifMap; rw [if_pos h]; simp only [decide_eq_true_eq]

/-- The aperture. -/
theorem place_dil (s : State) {x : Nat} (h : x < 0x5C00000000) : s.place (0x8000000000 + x) = s.dilResolve x := by
  unfold State.place; rw [if_neg (by omega), if_pos (by omega), Nat.add_sub_cancel_left]

/-- The Deck scratch windows. -/
theorem place_deck (s : State) {x : Nat} (h : x < 0x40000000) : s.place (0xF000000000 + x) = ifMap (decide (x % 0x8000000 < s.scratchBytes (x / 0x8000000))) (.deck (x / 0x8000000) (x % 0x8000000)) := by
  unfold State.place ifMap; rw [if_neg (Nat.not_lt.2 (by omega)), if_neg (Nat.not_lt.2 (by omega)), if_pos (by omega), Nat.add_sub_cancel_left]; simp only [decide_eq_true_eq]

/-- The scratchpad windows. -/
theorem place_spad (s : State) {x : Nat} (h : x < 0x20000000) : s.place (0xF800000000 + x) = ifMap (decide (x % 0x400000 < 0x300000)) (.spad (x / 0x400000) (x % 0x400000)) := by
  unfold State.place ifMap
  rw [if_neg (Nat.not_lt.2 (by omega)), if_neg (Nat.not_lt.2 (by omega)), if_neg (fun h => by omega), if_pos (by omega), Nat.add_sub_cancel_left]; simp only [decide_eq_true_eq]

/-- Everywhere else nothing is mapped. -/
theorem place_none (s : State) {a : Nat} (h1 : 0xDC00000000 ≤ a) (h2 : a < 0xF000000000 ∨ 0xF040000000 ≤ a) (h3 : a < 0xF800000000 ∨ 0xF820000000 ≤ a) : s.place a = .unmapped := by
  unfold State.place
  rw [if_neg (Nat.not_lt.2 (by omega)), if_neg (Nat.not_lt.2 h1), if_neg (fun h => by omega), if_neg (fun h => by omega)]

theorem ifMap_key (s : State) (c d : Bool) (p q : Place) (j : Nat) (e : c = d) (h : s.placeKey q = (s.placeKey p).map (· + j)) :
    s.placeKey (ifMap d q) = (s.placeKey (ifMap c p)).map (· + j) := by
  subst e; cases c
  · rfl
  · exact h

theorem granule_stack (s : State) (a j : Nat) (h : a % 4096 + j < 4096) (c : a < 0x8000000000) : s.placeKey (s.place (a + j)) = (s.placeKey (s.place a)).map (· + j) := by
  rw [place_stack s c, place_stack s (show a + j < 0x8000000000 by omega)]
  apply ifMap_key
  · rw [decide_eq_decide]; unfold stackVisible; omega
  · simp only [State.placeKey, stackKey, Option.map_some, Option.some.injEq]; omega

theorem granule_deck (s : State) (x j : Nat) (h : x % 4096 + j < 4096) (c : x < 0x40000000) :
    s.placeKey (s.place (0xF000000000 + x + j)) = (s.placeKey (s.place (0xF000000000 + x))).map (· + j) := by
  rw [Nat.add_assoc, place_deck s c, place_deck s (show x + j < 0x40000000 by omega)]
  have e1 : (x + j) / 0x8000000 = x / 0x8000000 := by omega
  have e2 : (x + j) % 0x8000000 = x % 0x8000000 + j := by omega
  rw [e1, e2]
  apply ifMap_key
  · rw [decide_eq_decide]; unfold State.scratchBytes; omega
  · simp only [State.placeKey, deckKey, Option.map_some, Option.some.injEq]; omega

theorem granule_spad (s : State) (x j : Nat) (h : x % 4096 + j < 4096) (c : x < 0x20000000) :
    s.placeKey (s.place (0xF800000000 + x + j)) = (s.placeKey (s.place (0xF800000000 + x))).map (· + j) := by
  rw [Nat.add_assoc, place_spad s c, place_spad s (show x + j < 0x20000000 by omega)]
  have e1 : (x + j) / 0x400000 = x / 0x400000 := by omega
  have e2 : (x + j) % 0x400000 = x % 0x400000 + j := by omega
  rw [e1, e2]
  apply ifMap_key
  · rw [decide_eq_decide]; omega
  · simp only [State.placeKey]
    cases s.physOf (x / 0x400000) with
    | none => rfl
    | some p => simp only [spadKey, Option.map_some, Option.some.injEq]; omega

/-- Within a granule the key of a byte is an offset from the key of the first. -/
theorem place_granule (s : State) (a j : Nat) (h : a % 4096 + j < 4096) : s.placeKey (s.place (a + j)) = (s.placeKey (s.place a)).map (· + j) := by
  by_cases c1 : a < 0x8000000000
  · exact granule_stack s a j h c1
  · by_cases c2 : a < 0xDC00000000
    · obtain ⟨x, rfl⟩ : ∃ x, a = 0x8000000000 + x := Nat.exists_eq_add_of_le (Nat.not_lt.1 c1)
      rw [Nat.add_assoc, place_dil s (show x < 0x5C00000000 by omega), place_dil s (show x + j < 0x5C00000000 by omega)]
      exact dil_granule s x j (by omega)
    · by_cases c3 : 0xF000000000 ≤ a ∧ a < 0xF040000000
      · obtain ⟨x, rfl⟩ := Nat.exists_eq_add_of_le c3.1
        exact granule_deck s x j (by omega) (by omega)
      · by_cases c4 : 0xF800000000 ≤ a ∧ a < 0xF820000000
        · obtain ⟨x, rfl⟩ := Nat.exists_eq_add_of_le c4.1
          exact granule_spad s x j (by omega) (by omega)
        · have d3 : a < 0xF000000000 ∨ 0xF040000000 ≤ a := by omega
          have d4 : a < 0xF800000000 ∨ 0xF820000000 ≤ a := by omega
          rw [place_none s (Nat.not_lt.1 c2) d3 d4, place_none s (a := a + j) (by omega) (by omega) (by omega)]
          rfl

theorem State.placeKey_stPiece (s : State) (a : Nat) (bs : List Byte) (x : Nat) : (s.stPiece a bs).placeKey ((s.stPiece a bs).place x) = s.placeKey (s.place x) := by
  unfold State.stPiece; split <;> rfl

theorem State.get_stPiece (s : State) (a : Nat) (bs : List Byte) (k : Nat) : (s.stPiece a bs).mm.mem.get k = match s.placeKey (s.place a) with
    | some key => if key ≤ k ∧ k < key + bs.length then bs.getD (k - key) 0 else s.mm.mem.get k
    | none => s.mm.mem.get k := by
  unfold State.stPiece
  cases s.placeKey (s.place a) with
  | none => rfl
  | some key => exact Memory.get_write _ _ _ _

/-- A write moves no place. -/
theorem stGo_keeps (s : State) (f a : Nat) (bs : List Byte) :
    ∀ x, (s.stGo f a bs).placeKey ((s.stGo f a bs).place x) = s.placeKey (s.place x) := by
  induction f generalizing s a bs with
  | zero => intro x; rfl
  | succ f ih =>
    intro x
    unfold State.stGo
    split
    · rfl
    · exact (ih _ _ _ x).trans (State.placeKey_stPiece s _ _ x)

/-- The last byte written under a key, or the byte as it was. -/
theorem stGo_get (f : Nat) : ∀ (s : State) (a : Nat) (bs : List Byte) (k : Nat), bs = [] ∨ a + bs.length ≤ 4096 * (a / 4096 + f) →
    (∀ i, i < bs.length → s.placeKey (s.place (a + i)) = some k → (∀ j, i < j → j < bs.length → s.placeKey (s.place (a + j)) ≠ some k) →
      (s.stGo f a bs).mm.mem.get k = bs.getD i 0) ∧
    ((∀ i, i < bs.length → s.placeKey (s.place (a + i)) ≠ some k) → (s.stGo f a bs).mm.mem.get k = s.mm.mem.get k) := by
  induction f with
  | zero =>
    intro s a bs k h
    have hb : bs = [] := by
      rcases h with h | h
      · exact h
      · exact List.length_eq_zero_iff.1 (by omega)
    subst hb
    exact ⟨fun i hi => absurd hi (by simp), fun _ => rfl⟩
  | succ f ih =>
    intro s a bs k h
    unfold State.stGo
    by_cases hb : bs = []
    · subst hb
      exact ⟨fun i hi => absurd hi (by simp), fun _ => rfl⟩
    · rw [if_neg (by simpa using hb)]
      have hl : 0 < bs.length := List.length_pos_iff.2 hb
      have hfit := h.resolve_left hb
      dsimp only
      have pk := State.placeKey_stPiece s a (bs.take (granuleRun a bs.length))
      have gr : granuleRun a bs.length = min bs.length (4096 - a % 4096) := rfl
      have rest := ih (s.stPiece a (bs.take (granuleRun a bs.length))) (a + granuleRun a bs.length) (bs.drop (granuleRun a bs.length)) k (by
        by_cases c : bs.length ≤ 4096 - a % 4096
        · left; rw [gr, Nat.min_eq_left c]; exact List.drop_length
        · right; rw [List.length_drop, gr, Nat.min_eq_right (by omega)]; omega)
      simp only [pk] at rest
      -- the first run
      have first : ∀ i, i < granuleRun a bs.length → s.placeKey (s.place (a + i)) = (s.placeKey (s.place a)).map (· + i) := fun i hi => place_granule s a i (by rw [gr] at hi; omega)
      have got : (s.stPiece a (bs.take (granuleRun a bs.length))).mm.mem.get k = match s.placeKey (s.place a) with
          | some key => if key ≤ k ∧ k < key + granuleRun a bs.length then bs.getD (k - key) 0 else s.mm.mem.get k
          | none => s.mm.mem.get k := by
        rw [State.get_stPiece, List.length_take, gr]
        rw [show min (min bs.length (4096 - a % 4096)) bs.length = min bs.length (4096 - a % 4096) by omega]
        cases s.placeKey (s.place a) with
        | none => rfl
        | some key =>
          dsimp only
          split
          · next hc => rw [List.getD_eq_getElem?_getD, List.getD_eq_getElem?_getD, List.getElem?_take_of_lt (by omega)]
          · rfl
      have ld : (bs.drop (granuleRun a bs.length)).length = bs.length - granuleRun a bs.length := List.length_drop
      have gd : ∀ i, (bs.drop (granuleRun a bs.length)).getD i 0 = bs.getD (granuleRun a bs.length + i) 0 := fun i => by
        rw [List.getD_eq_getElem?_getD, List.getD_eq_getElem?_getD, List.getElem?_drop]
      refine ⟨fun i hi hk hlast => ?_, fun hno => ?_⟩
      · by_cases c : i < granuleRun a bs.length
        · rw [rest.2 (fun j hj => by rw [ld] at hj; rw [Nat.add_assoc]; exact hlast _ (by omega) (by omega)), got]
          rw [first i c] at hk
          cases q : s.placeKey (s.place a) with
          | none => rw [q] at hk; cases hk
          | some key =>
            rw [q] at hk
            simp only [Option.map_some, Option.some.injEq] at hk
            simp only []
            rw [if_pos (by omega), show k - key = i by omega]
        · have r := rest.1 (i - granuleRun a bs.length) (by rw [ld]; omega)
            (by rw [Nat.add_assoc, show granuleRun a bs.length + (i - granuleRun a bs.length) = i by omega]; exact hk)
            (fun j h1 h2 => by rw [ld] at h2; rw [Nat.add_assoc]; exact hlast _ (by omega) (by omega))
          rw [r, gd, show granuleRun a bs.length + (i - granuleRun a bs.length) = i by omega]
      · rw [rest.2 (fun j hj => by rw [ld] at hj; rw [Nat.add_assoc]; exact hno _ (by omega)), got]
        cases q : s.placeKey (s.place a) with
        | none => rfl
        | some key =>
          simp only []
          rw [if_neg]
          intro hc
          have := hno (k - key) (by rw [gr] at hc; omega)
          rw [first (k - key) (by omega), q] at this
          simp only [Option.map_some, ne_eq, Option.some.injEq] at this
          omega

theorem st_eq (s : State) (a : Nat) (bs : List Byte) : ∃ l, s.st a bs = (s.stGo (bs.length / 4096 + 2) a bs).setPoison l := by
  unfold State.st
  dsimp only
  exact ⟨_, rfl⟩

theorem st_ld1 (s : State) (a x : Nat) (bs : List Byte) : (s.st a bs).ld1 x = match s.placeKey (s.place x) with
    | some k => (s.stGo (bs.length / 4096 + 2) a bs).mm.mem.get k
    | none => 0 := by
  obtain ⟨l, e⟩ := st_eq s a bs
  rw [e]
  unfold State.ld1
  rw [show ((s.stGo (bs.length / 4096 + 2) a bs).setPoison l).placeKey (((s.stGo (bs.length / 4096 + 2) a bs).setPoison l).place x) = s.placeKey (s.place x) from stGo_keeps s _ a bs x]
  rfl

end Sys2Proof.Machine
end

