-- ==== Sys2Proof/Laws/Evolve.lean ====
section
/-! SUPPORT. What every operation on State keeps, said once: the canonical forms of the memories and of the register map, the queue of waiting commands, the history of what was
sent, the count of free values, and every part of the state outside a set P of parts. Each operation has one lemma under this relation, which the lemmas about commands cite. -/

namespace Sys2Proof.Machine

open Sys2Proof

/-- The register map in canonical form: offsets rising, and no register listed at its reset value. -/
def regsWf (m : List (Nat × Word)) : Prop := keysRise m = true ∧ ∀ e ∈ m, e.2 ≠ regDefault e.1

/-- P has the parts of a list. -/
def Need (P : StatePart → Bool) (l : List StatePart) : Prop := ∀ x ∈ l, P x = true

theorem Need.sub {P : StatePart → Bool} {a b : List StatePart} (h : Need P a) (k : (b.all fun x => a.contains x) = true) : Need P b :=
  fun x hx => h x (by simpa using List.all_eq_true.1 k x hx)

theorem Need.has {P : StatePart → Bool} {a : List StatePart} {x : StatePart} (h : Need P a) (k : a.contains x = true) : P x = true := h x (by simpa using k)

theorem Need.pick {α : Type} {p : Bool} {d a b : α} (h : p = true ∨ a = b) : (if p = true then d else a) = if p = true then d else b := by
  rcases h with h | h
  · rw [if_pos h, if_pos h]
  · rw [h]

theorem Need.mmPick {p q : Bool} {a b : MemSt} (e : a.mem = b.mem) (h : p = true ∨ a = b) :
    ({ (if p = true then ({} : MemSt) else a) with mem := if q = true then {} else a.mem } : MemSt) =
      { (if p = true then ({} : MemSt) else b) with mem := if q = true then {} else b.mem } := by
  rcases h with h | h
  · rw [if_pos h, if_pos h, e]
  · rw [h]

/-- From s to t: canonical forms are kept, the queue is untouched, what was sent stays sent, free values are not drawn twice, and parts outside P stand. -/
structure Ev (P : StatePart → Bool) (s t : State) : Prop where
  mem : s.mm.mem.wf = true → t.mm.mem.wf = true
  regs : regsWf s.regs → regsWf t.regs
  pend : t.pending = s.pending
  out : s.out <+: t.out
  ctr : s.freeCtr ≤ t.freeCtr
  fr : t.without P = s.without P

theorem Ev.refl (P : StatePart → Bool) (s : State) : Ev P s s := ⟨id, id, rfl, List.prefix_rfl, Nat.le_refl _, rfl⟩

theorem Ev.trans {P : StatePart → Bool} {s t u : State} (h : Ev P s t) (k : Ev P t u) : Ev P s u :=
  ⟨fun x => k.mem (h.mem x), fun x => k.regs (h.regs x), k.pend.trans h.pend, h.out.trans k.out, Nat.le_trans h.ctr k.ctr, k.fr.trans h.fr⟩

/-- A record update outside the registers and the memories. -/
theorem Ev.upd {P : StatePart → Bool} {s t : State} {latches : List Latch} {time : TimeSt} {host : HostSt} {steps : StepSt} {mm : MemSt} {faults : FaultSt} {log : LogSt} {streams : StreamSt} {router : RouterSt} {trs : List (Nat × TrsSt)} {cbk : List (Nat × CbkSt)} {power : PowerSt} {traceLost : List (Nat × Nat)} {rmt : RmtSt} {col : ColSt} {cores : List (Nat × CoreSt)} {ports : List (Nat × PortSt)} {subs : List (Nat × SubPort)} {parts : List PartFrame} {cutFrames : List (Nat × Nat)} {tele : TeleSt} {steer : SteerSt} {actions : List (Nat × List Byte)} {boot : BootSt} {marul : List (Nat × MarulLink)} {hk : List (Nat × HkSt)} {therm : ThermSt} {clk : ClockSt} {sec : SecSt}
    (h : Ev P s t) (hm : mm.mem = t.mm.mem) (h_mm : P .mm = true ∨ mm = t.mm) (h_latches : P .latches = true ∨ latches = t.latches) (h_time : P .time = true ∨ time = t.time) (h_host : P .host = true ∨ host = t.host) (h_steps : P .steps = true ∨ steps = t.steps) (h_faults : P .faults = true ∨ faults = t.faults) (h_log : P .log = true ∨ log = t.log) (h_streams : P .streams = true ∨ streams = t.streams) (h_router : P .router = true ∨ router = t.router) (h_trs : P .trs = true ∨ trs = t.trs) (h_cbk : P .cbk = true ∨ cbk = t.cbk) (h_power : P .power = true ∨ power = t.power) (h_traceLost : P .traceLost = true ∨ traceLost = t.traceLost) (h_rmt : P .rmt = true ∨ rmt = t.rmt) (h_col : P .col = true ∨ col = t.col) (h_cores : P .cores = true ∨ cores = t.cores) (h_ports : P .ports = true ∨ ports = t.ports) (h_subs : P .subs = true ∨ subs = t.subs) (h_parts : P .parts = true ∨ parts = t.parts) (h_cutFrames : P .cutFrames = true ∨ cutFrames = t.cutFrames) (h_tele : P .tele = true ∨ tele = t.tele) (h_steer : P .steer = true ∨ steer = t.steer) (h_actions : P .actions = true ∨ actions = t.actions) (h_boot : P .boot = true ∨ boot = t.boot) (h_marul : P .marul = true ∨ marul = t.marul) (h_hk : P .hk = true ∨ hk = t.hk) (h_therm : P .therm = true ∨ therm = t.therm) (h_clk : P .clk = true ∨ clk = t.clk) (h_sec : P .sec = true ∨ sec = t.sec) :
    Ev P s (State.mk t.pending t.regs latches time host steps mm faults log streams router trs cbk power traceLost rmt col cores ports subs parts cutFrames tele steer actions boot marul hk therm clk sec t.out t.freeCtr) := by
  refine h.trans ⟨fun x => hm ▸ x, id, rfl, List.prefix_rfl, Nat.le_refl _, ?_⟩
  unfold State.without
  rw [Need.pick h_latches, Need.pick h_time, Need.pick h_host, Need.pick h_steps, Need.pick h_faults, Need.pick h_log, Need.pick h_streams, Need.pick h_router, Need.pick h_trs, Need.pick h_cbk, Need.pick h_power, Need.pick h_traceLost, Need.pick h_rmt, Need.pick h_col, Need.pick h_cores, Need.pick h_ports, Need.pick h_subs, Need.pick h_parts, Need.pick h_cutFrames, Need.pick h_tele, Need.pick h_steer, Need.pick h_actions, Need.pick h_boot, Need.pick h_marul, Need.pick h_hk, Need.pick h_therm, Need.pick h_clk, Need.pick h_sec, Need.mmPick hm h_mm]

/-- A record update that sends more. -/
theorem Ev.updOut {P : StatePart → Bool} {s t : State} {l : List Out} {latches : List Latch} {time : TimeSt} {host : HostSt} {steps : StepSt} {mm : MemSt} {faults : FaultSt} {log : LogSt} {streams : StreamSt} {router : RouterSt} {trs : List (Nat × TrsSt)} {cbk : List (Nat × CbkSt)} {power : PowerSt} {traceLost : List (Nat × Nat)} {rmt : RmtSt} {col : ColSt} {cores : List (Nat × CoreSt)} {ports : List (Nat × PortSt)} {subs : List (Nat × SubPort)} {parts : List PartFrame} {cutFrames : List (Nat × Nat)} {tele : TeleSt} {steer : SteerSt} {actions : List (Nat × List Byte)} {boot : BootSt} {marul : List (Nat × MarulLink)} {hk : List (Nat × HkSt)} {therm : ThermSt} {clk : ClockSt} {sec : SecSt}
    (h : Ev P s t) (hm : mm.mem = t.mm.mem) (h_mm : P .mm = true ∨ mm = t.mm) (h_latches : P .latches = true ∨ latches = t.latches) (h_time : P .time = true ∨ time = t.time) (h_host : P .host = true ∨ host = t.host) (h_steps : P .steps = true ∨ steps = t.steps) (h_faults : P .faults = true ∨ faults = t.faults) (h_log : P .log = true ∨ log = t.log) (h_streams : P .streams = true ∨ streams = t.streams) (h_router : P .router = true ∨ router = t.router) (h_trs : P .trs = true ∨ trs = t.trs) (h_cbk : P .cbk = true ∨ cbk = t.cbk) (h_power : P .power = true ∨ power = t.power) (h_traceLost : P .traceLost = true ∨ traceLost = t.traceLost) (h_rmt : P .rmt = true ∨ rmt = t.rmt) (h_col : P .col = true ∨ col = t.col) (h_cores : P .cores = true ∨ cores = t.cores) (h_ports : P .ports = true ∨ ports = t.ports) (h_subs : P .subs = true ∨ subs = t.subs) (h_parts : P .parts = true ∨ parts = t.parts) (h_cutFrames : P .cutFrames = true ∨ cutFrames = t.cutFrames) (h_tele : P .tele = true ∨ tele = t.tele) (h_steer : P .steer = true ∨ steer = t.steer) (h_actions : P .actions = true ∨ actions = t.actions) (h_boot : P .boot = true ∨ boot = t.boot) (h_marul : P .marul = true ∨ marul = t.marul) (h_hk : P .hk = true ∨ hk = t.hk) (h_therm : P .therm = true ∨ therm = t.therm) (h_clk : P .clk = true ∨ clk = t.clk) (h_sec : P .sec = true ∨ sec = t.sec) (h_out : P .out = true) :
    Ev P s (State.mk t.pending t.regs latches time host steps mm faults log streams router trs cbk power traceLost rmt col cores ports subs parts cutFrames tele steer actions boot marul hk therm clk sec (t.out ++ l) t.freeCtr) := by
  refine h.trans ⟨fun x => hm ▸ x, id, rfl, ⟨l, rfl⟩, Nat.le_refl _, ?_⟩
  unfold State.without
  rw [Need.pick h_latches, Need.pick h_time, Need.pick h_host, Need.pick h_steps, Need.pick h_faults, Need.pick h_log, Need.pick h_streams, Need.pick h_router, Need.pick h_trs, Need.pick h_cbk, Need.pick h_power, Need.pick h_traceLost, Need.pick h_rmt, Need.pick h_col, Need.pick h_cores, Need.pick h_ports, Need.pick h_subs, Need.pick h_parts, Need.pick h_cutFrames, Need.pick h_tele, Need.pick h_steer, Need.pick h_actions, Need.pick h_boot, Need.pick h_marul, Need.pick h_hk, Need.pick h_therm, Need.pick h_clk, Need.pick h_sec, if_pos h_out, if_pos h_out, Need.mmPick hm h_mm]

/-- An intermediate state. -/
theorem Ev.cut {P : StatePart → Bool} {s0 x : State} {Q : Prop} (h : Ev P s0 x) (k : Ev P s0 x → Q) : Q := k h

/-- An intermediate state beside a value. -/
theorem Ev.cutP {P : StatePart → Bool} {α : Type} {s0 : State} {x v : State × α} {Q : Prop} (e : x = v) (h : Ev P s0 v.1) (k : Ev P s0 x.1 → Q) : Q := k (e ▸ h)

/-- An intermediate operation that keeps the relation. -/
theorem Ev.cutF {α : Type} {x : α} {R : Prop} (Q : α → Prop) (h : Q x) (k : Q x → R) : R := k h

/-- A fold of operations, each of which keeps the relation. -/
theorem Ev.foldl {P : StatePart → Bool} {α : Type} {s0 : State} (f : State → α → State) (hf : ∀ s a, Ev P s0 s → Ev P s0 (f s a)) : ∀ (l : List α) (s : State), Ev P s0 s → Ev P s0 (l.foldl f s)
  | [], _, h => h
  | a :: as, s, h => Ev.foldl f hf as (f s a) (hf s a h)

/-- A fold that carries more than the state. -/
theorem Ev.foldlP {P : StatePart → Bool} {α β : Type} {s0 : State} (f : State × β → α → State × β) (hf : ∀ p a, Ev P s0 p.1 → Ev P s0 (f p a).1) :
    ∀ (l : List α) (p : State × β), Ev P s0 p.1 → Ev P s0 (l.foldl f p).1
  | [], _, h => h
  | a :: as, p, h => Ev.foldlP f hf as (f p a) (hf p a h)

/-- A fold written with List.foldr. -/
theorem Ev.foldr {P : StatePart → Bool} {α : Type} {s0 : State} (f : α → State → State) (hf : ∀ s a, Ev P s0 s → Ev P s0 (f a s)) (s : State) (h : Ev P s0 s) :
    ∀ l : List α, Ev P s0 (l.foldr f s)
  | [] => h
  | a :: as => hf _ a (Ev.foldr f hf s h as)

/-! ### Primitives -/

theorem regsWf_put {m : List (Nat × Word)} (o : Nat) (v : Word) (h : regsWf m) : regsWf (regsPut m o v) := by
  unfold regsPut
  split
  · exact ⟨keysRise_adel o h.1, fun e he => h.2 e (List.mem_filter.1 he).1⟩
  · rename_i hv
    refine ⟨keysRise_aput o v h.1, fun e he => ?_⟩
    rcases mem_aput he with rfl | he
    · exact hv
    · exact h.2 e he

theorem regsWf_reset {m : List (Nat × Word)} (lvl : Nat) (dom : Nat → Bool) (h : regsWf m) : regsWf (regsReset m lvl dom) := by
  unfold regsReset
  refine ⟨keysRise_filterMap _ ?_ h.1, fun e he => ?_⟩
  · intro e x hx
    split at hx
    · simp only [] at hx
      split at hx
      · cases hx
      · cases hx; rfl
    · cases hx; rfl
  · obtain ⟨z, hz, hze⟩ := List.mem_filterMap.1 he
    split at hze
    · simp only [] at hze
      split at hze
      · cases hze
      · rename_i hne
        cases hze
        exact hne
    · cases hze
      exact h.2 _ hz

theorem State.ev_setReg {P : StatePart → Bool} {s0 s : State} (hp : Need P [.regs]) (h : Ev P s0 s) (o : Nat) (v : Word) : Ev P s0 (s.setReg o v) :=
  h.trans ⟨id, regsWf_put o v, rfl, List.prefix_rfl, Nat.le_refl _, by simp only [State.without, State.setReg, (hp.has rfl : P .regs = true), if_true]⟩

theorem State.ev_setMem {P : StatePart → Bool} {s0 s : State} (hp : Need P [.mem]) (h : Ev P s0 s) (m : Memory) (hm : s.mm.mem.wf = true → m.wf = true) : Ev P s0 (s.setMem m) :=
  h.trans ⟨hm, id, rfl, List.prefix_rfl, Nat.le_refl _, by simp only [State.without, State.setMem, (hp.has rfl : P .mem = true), if_true]; cases P .mm <;> rfl⟩

theorem State.ev_forget {P : StatePart → Bool} {s0 s : State} (hp : Need P [.mm, .freeCtr, .mem]) (h : Ev P s0 s) (lo hi : Nat) : Ev P s0 (s.forget lo hi) :=
  h.trans ⟨Memory.wf_forget lo hi _, id, rfl, List.prefix_rfl, Nat.le_succ _, by
    simp only [State.without, State.forget, (hp.has rfl : P .mm = true), (hp.has rfl : P .mem = true), (hp.has rfl : P .freeCtr = true), if_true]⟩

theorem State.ev_drew {P : StatePart → Bool} {s0 s : State} (hp : Need P [.freeCtr]) (h : Ev P s0 s) : Ev P s0 s.drew :=
  h.trans ⟨id, id, rfl, List.prefix_rfl, Nat.le_succ _, by simp only [State.without, State.drew, (hp.has rfl : P .freeCtr = true), if_true]⟩

end Sys2Proof.Machine
end

