-- ==== Sys2Proof/Laws/EvRegMap.lean ====
section
/-! SUPPORT. The operations of RegMap.lean keep the relation Ev. -/

namespace Sys2Proof.Machine

open Sys2Proof

set_option linter.unusedVariables false

theorem State.ev_setF {Q0 : StatePart → Bool} (hp0 : Need Q0 [.regs]) {s0 s : State} (ev : Ev Q0 s0 s) (f : Fld) (x2 : Nat) : Ev Q0 s0 (State.setF s f x2) := by
  unfold State.setF
  repeat' first | with_reducible assumption | exact Need.sub hp0 rfl | with_reducible apply State.ev_setReg

theorem State.ev_bumpSat {Q0 : StatePart → Bool} (hp0 : Need Q0 [.regs]) {s0 s : State} (ev : Ev Q0 s0 s) (f : Fld) (n : optParam Nat 1) : Ev Q0 s0 (State.bumpSat s f n) := by
  unfold State.bumpSat
  repeat' first | with_reducible assumption | exact Need.sub hp0 rfl | with_reducible apply State.ev_setF

theorem State.ev_bumpWrap {Q0 : StatePart → Bool} (hp0 : Need Q0 [.regs]) {s0 s : State} (ev : Ev Q0 s0 s) (f : Fld) (n : optParam Nat 1) : Ev Q0 s0 (State.bumpWrap s f n) := by
  unfold State.bumpWrap
  repeat' first | with_reducible assumption | exact Need.sub hp0 rfl | with_reducible apply State.ev_setF

theorem State.ev_maxF {Q0 : StatePart → Bool} (hp0 : Need Q0 [.regs]) {s0 s : State} (ev : Ev Q0 s0 s) (f : Fld) (x2 : Nat) : Ev Q0 s0 (State.maxF s f x2) := by
  unfold State.maxF
  repeat' first | with_reducible assumption | exact Need.sub hp0 rfl | with_reducible apply State.ev_setF

end Sys2Proof.Machine
end

