-- ==== Sys2Proof/Laws/EvMem.lean ====
section
/-! SUPPORT. The operations of Mem.lean keep the relation Ev. -/

namespace Sys2Proof.Machine

open Sys2Proof

set_option linter.unusedVariables false

theorem State.ev_setSpan {Q0 : StatePart → Bool} (hp0 : Need Q0 [.mm]) {s0 s : State} (ev : Ev Q0 s0 s) (n : Nat) (v : SpanSt) : Ev Q0 s0 (State.setSpan s n v) := by
  unfold State.setSpan
  repeat' first | with_reducible assumption | exact Need.sub hp0 rfl | ((try lift_lets -underBinder); intro x; first | (refine Ev.cut (P := Q0) (s0 := s0) (x := x) ?_ (fun hx => ?_); unfold x) | (refine Ev.cutP (P := Q0) (s0 := s0) (x := x) (by unfold x; exact rfl) ?_ (fun hx => ?_)) | skip) | with_reducible apply Ev.upd | with_reducible apply Ev.updOut | exact Or.inl (Need.has hp0 rfl) | with_reducible exact Or.inr rfl | exact Need.has hp0 rfl | with_reducible rfl

theorem State.ev_setStack {Q0 : StatePart → Bool} (hp0 : Need Q0 [.mm]) {s0 s : State} (ev : Ev Q0 s0 s) (n : Nat) (v : StackSt) : Ev Q0 s0 (State.setStack s n v) := by
  unfold State.setStack
  repeat' first | with_reducible assumption | exact Need.sub hp0 rfl | ((try lift_lets -underBinder); intro x; first | (refine Ev.cut (P := Q0) (s0 := s0) (x := x) ?_ (fun hx => ?_); unfold x) | (refine Ev.cutP (P := Q0) (s0 := s0) (x := x) (by unfold x; exact rfl) ?_ (fun hx => ?_)) | skip) | with_reducible apply Ev.upd | with_reducible apply Ev.updOut | exact Or.inl (Need.has hp0 rfl) | with_reducible exact Or.inr rfl | exact Need.has hp0 rfl | with_reducible rfl

theorem State.ev_stPiece {Q0 : StatePart → Bool} (hp0 : Need Q0 [.mem]) {s0 s : State} (ev : Ev Q0 s0 s) (a : Nat) (bs : List Byte) : Ev Q0 s0 (State.stPiece s a bs) := by
  unfold State.stPiece
  split
  · exact State.ev_setMem hp0 ev _ (Memory.wf_write _ _)
  · exact ev

theorem State.ev_stGo {Q0 : StatePart → Bool} (hp0 : Need Q0 [.mem]) {s0 s : State} (ev : Ev Q0 s0 s) (fuel : Nat) (a : Nat) (bs : List Byte) : Ev Q0 s0 (State.stGo s fuel a bs) := by
  induction fuel generalizing s a bs with
  | zero => exact ev
  | succ f ih =>
    unfold State.stGo
    split
    · exact ev
    · exact ih (State.ev_stPiece hp0 ev _ _) _ _

theorem State.ev_setPoison {Q0 : StatePart → Bool} (hp0 : Need Q0 [.mm]) {s0 s : State} (ev : Ev Q0 s0 s) (l : List Nat) : Ev Q0 s0 (State.setPoison s l) := by
  unfold State.setPoison
  repeat' first | with_reducible assumption | exact Need.sub hp0 rfl | ((try lift_lets -underBinder); intro x; first | (refine Ev.cut (P := Q0) (s0 := s0) (x := x) ?_ (fun hx => ?_); unfold x) | (refine Ev.cutP (P := Q0) (s0 := s0) (x := x) (by unfold x; exact rfl) ?_ (fun hx => ?_)) | skip) | with_reducible apply Ev.upd | with_reducible apply Ev.updOut | exact Or.inl (Need.has hp0 rfl) | with_reducible exact Or.inr rfl | exact Need.has hp0 rfl | with_reducible rfl

theorem State.ev_st {Q0 : StatePart → Bool} (hp0 : Need Q0 [.mm, .mem]) {s0 s : State} (ev : Ev Q0 s0 s) (a : Nat) (bs : List Byte) (poison : optParam Bool false) : Ev Q0 s0 (State.st s a bs poison) := by
  unfold State.st
  repeat' first | with_reducible assumption | exact Need.sub hp0 rfl | ((try lift_lets -underBinder); intro x; first | (refine Ev.cut (P := Q0) (s0 := s0) (x := x) ?_ (fun hx => ?_); unfold x) | (refine Ev.cutP (P := Q0) (s0 := s0) (x := x) (by unfold x; exact rfl) ?_ (fun hx => ?_)) | skip) | with_reducible apply State.ev_stGo | with_reducible apply State.ev_setPoison | with_reducible refine Ev.foldl _ (fun st a hst => ?_) _ _ ?_ | with_reducible refine Ev.foldlP _ (fun st a hst => ?_) _ _ ?_ | split

theorem State.ev_forgetStack {Q0 : StatePart → Bool} (hp0 : Need Q0 [.mm, .freeCtr, .mem]) {s0 s : State} (ev : Ev Q0 s0 s) (n : Nat) : Ev Q0 s0 (State.forgetStack s n) := by
  unfold State.forgetStack
  repeat' first | with_reducible assumption | exact Need.sub hp0 rfl | with_reducible apply State.ev_forget

theorem State.ev_forgetSpad {Q0 : StatePart → Bool} (hp0 : Need Q0 [.mm, .freeCtr, .mem]) {s0 s : State} (ev : Ev Q0 s0 s) (p : Nat) : Ev Q0 s0 (State.forgetSpad s p) := by
  unfold State.forgetSpad
  repeat' first | with_reducible assumption | exact Need.sub hp0 rfl | with_reducible apply State.ev_forget

theorem State.ev_forgetDeck {Q0 : StatePart → Bool} (hp0 : Need Q0 [.mm, .freeCtr, .mem]) {s0 s : State} (ev : Ev Q0 s0 s) (n : Nat) (lo : Nat) (hi : Nat) : Ev Q0 s0 (State.forgetDeck s n lo hi) := by
  unfold State.forgetDeck
  repeat' first | with_reducible assumption | exact Need.sub hp0 rfl | with_reducible apply State.ev_forget | split

end Sys2Proof.Machine
end

