-- ==== Sys2Proof/Laws/EvRecords.lean ====
section
/-! SUPPORT. The operations of Records.lean keep the relation Ev. -/

namespace Sys2Proof.Machine

open Sys2Proof

set_option linter.unusedVariables false

theorem State.ev_emit {Q0 : StatePart → Bool} (hp0 : Need Q0 [.out]) {s0 s : State} (ev : Ev Q0 s0 s) (o : Out) : Ev Q0 s0 (State.emit s o) := by
  exact ev.trans ⟨id, id, rfl, ⟨[o], rfl⟩, Nat.le_refl _, by simp only [State.without, State.emit, (hp0.has rfl : Q0 .out = true), if_true]⟩

theorem State.ev_setHost {Q0 : StatePart → Bool} (hp0 : Need Q0 [.host]) {s0 s : State} (ev : Ev Q0 s0 s) (h : HostSt) : Ev Q0 s0 (State.setHost s h) := by
  unfold State.setHost
  repeat' first | with_reducible assumption | exact Need.sub hp0 rfl | with_reducible apply Ev.upd | with_reducible apply Ev.updOut | exact Or.inl (Need.has hp0 rfl) | with_reducible exact Or.inr rfl | exact Need.has hp0 rfl | with_reducible rfl

theorem State.ev_setFn {Q0 : StatePart → Bool} (hp0 : Need Q0 [.host]) {s0 s : State} (ev : Ev Q0 s0 s) (fid : Nat) (f : Fn) : Ev Q0 s0 (State.setFn s fid f) := by
  unfold State.setFn
  repeat' first | with_reducible assumption | exact Need.sub hp0 rfl | ((try lift_lets -underBinder); intro x; first | (refine Ev.cut (P := Q0) (s0 := s0) (x := x) ?_ (fun hx => ?_); unfold x) | (refine Ev.cutP (P := Q0) (s0 := s0) (x := x) (by unfold x; exact rfl) ?_ (fun hx => ?_)) | skip) | with_reducible apply State.ev_setHost

theorem State.ev_setLink {Q0 : StatePart → Bool} (hp0 : Need Q0 [.host]) {s0 s : State} (ev : Ev Q0 s0 s) (l : Nat) (v : LinkSt) : Ev Q0 s0 (State.setLink s l v) := by
  unfold State.setLink
  repeat' first | with_reducible assumption | exact Need.sub hp0 rfl | ((try lift_lets -underBinder); intro x; first | (refine Ev.cut (P := Q0) (s0 := s0) (x := x) ?_ (fun hx => ?_); unfold x) | (refine Ev.cutP (P := Q0) (s0 := s0) (x := x) (by unfold x; exact rfl) ?_ (fun hx => ?_)) | skip) | with_reducible apply State.ev_setHost

theorem State.ev_setSq {Q0 : StatePart → Bool} (hp0 : Need Q0 [.host]) {s0 s : State} (ev : Ev Q0 s0 s) (n : Nat) (q : Sq) : Ev Q0 s0 (State.setSq s n q) := by
  unfold State.setSq
  repeat' first | with_reducible assumption | exact Need.sub hp0 rfl | ((try lift_lets -underBinder); intro x; first | (refine Ev.cut (P := Q0) (s0 := s0) (x := x) ?_ (fun hx => ?_); unfold x) | (refine Ev.cutP (P := Q0) (s0 := s0) (x := x) (by unfold x; exact rfl) ?_ (fun hx => ?_)) | skip) | with_reducible apply State.ev_setHost

theorem State.ev_setCq {Q0 : StatePart → Bool} (hp0 : Need Q0 [.host]) {s0 s : State} (ev : Ev Q0 s0 s) (n : Nat) (q : Cq) : Ev Q0 s0 (State.setCq s n q) := by
  unfold State.setCq
  repeat' first | with_reducible assumption | exact Need.sub hp0 rfl | ((try lift_lets -underBinder); intro x; first | (refine Ev.cut (P := Q0) (s0 := s0) (x := x) ?_ (fun hx => ?_); unfold x) | (refine Ev.cutP (P := Q0) (s0 := s0) (x := x) (by unfold x; exact rfl) ?_ (fun hx => ?_)) | skip) | with_reducible apply State.ev_setHost

theorem State.ev_sendVector {Q0 : StatePart → Bool} (hp0 : Need Q0 [.host, .out]) {s0 s : State} (ev : Ev Q0 s0 s) (fid : Nat) (vec : Nat) : Ev Q0 s0 (State.sendVector s fid vec) := by
  unfold State.sendVector
  repeat' first | with_reducible assumption | exact Need.sub hp0 rfl | ((try lift_lets -underBinder); intro x; first | (refine Ev.cut (P := Q0) (s0 := s0) (x := x) ?_ (fun hx => ?_); unfold x) | (refine Ev.cutP (P := Q0) (s0 := s0) (x := x) (by unfold x; exact rfl) ?_ (fun hx => ?_)) | skip) | with_reducible apply State.ev_emit | with_reducible apply State.ev_setFn | split

theorem State.ev_irqCheck {Q0 : StatePart → Bool} (hp0 : Need Q0 [.host, .out]) {s0 s : State} (ev : Ev Q0 s0 s) (n : Nat) : Ev Q0 s0 (State.irqCheck s n) := by
  unfold State.irqCheck
  repeat' first | with_reducible assumption | exact Need.sub hp0 rfl | ((try lift_lets -underBinder); intro x; first | (refine Ev.cut (P := Q0) (s0 := s0) (x := x) ?_ (fun hx => ?_); unfold x) | (refine Ev.cutP (P := Q0) (s0 := s0) (x := x) (by unfold x; exact rfl) ?_ (fun hx => ?_)) | skip) | with_reducible apply State.ev_sendVector | with_reducible apply State.ev_setCq | split

theorem State.ev_postNow {Q0 : StatePart → Bool} (hp0 : Need Q0 [.host, .regs, .out]) {s0 s : State} (ev : Ev Q0 s0 s) (n : Nat) (r : List Byte) (irqNow : Bool) : Ev Q0 s0 (State.postNow s n r irqNow) := by
  unfold State.postNow
  repeat' first | with_reducible assumption | exact Need.sub hp0 rfl | ((try lift_lets -underBinder); intro x; first | (refine Ev.cut (P := Q0) (s0 := s0) (x := x) ?_ (fun hx => ?_); unfold x) | (refine Ev.cutP (P := Q0) (s0 := s0) (x := x) (by unfold x; exact rfl) ?_ (fun hx => ?_)) | skip) | with_reducible apply State.ev_emit | with_reducible apply State.ev_setCq | with_reducible apply State.ev_irqCheck | with_reducible apply State.ev_setF | split

theorem State.ev_holdRec {Q0 : StatePart → Bool} (hp0 : Need Q0 [.host, .regs]) {s0 s : State} (ev : Ev Q0 s0 s) (n : Nat) (r : List Byte) (final : Bool) (irqNow : Bool) : Ev Q0 s0 (State.holdRec s n r final irqNow) := by
  unfold State.holdRec
  repeat' first | with_reducible assumption | exact Need.sub hp0 rfl | ((try lift_lets -underBinder); intro x; first | (refine Ev.cut (P := Q0) (s0 := s0) (x := x) ?_ (fun hx => ?_); unfold x) | (refine Ev.cutP (P := Q0) (s0 := s0) (x := x) (by unfold x; exact rfl) ?_ (fun hx => ?_)) | skip) | with_reducible apply State.ev_setHost | with_reducible apply State.ev_setF | with_reducible apply State.ev_bumpSat | split

theorem State.ev_post {Q0 : StatePart → Bool} (hp0 : Need Q0 [.host, .regs, .out]) {s0 s : State} (ev : Ev Q0 s0 s) (n : Nat) (r : List Byte) (final : Bool) (resv : Bool) (irqNow : Bool) : Ev Q0 s0 (State.post s n r final resv irqNow) := by
  unfold State.post
  repeat' first | with_reducible assumption | exact Need.sub hp0 rfl | with_reducible apply State.ev_postNow | with_reducible apply State.ev_holdRec | split

theorem State.ev_drainCq {Q0 : StatePart → Bool} (hp0 : Need Q0 [.host, .regs, .out]) {s0 s : State} (ev : Ev Q0 s0 s) (fuel : Nat) (n : Nat) : Ev Q0 s0 (State.drainCq s fuel n) := by
  induction fuel generalizing s with
  | zero => unfold State.drainCq; repeat' first | with_reducible assumption | exact Need.sub hp0 rfl | ((try lift_lets -underBinder); intro x; first | (refine Ev.cut (P := Q0) (s0 := s0) (x := x) ?_ (fun hx => ?_); unfold x) | (refine Ev.cutP (P := Q0) (s0 := s0) (x := x) (by unfold x; exact rfl) ?_ (fun hx => ?_)) | skip) | with_reducible apply State.ev_setHost | with_reducible apply State.ev_postNow | split
  | succ k ih =>
    unfold State.drainCq
    repeat' first | with_reducible assumption | exact Need.sub hp0 rfl | ((try lift_lets -underBinder); intro x; first | (refine Ev.cut (P := Q0) (s0 := s0) (x := x) ?_ (fun hx => ?_); unfold x) | (refine Ev.cutP (P := Q0) (s0 := s0) (x := x) (by unfold x; exact rfl) ?_ (fun hx => ?_)) | skip) | with_reducible apply State.ev_setHost | with_reducible apply State.ev_postNow | split | apply ih

theorem State.ev_logRing {Q0 : StatePart → Bool} (hp0 : Need Q0 [.log]) {s0 s : State} (ev : Ev Q0 s0 s) (r : List Byte) : Ev Q0 s0 (State.logRing s r) := by
  unfold State.logRing
  repeat' first | with_reducible assumption | exact Need.sub hp0 rfl | ((try lift_lets -underBinder); intro x; first | (refine Ev.cut (P := Q0) (s0 := s0) (x := x) ?_ (fun hx => ?_); unfold x) | (refine Ev.cutP (P := Q0) (s0 := s0) (x := x) (by unfold x; exact rfl) ?_ (fun hx => ?_)) | skip) | split | with_reducible apply Ev.upd | with_reducible apply Ev.updOut | exact Or.inl (Need.has hp0 rfl) | with_reducible exact Or.inr rfl | exact Need.has hp0 rfl | with_reducible rfl

theorem State.ev_logLedger {Q0 : StatePart → Bool} (hp0 : Need Q0 [.log, .regs]) {s0 s : State} (ev : Ev Q0 s0 s) (r : List Byte) : Ev Q0 s0 (State.logLedger s r) := by
  unfold State.logLedger
  repeat' first | with_reducible assumption | exact Need.sub hp0 rfl | ((try lift_lets -underBinder); intro x; first | (refine Ev.cut (P := Q0) (s0 := s0) (x := x) ?_ (fun hx => ?_); unfold x) | (refine Ev.cutP (P := Q0) (s0 := s0) (x := x) (by unfold x; exact rfl) ?_ (fun hx => ?_)) | skip) | with_reducible apply State.ev_setF | split | with_reducible apply Ev.upd | with_reducible apply Ev.updOut | exact Or.inl (Need.has hp0 rfl) | with_reducible exact Or.inr rfl | exact Need.has hp0 rfl | with_reducible rfl

theorem State.ev_writeRaw {Q0 : StatePart → Bool} (hp0 : Need Q0 [.host, .log, .regs, .out]) {s0 s : State} (ev : Ev Q0 s0 s) (typ : Nat) (level : Nat) (sev : Nat) (cause : Nat) (injected : Bool) (ledger : Bool) (body : List Byte) (owner : Option Nat) : Ev Q0 s0 (State.writeRaw s typ level sev cause injected ledger body owner) := by
  unfold State.writeRaw
  repeat' first | with_reducible assumption | exact Need.sub hp0 rfl | ((try lift_lets -underBinder); intro x; first | (refine Ev.cut (P := Q0) (s0 := s0) (x := x) ?_ (fun hx => ?_); unfold x) | (refine Ev.cutP (P := Q0) (s0 := s0) (x := x) (by unfold x; exact rfl) ?_ (fun hx => ?_)) | skip) | with_reducible apply State.ev_setF | with_reducible apply State.ev_logRing | with_reducible apply State.ev_logLedger | with_reducible apply State.ev_post | with_reducible refine Ev.foldl _ (fun st a hst => ?_) _ _ ?_ | with_reducible refine Ev.foldlP _ (fun st a hst => ?_) _ _ ?_ | split

theorem State.ev_errRec {Q0 : StatePart → Bool} (hp0 : Need Q0 [.host, .log, .regs, .out]) {s0 s : State} (ev : Ev Q0 s0 s) (r : RecSpec) : Ev Q0 s0 (State.errRec s r) := by
  unfold State.errRec
  repeat' first | with_reducible assumption | exact Need.sub hp0 rfl | with_reducible apply State.ev_writeRaw

theorem State.ev_unreserve {Q0 : StatePart → Bool} (hp0 : Need Q0 [.host]) {s0 s : State} (ev : Ev Q0 s0 s) (sq : Nat) (k : Nat) : Ev Q0 s0 (State.unreserve s sq k) := by
  unfold State.unreserve
  repeat' first | with_reducible assumption | exact Need.sub hp0 rfl | ((try lift_lets -underBinder); intro x; first | (refine Ev.cut (P := Q0) (s0 := s0) (x := x) ?_ (fun hx => ?_); unfold x) | (refine Ev.cutP (P := Q0) (s0 := s0) (x := x) (by unfold x; exact rfl) ?_ (fun hx => ?_)) | skip) | with_reducible apply State.ev_setCq

theorem State.ev_finish {Q0 : StatePart → Bool} (hp0 : Need Q0 [.host, .regs, .out]) {s0 s : State} (ev : Ev Q0 s0 s) (f : InFlight) (status : Nat) (body : List Byte) : Ev Q0 s0 (State.finish s f status body) := by
  unfold State.finish
  repeat' first | with_reducible assumption | exact Need.sub hp0 rfl | ((try lift_lets -underBinder); intro x; first | (refine Ev.cut (P := Q0) (s0 := s0) (x := x) ?_ (fun hx => ?_); unfold x) | (refine Ev.cutP (P := Q0) (s0 := s0) (x := x) (by unfold x; exact rfl) ?_ (fun hx => ?_)) | skip) | with_reducible apply State.ev_setHost | with_reducible apply State.ev_unreserve | with_reducible apply State.ev_post

theorem State.ev_setFlight {Q0 : StatePart → Bool} (hp0 : Need Q0 [.host]) {s0 s : State} (ev : Ev Q0 s0 s) (f : InFlight) : Ev Q0 s0 (State.setFlight s f) := by
  unfold State.setFlight
  repeat' first | with_reducible assumption | exact Need.sub hp0 rfl | ((try lift_lets -underBinder); intro x; first | (refine Ev.cut (P := Q0) (s0 := s0) (x := x) ?_ (fun hx => ?_); unfold x) | (refine Ev.cutP (P := Q0) (s0 := s0) (x := x) (by unfold x; exact rfl) ?_ (fun hx => ?_)) | skip) | with_reducible apply State.ev_setHost

end Sys2Proof.Machine
end

