-- ==== Sys2Proof/Laws/EvStreamCache.lean ====
section
/-! SUPPORT. The operations of StreamCache.lean keep the relation Ev. -/

namespace Sys2Proof.Machine

open Sys2Proof

set_option linter.unusedVariables false

theorem State.ev_putEntry {Q0 : StatePart → Bool} (hp0 : Need Q0 [.mm, .mem]) {s0 s : State} (ev : Ev Q0 s0 s) (id : Nat) (b : Nat) (bs : List Byte) : Ev Q0 s0 (State.putEntry s id b bs) := by
  unfold State.putEntry
  repeat' first | with_reducible assumption | exact Need.sub hp0 rfl | with_reducible apply State.ev_st

theorem State.ev_setStreams {Q0 : StatePart → Bool} (hp0 : Need Q0 [.streams, .regs]) {s0 s : State} (ev : Ev Q0 s0 s) (c : StreamSt) : Ev Q0 s0 (State.setStreams s c) := by
  unfold State.setStreams
  repeat' first | with_reducible assumption | exact Need.sub hp0 rfl | ((try lift_lets -underBinder); intro x; first | (refine Ev.cut (P := Q0) (s0 := s0) (x := x) ?_ (fun hx => ?_); unfold x) | (refine Ev.cutP (P := Q0) (s0 := s0) (x := x) (by unfold x; exact rfl) ?_ (fun hx => ?_)) | skip) | with_reducible apply State.ev_setF | with_reducible apply Ev.upd | with_reducible apply Ev.updOut | exact Or.inl (Need.has hp0 rfl) | with_reducible exact Or.inr rfl | exact Need.has hp0 rfl | with_reducible rfl

theorem State.ev_loadStream {Q0 : StatePart → Bool} (hp0 : Need Q0 [.streams, .regs]) {s0 s : State} (ev : Ev Q0 s0 s) (id : Nat) : Ev Q0 s0 (State.loadStream s id) := by
  unfold State.loadStream
  repeat' first | with_reducible assumption | exact Need.sub hp0 rfl | ((try lift_lets -underBinder); intro x; first | (refine Ev.cut (P := Q0) (s0 := s0) (x := x) ?_ (fun hx => ?_); unfold x) | (refine Ev.cutP (P := Q0) (s0 := s0) (x := x) (by unfold x; exact rfl) ?_ (fun hx => ?_)) | skip) | with_reducible apply State.ev_setStreams | with_reducible apply State.ev_bumpSat | split

theorem State.ev_useStream {Q0 : StatePart → Bool} (hp0 : Need Q0 [.streams, .regs]) {s0 s : State} (ev : Ev Q0 s0 s) (id : Nat) : Ev Q0 s0 (State.useStream s id) := by
  unfold State.useStream
  repeat' first | with_reducible assumption | exact Need.sub hp0 rfl | with_reducible apply State.ev_loadStream | with_reducible apply State.ev_bumpWrap | split

theorem State.ev_askStream {Q0 : StatePart → Bool} (hp0 : Need Q0 [.streams, .regs]) {s0 s : State} (ev : Ev Q0 s0 s) (id : Nat) : Ev Q0 s0 (State.askStream s id).1 := by
  unfold State.askStream
  repeat' first | with_reducible assumption | exact Need.sub hp0 rfl | ((try lift_lets -underBinder); intro x; first | (refine Ev.cut (P := Q0) (s0 := s0) (x := x) ?_ (fun hx => ?_); unfold x) | (refine Ev.cutP (P := Q0) (s0 := s0) (x := x) (by unfold x; exact rfl) ?_ (fun hx => ?_)) | skip) | with_reducible apply State.ev_setStreams | with_reducible apply State.ev_bumpWrap | with_reducible apply State.ev_maxF | split

theorem State.ev_askStream_eq {Q0 : StatePart → Bool} (hp0 : Need Q0 [.streams, .regs]) {s0 s : State} (ev : Ev Q0 s0 s) (id : Nat) {sT : State} {r : Bool} (e : (State.askStream s id) = (sT, r)) : Ev Q0 s0 sT := by
  have h := State.ev_askStream hp0 ev id
  rw [e] at h
  exact h

theorem State.ev_unpinWay {Q0 : StatePart → Bool} (hp0 : Need Q0 [.streams, .regs]) {s0 s : State} (ev : Ev Q0 s0 s) (id : Nat) : Ev Q0 s0 (State.unpinWay s id) := by
  unfold State.unpinWay
  repeat' first | with_reducible assumption | exact Need.sub hp0 rfl | ((try lift_lets -underBinder); intro x; first | (refine Ev.cut (P := Q0) (s0 := s0) (x := x) ?_ (fun hx => ?_); unfold x) | (refine Ev.cutP (P := Q0) (s0 := s0) (x := x) (by unfold x; exact rfl) ?_ (fun hx => ?_)) | skip) | with_reducible apply State.ev_setStreams | split

theorem State.ev_pinWay {Q0 : StatePart → Bool} (hp0 : Need Q0 [.streams, .regs]) {s0 s : State} (ev : Ev Q0 s0 s) (id : Nat) : Ev Q0 s0 (State.pinWay s id) := by
  unfold State.pinWay
  repeat' first | with_reducible assumption | exact Need.sub hp0 rfl | ((try lift_lets -underBinder); intro x; first | (refine Ev.cut (P := Q0) (s0 := s0) (x := x) ?_ (fun hx => ?_); unfold x) | (refine Ev.cutP (P := Q0) (s0 := s0) (x := x) (by unfold x; exact rfl) ?_ (fun hx => ?_)) | skip) | with_reducible apply State.ev_useStream | with_reducible apply State.ev_setStreams

end Sys2Proof.Machine
end

