-- ==== Sys2Proof/Laws/EvTrace.lean ====
section
/-! SUPPORT. The operations of Trace.lean keep the relation Ev. -/

namespace Sys2Proof.Machine

open Sys2Proof

set_option linter.unusedVariables false

theorem State.ev_tracePut {Q0 : StatePart → Bool} (hp0 : Need Q0 [.mm, .regs, .mem]) {s0 s : State} (ev : Ev Q0 s0 s) (c : Nat) (r : TraceRec) : Ev Q0 s0 (State.tracePut s c r) := by
  unfold State.tracePut
  repeat' first | with_reducible assumption | exact Need.sub hp0 rfl | ((try lift_lets -underBinder); intro x; first | (refine Ev.cut (P := Q0) (s0 := s0) (x := x) ?_ (fun hx => ?_); unfold x) | (refine Ev.cutP (P := Q0) (s0 := s0) (x := x) (by unfold x; exact rfl) ?_ (fun hx => ?_)) | skip) | with_reducible apply State.ev_setF | with_reducible apply State.ev_st

theorem State.ev_traceLostFirst {Q0 : StatePart → Bool} (hp0 : Need Q0 [.mm, .traceLost, .regs, .mem]) {s0 s : State} (ev : Ev Q0 s0 s) (c : Nat) : Ev Q0 s0 (State.traceLostFirst s c) := by
  unfold State.traceLostFirst
  repeat' first | with_reducible assumption | exact Need.sub hp0 rfl | ((try lift_lets -underBinder); intro x; first | (refine Ev.cut (P := Q0) (s0 := s0) (x := x) ?_ (fun hx => ?_); unfold x) | (refine Ev.cutP (P := Q0) (s0 := s0) (x := x) (by unfold x; exact rfl) ?_ (fun hx => ?_)) | skip) | with_reducible apply State.ev_tracePut | split | with_reducible apply Ev.upd | with_reducible apply Ev.updOut | exact Or.inl (Need.has hp0 rfl) | with_reducible exact Or.inr rfl | exact Need.has hp0 rfl | with_reducible rfl

theorem State.ev_trace {Q0 : StatePart → Bool} (hp0 : Need Q0 [.mm, .traceLost, .regs, .mem]) {s0 s : State} (ev : Ev Q0 s0 s) (c : Nat) (r : TraceRec) : Ev Q0 s0 (State.trace s c r) := by
  unfold State.trace
  repeat' first | with_reducible assumption | exact Need.sub hp0 rfl | ((try lift_lets -underBinder); intro x; first | (refine Ev.cut (P := Q0) (s0 := s0) (x := x) ?_ (fun hx => ?_); unfold x) | (refine Ev.cutP (P := Q0) (s0 := s0) (x := x) (by unfold x; exact rfl) ?_ (fun hx => ?_)) | skip) | with_reducible apply State.ev_traceLostFirst | with_reducible apply State.ev_tracePut | with_reducible apply State.ev_bumpSat | split | with_reducible apply Ev.upd | with_reducible apply Ev.updOut | exact Or.inl (Need.has hp0 rfl) | with_reducible exact Or.inr rfl | exact Need.has hp0 rfl | with_reducible rfl

end Sys2Proof.Machine
end

