-- ==== Sys2Proof/Laws/EvStepOps.lean ====
section
/-! SUPPORT. The operations of StepOps.lean keep the relation Ev. -/

namespace Sys2Proof.Machine

open Sys2Proof

set_option linter.unusedVariables false

theorem State.ev_setStep {Q0 : StatePart → Bool} (hp0 : Need Q0 [.steps]) {s0 s : State} (ev : Ev Q0 s0 s) (i : Nat) (t : Step) : Ev Q0 s0 (State.setStep s i t) := by
  unfold State.setStep
  repeat' first | with_reducible assumption | exact Need.sub hp0 rfl | ((try lift_lets -underBinder); intro x; first | (refine Ev.cut (P := Q0) (s0 := s0) (x := x) ?_ (fun hx => ?_); unfold x) | (refine Ev.cutP (P := Q0) (s0 := s0) (x := x) (by unfold x; exact rfl) ?_ (fun hx => ?_)) | skip) | with_reducible apply Ev.upd | with_reducible apply Ev.updOut | exact Or.inl (Need.has hp0 rfl) | with_reducible exact Or.inr rfl | exact Need.has hp0 rfl | with_reducible rfl

theorem State.ev_dropColls {Q0 : StatePart → Bool} (hp0 : Need Q0 [.col]) {s0 s : State} (ev : Ev Q0 s0 s) (i : Nat) : Ev Q0 s0 (State.dropColls s i) := by
  unfold State.dropColls
  repeat' first | with_reducible assumption | exact Need.sub hp0 rfl | ((try lift_lets -underBinder); intro x; first | (refine Ev.cut (P := Q0) (s0 := s0) (x := x) ?_ (fun hx => ?_); unfold x) | (refine Ev.cutP (P := Q0) (s0 := s0) (x := x) (by unfold x; exact rfl) ?_ (fun hx => ?_)) | skip) | with_reducible apply Ev.upd | with_reducible apply Ev.updOut | exact Or.inl (Need.has hp0 rfl) | with_reducible exact Or.inr rfl | exact Need.has hp0 rfl | with_reducible rfl

theorem State.ev_dropStep {Q0 : StatePart → Bool} (hp0 : Need Q0 [.steps, .rmt, .col]) {s0 s : State} (ev : Ev Q0 s0 s) (i : Nat) : Ev Q0 s0 (State.dropStep s i) := by
  unfold State.dropStep
  repeat' first | with_reducible assumption | exact Need.sub hp0 rfl | ((try lift_lets -underBinder); intro x; first | (refine Ev.cut (P := Q0) (s0 := s0) (x := x) ?_ (fun hx => ?_); unfold x) | (refine Ev.cutP (P := Q0) (s0 := s0) (x := x) (by unfold x; exact rfl) ?_ (fun hx => ?_)) | skip) | with_reducible apply State.ev_dropColls | with_reducible apply Ev.upd | with_reducible apply Ev.updOut | exact Or.inl (Need.has hp0 rfl) | with_reducible exact Or.inr rfl | exact Need.has hp0 rfl | with_reducible rfl

theorem State.ev_modStep {Q0 : StatePart → Bool} (hp0 : Need Q0 [.steps]) {s0 s : State} (ev : Ev Q0 s0 s) (i : Nat) (f : Step → Step) : Ev Q0 s0 (State.modStep s i f) := by
  unfold State.modStep
  repeat' first | with_reducible assumption | exact Need.sub hp0 rfl | with_reducible apply State.ev_setStep | split

theorem State.ev_modCore {Q0 : StatePart → Bool} (hp0 : Need Q0 [.cores]) {s0 s : State} (ev : Ev Q0 s0 s) (c : Nat) (f : CoreSt → CoreSt) : Ev Q0 s0 (State.modCore s c f) := by
  unfold State.modCore
  repeat' first | with_reducible assumption | exact Need.sub hp0 rfl | with_reducible apply Ev.upd | with_reducible apply Ev.updOut | exact Or.inl (Need.has hp0 rfl) | with_reducible exact Or.inr rfl | exact Need.has hp0 rfl | with_reducible rfl

theorem State.ev_beginWakes {Q0 : StatePart → Bool} (hp0 : Need Q0 [.cores]) {s0 s : State} (ev : Ev Q0 s0 s) (t : Step) : Ev Q0 s0 (State.beginWakes s t) := by
  unfold State.beginWakes
  repeat' first | with_reducible assumption | exact Need.sub hp0 rfl | with_reducible apply State.ev_modCore | with_reducible refine Ev.foldl _ (fun st a hst => ?_) _ _ ?_ | with_reducible refine Ev.foldlP _ (fun st a hst => ?_) _ _ ?_ | split

theorem State.ev_traceStepEnd {Q0 : StatePart → Bool} (hp0 : Need Q0 [.mm, .traceLost, .regs, .mem]) {s0 s : State} (ev : Ev Q0 s0 s) (t : Step) (status : Nat) (cause : Nat) : Ev Q0 s0 (State.traceStepEnd s t status cause) := by
  unfold State.traceStepEnd
  repeat' first | with_reducible assumption | exact Need.sub hp0 rfl | with_reducible apply State.ev_trace | with_reducible refine Ev.foldl _ (fun st a hst => ?_) _ _ ?_ | with_reducible refine Ev.foldlP _ (fun st a hst => ?_) _ _ ?_ | split

theorem State.ev_beginCopies {Q0 : StatePart → Bool} (hp0 : Need Q0 [.steps, .streams, .cores, .regs]) {s0 s : State} (ev : Ev Q0 s0 s) (i : Nat) : Ev Q0 s0 (State.beginCopies s i) := by
  unfold State.beginCopies
  repeat' first | with_reducible assumption | exact Need.sub hp0 rfl | ((try lift_lets -underBinder); intro x; first | (refine Ev.cut (P := Q0) (s0 := s0) (x := x) ?_ (fun hx => ?_); unfold x) | (refine Ev.cutP (P := Q0) (s0 := s0) (x := x) (by unfold x; exact rfl) ?_ (fun hx => ?_)) | skip) | with_reducible apply State.ev_askStream | with_reducible apply State.ev_beginWakes | with_reducible apply State.ev_modStep | with_reducible refine State.ev_askStream_eq (Need.sub hp0 rfl) ?_ _ (by with_reducible assumption) | with_reducible refine Ev.foldl _ (fun st a hst => ?_) _ _ ?_ | with_reducible refine Ev.foldlP _ (fun st a hst => ?_) _ _ ?_ | split

theorem State.ev_startCopies {Q0 : StatePart → Bool} (hp0 : Need Q0 [.steps, .streams, .cores, .regs]) {s0 s : State} (ev : Ev Q0 s0 s)  : Ev Q0 s0 (State.startCopies s) := by
  unfold State.startCopies
  repeat' first | with_reducible assumption | exact Need.sub hp0 rfl | with_reducible apply State.ev_beginCopies | with_reducible refine Ev.foldl _ (fun st a hst => ?_) _ _ ?_ | with_reducible refine Ev.foldlP _ (fun st a hst => ?_) _ _ ?_

theorem State.ev_setRouter {Q0 : StatePart → Bool} (hp0 : Need Q0 [.router]) {s0 s : State} (ev : Ev Q0 s0 s) (r : RouterSt) : Ev Q0 s0 (State.setRouter s r) := by
  unfold State.setRouter
  repeat' first | with_reducible assumption | exact Need.sub hp0 rfl | with_reducible apply Ev.upd | with_reducible apply Ev.updOut | exact Or.inl (Need.has hp0 rfl) | with_reducible exact Or.inr rfl | exact Need.has hp0 rfl | with_reducible rfl

theorem State.ev_sendFrame {Q0 : StatePart → Bool} (hp0 : Need Q0 [.router]) {s0 s : State} (ev : Ev Q0 s0 s) (dst : Nat) (cls : Nat) (typ : Nat) (parts : List (List Byte)) : Ev Q0 s0 (State.sendFrame s dst cls typ parts) := by
  unfold State.sendFrame
  repeat' first | with_reducible assumption | exact Need.sub hp0 rfl | ((try lift_lets -underBinder); intro x; first | (refine Ev.cut (P := Q0) (s0 := s0) (x := x) ?_ (fun hx => ?_); unfold x) | (refine Ev.cutP (P := Q0) (s0 := s0) (x := x) (by unfold x; exact rfl) ?_ (fun hx => ?_)) | skip) | with_reducible apply State.ev_setRouter

theorem State.ev_putCtx {Q0 : StatePart → Bool} (hp0 : Need Q0 [.mm, .mem]) {s0 s : State} (ev : Ev Q0 s0 s) (slot : Nat) (ix : Nat) (b : Nat) (bs : List Byte) : Ev Q0 s0 (State.putCtx s slot ix b bs) := by
  unfold State.putCtx
  repeat' first | with_reducible assumption | exact Need.sub hp0 rfl | with_reducible apply State.ev_st

theorem State.ev_writeBackCtx {Q0 : StatePart → Bool} (hp0 : Need Q0 [.mm, .mem]) {s0 s : State} (ev : Ev Q0 s0 s) (slot : Nat) (ix : Nat) (id : Nat) : Ev Q0 s0 (State.writeBackCtx s slot ix id) := by
  unfold State.writeBackCtx
  repeat' first | with_reducible assumption | exact Need.sub hp0 rfl | ((try lift_lets -underBinder); intro x; first | (refine Ev.cut (P := Q0) (s0 := s0) (x := x) ?_ (fun hx => ?_); unfold x) | (refine Ev.cutP (P := Q0) (s0 := s0) (x := x) (by unfold x; exact rfl) ?_ (fun hx => ?_)) | skip) | with_reducible apply State.ev_putEntry

theorem State.ev_unstage {Q0 : StatePart → Bool} (hp0 : Need Q0 [.mm, .mem]) {s0 s : State} (ev : Ev Q0 s0 s) (id : Nat) : Ev Q0 s0 (State.unstage s id) := by
  unfold State.unstage
  repeat' first | with_reducible assumption | exact Need.sub hp0 rfl | ((try lift_lets -underBinder); intro x; first | (refine Ev.cut (P := Q0) (s0 := s0) (x := x) ?_ (fun hx => ?_); unfold x) | (refine Ev.cutP (P := Q0) (s0 := s0) (x := x) (by unfold x; exact rfl) ?_ (fun hx => ?_)) | skip) | with_reducible apply State.ev_putEntry

theorem State.ev_commitEntry {Q0 : StatePart → Bool} (hp0 : Need Q0 [.mm, .mem]) {s0 s : State} (ev : Ev Q0 s0 s) (id : Nat) : Ev Q0 s0 (State.commitEntry s id) := by
  unfold State.commitEntry
  repeat' first | with_reducible assumption | exact Need.sub hp0 rfl | ((try lift_lets -underBinder); intro x; first | (refine Ev.cut (P := Q0) (s0 := s0) (x := x) ?_ (fun hx => ?_); unfold x) | (refine Ev.cutP (P := Q0) (s0 := s0) (x := x) (by unfold x; exact rfl) ?_ (fun hx => ?_)) | skip) | with_reducible apply State.ev_putEntry | split

theorem State.ev_postStep {Q0 : StatePart → Bool} (hp0 : Need Q0 [.host, .regs, .out]) {s0 s : State} (ev : Ev Q0 s0 s) (t : Step) (status : Nat) (cause : Nat) (early : optParam Bool false) : Ev Q0 s0 (State.postStep s t status cause early) := by
  unfold State.postStep
  repeat' first | with_reducible assumption | exact Need.sub hp0 rfl | with_reducible apply State.ev_finish | split

theorem State.ev_postStream {Q0 : StatePart → Bool} (hp0 : Need Q0 [.host, .regs, .out]) {s0 s : State} (ev : Ev Q0 s0 s) (t : Step) (r : StreamRun) (rec : List Byte) : Ev Q0 s0 (State.postStream s t r rec) := by
  unfold State.postStream
  repeat' first | with_reducible assumption | exact Need.sub hp0 rfl | ((try lift_lets -underBinder); intro x; first | (refine Ev.cut (P := Q0) (s0 := s0) (x := x) ?_ (fun hx => ?_); unfold x) | (refine Ev.cutP (P := Q0) (s0 := s0) (x := x) (by unfold x; exact rfl) ?_ (fun hx => ?_)) | skip) | with_reducible apply State.ev_post | with_reducible apply State.ev_bumpSat | split

theorem State.ev_postExcluded {Q0 : StatePart → Bool} (hp0 : Need Q0 [.host, .regs, .out]) {s0 s : State} (ev : Ev Q0 s0 s) (t : Step) : Ev Q0 s0 (State.postExcluded s t) := by
  unfold State.postExcluded
  repeat' first | with_reducible assumption | exact Need.sub hp0 rfl | with_reducible apply State.ev_postStream | with_reducible refine Ev.foldl _ (fun st a hst => ?_) _ _ ?_ | with_reducible refine Ev.foldlP _ (fun st a hst => ?_) _ _ ?_ | split

theorem State.ev_resolveSlot {Q0 : StatePart → Bool} (hp0 : Need Q0 [.steps, .streams, .rmt, .col, .cores, .regs]) {s0 s : State} (ev : Ev Q0 s0 s) (i : Nat) (t : Step) (committed : Bool) : Ev Q0 s0 (State.resolveSlot s i t committed) := by
  unfold State.resolveSlot
  repeat' first | with_reducible assumption | exact Need.sub hp0 rfl | ((try lift_lets -underBinder); intro x; first | (refine Ev.cut (P := Q0) (s0 := s0) (x := x) ?_ (fun hx => ?_); unfold x) | (refine Ev.cutP (P := Q0) (s0 := s0) (x := x) (by unfold x; exact rfl) ?_ (fun hx => ?_)) | skip) | with_reducible apply State.ev_dropStep | with_reducible apply State.ev_startCopies | split | with_reducible apply Ev.upd | with_reducible apply Ev.updOut | exact Or.inl (Need.has hp0 rfl) | with_reducible exact Or.inr rfl | exact Need.has hp0 rfl | with_reducible rfl

theorem State.ev_commitStep {Q0 : StatePart → Bool} (hp0 : Need Q0 [.host, .steps, .mm, .streams, .traceLost, .rmt, .col, .cores, .regs, .out, .mem]) {s0 s : State} (ev : Ev Q0 s0 s) (i : Nat) (d : Decision) : Ev Q0 s0 (State.commitStep s i d) := by
  unfold State.commitStep
  repeat' first | with_reducible assumption | exact Need.sub hp0 rfl | ((try lift_lets -underBinder); intro x; first | (refine Ev.cut (P := Q0) (s0 := s0) (x := x) ?_ (fun hx => ?_); unfold x) | (refine Ev.cutP (P := Q0) (s0 := s0) (x := x) (by unfold x; exact rfl) ?_ (fun hx => ?_)) | skip) | with_reducible apply State.ev_useStream | with_reducible apply State.ev_unstage | with_reducible apply State.ev_commitEntry | with_reducible apply State.ev_bumpWrap | with_reducible apply State.ev_postStep | with_reducible apply State.ev_postExcluded | with_reducible apply State.ev_postStream | with_reducible apply State.ev_resolveSlot | with_reducible apply State.ev_traceStepEnd | with_reducible refine Ev.foldl _ (fun st a hst => ?_) _ _ ?_ | with_reducible refine Ev.foldlP _ (fun st a hst => ?_) _ _ ?_ | split

theorem State.ev_abortPost {Q0 : StatePart → Bool} (hp0 : Need Q0 [.host, .steps, .mm, .streams, .traceLost, .rmt, .col, .cores, .regs, .out, .mem]) {s0 s : State} (ev : Ev Q0 s0 s) (i : Nat) (status : Nat) : Ev Q0 s0 (State.abortPost s i status) := by
  unfold State.abortPost
  repeat' first | with_reducible assumption | exact Need.sub hp0 rfl | ((try lift_lets -underBinder); intro x; first | (refine Ev.cut (P := Q0) (s0 := s0) (x := x) ?_ (fun hx => ?_); unfold x) | (refine Ev.cutP (P := Q0) (s0 := s0) (x := x) (by unfold x; exact rfl) ?_ (fun hx => ?_)) | skip) | with_reducible apply State.ev_unstage | with_reducible apply State.ev_resolveSlot | with_reducible apply State.ev_traceStepEnd | with_reducible apply State.ev_postExcluded | with_reducible apply State.ev_postStep | with_reducible refine Ev.foldl _ (fun st a hst => ?_) _ _ ?_ | with_reducible refine Ev.foldlP _ (fun st a hst => ?_) _ _ ?_ | split

theorem State.ev_sendCommit {Q0 : StatePart → Bool} (hp0 : Need Q0 [.router]) {s0 s : State} (ev : Ev Q0 s0 s) (typ : Nat) (slice : Nat) (seq : Nat) (attempt : Nat) (toRank : Nat) (d : Option Decision) (excl : List Nat) : Ev Q0 s0 (State.sendCommit s typ slice seq attempt toRank d excl) := by
  unfold State.sendCommit
  repeat' first | with_reducible assumption | exact Need.sub hp0 rfl | ((try lift_lets -underBinder); intro x; first | (refine Ev.cut (P := Q0) (s0 := s0) (x := x) ?_ (fun hx => ?_); unfold x) | (refine Ev.cutP (P := Q0) (s0 := s0) (x := x) (by unfold x; exact rfl) ?_ (fun hx => ?_)) | skip) | with_reducible apply State.ev_sendFrame | split

theorem State.ev_sendAborts {Q0 : StatePart → Bool} (hp0 : Need Q0 [.router]) {s0 s : State} (ev : Ev Q0 s0 s) (slice : Nat) (seq : Nat) (attempt : Nat) (cause : Nat) : Ev Q0 s0 (State.sendAborts s slice seq attempt cause) := by
  unfold State.sendAborts
  repeat' first | with_reducible assumption | exact Need.sub hp0 rfl | with_reducible apply State.ev_sendCommit | with_reducible refine Ev.foldl _ (fun st a hst => ?_) _ _ ?_ | with_reducible refine Ev.foldlP _ (fun st a hst => ?_) _ _ ?_

theorem State.ev_setCoord {Q0 : StatePart → Bool} (hp0 : Need Q0 [.steps]) {s0 s : State} (ev : Ev Q0 s0 s) (c : Coord) : Ev Q0 s0 (State.setCoord s c) := by
  unfold State.setCoord
  repeat' first | with_reducible assumption | exact Need.sub hp0 rfl | ((try lift_lets -underBinder); intro x; first | (refine Ev.cut (P := Q0) (s0 := s0) (x := x) ?_ (fun hx => ?_); unfold x) | (refine Ev.cutP (P := Q0) (s0 := s0) (x := x) (by unfold x; exact rfl) ?_ (fun hx => ?_)) | skip) | split | with_reducible apply Ev.upd | with_reducible apply Ev.updOut | exact Or.inl (Need.has hp0 rfl) | with_reducible exact Or.inr rfl | exact Need.has hp0 rfl | with_reducible rfl

theorem State.ev_propose {Q0 : StatePart → Bool} (hp0 : Need Q0 [.steps, .router]) {s0 s : State} (ev : Ev Q0 s0 s) (slice : Nat) (seq : Nat) (attempt : Nat) (d0 : Decision) : Ev Q0 s0 (State.propose s slice seq attempt d0) := by
  unfold State.propose
  repeat' first | with_reducible assumption | exact Need.sub hp0 rfl | ((try lift_lets -underBinder); intro x; first | (refine Ev.cut (P := Q0) (s0 := s0) (x := x) ?_ (fun hx => ?_); unfold x) | (refine Ev.cutP (P := Q0) (s0 := s0) (x := x) (by unfold x; exact rfl) ?_ (fun hx => ?_)) | skip) | with_reducible apply State.ev_sendCommit | with_reducible apply State.ev_setCoord | split

theorem State.ev_proposeIfReady {Q0 : StatePart → Bool} (hp0 : Need Q0 [.steps, .router]) {s0 s : State} (ev : Ev Q0 s0 s) (slice : Nat) (seq : Nat) (attempt : Nat) : Ev Q0 s0 (State.proposeIfReady s slice seq attempt) := by
  unfold State.proposeIfReady
  repeat' first | with_reducible assumption | exact Need.sub hp0 rfl | ((try lift_lets -underBinder); intro x; first | (refine Ev.cut (P := Q0) (s0 := s0) (x := x) ?_ (fun hx => ?_); unfold x) | (refine Ev.cutP (P := Q0) (s0 := s0) (x := x) (by unfold x; exact rfl) ?_ (fun hx => ?_)) | skip) | with_reducible apply State.ev_propose | split

theorem State.ev_recordReady {Q0 : StatePart → Bool} (hp0 : Need Q0 [.steps, .router]) {s0 s : State} (ev : Ev Q0 s0 s) (slice : Nat) (seq : Nat) (attempt : Nat) (rank : Nat) (excl : List Nat) : Ev Q0 s0 (State.recordReady s slice seq attempt rank excl) := by
  unfold State.recordReady
  repeat' first | with_reducible assumption | exact Need.sub hp0 rfl | ((try lift_lets -underBinder); intro x; first | (refine Ev.cut (P := Q0) (s0 := s0) (x := x) ?_ (fun hx => ?_); unfold x) | (refine Ev.cutP (P := Q0) (s0 := s0) (x := x) (by unfold x; exact rfl) ?_ (fun hx => ?_)) | skip) | with_reducible apply State.ev_proposeIfReady | with_reducible apply State.ev_setCoord | split

theorem State.ev_countAbort {Q0 : StatePart → Bool} (hp0 : Need Q0 [.regs]) {s0 s : State} (ev : Ev Q0 s0 s)  : Ev Q0 s0 (State.countAbort s) := by
  unfold State.countAbort
  repeat' first | with_reducible assumption | exact Need.sub hp0 rfl | with_reducible apply State.ev_bumpWrap

theorem State.ev_beginAbort {Q0 : StatePart → Bool} (hp0 : Need Q0 [.steps, .regs]) {s0 s : State} (ev : Ev Q0 s0 s) (i : Nat) (cause : Nat) (isLocal : Bool) : Ev Q0 s0 (State.beginAbort s i cause isLocal) := by
  unfold State.beginAbort
  repeat' first | with_reducible assumption | exact Need.sub hp0 rfl | with_reducible apply State.ev_countAbort | with_reducible apply State.ev_modStep

theorem State.ev_stepFaultRec {Q0 : StatePart → Bool} (hp0 : Need Q0 [.host, .log, .regs, .out]) {s0 s : State} (ev : Ev Q0 s0 s) (t : Step) (cause : Nat) (fi : FaultInfo) : Ev Q0 s0 (State.stepFaultRec s t cause fi) := by
  unfold State.stepFaultRec
  repeat' first | with_reducible assumption | exact Need.sub hp0 rfl | with_reducible apply State.ev_errRec | split

theorem State.ev_stepFault {Q0 : StatePart → Bool} (hp0 : Need Q0 [.host, .steps, .log, .router, .regs, .out]) {s0 s : State} (ev : Ev Q0 s0 s) (i : Nat) (cause : Nat) (fi : optParam FaultInfo { }) : Ev Q0 s0 (State.stepFault s i cause fi) := by
  unfold State.stepFault
  repeat' first | with_reducible assumption | exact Need.sub hp0 rfl | ((try lift_lets -underBinder); intro x; first | (refine Ev.cut (P := Q0) (s0 := s0) (x := x) ?_ (fun hx => ?_); unfold x) | (refine Ev.cutP (P := Q0) (s0 := s0) (x := x) (by unfold x; exact rfl) ?_ (fun hx => ?_)) | skip) | with_reducible apply State.ev_beginAbort | with_reducible apply State.ev_stepFaultRec | with_reducible apply State.ev_sendAborts | with_reducible apply State.ev_propose | split

theorem State.ev_abortRemote {Q0 : StatePart → Bool} (hp0 : Need Q0 [.host, .steps, .mm, .streams, .traceLost, .rmt, .col, .cores, .regs, .out, .mem]) {s0 s : State} (ev : Ev Q0 s0 s) (i : Nat) (cause : Nat) : Ev Q0 s0 (State.abortRemote s i cause) := by
  unfold State.abortRemote
  repeat' first | with_reducible assumption | exact Need.sub hp0 rfl | ((try lift_lets -underBinder); intro x; first | (refine Ev.cut (P := Q0) (s0 := s0) (x := x) ?_ (fun hx => ?_); unfold x) | (refine Ev.cutP (P := Q0) (s0 := s0) (x := x) (by unfold x; exact rfl) ?_ (fun hx => ?_)) | skip) | with_reducible apply State.ev_countAbort | with_reducible apply State.ev_setStep | with_reducible apply State.ev_abortPost | with_reducible apply State.ev_beginAbort | split

theorem State.ev_applyDecision {Q0 : StatePart → Bool} (hp0 : Need Q0 [.host, .steps, .mm, .streams, .traceLost, .rmt, .col, .cores, .regs, .out, .mem]) {s0 s : State} (ev : Ev Q0 s0 s) (i : Nat) (d : Decision) : Ev Q0 s0 (State.applyDecision s i d) := by
  unfold State.applyDecision
  repeat' first | with_reducible assumption | exact Need.sub hp0 rfl | with_reducible apply State.ev_commitStep | with_reducible apply State.ev_abortPost | with_reducible apply State.ev_countAbort | with_reducible apply State.ev_setStep | with_reducible apply State.ev_abortRemote | split

theorem State.ev_enterInDoubt {Q0 : StatePart → Bool} (hp0 : Need Q0 [.host, .steps, .regs, .out]) {s0 s : State} (ev : Ev Q0 s0 s) (i : Nat) : Ev Q0 s0 (State.enterInDoubt s i) := by
  unfold State.enterInDoubt
  repeat' first | with_reducible assumption | exact Need.sub hp0 rfl | ((try lift_lets -underBinder); intro x; first | (refine Ev.cut (P := Q0) (s0 := s0) (x := x) ?_ (fun hx => ?_); unfold x) | (refine Ev.cutP (P := Q0) (s0 := s0) (x := x) (by unfold x; exact rfl) ?_ (fun hx => ?_)) | skip) | with_reducible apply State.ev_bumpSat | with_reducible apply State.ev_setStep | with_reducible apply State.ev_unreserve | with_reducible apply State.ev_setFlight | with_reducible apply State.ev_post | split

theorem State.ev_excludeStream {Q0 : StatePart → Bool} (hp0 : Need Q0 [.steps]) {s0 s : State} (ev : Ev Q0 s0 s) (i : Nat) (ix : Nat) (cause : Nat) : Ev Q0 s0 (State.excludeStream s i ix cause) := by
  unfold State.excludeStream
  repeat' first | with_reducible assumption | exact Need.sub hp0 rfl | with_reducible apply State.ev_modStep | split

end Sys2Proof.Machine
end

