-- ==== Sys2Proof/Laws/EvResetOps.lean ====
section
/-! SUPPORT. The operations of ResetOps.lean keep the relation Ev. -/

namespace Sys2Proof.Machine

open Sys2Proof

set_option linter.unusedVariables false

theorem State.ev_setFaults {Q0 : StatePart → Bool} (hp0 : Need Q0 [.faults]) {s0 s : State} (ev : Ev Q0 s0 s) (f : FaultSt) : Ev Q0 s0 (State.setFaults s f) := by
  unfold State.setFaults
  repeat' first | with_reducible assumption | exact Need.sub hp0 rfl | with_reducible apply Ev.upd | with_reducible apply Ev.updOut | exact Or.inl (Need.has hp0 rfl) | with_reducible exact Or.inr rfl | exact Need.has hp0 rfl | with_reducible rfl

theorem State.ev_markFaulted {Q0 : StatePart → Bool} (hp0 : Need Q0 [.regs]) {s0 s : State} (ev : Ev Q0 s0 s) (d : Domain) (v : Bool) : Ev Q0 s0 (State.markFaulted s d v) := by
  unfold State.markFaulted
  repeat' first | with_reducible assumption | exact Need.sub hp0 rfl | with_reducible apply State.ev_setF | with_reducible refine Ev.foldl _ (fun st a hst => ?_) _ _ ?_ | with_reducible refine Ev.foldlP _ (fun st a hst => ?_) _ _ ?_ | split

theorem State.ev_clearFaulted {Q0 : StatePart → Bool} (hp0 : Need Q0 [.regs]) {s0 s : State} (ev : Ev Q0 s0 s) (d : Domain) : Ev Q0 s0 (State.clearFaulted s d) := by
  unfold State.clearFaulted
  repeat' first | with_reducible assumption | exact Need.sub hp0 rfl | with_reducible apply State.ev_setF | with_reducible apply State.ev_markFaulted | split

theorem State.ev_abortUsers {Q0 : StatePart → Bool} (hp0 : Need Q0 [.host, .steps, .log, .router, .regs, .out]) {s0 s : State} (ev : Ev Q0 s0 s) (d : Domain) : Ev Q0 s0 (State.abortUsers s d) := by
  unfold State.abortUsers
  repeat' first | with_reducible assumption | exact Need.sub hp0 rfl | with_reducible apply State.ev_stepFault | with_reducible refine Ev.foldl _ (fun st a hst => ?_) _ _ ?_ | with_reducible refine Ev.foldlP _ (fun st a hst => ?_) _ _ ?_ | split

theorem State.ev_clearInsts {Q0 : StatePart → Bool} (hp0 : Need Q0 [.steps]) {s0 s : State} (ev : Ev Q0 s0 s) (d : Domain) : Ev Q0 s0 (State.clearInsts s d) := by
  unfold State.clearInsts
  repeat' first | with_reducible assumption | exact Need.sub hp0 rfl | ((try lift_lets -underBinder); intro x; first | (refine Ev.cut (P := Q0) (s0 := s0) (x := x) ?_ (fun hx => ?_); unfold x) | (refine Ev.cutP (P := Q0) (s0 := s0) (x := x) (by unfold x; exact rfl) ?_ (fun hx => ?_)) | skip) | split | with_reducible apply Ev.upd | with_reducible apply Ev.updOut | exact Or.inl (Need.has hp0 rfl) | with_reducible exact Or.inr rfl | exact Need.has hp0 rfl | with_reducible rfl

theorem State.ev_resetRegs {Q0 : StatePart → Bool} (hp0 : Need Q0 [.regs]) {s0 s : State} (ev : Ev Q0 s0 s) (lvl : Nat) (dom : Nat → Bool) : Ev Q0 s0 (State.resetRegs s lvl dom) := ev.trans ⟨id, regsWf_reset lvl dom, rfl, List.prefix_rfl, Nat.le_refl _, by simp only [State.without, State.resetRegs, (hp0.has rfl : Q0 .regs = true), if_true]⟩

theorem State.ev_clearL2 {Q0 : StatePart → Bool} (hp0 : Need Q0 [.steps, .mm, .regs, .freeCtr, .mem]) {s0 s : State} (ev : Ev Q0 s0 s) (d : Domain) : Ev Q0 s0 (State.clearL2 s d) := by
  unfold State.clearL2
  repeat' first | with_reducible assumption | exact Need.sub hp0 rfl | ((try lift_lets -underBinder); intro x; first | (refine Ev.cut (P := Q0) (s0 := s0) (x := x) ?_ (fun hx => ?_); unfold x) | (refine Ev.cutP (P := Q0) (s0 := s0) (x := x) (by unfold x; exact rfl) ?_ (fun hx => ?_)) | skip) | with_reducible apply State.ev_clearInsts | with_reducible apply State.ev_resetRegs | with_reducible apply State.ev_forgetSpad | split

theorem State.ev_ownStack {Q0 : StatePart → Bool} (hp0 : Need Q0 [.mm, .regs]) {s0 s : State} (ev : Ev Q0 s0 s) (n : Nat) (footing : Bool) : Ev Q0 s0 (State.ownStack s n footing) := by
  unfold State.ownStack
  repeat' first | with_reducible assumption | exact Need.sub hp0 rfl | ((try lift_lets -underBinder); intro x; first | (refine Ev.cut (P := Q0) (s0 := s0) (x := x) ?_ (fun hx => ?_); unfold x) | (refine Ev.cutP (P := Q0) (s0 := s0) (x := x) (by unfold x; exact rfl) ?_ (fun hx => ?_)) | skip) | with_reducible apply State.ev_setF | with_reducible apply State.ev_setStack | split

theorem State.ev_setReadySpan {Q0 : StatePart → Bool} (hp0 : Need Q0 [.regs]) {s0 s : State} (ev : Ev Q0 s0 s) (n : Nat) (v : Bool) : Ev Q0 s0 (State.setReadySpan s n v) := by
  unfold State.setReadySpan
  repeat' first | with_reducible assumption | exact Need.sub hp0 rfl | with_reducible apply State.ev_setF

theorem State.ev_enterSpan {Q0 : StatePart → Bool} (hp0 : Need Q0 [.steps, .mm, .trs, .cbk, .traceLost, .cores, .regs, .freeCtr, .mem]) {s0 s : State} (ev : Ev Q0 s0 s) (n : Nat) (lvl : Nat) (hbmFault : Bool) : Ev Q0 s0 (State.enterSpan s n lvl hbmFault) := by
  unfold State.enterSpan
  repeat' first | with_reducible assumption | exact Need.sub hp0 rfl | ((try lift_lets -underBinder); intro x; first | (refine Ev.cut (P := Q0) (s0 := s0) (x := x) ?_ (fun hx => ?_); unfold x) | (refine Ev.cutP (P := Q0) (s0 := s0) (x := x) (by unfold x; exact rfl) ?_ (fun hx => ?_)) | skip) | with_reducible apply State.ev_clearInsts | with_reducible apply State.ev_setSpan | with_reducible apply State.ev_forgetSpad | with_reducible apply State.ev_forgetDeck | with_reducible apply State.ev_forgetStack | with_reducible apply State.ev_resetRegs | with_reducible apply State.ev_ownStack | with_reducible apply State.ev_setReadySpan | with_reducible refine Ev.foldl _ (fun st a hst => ?_) _ _ ?_ | with_reducible refine Ev.foldlP _ (fun st a hst => ?_) _ _ ?_ | split | with_reducible apply Ev.upd | with_reducible apply Ev.updOut | exact Or.inl (Need.has hp0 rfl) | with_reducible exact Or.inr rfl | exact Need.has hp0 rfl | with_reducible rfl

theorem State.ev_countReset {Q0 : StatePart → Bool} (hp0 : Need Q0 [.regs]) {s0 s : State} (ev : Ev Q0 s0 s)  : Ev Q0 s0 (State.countReset s) := by
  unfold State.countReset
  repeat' first | with_reducible assumption | exact Need.sub hp0 rfl | with_reducible apply State.ev_bumpSat

theorem State.ev_resetRec {Q0 : StatePart → Bool} (hp0 : Need Q0 [.host, .log, .regs, .out]) {s0 s : State} (ev : Ev Q0 s0 s) (level : Nat) (requested : Nat) (sev : Nat) (durUs : Nat) (ds : List Domain) : Ev Q0 s0 (State.resetRec s level requested sev durUs ds) := by
  unfold State.resetRec
  repeat' first | with_reducible assumption | exact Need.sub hp0 rfl | ((try lift_lets -underBinder); intro x; first | (refine Ev.cut (P := Q0) (s0 := s0) (x := x) ?_ (fun hx => ?_); unfold x) | (refine Ev.cutP (P := Q0) (s0 := s0) (x := x) (by unfold x; exact rfl) ?_ (fun hx => ?_)) | skip) | with_reducible apply State.ev_errRec | split

theorem State.ev_showReset {Q0 : StatePart → Bool} (hp0 : Need Q0 [.regs]) {s0 s : State} (ev : Ev Q0 s0 s)  : Ev Q0 s0 (State.showReset s) := by
  unfold State.showReset
  repeat' first | with_reducible assumption | exact Need.sub hp0 rfl | ((try lift_lets -underBinder); intro x; first | (refine Ev.cut (P := Q0) (s0 := s0) (x := x) ?_ (fun hx => ?_); unfold x) | (refine Ev.cutP (P := Q0) (s0 := s0) (x := x) (by unfold x; exact rfl) ?_ (fun hx => ?_)) | skip) | with_reducible apply State.ev_setF | with_reducible refine Ev.foldl _ (fun st a hst => ?_) _ _ ?_ | with_reducible refine Ev.foldlP _ (fun st a hst => ?_) _ _ ?_ | split

theorem State.ev_l4Steps {Q0 : StatePart → Bool} (hp0 : Need Q0 [.host, .steps, .streams, .rmt, .col, .cores, .regs, .out]) {s0 s : State} (ev : Ev Q0 s0 s) (keep : List Nat) : Ev Q0 s0 (State.l4Steps s keep) := by
  unfold State.l4Steps
  repeat' first | with_reducible assumption | exact Need.sub hp0 rfl | ((try lift_lets -underBinder); intro x; first | (refine Ev.cut (P := Q0) (s0 := s0) (x := x) ?_ (fun hx => ?_); unfold x) | (refine Ev.cutP (P := Q0) (s0 := s0) (x := x) (by unfold x; exact rfl) ?_ (fun hx => ?_)) | skip) | with_reducible apply State.ev_modStep | with_reducible apply State.ev_enterInDoubt | with_reducible apply State.ev_setStep | with_reducible apply State.ev_resolveSlot | with_reducible apply State.ev_postExcluded | with_reducible apply State.ev_postStep | with_reducible apply State.ev_countAbort | with_reducible apply State.ev_finish | with_reducible refine Ev.foldl _ (fun st a hst => ?_) _ _ ?_ | with_reducible refine Ev.foldlP _ (fun st a hst => ?_) _ _ ?_ | split

theorem State.ev_relight {Q0 : StatePart → Bool} (hp0 : Need Q0 [.ports, .out]) {s0 s : State} (ev : Ev Q0 s0 s) (js : List Injection) : Ev Q0 s0 (State.relight s js) := by
  unfold State.relight
  repeat' first | with_reducible assumption | exact Need.sub hp0 rfl | ((try lift_lets -underBinder); intro x; first | (refine Ev.cut (P := Q0) (s0 := s0) (x := x) ?_ (fun hx => ?_); unfold x) | (refine Ev.cutP (P := Q0) (s0 := s0) (x := x) (by unfold x; exact rfl) ?_ (fun hx => ?_)) | skip) | with_reducible refine Ev.foldl _ (fun st a hst => ?_) _ _ ?_ | with_reducible refine Ev.foldlP _ (fun st a hst => ?_) _ _ ?_ | split | with_reducible apply Ev.upd | with_reducible apply Ev.updOut | exact Or.inl (Need.has hp0 rfl) | with_reducible exact Or.inr rfl | exact Need.has hp0 rfl | with_reducible rfl

theorem State.ev_cancelPlans {Q0 : StatePart → Bool} (hp0 : Need Q0 [.host, .faults, .log, .ports, .regs, .out]) {s0 sA : State} (ev : Ev Q0 s0 sA)  : Ev Q0 s0 (State.cancelPlans sA) := by
  unfold State.cancelPlans
  repeat' first | with_reducible assumption | exact Need.sub hp0 rfl | ((try lift_lets -underBinder); intro x; first | (refine Ev.cut (P := Q0) (s0 := s0) (x := x) ?_ (fun hx => ?_); unfold x) | (refine Ev.cutP (P := Q0) (s0 := s0) (x := x) (by unfold x; exact rfl) ?_ (fun hx => ?_)) | skip) | with_reducible apply State.ev_relight | with_reducible apply State.ev_bumpSat | with_reducible apply State.ev_errRec | with_reducible apply State.ev_setF | with_reducible apply State.ev_setFaults | with_reducible refine Ev.foldl _ (fun st a hst => ?_) _ _ ?_ | with_reducible refine Ev.foldlP _ (fun st a hst => ?_) _ _ ?_

theorem State.ev_l4Clear {Q0 : StatePart → Bool} (hp0 : Need Q0 [.host, .steps, .mm, .faults, .log, .streams, .rmt, .col, .ports, .sec, .regs, .out]) {s0 s : State} (ev : Ev Q0 s0 s)  : Ev Q0 s0 (State.l4Clear s) := by
  unfold State.l4Clear
  repeat' first | with_reducible assumption | exact Need.sub hp0 rfl | ((try lift_lets -underBinder); intro x; first | (refine Ev.cut (P := Q0) (s0 := s0) (x := x) ?_ (fun hx => ?_); unfold x) | (refine Ev.cutP (P := Q0) (s0 := s0) (x := x) (by unfold x; exact rfl) ?_ (fun hx => ?_)) | skip) | with_reducible apply State.ev_bumpWrap | with_reducible apply State.ev_setF | with_reducible apply State.ev_cancelPlans | with_reducible apply State.ev_resetRegs | with_reducible refine Ev.foldl _ (fun st a hst => ?_) _ _ ?_ | with_reducible refine Ev.foldlP _ (fun st a hst => ?_) _ _ ?_ | split | with_reducible apply Ev.upd | with_reducible apply Ev.updOut | exact Or.inl (Need.has hp0 rfl) | with_reducible exact Or.inr rfl | exact Need.has hp0 rfl | with_reducible rfl

theorem State.ev_startReset {Q0 : StatePart → Bool} (hp0 : Need Q0 [.host, .steps, .mm, .faults, .log, .streams, .router, .rmt, .col, .cores, .ports, .sec, .regs, .out, .freeCtr, .mem]) {s0 s : State} (ev : Ev Q0 s0 s) (lvl : Nat) (ds : List Domain) (requested : Nat) (hold : Bool) (hbm : Bool) (reqNos : List Nat) (esc : Bool) (told : optParam Bool false) : Ev Q0 s0 (State.startReset s lvl ds requested hold hbm reqNos esc told) := by
  unfold State.startReset
  repeat' first | with_reducible assumption | exact Need.sub hp0 rfl | ((try lift_lets -underBinder); intro x; first | (refine Ev.cut (P := Q0) (s0 := s0) (x := x) ?_ (fun hx => ?_); unfold x) | (refine Ev.cutP (P := Q0) (s0 := s0) (x := x) (by unfold x; exact rfl) ?_ (fun hx => ?_)) | skip) | with_reducible apply State.ev_abortUsers | with_reducible apply State.ev_l4Clear | with_reducible apply State.ev_l4Steps | with_reducible apply State.ev_clearL2 | with_reducible apply State.ev_resetRec | with_reducible apply State.ev_showReset | with_reducible apply State.ev_setFaults | with_reducible refine Ev.foldl _ (fun st a hst => ?_) _ _ ?_ | with_reducible refine Ev.foldlP _ (fun st a hst => ?_) _ _ ?_ | split

theorem State.ev_openWindow {Q0 : StatePart → Bool} (hp0 : Need Q0 [.faults]) {s0 s : State} (ev : Ev Q0 s0 s) (lvl : Nat) (n : Nat) (ds : List Domain) : Ev Q0 s0 (State.openWindow s lvl n ds) := by
  unfold State.openWindow
  repeat' first | with_reducible assumption | exact Need.sub hp0 rfl | ((try lift_lets -underBinder); intro x; first | (refine Ev.cut (P := Q0) (s0 := s0) (x := x) ?_ (fun hx => ?_); unfold x) | (refine Ev.cutP (P := Q0) (s0 := s0) (x := x) (by unfold x; exact rfl) ?_ (fun hx => ?_)) | skip) | with_reducible apply State.ev_setFaults

theorem State.ev_holdL5 {Q0 : StatePart → Bool} (hp0 : Need Q0 [.host, .steps, .mm, .faults, .log, .streams, .router, .rmt, .col, .cores, .ports, .sec, .regs, .out, .freeCtr, .mem]) {s0 s : State} (ev : Ev Q0 s0 s) (requested : Nat) (reqNos : List Nat) : Ev Q0 s0 (State.holdL5 s requested reqNos) := by
  unfold State.holdL5
  repeat' first | with_reducible assumption | exact Need.sub hp0 rfl | ((try lift_lets -underBinder); intro x; first | (refine Ev.cut (P := Q0) (s0 := s0) (x := x) ?_ (fun hx => ?_); unfold x) | (refine Ev.cutP (P := Q0) (s0 := s0) (x := x) (by unfold x; exact rfl) ?_ (fun hx => ?_)) | skip) | with_reducible apply State.ev_resetRec | with_reducible apply State.ev_startReset | with_reducible apply State.ev_showReset | with_reducible apply State.ev_setFaults

theorem State.ev_escalate {Q0 : StatePart → Bool} (hp0 : Need Q0 [.host, .steps, .mm, .faults, .log, .streams, .router, .rmt, .col, .cores, .ports, .sec, .regs, .out, .freeCtr, .mem]) {s0 s : State} (ev : Ev Q0 s0 s) (lvl : Nat) (d : Domain) (hold : Bool) (hbm : Bool) (reqNos : List Nat) : Ev Q0 s0 (State.escalate s lvl d hold hbm reqNos) := by
  unfold State.escalate
  repeat' first | with_reducible assumption | exact Need.sub hp0 rfl | ((try lift_lets -underBinder); intro x; first | (refine Ev.cut (P := Q0) (s0 := s0) (x := x) ?_ (fun hx => ?_); unfold x) | (refine Ev.cutP (P := Q0) (s0 := s0) (x := x) (by unfold x; exact rfl) ?_ (fun hx => ?_)) | skip) | with_reducible apply State.ev_setFaults | with_reducible apply State.ev_bumpSat | with_reducible apply State.ev_startReset | with_reducible apply State.ev_holdL5 | split

theorem State.ev_cancelOnFault {Q0 : StatePart → Bool} (hp0 : Need Q0 [.host, .faults, .log, .ports, .regs, .out]) {s0 s : State} (ev : Ev Q0 s0 s) (hit : Injection → Bool) : Ev Q0 s0 (State.cancelOnFault s hit) := by
  unfold State.cancelOnFault
  repeat' first | with_reducible assumption | exact Need.sub hp0 rfl | ((try lift_lets -underBinder); intro x; first | (refine Ev.cut (P := Q0) (s0 := s0) (x := x) ?_ (fun hx => ?_); unfold x) | (refine Ev.cutP (P := Q0) (s0 := s0) (x := x) (by unfold x; exact rfl) ?_ (fun hx => ?_)) | skip) | with_reducible apply State.ev_relight | with_reducible apply State.ev_setFaults | with_reducible apply State.ev_errRec | with_reducible apply State.ev_bumpSat | with_reducible apply State.ev_setF | with_reducible refine Ev.foldl _ (fun st a hst => ?_) _ _ ?_ | with_reducible refine Ev.foldlP _ (fun st a hst => ?_) _ _ ?_

theorem State.ev_faultCall {Q0 : StatePart → Bool} (hp0 : Need Q0 [.host, .steps, .mm, .faults, .log, .streams, .router, .rmt, .col, .cores, .ports, .sec, .regs, .out, .freeCtr, .mem]) {s0 s : State} (ev : Ev Q0 s0 s) (lvl : Nat) (d : Domain) (injected : optParam Bool false) : Ev Q0 s0 (State.faultCall s lvl d injected) := by
  unfold State.faultCall
  repeat' first | with_reducible assumption | exact Need.sub hp0 rfl | ((try lift_lets -underBinder); intro x; first | (refine Ev.cut (P := Q0) (s0 := s0) (x := x) ?_ (fun hx => ?_); unfold x) | (refine Ev.cutP (P := Q0) (s0 := s0) (x := x) (by unfold x; exact rfl) ?_ (fun hx => ?_)) | skip) | with_reducible apply State.ev_cancelOnFault | with_reducible apply State.ev_escalate | with_reducible apply State.ev_markFaulted | with_reducible apply State.ev_openWindow | split

theorem State.ev_faultReset {Q0 : StatePart → Bool} (hp0 : Need Q0 [.host, .steps, .mm, .faults, .log, .streams, .router, .rmt, .col, .cores, .ports, .sec, .regs, .out, .freeCtr, .mem]) {s0 s : State} (ev : Ev Q0 s0 s) (lvl : Nat) (d : Domain) (hbm : Bool) : Ev Q0 s0 (State.faultReset s lvl d hbm) := by
  unfold State.faultReset
  repeat' first | with_reducible assumption | exact Need.sub hp0 rfl | ((try lift_lets -underBinder); intro x; first | (refine Ev.cut (P := Q0) (s0 := s0) (x := x) ?_ (fun hx => ?_); unfold x) | (refine Ev.cutP (P := Q0) (s0 := s0) (x := x) (by unfold x; exact rfl) ?_ (fun hx => ?_)) | skip) | with_reducible apply State.ev_cancelOnFault | with_reducible apply State.ev_escalate | with_reducible apply State.ev_markFaulted | with_reducible apply State.ev_startReset | with_reducible apply State.ev_openWindow | split

theorem State.ev_engineRec {Q0 : StatePart → Bool} (hp0 : Need Q0 [.host, .log, .regs, .out]) {s0 s : State} (ev : Ev Q0 s0 s) (slot : Nat) (unitKind : Nat) (unitIx : Nat) (structure' : Nat) (off : Nat) (syndrome : Nat) (cause : Nat) (level : Nat) : Ev Q0 s0 (State.engineRec s slot unitKind unitIx structure' off syndrome cause level) := by
  unfold State.engineRec
  repeat' first | with_reducible assumption | exact Need.sub hp0 rfl | ((try lift_lets -underBinder); intro x; first | (refine Ev.cut (P := Q0) (s0 := s0) (x := x) ?_ (fun hx => ?_); unfold x) | (refine Ev.cutP (P := Q0) (s0 := s0) (x := x) (by unfold x; exact rfl) ?_ (fun hx => ?_)) | skip) | with_reducible apply State.ev_bumpSat | with_reducible apply State.ev_errRec

end Sys2Proof.Machine
end

