-- ==== Sys2Proof/Laws/EvOperands.lean ====
section
/-! SUPPORT. The operations of Operands.lean keep the relation Ev. -/

namespace Sys2Proof.Machine

open Sys2Proof

set_option linter.unusedVariables false

theorem State.ev_modInst {Q0 : StatePart → Bool} (hp0 : Need Q0 [.steps]) {s0 s : State} (ev : Ev Q0 s0 s) (slot : Nat) (core : Nat) (inst3 : Nat) (f : InstRun → InstRun) : Ev Q0 s0 (State.modInst s slot core inst3 f) := by
  unfold State.modInst
  repeat' first | with_reducible assumption | exact Need.sub hp0 rfl | with_reducible apply State.ev_modStep

theorem State.ev_modQueue {Q0 : StatePart → Bool} (hp0 : Need Q0 [.steps]) {s0 s : State} (ev : Ev Q0 s0 s) (slot : Nat) (q : Nat) (f : Queue → Queue) : Ev Q0 s0 (State.modQueue s slot q f) := by
  unfold State.modQueue
  repeat' first | with_reducible assumption | exact Need.sub hp0 rfl | with_reducible apply State.ev_modStep | split

theorem State.ev_progress {Q0 : StatePart → Bool} (hp0 : Need Q0 [.steps]) {s0 s : State} (ev : Ev Q0 s0 s) (slot : Nat) (core : Nat) (inst3 : Nat) : Ev Q0 s0 (State.progress s slot core inst3) := by
  unfold State.progress
  repeat' first | with_reducible assumption | exact Need.sub hp0 rfl | with_reducible apply State.ev_modInst

theorem State.ev_traceInst {Q0 : StatePart → Bool} (hp0 : Need Q0 [.mm, .traceLost, .regs, .mem]) {s0 s : State} (ev : Ev Q0 s0 s) (t : Step) (core : Nat) (inst3 : Nat) (node : Nat) (ev : Nat) (a0 : Nat) (a1 : Nat) : Ev Q0 s0 (State.traceInst s t core inst3 node ev a0 a1) := by
  unfold State.traceInst
  repeat' first | with_reducible assumption | exact Need.sub hp0 rfl | with_reducible apply State.ev_trace

theorem State.ev_opFault {Q0 : StatePart → Bool} (hp0 : Need Q0 [.host, .steps, .log, .router, .regs, .out]) {s0 s : State} (ev : Ev Q0 s0 s) (x1 : OpCtx) (cause : Nat) (a0 : optParam Nat 0) (a1 : optParam Nat 0) : Ev Q0 s0 (State.opFault s x1 cause a0 a1) := by
  unfold State.opFault
  repeat' first | with_reducible assumption | exact Need.sub hp0 rfl | with_reducible apply State.ev_stepFault

theorem State.ev_stallOn {Q0 : StatePart → Bool} (hp0 : Need Q0 [.steps, .mm, .traceLost, .regs, .mem]) {s0 s : State} (ev : Ev Q0 s0 s) (x1 : OpCtx) (cause : Nat) (arg : Nat) : Ev Q0 s0 (State.stallOn s x1 cause arg) := by
  unfold State.stallOn
  repeat' first | with_reducible assumption | exact Need.sub hp0 rfl | ((try lift_lets -underBinder); intro x; first | (refine Ev.cut (P := Q0) (s0 := s0) (x := x) ?_ (fun hx => ?_); unfold x) | (refine Ev.cutP (P := Q0) (s0 := s0) (x := x) (by unfold x; exact rfl) ?_ (fun hx => ?_)) | skip) | with_reducible apply State.ev_traceInst | with_reducible apply State.ev_modInst | split

theorem State.ev_unstall {Q0 : StatePart → Bool} (hp0 : Need Q0 [.steps, .mm, .traceLost, .regs, .mem]) {s0 s : State} (ev : Ev Q0 s0 s) (x1 : OpCtx) : Ev Q0 s0 (State.unstall s x1) := by
  unfold State.unstall
  repeat' first | with_reducible assumption | exact Need.sub hp0 rfl | with_reducible apply State.ev_traceInst | with_reducible apply State.ev_modInst | split

theorem State.ev_endRead {Q0 : StatePart → Bool} (hp0 : Need Q0 [.steps, .mm, .traceLost, .regs, .mem]) {s0 s : State} (ev : Ev Q0 s0 s) (x1 : OpCtx) (q : Nat) (n : optParam Nat 0) : Ev Q0 s0 (State.endRead s x1 q n) := by
  unfold State.endRead
  repeat' first | with_reducible assumption | exact Need.sub hp0 rfl | with_reducible apply State.ev_traceInst | with_reducible apply State.ev_modQueue | split

theorem State.ev_endInA {Q0 : StatePart → Bool} (hp0 : Need Q0 [.steps, .mm, .traceLost, .regs, .mem]) {s0 s : State} (ev : Ev Q0 s0 s) (x1 : OpCtx) : Ev Q0 s0 (State.endInA s x1) := by
  unfold State.endInA
  repeat' first | with_reducible assumption | exact Need.sub hp0 rfl | with_reducible apply State.ev_endRead | split

theorem State.ev_stage {Q0 : StatePart → Bool} (hp0 : Need Q0 [.steps]) {s0 s : State} (ev : Ev Q0 s0 s) (x1 : OpCtx) (t : Tile) (owners : List (Nat × Nat)) (origin : optParam Nat 0) (more : optParam Bool false) : Ev Q0 s0 (State.stage s x1 t owners origin more) := by
  unfold State.stage
  repeat' first | with_reducible assumption | exact Need.sub hp0 rfl | with_reducible apply State.ev_modInst | split

theorem State.ev_nextRepeat {Q0 : StatePart → Bool} (hp0 : Need Q0 [.steps, .mm, .traceLost, .regs, .mem]) {s0 s : State} (ev : Ev Q0 s0 s) (x1 : OpCtx) : Ev Q0 s0 (State.nextRepeat s x1) := by
  unfold State.nextRepeat
  repeat' first | with_reducible assumption | exact Need.sub hp0 rfl | with_reducible apply State.ev_progress | with_reducible apply State.ev_modInst | with_reducible apply State.ev_unstall

theorem State.ev_endRepeat {Q0 : StatePart → Bool} (hp0 : Need Q0 [.steps, .mm, .traceLost, .regs, .mem]) {s0 s : State} (ev : Ev Q0 s0 s) (x1 : OpCtx) : Ev Q0 s0 (State.endRepeat s x1) := by
  unfold State.endRepeat
  repeat' first | with_reducible assumption | exact Need.sub hp0 rfl | ((try lift_lets -underBinder); intro x; first | (refine Ev.cut (P := Q0) (s0 := s0) (x := x) ?_ (fun hx => ?_); unfold x) | (refine Ev.cutP (P := Q0) (s0 := s0) (x := x) (by unfold x; exact rfl) ?_ (fun hx => ?_)) | skip) | with_reducible apply State.ev_nextRepeat | with_reducible apply State.ev_traceInst | split

theorem State.ev_startOp {Q0 : StatePart → Bool} (hp0 : Need Q0 [.host, .steps, .mm, .log, .router, .traceLost, .regs, .out, .mem]) {s0 s : State} (ev : Ev Q0 s0 s) (x1 : OpCtx) (ok : Bool) : Ev Q0 s0 (State.startOp s x1 ok) := by
  unfold State.startOp
  repeat' first | with_reducible assumption | exact Need.sub hp0 rfl | ((try lift_lets -underBinder); intro x; first | (refine Ev.cut (P := Q0) (s0 := s0) (x := x) ?_ (fun hx => ?_); unfold x) | (refine Ev.cutP (P := Q0) (s0 := s0) (x := x) (by unfold x; exact rfl) ?_ (fun hx => ?_)) | skip) | with_reducible apply State.ev_traceInst | with_reducible apply State.ev_modInst | with_reducible apply State.ev_opFault | split

theorem State.ev_trapRec {Q0 : StatePart → Bool} (hp0 : Need Q0 [.host, .log, .regs, .out]) {s0 s : State} (ev : Ev Q0 s0 s) (t : Step) (action : Nat) (stream : Nat) (core : Nat) (inst5 : Nat) (o : OutTile) : Ev Q0 s0 (State.trapRec s t action stream core inst5 o) := by
  unfold State.trapRec
  repeat' first | with_reducible assumption | exact Need.sub hp0 rfl | ((try lift_lets -underBinder); intro x; first | (refine Ev.cut (P := Q0) (s0 := s0) (x := x) ?_ (fun hx => ?_); unfold x) | (refine Ev.cutP (P := Q0) (s0 := s0) (x := x) (by unfold x; exact rfl) ?_ (fun hx => ?_)) | skip) | with_reducible apply State.ev_writeRaw | with_reducible apply State.ev_bumpSat | split

theorem State.ev_trapNan {Q0 : StatePart → Bool} (hp0 : Need Q0 [.host, .steps, .log, .router, .regs, .out]) {s0 s : State} (ev : Ev Q0 s0 s) (slot : Nat) (core : Nat) (inst3 : Nat) (o : OutTile) : Ev Q0 s0 (State.trapNan s slot core inst3 o) := by
  unfold State.trapNan
  repeat' first | with_reducible assumption | exact Need.sub hp0 rfl | ((try lift_lets -underBinder); intro x; first | (refine Ev.cut (P := Q0) (s0 := s0) (x := x) ?_ (fun hx => ?_); unfold x) | (refine Ev.cutP (P := Q0) (s0 := s0) (x := x) (by unfold x; exact rfl) ?_ (fun hx => ?_)) | skip) | with_reducible apply State.ev_excludeStream | with_reducible apply State.ev_trapRec | with_reducible apply State.ev_stepFault | split

theorem State.ev_countTile {Q0 : StatePart → Bool} (hp0 : Need Q0 [.regs]) {s0 s : State} (ev : Ev Q0 s0 s) (core : Nat) (inst2 : Nat) (o : OutTile) : Ev Q0 s0 (State.countTile s core inst2 o) := by
  unfold State.countTile
  repeat' first | with_reducible assumption | exact Need.sub hp0 rfl | ((try lift_lets -underBinder); intro x; first | (refine Ev.cut (P := Q0) (s0 := s0) (x := x) ?_ (fun hx => ?_); unfold x) | (refine Ev.cutP (P := Q0) (s0 := s0) (x := x) (by unfold x; exact rfl) ?_ (fun hx => ?_)) | skip) | with_reducible apply State.ev_setF | with_reducible apply State.ev_bumpSat | split

theorem State.ev_enqueue {Q0 : StatePart → Bool} (hp0 : Need Q0 [.steps, .mm, .mem]) {s0 s : State} (ev : Ev Q0 s0 s) (slot : Nat) (q : Nat) (u : Queue) (tile : Tile) (spend : Bool) : Ev Q0 s0 (State.enqueue s slot q u tile spend) := by
  unfold State.enqueue
  repeat' first | with_reducible assumption | exact Need.sub hp0 rfl | ((try lift_lets -underBinder); intro x; first | (refine Ev.cut (P := Q0) (s0 := s0) (x := x) ?_ (fun hx => ?_); unfold x) | (refine Ev.cutP (P := Q0) (s0 := s0) (x := x) (by unfold x; exact rfl) ?_ (fun hx => ?_)) | skip) | with_reducible apply State.ev_modQueue | with_reducible apply State.ev_st | split

theorem State.ev_emitTile {Q0 : StatePart → Bool} (hp0 : Need Q0 [.host, .steps, .mm, .log, .router, .traceLost, .regs, .out, .mem]) {s0 s : State} (ev : Ev Q0 s0 s) (slot : Nat) (core : Nat) (inst3 : Nat) (o : OutTile) (spend : Bool) : Ev Q0 s0 (State.emitTile s slot core inst3 o spend) := by
  unfold State.emitTile
  repeat' first | with_reducible assumption | exact Need.sub hp0 rfl | ((try lift_lets -underBinder); intro x; first | (refine Ev.cut (P := Q0) (s0 := s0) (x := x) ?_ (fun hx => ?_); unfold x) | (refine Ev.cutP (P := Q0) (s0 := s0) (x := x) (by unfold x; exact rfl) ?_ (fun hx => ?_)) | skip) | with_reducible apply State.ev_stepFault | with_reducible apply State.ev_enqueue | with_reducible apply State.ev_progress | with_reducible apply State.ev_countTile | with_reducible apply State.ev_traceInst | with_reducible apply State.ev_trapNan | split

theorem State.ev_emitOne {Q0 : StatePart → Bool} (hp0 : Need Q0 [.host, .steps, .mm, .log, .router, .traceLost, .regs, .out, .mem]) {s0 s : State} (ev : Ev Q0 s0 s) (slot : Nat) (core : Nat) (inst3 : Nat) : Ev Q0 s0 (State.emitOne s slot core inst3) := by
  unfold State.emitOne
  repeat' first | with_reducible assumption | exact Need.sub hp0 rfl | ((try lift_lets -underBinder); intro x; first | (refine Ev.cut (P := Q0) (s0 := s0) (x := x) ?_ (fun hx => ?_); unfold x) | (refine Ev.cutP (P := Q0) (s0 := s0) (x := x) (by unfold x; exact rfl) ?_ (fun hx => ?_)) | skip) | with_reducible apply State.ev_emitTile | with_reducible apply State.ev_modInst | with_reducible apply State.ev_stallOn | split

theorem State.ev_runOp {Q0 : StatePart → Bool} (hp0 : Need Q0 [.host, .steps, .mm, .log, .router, .traceLost, .regs, .out, .mem]) {s0 s : State} (ev : Ev Q0 s0 s) (slot : Nat) (core : Nat) (inst3 : Nat) (known : List Nat) (code : Nat) (ok : OpCtx → Bool) (body : State → OpCtx → State) (hbody : ∀ x0 x1, Ev Q0 s0 x0 → Ev Q0 s0 (body x0 x1)) : Ev Q0 s0 (State.runOp s slot core inst3 known code ok body) := by
  unfold State.runOp
  repeat' first | with_reducible assumption | exact Need.sub hp0 rfl | ((try lift_lets -underBinder); intro x; first | (refine Ev.cut (P := Q0) (s0 := s0) (x := x) ?_ (fun hx => ?_); unfold x) | (refine Ev.cutP (P := Q0) (s0 := s0) (x := x) (by unfold x; exact rfl) ?_ (fun hx => ?_)) | skip) | with_reducible apply State.ev_startOp | with_reducible apply hbody | split

theorem State.ev_onCore {Q0 : StatePart → Bool} (hp0 : Need Q0 []) {s0 s : State} (ev : Ev Q0 s0 s) (c : Nat) (f : Nat → State → State) (hf : ∀ x0 x1, Ev Q0 s0 x1 → Ev Q0 s0 (f x0 x1)) : Ev Q0 s0 (State.onCore s c f) := by
  unfold State.onCore
  repeat' first | with_reducible assumption | exact Need.sub hp0 rfl | with_reducible apply hf | split

end Sys2Proof.Machine
end

