-- ==== Sys2Proof/Laws/EvTrestle.lean ====
section
/-! SUPPORT. The operations of Trestle.lean keep the relation Ev. -/

namespace Sys2Proof.Machine

open Sys2Proof

set_option linter.unusedVariables false

theorem State.ev_setTrs {Q0 : StatePart → Bool} (hp0 : Need Q0 [.trs]) {s0 s : State} (ev : Ev Q0 s0 s) (c : Nat) (t : TrsSt) : Ev Q0 s0 (State.setTrs s c t) := by
  unfold State.setTrs
  repeat' first | with_reducible assumption | exact Need.sub hp0 rfl | with_reducible apply Ev.upd | with_reducible apply Ev.updOut | exact Or.inl (Need.has hp0 rfl) | with_reducible exact Or.inr rfl | exact Need.has hp0 rfl | with_reducible rfl

theorem State.ev_setCbk {Q0 : StatePart → Bool} (hp0 : Need Q0 [.cbk]) {s0 s : State} (ev : Ev Q0 s0 s) (c : Nat) (t : CbkSt) : Ev Q0 s0 (State.setCbk s c t) := by
  unfold State.setCbk
  repeat' first | with_reducible assumption | exact Need.sub hp0 rfl | with_reducible apply Ev.upd | with_reducible apply Ev.updOut | exact Or.inl (Need.has hp0 rfl) | with_reducible exact Or.inr rfl | exact Need.has hp0 rfl | with_reducible rfl

theorem State.ev_engineFault {Q0 : StatePart → Bool} (hp0 : Need Q0 [.host, .steps, .mm, .faults, .log, .streams, .router, .rmt, .col, .cores, .ports, .sec, .regs, .out, .freeCtr, .mem]) {s0 s : State} (ev : Ev Q0 s0 s) (slot : Nat) (core : Nat) (structure' : Nat) (off : Nat) (syndrome : Nat) (cause : Nat) : Ev Q0 s0 (State.engineFault s slot core structure' off syndrome cause) := by
  unfold State.engineFault
  repeat' first | with_reducible assumption | exact Need.sub hp0 rfl | ((try lift_lets -underBinder); intro x; first | (refine Ev.cut (P := Q0) (s0 := s0) (x := x) ?_ (fun hx => ?_); unfold x) | (refine Ev.cutP (P := Q0) (s0 := s0) (x := x) (by unfold x; exact rfl) ?_ (fun hx => ?_)) | skip) | with_reducible apply State.ev_engineRec | with_reducible apply State.ev_faultCall | with_reducible apply State.ev_stepFault

theorem State.ev_showTrs {Q0 : StatePart → Bool} (hp0 : Need Q0 [.regs]) {s0 s : State} (ev : Ev Q0 s0 s) (core : Nat) (operand : Bool) (bank : Bool) (thermal : Bool) (didt : Bool) (fedNow : Bool) : Ev Q0 s0 (State.showTrs s core operand bank thermal didt fedNow) := by
  unfold State.showTrs
  repeat' first | with_reducible assumption | exact Need.sub hp0 rfl | ((try lift_lets -underBinder); intro x; (try dsimp -zeta -proj only); first | (refine Ev.cut (P := Q0) (s0 := s0) (x := x) ?_ (fun hx => ?_); unfold x) | (refine Ev.cutP (P := Q0) (s0 := s0) (x := x) (by unfold x; exact rfl) ?_ (fun hx => ?_)) | skip) | with_reducible apply State.ev_onCore | with_reducible apply State.ev_setF | split

theorem State.ev_passFed {Q0 : StatePart → Bool} (hp0 : Need Q0 [.steps, .mm, .trs, .traceLost, .regs, .mem]) {s0 s : State} (ev : Ev Q0 s0 s) (x1 : OpCtx) (t : TrsSt) (p : TrsPass) : Ev Q0 s0 (State.passFed s x1 t p) := by
  unfold State.passFed
  repeat' first | with_reducible assumption | exact Need.sub hp0 rfl | ((try lift_lets -underBinder); intro x; first | (refine Ev.cut (P := Q0) (s0 := s0) (x := x) ?_ (fun hx => ?_); unfold x) | (refine Ev.cutP (P := Q0) (s0 := s0) (x := x) (by unfold x; exact rfl) ?_ (fun hx => ?_)) | skip) | with_reducible apply State.ev_endRepeat | with_reducible apply State.ev_setTrs

theorem State.ev_feedGroup {Q0 : StatePart → Bool} (hp0 : Need Q0 [.steps, .mm, .trs, .cbk, .traceLost, .regs, .mem]) {s0 s : State} (ev : Ev Q0 s0 s) (x1 : OpCtx) (t : TrsSt) (p : TrsPass) (a : Tile) (b : SegB) : Ev Q0 s0 (State.feedGroup s x1 t p a b) := by
  unfold State.feedGroup
  repeat' first | with_reducible assumption | exact Need.sub hp0 rfl | ((try lift_lets -underBinder); intro x; first | (refine Ev.cut (P := Q0) (s0 := s0) (x := x) ?_ (fun hx => ?_); unfold x) | (refine Ev.cutP (P := Q0) (s0 := s0) (x := x) (by unfold x; exact rfl) ?_ (fun hx => ?_)) | skip) | with_reducible apply State.ev_progress | with_reducible apply State.ev_unstall | with_reducible apply State.ev_setCbk | with_reducible apply State.ev_setTrs | with_reducible apply State.ev_endRead | with_reducible apply State.ev_passFed | split

theorem State.ev_activity {Q0 : StatePart → Bool} (hp0 : Need Q0 [.trs, .regs]) {s0 s : State} (ev : Ev Q0 s0 s) (core : Nat) : Ev Q0 s0 (State.activity s core) := by
  unfold State.activity
  repeat' first | with_reducible assumption | exact Need.sub hp0 rfl | ((try lift_lets -underBinder); intro x; (try dsimp -zeta -proj only); first | (refine Ev.cut (P := Q0) (s0 := s0) (x := x) ?_ (fun hx => ?_); unfold x) | (refine Ev.cutP (P := Q0) (s0 := s0) (x := x) (by unfold x; exact rfl) ?_ (fun hx => ?_)) | skip) | with_reducible apply State.ev_onCore | with_reducible apply State.ev_setF | with_reducible apply State.ev_setTrs | split

theorem State.ev_spadEcc {Q0 : StatePart → Bool} (hp0 : Need Q0 [.host, .steps, .mm, .faults, .log, .streams, .router, .rmt, .col, .cores, .ports, .sec, .regs, .out, .freeCtr, .mem]) {s0 s : State} (ev : Ev Q0 s0 s) (slot : Nat) (core : Nat) (ecc : Nat) (off : Nat) : Ev Q0 s0 (State.spadEcc s slot core ecc off) := by
  unfold State.spadEcc
  repeat' first | with_reducible assumption | exact Need.sub hp0 rfl | ((try lift_lets -underBinder); intro x; (try dsimp -zeta -proj only); first | (refine Ev.cut (P := Q0) (s0 := s0) (x := x) ?_ (fun hx => ?_); unfold x) | (refine Ev.cutP (P := Q0) (s0 := s0) (x := x) (by unfold x; exact rfl) ?_ (fun hx => ?_)) | skip) | with_reducible apply State.ev_onCore | with_reducible apply State.ev_bumpSat | with_reducible apply State.ev_engineFault | split

theorem State.ev_stopTrestle {Q0 : StatePart → Bool} (hp0 : Need Q0 [.trs, .cbk, .regs]) {s0 s : State} (ev : Ev Q0 s0 s) (core : Nat) : Ev Q0 s0 (State.stopTrestle s core) := by
  unfold State.stopTrestle
  repeat' first | with_reducible assumption | exact Need.sub hp0 rfl | ((try lift_lets -underBinder); intro x; first | (refine Ev.cut (P := Q0) (s0 := s0) (x := x) ?_ (fun hx => ?_); unfold x) | (refine Ev.cutP (P := Q0) (s0 := s0) (x := x) (by unfold x; exact rfl) ?_ (fun hx => ?_)) | skip) | with_reducible apply State.ev_showTrs | with_reducible apply State.ev_setCbk | with_reducible apply State.ev_setTrs

theorem execPass_ev {Q0 : StatePart → Bool} (hp0 : Need Q0 [.host, .steps, .mm, .log, .router, .traceLost, .regs, .out, .mem]) {s0 s : State} (ev : Ev Q0 s0 s) (slot : StepIx) (core : LCore) : ∃ t, (execPass slot core s) = .next t ∧ Ev Q0 s0 t := by
  unfold execPass
  refine ⟨_, rfl, ?_⟩
  repeat' first | with_reducible assumption | exact Need.sub hp0 rfl | ((try lift_lets -underBinder); intro x; (try dsimp -zeta -proj only); first | (refine Ev.cut (P := Q0) (s0 := s0) (x := x) ?_ (fun hx => ?_); unfold x) | (refine Ev.cutP (P := Q0) (s0 := s0) (x := x) (by unfold x; exact rfl) ?_ (fun hx => ?_)) | skip) | with_reducible apply State.ev_runOp

theorem execTrestlePassIssue_ev {Q0 : StatePart → Bool} (hp0 : Need Q0 [.host, .steps, .mm, .log, .router, .trs, .traceLost, .regs, .out, .mem]) {s0 s : State} (ev : Ev Q0 s0 s) (slot : StepIx) (core : LCore) : ∃ t, (execTrestlePassIssue slot core s) = .next t ∧ Ev Q0 s0 t := by
  unfold execTrestlePassIssue
  refine ⟨_, rfl, ?_⟩
  repeat' first | with_reducible assumption | exact Need.sub hp0 rfl | ((try lift_lets -underBinder); intro x; (try dsimp -zeta -proj only); first | (refine Ev.cut (P := Q0) (s0 := s0) (x := x) ?_ (fun hx => ?_); unfold x) | (refine Ev.cutP (P := Q0) (s0 := s0) (x := x) (by unfold x; exact rfl) ?_ (fun hx => ?_)) | skip) | with_reducible apply State.ev_runOp | with_reducible apply State.ev_showTrs | with_reducible apply State.ev_stallOn | with_reducible apply State.ev_opFault | with_reducible apply State.ev_unstall | with_reducible apply State.ev_setTrs | split

theorem execTrestleGroupFeed_ev {Q0 : StatePart → Bool} (hp0 : Need Q0 [.host, .steps, .mm, .faults, .log, .streams, .router, .trs, .cbk, .traceLost, .rmt, .col, .cores, .ports, .sec, .regs, .out, .freeCtr, .mem]) {s0 s : State} (ev : Ev Q0 s0 s) (slot : StepIx) (core : LCore) (lost : Bool) (ecc : Fin 3) (off : Nat) : ∃ t, (execTrestleGroupFeed slot core lost ecc off s) = .next t ∧ Ev Q0 s0 t := by
  unfold execTrestleGroupFeed
  refine ⟨_, rfl, ?_⟩
  repeat' first | with_reducible assumption | exact Need.sub hp0 rfl | ((try lift_lets -underBinder); intro x; (try dsimp -zeta -proj only); first | (refine Ev.cut (P := Q0) (s0 := s0) (x := x) ?_ (fun hx => ?_); unfold x) | (refine Ev.cutP (P := Q0) (s0 := s0) (x := x) (by unfold x; exact rfl) ?_ (fun hx => ?_)) | skip) | with_reducible apply State.ev_setTrs | with_reducible apply State.ev_activity | with_reducible apply State.ev_showTrs | with_reducible apply State.ev_stallOn | with_reducible apply State.ev_opFault | with_reducible apply State.ev_onCore | with_reducible apply State.ev_bumpWrap | with_reducible apply State.ev_spadEcc | with_reducible apply State.ev_feedGroup | split

theorem execTrestleDrainStart_ev {Q0 : StatePart → Bool} (hp0 : Need Q0 [.steps, .mm, .trs, .traceLost, .regs, .mem]) {s0 s : State} (ev : Ev Q0 s0 s) (slot : StepIx) (core : LCore) : ∃ t, (execTrestleDrainStart slot core s) = .next t ∧ Ev Q0 s0 t := by
  unfold execTrestleDrainStart
  refine ⟨_, rfl, ?_⟩
  repeat' first | with_reducible assumption | exact Need.sub hp0 rfl | ((try lift_lets -underBinder); intro x; first | (refine Ev.cut (P := Q0) (s0 := s0) (x := x) ?_ (fun hx => ?_); unfold x) | (refine Ev.cutP (P := Q0) (s0 := s0) (x := x) (by unfold x; exact rfl) ?_ (fun hx => ?_)) | skip) | with_reducible apply State.ev_stallOn | with_reducible apply State.ev_modQueue | with_reducible apply State.ev_setTrs | split

theorem execTrestleTileOut_ev {Q0 : StatePart → Bool} (hp0 : Need Q0 [.host, .steps, .mm, .log, .router, .trs, .traceLost, .regs, .out, .mem]) {s0 s : State} (ev : Ev Q0 s0 s) (slot : StepIx) (core : LCore) : ∃ t, (execTrestleTileOut slot core s) = .next t ∧ Ev Q0 s0 t := by
  unfold execTrestleTileOut
  refine ⟨_, rfl, ?_⟩
  repeat' first | with_reducible assumption | exact Need.sub hp0 rfl | ((try lift_lets -underBinder); intro x; (try dsimp -zeta -proj only); first | (refine Ev.cut (P := Q0) (s0 := s0) (x := x) ?_ (fun hx => ?_); unfold x) | (refine Ev.cutP (P := Q0) (s0 := s0) (x := x) (by unfold x; exact rfl) ?_ (fun hx => ?_)) | skip) | with_reducible apply State.ev_stallOn | with_reducible apply State.ev_opFault | with_reducible apply State.ev_setTrs | with_reducible apply State.ev_endRead | with_reducible apply State.ev_onCore | with_reducible apply State.ev_bumpWrap | with_reducible apply State.ev_emitTile | split

theorem execTrestleParityError_ev {Q0 : StatePart → Bool} (hp0 : Need Q0 [.host, .steps, .mm, .faults, .log, .streams, .router, .rmt, .col, .cores, .ports, .sec, .regs, .out, .freeCtr, .mem]) {s0 s : State} (ev : Ev Q0 s0 s) (slot : StepIx) (core : LCore) (line : Nat) : ∃ t, (execTrestleParityError slot core line s) = .next t ∧ Ev Q0 s0 t := by
  unfold execTrestleParityError
  refine ⟨_, rfl, ?_⟩
  repeat' first | with_reducible assumption | exact Need.sub hp0 rfl | ((try lift_lets -underBinder); intro x; (try dsimp -zeta -proj only); first | (refine Ev.cut (P := Q0) (s0 := s0) (x := x) ?_ (fun hx => ?_); unfold x) | (refine Ev.cutP (P := Q0) (s0 := s0) (x := x) (by unfold x; exact rfl) ?_ (fun hx => ?_)) | skip) | with_reducible apply State.ev_engineFault | with_reducible apply State.ev_onCore | with_reducible apply State.ev_bumpSat

theorem execDecode_ev {Q0 : StatePart → Bool} (hp0 : Need Q0 [.host, .steps, .mm, .log, .router, .traceLost, .regs, .out, .mem]) {s0 s : State} (ev : Ev Q0 s0 s) (slot : StepIx) (core : LCore) : ∃ t, (execDecode slot core s) = .next t ∧ Ev Q0 s0 t := by
  unfold execDecode
  refine ⟨_, rfl, ?_⟩
  repeat' first | with_reducible assumption | exact Need.sub hp0 rfl | ((try lift_lets -underBinder); intro x; (try dsimp -zeta -proj only); first | (refine Ev.cut (P := Q0) (s0 := s0) (x := x) ?_ (fun hx => ?_); unfold x) | (refine Ev.cutP (P := Q0) (s0 := s0) (x := x) (by unfold x; exact rfl) ?_ (fun hx => ?_)) | skip) | with_reducible apply State.ev_runOp

theorem execCodebookTileDecode_ev {Q0 : StatePart → Bool} (hp0 : Need Q0 [.host, .steps, .mm, .log, .router, .cbk, .traceLost, .regs, .out, .mem]) {s0 s : State} (ev : Ev Q0 s0 s) (slot : StepIx) (core : LCore) : ∃ t, (execCodebookTileDecode slot core s) = .next t ∧ Ev Q0 s0 t := by
  unfold execCodebookTileDecode
  refine ⟨_, rfl, ?_⟩
  repeat' first | with_reducible assumption | exact Need.sub hp0 rfl | ((try lift_lets -underBinder); intro x; (try dsimp -zeta -proj only); first | (refine Ev.cut (P := Q0) (s0 := s0) (x := x) ?_ (fun hx => ?_); unfold x) | (refine Ev.cutP (P := Q0) (s0 := s0) (x := x) (by unfold x; exact rfl) ?_ (fun hx => ?_)) | skip) | with_reducible apply State.ev_runOp | with_reducible apply State.ev_stallOn | with_reducible apply State.ev_setCbk | with_reducible apply State.ev_opFault | with_reducible apply State.ev_onCore | with_reducible apply State.ev_bumpWrap | with_reducible apply State.ev_progress | with_reducible apply State.ev_unstall | with_reducible apply State.ev_endRead | with_reducible apply State.ev_endRepeat | with_reducible apply State.ev_modInst | split

end Sys2Proof.Machine
end

