-- ==== Sys2Proof/Laws/EvOps.lean ====
section
/-! SUPPORT. The operations of Ops.lean keep the relation Ev. -/

namespace Sys2Proof.Machine

open Sys2Proof

set_option linter.unusedVariables false

theorem State.ev_serve {Q0 : StatePart → Bool} (hp0 : Need Q0 [.mm, .regs]) {s0 s : State} (ev : Ev Q0 s0 s) (n : Nat) (off : Nat) : Ev Q0 s0 (State.serve s n off) := by
  unfold State.serve
  repeat' first | with_reducible assumption | exact Need.sub hp0 rfl | ((try lift_lets -underBinder); intro x; first | (refine Ev.cut (P := Q0) (s0 := s0) (x := x) ?_ (fun hx => ?_); unfold x) | (refine Ev.cutP (P := Q0) (s0 := s0) (x := x) (by unfold x; exact rfl) ?_ (fun hx => ?_)) | skip) | with_reducible apply State.ev_bumpWrap | with_reducible apply State.ev_setStack

theorem State.ev_lineAccess {Q0 : StatePart → Bool} (hp0 : Need Q0 [.mm, .regs]) {s0 s : State} (ev : Ev Q0 s0 s) (n : Nat) (line : Nat) (write : Bool) (alloc : Bool) : Ev Q0 s0 (State.lineAccess s n line write alloc) := by
  unfold State.lineAccess
  repeat' first | with_reducible assumption | exact Need.sub hp0 rfl | ((try lift_lets -underBinder); intro x; (try dsimp -zeta -proj only); first | (refine Ev.cut (P := Q0) (s0 := s0) (x := x) ?_ (fun hx => ?_); unfold x) | (refine Ev.cutP (P := Q0) (s0 := s0) (x := x) (by unfold x; exact rfl) ?_ (fun hx => ?_)) | (refine Ev.cutF (x := x) (fun f => ∀ st, Ev Q0 s0 st → Ev Q0 s0 (f st)) ?_ (fun hF => ?_); unfold x; try dsimp -zeta -proj only) | (refine Ev.cutF (x := x) (fun f => ∀ st a, Ev Q0 s0 st → Ev Q0 s0 (f st a)) ?_ (fun hF => ?_); unfold x; try dsimp -zeta -proj only) | (refine Ev.cutF (x := x) (fun f => ∀ st a b, Ev Q0 s0 st → Ev Q0 s0 (f st a b)) ?_ (fun hF => ?_); unfold x; try dsimp -zeta -proj only) | (refine Ev.cutF (x := x) (fun f => ∀ b, Ev Q0 s0 (f b)) ?_ (fun hF => ?_); unfold x; try dsimp -zeta -proj only) | (refine Ev.cutF (x := x) (fun f => ∀ a b, Ev Q0 s0 (f a b)) ?_ (fun hF => ?_); unfold x; try dsimp -zeta -proj only) | skip) | with_reducible apply hF | with_reducible apply State.ev_serve | with_reducible apply State.ev_bumpWrap | with_reducible apply State.ev_setSpan | split

theorem State.ev_touchComb {Q0 : StatePart → Bool} (hp0 : Need Q0 [.rmt]) {s0 s : State} (ev : Ev Q0 s0 s) (line : Nat) : Ev Q0 s0 (State.touchComb s line) := by
  unfold State.touchComb
  repeat' first | with_reducible assumption | exact Need.sub hp0 rfl | ((try lift_lets -underBinder); intro x; first | (refine Ev.cut (P := Q0) (s0 := s0) (x := x) ?_ (fun hx => ?_); unfold x) | (refine Ev.cutP (P := Q0) (s0 := s0) (x := x) (by unfold x; exact rfl) ?_ (fun hx => ?_)) | skip) | split | with_reducible apply Ev.upd | with_reducible apply Ev.updOut | exact Or.inl (Need.has hp0 rfl) | with_reducible exact Or.inr rfl | exact Need.has hp0 rfl | with_reducible rfl

theorem State.ev_accessLines {Q0 : StatePart → Bool} (hp0 : Need Q0 [.mm, .rmt, .regs]) {s0 s : State} (ev : Ev Q0 s0 s) (a : Nat) (n : Nat) (write : Bool) (alloc : Bool) : Ev Q0 s0 (State.accessLines s a n write alloc) := by
  unfold State.accessLines
  repeat' first | with_reducible assumption | exact Need.sub hp0 rfl | ((try lift_lets -underBinder); intro x; first | (refine Ev.cut (P := Q0) (s0 := s0) (x := x) ?_ (fun hx => ?_); unfold x) | (refine Ev.cutP (P := Q0) (s0 := s0) (x := x) (by unfold x; exact rfl) ?_ (fun hx => ?_)) | skip) | with_reducible apply State.ev_touchComb | with_reducible apply State.ev_lineAccess | with_reducible refine Ev.foldl _ (fun st a hst => ?_) _ _ ?_ | with_reducible refine Ev.foldlP _ (fun st a hst => ?_) _ _ ?_ | split

theorem State.ev_memRec {Q0 : StatePart → Bool} (hp0 : Need Q0 [.host, .log, .regs, .out]) {s0 s : State} (ev : Ev Q0 s0 s) (n : Nat) (event : Nat) (off : Nat) (pages : Nat) (sev : Nat) (injected : optParam Bool false) : Ev Q0 s0 (State.memRec s n event off pages sev injected) := by
  unfold State.memRec
  repeat' first | with_reducible assumption | exact Need.sub hp0 rfl | with_reducible apply State.ev_errRec

theorem State.ev_setInjections {Q0 : StatePart → Bool} (hp0 : Need Q0 [.faults]) {s0 s : State} (ev : Ev Q0 s0 s) (l : List Injection) : Ev Q0 s0 (State.setInjections s l) := by
  unfold State.setInjections
  repeat' first | with_reducible assumption | exact Need.sub hp0 rfl | ((try lift_lets -underBinder); intro x; first | (refine Ev.cut (P := Q0) (s0 := s0) (x := x) ?_ (fun hx => ?_); unfold x) | (refine Ev.cutP (P := Q0) (s0 := s0) (x := x) (by unfold x; exact rfl) ?_ (fun hx => ?_)) | skip) | with_reducible apply Ev.upd | with_reducible apply Ev.updOut | exact Or.inl (Need.has hp0 rfl) | with_reducible exact Or.inr rfl | exact Need.has hp0 rfl | with_reducible rfl

theorem State.ev_meetInj {Q0 : StatePart → Bool} (hp0 : Need Q0 [.host, .faults, .log, .regs, .out]) {s0 s : State} (ev : Ev Q0 s0 s) (k : Nat) (n : Nat) : Ev Q0 s0 (State.meetInj s k n) := by
  unfold State.meetInj
  repeat' first | with_reducible assumption | exact Need.sub hp0 rfl | ((try lift_lets -underBinder); intro x; first | (refine Ev.cut (P := Q0) (s0 := s0) (x := x) ?_ (fun hx => ?_); unfold x) | (refine Ev.cutP (P := Q0) (s0 := s0) (x := x) (by unfold x; exact rfl) ?_ (fun hx => ?_)) | skip) | with_reducible apply State.ev_setInjections | with_reducible apply State.ev_memRec | with_reducible refine Ev.foldl _ (fun st a hst => ?_) _ _ ?_ | with_reducible refine Ev.foldlP _ (fun st a hst => ?_) _ _ ?_ | split

theorem State.ev_access {Q0 : StatePart → Bool} (hp0 : Need Q0 [.host, .mm, .faults, .log, .rmt, .regs, .out]) {s0 s : State} (ev : Ev Q0 s0 s) (a : Nat) (n : Nat) (write : Bool) (alloc : Bool) : Ev Q0 s0 (State.access s a n write alloc) := by
  unfold State.access
  repeat' first | with_reducible assumption | exact Need.sub hp0 rfl | ((try lift_lets -underBinder); intro x; first | (refine Ev.cut (P := Q0) (s0 := s0) (x := x) ?_ (fun hx => ?_); unfold x) | (refine Ev.cutP (P := Q0) (s0 := s0) (x := x) (by unfold x; exact rfl) ?_ (fun hx => ?_)) | skip) | with_reducible apply State.ev_accessLines | with_reducible apply State.ev_meetInj | with_reducible refine Ev.foldl _ (fun st a hst => ?_) _ _ ?_ | with_reducible refine Ev.foldlP _ (fun st a hst => ?_) _ _ ?_ | split

theorem State.ev_raiseRetire {Q0 : StatePart → Bool} (hp0 : Need Q0 [.host, .mm, .log, .regs, .out]) {s0 s : State} (ev : Ev Q0 s0 s) (n : Nat) (page : Nat) : Ev Q0 s0 (State.raiseRetire s n page) := by
  unfold State.raiseRetire
  repeat' first | with_reducible assumption | exact Need.sub hp0 rfl | ((try lift_lets -underBinder); intro x; first | (refine Ev.cut (P := Q0) (s0 := s0) (x := x) ?_ (fun hx => ?_); unfold x) | (refine Ev.cutP (P := Q0) (s0 := s0) (x := x) (by unfold x; exact rfl) ?_ (fun hx => ?_)) | skip) | with_reducible apply State.ev_memRec | with_reducible apply State.ev_setF | with_reducible apply State.ev_setStack | split

theorem State.ev_trackCe {Q0 : StatePart → Bool} (hp0 : Need Q0 [.host, .mm, .log, .regs, .out]) {s0 s : State} (ev : Ev Q0 s0 s) (n : Nat) (page : Nat) : Ev Q0 s0 (State.trackCe s n page) := by
  unfold State.trackCe
  repeat' first | with_reducible assumption | exact Need.sub hp0 rfl | ((try lift_lets -underBinder); intro x; first | (refine Ev.cut (P := Q0) (s0 := s0) (x := x) ?_ (fun hx => ?_); unfold x) | (refine Ev.cutP (P := Q0) (s0 := s0) (x := x) (by unfold x; exact rfl) ?_ (fun hx => ?_)) | skip) | with_reducible apply State.ev_setStack | with_reducible apply State.ev_raiseRetire | split

theorem State.ev_hbmCe {Q0 : StatePart → Bool} (hp0 : Need Q0 [.host, .mm, .log, .regs, .out]) {s0 s : State} (ev : Ev Q0 s0 s) (n : Nat) (off : Nat) : Ev Q0 s0 (State.hbmCe s n off) := by
  unfold State.hbmCe
  repeat' first | with_reducible assumption | exact Need.sub hp0 rfl | with_reducible apply State.ev_trackCe | with_reducible apply State.ev_bumpSat

theorem State.ev_hbmUe {Q0 : StatePart → Bool} (hp0 : Need Q0 [.host, .mm, .log, .regs, .out, .freeCtr]) {s0 s : State} (ev : Ev Q0 s0 s) (n : Nat) (off : Nat) (injected : optParam Bool false) : Ev Q0 s0 (State.hbmUe s n off injected) := by
  unfold State.hbmUe
  repeat' first | with_reducible assumption | exact Need.sub hp0 rfl | ((try lift_lets -underBinder); intro x; first | (refine Ev.cut (P := Q0) (s0 := s0) (x := x) ?_ (fun hx => ?_); unfold x) | (refine Ev.cutP (P := Q0) (s0 := s0) (x := x) (by unfold x; exact rfl) ?_ (fun hx => ?_)) | skip) | with_reducible apply State.ev_drew | with_reducible apply State.ev_memRec | with_reducible apply State.ev_bumpSat | with_reducible apply State.ev_setPoison | with_reducible apply State.ev_raiseRetire | split

theorem State.ev_deckFault {Q0 : StatePart → Bool} (hp0 : Need Q0 [.host, .steps, .mm, .faults, .log, .streams, .router, .rmt, .col, .cores, .ports, .sec, .regs, .out, .freeCtr, .mem]) {s0 s : State} (ev : Ev Q0 s0 s) (slot : Nat) (n : Nat) (off : Nat) : Ev Q0 s0 (State.deckFault s slot n off) := by
  unfold State.deckFault
  repeat' first | with_reducible assumption | exact Need.sub hp0 rfl | with_reducible apply State.ev_faultCall | with_reducible apply State.ev_stepFault | with_reducible apply State.ev_engineRec

theorem State.ev_deckUe {Q0 : StatePart → Bool} (hp0 : Need Q0 [.host, .steps, .mm, .faults, .log, .streams, .router, .rmt, .col, .cores, .ports, .sec, .regs, .out, .freeCtr, .mem]) {s0 s : State} (ev : Ev Q0 s0 s) (slot : Nat) (a : Nat) : Ev Q0 s0 (State.deckUe s slot a) := by
  unfold State.deckUe
  repeat' first | with_reducible assumption | exact Need.sub hp0 rfl | ((try lift_lets -underBinder); intro x; first | (refine Ev.cut (P := Q0) (s0 := s0) (x := x) ?_ (fun hx => ?_); unfold x) | (refine Ev.cutP (P := Q0) (s0 := s0) (x := x) (by unfold x; exact rfl) ?_ (fun hx => ?_)) | skip) | with_reducible apply State.ev_bumpSat | with_reducible apply State.ev_setSpan | with_reducible apply State.ev_setPoison | with_reducible apply State.ev_deckFault | with_reducible apply State.ev_forgetDeck | with_reducible refine Ev.foldl _ (fun st a hst => ?_) _ _ ?_ | with_reducible refine Ev.foldlP _ (fun st a hst => ?_) _ _ ?_ | split

theorem State.ev_eccOne {Q0 : StatePart → Bool} (hp0 : Need Q0 [.host, .steps, .mm, .faults, .log, .streams, .router, .rmt, .col, .cores, .ports, .sec, .regs, .out, .freeCtr, .mem]) {s0 s : State} (ev : Ev Q0 s0 s) (slot : Nat) (h : EccHit) : Ev Q0 s0 (State.eccOne s slot h) := by
  unfold State.eccOne
  repeat' first | with_reducible assumption | exact Need.sub hp0 rfl | with_reducible apply State.ev_hbmCe | with_reducible apply State.ev_hbmUe | with_reducible apply State.ev_bumpSat | with_reducible apply State.ev_deckUe | split

theorem State.ev_ecc {Q0 : StatePart → Bool} (hp0 : Need Q0 [.host, .steps, .mm, .faults, .log, .streams, .router, .rmt, .col, .cores, .ports, .sec, .regs, .out, .freeCtr, .mem]) {s0 s : State} (ev : Ev Q0 s0 s) (slot : Nat) (a : Nat) (n : Nat) (hits : List EccHit) : Ev Q0 s0 (State.ecc s slot a n hits) := by
  unfold State.ecc
  repeat' first | with_reducible assumption | exact Need.sub hp0 rfl | with_reducible apply State.ev_eccOne | with_reducible refine Ev.foldl _ (fun st a hst => ?_) _ _ ?_ | with_reducible refine Ev.foldlP _ (fun st a hst => ?_) _ _ ?_

theorem State.ev_opened {Q0 : StatePart → Bool} (hp0 : Need Q0 [.freeCtr]) {s0 s : State} (ev : Ev Q0 s0 s) (t : Tile) : Ev Q0 s0 (State.opened s t) := by
  unfold State.opened
  repeat' first | with_reducible assumption | exact Need.sub hp0 rfl | with_reducible apply State.ev_drew | split

theorem State.ev_poisonExcl {Q0 : StatePart → Bool} (hp0 : Need Q0 [.steps]) {s0 s : State} (ev : Ev Q0 s0 s) (slot : Nat) (ix : Nat) (poison : Bool) : Ev Q0 s0 (State.poisonExcl s slot ix poison) := by
  unfold State.poisonExcl
  repeat' first | with_reducible assumption | exact Need.sub hp0 rfl | with_reducible apply State.ev_excludeStream | split

end Sys2Proof.Machine
end

