-- ==== Sys2Proof/Laws/EvMemEvents.lean ====
section
/-! SUPPORT. The operations of MemEvents.lean keep the relation Ev. -/

namespace Sys2Proof.Machine

open Sys2Proof

set_option linter.unusedVariables false

theorem State.ev_scrubHit {Q0 : StatePart → Bool} (hp0 : Need Q0 [.host, .mm, .log, .regs, .out, .freeCtr]) {s0 s : State} (ev : Ev Q0 s0 s) (n : Nat) (h : EccHit) : Ev Q0 s0 (State.scrubHit n s h) := by
  unfold State.scrubHit
  repeat' first | with_reducible assumption | exact Need.sub hp0 rfl | with_reducible apply State.ev_hbmCe | with_reducible apply State.ev_hbmUe | split

theorem State.ev_scrubOne {Q0 : StatePart → Bool} (hp0 : Need Q0 [.host, .mm, .log, .regs, .out, .freeCtr]) {s0 s : State} (ev : Ev Q0 s0 s) (n : Nat) (hits : List EccHit) : Ev Q0 s0 (State.scrubOne s n hits) := by
  unfold State.scrubOne
  repeat' first | with_reducible assumption | exact Need.sub hp0 rfl | ((try lift_lets -underBinder); intro x; first | (refine Ev.cut (P := Q0) (s0 := s0) (x := x) ?_ (fun hx => ?_); unfold x) | (refine Ev.cutP (P := Q0) (s0 := s0) (x := x) (by unfold x; exact rfl) ?_ (fun hx => ?_)) | skip) | with_reducible apply State.ev_setStack | with_reducible apply State.ev_scrubHit | with_reducible refine Ev.foldl _ (fun st a hst => ?_) _ _ ?_ | with_reducible refine Ev.foldlP _ (fun st a hst => ?_) _ _ ?_

theorem State.ev_reserveLevel {Q0 : StatePart → Bool} (hp0 : Need Q0 [.host, .mm, .log, .regs, .out]) {s0 s : State} (ev : Ev Q0 s0 s) (n : Nat) : Ev Q0 s0 (State.reserveLevel s n) := by
  unfold State.reserveLevel
  repeat' first | with_reducible assumption | exact Need.sub hp0 rfl | ((try lift_lets -underBinder); intro x; first | (refine Ev.cut (P := Q0) (s0 := s0) (x := x) ?_ (fun hx => ?_); unfold x) | (refine Ev.cutP (P := Q0) (s0 := s0) (x := x) (by unfold x; exact rfl) ?_ (fun hx => ?_)) | skip) | with_reducible apply State.ev_memRec | with_reducible apply State.ev_setF | with_reducible apply State.ev_setStack | split

theorem State.ev_retireNow {Q0 : StatePart → Bool} (hp0 : Need Q0 [.host, .mm, .log, .regs, .out]) {s0 s : State} (ev : Ev Q0 s0 s) (n : Nat) (page : Nat) (faulty : Nat) : Ev Q0 s0 (State.retireNow s n page faulty) := by
  unfold State.retireNow
  repeat' first | with_reducible assumption | exact Need.sub hp0 rfl | ((try lift_lets -underBinder); intro x; first | (refine Ev.cut (P := Q0) (s0 := s0) (x := x) ?_ (fun hx => ?_); unfold x) | (refine Ev.cutP (P := Q0) (s0 := s0) (x := x) (by unfold x; exact rfl) ?_ (fun hx => ?_)) | skip) | with_reducible apply State.ev_reserveLevel | with_reducible apply State.ev_setF | with_reducible apply State.ev_setStack | with_reducible apply State.ev_memRec | split

theorem State.ev_retireCopied {Q0 : StatePart → Bool} (hp0 : Need Q0 [.host, .mm, .log, .regs, .out, .freeCtr]) {s0 s : State} (ev : Ev Q0 s0 s) (n : Nat) (bad : List Nat) (faulty : Nat) : Ev Q0 s0 (State.retireCopied s n bad faulty) := by
  unfold State.retireCopied
  repeat' first | with_reducible assumption | exact Need.sub hp0 rfl | ((try lift_lets -underBinder); intro x; first | (refine Ev.cut (P := Q0) (s0 := s0) (x := x) ?_ (fun hx => ?_); unfold x) | (refine Ev.cutP (P := Q0) (s0 := s0) (x := x) (by unfold x; exact rfl) ?_ (fun hx => ?_)) | skip) | with_reducible apply State.ev_hbmUe | with_reducible apply State.ev_setF | with_reducible apply State.ev_setStack | with_reducible apply State.ev_retireNow | with_reducible refine Ev.foldl _ (fun st a hst => ?_) _ _ ?_ | with_reducible refine Ev.foldlP _ (fun st a hst => ?_) _ _ ?_ | split

theorem State.ev_raiseSkew {Q0 : StatePart → Bool} (hp0 : Need Q0 [.host, .log, .regs, .out]) {s0 s : State} (ev : Ev Q0 s0 s) (n : Nat) (hot : Nat) : Ev Q0 s0 (State.raiseSkew s n hot) := by
  unfold State.raiseSkew
  repeat' first | with_reducible assumption | exact Need.sub hp0 rfl | with_reducible apply State.ev_setF | with_reducible apply State.ev_memRec

theorem State.ev_skewWindow {Q0 : StatePart → Bool} (hp0 : Need Q0 [.host, .mm, .log, .regs, .out]) {s0 s : State} (ev : Ev Q0 s0 s) (n : Nat) : Ev Q0 s0 (State.skewWindow s n) := by
  unfold State.skewWindow
  repeat' first | with_reducible assumption | exact Need.sub hp0 rfl | ((try lift_lets -underBinder); intro x; first | (refine Ev.cut (P := Q0) (s0 := s0) (x := x) ?_ (fun hx => ?_); unfold x) | (refine Ev.cutP (P := Q0) (s0 := s0) (x := x) (by unfold x; exact rfl) ?_ (fun hx => ?_)) | skip) | with_reducible apply State.ev_setStack | with_reducible apply State.ev_setF | with_reducible apply State.ev_raiseSkew | split

theorem State.ev_flushCache {Q0 : StatePart → Bool} (hp0 : Need Q0 [.mm, .regs]) {s0 s : State} (ev : Ev Q0 s0 s) (n : Nat) : Ev Q0 s0 (State.flushCache s n) := by
  unfold State.flushCache
  repeat' first | with_reducible assumption | exact Need.sub hp0 rfl | ((try lift_lets -underBinder); intro x; first | (refine Ev.cut (P := Q0) (s0 := s0) (x := x) ?_ (fun hx => ?_); unfold x) | (refine Ev.cutP (P := Q0) (s0 := s0) (x := x) (by unfold x; exact rfl) ?_ (fun hx => ?_)) | skip) | with_reducible apply State.ev_serve | with_reducible apply State.ev_setSpan | with_reducible refine Ev.foldl _ (fun st a hst => ?_) _ _ ?_ | with_reducible refine Ev.foldlP _ (fun st a hst => ?_) _ _ ?_

theorem State.ev_traceFit {Q0 : StatePart → Bool} (hp0 : Need Q0 [.traceLost, .regs]) {s0 s : State} (ev : Ev Q0 s0 s) (c : Nat) : Ev Q0 s0 (State.traceFit s c) := by
  unfold State.traceFit
  repeat' first | with_reducible assumption | exact Need.sub hp0 rfl | ((try lift_lets -underBinder); intro x; first | (refine Ev.cut (P := Q0) (s0 := s0) (x := x) ?_ (fun hx => ?_); unfold x) | (refine Ev.cutP (P := Q0) (s0 := s0) (x := x) (by unfold x; exact rfl) ?_ (fun hx => ?_)) | skip) | with_reducible apply State.ev_setF | split | with_reducible apply Ev.upd | with_reducible apply Ev.updOut | exact Or.inl (Need.has hp0 rfl) | with_reducible exact Or.inr rfl | exact Need.has hp0 rfl | with_reducible rfl

theorem State.ev_applySplit {Q0 : StatePart → Bool} (hp0 : Need Q0 [.mm, .traceLost, .regs, .freeCtr, .mem]) {s0 s : State} (ev : Ev Q0 s0 s) (n : Nat) : Ev Q0 s0 (State.applySplit s n) := by
  unfold State.applySplit
  repeat' first | with_reducible assumption | exact Need.sub hp0 rfl | ((try lift_lets -underBinder); intro x; first | (refine Ev.cut (P := Q0) (s0 := s0) (x := x) ?_ (fun hx => ?_); unfold x) | (refine Ev.cutP (P := Q0) (s0 := s0) (x := x) (by unfold x; exact rfl) ?_ (fun hx => ?_)) | skip) | with_reducible apply State.ev_flushCache | with_reducible apply State.ev_setSpan | with_reducible apply State.ev_forgetDeck | with_reducible apply State.ev_traceFit | with_reducible refine Ev.foldl _ (fun st a hst => ?_) _ _ ?_ | with_reducible refine Ev.foldlP _ (fun st a hst => ?_) _ _ ?_

theorem State.ev_bistDone {Q0 : StatePart → Bool} (hp0 : Need Q0 [.host, .mm, .log, .regs, .out, .freeCtr, .mem]) {s0 s : State} (ev : Ev Q0 s0 s) (n : Nat) (failing : List Nat) : Ev Q0 s0 (State.bistDone s n failing) := by
  unfold State.bistDone
  repeat' first | with_reducible assumption | exact Need.sub hp0 rfl | ((try lift_lets -underBinder); intro x; first | (refine Ev.cut (P := Q0) (s0 := s0) (x := x) ?_ (fun hx => ?_); unfold x) | (refine Ev.cutP (P := Q0) (s0 := s0) (x := x) (by unfold x; exact rfl) ?_ (fun hx => ?_)) | skip) | with_reducible apply State.ev_forgetStack | with_reducible apply State.ev_setStack | with_reducible apply State.ev_retireNow | with_reducible apply State.ev_memRec | with_reducible apply State.ev_setF | with_reducible apply State.ev_finish | with_reducible refine Ev.foldl _ (fun st a hst => ?_) _ _ ?_ | with_reducible refine Ev.foldlP _ (fun st a hst => ?_) _ _ ?_ | split

theorem execPatrolScrub_ev {Q0 : StatePart → Bool} (hp0 : Need Q0 [.host, .mm, .log, .regs, .out, .freeCtr]) {s0 s : State} (ev : Ev Q0 s0 s) (stack : SpanIx) (hits : List EccHit) : ∃ t, (execPatrolScrub stack hits s) = .next t ∧ Ev Q0 s0 t := by
  unfold execPatrolScrub
  refine ⟨_, rfl, ?_⟩
  repeat' first | with_reducible assumption | exact Need.sub hp0 rfl | with_reducible apply State.ev_scrubOne | split

theorem execRetirementCopyDone_ev {Q0 : StatePart → Bool} (hp0 : Need Q0 [.host, .mm, .log, .regs, .out, .freeCtr]) {s0 s : State} (ev : Ev Q0 s0 s) (stack : SpanIx) (bad : List (Fin 8192)) (faulty : Fin 4097) : ∃ t, (execRetirementCopyDone stack bad faulty s) = .next t ∧ Ev Q0 s0 t := by
  unfold execRetirementCopyDone
  refine ⟨_, rfl, ?_⟩
  repeat' first | with_reducible assumption | exact Need.sub hp0 rfl | with_reducible apply State.ev_retireCopied

theorem execSkewWindowEnd_ev {Q0 : StatePart → Bool} (hp0 : Need Q0 [.host, .mm, .log, .regs, .out]) {s0 s : State} (ev : Ev Q0 s0 s) (stack : SpanIx) : ∃ t, (execSkewWindowEnd stack s) = .next t ∧ Ev Q0 s0 t := by
  unfold execSkewWindowEnd
  refine ⟨_, rfl, ?_⟩
  repeat' first | with_reducible assumption | exact Need.sub hp0 rfl | with_reducible apply State.ev_skewWindow

theorem execDeckSplitApply_ev {Q0 : StatePart → Bool} (hp0 : Need Q0 [.mm, .traceLost, .regs, .freeCtr, .mem]) {s0 s : State} (ev : Ev Q0 s0 s) (span : SpanIx) : ∃ t, (execDeckSplitApply span s) = .next t ∧ Ev Q0 s0 t := by
  unfold execDeckSplitApply
  refine ⟨_, rfl, ?_⟩
  repeat' first | with_reducible assumption | exact Need.sub hp0 rfl | with_reducible apply State.ev_applySplit | split

theorem execStackHandover_ev {Q0 : StatePart → Bool} (hp0 : Need Q0 [.mm, .regs]) {s0 s : State} (ev : Ev Q0 s0 s) (stack : SpanIx) : ∃ t, (execStackHandover stack s) = .next t ∧ Ev Q0 s0 t := by
  unfold execStackHandover
  refine ⟨_, rfl, ?_⟩
  repeat' first | with_reducible assumption | exact Need.sub hp0 rfl | with_reducible apply State.ev_ownStack | split

theorem execHbmBistDone_ev {Q0 : StatePart → Bool} (hp0 : Need Q0 [.host, .mm, .log, .regs, .out, .freeCtr, .mem]) {s0 s : State} (ev : Ev Q0 s0 s) (stack : SpanIx) (failing : List (Fin 94208)) : ∃ t, (execHbmBistDone stack failing s) = .next t ∧ Ev Q0 s0 t := by
  unfold execHbmBistDone
  refine ⟨_, rfl, ?_⟩
  repeat' first | with_reducible assumption | exact Need.sub hp0 rfl | with_reducible apply State.ev_bistDone

end Sys2Proof.Machine
end

