-- ==== Sys2Proof/Laws/EvRing.lean ====
section
/-! SUPPORT. The operations of Ring.lean keep the relation Ev. -/

namespace Sys2Proof.Machine

open Sys2Proof

set_option linter.unusedVariables false

theorem State.ev_ringCmd {Q0 : StatePart → Bool} (hp0 : Need Q0 []) {s0 s : State} (ev : Ev Q0 s0 s) (n : Nat) (op : Nat) (k : State → InFlight → State) (hk : ∀ x0 x1, Ev Q0 s0 x0 → Ev Q0 s0 (k x0 x1)) : Ev Q0 s0 (State.ringCmd s n op k) := by
  unfold State.ringCmd
  repeat' first | with_reducible assumption | exact Need.sub hp0 rfl | with_reducible apply hk | split

theorem State.ev_startFlight {Q0 : StatePart → Bool} (hp0 : Need Q0 [.host]) {s0 s : State} (ev : Ev Q0 s0 s) (f : InFlight) (a : Nat) (b : Nat) : Ev Q0 s0 (State.startFlight s f a b) := by
  unfold State.startFlight
  repeat' first | with_reducible assumption | exact Need.sub hp0 rfl | with_reducible apply State.ev_setFlight

theorem State.ev_hostGet {Q0 : StatePart → Bool} (hp0 : Need Q0 [.out]) {s0 s : State} (ev : Ev Q0 s0 s) (f : InFlight) (addr : Nat) (n : Nat) (data : Option (List Byte)) : Ev Q0 s0 (State.hostGet s f addr n data).1 := by
  unfold State.hostGet
  repeat' first | with_reducible assumption | exact Need.sub hp0 rfl | ((try lift_lets -underBinder); intro x; first | (refine Ev.cut (P := Q0) (s0 := s0) (x := x) ?_ (fun hx => ?_); unfold x) | (refine Ev.cutP (P := Q0) (s0 := s0) (x := x) (by unfold x; exact rfl) ?_ (fun hx => ?_)) | skip) | with_reducible apply State.ev_emit | split

theorem State.ev_hostGet_eq {Q0 : StatePart → Bool} (hp0 : Need Q0 [.out]) {s0 s : State} (ev : Ev Q0 s0 s) (f : InFlight) (addr : Nat) (n : Nat) (data : Option (List Byte)) {sT : State} {r : Option (List Sys2Proof.Byte)} (e : (State.hostGet s f addr n data) = (sT, r)) : Ev Q0 s0 sT := by
  have h := State.ev_hostGet hp0 ev f addr n data
  rw [e] at h
  exact h

theorem State.ev_hostPut {Q0 : StatePart → Bool} (hp0 : Need Q0 [.out]) {s0 s : State} (ev : Ev Q0 s0 s) (f : InFlight) (addr : Nat) (bs : List Byte) (ok : Bool) : Ev Q0 s0 (State.hostPut s f addr bs ok).1 := by
  unfold State.hostPut
  repeat' first | with_reducible assumption | exact Need.sub hp0 rfl | ((try lift_lets -underBinder); intro x; first | (refine Ev.cut (P := Q0) (s0 := s0) (x := x) ?_ (fun hx => ?_); unfold x) | (refine Ev.cutP (P := Q0) (s0 := s0) (x := x) (by unfold x; exact rfl) ?_ (fun hx => ?_)) | skip) | with_reducible apply State.ev_emit | split

theorem State.ev_hostPut_eq {Q0 : StatePart → Bool} (hp0 : Need Q0 [.out]) {s0 s : State} (ev : Ev Q0 s0 s) (f : InFlight) (addr : Nat) (bs : List Byte) (ok : Bool) {sT : State} {r : Bool} (e : (State.hostPut s f addr bs ok) = (sT, r)) : Ev Q0 s0 sT := by
  have h := State.ev_hostPut hp0 ev f addr bs ok
  rw [e] at h
  exact h

theorem State.ev_takeTurn {Q0 : StatePart → Bool} (hp0 : Need Q0 [.host]) {s0 s : State} (ev : Ev Q0 s0 s) (t : Nat × Nat × Nat) : Ev Q0 s0 (State.takeTurn s t) := by
  unfold State.takeTurn
  repeat' first | with_reducible assumption | exact Need.sub hp0 rfl | ((try lift_lets -underBinder); intro x; first | (refine Ev.cut (P := Q0) (s0 := s0) (x := x) ?_ (fun hx => ?_); unfold x) | (refine Ev.cutP (P := Q0) (s0 := s0) (x := x) (by unfold x; exact rfl) ?_ (fun hx => ?_)) | skip) | with_reducible apply State.ev_setHost

theorem State.ev_fetchDesc {Q0 : StatePart → Bool} (hp0 : Need Q0 [.host, .regs, .out]) {s0 s : State} (ev : Ev Q0 s0 s) (n : Nat) (d0 : List Byte) : Ev Q0 s0 (State.fetchDesc s n d0) := by
  unfold State.fetchDesc
  repeat' first | with_reducible assumption | exact Need.sub hp0 rfl | ((try lift_lets -underBinder); intro x; first | (refine Ev.cut (P := Q0) (s0 := s0) (x := x) ?_ (fun hx => ?_); unfold x) | (refine Ev.cutP (P := Q0) (s0 := s0) (x := x) (by unfold x; exact rfl) ?_ (fun hx => ?_)) | skip) | with_reducible apply State.ev_bumpWrap | with_reducible apply State.ev_setCq | with_reducible apply State.ev_setHost | with_reducible apply State.ev_finish | split

theorem State.ev_hostRec {Q0 : StatePart → Bool} (hp0 : Need Q0 [.host, .log, .regs, .out]) {s0 s : State} (ev : Ev Q0 s0 s) (event : Nat) (ring : Nat) (l : Nat) (fid : Nat) : Ev Q0 s0 (State.hostRec s event ring l fid) := by
  unfold State.hostRec
  repeat' first | with_reducible assumption | exact Need.sub hp0 rfl | with_reducible apply State.ev_errRec | split

theorem State.ev_sqTail {Q0 : StatePart → Bool} (hp0 : Need Q0 [.host, .log, .regs, .out]) {s0 s : State} (ev : Ev Q0 s0 s) (n : Nat) (tail : Nat) : Ev Q0 s0 (State.sqTail s n tail) := by
  unfold State.sqTail
  repeat' first | with_reducible assumption | exact Need.sub hp0 rfl | ((try lift_lets -underBinder); intro x; first | (refine Ev.cut (P := Q0) (s0 := s0) (x := x) ?_ (fun hx => ?_); unfold x) | (refine Ev.cutP (P := Q0) (s0 := s0) (x := x) (by unfold x; exact rfl) ?_ (fun hx => ?_)) | skip) | with_reducible apply State.ev_hostRec | with_reducible apply State.ev_setF | with_reducible apply State.ev_setSq | split

theorem State.ev_wantRecord {Q0 : StatePart → Bool} (hp0 : Need Q0 [.host, .out]) {s0 s : State} (ev : Ev Q0 s0 s) (fid : Nat) (n : Nat) : Ev Q0 s0 (State.wantRecord s fid n) := by
  unfold State.wantRecord
  repeat' first | with_reducible assumption | exact Need.sub hp0 rfl | ((try lift_lets -underBinder); intro x; first | (refine Ev.cut (P := Q0) (s0 := s0) (x := x) ?_ (fun hx => ?_); unfold x) | (refine Ev.cutP (P := Q0) (s0 := s0) (x := x) (by unfold x; exact rfl) ?_ (fun hx => ?_)) | skip) | with_reducible apply State.ev_emit | with_reducible apply State.ev_setSq

theorem State.ev_poll {Q0 : StatePart → Bool} (hp0 : Need Q0 [.host, .out]) {s0 s : State} (ev : Ev Q0 s0 s) (fid : Nat) : Ev Q0 s0 (State.poll s fid) := by
  unfold State.poll
  repeat' first | with_reducible assumption | exact Need.sub hp0 rfl | ((try lift_lets -underBinder); intro x; first | (refine Ev.cut (P := Q0) (s0 := s0) (x := x) ?_ (fun hx => ?_); unfold x) | (refine Ev.cutP (P := Q0) (s0 := s0) (x := x) (by unfold x; exact rfl) ?_ (fun hx => ?_)) | skip) | with_reducible apply State.ev_setHost | with_reducible apply State.ev_emit | with_reducible apply State.ev_setSq | with_reducible refine Ev.foldl _ (fun st a hst => ?_) _ _ ?_ | with_reducible refine Ev.foldlP _ (fun st a hst => ?_) _ _ ?_ | split

theorem execDescriptorFetch_ev {Q0 : StatePart → Bool} (hp0 : Need Q0 [.host, .regs, .out]) {s0 s : State} (ev : Ev Q0 s0 s) (sq : RingNo) (desc : Option (List Byte)) : ∃ t, (execDescriptorFetch sq desc s) = .next t ∧ Ev Q0 s0 t := by
  unfold execDescriptorFetch
  refine ⟨_, rfl, ?_⟩
  repeat' first | with_reducible assumption | exact Need.sub hp0 rfl | with_reducible apply State.ev_fetchDesc | with_reducible apply State.ev_emit | with_reducible apply State.ev_takeTurn | split

theorem execSqRecordReadDone_ev {Q0 : StatePart → Bool} (hp0 : Need Q0 [.host, .log, .regs, .out]) {s0 s : State} (ev : Ev Q0 s0 s) (sq : RingNo) (tail : Word) : ∃ t, (execSqRecordReadDone sq tail s) = .next t ∧ Ev Q0 s0 t := by
  unfold execSqRecordReadDone
  refine ⟨_, rfl, ?_⟩
  repeat' first | with_reducible assumption | exact Need.sub hp0 rfl | with_reducible apply State.ev_sqTail | split

theorem execDoorbellPoll_ev {Q0 : StatePart → Bool} (hp0 : Need Q0 [.host, .out]) {s0 s : State} (ev : Ev Q0 s0 s) (fid : Fid) : ∃ t, (execDoorbellPoll fid s) = .next t ∧ Ev Q0 s0 t := by
  unfold execDoorbellPoll
  refine ⟨_, rfl, ?_⟩
  repeat' first | with_reducible assumption | exact Need.sub hp0 rfl | ((try lift_lets -underBinder); intro x; first | (refine Ev.cut (P := Q0) (s0 := s0) (x := x) ?_ (fun hx => ?_); unfold x) | (refine Ev.cutP (P := Q0) (s0 := s0) (x := x) (by unfold x; exact rfl) ?_ (fun hx => ?_)) | skip) | with_reducible apply State.ev_poll | split

theorem execSummarySwapDone_ev {Q0 : StatePart → Bool} (hp0 : Need Q0 [.host, .out]) {s0 s : State} (ev : Ev Q0 s0 s) (fid : Fid) (word : Fin 512) (bits : DWord) : ∃ t, (execSummarySwapDone fid word bits s) = .next t ∧ Ev Q0 s0 t := by
  unfold execSummarySwapDone
  refine ⟨_, rfl, ?_⟩
  repeat' first | with_reducible assumption | exact Need.sub hp0 rfl | ((try lift_lets -underBinder); intro x; first | (refine Ev.cut (P := Q0) (s0 := s0) (x := x) ?_ (fun hx => ?_); unfold x) | (refine Ev.cutP (P := Q0) (s0 := s0) (x := x) (by unfold x; exact rfl) ?_ (fun hx => ?_)) | skip) | with_reducible apply State.ev_emit | with_reducible apply State.ev_wantRecord | with_reducible refine Ev.foldl _ (fun st a hst => ?_) _ _ ?_ | with_reducible refine Ev.foldlP _ (fun st a hst => ?_) _ _ ?_ | split

theorem execBellWrite_ev {Q0 : StatePart → Bool} (hp0 : Need Q0 [.host, .regs, .out]) {s0 s : State} (ev : Ev Q0 s0 s) (fid : Fid) (value : Word) : ∃ t, (execBellWrite fid value s) = .next t ∧ Ev Q0 s0 t := by
  unfold execBellWrite
  refine ⟨_, rfl, ?_⟩
  repeat' first | with_reducible assumption | exact Need.sub hp0 rfl | ((try lift_lets -underBinder); intro x; first | (refine Ev.cut (P := Q0) (s0 := s0) (x := x) ?_ (fun hx => ?_); unfold x) | (refine Ev.cutP (P := Q0) (s0 := s0) (x := x) (by unfold x; exact rfl) ?_ (fun hx => ?_)) | skip) | with_reducible apply State.ev_wantRecord | with_reducible apply State.ev_bumpSat | split

theorem execCqHeadRead_ev {Q0 : StatePart → Bool} (hp0 : Need Q0 [.host, .regs, .out]) {s0 s : State} (ev : Ev Q0 s0 s) (cq : RingNo) (head : Word) : ∃ t, (execCqHeadRead cq head s) = .next t ∧ Ev Q0 s0 t := by
  unfold execCqHeadRead
  refine ⟨_, rfl, ?_⟩
  repeat' first | with_reducible assumption | exact Need.sub hp0 rfl | ((try lift_lets -underBinder); intro x; first | (refine Ev.cut (P := Q0) (s0 := s0) (x := x) ?_ (fun hx => ?_); unfold x) | (refine Ev.cutP (P := Q0) (s0 := s0) (x := x) (by unfold x; exact rfl) ?_ (fun hx => ?_)) | skip) | with_reducible apply State.ev_setCq | with_reducible apply State.ev_emit | with_reducible apply State.ev_drainCq | split

theorem execRecordPost_ev {Q0 : StatePart → Bool} (hp0 : Need Q0 [.host, .regs, .out]) {s0 s : State} (ev : Ev Q0 s0 s) (cq : RingNo) : ∃ t, (execRecordPost cq s) = .next t ∧ Ev Q0 s0 t := by
  unfold execRecordPost
  refine ⟨_, rfl, ?_⟩
  repeat' first | with_reducible assumption | exact Need.sub hp0 rfl | with_reducible apply State.ev_drainCq

theorem execIrqCoalesceTimeout_ev {Q0 : StatePart → Bool} (hp0 : Need Q0 [.host, .out]) {s0 s : State} (ev : Ev Q0 s0 s) (cq : RingNo) : ∃ t, (execIrqCoalesceTimeout cq s) = .next t ∧ Ev Q0 s0 t := by
  unfold execIrqCoalesceTimeout
  refine ⟨_, rfl, ?_⟩
  repeat' first | with_reducible assumption | exact Need.sub hp0 rfl | with_reducible apply State.ev_irqCheck | split

theorem execMsixUnmask_ev {Q0 : StatePart → Bool} (hp0 : Need Q0 [.host, .out]) {s0 s : State} (ev : Ev Q0 s0 s) (fid : Fid) (vec : Fin 2048) : ∃ t, (execMsixUnmask fid vec s) = .next t ∧ Ev Q0 s0 t := by
  unfold execMsixUnmask
  refine ⟨_, rfl, ?_⟩
  repeat' first | with_reducible assumption | exact Need.sub hp0 rfl | ((try lift_lets -underBinder); intro x; first | (refine Ev.cut (P := Q0) (s0 := s0) (x := x) ?_ (fun hx => ?_); unfold x) | (refine Ev.cutP (P := Q0) (s0 := s0) (x := x) (by unfold x; exact rfl) ?_ (fun hx => ?_)) | skip) | with_reducible apply State.ev_setFn | with_reducible apply State.ev_emit | split

theorem execNop_ev {Q0 : StatePart → Bool} (hp0 : Need Q0 [.host, .regs, .out]) {s0 s : State} (ev : Ev Q0 s0 s) (sq : RingNo) : ∃ t, (execNop sq s) = .next t ∧ Ev Q0 s0 t := by
  unfold execNop
  refine ⟨_, rfl, ?_⟩
  repeat' first | with_reducible assumption | exact Need.sub hp0 rfl | ((try lift_lets -underBinder); intro x; (try dsimp -zeta -proj only); first | (refine Ev.cut (P := Q0) (s0 := s0) (x := x) ?_ (fun hx => ?_); unfold x) | (refine Ev.cutP (P := Q0) (s0 := s0) (x := x) (by unfold x; exact rfl) ?_ (fun hx => ?_)) | skip) | with_reducible apply State.ev_ringCmd | with_reducible apply State.ev_finish

end Sys2Proof.Machine
end

