-- ==== Sys2Proof/Laws/EvHostRings.lean ====
section
/-! SUPPORT. The operations of HostRings.lean keep the relation Ev. -/

namespace Sys2Proof.Machine

open Sys2Proof

set_option linter.unusedVariables false

theorem State.ev_makeSq {Q0 : StatePart → Bool} (hp0 : Need Q0 [.host, .regs]) {s0 s : State} (ev : Ev Q0 s0 s) (n : Nat) (cq : Nat) (log2 : Nat) (fid : Nat) (stby : Nat) (base : Nat) (prio : Nat) : Ev Q0 s0 (State.makeSq s n cq log2 fid stby base prio) := by
  unfold State.makeSq
  repeat' first | with_reducible assumption | exact Need.sub hp0 rfl | ((try lift_lets -underBinder); intro x; first | (refine Ev.cut (P := Q0) (s0 := s0) (x := x) ?_ (fun hx => ?_); unfold x) | (refine Ev.cutP (P := Q0) (s0 := s0) (x := x) (by unfold x; exact rfl) ?_ (fun hx => ?_)) | skip) | with_reducible apply State.ev_setSq | with_reducible apply State.ev_setReg | with_reducible apply State.ev_setF

theorem State.ev_makeCq {Q0 : StatePart → Bool} (hp0 : Need Q0 [.host, .regs]) {s0 s : State} (ev : Ev Q0 s0 s) (n : Nat) (log2 : Nat) (entry64 : Nat) (fid : Nat) (stby : Nat) (base : Nat) (c : Cq) : Ev Q0 s0 (State.makeCq s n log2 entry64 fid stby base c) := by
  unfold State.makeCq
  repeat' first | with_reducible assumption | exact Need.sub hp0 rfl | ((try lift_lets -underBinder); intro x; first | (refine Ev.cut (P := Q0) (s0 := s0) (x := x) ?_ (fun hx => ?_); unfold x) | (refine Ev.cutP (P := Q0) (s0 := s0) (x := x) (by unfold x; exact rfl) ?_ (fun hx => ?_)) | skip) | with_reducible apply State.ev_setCq | with_reducible apply State.ev_setReg | with_reducible apply State.ev_setF

theorem State.ev_ringCreate {Q0 : StatePart → Bool} (hp0 : Need Q0 [.host, .regs, .out]) {s0 s : State} (ev : Ev Q0 s0 s) (f : InFlight) : Ev Q0 s0 (State.ringCreate s f) := by
  unfold State.ringCreate
  repeat' first | with_reducible assumption | exact Need.sub hp0 rfl | ((try lift_lets -underBinder); intro x; first | (refine Ev.cut (P := Q0) (s0 := s0) (x := x) ?_ (fun hx => ?_); unfold x) | (refine Ev.cutP (P := Q0) (s0 := s0) (x := x) (by unfold x; exact rfl) ?_ (fun hx => ?_)) | skip) | with_reducible apply State.ev_finish | with_reducible apply State.ev_makeCq | with_reducible apply State.ev_makeSq | split

theorem State.ev_dropSq {Q0 : StatePart → Bool} (hp0 : Need Q0 [.host, .regs]) {s0 s : State} (ev : Ev Q0 s0 s) (n : Nat) : Ev Q0 s0 (State.dropSq s n) := by
  unfold State.dropSq
  repeat' first | with_reducible assumption | exact Need.sub hp0 rfl | ((try lift_lets -underBinder); intro x; first | (refine Ev.cut (P := Q0) (s0 := s0) (x := x) ?_ (fun hx => ?_); unfold x) | (refine Ev.cutP (P := Q0) (s0 := s0) (x := x) (by unfold x; exact rfl) ?_ (fun hx => ?_)) | skip) | with_reducible apply State.ev_setHost | with_reducible apply State.ev_setReg

theorem State.ev_dropCq {Q0 : StatePart → Bool} (hp0 : Need Q0 [.host, .regs]) {s0 s : State} (ev : Ev Q0 s0 s) (n : Nat) : Ev Q0 s0 (State.dropCq s n) := by
  unfold State.dropCq
  repeat' first | with_reducible assumption | exact Need.sub hp0 rfl | ((try lift_lets -underBinder); intro x; first | (refine Ev.cut (P := Q0) (s0 := s0) (x := x) ?_ (fun hx => ?_); unfold x) | (refine Ev.cutP (P := Q0) (s0 := s0) (x := x) (by unfold x; exact rfl) ?_ (fun hx => ?_)) | skip) | with_reducible apply State.ev_setHost | with_reducible apply State.ev_setReg

theorem State.ev_ringDestroy {Q0 : StatePart → Bool} (hp0 : Need Q0 [.host, .regs, .out]) {s0 s : State} (ev : Ev Q0 s0 s) (f : InFlight) : Ev Q0 s0 (State.ringDestroy s f) := by
  unfold State.ringDestroy
  repeat' first | with_reducible assumption | exact Need.sub hp0 rfl | ((try lift_lets -underBinder); intro x; first | (refine Ev.cut (P := Q0) (s0 := s0) (x := x) ?_ (fun hx => ?_); unfold x) | (refine Ev.cutP (P := Q0) (s0 := s0) (x := x) (by unfold x; exact rfl) ?_ (fun hx => ?_)) | skip) | with_reducible apply State.ev_finish | with_reducible apply State.ev_dropCq | with_reducible apply State.ev_setSq | with_reducible apply State.ev_startFlight | with_reducible apply State.ev_dropSq | split

theorem State.ev_moveCq {Q0 : StatePart → Bool} (hp0 : Need Q0 [.host, .log, .regs, .out]) {s0 s : State} (ev : Ev Q0 s0 s) (n : Nat) (toStby : Bool) (head : Option Nat) : Ev Q0 s0 (State.moveCq s n toStby head) := by
  unfold State.moveCq
  repeat' first | with_reducible assumption | exact Need.sub hp0 rfl | ((try lift_lets -underBinder); intro x; first | (refine Ev.cut (P := Q0) (s0 := s0) (x := x) ?_ (fun hx => ?_); unfold x) | (refine Ev.cutP (P := Q0) (s0 := s0) (x := x) (by unfold x; exact rfl) ?_ (fun hx => ?_)) | skip) | with_reducible apply State.ev_setF | with_reducible apply State.ev_setCq | with_reducible apply State.ev_emit | with_reducible apply State.ev_drainCq | with_reducible apply State.ev_sendVector | with_reducible apply State.ev_hostRec | with_reducible apply State.ev_bumpSat | with_reducible refine Ev.foldl _ (fun st a hst => ?_) _ _ ?_ | with_reducible refine Ev.foldlP _ (fun st a hst => ?_) _ _ ?_ | split

theorem State.ev_moveSq {Q0 : StatePart → Bool} (hp0 : Need Q0 [.host, .log, .regs, .out]) {s0 s : State} (ev : Ev Q0 s0 s) (n : Nat) (toStby : Bool) (tail : Option Nat) : Ev Q0 s0 (State.moveSq s n toStby tail) := by
  unfold State.moveSq
  repeat' first | with_reducible assumption | exact Need.sub hp0 rfl | ((try lift_lets -underBinder); intro x; first | (refine Ev.cut (P := Q0) (s0 := s0) (x := x) ?_ (fun hx => ?_); unfold x) | (refine Ev.cutP (P := Q0) (s0 := s0) (x := x) (by unfold x; exact rfl) ?_ (fun hx => ?_)) | skip) | with_reducible apply State.ev_setF | with_reducible apply State.ev_hostRec | with_reducible apply State.ev_bumpSat | with_reducible apply State.ev_sqTail | with_reducible apply State.ev_setSq | split

theorem State.ev_ringMove {Q0 : StatePart → Bool} (hp0 : Need Q0 [.host, .log, .regs, .out]) {s0 s : State} (ev : Ev Q0 s0 s) (ptr : Word) (f : InFlight) : Ev Q0 s0 (State.ringMove s ptr f) := by
  unfold State.ringMove
  repeat' first | with_reducible assumption | exact Need.sub hp0 rfl | ((try lift_lets -underBinder); intro x; first | (refine Ev.cut (P := Q0) (s0 := s0) (x := x) ?_ (fun hx => ?_); unfold x) | (refine Ev.cutP (P := Q0) (s0 := s0) (x := x) (by unfold x; exact rfl) ?_ (fun hx => ?_)) | skip) | with_reducible apply State.ev_finish | with_reducible apply State.ev_moveCq | with_reducible apply State.ev_moveSq | split

theorem State.ev_disableSq {Q0 : StatePart → Bool} (hp0 : Need Q0 [.regs]) {s0 s : State} (ev : Ev Q0 s0 s) (n : Nat) : Ev Q0 s0 (State.disableSq s n) := by
  unfold State.disableSq
  repeat' first | with_reducible assumption | exact Need.sub hp0 rfl | with_reducible apply State.ev_setF

theorem State.ev_disableCq {Q0 : StatePart → Bool} (hp0 : Need Q0 [.regs]) {s0 s : State} (ev : Ev Q0 s0 s) (n : Nat) : Ev Q0 s0 (State.disableCq s n) := by
  unfold State.disableCq
  repeat' first | with_reducible assumption | exact Need.sub hp0 rfl | with_reducible apply State.ev_setF

theorem State.ev_failRing {Q0 : StatePart → Bool} (hp0 : Need Q0 [.host, .log, .regs, .out]) {s0 s : State} (ev : Ev Q0 s0 s) (l : Nat) (off : Bool) (ps : RingPtrs) (n : Nat) : Ev Q0 s0 (State.failRing s l off ps n) := by
  unfold State.failRing
  repeat' first | with_reducible assumption | exact Need.sub hp0 rfl | ((try lift_lets -underBinder); intro x; first | (refine Ev.cut (P := Q0) (s0 := s0) (x := x) ?_ (fun hx => ?_); unfold x) | (refine Ev.cutP (P := Q0) (s0 := s0) (x := x) (by unfold x; exact rfl) ?_ (fun hx => ?_)) | skip) | with_reducible apply State.ev_moveCq | with_reducible apply State.ev_disableCq | with_reducible apply State.ev_moveSq | with_reducible apply State.ev_disableSq | split

theorem State.ev_linkFail {Q0 : StatePart → Bool} (hp0 : Need Q0 [.host, .log, .regs, .out]) {s0 s : State} (ev : Ev Q0 s0 s) (l : Nat) (off : Bool) (ps : RingPtrs) : Ev Q0 s0 (State.linkFail s l off ps) := by
  unfold State.linkFail
  repeat' first | with_reducible assumption | exact Need.sub hp0 rfl | ((try lift_lets -underBinder); intro x; first | (refine Ev.cut (P := Q0) (s0 := s0) (x := x) ?_ (fun hx => ?_); unfold x) | (refine Ev.cutP (P := Q0) (s0 := s0) (x := x) (by unfold x; exact rfl) ?_ (fun hx => ?_)) | skip) | with_reducible apply State.ev_setLink | with_reducible apply State.ev_bumpSat | with_reducible apply State.ev_failRing | with_reducible refine Ev.foldl _ (fun st a hst => ?_) _ _ ?_ | with_reducible refine Ev.foldlP _ (fun st a hst => ?_) _ _ ?_ | split

theorem State.ev_showHostReady {Q0 : StatePart → Bool} (hp0 : Need Q0 [.regs]) {s0 s : State} (ev : Ev Q0 s0 s)  : Ev Q0 s0 (State.showHostReady s) := by
  unfold State.showHostReady
  repeat' first | with_reducible assumption | exact Need.sub hp0 rfl | with_reducible apply State.ev_setF | split

theorem State.ev_linkDown {Q0 : StatePart → Bool} (hp0 : Need Q0 [.host, .regs]) {s0 s : State} (ev : Ev Q0 s0 s) (l : Nat) : Ev Q0 s0 (State.linkDown s l) := by
  unfold State.linkDown
  repeat' first | with_reducible assumption | exact Need.sub hp0 rfl | ((try lift_lets -underBinder); intro x; first | (refine Ev.cut (P := Q0) (s0 := s0) (x := x) ?_ (fun hx => ?_); unfold x) | (refine Ev.cutP (P := Q0) (s0 := s0) (x := x) (by unfold x; exact rfl) ?_ (fun hx => ?_)) | skip) | with_reducible apply State.ev_setF | with_reducible apply State.ev_showHostReady | with_reducible apply State.ev_setLink

theorem State.ev_resetFn {Q0 : StatePart → Bool} (hp0 : Need Q0 [.host]) {s0 s : State} (ev : Ev Q0 s0 s) (fid : Nat) : Ev Q0 s0 (State.resetFn s fid) := by
  unfold State.resetFn
  repeat' first | with_reducible assumption | exact Need.sub hp0 rfl | ((try lift_lets -underBinder); intro x; first | (refine Ev.cut (P := Q0) (s0 := s0) (x := x) ?_ (fun hx => ?_); unfold x) | (refine Ev.cutP (P := Q0) (s0 := s0) (x := x) (by unfold x; exact rfl) ?_ (fun hx => ?_)) | skip) | with_reducible apply State.ev_setFn

theorem State.ev_disableRings {Q0 : StatePart → Bool} (hp0 : Need Q0 [.regs]) {s0 s : State} (ev : Ev Q0 s0 s) (p : Nat → Bool) : Ev Q0 s0 (State.disableRings s p) := by
  unfold State.disableRings
  repeat' first | with_reducible assumption | exact Need.sub hp0 rfl | ((try lift_lets -underBinder); intro x; first | (refine Ev.cut (P := Q0) (s0 := s0) (x := x) ?_ (fun hx => ?_); unfold x) | (refine Ev.cutP (P := Q0) (s0 := s0) (x := x) (by unfold x; exact rfl) ?_ (fun hx => ?_)) | skip) | with_reducible apply State.ev_disableCq | with_reducible apply State.ev_disableSq | with_reducible refine Ev.foldl _ (fun st a hst => ?_) _ _ ?_ | with_reducible refine Ev.foldlP _ (fun st a hst => ?_) _ _ ?_ | split

theorem State.ev_dropVfs {Q0 : StatePart → Bool} (hp0 : Need Q0 [.host, .regs]) {s0 s : State} (ev : Ev Q0 s0 s) (pf : Nat) : Ev Q0 s0 (State.dropVfs s pf) := by
  unfold State.dropVfs
  repeat' first | with_reducible assumption | exact Need.sub hp0 rfl | ((try lift_lets -underBinder); intro x; first | (refine Ev.cut (P := Q0) (s0 := s0) (x := x) ?_ (fun hx => ?_); unfold x) | (refine Ev.cutP (P := Q0) (s0 := s0) (x := x) (by unfold x; exact rfl) ?_ (fun hx => ?_)) | skip) | with_reducible apply State.ev_disableRings | with_reducible apply State.ev_resetFn | with_reducible refine Ev.foldl _ (fun st a hst => ?_) _ _ ?_ | with_reducible refine Ev.foldlP _ (fun st a hst => ?_) _ _ ?_ | split

theorem State.ev_funcConfig {Q0 : StatePart → Bool} (hp0 : Need Q0 [.host, .regs, .out]) {s0 s : State} (ev : Ev Q0 s0 s) (f : InFlight) : Ev Q0 s0 (State.funcConfig s f) := by
  unfold State.funcConfig
  repeat' first | with_reducible assumption | exact Need.sub hp0 rfl | ((try lift_lets -underBinder); intro x; first | (refine Ev.cut (P := Q0) (s0 := s0) (x := x) ?_ (fun hx => ?_); unfold x) | (refine Ev.cutP (P := Q0) (s0 := s0) (x := x) (by unfold x; exact rfl) ?_ (fun hx => ?_)) | skip) | with_reducible apply State.ev_finish | with_reducible apply State.ev_setF | with_reducible apply State.ev_setFn | split

theorem State.ev_ctlStart {Q0 : StatePart → Bool} (hp0 : Need Q0 [.host, .regs, .out]) {s0 s : State} (ev : Ev Q0 s0 s) (k : Nat) : Ev Q0 s0 (State.ctlStart s k) := by
  unfold State.ctlStart
  repeat' first | with_reducible assumption | exact Need.sub hp0 rfl | ((try lift_lets -underBinder); intro x; first | (refine Ev.cut (P := Q0) (s0 := s0) (x := x) ?_ (fun hx => ?_); unfold x) | (refine Ev.cutP (P := Q0) (s0 := s0) (x := x) (by unfold x; exact rfl) ?_ (fun hx => ?_)) | skip) | with_reducible apply State.ev_makeCq | with_reducible apply State.ev_makeSq | with_reducible apply State.ev_drainCq

theorem State.ev_ctlStop {Q0 : StatePart → Bool} (hp0 : Need Q0 [.regs]) {s0 s : State} (ev : Ev Q0 s0 s) (k : Nat) : Ev Q0 s0 (State.ctlStop s k) := by
  unfold State.ctlStop
  repeat' first | with_reducible assumption | exact Need.sub hp0 rfl | with_reducible apply State.ev_setF

theorem execRingCreate_ev {Q0 : StatePart → Bool} (hp0 : Need Q0 [.host, .regs, .out]) {s0 s : State} (ev : Ev Q0 s0 s) (sq : RingNo) : ∃ t, (execRingCreate sq s) = .next t ∧ Ev Q0 s0 t := by
  unfold execRingCreate
  refine ⟨_, rfl, ?_⟩
  repeat' first | with_reducible assumption | exact Need.sub hp0 rfl | ((try lift_lets -underBinder); intro x; (try dsimp -zeta -proj only); first | (refine Ev.cut (P := Q0) (s0 := s0) (x := x) ?_ (fun hx => ?_); unfold x) | (refine Ev.cutP (P := Q0) (s0 := s0) (x := x) (by unfold x; exact rfl) ?_ (fun hx => ?_)) | skip) | with_reducible apply State.ev_ringCmd | with_reducible apply State.ev_ringCreate

theorem execRingDestroy_ev {Q0 : StatePart → Bool} (hp0 : Need Q0 [.host, .regs, .out]) {s0 s : State} (ev : Ev Q0 s0 s) (sq : RingNo) : ∃ t, (execRingDestroy sq s) = .next t ∧ Ev Q0 s0 t := by
  unfold execRingDestroy
  refine ⟨_, rfl, ?_⟩
  repeat' first | with_reducible assumption | exact Need.sub hp0 rfl | ((try lift_lets -underBinder); intro x; (try dsimp -zeta -proj only); first | (refine Ev.cut (P := Q0) (s0 := s0) (x := x) ?_ (fun hx => ?_); unfold x) | (refine Ev.cutP (P := Q0) (s0 := s0) (x := x) (by unfold x; exact rfl) ?_ (fun hx => ?_)) | skip) | with_reducible apply State.ev_ringCmd | with_reducible apply State.ev_ringDestroy

theorem execRingDestroyDone_ev {Q0 : StatePart → Bool} (hp0 : Need Q0 [.host, .regs, .out]) {s0 s : State} (ev : Ev Q0 s0 s) (ring : RingNo) : ∃ t, (execRingDestroyDone ring s) = .next t ∧ Ev Q0 s0 t := by
  unfold execRingDestroyDone
  refine ⟨_, rfl, ?_⟩
  repeat' first | with_reducible assumption | exact Need.sub hp0 rfl | with_reducible apply State.ev_finish | with_reducible apply State.ev_dropSq | split

theorem execRingMove_ev {Q0 : StatePart → Bool} (hp0 : Need Q0 [.host, .log, .regs, .out]) {s0 s : State} (ev : Ev Q0 s0 s) (sq : RingNo) (ptr : Word) : ∃ t, (execRingMove sq ptr s) = .next t ∧ Ev Q0 s0 t := by
  unfold execRingMove
  refine ⟨_, rfl, ?_⟩
  repeat' first | with_reducible assumption | exact Need.sub hp0 rfl | ((try lift_lets -underBinder); intro x; (try dsimp -zeta -proj only); first | (refine Ev.cut (P := Q0) (s0 := s0) (x := x) ?_ (fun hx => ?_); unfold x) | (refine Ev.cutP (P := Q0) (s0 := s0) (x := x) (by unfold x; exact rfl) ?_ (fun hx => ?_)) | skip) | with_reducible apply State.ev_ringCmd | with_reducible apply State.ev_ringMove

theorem execHostLinkFail_ev {Q0 : StatePart → Bool} (hp0 : Need Q0 [.host, .log, .regs, .out]) {s0 s : State} (ev : Ev Q0 s0 s) (link : LinkIx) (readFailed : Bool) (ptrs : List (RingNo × Bool × Word)) : ∃ t, (execHostLinkFail link readFailed ptrs s) = .next t ∧ Ev Q0 s0 t := by
  unfold execHostLinkFail
  refine ⟨_, rfl, ?_⟩
  repeat' first | with_reducible assumption | exact Need.sub hp0 rfl | ((try lift_lets -underBinder); intro x; first | (refine Ev.cut (P := Q0) (s0 := s0) (x := x) ?_ (fun hx => ?_); unfold x) | (refine Ev.cutP (P := Q0) (s0 := s0) (x := x) (by unfold x; exact rfl) ?_ (fun hx => ?_)) | skip) | with_reducible apply State.ev_linkFail | split

theorem execHostLinkUp_ev {Q0 : StatePart → Bool} (hp0 : Need Q0 [.host, .regs]) {s0 s : State} (ev : Ev Q0 s0 s) (link : LinkIx) (speed : Fin 7) (width : Fin 17) (atomics : Bool) : ∃ t, (execHostLinkUp link speed width atomics s) = .next t ∧ Ev Q0 s0 t := by
  unfold execHostLinkUp
  refine ⟨_, rfl, ?_⟩
  repeat' first | with_reducible assumption | exact Need.sub hp0 rfl | ((try lift_lets -underBinder); intro x; first | (refine Ev.cut (P := Q0) (s0 := s0) (x := x) ?_ (fun hx => ?_); unfold x) | (refine Ev.cutP (P := Q0) (s0 := s0) (x := x) (by unfold x; exact rfl) ?_ (fun hx => ?_)) | skip) | with_reducible apply State.ev_setF | with_reducible apply State.ev_setFn | with_reducible apply State.ev_showHostReady | with_reducible apply State.ev_setLink | split

theorem execHostLinkDown_ev {Q0 : StatePart → Bool} (hp0 : Need Q0 [.host, .regs]) {s0 s : State} (ev : Ev Q0 s0 s) (link : LinkIx) : ∃ t, (execHostLinkDown link s) = .next t ∧ Ev Q0 s0 t := by
  unfold execHostLinkDown
  refine ⟨_, rfl, ?_⟩
  repeat' first | with_reducible assumption | exact Need.sub hp0 rfl | with_reducible apply State.ev_linkDown | split

theorem execPerstAssert_ev {Q0 : StatePart → Bool} (hp0 : Need Q0 [.host, .log, .regs, .out]) {s0 s : State} (ev : Ev Q0 s0 s) (port : Fin 2) (ptrs : List (RingNo × Bool × Word)) : ∃ t, (execPerstAssert port ptrs s) = .next t ∧ Ev Q0 s0 t := by
  unfold execPerstAssert
  refine ⟨_, rfl, ?_⟩
  repeat' first | with_reducible assumption | exact Need.sub hp0 rfl | ((try lift_lets -underBinder); intro x; first | (refine Ev.cut (P := Q0) (s0 := s0) (x := x) ?_ (fun hx => ?_); unfold x) | (refine Ev.cutP (P := Q0) (s0 := s0) (x := x) (by unfold x; exact rfl) ?_ (fun hx => ?_)) | skip) | with_reducible apply State.ev_setHost | with_reducible apply State.ev_setLink | with_reducible apply State.ev_setF | with_reducible apply State.ev_linkDown | with_reducible apply State.ev_bumpSat | with_reducible apply State.ev_resetFn | with_reducible apply State.ev_failRing | with_reducible apply State.ev_linkFail | with_reducible refine Ev.foldl _ (fun st a hst => ?_) _ _ ?_ | with_reducible refine Ev.foldlP _ (fun st a hst => ?_) _ _ ?_ | split

theorem execPerstRelease_ev {Q0 : StatePart → Bool} (hp0 : Need Q0 [.host, .regs]) {s0 s : State} (ev : Ev Q0 s0 s) (port : Fin 2) (strapBif : Bool) : ∃ t, (execPerstRelease port strapBif s) = .next t ∧ Ev Q0 s0 t := by
  unfold execPerstRelease
  refine ⟨_, rfl, ?_⟩
  repeat' first | with_reducible assumption | exact Need.sub hp0 rfl | ((try lift_lets -underBinder); intro x; first | (refine Ev.cut (P := Q0) (s0 := s0) (x := x) ?_ (fun hx => ?_); unfold x) | (refine Ev.cutP (P := Q0) (s0 := s0) (x := x) (by unfold x; exact rfl) ?_ (fun hx => ?_)) | skip) | with_reducible apply State.ev_setHost | with_reducible apply State.ev_setF | split

theorem execFunctionLevelReset_ev {Q0 : StatePart → Bool} (hp0 : Need Q0 [.host, .regs]) {s0 s : State} (ev : Ev Q0 s0 s) (fid : Fid) : ∃ t, (execFunctionLevelReset fid s) = .next t ∧ Ev Q0 s0 t := by
  unfold execFunctionLevelReset
  refine ⟨_, rfl, ?_⟩
  repeat' first | with_reducible assumption | exact Need.sub hp0 rfl | ((try lift_lets -underBinder); intro x; first | (refine Ev.cut (P := Q0) (s0 := s0) (x := x) ?_ (fun hx => ?_); unfold x) | (refine Ev.cutP (P := Q0) (s0 := s0) (x := x) (by unfold x; exact rfl) ?_ (fun hx => ?_)) | skip) | with_reducible apply State.ev_resetFn | with_reducible apply State.ev_disableRings | with_reducible apply State.ev_dropVfs | split

theorem execVfEnableWrite_ev {Q0 : StatePart → Bool} (hp0 : Need Q0 [.host, .regs]) {s0 s : State} (ev : Ev Q0 s0 s) (fid : Fid) (enable : Bool) : ∃ t, (execVfEnableWrite fid enable s) = .next t ∧ Ev Q0 s0 t := by
  unfold execVfEnableWrite
  refine ⟨_, rfl, ?_⟩
  repeat' first | with_reducible assumption | exact Need.sub hp0 rfl | ((try lift_lets -underBinder); intro x; first | (refine Ev.cut (P := Q0) (s0 := s0) (x := x) ?_ (fun hx => ?_); unfold x) | (refine Ev.cutP (P := Q0) (s0 := s0) (x := x) (by unfold x; exact rfl) ?_ (fun hx => ?_)) | skip) | with_reducible apply State.ev_setFn | with_reducible apply State.ev_dropVfs | split

theorem execD3hot_ev {Q0 : StatePart → Bool} (hp0 : Need Q0 [.host]) {s0 s : State} (ev : Ev Q0 s0 s) (fid : Fid) (enter : Bool) : ∃ t, (execD3hot fid enter s) = .next t ∧ Ev Q0 s0 t := by
  unfold execD3hot
  refine ⟨_, rfl, ?_⟩
  repeat' first | with_reducible assumption | exact Need.sub hp0 rfl | ((try lift_lets -underBinder); intro x; first | (refine Ev.cut (P := Q0) (s0 := s0) (x := x) ?_ (fun hx => ?_); unfold x) | (refine Ev.cutP (P := Q0) (s0 := s0) (x := x) (by unfold x; exact rfl) ?_ (fun hx => ?_)) | skip) | with_reducible apply State.ev_setFn | split

theorem execIdeSecureLoss_ev {Q0 : StatePart → Bool} (hp0 : Need Q0 [.host, .log, .regs, .out]) {s0 s : State} (ev : Ev Q0 s0 s) (link : LinkIx) (stream : Fin 5) (ptrs : List (RingNo × Bool × Word)) : ∃ t, (execIdeSecureLoss link stream ptrs s) = .next t ∧ Ev Q0 s0 t := by
  unfold execIdeSecureLoss
  refine ⟨_, rfl, ?_⟩
  repeat' first | with_reducible assumption | exact Need.sub hp0 rfl | ((try lift_lets -underBinder); intro x; first | (refine Ev.cut (P := Q0) (s0 := s0) (x := x) ?_ (fun hx => ?_); unfold x) | (refine Ev.cutP (P := Q0) (s0 := s0) (x := x) (by unfold x; exact rfl) ?_ (fun hx => ?_)) | skip) | with_reducible apply State.ev_setF | with_reducible apply State.ev_setLink | with_reducible apply State.ev_linkFail | split

theorem execFuncConfig_ev {Q0 : StatePart → Bool} (hp0 : Need Q0 [.host, .regs, .out]) {s0 s : State} (ev : Ev Q0 s0 s) (sq : RingNo) : ∃ t, (execFuncConfig sq s) = .next t ∧ Ev Q0 s0 t := by
  unfold execFuncConfig
  refine ⟨_, rfl, ?_⟩
  repeat' first | with_reducible assumption | exact Need.sub hp0 rfl | ((try lift_lets -underBinder); intro x; (try dsimp -zeta -proj only); first | (refine Ev.cut (P := Q0) (s0 := s0) (x := x) ?_ (fun hx => ?_); unfold x) | (refine Ev.cutP (P := Q0) (s0 := s0) (x := x) (by unfold x; exact rfl) ?_ (fun hx => ?_)) | skip) | with_reducible apply State.ev_ringCmd | with_reducible apply State.ev_funcConfig

end Sys2Proof.Machine
end

