-- ==== Sys2Proof/Laws/EvHostCmds.lean ====
section
/-! SUPPORT. The operations of HostCmds.lean keep the relation Ev. -/

namespace Sys2Proof.Machine

open Sys2Proof

set_option linter.unusedVariables false

theorem State.ev_copyStart {Q0 : StatePart → Bool} (hp0 : Need Q0 [.host, .regs, .out]) {s0 s : State} (ev : Ev Q0 s0 s) (f : InFlight) : Ev Q0 s0 (State.copyStart s f) := by
  unfold State.copyStart
  repeat' first | with_reducible assumption | exact Need.sub hp0 rfl | with_reducible apply State.ev_finish | with_reducible apply State.ev_startFlight | split

theorem State.ev_copyMove {Q0 : StatePart → Bool} (hp0 : Need Q0 [.host, .steps, .mm, .faults, .log, .streams, .router, .rmt, .col, .cores, .ports, .sec, .regs, .out, .freeCtr, .mem]) {s0 s : State} (ev : Ev Q0 s0 s) (f : InFlight) (n : Nat) (data : List Byte) (hits : List EccHit) : Ev Q0 s0 (State.copyMove s f n data hits) := by
  unfold State.copyMove
  repeat' first | with_reducible assumption | exact Need.sub hp0 rfl | ((try lift_lets -underBinder); intro x; first | (refine Ev.cut (P := Q0) (s0 := s0) (x := x) ?_ (fun hx => ?_); unfold x) | (refine Ev.cutP (P := Q0) (s0 := s0) (x := x) (by unfold x; exact rfl) ?_ (fun hx => ?_)) | skip) | with_reducible apply State.ev_ecc | with_reducible apply State.ev_access | with_reducible apply State.ev_emit | with_reducible apply State.ev_drew | with_reducible apply State.ev_st | split

theorem State.ev_copyEnd {Q0 : StatePart → Bool} (hp0 : Need Q0 [.host, .steps, .mm, .faults, .log, .streams, .router, .rmt, .col, .cores, .ports, .sec, .regs, .out, .freeCtr, .mem]) {s0 s : State} (ev : Ev Q0 s0 s) (f : InFlight) (data : List Byte) (fail : Option Nat) (hits : List EccHit) : Ev Q0 s0 (State.copyEnd s f data fail hits) := by
  unfold State.copyEnd
  repeat' first | with_reducible assumption | exact Need.sub hp0 rfl | ((try lift_lets -underBinder); intro x; first | (refine Ev.cut (P := Q0) (s0 := s0) (x := x) ?_ (fun hx => ?_); unfold x) | (refine Ev.cutP (P := Q0) (s0 := s0) (x := x) (by unfold x; exact rfl) ?_ (fun hx => ?_)) | skip) | with_reducible apply State.ev_copyMove | with_reducible apply State.ev_finish | split

theorem State.ev_hbmRetire {Q0 : StatePart → Bool} (hp0 : Need Q0 [.host, .mm, .log, .regs, .out]) {s0 s : State} (ev : Ev Q0 s0 s) (f : InFlight) : Ev Q0 s0 (State.hbmRetire s f) := by
  unfold State.hbmRetire
  repeat' first | with_reducible assumption | exact Need.sub hp0 rfl | ((try lift_lets -underBinder); intro x; first | (refine Ev.cut (P := Q0) (s0 := s0) (x := x) ?_ (fun hx => ?_); unfold x) | (refine Ev.cutP (P := Q0) (s0 := s0) (x := x) (by unfold x; exact rfl) ?_ (fun hx => ?_)) | skip) | with_reducible apply State.ev_finish | with_reducible apply State.ev_raiseRetire | split

theorem State.ev_hbmRekey {Q0 : StatePart → Bool} (hp0 : Need Q0 [.host, .mm, .regs, .out, .freeCtr, .mem]) {s0 s : State} (ev : Ev Q0 s0 s) (f : InFlight) : Ev Q0 s0 (State.hbmRekey s f) := by
  unfold State.hbmRekey
  repeat' first | with_reducible assumption | exact Need.sub hp0 rfl | ((try lift_lets -underBinder); intro x; first | (refine Ev.cut (P := Q0) (s0 := s0) (x := x) ?_ (fun hx => ?_); unfold x) | (refine Ev.cutP (P := Q0) (s0 := s0) (x := x) (by unfold x; exact rfl) ?_ (fun hx => ?_)) | skip) | with_reducible apply State.ev_finish | with_reducible apply State.ev_setF | with_reducible apply State.ev_forgetStack | with_reducible refine Ev.foldl _ (fun st a hst => ?_) _ _ ?_ | with_reducible refine Ev.foldlP _ (fun st a hst => ?_) _ _ ?_ | split

theorem State.ev_hbmTest {Q0 : StatePart → Bool} (hp0 : Need Q0 [.host, .mm, .regs, .out, .freeCtr, .mem]) {s0 s : State} (ev : Ev Q0 s0 s) (f : InFlight) : Ev Q0 s0 (State.hbmTest s f) := by
  unfold State.hbmTest
  repeat' first | with_reducible assumption | exact Need.sub hp0 rfl | ((try lift_lets -underBinder); intro x; first | (refine Ev.cut (P := Q0) (s0 := s0) (x := x) ?_ (fun hx => ?_); unfold x) | (refine Ev.cutP (P := Q0) (s0 := s0) (x := x) (by unfold x; exact rfl) ?_ (fun hx => ?_)) | skip) | with_reducible apply State.ev_finish | with_reducible apply State.ev_startFlight | with_reducible apply State.ev_forgetStack | with_reducible apply State.ev_setStack | split

theorem State.ev_powerCap {Q0 : StatePart → Bool} (hp0 : Need Q0 [.host, .regs, .out]) {s0 s : State} (ev : Ev Q0 s0 s) (f : InFlight) : Ev Q0 s0 (State.powerCap s f) := by
  unfold State.powerCap
  repeat' first | with_reducible assumption | exact Need.sub hp0 rfl | ((try lift_lets -underBinder); intro x; first | (refine Ev.cut (P := Q0) (s0 := s0) (x := x) ?_ (fun hx => ?_); unfold x) | (refine Ev.cutP (P := Q0) (s0 := s0) (x := x) (by unfold x; exact rfl) ?_ (fun hx => ?_)) | skip) | with_reducible apply State.ev_finish | with_reducible apply State.ev_setF

theorem execHostCopy_ev {Q0 : StatePart → Bool} (hp0 : Need Q0 [.host, .regs, .out]) {s0 s : State} (ev : Ev Q0 s0 s) (sq : RingNo) : ∃ t, (execHostCopy sq s) = .next t ∧ Ev Q0 s0 t := by
  unfold execHostCopy
  refine ⟨_, rfl, ?_⟩
  repeat' first | with_reducible assumption | exact Need.sub hp0 rfl | ((try lift_lets -underBinder); intro x; (try dsimp -zeta -proj only); first | (refine Ev.cut (P := Q0) (s0 := s0) (x := x) ?_ (fun hx => ?_); unfold x) | (refine Ev.cutP (P := Q0) (s0 := s0) (x := x) (by unfold x; exact rfl) ?_ (fun hx => ?_)) | skip) | with_reducible apply State.ev_ringCmd | with_reducible apply State.ev_copyStart

theorem execHostCopyDone_ev {Q0 : StatePart → Bool} (hp0 : Need Q0 [.host, .steps, .mm, .faults, .log, .streams, .router, .rmt, .col, .cores, .ports, .sec, .regs, .out, .freeCtr, .mem]) {s0 s : State} (ev : Ev Q0 s0 s) (sq : RingNo) (data : List Byte) (fail : Option Word) (hits : List EccHit) : ∃ t, (execHostCopyDone sq data fail hits s) = .next t ∧ Ev Q0 s0 t := by
  unfold execHostCopyDone
  refine ⟨_, rfl, ?_⟩
  repeat' first | with_reducible assumption | exact Need.sub hp0 rfl | with_reducible apply State.ev_copyEnd | split

theorem execHbmRetire_ev {Q0 : StatePart → Bool} (hp0 : Need Q0 [.host, .mm, .log, .regs, .out]) {s0 s : State} (ev : Ev Q0 s0 s) (sq : RingNo) : ∃ t, (execHbmRetire sq s) = .next t ∧ Ev Q0 s0 t := by
  unfold execHbmRetire
  refine ⟨_, rfl, ?_⟩
  repeat' first | with_reducible assumption | exact Need.sub hp0 rfl | ((try lift_lets -underBinder); intro x; (try dsimp -zeta -proj only); first | (refine Ev.cut (P := Q0) (s0 := s0) (x := x) ?_ (fun hx => ?_); unfold x) | (refine Ev.cutP (P := Q0) (s0 := s0) (x := x) (by unfold x; exact rfl) ?_ (fun hx => ?_)) | skip) | with_reducible apply State.ev_ringCmd | with_reducible apply State.ev_hbmRetire

theorem execHbmRekey_ev {Q0 : StatePart → Bool} (hp0 : Need Q0 [.host, .mm, .regs, .out, .freeCtr, .mem]) {s0 s : State} (ev : Ev Q0 s0 s) (sq : RingNo) : ∃ t, (execHbmRekey sq s) = .next t ∧ Ev Q0 s0 t := by
  unfold execHbmRekey
  refine ⟨_, rfl, ?_⟩
  repeat' first | with_reducible assumption | exact Need.sub hp0 rfl | ((try lift_lets -underBinder); intro x; (try dsimp -zeta -proj only); first | (refine Ev.cut (P := Q0) (s0 := s0) (x := x) ?_ (fun hx => ?_); unfold x) | (refine Ev.cutP (P := Q0) (s0 := s0) (x := x) (by unfold x; exact rfl) ?_ (fun hx => ?_)) | skip) | with_reducible apply State.ev_ringCmd | with_reducible apply State.ev_hbmRekey

theorem execHbmTest_ev {Q0 : StatePart → Bool} (hp0 : Need Q0 [.host, .mm, .regs, .out, .freeCtr, .mem]) {s0 s : State} (ev : Ev Q0 s0 s) (sq : RingNo) : ∃ t, (execHbmTest sq s) = .next t ∧ Ev Q0 s0 t := by
  unfold execHbmTest
  refine ⟨_, rfl, ?_⟩
  repeat' first | with_reducible assumption | exact Need.sub hp0 rfl | ((try lift_lets -underBinder); intro x; (try dsimp -zeta -proj only); first | (refine Ev.cut (P := Q0) (s0 := s0) (x := x) ?_ (fun hx => ?_); unfold x) | (refine Ev.cutP (P := Q0) (s0 := s0) (x := x) (by unfold x; exact rfl) ?_ (fun hx => ?_)) | skip) | with_reducible apply State.ev_ringCmd | with_reducible apply State.ev_hbmTest

theorem execPowerCap_ev {Q0 : StatePart → Bool} (hp0 : Need Q0 [.host, .regs, .out]) {s0 s : State} (ev : Ev Q0 s0 s) (sq : RingNo) : ∃ t, (execPowerCap sq s) = .next t ∧ Ev Q0 s0 t := by
  unfold execPowerCap
  refine ⟨_, rfl, ?_⟩
  repeat' first | with_reducible assumption | exact Need.sub hp0 rfl | ((try lift_lets -underBinder); intro x; (try dsimp -zeta -proj only); first | (refine Ev.cut (P := Q0) (s0 := s0) (x := x) ?_ (fun hx => ?_); unfold x) | (refine Ev.cutP (P := Q0) (s0 := s0) (x := x) (by unfold x; exact rfl) ?_ (fun hx => ?_)) | skip) | with_reducible apply State.ev_ringCmd | with_reducible apply State.ev_powerCap

end Sys2Proof.Machine
end

