-- ==== Sys2Proof/Laws/EvStreams.lean ====
section
/-! SUPPORT. The operations of Streams.lean keep the relation Ev. -/

namespace Sys2Proof.Machine

open Sys2Proof

set_option linter.unusedVariables false

theorem State.ev_streamRefuse {Q0 : StatePart → Bool} (hp0 : Need Q0 [.host, .regs, .out]) {s0 s : State} (ev : Ev Q0 s0 s) (f : InFlight) (code : Nat) : Ev Q0 s0 (State.streamRefuse s f code) := by
  unfold State.streamRefuse
  repeat' first | with_reducible assumption | exact Need.sub hp0 rfl | ((try lift_lets -underBinder); intro x; first | (refine Ev.cut (P := Q0) (s0 := s0) (x := x) ?_ (fun hx => ?_); unfold x) | (refine Ev.cutP (P := Q0) (s0 := s0) (x := x) (by unfold x; exact rfl) ?_ (fun hx => ?_)) | skip) | with_reducible apply State.ev_bumpSat | with_reducible apply State.ev_finish | split

theorem State.ev_streamOpen {Q0 : StatePart → Bool} (hp0 : Need Q0 [.host, .mm, .regs, .out, .mem]) {s0 s : State} (ev : Ev Q0 s0 s) (img : Option (List Byte)) (f : InFlight) : Ev Q0 s0 (State.streamOpen s img f) := by
  unfold State.streamOpen
  repeat' first | with_reducible assumption | exact Need.sub hp0 rfl | ((try lift_lets -underBinder); intro x; first | (refine Ev.cut (P := Q0) (s0 := s0) (x := x) ?_ (fun hx => ?_); unfold x) | (refine Ev.cutP (P := Q0) (s0 := s0) (x := x) (by unfold x; exact rfl) ?_ (fun hx => ?_)) | skip) | with_reducible apply State.ev_hostGet | with_reducible apply State.ev_streamRefuse | with_reducible apply State.ev_finish | with_reducible apply State.ev_putEntry | with_reducible refine State.ev_hostGet_eq (Need.sub hp0 rfl) ?_ _ _ _ _ (by with_reducible assumption) | split

theorem State.ev_setField {Q0 : StatePart → Bool} (hp0 : Need Q0 [.mm, .mem]) {s0 s : State} (ev : Ev Q0 s0 s) (id : Nat) (e : List Byte) (k : Nat) : Ev Q0 s0 (State.setField s id e k) := by
  unfold State.setField
  repeat' first | with_reducible assumption | exact Need.sub hp0 rfl | with_reducible apply State.ev_putEntry | split

theorem State.ev_streamSet {Q0 : StatePart → Bool} (hp0 : Need Q0 [.host, .mm, .regs, .out, .mem]) {s0 s : State} (ev : Ev Q0 s0 s) (img : Option (List Byte)) (f : InFlight) : Ev Q0 s0 (State.streamSet s img f) := by
  unfold State.streamSet
  repeat' first | with_reducible assumption | exact Need.sub hp0 rfl | ((try lift_lets -underBinder); intro x; first | (refine Ev.cut (P := Q0) (s0 := s0) (x := x) ?_ (fun hx => ?_); unfold x) | (refine Ev.cutP (P := Q0) (s0 := s0) (x := x) (by unfold x; exact rfl) ?_ (fun hx => ?_)) | skip) | with_reducible apply State.ev_hostGet | with_reducible apply State.ev_streamRefuse | with_reducible apply State.ev_finish | with_reducible apply State.ev_setField | with_reducible refine State.ev_hostGet_eq (Need.sub hp0 rfl) ?_ _ _ _ _ (by with_reducible assumption) | with_reducible refine Ev.foldl _ (fun st a hst => ?_) _ _ ?_ | with_reducible refine Ev.foldlP _ (fun st a hst => ?_) _ _ ?_ | split

theorem State.ev_putCommitted {Q0 : StatePart → Bool} (hp0 : Need Q0 [.mm, .mem]) {s0 s : State} (ev : Ev Q0 s0 s) (id : Nat) (st : Nat) : Ev Q0 s0 (State.putCommitted s id st) := by
  unfold State.putCommitted
  repeat' first | with_reducible assumption | exact Need.sub hp0 rfl | with_reducible apply State.ev_putEntry

theorem State.ev_streamMove {Q0 : StatePart → Bool} (hp0 : Need Q0 [.host, .mm, .regs, .out, .mem]) {s0 s : State} (ev : Ev Q0 s0 s) (f : InFlight) (p : Nat → Bool) (code : Nat) : Ev Q0 s0 (State.streamMove s f p code) := by
  unfold State.streamMove
  repeat' first | with_reducible assumption | exact Need.sub hp0 rfl | ((try lift_lets -underBinder); intro x; first | (refine Ev.cut (P := Q0) (s0 := s0) (x := x) ?_ (fun hx => ?_); unfold x) | (refine Ev.cutP (P := Q0) (s0 := s0) (x := x) (by unfold x; exact rfl) ?_ (fun hx => ?_)) | skip) | with_reducible apply State.ev_streamRefuse | with_reducible apply State.ev_finish | with_reducible apply State.ev_putCommitted | split

theorem State.ev_setPinned {Q0 : StatePart → Bool} (hp0 : Need Q0 [.mm, .streams, .regs, .mem]) {s0 s : State} (ev : Ev Q0 s0 s) (id : Nat) (v : Bool) : Ev Q0 s0 (State.setPinned s id v) := by
  unfold State.setPinned
  repeat' first | with_reducible assumption | exact Need.sub hp0 rfl | with_reducible apply State.ev_putEntry | with_reducible apply State.ev_pinWay | with_reducible apply State.ev_unpinWay | split

theorem State.ev_streamPin {Q0 : StatePart → Bool} (hp0 : Need Q0 [.host, .mm, .streams, .regs, .out, .mem]) {s0 s : State} (ev : Ev Q0 s0 s) (f : InFlight) : Ev Q0 s0 (State.streamPin s f) := by
  unfold State.streamPin
  repeat' first | with_reducible assumption | exact Need.sub hp0 rfl | ((try lift_lets -underBinder); intro x; first | (refine Ev.cut (P := Q0) (s0 := s0) (x := x) ?_ (fun hx => ?_); unfold x) | (refine Ev.cutP (P := Q0) (s0 := s0) (x := x) (by unfold x; exact rfl) ?_ (fun hx => ?_)) | skip) | with_reducible apply State.ev_streamRefuse | with_reducible apply State.ev_finish | with_reducible apply State.ev_setPinned | split

theorem State.ev_streamImport {Q0 : StatePart → Bool} (hp0 : Need Q0 [.host, .mm, .regs, .out, .mem]) {s0 s : State} (ev : Ev Q0 s0 s) (img : Option (List Byte)) (f : InFlight) : Ev Q0 s0 (State.streamImport s img f) := by
  unfold State.streamImport
  repeat' first | with_reducible assumption | exact Need.sub hp0 rfl | ((try lift_lets -underBinder); intro x; first | (refine Ev.cut (P := Q0) (s0 := s0) (x := x) ?_ (fun hx => ?_); unfold x) | (refine Ev.cutP (P := Q0) (s0 := s0) (x := x) (by unfold x; exact rfl) ?_ (fun hx => ?_)) | skip) | with_reducible apply State.ev_hostGet | with_reducible apply State.ev_streamRefuse | with_reducible apply State.ev_finish | with_reducible apply State.ev_putEntry | with_reducible refine State.ev_hostGet_eq (Need.sub hp0 rfl) ?_ _ _ _ _ (by with_reducible assumption) | split

theorem State.ev_fetchDone {Q0 : StatePart → Bool} (hp0 : Need Q0 [.steps, .streams, .regs]) {s0 s : State} (ev : Ev Q0 s0 s) (id : Nat) : Ev Q0 s0 (State.fetchDone s id) := by
  unfold State.fetchDone
  repeat' first | with_reducible assumption | exact Need.sub hp0 rfl | ((try lift_lets -underBinder); intro x; first | (refine Ev.cut (P := Q0) (s0 := s0) (x := x) ?_ (fun hx => ?_); unfold x) | (refine Ev.cutP (P := Q0) (s0 := s0) (x := x) (by unfold x; exact rfl) ?_ (fun hx => ?_)) | skip) | with_reducible apply State.ev_loadStream | with_reducible apply State.ev_maxF | with_reducible apply State.ev_setStreams | split | with_reducible apply Ev.upd | with_reducible apply Ev.updOut | exact Or.inl (Need.has hp0 rfl) | with_reducible exact Or.inr rfl | exact Need.has hp0 rfl | with_reducible rfl

theorem execStreamOpen_ev {Q0 : StatePart → Bool} (hp0 : Need Q0 [.host, .mm, .regs, .out, .mem]) {s0 s : State} (ev : Ev Q0 s0 s) (sq : RingNo) (img : Option (List Byte)) : ∃ t, (execStreamOpen sq img s) = .next t ∧ Ev Q0 s0 t := by
  unfold execStreamOpen
  refine ⟨_, rfl, ?_⟩
  repeat' first | with_reducible assumption | exact Need.sub hp0 rfl | ((try lift_lets -underBinder); intro x; (try dsimp -zeta -proj only); first | (refine Ev.cut (P := Q0) (s0 := s0) (x := x) ?_ (fun hx => ?_); unfold x) | (refine Ev.cutP (P := Q0) (s0 := s0) (x := x) (by unfold x; exact rfl) ?_ (fun hx => ?_)) | skip) | with_reducible apply State.ev_ringCmd | with_reducible apply State.ev_streamOpen

theorem execStreamSet_ev {Q0 : StatePart → Bool} (hp0 : Need Q0 [.host, .mm, .regs, .out, .mem]) {s0 s : State} (ev : Ev Q0 s0 s) (sq : RingNo) (img : Option (List Byte)) : ∃ t, (execStreamSet sq img s) = .next t ∧ Ev Q0 s0 t := by
  unfold execStreamSet
  refine ⟨_, rfl, ?_⟩
  repeat' first | with_reducible assumption | exact Need.sub hp0 rfl | ((try lift_lets -underBinder); intro x; (try dsimp -zeta -proj only); first | (refine Ev.cut (P := Q0) (s0 := s0) (x := x) ?_ (fun hx => ?_); unfold x) | (refine Ev.cutP (P := Q0) (s0 := s0) (x := x) (by unfold x; exact rfl) ?_ (fun hx => ?_)) | skip) | with_reducible apply State.ev_ringCmd | with_reducible apply State.ev_streamSet

theorem execStreamHold_ev {Q0 : StatePart → Bool} (hp0 : Need Q0 [.host, .mm, .regs, .out, .mem]) {s0 s : State} (ev : Ev Q0 s0 s) (sq : RingNo) : ∃ t, (execStreamHold sq s) = .next t ∧ Ev Q0 s0 t := by
  unfold execStreamHold
  refine ⟨_, rfl, ?_⟩
  repeat' first | with_reducible assumption | exact Need.sub hp0 rfl | ((try lift_lets -underBinder); intro x; (try dsimp -zeta -proj only); first | (refine Ev.cut (P := Q0) (s0 := s0) (x := x) ?_ (fun hx => ?_); unfold x) | (refine Ev.cutP (P := Q0) (s0 := s0) (x := x) (by unfold x; exact rfl) ?_ (fun hx => ?_)) | skip) | with_reducible apply State.ev_ringCmd | with_reducible apply State.ev_streamMove

theorem execStreamRelease_ev {Q0 : StatePart → Bool} (hp0 : Need Q0 [.host, .mm, .regs, .out, .mem]) {s0 s : State} (ev : Ev Q0 s0 s) (sq : RingNo) : ∃ t, (execStreamRelease sq s) = .next t ∧ Ev Q0 s0 t := by
  unfold execStreamRelease
  refine ⟨_, rfl, ?_⟩
  repeat' first | with_reducible assumption | exact Need.sub hp0 rfl | ((try lift_lets -underBinder); intro x; (try dsimp -zeta -proj only); first | (refine Ev.cut (P := Q0) (s0 := s0) (x := x) ?_ (fun hx => ?_); unfold x) | (refine Ev.cutP (P := Q0) (s0 := s0) (x := x) (by unfold x; exact rfl) ?_ (fun hx => ?_)) | skip) | with_reducible apply State.ev_ringCmd | with_reducible apply State.ev_streamMove

theorem execStreamClose_ev {Q0 : StatePart → Bool} (hp0 : Need Q0 [.host, .mm, .streams, .regs, .out, .mem]) {s0 s : State} (ev : Ev Q0 s0 s) (sq : RingNo) : ∃ t, (execStreamClose sq s) = .next t ∧ Ev Q0 s0 t := by
  unfold execStreamClose
  refine ⟨_, rfl, ?_⟩
  repeat' first | with_reducible assumption | exact Need.sub hp0 rfl | ((try lift_lets -underBinder); intro x; (try dsimp -zeta -proj only); first | (refine Ev.cut (P := Q0) (s0 := s0) (x := x) ?_ (fun hx => ?_); unfold x) | (refine Ev.cutP (P := Q0) (s0 := s0) (x := x) (by unfold x; exact rfl) ?_ (fun hx => ?_)) | skip) | with_reducible apply State.ev_ringCmd | with_reducible apply State.ev_streamRefuse | with_reducible apply State.ev_finish | with_reducible apply State.ev_putCommitted | with_reducible apply State.ev_setPinned | split

theorem execStreamPin_ev {Q0 : StatePart → Bool} (hp0 : Need Q0 [.host, .mm, .streams, .regs, .out, .mem]) {s0 s : State} (ev : Ev Q0 s0 s) (sq : RingNo) : ∃ t, (execStreamPin sq s) = .next t ∧ Ev Q0 s0 t := by
  unfold execStreamPin
  refine ⟨_, rfl, ?_⟩
  repeat' first | with_reducible assumption | exact Need.sub hp0 rfl | ((try lift_lets -underBinder); intro x; (try dsimp -zeta -proj only); first | (refine Ev.cut (P := Q0) (s0 := s0) (x := x) ?_ (fun hx => ?_); unfold x) | (refine Ev.cutP (P := Q0) (s0 := s0) (x := x) (by unfold x; exact rfl) ?_ (fun hx => ?_)) | skip) | with_reducible apply State.ev_ringCmd | with_reducible apply State.ev_streamPin

theorem execStreamUnpin_ev {Q0 : StatePart → Bool} (hp0 : Need Q0 [.host, .mm, .streams, .regs, .out, .mem]) {s0 s : State} (ev : Ev Q0 s0 s) (sq : RingNo) : ∃ t, (execStreamUnpin sq s) = .next t ∧ Ev Q0 s0 t := by
  unfold execStreamUnpin
  refine ⟨_, rfl, ?_⟩
  repeat' first | with_reducible assumption | exact Need.sub hp0 rfl | ((try lift_lets -underBinder); intro x; (try dsimp -zeta -proj only); first | (refine Ev.cut (P := Q0) (s0 := s0) (x := x) ?_ (fun hx => ?_); unfold x) | (refine Ev.cutP (P := Q0) (s0 := s0) (x := x) (by unfold x; exact rfl) ?_ (fun hx => ?_)) | skip) | with_reducible apply State.ev_ringCmd | with_reducible apply State.ev_streamRefuse | with_reducible apply State.ev_finish | with_reducible apply State.ev_setPinned | split

theorem execStreamRead_ev {Q0 : StatePart → Bool} (hp0 : Need Q0 [.host, .regs, .out]) {s0 s : State} (ev : Ev Q0 s0 s) (sq : RingNo) (ok : Bool) : ∃ t, (execStreamRead sq ok s) = .next t ∧ Ev Q0 s0 t := by
  unfold execStreamRead
  refine ⟨_, rfl, ?_⟩
  repeat' first | with_reducible assumption | exact Need.sub hp0 rfl | ((try lift_lets -underBinder); intro x; (try dsimp -zeta -proj only); first | (refine Ev.cut (P := Q0) (s0 := s0) (x := x) ?_ (fun hx => ?_); unfold x) | (refine Ev.cutP (P := Q0) (s0 := s0) (x := x) (by unfold x; exact rfl) ?_ (fun hx => ?_)) | skip) | with_reducible apply State.ev_ringCmd | with_reducible apply State.ev_hostPut | with_reducible apply State.ev_finish | with_reducible refine State.ev_hostPut_eq (Need.sub hp0 rfl) ?_ _ _ _ _ (by with_reducible assumption) | split

theorem execStreamImport_ev {Q0 : StatePart → Bool} (hp0 : Need Q0 [.host, .mm, .regs, .out, .mem]) {s0 s : State} (ev : Ev Q0 s0 s) (sq : RingNo) (img : Option (List Byte)) : ∃ t, (execStreamImport sq img s) = .next t ∧ Ev Q0 s0 t := by
  unfold execStreamImport
  refine ⟨_, rfl, ?_⟩
  repeat' first | with_reducible assumption | exact Need.sub hp0 rfl | ((try lift_lets -underBinder); intro x; (try dsimp -zeta -proj only); first | (refine Ev.cut (P := Q0) (s0 := s0) (x := x) ?_ (fun hx => ?_); unfold x) | (refine Ev.cutP (P := Q0) (s0 := s0) (x := x) (by unfold x; exact rfl) ?_ (fun hx => ?_)) | skip) | with_reducible apply State.ev_ringCmd | with_reducible apply State.ev_streamImport

theorem execStreamCacheFetchDone_ev {Q0 : StatePart → Bool} (hp0 : Need Q0 [.steps, .streams, .regs]) {s0 s : State} (ev : Ev Q0 s0 s) (stream : Half) : ∃ t, (execStreamCacheFetchDone stream s) = .next t ∧ Ev Q0 s0 t := by
  unfold execStreamCacheFetchDone
  refine ⟨_, rfl, ?_⟩
  repeat' first | with_reducible assumption | exact Need.sub hp0 rfl | with_reducible apply State.ev_fetchDone

end Sys2Proof.Machine
end

