-- ==== Sys2Proof/Laws/EvGraphs.lean ====
section
/-! SUPPORT. The operations of Graphs.lean keep the relation Ev. -/

namespace Sys2Proof.Machine

open Sys2Proof

set_option linter.unusedVariables false

theorem State.ev_setGraph {Q0 : StatePart → Bool} (hp0 : Need Q0 [.steps]) {s0 s : State} (ev : Ev Q0 s0 s) (slot : Nat) (g : GraphSlot) : Ev Q0 s0 (State.setGraph s slot g) := by
  unfold State.setGraph
  repeat' first | with_reducible assumption | exact Need.sub hp0 rfl | ((try lift_lets -underBinder); intro x; first | (refine Ev.cut (P := Q0) (s0 := s0) (x := x) ?_ (fun hx => ?_); unfold x) | (refine Ev.cutP (P := Q0) (s0 := s0) (x := x) (by unfold x; exact rfl) ?_ (fun hx => ?_)) | skip) | with_reducible apply Ev.upd | with_reducible apply Ev.updOut | exact Or.inl (Need.has hp0 rfl) | with_reducible exact Or.inr rfl | exact Need.has hp0 rfl | with_reducible rfl

theorem State.ev_graphRegister {Q0 : StatePart → Bool} (hp0 : Need Q0 [.host, .steps, .regs, .out]) {s0 s : State} (ev : Ev Q0 s0 s) (f : InFlight) : Ev Q0 s0 (State.graphRegister s f) := by
  unfold State.graphRegister
  repeat' first | with_reducible assumption | exact Need.sub hp0 rfl | ((try lift_lets -underBinder); intro x; (try dsimp -zeta -proj only); first | (refine Ev.cut (P := Q0) (s0 := s0) (x := x) ?_ (fun hx => ?_); unfold x) | (refine Ev.cutP (P := Q0) (s0 := s0) (x := x) (by unfold x; exact rfl) ?_ (fun hx => ?_)) | (refine Ev.cutF (x := x) (fun f => ∀ st, Ev Q0 s0 st → Ev Q0 s0 (f st)) ?_ (fun hF => ?_); unfold x; try dsimp -zeta -proj only) | (refine Ev.cutF (x := x) (fun f => ∀ st a, Ev Q0 s0 st → Ev Q0 s0 (f st a)) ?_ (fun hF => ?_); unfold x; try dsimp -zeta -proj only) | (refine Ev.cutF (x := x) (fun f => ∀ st a b, Ev Q0 s0 st → Ev Q0 s0 (f st a b)) ?_ (fun hF => ?_); unfold x; try dsimp -zeta -proj only) | (refine Ev.cutF (x := x) (fun f => ∀ b, Ev Q0 s0 (f b)) ?_ (fun hF => ?_); unfold x; try dsimp -zeta -proj only) | (refine Ev.cutF (x := x) (fun f => ∀ a b, Ev Q0 s0 (f a b)) ?_ (fun hF => ?_); unfold x; try dsimp -zeta -proj only) | skip) | with_reducible apply hF | with_reducible apply State.ev_finish | with_reducible apply State.ev_setGraph | split

theorem State.ev_graphUnregister {Q0 : StatePart → Bool} (hp0 : Need Q0 [.host, .steps, .regs, .out]) {s0 s : State} (ev : Ev Q0 s0 s) (f : InFlight) : Ev Q0 s0 (State.graphUnregister s f) := by
  unfold State.graphUnregister
  repeat' first | with_reducible assumption | exact Need.sub hp0 rfl | ((try lift_lets -underBinder); intro x; first | (refine Ev.cut (P := Q0) (s0 := s0) (x := x) ?_ (fun hx => ?_); unfold x) | (refine Ev.cutP (P := Q0) (s0 := s0) (x := x) (by unfold x; exact rfl) ?_ (fun hx => ?_)) | skip) | with_reducible apply State.ev_finish | with_reducible apply State.ev_setGraph | split

theorem execGraphRegister_ev {Q0 : StatePart → Bool} (hp0 : Need Q0 [.host, .steps, .regs, .out]) {s0 s : State} (ev : Ev Q0 s0 s) (sq : RingNo) : ∃ t, (execGraphRegister sq s) = .next t ∧ Ev Q0 s0 t := by
  unfold execGraphRegister
  refine ⟨_, rfl, ?_⟩
  repeat' first | with_reducible assumption | exact Need.sub hp0 rfl | ((try lift_lets -underBinder); intro x; (try dsimp -zeta -proj only); first | (refine Ev.cut (P := Q0) (s0 := s0) (x := x) ?_ (fun hx => ?_); unfold x) | (refine Ev.cutP (P := Q0) (s0 := s0) (x := x) (by unfold x; exact rfl) ?_ (fun hx => ?_)) | skip) | with_reducible apply State.ev_ringCmd | with_reducible apply State.ev_graphRegister

theorem execGraphUnregister_ev {Q0 : StatePart → Bool} (hp0 : Need Q0 [.host, .steps, .regs, .out]) {s0 s : State} (ev : Ev Q0 s0 s) (sq : RingNo) : ∃ t, (execGraphUnregister sq s) = .next t ∧ Ev Q0 s0 t := by
  unfold execGraphUnregister
  refine ⟨_, rfl, ?_⟩
  repeat' first | with_reducible assumption | exact Need.sub hp0 rfl | ((try lift_lets -underBinder); intro x; (try dsimp -zeta -proj only); first | (refine Ev.cut (P := Q0) (s0 := s0) (x := x) ?_ (fun hx => ?_); unfold x) | (refine Ev.cutP (P := Q0) (s0 := s0) (x := x) (by unfold x; exact rfl) ?_ (fun hx => ?_)) | skip) | with_reducible apply State.ev_ringCmd | with_reducible apply State.ev_graphUnregister

end Sys2Proof.Machine
end

