-- ==== Sys2Proof/Laws/EvSubmit.lean ====
section
/-! SUPPORT. The operations of Submit.lean keep the relation Ev. -/

namespace Sys2Proof.Machine

open Sys2Proof

set_option linter.unusedVariables false

theorem State.ev_stepSubmit {Q0 : StatePart → Bool} (hp0 : Need Q0 [.host, .steps, .streams, .cores, .regs, .out]) {s0 s : State} (ev : Ev Q0 s0 s) (f : InFlight) : Ev Q0 s0 (State.stepSubmit s f) := by
  unfold State.stepSubmit
  repeat' first | with_reducible assumption | exact Need.sub hp0 rfl | ((try lift_lets -underBinder); intro x; first | (refine Ev.cut (P := Q0) (s0 := s0) (x := x) ?_ (fun hx => ?_); unfold x) | (refine Ev.cutP (P := Q0) (s0 := s0) (x := x) (by unfold x; exact rfl) ?_ (fun hx => ?_)) | skip) | with_reducible apply State.ev_finish | with_reducible apply State.ev_countAbort | with_reducible apply State.ev_startCopies | with_reducible apply State.ev_setStep | with_reducible apply State.ev_setFlight | split | with_reducible apply Ev.upd | with_reducible apply Ev.updOut | exact Or.inl (Need.has hp0 rfl) | with_reducible exact Or.inr rfl | exact Need.has hp0 rfl | with_reducible rfl

theorem State.ev_resolveAs {Q0 : StatePart → Bool} (hp0 : Need Q0 [.host, .steps, .mm, .streams, .traceLost, .rmt, .col, .cores, .regs, .out, .mem]) {s0 s : State} (ev : Ev Q0 s0 s) (i : Nat) (commit : Bool) : Ev Q0 s0 (State.resolveAs s i commit) := by
  unfold State.resolveAs
  repeat' first | with_reducible assumption | exact Need.sub hp0 rfl | with_reducible apply State.ev_commitStep | with_reducible apply State.ev_abortPost | with_reducible apply State.ev_countAbort | with_reducible apply State.ev_modStep | split

theorem State.ev_resolveStep {Q0 : StatePart → Bool} (hp0 : Need Q0 [.host, .steps, .mm, .streams, .traceLost, .rmt, .col, .cores, .regs, .out, .mem]) {s0 s : State} (ev : Ev Q0 s0 s) (f : InFlight) : Ev Q0 s0 (State.resolveStep s f) := by
  unfold State.resolveStep
  repeat' first | with_reducible assumption | exact Need.sub hp0 rfl | ((try lift_lets -underBinder); intro x; first | (refine Ev.cut (P := Q0) (s0 := s0) (x := x) ?_ (fun hx => ?_); unfold x) | (refine Ev.cutP (P := Q0) (s0 := s0) (x := x) (by unfold x; exact rfl) ?_ (fun hx => ?_)) | (generalize he : x = y) | skip) | with_reducible apply State.ev_finish | with_reducible apply State.ev_resolveAs | with_reducible apply State.ev_useStream | with_reducible apply State.ev_commitEntry | with_reducible apply State.ev_unstage | with_reducible apply State.ev_bumpWrap | with_reducible apply State.ev_postStep | with_reducible apply State.ev_countAbort | with_reducible apply State.ev_resolveSlot | with_reducible apply State.ev_traceStepEnd | with_reducible apply State.ev_postExcluded | with_reducible refine Ev.foldl _ (fun st a hst => ?_) _ _ ?_ | with_reducible refine Ev.foldlP _ (fun st a hst => ?_) _ _ ?_ | split

theorem execStepSubmit_ev {Q0 : StatePart → Bool} (hp0 : Need Q0 [.host, .steps, .streams, .cores, .regs, .out]) {s0 s : State} (ev : Ev Q0 s0 s) (sq : RingNo) : ∃ t, (execStepSubmit sq s) = .next t ∧ Ev Q0 s0 t := by
  unfold execStepSubmit
  refine ⟨_, rfl, ?_⟩
  repeat' first | with_reducible assumption | exact Need.sub hp0 rfl | ((try lift_lets -underBinder); intro x; (try dsimp -zeta -proj only); first | (refine Ev.cut (P := Q0) (s0 := s0) (x := x) ?_ (fun hx => ?_); unfold x) | (refine Ev.cutP (P := Q0) (s0 := s0) (x := x) (by unfold x; exact rfl) ?_ (fun hx => ?_)) | skip) | with_reducible apply State.ev_ringCmd | with_reducible apply State.ev_stepSubmit

theorem execResolveStep_ev {Q0 : StatePart → Bool} (hp0 : Need Q0 [.host, .steps, .mm, .streams, .traceLost, .rmt, .col, .cores, .regs, .out, .mem]) {s0 s : State} (ev : Ev Q0 s0 s) (sq : RingNo) : ∃ t, (execResolveStep sq s) = .next t ∧ Ev Q0 s0 t := by
  unfold execResolveStep
  refine ⟨_, rfl, ?_⟩
  repeat' first | with_reducible assumption | exact Need.sub hp0 rfl | ((try lift_lets -underBinder); intro x; (try dsimp -zeta -proj only); first | (refine Ev.cut (P := Q0) (s0 := s0) (x := x) ?_ (fun hx => ?_); unfold x) | (refine Ev.cutP (P := Q0) (s0 := s0) (x := x) (by unfold x; exact rfl) ?_ (fun hx => ?_)) | skip) | with_reducible apply State.ev_ringCmd | with_reducible apply State.ev_resolveStep

end Sys2Proof.Machine
end

