-- ==== Sys2Proof/Laws/EvPortOps.lean ====
section
/-! SUPPORT. The operations of PortOps.lean keep the relation Ev. -/

namespace Sys2Proof.Machine

open Sys2Proof

set_option linter.unusedVariables false

theorem State.ev_modPort {Q0 : StatePart → Bool} (hp0 : Need Q0 [.ports]) {s0 s : State} (ev : Ev Q0 s0 s) (p : Nat) (f : PortSt → PortSt) : Ev Q0 s0 (State.modPort s p f) := by
  unfold State.modPort
  repeat' first | with_reducible assumption | exact Need.sub hp0 rfl | with_reducible apply Ev.upd | with_reducible apply Ev.updOut | exact Or.inl (Need.has hp0 rfl) | with_reducible exact Or.inr rfl | exact Need.has hp0 rfl | with_reducible rfl

theorem State.ev_setSub {Q0 : StatePart → Bool} (hp0 : Need Q0 [.subs]) {s0 s : State} (ev : Ev Q0 s0 s) (p : Nat) (q : Nat) (u : SubPort) : Ev Q0 s0 (State.setSub s p q u) := by
  unfold State.setSub
  repeat' first | with_reducible assumption | exact Need.sub hp0 rfl | with_reducible apply Ev.upd | with_reducible apply Ev.updOut | exact Or.inl (Need.has hp0 rfl) | with_reducible exact Or.inr rfl | exact Need.has hp0 rfl | with_reducible rfl

theorem State.ev_modSub {Q0 : StatePart → Bool} (hp0 : Need Q0 [.subs]) {s0 s : State} (ev : Ev Q0 s0 s) (p : Nat) (q : Nat) (f : SubPort → SubPort) : Ev Q0 s0 (State.modSub s p q f) := by
  unfold State.modSub
  repeat' first | with_reducible assumption | exact Need.sub hp0 rfl | with_reducible apply State.ev_setSub

theorem State.ev_showSub {Q0 : StatePart → Bool} (hp0 : Need Q0 [.regs]) {s0 s : State} (ev : Ev Q0 s0 s) (p : Nat) (q : Nat) : Ev Q0 s0 (State.showSub s p q) := by
  unfold State.showSub
  repeat' first | with_reducible assumption | exact Need.sub hp0 rfl | ((try lift_lets -underBinder); intro x; first | (refine Ev.cut (P := Q0) (s0 := s0) (x := x) ?_ (fun hx => ?_); unfold x) | (refine Ev.cutP (P := Q0) (s0 := s0) (x := x) (by unfold x; exact rfl) ?_ (fun hx => ?_)) | skip) | with_reducible apply State.ev_setF | split

theorem State.ev_portRec {Q0 : StatePart → Bool} (hp0 : Need Q0 [.host, .log, .regs, .out]) {s0 s : State} (ev : Ev Q0 s0 s) (p : Nat) (q : Nat) (cause : Nat) (chans : Nat) : Ev Q0 s0 (State.portRec s p q cause chans) := by
  unfold State.portRec
  repeat' first | with_reducible assumption | exact Need.sub hp0 rfl | with_reducible apply State.ev_errRec | split

theorem State.ev_showKey {Q0 : StatePart → Bool} (hp0 : Need Q0 [.regs]) {s0 s : State} (ev : Ev Q0 s0 s) (p : Nat) : Ev Q0 s0 (State.showKey s p) := by
  unfold State.showKey
  repeat' first | with_reducible assumption | exact Need.sub hp0 rfl | ((try lift_lets -underBinder); intro x; first | (refine Ev.cut (P := Q0) (s0 := s0) (x := x) ?_ (fun hx => ?_); unfold x) | (refine Ev.cutP (P := Q0) (s0 := s0) (x := x) (by unfold x; exact rfl) ?_ (fun hx => ?_)) | skip) | with_reducible apply State.ev_setF | split

theorem State.ev_dropKeys {Q0 : StatePart → Bool} (hp0 : Need Q0 [.subs, .regs]) {s0 s : State} (ev : Ev Q0 s0 s) (p : Nat) (q : Nat) : Ev Q0 s0 (State.dropKeys s p q) := by
  unfold State.dropKeys
  repeat' first | with_reducible assumption | exact Need.sub hp0 rfl | with_reducible apply State.ev_showKey | with_reducible apply State.ev_modSub | split

theorem State.ev_setPreWord {Q0 : StatePart → Bool} (hp0 : Need Q0 [.regs]) {s0 s : State} (ev : Ev Q0 s0 s) (p : Nat) (k : Nat) (w : Nat) (v : Nat) : Ev Q0 s0 (State.setPreWord s p k w v) := by
  unfold State.setPreWord
  repeat' first | with_reducible assumption | exact Need.sub hp0 rfl | with_reducible apply State.ev_setF

theorem State.ev_presetWrite {Q0 : StatePart → Bool} (hp0 : Need Q0 [.host, .regs, .out]) {s0 s : State} (ev : Ev Q0 s0 s) (f : InFlight) : Ev Q0 s0 (State.presetWrite s f) := by
  unfold State.presetWrite
  repeat' first | with_reducible assumption | exact Need.sub hp0 rfl | ((try lift_lets -underBinder); intro x; first | (refine Ev.cut (P := Q0) (s0 := s0) (x := x) ?_ (fun hx => ?_); unfold x) | (refine Ev.cutP (P := Q0) (s0 := s0) (x := x) (by unfold x; exact rfl) ?_ (fun hx => ?_)) | skip) | with_reducible apply State.ev_setPreWord | with_reducible apply State.ev_finish | with_reducible refine Ev.foldl _ (fun st a hst => ?_) _ _ ?_ | with_reducible refine Ev.foldlP _ (fun st a hst => ?_) _ _ ?_ | split

theorem State.ev_presetDone {Q0 : StatePart → Bool} (hp0 : Need Q0 [.host, .ports, .regs, .out]) {s0 s : State} (ev : Ev Q0 s0 s) (p : Nat) : Ev Q0 s0 (State.presetDone s p) := by
  unfold State.presetDone
  repeat' first | with_reducible assumption | exact Need.sub hp0 rfl | with_reducible apply State.ev_presetWrite | with_reducible apply State.ev_modPort | with_reducible refine Ev.foldl _ (fun st a hst => ?_) _ _ ?_ | with_reducible refine Ev.foldlP _ (fun st a hst => ?_) _ _ ?_ | split

theorem State.ev_enterSub {Q0 : StatePart → Bool} (hp0 : Need Q0 [.host, .ports, .subs, .regs, .out]) {s0 s : State} (ev : Ev Q0 s0 s) (p : Nat) (q : Nat) (st : Nat) (cause : Option Nat) : Ev Q0 s0 (State.enterSub s p q st cause) := by
  unfold State.enterSub
  repeat' first | with_reducible assumption | exact Need.sub hp0 rfl | ((try lift_lets -underBinder); intro x; first | (refine Ev.cut (P := Q0) (s0 := s0) (x := x) ?_ (fun hx => ?_); unfold x) | (refine Ev.cutP (P := Q0) (s0 := s0) (x := x) (by unfold x; exact rfl) ?_ (fun hx => ?_)) | skip) | with_reducible apply State.ev_setSub | with_reducible apply State.ev_dropKeys | with_reducible apply State.ev_bumpSat | with_reducible apply State.ev_presetDone | with_reducible apply State.ev_showSub | split

theorem State.ev_showSpares {Q0 : StatePart → Bool} (hp0 : Need Q0 [.regs]) {s0 s : State} (ev : Ev Q0 s0 s) (p : Nat) : Ev Q0 s0 (State.showSpares s p) := by
  unfold State.showSpares
  repeat' first | with_reducible assumption | exact Need.sub hp0 rfl | ((try lift_lets -underBinder); intro x; first | (refine Ev.cut (P := Q0) (s0 := s0) (x := x) ?_ (fun hx => ?_); unfold x) | (refine Ev.cutP (P := Q0) (s0 := s0) (x := x) (by unfold x; exact rfl) ?_ (fun hx => ?_)) | skip) | with_reducible apply State.ev_setF

theorem State.ev_toLight {Q0 : StatePart → Bool} (hp0 : Need Q0 [.host, .ports, .subs, .regs, .out]) {s0 s : State} (ev : Ev Q0 s0 s) (p : Nat) (q : Nat) (cause : Option Nat) (count : Bool) : Ev Q0 s0 (State.toLight s p q cause count) := by
  unfold State.toLight
  repeat' first | with_reducible assumption | exact Need.sub hp0 rfl | ((try lift_lets -underBinder); intro x; first | (refine Ev.cut (P := Q0) (s0 := s0) (x := x) ?_ (fun hx => ?_); unfold x) | (refine Ev.cutP (P := Q0) (s0 := s0) (x := x) (by unfold x; exact rfl) ?_ (fun hx => ?_)) | skip) | with_reducible apply State.ev_setSub | with_reducible apply State.ev_enterSub | with_reducible apply State.ev_showSpares | split

theorem State.ev_setLit {Q0 : StatePart → Bool} (hp0 : Need Q0 [.ports, .regs, .out]) {s0 s : State} (ev : Ev Q0 s0 s) (p : Nat) (on : Bool) : Ev Q0 s0 (State.setLit s p on) := by
  unfold State.setLit
  repeat' first | with_reducible assumption | exact Need.sub hp0 rfl | ((try lift_lets -underBinder); intro x; first | (refine Ev.cut (P := Q0) (s0 := s0) (x := x) ?_ (fun hx => ?_); unfold x) | (refine Ev.cutP (P := Q0) (s0 := s0) (x := x) (by unfold x; exact rfl) ?_ (fun hx => ?_)) | skip) | with_reducible apply State.ev_modPort | with_reducible apply State.ev_emit | with_reducible apply State.ev_setF | with_reducible refine Ev.foldl _ (fun st a hst => ?_) _ _ ?_ | with_reducible refine Ev.foldlP _ (fun st a hst => ?_) _ _ ?_ | split

theorem State.ev_darkPort {Q0 : StatePart → Bool} (hp0 : Need Q0 [.host, .ports, .subs, .regs, .out]) {s0 s : State} (ev : Ev Q0 s0 s) (p : Nat) (cause : Nat) : Ev Q0 s0 (State.darkPort s p cause) := by
  unfold State.darkPort
  repeat' first | with_reducible assumption | exact Need.sub hp0 rfl | ((try lift_lets -underBinder); intro x; first | (refine Ev.cut (P := Q0) (s0 := s0) (x := x) ?_ (fun hx => ?_); unfold x) | (refine Ev.cutP (P := Q0) (s0 := s0) (x := x) (by unfold x; exact rfl) ?_ (fun hx => ?_)) | skip) | with_reducible apply State.ev_enterSub | with_reducible apply State.ev_modSub | with_reducible apply State.ev_setLit | with_reducible refine Ev.foldl _ (fun st a hst => ?_) _ _ ?_ | with_reducible refine Ev.foldlP _ (fun st a hst => ?_) _ _ ?_ | split

theorem State.ev_lightPort {Q0 : StatePart → Bool} (hp0 : Need Q0 [.host, .ports, .subs, .regs, .out]) {s0 s : State} (ev : Ev Q0 s0 s) (p : Nat) : Ev Q0 s0 (State.lightPort s p) := by
  unfold State.lightPort
  repeat' first | with_reducible assumption | exact Need.sub hp0 rfl | ((try lift_lets -underBinder); intro x; first | (refine Ev.cut (P := Q0) (s0 := s0) (x := x) ?_ (fun hx => ?_); unfold x) | (refine Ev.cutP (P := Q0) (s0 := s0) (x := x) (by unfold x; exact rfl) ?_ (fun hx => ?_)) | skip) | with_reducible apply State.ev_modPort | with_reducible apply State.ev_enterSub | with_reducible apply State.ev_toLight | with_reducible apply State.ev_setLit | with_reducible refine Ev.foldl _ (fun st a hst => ?_) _ _ ?_ | with_reducible refine Ev.foldlP _ (fun st a hst => ?_) _ _ ?_ | split

theorem State.ev_quarantine {Q0 : StatePart → Bool} (hp0 : Need Q0 [.host, .ports, .subs, .regs, .out]) {s0 s : State} (ev : Ev Q0 s0 s) (p : Nat) (q : Nat) (cause : Nat) : Ev Q0 s0 (State.quarantine s p q cause) := by
  unfold State.quarantine
  repeat' first | with_reducible assumption | exact Need.sub hp0 rfl | with_reducible apply State.ev_bumpSat | with_reducible apply State.ev_enterSub

theorem State.ev_startIdent {Q0 : StatePart → Bool} (hp0 : Need Q0 [.subs, .freeCtr]) {s0 s : State} (ev : Ev Q0 s0 s) (p : Nat) (q : Nat) : Ev Q0 s0 (State.startIdent s p q) := by
  unfold State.startIdent
  repeat' first | with_reducible assumption | exact Need.sub hp0 rfl | ((try lift_lets -underBinder); intro x; first | (refine Ev.cut (P := Q0) (s0 := s0) (x := x) ?_ (fun hx => ?_); unfold x) | (refine Ev.cutP (P := Q0) (s0 := s0) (x := x) (by unfold x; exact rfl) ?_ (fun hx => ?_)) | skip) | with_reducible apply State.ev_modSub | with_reducible apply State.ev_drew

theorem State.ev_sourceCheck {Q0 : StatePart → Bool} (hp0 : Need Q0 [.regs]) {s0 s : State} (ev : Ev Q0 s0 s)  : Ev Q0 s0 (State.sourceCheck s) := by
  unfold State.sourceCheck
  repeat' first | with_reducible assumption | exact Need.sub hp0 rfl | ((try lift_lets -underBinder); intro x; first | (refine Ev.cut (P := Q0) (s0 := s0) (x := x) ?_ (fun hx => ?_); unfold x) | (refine Ev.cutP (P := Q0) (s0 := s0) (x := x) (by unfold x; exact rfl) ?_ (fun hx => ?_)) | skip) | with_reducible apply State.ev_setF | split

theorem State.ev_goActive {Q0 : StatePart → Bool} (hp0 : Need Q0 [.host, .ports, .subs, .regs, .out]) {s0 s : State} (ev : Ev Q0 s0 s) (p : Nat) (q : Nat) : Ev Q0 s0 (State.goActive s p q) := by
  unfold State.goActive
  repeat' first | with_reducible assumption | exact Need.sub hp0 rfl | ((try lift_lets -underBinder); intro x; first | (refine Ev.cut (P := Q0) (s0 := s0) (x := x) ?_ (fun hx => ?_); unfold x) | (refine Ev.cutP (P := Q0) (s0 := s0) (x := x) (by unfold x; exact rfl) ?_ (fun hx => ?_)) | skip) | with_reducible apply State.ev_sourceCheck | with_reducible apply State.ev_enterSub | with_reducible apply State.ev_setSub | split

theorem State.ev_learnPresets {Q0 : StatePart → Bool} (hp0 : Need Q0 [.regs]) {s0 s : State} (ev : Ev Q0 s0 s) (p : Nat) : Ev Q0 s0 (State.learnPresets s p) := by
  unfold State.learnPresets
  repeat' first | with_reducible assumption | exact Need.sub hp0 rfl | ((try lift_lets -underBinder); intro x; first | (refine Ev.cut (P := Q0) (s0 := s0) (x := x) ?_ (fun hx => ?_); unfold x) | (refine Ev.cutP (P := Q0) (s0 := s0) (x := x) (by unfold x; exact rfl) ?_ (fun hx => ?_)) | skip) | with_reducible apply State.ev_setPreWord | with_reducible refine Ev.foldl _ (fun st a hst => ?_) _ _ ?_ | with_reducible refine Ev.foldlP _ (fun st a hst => ?_) _ _ ?_ | split

theorem State.ev_endIdent {Q0 : StatePart → Bool} (hp0 : Need Q0 [.host, .ports, .subs, .regs, .out]) {s0 s : State} (ev : Ev Q0 s0 s) (p : Nat) (q : Nat) : Ev Q0 s0 (State.endIdent s p q) := by
  unfold State.endIdent
  repeat' first | with_reducible assumption | exact Need.sub hp0 rfl | ((try lift_lets -underBinder); intro x; first | (refine Ev.cut (P := Q0) (s0 := s0) (x := x) ?_ (fun hx => ?_); unfold x) | (refine Ev.cutP (P := Q0) (s0 := s0) (x := x) (by unfold x; exact rfl) ?_ (fun hx => ?_)) | skip) | with_reducible apply State.ev_setSub | with_reducible apply State.ev_quarantine | with_reducible apply State.ev_enterSub | with_reducible apply State.ev_learnPresets | with_reducible apply State.ev_goActive | with_reducible apply State.ev_modSub | with_reducible refine Ev.foldl _ (fun st a hst => ?_) _ _ ?_ | with_reducible refine Ev.foldlP _ (fun st a hst => ?_) _ _ ?_ | split

end Sys2Proof.Machine
end

