-- ==== Sys2Proof/Laws/EvCodewords.lean ====
section
/-! SUPPORT. The operations of Codewords.lean keep the relation Ev. -/

namespace Sys2Proof.Machine

open Sys2Proof

set_option linter.unusedVariables false

theorem State.ev_dropCell {Q0 : StatePart → Bool} (hp0 : Need Q0 [.tele, .regs]) {s0 s : State} (ev : Ev Q0 s0 s) (f : Fld) : Ev Q0 s0 (State.dropCell s f) := by
  unfold State.dropCell
  repeat' first | with_reducible assumption | exact Need.sub hp0 rfl | ((try lift_lets -underBinder); intro x; first | (refine Ev.cut (P := Q0) (s0 := s0) (x := x) ?_ (fun hx => ?_); unfold x) | (refine Ev.cutP (P := Q0) (s0 := s0) (x := x) (by unfold x; exact rfl) ?_ (fun hx => ?_)) | skip) | with_reducible apply State.ev_bumpSat | with_reducible apply Ev.upd | with_reducible apply Ev.updOut | exact Or.inl (Need.has hp0 rfl) | with_reducible exact Or.inr rfl | exact Need.has hp0 rfl | with_reducible rfl

theorem State.ev_corruption {Q0 : StatePart → Bool} (hp0 : Need Q0 [.faults]) {s0 s : State} (ev : Ev Q0 s0 s) (p : Nat) (q : Nat) : Ev Q0 s0 (State.corruption s p q).2 := by
  unfold State.corruption
  repeat' first | with_reducible assumption | exact Need.sub hp0 rfl | ((try lift_lets -underBinder); intro x; first | (refine Ev.cut (P := Q0) (s0 := s0) (x := x) ?_ (fun hx => ?_); unfold x) | (refine Ev.cutP (P := Q0) (s0 := s0) (x := x) (by unfold x; exact rfl) ?_ (fun hx => ?_)) | skip) | with_reducible apply State.ev_setFaults | split

theorem State.ev_sendWord {Q0 : StatePart → Bool} (hp0 : Need Q0 [.out]) {s0 s : State} (ev : Ev Q0 s0 s) (p : Nat) (q : Nat) (kind : Nat) (n : Nat) (bad : Nat) (lane : Nat → Nat) : Ev Q0 s0 (State.sendWord s p q kind n bad lane) := by
  unfold State.sendWord
  repeat' first | with_reducible assumption | exact Need.sub hp0 rfl | ((try lift_lets -underBinder); intro x; first | (refine Ev.cut (P := Q0) (s0 := s0) (x := x) ?_ (fun hx => ?_); unfold x) | (refine Ev.cutP (P := Q0) (s0 := s0) (x := x) (by unfold x; exact rfl) ?_ (fun hx => ?_)) | skip) | with_reducible apply State.ev_emit | with_reducible refine Ev.foldl _ (fun st a hst => ?_) _ _ ?_ | with_reducible refine Ev.foldlP _ (fun st a hst => ?_) _ _ ?_ | split

theorem State.ev_sendCtl {Q0 : StatePart → Bool} (hp0 : Need Q0 [.out]) {s0 s : State} (ev : Ev Q0 s0 s) (p : Nat) (q : Nat) (n : Nat) (bs : List Byte) : Ev Q0 s0 (State.sendCtl s p q n bs) := by
  unfold State.sendCtl
  repeat' first | with_reducible assumption | exact Need.sub hp0 rfl | with_reducible apply State.ev_sendWord

theorem State.ev_sendData {Q0 : StatePart → Bool} (hp0 : Need Q0 [.faults, .subs, .out]) {s0 s : State} (ev : Ev Q0 s0 s) (p : Nat) (q : Nat) (n : Nat) (v : Nat) : Ev Q0 s0 (State.sendData s p q n v) := by
  unfold State.sendData
  repeat' first | with_reducible assumption | exact Need.sub hp0 rfl | ((try lift_lets -underBinder); intro x; first | (refine Ev.cut (P := Q0) (s0 := s0) (x := x) ?_ (fun hx => ?_); unfold x) | (refine Ev.cutP (P := Q0) (s0 := s0) (x := x) (by unfold x; exact rfl) ?_ (fun hx => ?_)) | skip) | with_reducible apply State.ev_corruption | with_reducible apply State.ev_modSub | with_reducible apply State.ev_sendWord | split

theorem State.ev_sendTrain {Q0 : StatePart → Bool} (hp0 : Need Q0 [.out]) {s0 s : State} (ev : Ev Q0 s0 s) (p : Nat) (q : Nat) (n : Nat) : Ev Q0 s0 (State.sendTrain s p q n) := by
  unfold State.sendTrain
  repeat' first | with_reducible assumption | exact Need.sub hp0 rfl | ((try lift_lets -underBinder); intro x; first | (refine Ev.cut (P := Q0) (s0 := s0) (x := x) ?_ (fun hx => ?_); unfold x) | (refine Ev.cutP (P := Q0) (s0 := s0) (x := x) (by unfold x; exact rfl) ?_ (fun hx => ?_)) | skip) | with_reducible apply State.ev_sendWord

theorem State.ev_sendCells {Q0 : StatePart → Bool} (hp0 : Need Q0 [.faults, .subs, .out]) {s0 s : State} (ev : Ev Q0 s0 s) (p : Nat) (q : Nat) (n : Nat) : Ev Q0 s0 (State.sendCells s p q n) := by
  unfold State.sendCells
  repeat' first | with_reducible assumption | exact Need.sub hp0 rfl | ((try lift_lets -underBinder); intro x; first | (refine Ev.cut (P := Q0) (s0 := s0) (x := x) ?_ (fun hx => ?_); unfold x) | (refine Ev.cutP (P := Q0) (s0 := s0) (x := x) (by unfold x; exact rfl) ?_ (fun hx => ?_)) | skip) | with_reducible apply State.ev_sendCtl | with_reducible apply State.ev_sendData | with_reducible apply State.ev_setSub | split

theorem State.ev_sendQueued {Q0 : StatePart → Bool} (hp0 : Need Q0 [.faults, .subs, .out]) {s0 s : State} (ev : Ev Q0 s0 s) (p : Nat) (q : Nat) (n : Nat) : Ev Q0 s0 (State.sendQueued s p q n) := by
  unfold State.sendQueued
  repeat' first | with_reducible assumption | exact Need.sub hp0 rfl | ((try lift_lets -underBinder); intro x; first | (refine Ev.cut (P := Q0) (s0 := s0) (x := x) ?_ (fun hx => ?_); unfold x) | (refine Ev.cutP (P := Q0) (s0 := s0) (x := x) (by unfold x; exact rfl) ?_ (fun hx => ?_)) | skip) | with_reducible apply State.ev_sendCtl | with_reducible apply State.ev_setSub | with_reducible apply State.ev_sendData | with_reducible apply State.ev_sendCells | split

theorem State.ev_sendNext {Q0 : StatePart → Bool} (hp0 : Need Q0 [.faults, .subs, .regs, .out]) {s0 s : State} (ev : Ev Q0 s0 s) (p : Nat) (q : Nat) (n : Nat) : Ev Q0 s0 (State.sendNext s p q n) := by
  unfold State.sendNext
  repeat' first | with_reducible assumption | exact Need.sub hp0 rfl | ((try lift_lets -underBinder); intro x; first | (refine Ev.cut (P := Q0) (s0 := s0) (x := x) ?_ (fun hx => ?_); unfold x) | (refine Ev.cutP (P := Q0) (s0 := s0) (x := x) (by unfold x; exact rfl) ?_ (fun hx => ?_)) | skip) | with_reducible apply State.ev_sendCtl | with_reducible apply State.ev_setSub | with_reducible apply State.ev_bumpSat | with_reducible apply State.ev_sendQueued | split

theorem State.ev_showMap {Q0 : StatePart → Bool} (hp0 : Need Q0 [.subs, .regs]) {s0 s : State} (ev : Ev Q0 s0 s) (p : Nat) (q : Nat) (u0 : SubPort) (u : SubPort) : Ev Q0 s0 (State.showMap s p q u0 u) := by
  unfold State.showMap
  repeat' first | with_reducible assumption | exact Need.sub hp0 rfl | ((try lift_lets -underBinder); intro x; first | (refine Ev.cut (P := Q0) (s0 := s0) (x := x) ?_ (fun hx => ?_); unfold x) | (refine Ev.cutP (P := Q0) (s0 := s0) (x := x) (by unfold x; exact rfl) ?_ (fun hx => ?_)) | skip) | with_reducible apply State.ev_setSub | with_reducible apply State.ev_showSpares | with_reducible apply State.ev_showSub | split

theorem State.ev_takeCells {Q0 : StatePart → Bool} (hp0 : Need Q0 [.subs, .tele, .regs]) {s0 s : State} (ev : Ev Q0 s0 s) (p : Nat) (q : Nat) (x3 : Nat) : Ev Q0 s0 (State.takeCells s p q x3) := by
  induction x3 generalizing s with
  | zero => unfold State.takeCells; repeat' first | with_reducible assumption | exact Need.sub hp0 rfl | ((try lift_lets -underBinder); intro x; first | (refine Ev.cut (P := Q0) (s0 := s0) (x := x) ?_ (fun hx => ?_); unfold x) | (refine Ev.cutP (P := Q0) (s0 := s0) (x := x) (by unfold x; exact rfl) ?_ (fun hx => ?_)) | skip) | with_reducible apply State.ev_setSub | with_reducible apply State.ev_dropCell | with_reducible apply State.ev_modSub | with_reducible apply State.ev_bumpWrap | split
  | succ k ih =>
    unfold State.takeCells
    repeat' first | with_reducible assumption | exact Need.sub hp0 rfl | ((try lift_lets -underBinder); intro x; first | (refine Ev.cut (P := Q0) (s0 := s0) (x := x) ?_ (fun hx => ?_); unfold x) | (refine Ev.cutP (P := Q0) (s0 := s0) (x := x) (by unfold x; exact rfl) ?_ (fun hx => ?_)) | skip) | with_reducible apply State.ev_setSub | with_reducible apply State.ev_dropCell | with_reducible apply State.ev_modSub | with_reducible apply State.ev_bumpWrap | split | apply ih

theorem State.ev_takeData {Q0 : StatePart → Bool} (hp0 : Need Q0 [.subs, .tele, .regs]) {s0 s : State} (ev : Ev Q0 s0 s) (p : Nat) (q : Nat) (n : Nat) (v : Nat) (bits : Nat) : Ev Q0 s0 (State.takeData s p q n v bits) := by
  unfold State.takeData
  repeat' first | with_reducible assumption | exact Need.sub hp0 rfl | ((try lift_lets -underBinder); intro x; first | (refine Ev.cut (P := Q0) (s0 := s0) (x := x) ?_ (fun hx => ?_); unfold x) | (refine Ev.cutP (P := Q0) (s0 := s0) (x := x) (by unfold x; exact rfl) ?_ (fun hx => ?_)) | skip) | with_reducible apply State.ev_takeCells | with_reducible apply State.ev_setSub | split

theorem State.ev_failWord {Q0 : StatePart → Bool} (hp0 : Need Q0 [.subs]) {s0 s : State} (ev : Ev Q0 s0 s) (p : Nat) (q : Nat) (n : Nat) : Ev Q0 s0 (State.failWord s p q n) := by
  unfold State.failWord
  repeat' first | with_reducible assumption | exact Need.sub hp0 rfl | with_reducible apply State.ev_modSub | split

theorem State.ev_takeCtl {Q0 : StatePart → Bool} (hp0 : Need Q0 [.subs]) {s0 s : State} (ev : Ev Q0 s0 s) (p : Nat) (q : Nat) (v : Nat) : Ev Q0 s0 (State.takeCtl s p q v) := by
  unfold State.takeCtl
  repeat' first | with_reducible assumption | exact Need.sub hp0 rfl | ((try lift_lets -underBinder); intro x; first | (refine Ev.cut (P := Q0) (s0 := s0) (x := x) ?_ (fun hx => ?_); unfold x) | (refine Ev.cutP (P := Q0) (s0 := s0) (x := x) (by unfold x; exact rfl) ?_ (fun hx => ?_)) | skip) | with_reducible apply State.ev_modSub | split

theorem State.ev_rxCount {Q0 : StatePart → Bool} (hp0 : Need Q0 [.ports, .subs, .regs]) {s0 s : State} (ev : Ev Q0 s0 s) (p : Nat) (q : Nat) (words : List RxWord) : Ev Q0 s0 (State.rxCount s p q words) := by
  unfold State.rxCount
  repeat' first | with_reducible assumption | exact Need.sub hp0 rfl | ((try lift_lets -underBinder); intro x; first | (refine Ev.cut (P := Q0) (s0 := s0) (x := x) ?_ (fun hx => ?_); unfold x) | (refine Ev.cutP (P := Q0) (s0 := s0) (x := x) (by unfold x; exact rfl) ?_ (fun hx => ?_)) | skip) | with_reducible apply State.ev_modSub | with_reducible apply State.ev_modPort | with_reducible apply State.ev_bumpSat | split

theorem State.ev_takeType {Q0 : StatePart → Bool} (hp0 : Need Q0 [.subs]) {s0 s : State} (ev : Ev Q0 s0 s) (p : Nat) (q : Nat) (t : Nat) {r : List Sys2Proof.Byte} {sT : State} (e : (State.takeType s p q t) = some (r, sT)) : Ev Q0 s0 sT := by
  unfold State.takeType at e
  (try dsimp only at e)
  repeat' split at e
  all_goals cases e
  all_goals repeat' first | with_reducible assumption | exact Need.sub hp0 rfl | with_reducible apply State.ev_modSub

theorem State.ev_nakLost {Q0 : StatePart → Bool} (hp0 : Need Q0 [.host, .log, .ports, .subs, .regs, .out]) {s0 s : State} (ev : Ev Q0 s0 s) (p : Nat) (q : Nat) : Ev Q0 s0 (State.nakLost s p q) := by
  unfold State.nakLost
  repeat' first | with_reducible assumption | exact Need.sub hp0 rfl | ((try lift_lets -underBinder); intro x; first | (refine Ev.cut (P := Q0) (s0 := s0) (x := x) ?_ (fun hx => ?_); unfold x) | (refine Ev.cutP (P := Q0) (s0 := s0) (x := x) (by unfold x; exact rfl) ?_ (fun hx => ?_)) | skip) | with_reducible apply State.ev_portRec | with_reducible apply State.ev_enterSub | with_reducible apply State.ev_modSub

theorem execCodewordTransmit_ev {Q0 : StatePart → Bool} (hp0 : Need Q0 [.faults, .subs, .regs, .out]) {s0 s : State} (ev : Ev Q0 s0 s) (port : Port) (sub : Sub) : ∃ t, (execCodewordTransmit port sub s) = .next t ∧ Ev Q0 s0 t := by
  unfold execCodewordTransmit
  refine ⟨_, rfl, ?_⟩
  repeat' first | with_reducible assumption | exact Need.sub hp0 rfl | ((try lift_lets -underBinder); intro x; first | (refine Ev.cut (P := Q0) (s0 := s0) (x := x) ?_ (fun hx => ?_); unfold x) | (refine Ev.cutP (P := Q0) (s0 := s0) (x := x) (by unfold x; exact rfl) ?_ (fun hx => ?_)) | skip) | with_reducible apply State.ev_showKey | with_reducible apply State.ev_showMap | with_reducible apply State.ev_sendTrain | with_reducible apply State.ev_sendCtl | with_reducible apply State.ev_sendNext | split

theorem execCodewordReceive_ev {Q0 : StatePart → Bool} (hp0 : Need Q0 [.ports, .subs, .tele, .regs]) {s0 s : State} (ev : Ev Q0 s0 s) (port : Port) (sub : Sub) (n : DWord) (lanes : List (Option (List (BitVec 10)))) : ∃ t, (execCodewordReceive port sub n lanes s) = .next t ∧ Ev Q0 s0 t := by
  unfold execCodewordReceive
  refine ⟨_, rfl, ?_⟩
  repeat' first | with_reducible assumption | exact Need.sub hp0 rfl | ((try lift_lets -underBinder); intro x; first | (refine Ev.cut (P := Q0) (s0 := s0) (x := x) ?_ (fun hx => ?_); unfold x) | (refine Ev.cutP (P := Q0) (s0 := s0) (x := x) (by unfold x; exact rfl) ?_ (fun hx => ?_)) | skip) | with_reducible apply State.ev_rxCount | with_reducible apply State.ev_modSub | with_reducible apply State.ev_takeCtl | with_reducible apply State.ev_failWord | with_reducible apply State.ev_takeData | with_reducible apply State.ev_bumpSat | split

theorem execFillReceive_ev {Q0 : StatePart → Bool} (hp0 : Need Q0 [.subs]) {s0 s : State} (ev : Ev Q0 s0 s) (port : Port) (sub : Sub) : ∃ t, (execFillReceive port sub s) = .next t ∧ Ev Q0 s0 t := by
  unfold execFillReceive
  refine ⟨_, rfl, ?_⟩
  repeat' first | with_reducible assumption | exact Need.sub hp0 rfl | refine State.ev_takeType (Need.sub hp0 rfl) ?_ _ _ _ (he.trans (by with_reducible assumption)) | with_reducible refine State.ev_takeType (Need.sub hp0 rfl) ?_ _ _ _ (by with_reducible assumption) | split

theorem execNakReceive_ev {Q0 : StatePart → Bool} (hp0 : Need Q0 [.host, .log, .ports, .subs, .regs, .out]) {s0 s : State} (ev : Ev Q0 s0 s) (port : Port) (sub : Sub) : ∃ t, (execNakReceive port sub s) = .next t ∧ Ev Q0 s0 t := by
  unfold execNakReceive
  refine ⟨_, rfl, ?_⟩
  repeat' first | with_reducible assumption | exact Need.sub hp0 rfl | ((try lift_lets -underBinder); intro x; first | (refine Ev.cut (P := Q0) (s0 := s0) (x := x) ?_ (fun hx => ?_); unfold x) | (refine Ev.cutP (P := Q0) (s0 := s0) (x := x) (by unfold x; exact rfl) ?_ (fun hx => ?_)) | skip) | with_reducible apply State.ev_modSub | with_reducible apply State.ev_bumpSat | with_reducible apply State.ev_nakLost | with_reducible apply State.ev_setSub | refine State.ev_takeType (Need.sub hp0 rfl) ?_ _ _ _ (he.trans (by with_reducible assumption)) | with_reducible refine State.ev_takeType (Need.sub hp0 rfl) ?_ _ _ _ (by with_reducible assumption) | split

theorem execReplayReceive_ev {Q0 : StatePart → Bool} (hp0 : Need Q0 [.subs]) {s0 s : State} (ev : Ev Q0 s0 s) (port : Port) (sub : Sub) : ∃ t, (execReplayReceive port sub s) = .next t ∧ Ev Q0 s0 t := by
  unfold execReplayReceive
  refine ⟨_, rfl, ?_⟩
  repeat' first | with_reducible assumption | exact Need.sub hp0 rfl | with_reducible apply State.ev_modSub | refine State.ev_takeType (Need.sub hp0 rfl) ?_ _ _ _ (he.trans (by with_reducible assumption)) | with_reducible refine State.ev_takeType (Need.sub hp0 rfl) ?_ _ _ _ (by with_reducible assumption) | split

theorem execNakLost_ev {Q0 : StatePart → Bool} (hp0 : Need Q0 [.host, .log, .ports, .subs, .regs, .out]) {s0 s : State} (ev : Ev Q0 s0 s) (port : Port) (sub : Sub) : ∃ t, (execNakLost port sub s) = .next t ∧ Ev Q0 s0 t := by
  unfold execNakLost
  refine ⟨_, rfl, ?_⟩
  repeat' first | with_reducible assumption | exact Need.sub hp0 rfl | with_reducible apply State.ev_nakLost | split

end Sys2Proof.Machine
end

