-- ==== Sys2Proof/Laws/EvTraining.lean ====
section
/-! SUPPORT. The operations of Training.lean keep the relation Ev. -/

namespace Sys2Proof.Machine

open Sys2Proof

set_option linter.unusedVariables false

theorem State.ev_authDone {Q0 : StatePart → Bool} (hp0 : Need Q0 [.host, .ports, .subs, .regs, .out]) {s0 s : State} (ev : Ev Q0 s0 s) (p : Nat) (q : Nat) : Ev Q0 s0 (State.authDone s p q) := by
  unfold State.authDone
  repeat' first | with_reducible assumption | exact Need.sub hp0 rfl | ((try lift_lets -underBinder); intro x; first | (refine Ev.cut (P := Q0) (s0 := s0) (x := x) ?_ (fun hx => ?_); unfold x) | (refine Ev.cutP (P := Q0) (s0 := s0) (x := x) (by unfold x; exact rfl) ?_ (fun hx => ?_)) | skip) | with_reducible apply State.ev_setSub | with_reducible apply State.ev_modSub | with_reducible apply State.ev_enterSub | with_reducible apply State.ev_endIdent | split

theorem State.ev_mapFrom {Q0 : StatePart → Bool} (hp0 : Need Q0 [.subs]) {s0 s : State} (ev : Ev Q0 s0 s) (p : Nat) (q : Nat) (n : Nat) (m : List Nat) : Ev Q0 s0 (State.mapFrom s p q n m) := by
  unfold State.mapFrom
  repeat' first | with_reducible assumption | exact Need.sub hp0 rfl | with_reducible apply State.ev_modSub

theorem State.ev_announceMap {Q0 : StatePart → Bool} (hp0 : Need Q0 [.subs]) {s0 s : State} (ev : Ev Q0 s0 s) (p : Nat) (q : Nat) (m : List Nat) : Ev Q0 s0 (State.announceMap s p q m) := by
  unfold State.announceMap
  repeat' first | with_reducible assumption | exact Need.sub hp0 rfl | with_reducible apply State.ev_mapFrom

theorem State.ev_failChan {Q0 : StatePart → Bool} (hp0 : Need Q0 [.regs]) {s0 s : State} (ev : Ev Q0 s0 s) (p : Nat) (c : Nat) (rx : Bool) : Ev Q0 s0 (State.failChan s p c rx) := by
  unfold State.failChan
  repeat' first | with_reducible assumption | exact Need.sub hp0 rfl | with_reducible apply State.ev_setF | split

theorem State.ev_startTuning {Q0 : StatePart → Bool} (hp0 : Need Q0 [.ports, .regs]) {s0 s : State} (ev : Ev Q0 s0 s) (p : Nat) (l : Nat) (c : Nat) : Ev Q0 s0 (State.startTuning s p l c) := by
  unfold State.startTuning
  repeat' first | with_reducible assumption | exact Need.sub hp0 rfl | with_reducible apply State.ev_bumpSat | with_reducible apply State.ev_modPort

theorem State.ev_relane {Q0 : StatePart → Bool} (hp0 : Need Q0 [.host, .ports, .subs, .regs, .out]) {s0 s : State} (ev : Ev Q0 s0 s) (p : Nat) (was : List Nat) : Ev Q0 s0 (State.relane s p was) := by
  unfold State.relane
  repeat' first | with_reducible assumption | exact Need.sub hp0 rfl | with_reducible apply State.ev_announceMap | with_reducible apply State.ev_bumpSat | with_reducible apply State.ev_toLight | split

theorem State.ev_darkSub {Q0 : StatePart → Bool} (hp0 : Need Q0 [.host, .ports, .subs, .regs, .out]) {s0 s : State} (ev : Ev Q0 s0 s) (p : Nat) (q : Nat) : Ev Q0 s0 (State.darkSub s p q) := by
  unfold State.darkSub
  repeat' first | with_reducible assumption | exact Need.sub hp0 rfl | ((try lift_lets -underBinder); intro x; first | (refine Ev.cut (P := Q0) (s0 := s0) (x := x) ?_ (fun hx => ?_); unfold x) | (refine Ev.cutP (P := Q0) (s0 := s0) (x := x) (by unfold x; exact rfl) ?_ (fun hx => ?_)) | skip) | with_reducible apply State.ev_enterSub | with_reducible apply State.ev_modSub

theorem State.ev_sublinkFail {Q0 : StatePart → Bool} (hp0 : Need Q0 [.host, .ports, .subs, .regs, .out]) {s0 s : State} (ev : Ev Q0 s0 s) (p : Nat) (c : Nat) (laser : Bool) : Ev Q0 s0 (State.sublinkFail s p c laser) := by
  unfold State.sublinkFail
  repeat' first | with_reducible assumption | exact Need.sub hp0 rfl | ((try lift_lets -underBinder); intro x; first | (refine Ev.cut (P := Q0) (s0 := s0) (x := x) ?_ (fun hx => ?_); unfold x) | (refine Ev.cutP (P := Q0) (s0 := s0) (x := x) (by unfold x; exact rfl) ?_ (fun hx => ?_)) | skip) | with_reducible apply State.ev_startTuning | with_reducible apply State.ev_enterSub | with_reducible apply State.ev_darkSub | split

theorem State.ev_laneFail {Q0 : StatePart → Bool} (hp0 : Need Q0 [.host, .ports, .subs, .regs, .out]) {s0 s : State} (ev : Ev Q0 s0 s) (p : Nat) (c : Nat) (rx : Bool) (laser : Bool) : Ev Q0 s0 (State.laneFail s p c rx laser) := by
  unfold State.laneFail
  repeat' first | with_reducible assumption | exact Need.sub hp0 rfl | ((try lift_lets -underBinder); intro x; first | (refine Ev.cut (P := Q0) (s0 := s0) (x := x) ?_ (fun hx => ?_); unfold x) | (refine Ev.cutP (P := Q0) (s0 := s0) (x := x) (by unfold x; exact rfl) ?_ (fun hx => ?_)) | skip) | with_reducible apply State.ev_failChan | with_reducible apply State.ev_sublinkFail | with_reducible apply State.ev_relane | with_reducible apply State.ev_startTuning | split

theorem State.ev_tunedLaser {Q0 : StatePart → Bool} (hp0 : Need Q0 [.ports, .regs]) {s0 s : State} (ev : Ev Q0 s0 s) (p : Nat) (l : Nat) (c : Nat) : Ev Q0 s0 (State.tunedLaser s p l c) := by
  unfold State.tunedLaser
  repeat' first | with_reducible assumption | exact Need.sub hp0 rfl | ((try lift_lets -underBinder); intro x; first | (refine Ev.cut (P := Q0) (s0 := s0) (x := x) ?_ (fun hx => ?_); unfold x) | (refine Ev.cutP (P := Q0) (s0 := s0) (x := x) (by unfold x; exact rfl) ?_ (fun hx => ?_)) | skip) | with_reducible apply State.ev_modPort | with_reducible apply State.ev_setF | split

theorem State.ev_adoptMap {Q0 : StatePart → Bool} (hp0 : Need Q0 [.host, .ports, .subs, .regs, .out]) {s0 s : State} (ev : Ev Q0 s0 s) (p : Nat) (q : Nat) (n : Nat) (m : List Nat) : Ev Q0 s0 (State.adoptMap s p q n m) := by
  unfold State.adoptMap
  repeat' first | with_reducible assumption | exact Need.sub hp0 rfl | ((try lift_lets -underBinder); intro x; first | (refine Ev.cut (P := Q0) (s0 := s0) (x := x) ?_ (fun hx => ?_); unfold x) | (refine Ev.cutP (P := Q0) (s0 := s0) (x := x) (by unfold x; exact rfl) ?_ (fun hx => ?_)) | skip) | with_reducible apply State.ev_relane | with_reducible apply State.ev_mapFrom | with_reducible apply State.ev_bumpSat | split

theorem State.ev_heaterRing {Q0 : StatePart → Bool} (hp0 : Need Q0 [.host, .ports, .subs, .regs, .out]) {s0 s : State} (ev : Ev Q0 s0 s) (p : Nat) (ff : Int) (r : Chan × Bool × Int × Int) : Ev Q0 s0 (State.heaterRing p ff s r) := by
  unfold State.heaterRing
  repeat' first | with_reducible assumption | exact Need.sub hp0 rfl | ((try lift_lets -underBinder); intro x; first | (refine Ev.cut (P := Q0) (s0 := s0) (x := x) ?_ (fun hx => ?_); unfold x) | (refine Ev.cutP (P := Q0) (s0 := s0) (x := x) (by unfold x; exact rfl) ?_ (fun hx => ?_)) | skip) | with_reducible apply State.ev_modPort | with_reducible apply State.ev_laneFail | split

theorem State.ev_laserEol {Q0 : StatePart → Bool} (hp0 : Need Q0 [.host, .ports, .subs, .regs, .out]) {s0 s : State} (ev : Ev Q0 s0 s) (p : Nat) (c : Nat) : Ev Q0 s0 (State.laserEol p s c) := by
  unfold State.laserEol
  repeat' first | with_reducible assumption | exact Need.sub hp0 rfl | with_reducible apply State.ev_laneFail | with_reducible apply State.ev_modPort | split

theorem State.ev_beginSwing {Q0 : StatePart → Bool} (hp0 : Need Q0 [.subs, .regs]) {s0 s : State} (ev : Ev Q0 s0 s) (p : Nat) (k : Nat) (ts : Nat) : Ev Q0 s0 (State.beginSwing s p k ts) := by
  unfold State.beginSwing
  repeat' first | with_reducible assumption | exact Need.sub hp0 rfl | with_reducible apply State.ev_bumpSat | with_reducible apply State.ev_showSub | with_reducible apply State.ev_setF | with_reducible apply State.ev_modSub | split

theorem State.ev_loadSwing {Q0 : StatePart → Bool} (hp0 : Need Q0 [.host, .ports, .subs, .regs, .out]) {s0 s : State} (ev : Ev Q0 s0 s) (p : Nat) : Ev Q0 s0 (State.loadSwing s p) := by
  unfold State.loadSwing
  repeat' first | with_reducible assumption | exact Need.sub hp0 rfl | ((try lift_lets -underBinder); intro x; first | (refine Ev.cut (P := Q0) (s0 := s0) (x := x) ?_ (fun hx => ?_); unfold x) | (refine Ev.cutP (P := Q0) (s0 := s0) (x := x) (by unfold x; exact rfl) ?_ (fun hx => ?_)) | skip) | with_reducible apply State.ev_setF | with_reducible apply State.ev_modSub | with_reducible apply State.ev_enterSub | with_reducible apply State.ev_toLight | split

theorem execTrainReceive_ev {Q0 : StatePart → Bool} (hp0 : Need Q0 [.host, .ports, .subs, .regs, .out]) {s0 s : State} (ev : Ev Q0 s0 s) (port : Port) (sub : Sub) : ∃ t, (execTrainReceive port sub s) = .next t ∧ Ev Q0 s0 t := by
  unfold execTrainReceive
  refine ⟨_, rfl, ?_⟩
  repeat' first | with_reducible assumption | exact Need.sub hp0 rfl | ((try lift_lets -underBinder); intro x; first | (refine Ev.cut (P := Q0) (s0 := s0) (x := x) ?_ (fun hx => ?_); unfold x) | (refine Ev.cutP (P := Q0) (s0 := s0) (x := x) (by unfold x; exact rfl) ?_ (fun hx => ?_)) | skip) | with_reducible apply State.ev_enterSub | refine State.ev_takeType (Need.sub hp0 rfl) ?_ _ _ _ (he.trans (by with_reducible assumption)) | with_reducible refine State.ev_takeType (Need.sub hp0 rfl) ?_ _ _ _ (by with_reducible assumption) | split

theorem execLockAcquired_ev {Q0 : StatePart → Bool} (hp0 : Need Q0 [.host, .ports, .subs, .regs, .out, .freeCtr]) {s0 s : State} (ev : Ev Q0 s0 s) (port : Port) (sub : Sub) (ok : BitVec 18) (lanes : List (Chan × Byte × Byte × BitVec 12)) : ∃ t, (execLockAcquired port sub ok lanes s) = .next t ∧ Ev Q0 s0 t := by
  unfold execLockAcquired
  refine ⟨_, rfl, ?_⟩
  repeat' first | with_reducible assumption | exact Need.sub hp0 rfl | ((try lift_lets -underBinder); intro x; first | (refine Ev.cut (P := Q0) (s0 := s0) (x := x) ?_ (fun hx => ?_); unfold x) | (refine Ev.cutP (P := Q0) (s0 := s0) (x := x) (by unfold x; exact rfl) ?_ (fun hx => ?_)) | skip) | with_reducible apply State.ev_setSub | with_reducible apply State.ev_startIdent | with_reducible apply State.ev_enterSub | with_reducible apply State.ev_showSpares | with_reducible refine Ev.foldl _ (fun st a hst => ?_) _ _ ?_ | with_reducible refine Ev.foldlP _ (fun st a hst => ?_) _ _ ?_ | split

theorem execLockTimeout_ev {Q0 : StatePart → Bool} (hp0 : Need Q0 [.host, .ports, .subs, .regs, .out]) {s0 s : State} (ev : Ev Q0 s0 s) (port : Port) (sub : Sub) : ∃ t, (execLockTimeout port sub s) = .next t ∧ Ev Q0 s0 t := by
  unfold execLockTimeout
  refine ⟨_, rfl, ?_⟩
  repeat' first | with_reducible assumption | exact Need.sub hp0 rfl | ((try lift_lets -underBinder); intro x; first | (refine Ev.cut (P := Q0) (s0 := s0) (x := x) ?_ (fun hx => ?_); unfold x) | (refine Ev.cutP (P := Q0) (s0 := s0) (x := x) (by unfold x; exact rfl) ?_ (fun hx => ?_)) | skip) | with_reducible apply State.ev_toLight | split

theorem execIdentTimeout_ev {Q0 : StatePart → Bool} (hp0 : Need Q0 [.host, .ports, .subs, .regs, .out]) {s0 s : State} (ev : Ev Q0 s0 s) (port : Port) (sub : Sub) : ∃ t, (execIdentTimeout port sub s) = .next t ∧ Ev Q0 s0 t := by
  unfold execIdentTimeout
  refine ⟨_, rfl, ?_⟩
  repeat' first | with_reducible assumption | exact Need.sub hp0 rfl | ((try lift_lets -underBinder); intro x; first | (refine Ev.cut (P := Q0) (s0 := s0) (x := x) ?_ (fun hx => ?_); unfold x) | (refine Ev.cutP (P := Q0) (s0 := s0) (x := x) (by unfold x; exact rfl) ?_ (fun hx => ?_)) | skip) | with_reducible apply State.ev_bumpSat | with_reducible apply State.ev_toLight | split

theorem execNoLightTimeout_ev {Q0 : StatePart → Bool} (hp0 : Need Q0 [.host, .ports, .subs, .regs, .out]) {s0 s : State} (ev : Ev Q0 s0 s) (port : Port) (sub : Sub) : ∃ t, (execNoLightTimeout port sub s) = .next t ∧ Ev Q0 s0 t := by
  unfold execNoLightTimeout
  refine ⟨_, rfl, ?_⟩
  repeat' first | with_reducible assumption | exact Need.sub hp0 rfl | ((try lift_lets -underBinder); intro x; first | (refine Ev.cut (P := Q0) (s0 := s0) (x := x) ?_ (fun hx => ?_); unfold x) | (refine Ev.cutP (P := Q0) (s0 := s0) (x := x) (by unfold x; exact rfl) ?_ (fun hx => ?_)) | skip) | with_reducible apply State.ev_toLight | split

theorem execNakStorm_ev {Q0 : StatePart → Bool} (hp0 : Need Q0 [.host, .ports, .subs, .regs, .out]) {s0 s : State} (ev : Ev Q0 s0 s) (port : Port) (sub : Sub) : ∃ t, (execNakStorm port sub s) = .next t ∧ Ev Q0 s0 t := by
  unfold execNakStorm
  refine ⟨_, rfl, ?_⟩
  repeat' first | with_reducible assumption | exact Need.sub hp0 rfl | ((try lift_lets -underBinder); intro x; first | (refine Ev.cut (P := Q0) (s0 := s0) (x := x) ?_ (fun hx => ?_); unfold x) | (refine Ev.cutP (P := Q0) (s0 := s0) (x := x) (by unfold x; exact rfl) ?_ (fun hx => ?_)) | skip) | with_reducible apply State.ev_toLight | split

theorem execIdentReceive_ev {Q0 : StatePart → Bool} (hp0 : Need Q0 [.host, .ports, .subs, .regs, .out, .freeCtr]) {s0 s : State} (ev : Ev Q0 s0 s) (port : Port) (sub : Sub) : ∃ t, (execIdentReceive port sub s) = .next t ∧ Ev Q0 s0 t := by
  unfold execIdentReceive
  refine ⟨_, rfl, ?_⟩
  repeat' first | with_reducible assumption | exact Need.sub hp0 rfl | ((try lift_lets -underBinder); intro x; first | (refine Ev.cut (P := Q0) (s0 := s0) (x := x) ?_ (fun hx => ?_); unfold x) | (refine Ev.cutP (P := Q0) (s0 := s0) (x := x) (by unfold x; exact rfl) ?_ (fun hx => ?_)) | skip) | with_reducible apply State.ev_setSub | with_reducible apply State.ev_startIdent | with_reducible apply State.ev_quarantine | with_reducible apply State.ev_showSub | refine State.ev_takeType (Need.sub hp0 rfl) ?_ _ _ _ (he.trans (by with_reducible assumption)) | with_reducible refine State.ev_takeType (Need.sub hp0 rfl) ?_ _ _ _ (by with_reducible assumption) | split

theorem execCertReceive_ev {Q0 : StatePart → Bool} (hp0 : Need Q0 [.subs, .freeCtr]) {s0 s : State} (ev : Ev Q0 s0 s) (port : Port) (sub : Sub) : ∃ t, (execCertReceive port sub s) = .next t ∧ Ev Q0 s0 t := by
  unfold execCertReceive
  refine ⟨_, rfl, ?_⟩
  repeat' first | with_reducible assumption | exact Need.sub hp0 rfl | ((try lift_lets -underBinder); intro x; first | (refine Ev.cut (P := Q0) (s0 := s0) (x := x) ?_ (fun hx => ?_); unfold x) | (refine Ev.cutP (P := Q0) (s0 := s0) (x := x) (by unfold x; exact rfl) ?_ (fun hx => ?_)) | skip) | with_reducible apply State.ev_setSub | with_reducible apply State.ev_drew | refine State.ev_takeType (Need.sub hp0 rfl) ?_ _ _ _ (he.trans (by with_reducible assumption)) | with_reducible refine State.ev_takeType (Need.sub hp0 rfl) ?_ _ _ _ (by with_reducible assumption) | split

theorem execAuthReceive_ev {Q0 : StatePart → Bool} (hp0 : Need Q0 [.host, .ports, .subs, .regs, .out]) {s0 s : State} (ev : Ev Q0 s0 s) (port : Port) (sub : Sub) : ∃ t, (execAuthReceive port sub s) = .next t ∧ Ev Q0 s0 t := by
  unfold execAuthReceive
  refine ⟨_, rfl, ?_⟩
  repeat' first | with_reducible assumption | exact Need.sub hp0 rfl | ((try lift_lets -underBinder); intro x; first | (refine Ev.cut (P := Q0) (s0 := s0) (x := x) ?_ (fun hx => ?_); unfold x) | (refine Ev.cutP (P := Q0) (s0 := s0) (x := x) (by unfold x; exact rfl) ?_ (fun hx => ?_)) | skip) | with_reducible apply State.ev_authDone | with_reducible apply State.ev_quarantine | refine State.ev_takeType (Need.sub hp0 rfl) ?_ _ _ _ (he.trans (by with_reducible assumption)) | with_reducible refine State.ev_takeType (Need.sub hp0 rfl) ?_ _ _ _ (by with_reducible assumption) | split

theorem execLaneFail_ev {Q0 : StatePart → Bool} (hp0 : Need Q0 [.host, .ports, .subs, .regs, .out]) {s0 s : State} (ev : Ev Q0 s0 s) (port : Port) (chan : Chan) (rx : Bool) (laser : Bool) : ∃ t, (execLaneFail port chan rx laser s) = .next t ∧ Ev Q0 s0 t := by
  unfold execLaneFail
  refine ⟨_, rfl, ?_⟩
  repeat' first | with_reducible assumption | exact Need.sub hp0 rfl | with_reducible apply State.ev_laneFail

theorem execSpareLaserTuned_ev {Q0 : StatePart → Bool} (hp0 : Need Q0 [.host, .ports, .subs, .regs, .out]) {s0 s : State} (ev : Ev Q0 s0 s) (port : Port) (laser : Chan) : ∃ t, (execSpareLaserTuned port laser s) = .next t ∧ Ev Q0 s0 t := by
  unfold execSpareLaserTuned
  refine ⟨_, rfl, ?_⟩
  repeat' first | with_reducible assumption | exact Need.sub hp0 rfl | ((try lift_lets -underBinder); intro x; first | (refine Ev.cut (P := Q0) (s0 := s0) (x := x) ?_ (fun hx => ?_); unfold x) | (refine Ev.cutP (P := Q0) (s0 := s0) (x := x) (by unfold x; exact rfl) ?_ (fun hx => ?_)) | skip) | with_reducible apply State.ev_tunedLaser | with_reducible apply State.ev_bumpSat | with_reducible apply State.ev_goActive | with_reducible apply State.ev_announceMap | split

theorem execLanemapReceive_ev {Q0 : StatePart → Bool} (hp0 : Need Q0 [.host, .ports, .subs, .regs, .out]) {s0 s : State} (ev : Ev Q0 s0 s) (port : Port) (sub : Sub) : ∃ t, (execLanemapReceive port sub s) = .next t ∧ Ev Q0 s0 t := by
  unfold execLanemapReceive
  refine ⟨_, rfl, ?_⟩
  repeat' first | with_reducible assumption | exact Need.sub hp0 rfl | ((try lift_lets -underBinder); intro x; first | (refine Ev.cut (P := Q0) (s0 := s0) (x := x) ?_ (fun hx => ?_); unfold x) | (refine Ev.cutP (P := Q0) (s0 := s0) (x := x) (by unfold x; exact rfl) ?_ (fun hx => ?_)) | skip) | with_reducible apply State.ev_setSub | with_reducible apply State.ev_adoptMap | refine State.ev_takeType (Need.sub hp0 rfl) ?_ _ _ _ (he.trans (by with_reducible assumption)) | with_reducible refine State.ev_takeType (Need.sub hp0 rfl) ?_ _ _ _ (by with_reducible assumption) | split

theorem execHeaterUpdate_ev {Q0 : StatePart → Bool} (hp0 : Need Q0 [.host, .ports, .subs, .regs, .out]) {s0 s : State} (ev : Ev Q0 s0 s) (port : Port) (rings : List (Chan × Bool × Int × Int)) : ∃ t, (execHeaterUpdate port rings s) = .next t ∧ Ev Q0 s0 t := by
  unfold execHeaterUpdate
  refine ⟨_, rfl, ?_⟩
  repeat' first | with_reducible assumption | exact Need.sub hp0 rfl | with_reducible apply State.ev_heaterRing | with_reducible refine Ev.foldl _ (fun st a hst => ?_) _ _ ?_ | with_reducible refine Ev.foldlP _ (fun st a hst => ?_) _ _ ?_ | split

theorem execLaserBiasSet_ev {Q0 : StatePart → Bool} (hp0 : Need Q0 [.host, .ports, .subs, .regs, .out]) {s0 s : State} (ev : Ev Q0 s0 s) (port : Port) (bias : List (Chan × Half)) (eol : List Chan) : ∃ t, (execLaserBiasSet port bias eol s) = .next t ∧ Ev Q0 s0 t := by
  unfold execLaserBiasSet
  refine ⟨_, rfl, ?_⟩
  repeat' first | with_reducible assumption | exact Need.sub hp0 rfl | ((try lift_lets -underBinder); intro x; first | (refine Ev.cut (P := Q0) (s0 := s0) (x := x) ?_ (fun hx => ?_); unfold x) | (refine Ev.cutP (P := Q0) (s0 := s0) (x := x) (by unfold x; exact rfl) ?_ (fun hx => ?_)) | skip) | with_reducible apply State.ev_modPort | with_reducible apply State.ev_laserEol | with_reducible refine Ev.foldl _ (fun st a hst => ?_) _ _ ?_ | with_reducible refine Ev.foldlP _ (fun st a hst => ?_) _ _ ?_

theorem execSwingRelock_ev {Q0 : StatePart → Bool} (hp0 : Need Q0 [.subs]) {s0 s : State} (ev : Ev Q0 s0 s) (port : Port) : ∃ t, (execSwingRelock port s) = .next t ∧ Ev Q0 s0 t := by
  unfold execSwingRelock
  refine ⟨_, rfl, ?_⟩
  repeat' first | with_reducible assumption | exact Need.sub hp0 rfl | ((try lift_lets -underBinder); intro x; first | (refine Ev.cut (P := Q0) (s0 := s0) (x := x) ?_ (fun hx => ?_); unfold x) | (refine Ev.cutP (P := Q0) (s0 := s0) (x := x) (by unfold x; exact rfl) ?_ (fun hx => ?_)) | skip) | with_reducible apply State.ev_modSub | split

theorem execSwingCheckReceive_ev {Q0 : StatePart → Bool} (hp0 : Need Q0 [.host, .ports, .subs, .regs, .out]) {s0 s : State} (ev : Ev Q0 s0 s) (port : Port) (sub : Sub) : ∃ t, (execSwingCheckReceive port sub s) = .next t ∧ Ev Q0 s0 t := by
  unfold execSwingCheckReceive
  refine ⟨_, rfl, ?_⟩
  repeat' first | with_reducible assumption | exact Need.sub hp0 rfl | ((try lift_lets -underBinder); intro x; first | (refine Ev.cut (P := Q0) (s0 := s0) (x := x) ?_ (fun hx => ?_); unfold x) | (refine Ev.cutP (P := Q0) (s0 := s0) (x := x) (by unfold x; exact rfl) ?_ (fun hx => ?_)) | skip) | with_reducible apply State.ev_goActive | with_reducible apply State.ev_bumpSat | with_reducible apply State.ev_enterSub | with_reducible apply State.ev_modSub | refine State.ev_takeType (Need.sub hp0 rfl) ?_ _ _ _ (he.trans (by with_reducible assumption)) | with_reducible refine State.ev_takeType (Need.sub hp0 rfl) ?_ _ _ _ (by with_reducible assumption) | split

theorem execSwingTimeout_ev {Q0 : StatePart → Bool} (hp0 : Need Q0 [.host, .log, .ports, .subs, .regs, .out]) {s0 s : State} (ev : Ev Q0 s0 s) (port : Port) : ∃ t, (execSwingTimeout port s) = .next t ∧ Ev Q0 s0 t := by
  unfold execSwingTimeout
  refine ⟨_, rfl, ?_⟩
  repeat' first | with_reducible assumption | exact Need.sub hp0 rfl | ((try lift_lets -underBinder); intro x; first | (refine Ev.cut (P := Q0) (s0 := s0) (x := x) ?_ (fun hx => ?_); unfold x) | (refine Ev.cutP (P := Q0) (s0 := s0) (x := x) (by unfold x; exact rfl) ?_ (fun hx => ?_)) | skip) | with_reducible apply State.ev_bumpSat | with_reducible apply State.ev_toLight | with_reducible apply State.ev_portRec | split

theorem execOpenFibreShutdown_ev {Q0 : StatePart → Bool} (hp0 : Need Q0 [.host, .ports, .subs, .regs, .out, .freeCtr]) {s0 s : State} (ev : Ev Q0 s0 s) (port : Port) : ∃ t, (execOpenFibreShutdown port s) = .next t ∧ Ev Q0 s0 t := by
  unfold execOpenFibreShutdown
  refine ⟨_, rfl, ?_⟩
  repeat' first | with_reducible assumption | exact Need.sub hp0 rfl | ((try lift_lets -underBinder); intro x; first | (refine Ev.cut (P := Q0) (s0 := s0) (x := x) ?_ (fun hx => ?_); unfold x) | (refine Ev.cutP (P := Q0) (s0 := s0) (x := x) (by unfold x; exact rfl) ?_ (fun hx => ?_)) | skip) | with_reducible apply State.ev_drew | with_reducible apply State.ev_setLit | with_reducible apply State.ev_toLight | with_reducible apply State.ev_setF | with_reducible apply State.ev_modPort | with_reducible refine Ev.foldl _ (fun st a hst => ?_) _ _ ?_ | with_reducible refine Ev.foldlP _ (fun st a hst => ?_) _ _ ?_ | split

theorem execOpenFibreProbe_ev {Q0 : StatePart → Bool} (hp0 : Need Q0 [.ports, .out]) {s0 s : State} (ev : Ev Q0 s0 s) (port : Port) : ∃ t, (execOpenFibreProbe port s) = .next t ∧ Ev Q0 s0 t := by
  unfold execOpenFibreProbe
  refine ⟨_, rfl, ?_⟩
  repeat' first | with_reducible assumption | exact Need.sub hp0 rfl | ((try lift_lets -underBinder); intro x; first | (refine Ev.cut (P := Q0) (s0 := s0) (x := x) ?_ (fun hx => ?_); unfold x) | (refine Ev.cutP (P := Q0) (s0 := s0) (x := x) (by unfold x; exact rfl) ?_ (fun hx => ?_)) | skip) | with_reducible apply State.ev_emit | with_reducible apply State.ev_modPort | with_reducible refine Ev.foldl _ (fun st a hst => ?_) _ _ ?_ | with_reducible refine Ev.foldlP _ (fun st a hst => ?_) _ _ ?_ | split

theorem execOpenFibreProbeEnd_ev {Q0 : StatePart → Bool} (hp0 : Need Q0 [.ports, .out]) {s0 s : State} (ev : Ev Q0 s0 s) (port : Port) : ∃ t, (execOpenFibreProbeEnd port s) = .next t ∧ Ev Q0 s0 t := by
  unfold execOpenFibreProbeEnd
  refine ⟨_, rfl, ?_⟩
  repeat' first | with_reducible assumption | exact Need.sub hp0 rfl | with_reducible apply State.ev_emit | with_reducible apply State.ev_modPort | with_reducible refine Ev.foldl _ (fun st a hst => ?_) _ _ ?_ | with_reducible refine Ev.foldlP _ (fun st a hst => ?_) _ _ ?_ | split

theorem execFarLightDetect_ev {Q0 : StatePart → Bool} (hp0 : Need Q0 [.ports, .regs, .out]) {s0 s : State} (ev : Ev Q0 s0 s) (port : Port) : ∃ t, (execFarLightDetect port s) = .next t ∧ Ev Q0 s0 t := by
  unfold execFarLightDetect
  refine ⟨_, rfl, ?_⟩
  repeat' first | with_reducible assumption | exact Need.sub hp0 rfl | ((try lift_lets -underBinder); intro x; first | (refine Ev.cut (P := Q0) (s0 := s0) (x := x) ?_ (fun hx => ?_); unfold x) | (refine Ev.cutP (P := Q0) (s0 := s0) (x := x) (by unfold x; exact rfl) ?_ (fun hx => ?_)) | skip) | with_reducible apply State.ev_setF | with_reducible apply State.ev_modPort | with_reducible apply State.ev_setLit | split

end Sys2Proof.Machine
end

