-- ==== Sys2Proof/Laws/EvPortCmds.lean ====
section
/-! SUPPORT. The operations of PortCmds.lean keep the relation Ev. -/

namespace Sys2Proof.Machine

open Sys2Proof

set_option linter.unusedVariables false

theorem State.ev_ringAction {Q0 : StatePart → Bool} (hp0 : Need Q0 [.host, .regs, .out]) {s0 s : State} (ev : Ev Q0 s0 s) (n : Nat) (op : Nat) (i : Nat) (act : Nat) (count : Nat) (bad : Nat) (k : State → InFlight → State) (hk : ∀ x0 x1, Ev Q0 s0 x0 → Ev Q0 s0 (k x0 x1)) : Ev Q0 s0 (State.ringAction s n op i act count bad k) := by
  unfold State.ringAction
  repeat' first | with_reducible assumption | exact Need.sub hp0 rfl | with_reducible apply State.ev_finish | with_reducible apply hk | split

theorem State.ev_setEnable {Q0 : StatePart → Bool} (hp0 : Need Q0 [.regs]) {s0 s : State} (ev : Ev Q0 s0 s) (p : Nat) (on : Bool) : Ev Q0 s0 (State.setEnable s p on) := by
  unfold State.setEnable
  repeat' first | with_reducible assumption | exact Need.sub hp0 rfl | with_reducible apply State.ev_setF

theorem State.ev_pcTrain {Q0 : StatePart → Bool} (hp0 : Need Q0 [.host, .ports, .subs, .regs, .out]) {s0 s : State} (ev : Ev Q0 s0 s) (p : Nat) (qs : List Nat) (whole : Bool) : Ev Q0 s0 (State.pcTrain s p qs whole) := by
  unfold State.pcTrain
  repeat' first | with_reducible assumption | exact Need.sub hp0 rfl | ((try lift_lets -underBinder); intro x; first | (refine Ev.cut (P := Q0) (s0 := s0) (x := x) ?_ (fun hx => ?_); unfold x) | (refine Ev.cutP (P := Q0) (s0 := s0) (x := x) (by unfold x; exact rfl) ?_ (fun hx => ?_)) | skip) | with_reducible apply State.ev_modSub | with_reducible apply State.ev_lightPort | with_reducible apply State.ev_setEnable | with_reducible apply State.ev_toLight | with_reducible apply State.ev_setLit | with_reducible refine Ev.foldl _ (fun st a hst => ?_) _ _ ?_ | with_reducible refine Ev.foldlP _ (fun st a hst => ?_) _ _ ?_ | split

theorem State.ev_pcDisable {Q0 : StatePart → Bool} (hp0 : Need Q0 [.host, .ports, .subs, .regs, .out]) {s0 s : State} (ev : Ev Q0 s0 s) (f : InFlight) : Ev Q0 s0 (State.pcDisable s f) := by
  unfold State.pcDisable
  repeat' first | with_reducible assumption | exact Need.sub hp0 rfl | ((try lift_lets -underBinder); intro x; first | (refine Ev.cut (P := Q0) (s0 := s0) (x := x) ?_ (fun hx => ?_); unfold x) | (refine Ev.cutP (P := Q0) (s0 := s0) (x := x) (by unfold x; exact rfl) ?_ (fun hx => ?_)) | skip) | with_reducible apply State.ev_finish | with_reducible apply State.ev_setEnable | with_reducible apply State.ev_darkPort | with_reducible apply State.ev_enterSub | with_reducible apply State.ev_modSub | with_reducible refine Ev.foldl _ (fun st a hst => ?_) _ _ ?_ | with_reducible refine Ev.foldlP _ (fun st a hst => ?_) _ _ ?_ | split

theorem State.ev_pcEnable {Q0 : StatePart → Bool} (hp0 : Need Q0 [.host, .ports, .subs, .regs, .out]) {s0 s : State} (ev : Ev Q0 s0 s) (f : InFlight) : Ev Q0 s0 (State.pcEnable s f) := by
  unfold State.pcEnable
  repeat' first | with_reducible assumption | exact Need.sub hp0 rfl | ((try lift_lets -underBinder); intro x; first | (refine Ev.cut (P := Q0) (s0 := s0) (x := x) ?_ (fun hx => ?_); unfold x) | (refine Ev.cutP (P := Q0) (s0 := s0) (x := x) (by unfold x; exact rfl) ?_ (fun hx => ?_)) | skip) | with_reducible apply State.ev_finish | with_reducible apply State.ev_lightPort | with_reducible apply State.ev_setEnable | split

theorem State.ev_pcRetrain {Q0 : StatePart → Bool} (hp0 : Need Q0 [.host, .ports, .subs, .regs, .out]) {s0 s : State} (ev : Ev Q0 s0 s) (f : InFlight) : Ev Q0 s0 (State.pcRetrain s f) := by
  unfold State.pcRetrain
  repeat' first | with_reducible assumption | exact Need.sub hp0 rfl | ((try lift_lets -underBinder); intro x; first | (refine Ev.cut (P := Q0) (s0 := s0) (x := x) ?_ (fun hx => ?_); unfold x) | (refine Ev.cutP (P := Q0) (s0 := s0) (x := x) (by unfold x; exact rfl) ?_ (fun hx => ?_)) | skip) | with_reducible apply State.ev_finish | with_reducible apply State.ev_pcTrain | split

theorem State.ev_pcRelease {Q0 : StatePart → Bool} (hp0 : Need Q0 [.host, .ports, .subs, .regs, .out]) {s0 s : State} (ev : Ev Q0 s0 s) (f : InFlight) : Ev Q0 s0 (State.pcRelease s f) := by
  unfold State.pcRelease
  repeat' first | with_reducible assumption | exact Need.sub hp0 rfl | ((try lift_lets -underBinder); intro x; first | (refine Ev.cut (P := Q0) (s0 := s0) (x := x) ?_ (fun hx => ?_); unfold x) | (refine Ev.cutP (P := Q0) (s0 := s0) (x := x) (by unfold x; exact rfl) ?_ (fun hx => ?_)) | skip) | with_reducible apply State.ev_finish | with_reducible apply State.ev_pcTrain | split

theorem State.ev_acceptOne {Q0 : StatePart → Bool} (hp0 : Need Q0 [.host, .ports, .subs, .regs, .out]) {s0 s : State} (ev : Ev Q0 s0 s) (p : Nat) (q : Nat) : Ev Q0 s0 (State.acceptOne s p q) := by
  unfold State.acceptOne
  repeat' first | with_reducible assumption | exact Need.sub hp0 rfl | ((try lift_lets -underBinder); intro x; first | (refine Ev.cut (P := Q0) (s0 := s0) (x := x) ?_ (fun hx => ?_); unfold x) | (refine Ev.cutP (P := Q0) (s0 := s0) (x := x) (by unfold x; exact rfl) ?_ (fun hx => ?_)) | skip) | with_reducible apply State.ev_goActive | with_reducible apply State.ev_setSub | split

theorem State.ev_pcAccept {Q0 : StatePart → Bool} (hp0 : Need Q0 [.host, .ports, .subs, .regs, .out]) {s0 s : State} (ev : Ev Q0 s0 s) (f : InFlight) : Ev Q0 s0 (State.pcAccept s f) := by
  unfold State.pcAccept
  repeat' first | with_reducible assumption | exact Need.sub hp0 rfl | ((try lift_lets -underBinder); intro x; first | (refine Ev.cut (P := Q0) (s0 := s0) (x := x) ?_ (fun hx => ?_); unfold x) | (refine Ev.cutP (P := Q0) (s0 := s0) (x := x) (by unfold x; exact rfl) ?_ (fun hx => ?_)) | skip) | with_reducible apply State.ev_finish | with_reducible apply State.ev_acceptOne | with_reducible refine Ev.foldl _ (fun st a hst => ?_) _ _ ?_ | with_reducible refine Ev.foldlP _ (fun st a hst => ?_) _ _ ?_ | split

theorem State.ev_pcSetMode {Q0 : StatePart → Bool} (hp0 : Need Q0 [.host, .ports, .subs, .regs, .out]) {s0 s : State} (ev : Ev Q0 s0 s) (f : InFlight) : Ev Q0 s0 (State.pcSetMode s f) := by
  unfold State.pcSetMode
  repeat' first | with_reducible assumption | exact Need.sub hp0 rfl | ((try lift_lets -underBinder); intro x; first | (refine Ev.cut (P := Q0) (s0 := s0) (x := x) ?_ (fun hx => ?_); unfold x) | (refine Ev.cutP (P := Q0) (s0 := s0) (x := x) (by unfold x; exact rfl) ?_ (fun hx => ?_)) | skip) | with_reducible apply State.ev_finish | with_reducible apply State.ev_setF | with_reducible apply State.ev_lightPort | split

theorem State.ev_copyConfig {Q0 : StatePart → Bool} (hp0 : Need Q0 [.subs, .regs]) {s0 s : State} (ev : Ev Q0 s0 s) (p : Nat) (x2 : Nat) : Ev Q0 s0 (State.copyConfig s p x2) := by
  unfold State.copyConfig
  repeat' first | with_reducible assumption | exact Need.sub hp0 rfl | ((try lift_lets -underBinder); intro x; first | (refine Ev.cut (P := Q0) (s0 := s0) (x := x) ?_ (fun hx => ?_); unfold x) | (refine Ev.cutP (P := Q0) (s0 := s0) (x := x) (by unfold x; exact rfl) ?_ (fun hx => ?_)) | skip) | with_reducible apply State.ev_setF | with_reducible apply State.ev_modSub | with_reducible apply State.ev_setPreWord | with_reducible refine Ev.foldl _ (fun st a hst => ?_) _ _ ?_ | with_reducible refine Ev.foldlP _ (fun st a hst => ?_) _ _ ?_

theorem State.ev_pcSubstitute {Q0 : StatePart → Bool} (hp0 : Need Q0 [.host, .ports, .subs, .regs, .out]) {s0 s : State} (ev : Ev Q0 s0 s) (f : InFlight) : Ev Q0 s0 (State.pcSubstitute s f) := by
  unfold State.pcSubstitute
  repeat' first | with_reducible assumption | exact Need.sub hp0 rfl | ((try lift_lets -underBinder); intro x; first | (refine Ev.cut (P := Q0) (s0 := s0) (x := x) ?_ (fun hx => ?_); unfold x) | (refine Ev.cutP (P := Q0) (s0 := s0) (x := x) (by unfold x; exact rfl) ?_ (fun hx => ?_)) | skip) | with_reducible apply State.ev_finish | with_reducible apply State.ev_setEnable | with_reducible apply State.ev_darkPort | with_reducible apply State.ev_copyConfig | with_reducible apply State.ev_setF | with_reducible apply State.ev_lightPort | split

theorem State.ev_pcUnsubstitute {Q0 : StatePart → Bool} (hp0 : Need Q0 [.host, .ports, .subs, .regs, .out]) {s0 s : State} (ev : Ev Q0 s0 s) (f : InFlight) : Ev Q0 s0 (State.pcUnsubstitute s f) := by
  unfold State.pcUnsubstitute
  repeat' first | with_reducible assumption | exact Need.sub hp0 rfl | ((try lift_lets -underBinder); intro x; first | (refine Ev.cut (P := Q0) (s0 := s0) (x := x) ?_ (fun hx => ?_); unfold x) | (refine Ev.cutP (P := Q0) (s0 := s0) (x := x) (by unfold x; exact rfl) ?_ (fun hx => ?_)) | skip) | with_reducible apply State.ev_finish | with_reducible apply State.ev_setEnable | with_reducible apply State.ev_darkPort | with_reducible apply State.ev_setF | with_reducible apply State.ev_lightPort | split

theorem State.ev_portExpect {Q0 : StatePart → Bool} (hp0 : Need Q0 [.host, .ports, .subs, .regs, .out]) {s0 s : State} (ev : Ev Q0 s0 s) (f : InFlight) : Ev Q0 s0 (State.portExpect s f) := by
  unfold State.portExpect
  repeat' first | with_reducible assumption | exact Need.sub hp0 rfl | ((try lift_lets -underBinder); intro x; first | (refine Ev.cut (P := Q0) (s0 := s0) (x := x) ?_ (fun hx => ?_); unfold x) | (refine Ev.cutP (P := Q0) (s0 := s0) (x := x) (by unfold x; exact rfl) ?_ (fun hx => ?_)) | skip) | with_reducible apply State.ev_finish | with_reducible apply State.ev_modSub | with_reducible apply State.ev_enterSub | split

theorem State.ev_presetStart {Q0 : StatePart → Bool} (hp0 : Need Q0 [.host, .ports, .regs, .out]) {s0 s : State} (ev : Ev Q0 s0 s) (f : InFlight) : Ev Q0 s0 (State.presetStart s f) := by
  unfold State.presetStart
  repeat' first | with_reducible assumption | exact Need.sub hp0 rfl | ((try lift_lets -underBinder); intro x; first | (refine Ev.cut (P := Q0) (s0 := s0) (x := x) ?_ (fun hx => ?_); unfold x) | (refine Ev.cutP (P := Q0) (s0 := s0) (x := x) (by unfold x; exact rfl) ?_ (fun hx => ?_)) | skip) | with_reducible apply State.ev_finish | with_reducible apply State.ev_modPort | with_reducible apply State.ev_startFlight | with_reducible apply State.ev_presetWrite | split

theorem State.ev_portPower {Q0 : StatePart → Bool} (hp0 : Need Q0 [.host, .ports, .regs, .out]) {s0 s : State} (ev : Ev Q0 s0 s) (f : InFlight) : Ev Q0 s0 (State.portPower s f) := by
  unfold State.portPower
  repeat' first | with_reducible assumption | exact Need.sub hp0 rfl | ((try lift_lets -underBinder); intro x; first | (refine Ev.cut (P := Q0) (s0 := s0) (x := x) ?_ (fun hx => ?_); unfold x) | (refine Ev.cutP (P := Q0) (s0 := s0) (x := x) (by unfold x; exact rfl) ?_ (fun hx => ?_)) | skip) | with_reducible apply State.ev_finish | with_reducible apply State.ev_modPort | split

theorem State.ev_swingAct {Q0 : StatePart → Bool} (hp0 : Need Q0 [.host, .ports, .subs, .regs, .out]) {s0 s : State} (ev : Ev Q0 s0 s) (p : Nat) (k : Nat) (ts : Nat) : Ev Q0 s0 (State.swingAct s p k ts) := by
  unfold State.swingAct
  repeat' first | with_reducible assumption | exact Need.sub hp0 rfl | with_reducible apply State.ev_loadSwing | with_reducible apply State.ev_bumpSat | with_reducible apply State.ev_beginSwing | split

theorem State.ev_lnkCfgWrite {Q0 : StatePart → Bool} (hp0 : Need Q0 [.host, .ports, .subs, .regs, .out]) {s0 s : State} (ev : Ev Q0 s0 s) (p : Nat) (v : Nat) : Ev Q0 s0 (State.lnkCfgWrite s p v) := by
  unfold State.lnkCfgWrite
  repeat' first | with_reducible assumption | exact Need.sub hp0 rfl | ((try lift_lets -underBinder); intro x; first | (refine Ev.cut (P := Q0) (s0 := s0) (x := x) ?_ (fun hx => ?_); unfold x) | (refine Ev.cutP (P := Q0) (s0 := s0) (x := x) (by unfold x; exact rfl) ?_ (fun hx => ?_)) | skip) | with_reducible apply State.ev_bumpSat | with_reducible apply State.ev_setF | with_reducible apply State.ev_setEnable | with_reducible apply State.ev_lightPort | with_reducible apply State.ev_darkPort | split

theorem execDisable_ev {Q0 : StatePart → Bool} (hp0 : Need Q0 [.host, .ports, .subs, .regs, .out]) {s0 s : State} (ev : Ev Q0 s0 s) (sq : RingNo) : ∃ t, (execDisable sq s) = .next t ∧ Ev Q0 s0 t := by
  unfold execDisable
  refine ⟨_, rfl, ?_⟩
  repeat' first | with_reducible assumption | exact Need.sub hp0 rfl | ((try lift_lets -underBinder); intro x; (try dsimp -zeta -proj only); first | (refine Ev.cut (P := Q0) (s0 := s0) (x := x) ?_ (fun hx => ?_); unfold x) | (refine Ev.cutP (P := Q0) (s0 := s0) (x := x) (by unfold x; exact rfl) ?_ (fun hx => ?_)) | skip) | with_reducible apply State.ev_ringAction | with_reducible apply State.ev_pcDisable

theorem execEnable_ev {Q0 : StatePart → Bool} (hp0 : Need Q0 [.host, .ports, .subs, .regs, .out]) {s0 s : State} (ev : Ev Q0 s0 s) (sq : RingNo) : ∃ t, (execEnable sq s) = .next t ∧ Ev Q0 s0 t := by
  unfold execEnable
  refine ⟨_, rfl, ?_⟩
  repeat' first | with_reducible assumption | exact Need.sub hp0 rfl | ((try lift_lets -underBinder); intro x; (try dsimp -zeta -proj only); first | (refine Ev.cut (P := Q0) (s0 := s0) (x := x) ?_ (fun hx => ?_); unfold x) | (refine Ev.cutP (P := Q0) (s0 := s0) (x := x) (by unfold x; exact rfl) ?_ (fun hx => ?_)) | skip) | with_reducible apply State.ev_ringAction | with_reducible apply State.ev_pcEnable

theorem execRetrain_ev {Q0 : StatePart → Bool} (hp0 : Need Q0 [.host, .ports, .subs, .regs, .out]) {s0 s : State} (ev : Ev Q0 s0 s) (sq : RingNo) : ∃ t, (execRetrain sq s) = .next t ∧ Ev Q0 s0 t := by
  unfold execRetrain
  refine ⟨_, rfl, ?_⟩
  repeat' first | with_reducible assumption | exact Need.sub hp0 rfl | ((try lift_lets -underBinder); intro x; (try dsimp -zeta -proj only); first | (refine Ev.cut (P := Q0) (s0 := s0) (x := x) ?_ (fun hx => ?_); unfold x) | (refine Ev.cutP (P := Q0) (s0 := s0) (x := x) (by unfold x; exact rfl) ?_ (fun hx => ?_)) | skip) | with_reducible apply State.ev_ringAction | with_reducible apply State.ev_pcRetrain

theorem execRelease_ev {Q0 : StatePart → Bool} (hp0 : Need Q0 [.host, .ports, .subs, .regs, .out]) {s0 s : State} (ev : Ev Q0 s0 s) (sq : RingNo) : ∃ t, (execRelease sq s) = .next t ∧ Ev Q0 s0 t := by
  unfold execRelease
  refine ⟨_, rfl, ?_⟩
  repeat' first | with_reducible assumption | exact Need.sub hp0 rfl | ((try lift_lets -underBinder); intro x; (try dsimp -zeta -proj only); first | (refine Ev.cut (P := Q0) (s0 := s0) (x := x) ?_ (fun hx => ?_); unfold x) | (refine Ev.cutP (P := Q0) (s0 := s0) (x := x) (by unfold x; exact rfl) ?_ (fun hx => ?_)) | skip) | with_reducible apply State.ev_ringAction | with_reducible apply State.ev_pcRelease

theorem execAcceptPeer_ev {Q0 : StatePart → Bool} (hp0 : Need Q0 [.host, .ports, .subs, .regs, .out]) {s0 s : State} (ev : Ev Q0 s0 s) (sq : RingNo) : ∃ t, (execAcceptPeer sq s) = .next t ∧ Ev Q0 s0 t := by
  unfold execAcceptPeer
  refine ⟨_, rfl, ?_⟩
  repeat' first | with_reducible assumption | exact Need.sub hp0 rfl | ((try lift_lets -underBinder); intro x; (try dsimp -zeta -proj only); first | (refine Ev.cut (P := Q0) (s0 := s0) (x := x) ?_ (fun hx => ?_); unfold x) | (refine Ev.cutP (P := Q0) (s0 := s0) (x := x) (by unfold x; exact rfl) ?_ (fun hx => ?_)) | skip) | with_reducible apply State.ev_ringAction | with_reducible apply State.ev_pcAccept

theorem execSetMode_ev {Q0 : StatePart → Bool} (hp0 : Need Q0 [.host, .ports, .subs, .regs, .out]) {s0 s : State} (ev : Ev Q0 s0 s) (sq : RingNo) : ∃ t, (execSetMode sq s) = .next t ∧ Ev Q0 s0 t := by
  unfold execSetMode
  refine ⟨_, rfl, ?_⟩
  repeat' first | with_reducible assumption | exact Need.sub hp0 rfl | ((try lift_lets -underBinder); intro x; (try dsimp -zeta -proj only); first | (refine Ev.cut (P := Q0) (s0 := s0) (x := x) ?_ (fun hx => ?_); unfold x) | (refine Ev.cutP (P := Q0) (s0 := s0) (x := x) (by unfold x; exact rfl) ?_ (fun hx => ?_)) | skip) | with_reducible apply State.ev_ringAction | with_reducible apply State.ev_pcSetMode

theorem execSubstitute_ev {Q0 : StatePart → Bool} (hp0 : Need Q0 [.host, .ports, .subs, .regs, .out]) {s0 s : State} (ev : Ev Q0 s0 s) (sq : RingNo) : ∃ t, (execSubstitute sq s) = .next t ∧ Ev Q0 s0 t := by
  unfold execSubstitute
  refine ⟨_, rfl, ?_⟩
  repeat' first | with_reducible assumption | exact Need.sub hp0 rfl | ((try lift_lets -underBinder); intro x; (try dsimp -zeta -proj only); first | (refine Ev.cut (P := Q0) (s0 := s0) (x := x) ?_ (fun hx => ?_); unfold x) | (refine Ev.cutP (P := Q0) (s0 := s0) (x := x) (by unfold x; exact rfl) ?_ (fun hx => ?_)) | skip) | with_reducible apply State.ev_ringAction | with_reducible apply State.ev_pcSubstitute

theorem execUnsubstitute_ev {Q0 : StatePart → Bool} (hp0 : Need Q0 [.host, .ports, .subs, .regs, .out]) {s0 s : State} (ev : Ev Q0 s0 s) (sq : RingNo) : ∃ t, (execUnsubstitute sq s) = .next t ∧ Ev Q0 s0 t := by
  unfold execUnsubstitute
  refine ⟨_, rfl, ?_⟩
  repeat' first | with_reducible assumption | exact Need.sub hp0 rfl | ((try lift_lets -underBinder); intro x; (try dsimp -zeta -proj only); first | (refine Ev.cut (P := Q0) (s0 := s0) (x := x) ?_ (fun hx => ?_); unfold x) | (refine Ev.cutP (P := Q0) (s0 := s0) (x := x) (by unfold x; exact rfl) ?_ (fun hx => ?_)) | skip) | with_reducible apply State.ev_ringAction | with_reducible apply State.ev_pcUnsubstitute

theorem execPortExpect_ev {Q0 : StatePart → Bool} (hp0 : Need Q0 [.host, .ports, .subs, .regs, .out]) {s0 s : State} (ev : Ev Q0 s0 s) (sq : RingNo) : ∃ t, (execPortExpect sq s) = .next t ∧ Ev Q0 s0 t := by
  unfold execPortExpect
  refine ⟨_, rfl, ?_⟩
  repeat' first | with_reducible assumption | exact Need.sub hp0 rfl | ((try lift_lets -underBinder); intro x; (try dsimp -zeta -proj only); first | (refine Ev.cut (P := Q0) (s0 := s0) (x := x) ?_ (fun hx => ?_); unfold x) | (refine Ev.cutP (P := Q0) (s0 := s0) (x := x) (by unfold x; exact rfl) ?_ (fun hx => ?_)) | skip) | with_reducible apply State.ev_ringCmd | with_reducible apply State.ev_portExpect

theorem execPresetWrite_ev {Q0 : StatePart → Bool} (hp0 : Need Q0 [.host, .ports, .regs, .out]) {s0 s : State} (ev : Ev Q0 s0 s) (sq : RingNo) : ∃ t, (execPresetWrite sq s) = .next t ∧ Ev Q0 s0 t := by
  unfold execPresetWrite
  refine ⟨_, rfl, ?_⟩
  repeat' first | with_reducible assumption | exact Need.sub hp0 rfl | ((try lift_lets -underBinder); intro x; (try dsimp -zeta -proj only); first | (refine Ev.cut (P := Q0) (s0 := s0) (x := x) ?_ (fun hx => ?_); unfold x) | (refine Ev.cutP (P := Q0) (s0 := s0) (x := x) (by unfold x; exact rfl) ?_ (fun hx => ?_)) | skip) | with_reducible apply State.ev_ringCmd | with_reducible apply State.ev_presetStart

theorem execPortPower_ev {Q0 : StatePart → Bool} (hp0 : Need Q0 [.host, .ports, .regs, .out]) {s0 s : State} (ev : Ev Q0 s0 s) (sq : RingNo) : ∃ t, (execPortPower sq s) = .next t ∧ Ev Q0 s0 t := by
  unfold execPortPower
  refine ⟨_, rfl, ?_⟩
  repeat' first | with_reducible assumption | exact Need.sub hp0 rfl | ((try lift_lets -underBinder); intro x; (try dsimp -zeta -proj only); first | (refine Ev.cut (P := Q0) (s0 := s0) (x := x) ?_ (fun hx => ?_); unfold x) | (refine Ev.cutP (P := Q0) (s0 := s0) (x := x) (by unfold x; exact rfl) ?_ (fun hx => ?_)) | skip) | with_reducible apply State.ev_ringCmd | with_reducible apply State.ev_portPower

theorem execLnkCfgWrite_ev {Q0 : StatePart → Bool} (hp0 : Need Q0 [.host, .ports, .subs, .regs, .out]) {s0 s : State} (ev : Ev Q0 s0 s) (port : Port) (value : Word) : ∃ t, (execLnkCfgWrite port value s) = .next t ∧ Ev Q0 s0 t := by
  unfold execLnkCfgWrite
  refine ⟨_, rfl, ?_⟩
  repeat' first | with_reducible assumption | exact Need.sub hp0 rfl | with_reducible apply State.ev_lnkCfgWrite

end Sys2Proof.Machine
end

