-- ==== Sys2Proof/Laws/EvFabric.lean ====
section
/-! SUPPORT. The operations of Fabric.lean keep the relation Ev. -/

namespace Sys2Proof.Machine

open Sys2Proof

set_option linter.unusedVariables false

theorem State.ev_fabricRec {Q0 : StatePart → Bool} (hp0 : Need Q0 [.host, .log, .regs, .out]) {s0 s : State} (ev : Ev Q0 s0 s) (event : Nat) (arg1 : Nat) (cls : Nat) (unitKind : Nat) (unitIx : Nat) : Ev Q0 s0 (State.fabricRec s event arg1 cls unitKind unitIx) := by
  unfold State.fabricRec
  repeat' first | with_reducible assumption | exact Need.sub hp0 rfl | with_reducible apply State.ev_errRec

theorem State.ev_queueCell {Q0 : StatePart → Bool} (hp0 : Need Q0 [.subs]) {s0 s : State} (ev : Ev Q0 s0 s) (x1 : Nat × Nat) (c : OutCell) : Ev Q0 s0 (State.queueCell s x1 c) := by
  unfold State.queueCell
  repeat' first | with_reducible assumption | exact Need.sub hp0 rfl | with_reducible apply State.ev_modSub | split

theorem State.ev_chooseAndQueue {Q0 : StatePart → Bool} (hp0 : Need Q0 [.host, .log, .subs, .tele, .regs, .out]) {s0 s : State} (ev : Ev Q0 s0 s) (c : Cell) (set : Nat) (inPort : Option Nat) : Ev Q0 s0 (State.chooseAndQueue s c set inPort) := by
  unfold State.chooseAndQueue
  repeat' first | with_reducible assumption | exact Need.sub hp0 rfl | ((try lift_lets -underBinder); intro x; first | (refine Ev.cut (P := Q0) (s0 := s0) (x := x) ?_ (fun hx => ?_); unfold x) | (refine Ev.cutP (P := Q0) (s0 := s0) (x := x) (by unfold x; exact rfl) ?_ (fun hx => ?_)) | skip) | with_reducible apply State.ev_dropCell | with_reducible apply State.ev_bumpSat | with_reducible apply State.ev_fabricRec | with_reducible apply State.ev_setF | with_reducible apply State.ev_queueCell | split

theorem State.ev_override {Q0 : StatePart → Bool} (hp0 : Need Q0 [.host, .log, .regs, .out]) {s0 s : State} (ev : Ev Q0 s0 s) (c : Cell) : Ev Q0 s0 (State.override s c).1 := by
  unfold State.override
  repeat' first | with_reducible assumption | exact Need.sub hp0 rfl | ((try lift_lets -underBinder); intro x; first | (refine Ev.cut (P := Q0) (s0 := s0) (x := x) ?_ (fun hx => ?_); unfold x) | (refine Ev.cutP (P := Q0) (s0 := s0) (x := x) (by unfold x; exact rfl) ?_ (fun hx => ?_)) | skip) | with_reducible apply State.ev_bumpSat | with_reducible apply State.ev_fabricRec | with_reducible apply State.ev_setF | with_reducible refine Ev.foldl _ (fun st a hst => ?_) _ _ ?_ | with_reducible refine Ev.foldlP _ (fun st a hst => ?_) _ _ ?_ | split

theorem State.ev_override_eq {Q0 : StatePart → Bool} (hp0 : Need Q0 [.host, .log, .regs, .out]) {s0 s : State} (ev : Ev Q0 s0 s) (c : Cell) {sT : State} {r : Option Nat} (e : (State.override s c) = (sT, r)) : Ev Q0 s0 sT := by
  have h := State.ev_override hp0 ev c
  rw [e] at h
  exact h

theorem State.ev_lookUp {Q0 : StatePart → Bool} (hp0 : Need Q0 [.host, .log, .subs, .tele, .regs, .out]) {s0 s : State} (ev : Ev Q0 s0 s) (c : Cell) (inPort : Option Nat) : Ev Q0 s0 (State.lookUp s c inPort) := by
  unfold State.lookUp
  repeat' first | with_reducible assumption | exact Need.sub hp0 rfl | ((try lift_lets -underBinder); intro x; first | (refine Ev.cut (P := Q0) (s0 := s0) (x := x) ?_ (fun hx => ?_); unfold x) | (refine Ev.cutP (P := Q0) (s0 := s0) (x := x) (by unfold x; exact rfl) ?_ (fun hx => ?_)) | skip) | with_reducible apply State.ev_override | with_reducible apply State.ev_dropCell | with_reducible apply State.ev_chooseAndQueue | with_reducible refine State.ev_override_eq (Need.sub hp0 rfl) ?_ _ (by with_reducible assumption) | split

theorem State.ev_police {Q0 : StatePart → Bool} (hp0 : Need Q0 [.subs, .tele, .regs]) {s0 s : State} (ev : Ev Q0 s0 s) (p : Nat) (q : Nat) (c : Cell) : Ev Q0 s0 (State.police s p q c).1 := by
  unfold State.police
  repeat' first | with_reducible assumption | exact Need.sub hp0 rfl | ((try lift_lets -underBinder); intro x; first | (refine Ev.cut (P := Q0) (s0 := s0) (x := x) ?_ (fun hx => ?_); unfold x) | (refine Ev.cutP (P := Q0) (s0 := s0) (x := x) (by unfold x; exact rfl) ?_ (fun hx => ?_)) | skip) | with_reducible apply State.ev_setSub | with_reducible apply State.ev_bumpSat | split | with_reducible apply Ev.upd | with_reducible apply Ev.updOut | exact Or.inl (Need.has hp0 rfl) | with_reducible exact Or.inr rfl | exact Need.has hp0 rfl | with_reducible rfl

theorem State.ev_police_eq {Q0 : StatePart → Bool} (hp0 : Need Q0 [.subs, .tele, .regs]) {s0 s : State} (ev : Ev Q0 s0 s) (p : Nat) (q : Nat) (c : Cell) {sT : State} {r : Option Cell} (e : (State.police s p q c) = (sT, r)) : Ev Q0 s0 sT := by
  have h := State.ev_police hp0 ev p q c
  rw [e] at h
  exact h

theorem State.ev_seqError {Q0 : StatePart → Bool} (hp0 : Need Q0 [.host, .steps, .log, .router, .regs, .out]) {s0 s : State} (ev : Ev Q0 s0 s) (src : Nat) (cls : Nat) : Ev Q0 s0 (State.seqError s src cls) := by
  unfold State.seqError
  repeat' first | with_reducible assumption | exact Need.sub hp0 rfl | ((try lift_lets -underBinder); intro x; first | (refine Ev.cut (P := Q0) (s0 := s0) (x := x) ?_ (fun hx => ?_); unfold x) | (refine Ev.cutP (P := Q0) (s0 := s0) (x := x) (by unfold x; exact rfl) ?_ (fun hx => ?_)) | skip) | with_reducible apply State.ev_fabricRec | with_reducible apply State.ev_bumpSat | with_reducible apply State.ev_stepFault | with_reducible refine Ev.foldl _ (fun st a hst => ?_) _ _ ?_ | with_reducible refine Ev.foldlP _ (fun st a hst => ?_) _ _ ?_

theorem State.ev_mseqCheck {Q0 : StatePart → Bool} (hp0 : Need Q0 [.router]) {s0 s : State} (ev : Ev Q0 s0 s) (src : Nat) (cls : Nat) (mseq : Nat) : Ev Q0 s0 (State.mseqCheck s src cls mseq).1 := by
  unfold State.mseqCheck
  repeat' first | with_reducible assumption | exact Need.sub hp0 rfl | ((try lift_lets -underBinder); intro x; first | (refine Ev.cut (P := Q0) (s0 := s0) (x := x) ?_ (fun hx => ?_); unfold x) | (refine Ev.cutP (P := Q0) (s0 := s0) (x := x) (by unfold x; exact rfl) ?_ (fun hx => ?_)) | skip) | with_reducible apply State.ev_setRouter | split

theorem State.ev_mseqCheck_eq {Q0 : StatePart → Bool} (hp0 : Need Q0 [.router]) {s0 s : State} (ev : Ev Q0 s0 s) (src : Nat) (cls : Nat) (mseq : Nat) {sT : State} {r : Bool} (e : (State.mseqCheck s src cls mseq) = (sT, r)) : Ev Q0 s0 sT := by
  have h := State.ev_mseqCheck hp0 ev src cls mseq
  rw [e] at h
  exact h

theorem State.ev_endFrame {Q0 : StatePart → Bool} (hp0 : Need Q0 [.host, .steps, .log, .router, .regs, .out]) {s0 s : State} (ev : Ev Q0 s0 s) (f : PartFrame) (whole : Bool) : Ev Q0 s0 (State.endFrame s f whole) := by
  unfold State.endFrame
  repeat' first | with_reducible assumption | exact Need.sub hp0 rfl | ((try lift_lets -underBinder); intro x; first | (refine Ev.cut (P := Q0) (s0 := s0) (x := x) ?_ (fun hx => ?_); unfold x) | (refine Ev.cutP (P := Q0) (s0 := s0) (x := x) (by unfold x; exact rfl) ?_ (fun hx => ?_)) | skip) | with_reducible apply State.ev_mseqCheck | with_reducible apply State.ev_seqError | with_reducible apply State.ev_setRouter | with_reducible refine State.ev_mseqCheck_eq (Need.sub hp0 rfl) ?_ _ _ _ (by with_reducible assumption) | split

theorem State.ev_assemble {Q0 : StatePart → Bool} (hp0 : Need Q0 [.host, .steps, .log, .router, .parts, .cutFrames, .regs, .out]) {s0 s : State} (ev : Ev Q0 s0 s) (c : Cell) : Ev Q0 s0 (State.assemble s c) := by
  unfold State.assemble
  repeat' first | with_reducible assumption | exact Need.sub hp0 rfl | ((try lift_lets -underBinder); intro x; first | (refine Ev.cut (P := Q0) (s0 := s0) (x := x) ?_ (fun hx => ?_); unfold x) | (refine Ev.cutP (P := Q0) (s0 := s0) (x := x) (by unfold x; exact rfl) ?_ (fun hx => ?_)) | (generalize he : x = y) | skip) | with_reducible apply State.ev_endFrame | split | with_reducible apply Ev.upd | with_reducible apply Ev.updOut | exact Or.inl (Need.has hp0 rfl) | with_reducible exact Or.inr rfl | exact Need.has hp0 rfl | with_reducible rfl

theorem State.ev_deliverLocal {Q0 : StatePart → Bool} (hp0 : Need Q0 [.host, .steps, .log, .router, .parts, .cutFrames, .tele, .regs, .out]) {s0 s : State} (ev : Ev Q0 s0 s) (c : Cell) : Ev Q0 s0 (State.deliverLocal s c) := by
  unfold State.deliverLocal
  repeat' first | with_reducible assumption | exact Need.sub hp0 rfl | ((try lift_lets -underBinder); intro x; first | (refine Ev.cut (P := Q0) (s0 := s0) (x := x) ?_ (fun hx => ?_); unfold x) | (refine Ev.cutP (P := Q0) (s0 := s0) (x := x) (by unfold x; exact rfl) ?_ (fun hx => ?_)) | skip) | with_reducible apply State.ev_dropCell | with_reducible apply State.ev_setRouter | with_reducible apply State.ev_assemble | split

end Sys2Proof.Machine
end

