-- ==== Sys2Proof/Laws/EvRouter.lean ====
section
/-! SUPPORT. The operations of Router.lean keep the relation Ev. -/

namespace Sys2Proof.Machine

open Sys2Proof

set_option linter.unusedVariables false

theorem State.ev_routeArrived {Q0 : StatePart → Bool} (hp0 : Need Q0 [.host, .steps, .log, .router, .subs, .parts, .cutFrames, .tele, .regs, .out]) {s0 s : State} (ev : Ev Q0 s0 s) (p : Nat) (e : InCell) : Ev Q0 s0 (State.routeArrived s p e) := by
  unfold State.routeArrived
  repeat' first | with_reducible assumption | exact Need.sub hp0 rfl | ((try lift_lets -underBinder); intro x; first | (refine Ev.cut (P := Q0) (s0 := s0) (x := x) ?_ (fun hx => ?_); unfold x) | (refine Ev.cutP (P := Q0) (s0 := s0) (x := x) (by unfold x; exact rfl) ?_ (fun hx => ?_)) | skip) | with_reducible apply State.ev_dropCell | with_reducible apply State.ev_police | with_reducible apply State.ev_deliverLocal | with_reducible apply State.ev_lookUp | with_reducible refine State.ev_police_eq (Need.sub hp0 rfl) ?_ _ _ _ (by with_reducible assumption) | split

theorem State.ev_landingMove {Q0 : StatePart → Bool} (hp0 : Need Q0 [.ports, .subs]) {s0 s : State} (ev : Ev Q0 s0 s) (p : Nat) (cls : Nat) (q : Nat) (c : Cell) : Ev Q0 s0 (State.landingMove s p cls q c) := by
  unfold State.landingMove
  repeat' first | with_reducible assumption | exact Need.sub hp0 rfl | ((try lift_lets -underBinder); intro x; first | (refine Ev.cut (P := Q0) (s0 := s0) (x := x) ?_ (fun hx => ?_); unfold x) | (refine Ev.cutP (P := Q0) (s0 := s0) (x := x) (by unfold x; exact rfl) ?_ (fun hx => ?_)) | skip) | with_reducible apply State.ev_modSub | with_reducible apply State.ev_modPort

theorem State.ev_sendPortCredit {Q0 : StatePart → Bool} (hp0 : Need Q0 [.subs]) {s0 s : State} (ev : Ev Q0 s0 s) (p : Nat) (q : Nat) : Ev Q0 s0 (State.sendPortCredit s p q) := by
  unfold State.sendPortCredit
  repeat' first | with_reducible assumption | exact Need.sub hp0 rfl | ((try lift_lets -underBinder); intro x; first | (refine Ev.cut (P := Q0) (s0 := s0) (x := x) ?_ (fun hx => ?_); unfold x) | (refine Ev.cutP (P := Q0) (s0 := s0) (x := x) (by unfold x; exact rfl) ?_ (fun hx => ?_)) | skip) | with_reducible apply State.ev_modSub

theorem State.ev_showMarks {Q0 : StatePart → Bool} (hp0 : Need Q0 [.regs]) {s0 s : State} (ev : Ev Q0 s0 s) (p : Nat) : Ev Q0 s0 (State.showMarks s p) := by
  unfold State.showMarks
  repeat' first | with_reducible assumption | exact Need.sub hp0 rfl | ((try lift_lets -underBinder); intro x; first | (refine Ev.cut (P := Q0) (s0 := s0) (x := x) ?_ (fun hx => ?_); unfold x) | (refine Ev.cutP (P := Q0) (s0 := s0) (x := x) (by unfold x; exact rfl) ?_ (fun hx => ?_)) | skip) | with_reducible apply State.ev_setF | split

theorem State.ev_takeLink {Q0 : StatePart → Bool} (hp0 : Need Q0 [.subs]) {s0 s : State} (ev : Ev Q0 s0 s) (p : Nat) (q : Nat) (typ : Nat) {r : Cell} {sT : State} (e : (State.takeLink s p q typ) = some (r, sT)) : Ev Q0 s0 sT := by
  unfold State.takeLink at e
  (try dsimp only at e)
  repeat' split at e
  all_goals cases e
  all_goals repeat' first | with_reducible assumption | exact Need.sub hp0 rfl | with_reducible apply State.ev_modSub

theorem State.ev_reroute {Q0 : StatePart → Bool} (hp0 : Need Q0 [.subs, .tele, .regs]) {s0 s : State} (ev : Ev Q0 s0 s) (p : Nat) (q : Nat) : Ev Q0 s0 (State.reroute s p q) := by
  unfold State.reroute
  repeat' first | with_reducible assumption | exact Need.sub hp0 rfl | ((try lift_lets -underBinder); intro x; first | (refine Ev.cut (P := Q0) (s0 := s0) (x := x) ?_ (fun hx => ?_); unfold x) | (refine Ev.cutP (P := Q0) (s0 := s0) (x := x) (by unfold x; exact rfl) ?_ (fun hx => ?_)) | skip) | with_reducible apply State.ev_setSub | with_reducible apply State.ev_bumpSat | with_reducible apply State.ev_queueCell | with_reducible apply State.ev_dropCell | with_reducible refine Ev.foldl _ (fun st a hst => ?_) _ _ ?_ | with_reducible refine Ev.foldlP _ (fun st a hst => ?_) _ _ ?_ | split

theorem State.ev_teleEnd {Q0 : StatePart → Bool} (hp0 : Need Q0 [.tele, .regs]) {s0 s : State} (ev : Ev Q0 s0 s) (t : Nat) : Ev Q0 s0 (State.teleEnd s t) := by
  unfold State.teleEnd
  repeat' first | with_reducible assumption | exact Need.sub hp0 rfl | ((try lift_lets -underBinder); intro x; first | (refine Ev.cut (P := Q0) (s0 := s0) (x := x) ?_ (fun hx => ?_); unfold x) | (refine Ev.cutP (P := Q0) (s0 := s0) (x := x) (by unfold x; exact rfl) ?_ (fun hx => ?_)) | skip) | with_reducible apply State.ev_setF | with_reducible refine Ev.foldl _ (fun st a hst => ?_) _ _ ?_ | with_reducible refine Ev.foldlP _ (fun st a hst => ?_) _ _ ?_ | with_reducible apply Ev.upd | with_reducible apply Ev.updOut | exact Or.inl (Need.has hp0 rfl) | with_reducible exact Or.inr rfl | exact Need.has hp0 rfl | with_reducible rfl

theorem State.ev_hostRead {Q0 : StatePart → Bool} (hp0 : Need Q0 [.out]) {s0 s : State} (ev : Ev Q0 s0 s) (f : InFlight) (addr : Nat) (n : Nat) (data : List Byte) : Ev Q0 s0 (State.hostRead s f addr n data).1 := by
  unfold State.hostRead
  repeat' first | with_reducible assumption | exact Need.sub hp0 rfl | ((try lift_lets -underBinder); intro x; first | (refine Ev.cut (P := Q0) (s0 := s0) (x := x) ?_ (fun hx => ?_); unfold x) | (refine Ev.cutP (P := Q0) (s0 := s0) (x := x) (by unfold x; exact rfl) ?_ (fun hx => ?_)) | skip) | with_reducible apply State.ev_emit | split

theorem State.ev_hostRead_eq {Q0 : StatePart → Bool} (hp0 : Need Q0 [.out]) {s0 s : State} (ev : Ev Q0 s0 s) (f : InFlight) (addr : Nat) (n : Nat) (data : List Byte) {sT : State} {r : List Sys2Proof.Byte} (e : (State.hostRead s f addr n data) = (sT, r)) : Ev Q0 s0 sT := by
  have h := State.ev_hostRead hp0 ev f addr n data
  rw [e] at h
  exact h

theorem State.ev_tableWrite {Q0 : StatePart → Bool} (hp0 : Need Q0 [.host, .regs, .out]) {s0 s : State} (ev : Ev Q0 s0 s) (f : InFlight) (first : Nat) (count : Nat) (size : Nat) (ok : Nat) (bad : Nat) (fault : Nat) (data : List Byte) (good : List Byte → Bool) (k : State → Nat → List Byte → State) (hk : ∀ x0 x1 x2, Ev Q0 s0 x0 → Ev Q0 s0 (k x0 x1 x2)) : Ev Q0 s0 (State.tableWrite s f first count size ok bad fault data good k) := by
  unfold State.tableWrite
  repeat' first | with_reducible assumption | exact Need.sub hp0 rfl | ((try lift_lets -underBinder); intro x; first | (refine Ev.cut (P := Q0) (s0 := s0) (x := x) ?_ (fun hx => ?_); unfold x) | (refine Ev.cutP (P := Q0) (s0 := s0) (x := x) (by unfold x; exact rfl) ?_ (fun hx => ?_)) | skip) | with_reducible apply State.ev_hostRead | with_reducible apply State.ev_finish | with_reducible refine State.ev_hostRead_eq (Need.sub hp0 rfl) ?_ _ _ _ _ (by with_reducible assumption) | with_reducible apply hk | with_reducible refine Ev.foldl _ (fun st a hst => ?_) _ _ ?_ | with_reducible refine Ev.foldlP _ (fun st a hst => ?_) _ _ ?_ | split

theorem State.ev_writeFlat {Q0 : StatePart → Bool} (hp0 : Need Q0 [.regs]) {s0 s : State} (ev : Ev Q0 s0 s) (i : Nat) (b : List Byte) : Ev Q0 s0 (State.writeFlat s i b) := by
  unfold State.writeFlat
  repeat' first | with_reducible assumption | exact Need.sub hp0 rfl | ((try lift_lets -underBinder); intro x; first | (refine Ev.cut (P := Q0) (s0 := s0) (x := x) ?_ (fun hx => ?_); unfold x) | (refine Ev.cutP (P := Q0) (s0 := s0) (x := x) (by unfold x; exact rfl) ?_ (fun hx => ?_)) | skip) | with_reducible apply State.ev_setF | split

theorem State.ev_rteWrite {Q0 : StatePart → Bool} (hp0 : Need Q0 [.host, .regs, .out]) {s0 s : State} (ev : Ev Q0 s0 s) (f : InFlight) (data : List Byte) : Ev Q0 s0 (State.rteWrite s f data) := by
  unfold State.rteWrite
  repeat' first | with_reducible assumption | exact Need.sub hp0 rfl | ((try lift_lets -underBinder); intro x; (try dsimp -zeta -proj only); first | (refine Ev.cut (P := Q0) (s0 := s0) (x := x) ?_ (fun hx => ?_); unfold x) | (refine Ev.cutP (P := Q0) (s0 := s0) (x := x) (by unfold x; exact rfl) ?_ (fun hx => ?_)) | skip) | with_reducible apply State.ev_finish | with_reducible apply State.ev_tableWrite | with_reducible apply State.ev_writeFlat | split

theorem State.ev_writeSet {Q0 : StatePart → Bool} (hp0 : Need Q0 [.regs]) {s0 s : State} (ev : Ev Q0 s0 s) (j : Nat) (b : List Byte) : Ev Q0 s0 (State.writeSet s j b) := by
  unfold State.writeSet
  repeat' first | with_reducible assumption | exact Need.sub hp0 rfl | ((try lift_lets -underBinder); intro x; first | (refine Ev.cut (P := Q0) (s0 := s0) (x := x) ?_ (fun hx => ?_); unfold x) | (refine Ev.cutP (P := Q0) (s0 := s0) (x := x) (by unfold x; exact rfl) ?_ (fun hx => ?_)) | skip) | with_reducible apply State.ev_setF

theorem State.ev_psetWrite {Q0 : StatePart → Bool} (hp0 : Need Q0 [.host, .regs, .out]) {s0 s : State} (ev : Ev Q0 s0 s) (f : InFlight) (data : List Byte) : Ev Q0 s0 (State.psetWrite s f data) := by
  unfold State.psetWrite
  repeat' first | with_reducible assumption | exact Need.sub hp0 rfl | ((try lift_lets -underBinder); intro x; (try dsimp -zeta -proj only); first | (refine Ev.cut (P := Q0) (s0 := s0) (x := x) ?_ (fun hx => ?_); unfold x) | (refine Ev.cutP (P := Q0) (s0 := s0) (x := x) (by unfold x; exact rfl) ?_ (fun hx => ?_)) | skip) | with_reducible apply State.ev_finish | with_reducible apply State.ev_tableWrite | with_reducible apply State.ev_writeSet | split

theorem State.ev_writeOvr {Q0 : StatePart → Bool} (hp0 : Need Q0 [.regs]) {s0 s : State} (ev : Ev Q0 s0 s) (i : Nat) (b : List Byte) : Ev Q0 s0 (State.writeOvr s i b) := by
  unfold State.writeOvr
  repeat' first | with_reducible assumption | exact Need.sub hp0 rfl | with_reducible apply State.ev_setF

theorem State.ev_ovrWrite {Q0 : StatePart → Bool} (hp0 : Need Q0 [.host, .regs, .out]) {s0 s : State} (ev : Ev Q0 s0 s) (f : InFlight) (data : List Byte) : Ev Q0 s0 (State.ovrWrite s f data) := by
  unfold State.ovrWrite
  repeat' first | with_reducible assumption | exact Need.sub hp0 rfl | ((try lift_lets -underBinder); intro x; (try dsimp -zeta -proj only); first | (refine Ev.cut (P := Q0) (s0 := s0) (x := x) ?_ (fun hx => ?_); unfold x) | (refine Ev.cutP (P := Q0) (s0 := s0) (x := x) (by unfold x; exact rfl) ?_ (fun hx => ?_)) | skip) | with_reducible apply State.ev_finish | with_reducible apply State.ev_tableWrite | with_reducible apply State.ev_writeOvr | split

theorem State.ev_writeFilter {Q0 : StatePart → Bool} (hp0 : Need Q0 [.regs]) {s0 s : State} (ev : Ev Q0 s0 s) (p : Nat) (i : Nat) (b : List Byte) : Ev Q0 s0 (State.writeFilter p s i b) := by
  unfold State.writeFilter
  repeat' first | with_reducible assumption | exact Need.sub hp0 rfl | with_reducible apply State.ev_setF

theorem State.ev_filterWrite {Q0 : StatePart → Bool} (hp0 : Need Q0 [.host, .regs, .out]) {s0 s : State} (ev : Ev Q0 s0 s) (f : InFlight) (data : List Byte) : Ev Q0 s0 (State.filterWrite s f data) := by
  unfold State.filterWrite
  repeat' first | with_reducible assumption | exact Need.sub hp0 rfl | ((try lift_lets -underBinder); intro x; (try dsimp -zeta -proj only); first | (refine Ev.cut (P := Q0) (s0 := s0) (x := x) ?_ (fun hx => ?_); unfold x) | (refine Ev.cutP (P := Q0) (s0 := s0) (x := x) (by unfold x; exact rfl) ?_ (fun hx => ?_)) | skip) | with_reducible apply State.ev_finish | with_reducible apply State.ev_tableWrite | with_reducible apply State.ev_setF | with_reducible apply State.ev_writeFilter | split

theorem State.ev_portRole {Q0 : StatePart → Bool} (hp0 : Need Q0 [.host, .regs, .out]) {s0 s : State} (ev : Ev Q0 s0 s) (f : InFlight) : Ev Q0 s0 (State.portRole s f) := by
  unfold State.portRole
  repeat' first | with_reducible assumption | exact Need.sub hp0 rfl | ((try lift_lets -underBinder); intro x; first | (refine Ev.cut (P := Q0) (s0 := s0) (x := x) ?_ (fun hx => ?_); unfold x) | (refine Ev.cutP (P := Q0) (s0 := s0) (x := x) (by unfold x; exact rfl) ?_ (fun hx => ?_)) | skip) | with_reducible apply State.ev_finish | with_reducible apply State.ev_setF | split

theorem State.ev_reproveAll {Q0 : StatePart → Bool} (hp0 : Need Q0 [.subs, .freeCtr]) {s0 s : State} (ev : Ev Q0 s0 s)  : Ev Q0 s0 (State.reproveAll s) := by
  unfold State.reproveAll
  repeat' first | with_reducible assumption | exact Need.sub hp0 rfl | with_reducible apply State.ev_modSub | with_reducible apply State.ev_startIdent | with_reducible refine Ev.foldl _ (fun st a hst => ?_) _ _ ?_ | with_reducible refine Ev.foldlP _ (fun st a hst => ?_) _ _ ?_ | split

theorem State.ev_endpointAssign {Q0 : StatePart → Bool} (hp0 : Need Q0 [.host, .log, .subs, .regs, .out, .freeCtr]) {s0 s : State} (ev : Ev Q0 s0 s) (f : InFlight) : Ev Q0 s0 (State.endpointAssign s f) := by
  unfold State.endpointAssign
  repeat' first | with_reducible assumption | exact Need.sub hp0 rfl | ((try lift_lets -underBinder); intro x; first | (refine Ev.cut (P := Q0) (s0 := s0) (x := x) ?_ (fun hx => ?_); unfold x) | (refine Ev.cutP (P := Q0) (s0 := s0) (x := x) (by unfold x; exact rfl) ?_ (fun hx => ?_)) | skip) | with_reducible apply State.ev_setF | with_reducible apply State.ev_reproveAll | with_reducible apply State.ev_errRec | with_reducible apply State.ev_finish | split

theorem State.ev_telemetryCfg {Q0 : StatePart → Bool} (hp0 : Need Q0 [.host, .regs, .out]) {s0 s : State} (ev : Ev Q0 s0 s) (f : InFlight) : Ev Q0 s0 (State.telemetryCfg s f) := by
  unfold State.telemetryCfg
  repeat' first | with_reducible assumption | exact Need.sub hp0 rfl | with_reducible apply State.ev_finish | with_reducible apply State.ev_setF | split

theorem State.ev_telemetryRead {Q0 : StatePart → Bool} (hp0 : Need Q0 [.host, .regs, .out]) {s0 s : State} (ev : Ev Q0 s0 s) (f : InFlight) (ok : Bool) : Ev Q0 s0 (State.telemetryRead s f ok) := by
  unfold State.telemetryRead
  repeat' first | with_reducible assumption | exact Need.sub hp0 rfl | ((try lift_lets -underBinder); intro x; first | (refine Ev.cut (P := Q0) (s0 := s0) (x := x) ?_ (fun hx => ?_); unfold x) | (refine Ev.cutP (P := Q0) (s0 := s0) (x := x) (by unfold x; exact rfl) ?_ (fun hx => ?_)) | skip) | with_reducible apply State.ev_hostPut | with_reducible apply State.ev_finish | with_reducible refine State.ev_hostPut_eq (Need.sub hp0 rfl) ?_ _ _ _ _ (by with_reducible assumption) | split

theorem execCellRoute_ev {Q0 : StatePart → Bool} (hp0 : Need Q0 [.host, .steps, .log, .router, .ports, .subs, .parts, .cutFrames, .tele, .regs, .out]) {s0 s : State} (ev : Ev Q0 s0 s) (port : Option Port) : ∃ t, (execCellRoute port s) = .next t ∧ Ev Q0 s0 t := by
  unfold execCellRoute
  refine ⟨_, rfl, ?_⟩
  repeat' first | with_reducible assumption | exact Need.sub hp0 rfl | ((try lift_lets -underBinder); intro x; first | (refine Ev.cut (P := Q0) (s0 := s0) (x := x) ?_ (fun hx => ?_); unfold x) | (refine Ev.cutP (P := Q0) (s0 := s0) (x := x) (by unfold x; exact rfl) ?_ (fun hx => ?_)) | skip) | with_reducible apply State.ev_routeArrived | with_reducible apply State.ev_modPort | with_reducible apply State.ev_lookUp | with_reducible apply State.ev_setRouter | split

theorem execKeystoneAdmit_ev {Q0 : StatePart → Bool} (hp0 : Need Q0 [.subs]) {s0 s : State} (ev : Ev Q0 s0 s) (port : Port) (sub : Sub) : ∃ t, (execKeystoneAdmit port sub s) = .next t ∧ Ev Q0 s0 t := by
  unfold execKeystoneAdmit
  refine ⟨_, rfl, ?_⟩
  repeat' first | with_reducible assumption | exact Need.sub hp0 rfl | ((try lift_lets -underBinder); intro x; first | (refine Ev.cut (P := Q0) (s0 := s0) (x := x) ?_ (fun hx => ?_); unfold x) | (refine Ev.cutP (P := Q0) (s0 := s0) (x := x) (by unfold x; exact rfl) ?_ (fun hx => ?_)) | skip) | with_reducible apply State.ev_setSub | split

theorem execLandingToInput_ev {Q0 : StatePart → Bool} (hp0 : Need Q0 [.ports, .subs]) {s0 s : State} (ev : Ev Q0 s0 s) (port : Port) : ∃ t, (execLandingToInput port s) = .next t ∧ Ev Q0 s0 t := by
  unfold execLandingToInput
  refine ⟨_, rfl, ?_⟩
  repeat' first | with_reducible assumption | exact Need.sub hp0 rfl | with_reducible apply State.ev_landingMove | split

theorem execCreditCellSend_ev {Q0 : StatePart → Bool} (hp0 : Need Q0 [.subs]) {s0 s : State} (ev : Ev Q0 s0 s) (port : Port) (sub : Sub) : ∃ t, (execCreditCellSend port sub s) = .next t ∧ Ev Q0 s0 t := by
  unfold execCreditCellSend
  refine ⟨_, rfl, ?_⟩
  repeat' first | with_reducible assumption | exact Need.sub hp0 rfl | with_reducible apply State.ev_sendPortCredit | split

theorem execCreditCellReceive_ev {Q0 : StatePart → Bool} (hp0 : Need Q0 [.subs, .regs]) {s0 s : State} (ev : Ev Q0 s0 s) (port : Port) (sub : Sub) : ∃ t, (execCreditCellReceive port sub s) = .next t ∧ Ev Q0 s0 t := by
  unfold execCreditCellReceive
  refine ⟨_, rfl, ?_⟩
  repeat' first | with_reducible assumption | exact Need.sub hp0 rfl | ((try lift_lets -underBinder); intro x; first | (refine Ev.cut (P := Q0) (s0 := s0) (x := x) ?_ (fun hx => ?_); unfold x) | (refine Ev.cutP (P := Q0) (s0 := s0) (x := x) (by unfold x; exact rfl) ?_ (fun hx => ?_)) | skip) | with_reducible apply State.ev_showMarks | with_reducible apply State.ev_setSub | refine State.ev_takeLink (Need.sub hp0 rfl) ?_ _ _ _ (he.trans (by with_reducible assumption)) | with_reducible refine State.ev_takeLink (Need.sub hp0 rfl) ?_ _ _ _ (by with_reducible assumption) | split

theorem execSubportReroute_ev {Q0 : StatePart → Bool} (hp0 : Need Q0 [.subs, .tele, .regs]) {s0 s : State} (ev : Ev Q0 s0 s) (port : Port) (sub : Sub) : ∃ t, (execSubportReroute port sub s) = .next t ∧ Ev Q0 s0 t := by
  unfold execSubportReroute
  refine ⟨_, rfl, ?_⟩
  repeat' first | with_reducible assumption | exact Need.sub hp0 rfl | with_reducible apply State.ev_reroute

theorem execCreditStallTimeout_ev {Q0 : StatePart → Bool} (hp0 : Need Q0 [.host, .log, .subs, .tele, .regs, .out]) {s0 s : State} (ev : Ev Q0 s0 s) (port : Port) (sub : Sub) : ∃ t, (execCreditStallTimeout port sub s) = .next t ∧ Ev Q0 s0 t := by
  unfold execCreditStallTimeout
  refine ⟨_, rfl, ?_⟩
  repeat' first | with_reducible assumption | exact Need.sub hp0 rfl | ((try lift_lets -underBinder); intro x; first | (refine Ev.cut (P := Q0) (s0 := s0) (x := x) ?_ (fun hx => ?_); unfold x) | (refine Ev.cutP (P := Q0) (s0 := s0) (x := x) (by unfold x; exact rfl) ?_ (fun hx => ?_)) | skip) | with_reducible apply State.ev_showMarks | with_reducible apply State.ev_bumpSat | with_reducible apply State.ev_modSub | with_reducible apply State.ev_reroute | with_reducible apply State.ev_fabricRec | split

theorem execKStallTimeout_ev {Q0 : StatePart → Bool} (hp0 : Need Q0 [.host, .log, .subs, .tele, .regs, .out]) {s0 s : State} (ev : Ev Q0 s0 s) (port : Port) (sub : Sub) : ∃ t, (execKStallTimeout port sub s) = .next t ∧ Ev Q0 s0 t := by
  unfold execKStallTimeout
  refine ⟨_, rfl, ?_⟩
  repeat' first | with_reducible assumption | exact Need.sub hp0 rfl | ((try lift_lets -underBinder); intro x; first | (refine Ev.cut (P := Q0) (s0 := s0) (x := x) ?_ (fun hx => ?_); unfold x) | (refine Ev.cutP (P := Q0) (s0 := s0) (x := x) (by unfold x; exact rfl) ?_ (fun hx => ?_)) | skip) | with_reducible apply State.ev_showMarks | with_reducible apply State.ev_bumpSat | with_reducible apply State.ev_modSub | with_reducible apply State.ev_reroute | with_reducible apply State.ev_fabricRec | split

theorem execCellTransmit_ev {Q0 : StatePart → Bool} (hp0 : Need Q0 [.subs, .regs]) {s0 s : State} (ev : Ev Q0 s0 s) (port : Port) (sub : Sub) : ∃ t, (execCellTransmit port sub s) = .next t ∧ Ev Q0 s0 t := by
  unfold execCellTransmit
  refine ⟨_, rfl, ?_⟩
  repeat' first | with_reducible assumption | exact Need.sub hp0 rfl | ((try lift_lets -underBinder); intro x; first | (refine Ev.cut (P := Q0) (s0 := s0) (x := x) ?_ (fun hx => ?_); unfold x) | (refine Ev.cutP (P := Q0) (s0 := s0) (x := x) (by unfold x; exact rfl) ?_ (fun hx => ?_)) | skip) | with_reducible apply State.ev_sendPortCredit | with_reducible apply State.ev_bumpWrap | with_reducible apply State.ev_setSub | split

theorem execSlowDestMark_ev {Q0 : StatePart → Bool} (hp0 : Need Q0 [.regs]) {s0 s : State} (ev : Ev Q0 s0 s) (group : BitVec 12) : ∃ t, (execSlowDestMark group s) = .next t ∧ Ev Q0 s0 t := by
  unfold execSlowDestMark
  refine ⟨_, rfl, ?_⟩
  repeat' first | with_reducible assumption | exact Need.sub hp0 rfl | ((try lift_lets -underBinder); intro x; first | (refine Ev.cut (P := Q0) (s0 := s0) (x := x) ?_ (fun hx => ?_); unfold x) | (refine Ev.cutP (P := Q0) (s0 := s0) (x := x) (by unfold x; exact rfl) ?_ (fun hx => ?_)) | skip) | with_reducible apply State.ev_setF | split

theorem execTelemetrySample_ev {Q0 : StatePart → Bool} (hp0 : Need Q0 [.tele]) {s0 s : State} (ev : Ev Q0 s0 s)  : ∃ t, (execTelemetrySample s) = .next t ∧ Ev Q0 s0 t := by
  unfold execTelemetrySample
  refine ⟨_, rfl, ?_⟩
  repeat' first | with_reducible assumption | exact Need.sub hp0 rfl | ((try lift_lets -underBinder); intro x; first | (refine Ev.cut (P := Q0) (s0 := s0) (x := x) ?_ (fun hx => ?_); unfold x) | (refine Ev.cutP (P := Q0) (s0 := s0) (x := x) (by unfold x; exact rfl) ?_ (fun hx => ?_)) | skip) | split | with_reducible apply Ev.upd | with_reducible apply Ev.updOut | exact Or.inl (Need.has hp0 rfl) | with_reducible exact Or.inr rfl | exact Need.has hp0 rfl | with_reducible rfl

theorem execTelemetryIntervalEnd_ev {Q0 : StatePart → Bool} (hp0 : Need Q0 [.router, .tele, .regs]) {s0 s : State} (ev : Ev Q0 s0 s)  : ∃ t, (execTelemetryIntervalEnd s) = .next t ∧ Ev Q0 s0 t := by
  unfold execTelemetryIntervalEnd
  refine ⟨_, rfl, ?_⟩
  repeat' first | with_reducible assumption | exact Need.sub hp0 rfl | ((try lift_lets -underBinder); intro x; first | (refine Ev.cut (P := Q0) (s0 := s0) (x := x) ?_ (fun hx => ?_); unfold x) | (refine Ev.cutP (P := Q0) (s0 := s0) (x := x) (by unfold x; exact rfl) ?_ (fun hx => ?_)) | skip) | with_reducible apply State.ev_sendFrame | with_reducible apply State.ev_teleEnd | split

theorem execRteWrite_ev {Q0 : StatePart → Bool} (hp0 : Need Q0 [.host, .regs, .out]) {s0 s : State} (ev : Ev Q0 s0 s) (sq : RingNo) (data : List Byte) : ∃ t, (execRteWrite sq data s) = .next t ∧ Ev Q0 s0 t := by
  unfold execRteWrite
  refine ⟨_, rfl, ?_⟩
  repeat' first | with_reducible assumption | exact Need.sub hp0 rfl | ((try lift_lets -underBinder); intro x; (try dsimp -zeta -proj only); first | (refine Ev.cut (P := Q0) (s0 := s0) (x := x) ?_ (fun hx => ?_); unfold x) | (refine Ev.cutP (P := Q0) (s0 := s0) (x := x) (by unfold x; exact rfl) ?_ (fun hx => ?_)) | skip) | with_reducible apply State.ev_ringCmd | with_reducible apply State.ev_rteWrite

theorem execPsetWrite_ev {Q0 : StatePart → Bool} (hp0 : Need Q0 [.host, .regs, .out]) {s0 s : State} (ev : Ev Q0 s0 s) (sq : RingNo) (data : List Byte) : ∃ t, (execPsetWrite sq data s) = .next t ∧ Ev Q0 s0 t := by
  unfold execPsetWrite
  refine ⟨_, rfl, ?_⟩
  repeat' first | with_reducible assumption | exact Need.sub hp0 rfl | ((try lift_lets -underBinder); intro x; (try dsimp -zeta -proj only); first | (refine Ev.cut (P := Q0) (s0 := s0) (x := x) ?_ (fun hx => ?_); unfold x) | (refine Ev.cutP (P := Q0) (s0 := s0) (x := x) (by unfold x; exact rfl) ?_ (fun hx => ?_)) | skip) | with_reducible apply State.ev_ringCmd | with_reducible apply State.ev_psetWrite

theorem execOvrWrite_ev {Q0 : StatePart → Bool} (hp0 : Need Q0 [.host, .regs, .out]) {s0 s : State} (ev : Ev Q0 s0 s) (sq : RingNo) (data : List Byte) : ∃ t, (execOvrWrite sq data s) = .next t ∧ Ev Q0 s0 t := by
  unfold execOvrWrite
  refine ⟨_, rfl, ?_⟩
  repeat' first | with_reducible assumption | exact Need.sub hp0 rfl | ((try lift_lets -underBinder); intro x; (try dsimp -zeta -proj only); first | (refine Ev.cut (P := Q0) (s0 := s0) (x := x) ?_ (fun hx => ?_); unfold x) | (refine Ev.cutP (P := Q0) (s0 := s0) (x := x) (by unfold x; exact rfl) ?_ (fun hx => ?_)) | skip) | with_reducible apply State.ev_ringCmd | with_reducible apply State.ev_ovrWrite

theorem execFilterWrite_ev {Q0 : StatePart → Bool} (hp0 : Need Q0 [.host, .regs, .out]) {s0 s : State} (ev : Ev Q0 s0 s) (sq : RingNo) (data : List Byte) : ∃ t, (execFilterWrite sq data s) = .next t ∧ Ev Q0 s0 t := by
  unfold execFilterWrite
  refine ⟨_, rfl, ?_⟩
  repeat' first | with_reducible assumption | exact Need.sub hp0 rfl | ((try lift_lets -underBinder); intro x; (try dsimp -zeta -proj only); first | (refine Ev.cut (P := Q0) (s0 := s0) (x := x) ?_ (fun hx => ?_); unfold x) | (refine Ev.cutP (P := Q0) (s0 := s0) (x := x) (by unfold x; exact rfl) ?_ (fun hx => ?_)) | skip) | with_reducible apply State.ev_ringCmd | with_reducible apply State.ev_filterWrite

theorem execPortRole_ev {Q0 : StatePart → Bool} (hp0 : Need Q0 [.host, .regs, .out]) {s0 s : State} (ev : Ev Q0 s0 s) (sq : RingNo) : ∃ t, (execPortRole sq s) = .next t ∧ Ev Q0 s0 t := by
  unfold execPortRole
  refine ⟨_, rfl, ?_⟩
  repeat' first | with_reducible assumption | exact Need.sub hp0 rfl | ((try lift_lets -underBinder); intro x; (try dsimp -zeta -proj only); first | (refine Ev.cut (P := Q0) (s0 := s0) (x := x) ?_ (fun hx => ?_); unfold x) | (refine Ev.cutP (P := Q0) (s0 := s0) (x := x) (by unfold x; exact rfl) ?_ (fun hx => ?_)) | skip) | with_reducible apply State.ev_ringCmd | with_reducible apply State.ev_portRole

theorem execEndpointAssign_ev {Q0 : StatePart → Bool} (hp0 : Need Q0 [.host, .log, .subs, .regs, .out, .freeCtr]) {s0 s : State} (ev : Ev Q0 s0 s) (sq : RingNo) : ∃ t, (execEndpointAssign sq s) = .next t ∧ Ev Q0 s0 t := by
  unfold execEndpointAssign
  refine ⟨_, rfl, ?_⟩
  repeat' first | with_reducible assumption | exact Need.sub hp0 rfl | ((try lift_lets -underBinder); intro x; (try dsimp -zeta -proj only); first | (refine Ev.cut (P := Q0) (s0 := s0) (x := x) ?_ (fun hx => ?_); unfold x) | (refine Ev.cutP (P := Q0) (s0 := s0) (x := x) (by unfold x; exact rfl) ?_ (fun hx => ?_)) | skip) | with_reducible apply State.ev_ringCmd | with_reducible apply State.ev_endpointAssign

theorem execTelemetryCfg_ev {Q0 : StatePart → Bool} (hp0 : Need Q0 [.host, .regs, .out]) {s0 s : State} (ev : Ev Q0 s0 s) (sq : RingNo) : ∃ t, (execTelemetryCfg sq s) = .next t ∧ Ev Q0 s0 t := by
  unfold execTelemetryCfg
  refine ⟨_, rfl, ?_⟩
  repeat' first | with_reducible assumption | exact Need.sub hp0 rfl | ((try lift_lets -underBinder); intro x; (try dsimp -zeta -proj only); first | (refine Ev.cut (P := Q0) (s0 := s0) (x := x) ?_ (fun hx => ?_); unfold x) | (refine Ev.cutP (P := Q0) (s0 := s0) (x := x) (by unfold x; exact rfl) ?_ (fun hx => ?_)) | skip) | with_reducible apply State.ev_ringCmd | with_reducible apply State.ev_telemetryCfg

theorem execTelemetryRead_ev {Q0 : StatePart → Bool} (hp0 : Need Q0 [.host, .regs, .out]) {s0 s : State} (ev : Ev Q0 s0 s) (sq : RingNo) (ok : Bool) : ∃ t, (execTelemetryRead sq ok s) = .next t ∧ Ev Q0 s0 t := by
  unfold execTelemetryRead
  refine ⟨_, rfl, ?_⟩
  repeat' first | with_reducible assumption | exact Need.sub hp0 rfl | ((try lift_lets -underBinder); intro x; (try dsimp -zeta -proj only); first | (refine Ev.cut (P := Q0) (s0 := s0) (x := x) ?_ (fun hx => ?_); unfold x) | (refine Ev.cutP (P := Q0) (s0 := s0) (x := x) (by unfold x; exact rfl) ?_ (fun hx => ?_)) | skip) | with_reducible apply State.ev_ringCmd | with_reducible apply State.ev_telemetryRead

end Sys2Proof.Machine
end

