-- ==== Sys2Proof/Laws/EvFabricTime.lean ====
section
/-! SUPPORT. The operations of FabricTime.lean keep the relation Ev. -/

namespace Sys2Proof.Machine

open Sys2Proof

set_option linter.unusedVariables false

theorem State.ev_setSteer {Q0 : StatePart → Bool} (hp0 : Need Q0 [.steer]) {s0 s : State} (ev : Ev Q0 s0 s) (x1 : SteerSt) : Ev Q0 s0 (State.setSteer s x1) := by
  unfold State.setSteer
  repeat' first | with_reducible assumption | exact Need.sub hp0 rfl | with_reducible apply Ev.upd | with_reducible apply Ev.updOut | exact Or.inl (Need.has hp0 rfl) | with_reducible exact Or.inr rfl | exact Need.has hp0 rfl | with_reducible rfl

theorem State.ev_setTimeState {Q0 : StatePart → Bool} (hp0 : Need Q0 [.steer, .regs]) {s0 s : State} (ev : Ev Q0 s0 s) (n : Nat) : Ev Q0 s0 (State.setTimeState s n) := by
  unfold State.setTimeState
  repeat' first | with_reducible assumption | exact Need.sub hp0 rfl | ((try lift_lets -underBinder); intro x; first | (refine Ev.cut (P := Q0) (s0 := s0) (x := x) ?_ (fun hx => ?_); unfold x) | (refine Ev.cutP (P := Q0) (s0 := s0) (x := x) (by unfold x; exact rfl) ?_ (fun hx => ?_)) | skip) | with_reducible apply State.ev_setSteer | with_reducible apply State.ev_setF

theorem State.ev_timeRec {Q0 : StatePart → Bool} (hp0 : Need Q0 [.host, .log, .regs, .out]) {s0 s : State} (ev : Ev Q0 s0 s) (event : Nat) (sev : Nat) (off : Int) (entry : Nat) : Ev Q0 s0 (State.timeRec s event sev off entry) := by
  unfold State.timeRec
  repeat' first | with_reducible assumption | exact Need.sub hp0 rfl | with_reducible apply State.ev_errRec

theorem State.ev_takeOffset {Q0 : StatePart → Bool} (hp0 : Need Q0 [.host, .log, .steer, .regs, .out, .freeCtr]) {s0 s : State} (ev : Ev Q0 s0 s) (th : Int) (need : Nat) : Ev Q0 s0 (State.takeOffset s th need) := by
  unfold State.takeOffset
  repeat' first | with_reducible assumption | exact Need.sub hp0 rfl | ((try lift_lets -underBinder); intro x; first | (refine Ev.cut (P := Q0) (s0 := s0) (x := x) ?_ (fun hx => ?_); unfold x) | (refine Ev.cutP (P := Q0) (s0 := s0) (x := x) (by unfold x; exact rfl) ?_ (fun hx => ?_)) | skip) | with_reducible apply State.ev_setF | with_reducible apply State.ev_setTimeState | with_reducible apply State.ev_timeRec | with_reducible apply State.ev_bumpSat | with_reducible apply State.ev_setSteer | with_reducible apply State.ev_drew | split

theorem State.ev_useOffset {Q0 : StatePart → Bool} (hp0 : Need Q0 [.host, .log, .steer, .regs, .out, .freeCtr]) {s0 s : State} (ev : Ev Q0 s0 s) (p : Nat) (q : Nat) (f : Int) : Ev Q0 s0 (State.useOffset s p q f) := by
  unfold State.useOffset
  repeat' first | with_reducible assumption | exact Need.sub hp0 rfl | ((try lift_lets -underBinder); intro x; first | (refine Ev.cut (P := Q0) (s0 := s0) (x := x) ?_ (fun hx => ?_); unfold x) | (refine Ev.cutP (P := Q0) (s0 := s0) (x := x) (by unfold x; exact rfl) ?_ (fun hx => ?_)) | skip) | with_reducible apply State.ev_setF | with_reducible apply State.ev_takeOffset | split

theorem State.ev_showGate {Q0 : StatePart → Bool} (hp0 : Need Q0 [.regs]) {s0 s : State} (ev : Ev Q0 s0 s) (p : Nat) : Ev Q0 s0 (State.showGate s p) := by
  unfold State.showGate
  repeat' first | with_reducible assumption | exact Need.sub hp0 rfl | ((try lift_lets -underBinder); intro x; first | (refine Ev.cut (P := Q0) (s0 := s0) (x := x) ?_ (fun hx => ?_); unfold x) | (refine Ev.cutP (P := Q0) (s0 := s0) (x := x) (by unfold x; exact rfl) ?_ (fun hx => ?_)) | skip) | with_reducible apply State.ev_setF

theorem State.ev_gateWrite {Q0 : StatePart → Bool} (hp0 : Need Q0 [.host, .ports, .regs, .out]) {s0 s : State} (ev : Ev Q0 s0 s) (f : InFlight) (data : Option (List Byte)) : Ev Q0 s0 (State.gateWrite s f data) := by
  unfold State.gateWrite
  repeat' first | with_reducible assumption | exact Need.sub hp0 rfl | ((try lift_lets -underBinder); intro x; first | (refine Ev.cut (P := Q0) (s0 := s0) (x := x) ?_ (fun hx => ?_); unfold x) | (refine Ev.cutP (P := Q0) (s0 := s0) (x := x) (by unfold x; exact rfl) ?_ (fun hx => ?_)) | skip) | with_reducible apply State.ev_finish | with_reducible apply State.ev_hostGet | with_reducible apply State.ev_setF | with_reducible apply State.ev_showGate | with_reducible apply State.ev_modPort | with_reducible refine State.ev_hostGet_eq (Need.sub hp0 rfl) ?_ _ _ _ _ (by with_reducible assumption) | split

theorem State.ev_sendPause {Q0 : StatePart → Bool} (hp0 : Need Q0 [.subs]) {s0 s : State} (ev : Ev Q0 s0 s) (p : Nat) (q : Nat) (mask : Nat) (dur : Nat) : Ev Q0 s0 (State.sendPause s p q mask dur) := by
  unfold State.sendPause
  repeat' first | with_reducible assumption | exact Need.sub hp0 rfl | with_reducible apply State.ev_modSub | split

theorem State.ev_sendPauses {Q0 : StatePart → Bool} (hp0 : Need Q0 [.subs]) {s0 s : State} (ev : Ev Q0 s0 s) (p : Nat) (b : Nat) (mask : Nat) (dur : Nat) : Ev Q0 s0 (State.sendPauses s p b mask dur) := by
  unfold State.sendPauses
  repeat' first | with_reducible assumption | exact Need.sub hp0 rfl | with_reducible apply State.ev_sendPause | with_reducible refine Ev.foldl _ (fun st a hst => ?_) _ _ ?_ | with_reducible refine Ev.foldlP _ (fun st a hst => ?_) _ _ ?_

theorem State.ev_tcSource {Q0 : StatePart → Bool} (hp0 : Need Q0 [.host, .steer, .regs, .out]) {s0 s : State} (ev : Ev Q0 s0 s) (f : InFlight) : Ev Q0 s0 (State.tcSource s f) := by
  unfold State.tcSource
  repeat' first | with_reducible assumption | exact Need.sub hp0 rfl | ((try lift_lets -underBinder); intro x; first | (refine Ev.cut (P := Q0) (s0 := s0) (x := x) ?_ (fun hx => ?_); unfold x) | (refine Ev.cutP (P := Q0) (s0 := s0) (x := x) (by unfold x; exact rfl) ?_ (fun hx => ?_)) | skip) | with_reducible apply State.ev_finish | with_reducible apply State.ev_setF | with_reducible apply State.ev_sourceCheck | with_reducible apply State.ev_setSteer | split

theorem State.ev_dropAllKeys {Q0 : StatePart → Bool} (hp0 : Need Q0 [.subs, .regs]) {s0 s : State} (ev : Ev Q0 s0 s)  : Ev Q0 s0 (State.dropAllKeys s) := by
  unfold State.dropAllKeys
  repeat' first | with_reducible assumption | exact Need.sub hp0 rfl | with_reducible apply State.ev_dropKeys | with_reducible refine Ev.foldl _ (fun st a hst => ?_) _ _ ?_ | with_reducible refine Ev.foldlP _ (fun st a hst => ?_) _ _ ?_

theorem State.ev_tcStep {Q0 : StatePart → Bool} (hp0 : Need Q0 [.time, .host, .subs, .steer, .regs, .out]) {s0 s : State} (ev : Ev Q0 s0 s) (f : InFlight) : Ev Q0 s0 (State.tcStep s f) := by
  unfold State.tcStep
  repeat' first | with_reducible assumption | exact Need.sub hp0 rfl | ((try lift_lets -underBinder); intro x; first | (refine Ev.cut (P := Q0) (s0 := s0) (x := x) ?_ (fun hx => ?_); unfold x) | (refine Ev.cutP (P := Q0) (s0 := s0) (x := x) (by unfold x; exact rfl) ?_ (fun hx => ?_)) | skip) | with_reducible apply State.ev_finish | with_reducible apply State.ev_setF | with_reducible apply State.ev_setTimeState | with_reducible apply State.ev_dropAllKeys | with_reducible apply State.ev_setSteer | split | with_reducible apply Ev.upd | with_reducible apply Ev.updOut | exact Or.inl (Need.has hp0 rfl) | with_reducible exact Or.inr rfl | exact Need.has hp0 rfl | with_reducible rfl

theorem State.ev_tcAsym {Q0 : StatePart → Bool} (hp0 : Need Q0 [.host, .regs, .out]) {s0 s : State} (ev : Ev Q0 s0 s) (f : InFlight) : Ev Q0 s0 (State.tcAsym s f) := by
  unfold State.tcAsym
  repeat' first | with_reducible assumption | exact Need.sub hp0 rfl | ((try lift_lets -underBinder); intro x; first | (refine Ev.cut (P := Q0) (s0 := s0) (x := x) ?_ (fun hx => ?_); unfold x) | (refine Ev.cutP (P := Q0) (s0 := s0) (x := x) (by unfold x; exact rfl) ?_ (fun hx => ?_)) | skip) | with_reducible apply State.ev_finish | with_reducible apply State.ev_setF | split

theorem State.ev_tcPause {Q0 : StatePart → Bool} (hp0 : Need Q0 [.host, .subs, .regs, .out]) {s0 s : State} (ev : Ev Q0 s0 s) (f : InFlight) : Ev Q0 s0 (State.tcPause s f) := by
  unfold State.tcPause
  repeat' first | with_reducible assumption | exact Need.sub hp0 rfl | ((try lift_lets -underBinder); intro x; first | (refine Ev.cut (P := Q0) (s0 := s0) (x := x) ?_ (fun hx => ?_); unfold x) | (refine Ev.cutP (P := Q0) (s0 := s0) (x := x) (by unfold x; exact rfl) ?_ (fun hx => ?_)) | skip) | with_reducible apply State.ev_finish | with_reducible apply State.ev_sendPauses | split

theorem execTimeSourceLoss_ev {Q0 : StatePart → Bool} (hp0 : Need Q0 [.host, .log, .steer, .regs, .out]) {s0 s : State} (ev : Ev Q0 s0 s)  : ∃ t, (execTimeSourceLoss s) = .next t ∧ Ev Q0 s0 t := by
  unfold execTimeSourceLoss
  refine ⟨_, rfl, ?_⟩
  repeat' first | with_reducible assumption | exact Need.sub hp0 rfl | ((try lift_lets -underBinder); intro x; first | (refine Ev.cut (P := Q0) (s0 := s0) (x := x) ?_ (fun hx => ?_); unfold x) | (refine Ev.cutP (P := Q0) (s0 := s0) (x := x) (by unfold x; exact rfl) ?_ (fun hx => ?_)) | skip) | with_reducible apply State.ev_bumpSat | with_reducible apply State.ev_timeRec | with_reducible apply State.ev_setTimeState | with_reducible apply State.ev_setSteer | with_reducible apply State.ev_setF | split

theorem execHoldoverTimeout_ev {Q0 : StatePart → Bool} (hp0 : Need Q0 [.steer, .regs]) {s0 s : State} (ev : Ev Q0 s0 s)  : ∃ t, (execHoldoverTimeout s) = .next t ∧ Ev Q0 s0 t := by
  unfold execHoldoverTimeout
  refine ⟨_, rfl, ?_⟩
  repeat' first | with_reducible assumption | exact Need.sub hp0 rfl | with_reducible apply State.ev_setF | with_reducible apply State.ev_setTimeState | split

theorem execTodRecordWrite_ev {Q0 : StatePart → Bool} (hp0 : Need Q0 [.steer, .regs]) {s0 s : State} (ev : Ev Q0 s0 s) (rec : List Byte) : ∃ t, (execTodRecordWrite rec s) = .next t ∧ Ev Q0 s0 t := by
  unfold execTodRecordWrite
  refine ⟨_, rfl, ?_⟩
  repeat' first | with_reducible assumption | exact Need.sub hp0 rfl | ((try lift_lets -underBinder); intro x; first | (refine Ev.cut (P := Q0) (s0 := s0) (x := x) ?_ (fun hx => ?_); unfold x) | (refine Ev.cutP (P := Q0) (s0 := s0) (x := x) (by unfold x; exact rfl) ?_ (fun hx => ?_)) | skip) | with_reducible apply State.ev_setSteer | with_reducible apply State.ev_setF | with_reducible apply State.ev_bumpSat | split

theorem execPpsEdge_ev {Q0 : StatePart → Bool} (hp0 : Need Q0 [.time, .host, .log, .steer, .regs, .out, .freeCtr]) {s0 s : State} (ev : Ev Q0 s0 s)  : ∃ t, (execPpsEdge s) = .next t ∧ Ev Q0 s0 t := by
  unfold execPpsEdge
  refine ⟨_, rfl, ?_⟩
  repeat' first | with_reducible assumption | exact Need.sub hp0 rfl | ((try lift_lets -underBinder); intro x; first | (refine Ev.cut (P := Q0) (s0 := s0) (x := x) ?_ (fun hx => ?_); unfold x) | (refine Ev.cutP (P := Q0) (s0 := s0) (x := x) (by unfold x; exact rfl) ?_ (fun hx => ?_)) | skip) | with_reducible apply State.ev_setSteer | with_reducible apply State.ev_setF | with_reducible apply State.ev_sourceCheck | with_reducible apply State.ev_setTimeState | with_reducible apply State.ev_takeOffset | split | with_reducible apply Ev.upd | with_reducible apply Ev.updOut | exact Or.inl (Need.has hp0 rfl) | with_reducible exact Or.inr rfl | exact Need.has hp0 rfl | with_reducible rfl

theorem execPpsTimeout_ev {Q0 : StatePart → Bool} (hp0 : Need Q0 [.regs]) {s0 s : State} (ev : Ev Q0 s0 s)  : ∃ t, (execPpsTimeout s) = .next t ∧ Ev Q0 s0 t := by
  unfold execPpsTimeout
  refine ⟨_, rfl, ?_⟩
  repeat' first | with_reducible assumption | exact Need.sub hp0 rfl | with_reducible apply State.ev_bumpSat | with_reducible apply State.ev_setF | split

theorem execEchoReqSend_ev {Q0 : StatePart → Bool} (hp0 : Need Q0 [.subs]) {s0 s : State} (ev : Ev Q0 s0 s) (port : Port) (sub : Sub) : ∃ t, (execEchoReqSend port sub s) = .next t ∧ Ev Q0 s0 t := by
  unfold execEchoReqSend
  refine ⟨_, rfl, ?_⟩
  repeat' first | with_reducible assumption | exact Need.sub hp0 rfl | ((try lift_lets -underBinder); intro x; first | (refine Ev.cut (P := Q0) (s0 := s0) (x := x) ?_ (fun hx => ?_); unfold x) | (refine Ev.cutP (P := Q0) (s0 := s0) (x := x) (by unfold x; exact rfl) ?_ (fun hx => ?_)) | skip) | with_reducible apply State.ev_setSub | split

theorem execEchoReqReceive_ev {Q0 : StatePart → Bool} (hp0 : Need Q0 [.subs]) {s0 s : State} (ev : Ev Q0 s0 s) (port : Port) (sub : Sub) : ∃ t, (execEchoReqReceive port sub s) = .next t ∧ Ev Q0 s0 t := by
  unfold execEchoReqReceive
  refine ⟨_, rfl, ?_⟩
  repeat' first | with_reducible assumption | exact Need.sub hp0 rfl | ((try lift_lets -underBinder); intro x; first | (refine Ev.cut (P := Q0) (s0 := s0) (x := x) ?_ (fun hx => ?_); unfold x) | (refine Ev.cutP (P := Q0) (s0 := s0) (x := x) (by unfold x; exact rfl) ?_ (fun hx => ?_)) | skip) | with_reducible apply State.ev_modSub | refine State.ev_takeType (Need.sub hp0 rfl) ?_ _ _ _ (he.trans (by with_reducible assumption)) | with_reducible refine State.ev_takeType (Need.sub hp0 rfl) ?_ _ _ _ (by with_reducible assumption) | split

theorem execEchoRspReceive_ev {Q0 : StatePart → Bool} (hp0 : Need Q0 [.host, .log, .ports, .subs, .steer, .regs, .out, .freeCtr]) {s0 s : State} (ev : Ev Q0 s0 s) (port : Port) (sub : Sub) (frac : Half) : ∃ t, (execEchoRspReceive port sub frac s) = .next t ∧ Ev Q0 s0 t := by
  unfold execEchoRspReceive
  refine ⟨_, rfl, ?_⟩
  repeat' first | with_reducible assumption | exact Need.sub hp0 rfl | ((try lift_lets -underBinder); intro x; first | (refine Ev.cut (P := Q0) (s0 := s0) (x := x) ?_ (fun hx => ?_); unfold x) | (refine Ev.cutP (P := Q0) (s0 := s0) (x := x) (by unfold x; exact rfl) ?_ (fun hx => ?_)) | skip) | with_reducible apply State.ev_setSub | with_reducible apply State.ev_endIdent | with_reducible apply State.ev_useOffset | refine State.ev_takeType (Need.sub hp0 rfl) ?_ _ _ _ (he.trans (by with_reducible assumption)) | with_reducible refine State.ev_takeType (Need.sub hp0 rfl) ?_ _ _ _ (by with_reducible assumption) | split

theorem execGateEntryBoundary_ev {Q0 : StatePart → Bool} (hp0 : Need Q0 [.regs]) {s0 s : State} (ev : Ev Q0 s0 s) (port : Port) : ∃ t, (execGateEntryBoundary port s) = .next t ∧ Ev Q0 s0 t := by
  unfold execGateEntryBoundary
  refine ⟨_, rfl, ?_⟩
  repeat' first | with_reducible assumption | exact Need.sub hp0 rfl | with_reducible apply State.ev_showGate | split

theorem execGateTakeover_ev {Q0 : StatePart → Bool} (hp0 : Need Q0 [.ports, .regs]) {s0 s : State} (ev : Ev Q0 s0 s) (port : Port) : ∃ t, (execGateTakeover port s) = .next t ∧ Ev Q0 s0 t := by
  unfold execGateTakeover
  refine ⟨_, rfl, ?_⟩
  repeat' first | with_reducible assumption | exact Need.sub hp0 rfl | with_reducible apply State.ev_showGate | with_reducible apply State.ev_modPort | split

theorem execGateWrite_ev {Q0 : StatePart → Bool} (hp0 : Need Q0 [.host, .ports, .regs, .out]) {s0 s : State} (ev : Ev Q0 s0 s) (sq : RingNo) (data : Option (List Byte)) : ∃ t, (execGateWrite sq data s) = .next t ∧ Ev Q0 s0 t := by
  unfold execGateWrite
  refine ⟨_, rfl, ?_⟩
  repeat' first | with_reducible assumption | exact Need.sub hp0 rfl | ((try lift_lets -underBinder); intro x; (try dsimp -zeta -proj only); first | (refine Ev.cut (P := Q0) (s0 := s0) (x := x) ?_ (fun hx => ?_); unfold x) | (refine Ev.cutP (P := Q0) (s0 := s0) (x := x) (by unfold x; exact rfl) ?_ (fun hx => ?_)) | skip) | with_reducible apply State.ev_ringCmd | with_reducible apply State.ev_gateWrite

theorem execPauseReceive_ev {Q0 : StatePart → Bool} (hp0 : Need Q0 [.subs, .regs]) {s0 s : State} (ev : Ev Q0 s0 s) (port : Port) (sub : Sub) : ∃ t, (execPauseReceive port sub s) = .next t ∧ Ev Q0 s0 t := by
  unfold execPauseReceive
  refine ⟨_, rfl, ?_⟩
  repeat' first | with_reducible assumption | exact Need.sub hp0 rfl | ((try lift_lets -underBinder); intro x; first | (refine Ev.cut (P := Q0) (s0 := s0) (x := x) ?_ (fun hx => ?_); unfold x) | (refine Ev.cutP (P := Q0) (s0 := s0) (x := x) (by unfold x; exact rfl) ?_ (fun hx => ?_)) | skip) | with_reducible apply State.ev_bumpSat | with_reducible apply State.ev_setSub | refine State.ev_takeLink (Need.sub hp0 rfl) ?_ _ _ _ (he.trans (by with_reducible assumption)) | with_reducible refine State.ev_takeLink (Need.sub hp0 rfl) ?_ _ _ _ (by with_reducible assumption) | split

theorem execPauseExpire_ev {Q0 : StatePart → Bool} (hp0 : Need Q0 [.subs]) {s0 s : State} (ev : Ev Q0 s0 s) (port : Port) (sub : Sub) : ∃ t, (execPauseExpire port sub s) = .next t ∧ Ev Q0 s0 t := by
  unfold execPauseExpire
  refine ⟨_, rfl, ?_⟩
  repeat' first | with_reducible assumption | exact Need.sub hp0 rfl | with_reducible apply State.ev_modSub

theorem execPauseAbuseTimeout_ev {Q0 : StatePart → Bool} (hp0 : Need Q0 [.host, .log, .subs, .regs, .out, .freeCtr]) {s0 s : State} (ev : Ev Q0 s0 s) (port : Port) (sub : Sub) : ∃ t, (execPauseAbuseTimeout port sub s) = .next t ∧ Ev Q0 s0 t := by
  unfold execPauseAbuseTimeout
  refine ⟨_, rfl, ?_⟩
  repeat' first | with_reducible assumption | exact Need.sub hp0 rfl | ((try lift_lets -underBinder); intro x; first | (refine Ev.cut (P := Q0) (s0 := s0) (x := x) ?_ (fun hx => ?_); unfold x) | (refine Ev.cutP (P := Q0) (s0 := s0) (x := x) (by unfold x; exact rfl) ?_ (fun hx => ?_)) | skip) | with_reducible apply State.ev_drew | with_reducible apply State.ev_fabricRec | with_reducible apply State.ev_bumpSat | with_reducible apply State.ev_modSub | split

theorem execPauseIgnoreEnd_ev {Q0 : StatePart → Bool} (hp0 : Need Q0 [.subs]) {s0 s : State} (ev : Ev Q0 s0 s) (port : Port) (sub : Sub) : ∃ t, (execPauseIgnoreEnd port sub s) = .next t ∧ Ev Q0 s0 t := by
  unfold execPauseIgnoreEnd
  refine ⟨_, rfl, ?_⟩
  repeat' first | with_reducible assumption | exact Need.sub hp0 rfl | with_reducible apply State.ev_modSub

theorem execSource_ev {Q0 : StatePart → Bool} (hp0 : Need Q0 [.host, .steer, .regs, .out]) {s0 s : State} (ev : Ev Q0 s0 s) (sq : RingNo) : ∃ t, (execSource sq s) = .next t ∧ Ev Q0 s0 t := by
  unfold execSource
  refine ⟨_, rfl, ?_⟩
  repeat' first | with_reducible assumption | exact Need.sub hp0 rfl | ((try lift_lets -underBinder); intro x; (try dsimp -zeta -proj only); first | (refine Ev.cut (P := Q0) (s0 := s0) (x := x) ?_ (fun hx => ?_); unfold x) | (refine Ev.cutP (P := Q0) (s0 := s0) (x := x) (by unfold x; exact rfl) ?_ (fun hx => ?_)) | skip) | with_reducible apply State.ev_ringAction | with_reducible apply State.ev_tcSource

theorem execStep_ev {Q0 : StatePart → Bool} (hp0 : Need Q0 [.time, .host, .subs, .steer, .regs, .out]) {s0 s : State} (ev : Ev Q0 s0 s) (sq : RingNo) : ∃ t, (execStep sq s) = .next t ∧ Ev Q0 s0 t := by
  unfold execStep
  refine ⟨_, rfl, ?_⟩
  repeat' first | with_reducible assumption | exact Need.sub hp0 rfl | ((try lift_lets -underBinder); intro x; (try dsimp -zeta -proj only); first | (refine Ev.cut (P := Q0) (s0 := s0) (x := x) ?_ (fun hx => ?_); unfold x) | (refine Ev.cutP (P := Q0) (s0 := s0) (x := x) (by unfold x; exact rfl) ?_ (fun hx => ?_)) | skip) | with_reducible apply State.ev_ringAction | with_reducible apply State.ev_tcStep

theorem execAsym_ev {Q0 : StatePart → Bool} (hp0 : Need Q0 [.host, .regs, .out]) {s0 s : State} (ev : Ev Q0 s0 s) (sq : RingNo) : ∃ t, (execAsym sq s) = .next t ∧ Ev Q0 s0 t := by
  unfold execAsym
  refine ⟨_, rfl, ?_⟩
  repeat' first | with_reducible assumption | exact Need.sub hp0 rfl | ((try lift_lets -underBinder); intro x; (try dsimp -zeta -proj only); first | (refine Ev.cut (P := Q0) (s0 := s0) (x := x) ?_ (fun hx => ?_); unfold x) | (refine Ev.cutP (P := Q0) (s0 := s0) (x := x) (by unfold x; exact rfl) ?_ (fun hx => ?_)) | skip) | with_reducible apply State.ev_ringAction | with_reducible apply State.ev_tcAsym

theorem execPause_ev {Q0 : StatePart → Bool} (hp0 : Need Q0 [.host, .subs, .regs, .out]) {s0 s : State} (ev : Ev Q0 s0 s) (sq : RingNo) : ∃ t, (execPause sq s) = .next t ∧ Ev Q0 s0 t := by
  unfold execPause
  refine ⟨_, rfl, ?_⟩
  repeat' first | with_reducible assumption | exact Need.sub hp0 rfl | ((try lift_lets -underBinder); intro x; (try dsimp -zeta -proj only); first | (refine Ev.cut (P := Q0) (s0 := s0) (x := x) ?_ (fun hx => ?_); unfold x) | (refine Ev.cutP (P := Q0) (s0 := s0) (x := x) (by unfold x; exact rfl) ?_ (fun hx => ?_)) | skip) | with_reducible apply State.ev_ringAction | with_reducible apply State.ev_tcPause

end Sys2Proof.Machine
end

