-- ==== Sys2Proof/Laws/EvBoard.lean ====
section
/-! SUPPORT. The operations of Board.lean keep the relation Ev. -/

namespace Sys2Proof.Machine

open Sys2Proof

set_option linter.unusedVariables false

theorem State.ev_setBoot {Q0 : StatePart → Bool} (hp0 : Need Q0 [.boot]) {s0 s : State} (ev : Ev Q0 s0 s) (b : BootSt) : Ev Q0 s0 (State.setBoot s b) := by
  unfold State.setBoot
  repeat' first | with_reducible assumption | exact Need.sub hp0 rfl | with_reducible apply Ev.upd | with_reducible apply Ev.updOut | exact Or.inl (Need.has hp0 rfl) | with_reducible exact Or.inr rfl | exact Need.has hp0 rfl | with_reducible rfl

theorem State.ev_cleared {Q0 : StatePart → Bool} (hp0 : Need Q0 [.latches, .time, .host, .steps, .mm, .faults, .streams, .router, .trs, .cbk, .power, .traceLost, .rmt, .col, .cores, .ports, .subs, .parts, .cutFrames, .tele, .steer, .actions, .boot, .marul, .hk, .therm, .clk, .sec, .regs, .freeCtr, .mem]) {s0 s : State} (ev : Ev Q0 s0 s)  : Ev Q0 s0 (State.cleared s) := by
  unfold State.cleared
  lift_lets -underBinder
  intro x
  have hx : Ev Q0 s0 x := ev.trans ⟨fun _ => Memory.wf_forget _ _ _ (by decide), fun h => regsWf_reset 5 (fun _ => true) h, rfl, List.prefix_rfl, Nat.le_succ _, by
    simp only [x, State.without, (hp0.has rfl : Q0 .latches = true), (hp0.has rfl : Q0 .time = true), (hp0.has rfl : Q0 .host = true), (hp0.has rfl : Q0 .steps = true), (hp0.has rfl : Q0 .mm = true), (hp0.has rfl : Q0 .faults = true), (hp0.has rfl : Q0 .streams = true), (hp0.has rfl : Q0 .router = true), (hp0.has rfl : Q0 .trs = true), (hp0.has rfl : Q0 .cbk = true), (hp0.has rfl : Q0 .power = true), (hp0.has rfl : Q0 .traceLost = true), (hp0.has rfl : Q0 .rmt = true), (hp0.has rfl : Q0 .col = true), (hp0.has rfl : Q0 .cores = true), (hp0.has rfl : Q0 .ports = true), (hp0.has rfl : Q0 .subs = true), (hp0.has rfl : Q0 .parts = true), (hp0.has rfl : Q0 .cutFrames = true), (hp0.has rfl : Q0 .tele = true), (hp0.has rfl : Q0 .steer = true), (hp0.has rfl : Q0 .actions = true), (hp0.has rfl : Q0 .boot = true), (hp0.has rfl : Q0 .marul = true), (hp0.has rfl : Q0 .hk = true), (hp0.has rfl : Q0 .therm = true), (hp0.has rfl : Q0 .clk = true), (hp0.has rfl : Q0 .sec = true), (hp0.has rfl : Q0 .regs = true), (hp0.has rfl : Q0 .freeCtr = true), (hp0.has rfl : Q0 .mem = true), if_true, ite_self]⟩
  exact State.ev_setF (Need.sub hp0 rfl) (State.ev_setF (Need.sub hp0 rfl) hx _ _) _ _

theorem State.ev_bootRec {Q0 : StatePart → Bool} (hp0 : Need Q0 [.host, .log, .regs, .out]) {s0 s : State} (ev : Ev Q0 s0 s) (stage : Nat) (unit : Nat) (attempt : Nat) : Ev Q0 s0 (State.bootRec s stage unit attempt) := by
  unfold State.bootRec
  repeat' first | with_reducible assumption | exact Need.sub hp0 rfl | with_reducible apply State.ev_errRec | split

theorem State.ev_bootFail {Q0 : StatePart → Bool} (hp0 : Need Q0 [.host, .log, .regs, .out]) {s0 s : State} (ev : Ev Q0 s0 s) (stage : Nat) (unit : Nat) (attempt : Nat) : Ev Q0 s0 (State.bootFail s stage unit attempt) := by
  unfold State.bootFail
  repeat' first | with_reducible assumption | exact Need.sub hp0 rfl | with_reducible apply State.ev_setF | with_reducible apply State.ev_bootRec

theorem State.ev_setMap {Q0 : StatePart → Bool} (hp0 : Need Q0 [.regs]) {s0 s : State} (ev : Ev Q0 s0 s) (n : Nat) (l : Nat) (q : Option Nat) : Ev Q0 s0 (State.setMap s n l q) := by
  unfold State.setMap
  repeat' first | with_reducible assumption | exact Need.sub hp0 rfl | ((try lift_lets -underBinder); intro x; first | (refine Ev.cut (P := Q0) (s0 := s0) (x := x) ?_ (fun hx => ?_); unfold x) | (refine Ev.cutP (P := Q0) (s0 := s0) (x := x) (by unfold x; exact rfl) ?_ (fun hx => ?_)) | skip) | with_reducible apply State.ev_setReg | split

theorem State.ev_mapCores {Q0 : StatePart → Bool} (hp0 : Need Q0 [.regs]) {s0 s : State} (ev : Ev Q0 s0 s) (n : Nat) (bad : Nat) : Ev Q0 s0 (State.mapCores s n bad) := by
  unfold State.mapCores
  repeat' first | with_reducible assumption | exact Need.sub hp0 rfl | ((try lift_lets -underBinder); intro x; first | (refine Ev.cut (P := Q0) (s0 := s0) (x := x) ?_ (fun hx => ?_); unfold x) | (refine Ev.cutP (P := Q0) (s0 := s0) (x := x) (by unfold x; exact rfl) ?_ (fun hx => ?_)) | skip) | with_reducible apply State.ev_setF | with_reducible apply State.ev_setMap | with_reducible refine Ev.foldl _ (fun st a hst => ?_) _ _ ?_ | with_reducible refine Ev.foldlP _ (fun st a hst => ?_) _ _ ?_

theorem Memory.wf_clears {α : Type} (f g : α → Nat) : ∀ (l : List α) {m : Memory}, m.wf = true → (l.foldl (fun m q => m.clear (f q) (g q)) m).wf = true
  | [], _, h => h
  | q :: l, _, h => Memory.wf_clears f g l (Memory.wf_clear (f q) (g q) h)

theorem State.ev_clearSpan {Q0 : StatePart → Bool} (hp0 : Need Q0 [.mem]) {s0 s : State} (ev : Ev Q0 s0 s) (n : Nat) : Ev Q0 s0 (State.clearSpan s n) := by
  unfold State.clearSpan
  exact State.ev_setMem hp0 ev _ fun h => Memory.wf_clears _ _ _ (Memory.wf_clear _ _ h)

theorem State.ev_showCeiling {Q0 : StatePart → Bool} (hp0 : Need Q0 [.regs]) {s0 s : State} (ev : Ev Q0 s0 s) (n : Nat) : Ev Q0 s0 (State.showCeiling s n) := by
  unfold State.showCeiling
  repeat' first | with_reducible assumption | exact Need.sub hp0 rfl | with_reducible apply State.ev_setF

theorem State.ev_setReadyStack {Q0 : StatePart → Bool} (hp0 : Need Q0 [.regs]) {s0 s : State} (ev : Ev Q0 s0 s) (n : Nat) (v : Bool) : Ev Q0 s0 (State.setReadyStack s n v) := by
  unfold State.setReadyStack
  repeat' first | with_reducible assumption | exact Need.sub hp0 rfl | with_reducible apply State.ev_setF

theorem State.ev_stackTrained {Q0 : StatePart → Bool} (hp0 : Need Q0 [.mm, .regs]) {s0 s : State} (ev : Ev Q0 s0 s) (n : Nat) : Ev Q0 s0 (State.stackTrained s n) := by
  unfold State.stackTrained
  repeat' first | with_reducible assumption | exact Need.sub hp0 rfl | ((try lift_lets -underBinder); intro x; first | (refine Ev.cut (P := Q0) (s0 := s0) (x := x) ?_ (fun hx => ?_); unfold x) | (refine Ev.cutP (P := Q0) (s0 := s0) (x := x) (by unfold x; exact rfl) ?_ (fun hx => ?_)) | skip) | with_reducible apply State.ev_setReadyStack | with_reducible apply State.ev_setStack

theorem State.ev_powerRec {Q0 : StatePart → Bool} (hp0 : Need Q0 [.host, .log, .regs, .out]) {s0 s : State} (ev : Ev Q0 s0 s) (event : Nat) (unitKind : Nat) (unit : Nat) (value : Nat) (sev : Nat) (level : optParam Nat 0) : Ev Q0 s0 (State.powerRec s event unitKind unit value sev level) := by
  unfold State.powerRec
  repeat' first | with_reducible assumption | exact Need.sub hp0 rfl | with_reducible apply State.ev_errRec

theorem State.ev_setClk {Q0 : StatePart → Bool} (hp0 : Need Q0 [.clk]) {s0 s : State} (ev : Ev Q0 s0 s) (c : ClockSt) : Ev Q0 s0 (State.setClk s c) := by
  unfold State.setClk
  repeat' first | with_reducible assumption | exact Need.sub hp0 rfl | with_reducible apply Ev.upd | with_reducible apply Ev.updOut | exact Or.inl (Need.has hp0 rfl) | with_reducible exact Or.inr rfl | exact Need.has hp0 rfl | with_reducible rfl

theorem State.ev_holdPhases {Q0 : StatePart → Bool} (hp0 : Need Q0 [.host, .steps, .mm, .faults, .log, .streams, .router, .rmt, .col, .cores, .ports, .sec, .regs, .out, .freeCtr, .mem]) {s0 s : State} (ev : Ev Q0 s0 s) (n : Nat) (hbm : Bool) : Ev Q0 s0 (State.holdPhases s n hbm) := by
  unfold State.holdPhases
  repeat' first | with_reducible assumption | exact Need.sub hp0 rfl | ((try lift_lets -underBinder); intro x; first | (refine Ev.cut (P := Q0) (s0 := s0) (x := x) ?_ (fun hx => ?_); unfold x) | (refine Ev.cutP (P := Q0) (s0 := s0) (x := x) (by unfold x; exact rfl) ?_ (fun hx => ?_)) | skip) | with_reducible apply State.ev_faultReset | with_reducible apply State.ev_setFaults

theorem State.ev_phaseFail {Q0 : StatePart → Bool} (hp0 : Need Q0 [.host, .steps, .mm, .faults, .log, .streams, .router, .rmt, .col, .cores, .ports, .sec, .regs, .out, .freeCtr, .mem]) {s0 s : State} (ev : Ev Q0 s0 s) (n : Nat) (i : Nat) : Ev Q0 s0 (State.phaseFail s n i) := by
  unfold State.phaseFail
  repeat' first | with_reducible assumption | exact Need.sub hp0 rfl | ((try lift_lets -underBinder); intro x; first | (refine Ev.cut (P := Q0) (s0 := s0) (x := x) ?_ (fun hx => ?_); unfold x) | (refine Ev.cutP (P := Q0) (s0 := s0) (x := x) (by unfold x; exact rfl) ?_ (fun hx => ?_)) | skip) | with_reducible apply State.ev_setF | with_reducible apply State.ev_showCeiling | with_reducible apply State.ev_powerRec | with_reducible apply State.ev_holdPhases | split

theorem State.ev_showApplied {Q0 : StatePart → Bool} (hp0 : Need Q0 [.regs]) {s0 s : State} (ev : Ev Q0 s0 s)  : Ev Q0 s0 (State.showApplied s) := by
  unfold State.showApplied
  repeat' first | with_reducible assumption | exact Need.sub hp0 rfl | with_reducible apply State.ev_setF | with_reducible refine Ev.foldl _ (fun st a hst => ?_) _ _ ?_ | with_reducible refine Ev.foldlP _ (fun st a hst => ?_) _ _ ?_

theorem execPowerOn_ev {Q0 : StatePart → Bool} (hp0 : Need Q0 [.latches, .time, .host, .steps, .mm, .faults, .streams, .router, .trs, .cbk, .power, .traceLost, .rmt, .col, .cores, .ports, .subs, .parts, .cutFrames, .tele, .steer, .actions, .boot, .marul, .hk, .therm, .clk, .sec, .regs, .freeCtr, .mem]) {s0 s : State} (ev : Ev Q0 s0 s)  : ∃ t, (execPowerOn s) = .next t ∧ Ev Q0 s0 t := by
  unfold execPowerOn
  refine ⟨_, rfl, ?_⟩
  repeat' first | with_reducible assumption | exact Need.sub hp0 rfl | with_reducible apply State.ev_setBoot | with_reducible apply State.ev_cleared | split

theorem execVinAonLoss_ev {Q0 : StatePart → Bool} (hp0 : Need Q0 [.latches, .time, .host, .steps, .mm, .faults, .streams, .router, .trs, .cbk, .power, .traceLost, .rmt, .col, .cores, .ports, .subs, .parts, .cutFrames, .tele, .steer, .actions, .boot, .marul, .hk, .therm, .clk, .sec, .regs, .freeCtr, .mem]) {s0 s : State} (ev : Ev Q0 s0 s)  : ∃ t, (execVinAonLoss s) = .next t ∧ Ev Q0 s0 t := by
  unfold execVinAonLoss
  refine ⟨_, rfl, ?_⟩
  repeat' first | with_reducible assumption | exact Need.sub hp0 rfl | with_reducible apply State.ev_setBoot | with_reducible apply State.ev_cleared | split

theorem execPorRelease_ev {Q0 : StatePart → Bool} (hp0 : Need Q0 [.time, .host, .log, .boot, .regs, .out]) {s0 s : State} (ev : Ev Q0 s0 s) (loc : BitVec 20) (plan : BitVec 3) (par : Bool) : ∃ t, (execPorRelease loc plan par s) = .next t ∧ Ev Q0 s0 t := by
  unfold execPorRelease
  refine ⟨_, rfl, ?_⟩
  repeat' first | with_reducible assumption | exact Need.sub hp0 rfl | ((try lift_lets -underBinder); intro x; first | (refine Ev.cut (P := Q0) (s0 := s0) (x := x) ?_ (fun hx => ?_); unfold x) | (refine Ev.cutP (P := Q0) (s0 := s0) (x := x) (by unfold x; exact rfl) ?_ (fun hx => ?_)) | skip) | with_reducible apply State.ev_setBoot | with_reducible apply State.ev_setF | with_reducible apply State.ev_bootRec | with_reducible refine Ev.foldl _ (fun st a hst => ?_) _ _ ?_ | with_reducible refine Ev.foldlP _ (fun st a hst => ?_) _ _ ?_ | split | with_reducible apply Ev.upd | with_reducible apply Ev.updOut | exact Or.inl (Need.has hp0 rfl) | with_reducible exact Or.inr rfl | exact Need.has hp0 rfl | with_reducible rfl

theorem execPorAssert_ev {Q0 : StatePart → Bool} (hp0 : Need Q0 [.latches, .time, .host, .steps, .mm, .faults, .streams, .router, .trs, .cbk, .power, .traceLost, .rmt, .col, .cores, .ports, .subs, .parts, .cutFrames, .tele, .steer, .actions, .boot, .marul, .hk, .therm, .clk, .sec, .regs, .freeCtr, .mem]) {s0 s : State} (ev : Ev Q0 s0 s)  : ∃ t, (execPorAssert s) = .next t ∧ Ev Q0 s0 t := by
  unfold execPorAssert
  refine ⟨_, rfl, ?_⟩
  repeat' first | with_reducible assumption | exact Need.sub hp0 rfl | ((try lift_lets -underBinder); intro x; first | (refine Ev.cut (P := Q0) (s0 := s0) (x := x) ?_ (fun hx => ?_); unfold x) | (refine Ev.cutP (P := Q0) (s0 := s0) (x := x) (by unfold x; exact rfl) ?_ (fun hx => ?_)) | skip) | with_reducible apply State.ev_setBoot | with_reducible apply State.ev_cleared | with_reducible apply State.ev_setReg | with_reducible apply State.ev_setF | with_reducible apply State.ev_bumpWrap | with_reducible refine Ev.foldl _ (fun st a hst => ?_) _ _ ?_ | with_reducible refine Ev.foldlP _ (fun st a hst => ?_) _ _ ?_ | split | with_reducible apply Ev.upd | with_reducible apply Ev.updOut | exact Or.inl (Need.has hp0 rfl) | with_reducible exact Or.inr rfl | exact Need.has hp0 rfl | with_reducible rfl

theorem execBootStageDone_ev {Q0 : StatePart → Bool} (hp0 : Need Q0 [.host, .log, .boot, .regs, .out, .mem]) {s0 s : State} (ev : Ev Q0 s0 s) (stage : Fin 7) (die : Fin 10) (ok : Bool) (bad0 : BitVec 18) (bad1 : BitVec 18) : ∃ t, (execBootStageDone stage die ok bad0 bad1 s) = .next t ∧ Ev Q0 s0 t := by
  unfold execBootStageDone
  refine ⟨_, rfl, ?_⟩
  repeat' first | with_reducible assumption | exact Need.sub hp0 rfl | ((try lift_lets -underBinder); intro x; first | (refine Ev.cut (P := Q0) (s0 := s0) (x := x) ?_ (fun hx => ?_); unfold x) | (refine Ev.cutP (P := Q0) (s0 := s0) (x := x) (by unfold x; exact rfl) ?_ (fun hx => ?_)) | skip) | with_reducible apply State.ev_bootFail | with_reducible apply State.ev_setBoot | with_reducible apply State.ev_setF | with_reducible apply State.ev_mapCores | with_reducible apply State.ev_showCeiling | with_reducible apply State.ev_clearSpan | split

theorem execStackTrainAttemptDone_ev {Q0 : StatePart → Bool} (hp0 : Need Q0 [.host, .mm, .log, .regs, .out]) {s0 s : State} (ev : Ev Q0 s0 s) (stack : SpanIx) (ok : Bool) : ∃ t, (execStackTrainAttemptDone stack ok s) = .next t ∧ Ev Q0 s0 t := by
  unfold execStackTrainAttemptDone
  refine ⟨_, rfl, ?_⟩
  repeat' first | with_reducible assumption | exact Need.sub hp0 rfl | ((try lift_lets -underBinder); intro x; first | (refine Ev.cut (P := Q0) (s0 := s0) (x := x) ?_ (fun hx => ?_); unfold x) | (refine Ev.cutP (P := Q0) (s0 := s0) (x := x) (by unfold x; exact rfl) ?_ (fun hx => ?_)) | skip) | with_reducible apply State.ev_stackTrained | with_reducible apply State.ev_setStack | with_reducible apply State.ev_bootFail | split

theorem execSpanReady_ev {Q0 : StatePart → Bool} (hp0 : Need Q0 [.mm, .regs]) {s0 s : State} (ev : Ev Q0 s0 s) (span : SpanIx) : ∃ t, (execSpanReady span s) = .next t ∧ Ev Q0 s0 t := by
  unfold execSpanReady
  refine ⟨_, rfl, ?_⟩
  repeat' first | with_reducible assumption | exact Need.sub hp0 rfl | ((try lift_lets -underBinder); intro x; first | (refine Ev.cut (P := Q0) (s0 := s0) (x := x) ?_ (fun hx => ?_); unfold x) | (refine Ev.cutP (P := Q0) (s0 := s0) (x := x) (by unfold x; exact rfl) ?_ (fun hx => ?_)) | skip) | with_reducible apply State.ev_setReadySpan | with_reducible apply State.ev_ownStack | with_reducible apply State.ev_setSpan | split

theorem execRegPhaseFail_ev {Q0 : StatePart → Bool} (hp0 : Need Q0 [.host, .steps, .mm, .faults, .log, .streams, .router, .rmt, .col, .cores, .ports, .sec, .regs, .out, .freeCtr, .mem]) {s0 s : State} (ev : Ev Q0 s0 s) (span : SpanIx) (phase : Fin 24) : ∃ t, (execRegPhaseFail span phase s) = .next t ∧ Ev Q0 s0 t := by
  unfold execRegPhaseFail
  refine ⟨_, rfl, ?_⟩
  repeat' first | with_reducible assumption | exact Need.sub hp0 rfl | with_reducible apply State.ev_phaseFail

theorem execHbmPhaseFail_ev {Q0 : StatePart → Bool} (hp0 : Need Q0 [.host, .steps, .mm, .faults, .log, .streams, .router, .rmt, .col, .cores, .ports, .clk, .sec, .regs, .out, .freeCtr, .mem]) {s0 s : State} (ev : Ev Q0 s0 s) (stack : SpanIx) : ∃ t, (execHbmPhaseFail stack s) = .next t ∧ Ev Q0 s0 t := by
  unfold execHbmPhaseFail
  refine ⟨_, rfl, ?_⟩
  repeat' first | with_reducible assumption | exact Need.sub hp0 rfl | ((try lift_lets -underBinder); intro x; first | (refine Ev.cut (P := Q0) (s0 := s0) (x := x) ?_ (fun hx => ?_); unfold x) | (refine Ev.cutP (P := Q0) (s0 := s0) (x := x) (by unfold x; exact rfl) ?_ (fun hx => ?_)) | skip) | with_reducible apply State.ev_setClk | with_reducible apply State.ev_holdPhases | with_reducible apply State.ev_setF | with_reducible apply State.ev_powerRec | split

theorem execClockChange_ev {Q0 : StatePart → Bool} (hp0 : Need Q0 [.clk, .regs]) {s0 s : State} (ev : Ev Q0 s0 s) (span : SpanIx) : ∃ t, (execClockChange span s) = .next t ∧ Ev Q0 s0 t := by
  unfold execClockChange
  refine ⟨_, rfl, ?_⟩
  repeat' first | with_reducible assumption | exact Need.sub hp0 rfl | ((try lift_lets -underBinder); intro x; first | (refine Ev.cut (P := Q0) (s0 := s0) (x := x) ?_ (fun hx => ?_); unfold x) | (refine Ev.cutP (P := Q0) (s0 := s0) (x := x) (by unfold x; exact rfl) ?_ (fun hx => ?_)) | skip) | with_reducible apply State.ev_setClk | with_reducible apply State.ev_setF | split

theorem execDidtWindow_ev {Q0 : StatePart → Bool} (hp0 : Need Q0 [.trs]) {s0 s : State} (ev : Ev Q0 s0 s) (span : SpanIx) : ∃ t, (execDidtWindow span s) = .next t ∧ Ev Q0 s0 t := by
  unfold execDidtWindow
  refine ⟨_, rfl, ?_⟩
  repeat' first | with_reducible assumption | exact Need.sub hp0 rfl | split | with_reducible apply Ev.upd | with_reducible apply Ev.updOut | exact Or.inl (Need.has hp0 rfl) | with_reducible exact Or.inr rfl | exact Need.has hp0 rfl | with_reducible rfl

theorem execDidtDroop_ev {Q0 : StatePart → Bool} (hp0 : Need Q0 [.power]) {s0 s : State} (ev : Ev Q0 s0 s) (span : SpanIx) : ∃ t, (execDidtDroop span s) = .next t ∧ Ev Q0 s0 t := by
  unfold execDidtDroop
  refine ⟨_, rfl, ?_⟩
  repeat' first | with_reducible assumption | exact Need.sub hp0 rfl | ((try lift_lets -underBinder); intro x; first | (refine Ev.cut (P := Q0) (s0 := s0) (x := x) ?_ (fun hx => ?_); unfold x) | (refine Ev.cutP (P := Q0) (s0 := s0) (x := x) (by unfold x; exact rfl) ?_ (fun hx => ?_)) | skip) | with_reducible apply Ev.upd | with_reducible apply Ev.updOut | exact Or.inl (Need.has hp0 rfl) | with_reducible exact Or.inr rfl | exact Need.has hp0 rfl | with_reducible rfl

theorem execPowerLimitEvent_ev {Q0 : StatePart → Bool} (hp0 : Need Q0 [.power, .regs, .freeCtr]) {s0 s : State} (ev : Ev Q0 s0 s) (watts : Half) : ∃ t, (execPowerLimitEvent watts s) = .next t ∧ Ev Q0 s0 t := by
  unfold execPowerLimitEvent
  refine ⟨_, rfl, ?_⟩
  repeat' first | with_reducible assumption | exact Need.sub hp0 rfl | ((try lift_lets -underBinder); intro x; first | (refine Ev.cut (P := Q0) (s0 := s0) (x := x) ?_ (fun hx => ?_); unfold x) | (refine Ev.cutP (P := Q0) (s0 := s0) (x := x) (by unfold x; exact rfl) ?_ (fun hx => ?_)) | skip) | with_reducible apply State.ev_bumpSat | with_reducible apply State.ev_showApplied | with_reducible apply State.ev_drew | split | with_reducible apply Ev.upd | with_reducible apply Ev.updOut | exact Or.inl (Need.has hp0 rfl) | with_reducible exact Or.inr rfl | exact Need.has hp0 rfl | with_reducible rfl

end Sys2Proof.Machine
end

