-- ==== Sys2Proof/Laws/EvMarul.lean ====
section
/-! SUPPORT. The operations of Marul.lean keep the relation Ev. -/

namespace Sys2Proof.Machine

open Sys2Proof

set_option linter.unusedVariables false

theorem State.ev_setMlink {Q0 : StatePart → Bool} (hp0 : Need Q0 [.marul]) {s0 s : State} (ev : Ev Q0 s0 s) (k : Nat) (l : MarulLink) : Ev Q0 s0 (State.setMlink s k l) := by
  unfold State.setMlink
  repeat' first | with_reducible assumption | exact Need.sub hp0 rfl | with_reducible apply Ev.upd | with_reducible apply Ev.updOut | exact Or.inl (Need.has hp0 rfl) | with_reducible exact Or.inr rfl | exact Need.has hp0 rfl | with_reducible rfl

theorem State.ev_setMdir {Q0 : StatePart → Bool} (hp0 : Need Q0 [.marul]) {s0 s : State} (ev : Ev Q0 s0 s) (k : Nat) (rev : Bool) (d : MarulDir) : Ev Q0 s0 (State.setMdir s k rev d) := by
  unfold State.setMdir
  repeat' first | with_reducible assumption | exact Need.sub hp0 rfl | ((try lift_lets -underBinder); intro x; first | (refine Ev.cut (P := Q0) (s0 := s0) (x := x) ?_ (fun hx => ?_); unfold x) | (refine Ev.cutP (P := Q0) (s0 := s0) (x := x) (by unfold x; exact rfl) ?_ (fun hx => ?_)) | skip) | with_reducible apply State.ev_setMlink | split

theorem State.ev_trainLink {Q0 : StatePart → Bool} (hp0 : Need Q0 [.marul, .regs]) {s0 s : State} (ev : Ev Q0 s0 s) (k : Nat) (a : List Byte) (b : List Byte) : Ev Q0 s0 (State.trainLink s k a b) := by
  unfold State.trainLink
  repeat' first | with_reducible assumption | exact Need.sub hp0 rfl | ((try lift_lets -underBinder); intro x; first | (refine Ev.cut (P := Q0) (s0 := s0) (x := x) ?_ (fun hx => ?_); unfold x) | (refine Ev.cutP (P := Q0) (s0 := s0) (x := x) (by unfold x; exact rfl) ?_ (fun hx => ?_)) | skip) | with_reducible apply State.ev_setF | with_reducible apply State.ev_setMlink | split

theorem State.ev_checkHost {Q0 : StatePart → Bool} (hp0 : Need Q0 [.host, .log, .boot, .regs, .out]) {s0 s : State} (ev : Ev Q0 s0 s)  : Ev Q0 s0 (State.checkHost s) := by
  unfold State.checkHost
  repeat' first | with_reducible assumption | exact Need.sub hp0 rfl | ((try lift_lets -underBinder); intro x; first | (refine Ev.cut (P := Q0) (s0 := s0) (x := x) ?_ (fun hx => ?_); unfold x) | (refine Ev.cutP (P := Q0) (s0 := s0) (x := x) (by unfold x; exact rfl) ?_ (fun hx => ?_)) | skip) | with_reducible apply State.ev_bootFail | with_reducible apply State.ev_setBoot | split

theorem State.ev_showCap {Q0 : StatePart → Bool} (hp0 : Need Q0 [.boot, .regs]) {s0 s : State} (ev : Ev Q0 s0 s) (i : Nat) (a : List Byte) (b : List Byte) (ok : Bool) : Ev Q0 s0 (State.showCap s i a b ok) := by
  unfold State.showCap
  repeat' first | with_reducible assumption | exact Need.sub hp0 rfl | ((try lift_lets -underBinder); intro x; first | (refine Ev.cut (P := Q0) (s0 := s0) (x := x) ?_ (fun hx => ?_); unfold x) | (refine Ev.cutP (P := Q0) (s0 := s0) (x := x) (by unfold x; exact rfl) ?_ (fun hx => ?_)) | skip) | with_reducible apply State.ev_setF | with_reducible apply State.ev_setBoot | split

theorem State.ev_sendNull {Q0 : StatePart → Bool} (hp0 : Need Q0 [.marul, .out]) {s0 s : State} (ev : Ev Q0 s0 s) (k : Nat) (rev : Bool) (nak : Bool) : Ev Q0 s0 (State.sendNull s k rev nak) := by
  unfold State.sendNull
  repeat' first | with_reducible assumption | exact Need.sub hp0 rfl | ((try lift_lets -underBinder); intro x; first | (refine Ev.cut (P := Q0) (s0 := s0) (x := x) ?_ (fun hx => ?_); unfold x) | (refine Ev.cutP (P := Q0) (s0 := s0) (x := x) (by unfold x; exact rfl) ?_ (fun hx => ?_)) | skip) | with_reducible apply State.ev_emit | with_reducible apply State.ev_setMdir | split

theorem State.ev_flitIn {Q0 : StatePart → Bool} (hp0 : Need Q0 [.marul, .regs, .out]) {s0 s : State} (ev : Ev Q0 s0 s) (k : Nat) (rev : Bool) (recv : List Byte) : Ev Q0 s0 (State.flitIn s k rev recv) := by
  unfold State.flitIn
  repeat' first | with_reducible assumption | exact Need.sub hp0 rfl | ((try lift_lets -underBinder); intro x; first | (refine Ev.cut (P := Q0) (s0 := s0) (x := x) ?_ (fun hx => ?_); unfold x) | (refine Ev.cutP (P := Q0) (s0 := s0) (x := x) (by unfold x; exact rfl) ?_ (fun hx => ?_)) | skip) | with_reducible apply State.ev_setMdir | with_reducible apply State.ev_bumpSat | with_reducible apply State.ev_sendNull | split

theorem State.ev_moveToDetour {Q0 : StatePart → Bool} (hp0 : Need Q0 [.marul, .out]) {s0 s : State} (ev : Ev Q0 s0 s) (k : Nat) (rev : Bool) : Ev Q0 s0 (State.moveToDetour s k rev) := by
  unfold State.moveToDetour
  repeat' first | with_reducible assumption | exact Need.sub hp0 rfl | ((try lift_lets -underBinder); intro x; first | (refine Ev.cut (P := Q0) (s0 := s0) (x := x) ?_ (fun hx => ?_); unfold x) | (refine Ev.cutP (P := Q0) (s0 := s0) (x := x) (by unfold x; exact rfl) ?_ (fun hx => ?_)) | skip) | with_reducible apply State.ev_setMdir | with_reducible apply State.ev_emit | with_reducible refine Ev.foldl _ (fun st a hst => ?_) _ _ ?_ | with_reducible refine Ev.foldlP _ (fun st a hst => ?_) _ _ ?_

theorem execMarulCapExchange_ev {Q0 : StatePart → Bool} (hp0 : Need Q0 [.host, .log, .boot, .marul, .regs, .out]) {s0 s : State} (ev : Ev Q0 s0 s) (link : Fin 7) (first : List Byte) (second : List Byte) (repaired : Byte) : ∃ t, (execMarulCapExchange link first second repaired s) = .next t ∧ Ev Q0 s0 t := by
  unfold execMarulCapExchange
  refine ⟨_, rfl, ?_⟩
  repeat' first | with_reducible assumption | exact Need.sub hp0 rfl | ((try lift_lets -underBinder); intro x; first | (refine Ev.cut (P := Q0) (s0 := s0) (x := x) ?_ (fun hx => ?_); unfold x) | (refine Ev.cutP (P := Q0) (s0 := s0) (x := x) (by unfold x; exact rfl) ?_ (fun hx => ?_)) | skip) | with_reducible apply State.ev_showCap | with_reducible apply State.ev_checkHost | with_reducible apply State.ev_setF | with_reducible apply State.ev_trainLink | split

theorem execMarulFlitReceive_ev {Q0 : StatePart → Bool} (hp0 : Need Q0 [.marul, .regs, .out]) {s0 s : State} (ev : Ev Q0 s0 s) (link : Fin 7) (rev : Bool) (sent : List Byte) (recv : List Byte) : ∃ t, (execMarulFlitReceive link rev sent recv s) = .next t ∧ Ev Q0 s0 t := by
  unfold execMarulFlitReceive
  refine ⟨_, rfl, ?_⟩
  repeat' first | with_reducible assumption | exact Need.sub hp0 rfl | ((try lift_lets -underBinder); intro x; first | (refine Ev.cut (P := Q0) (s0 := s0) (x := x) ?_ (fun hx => ?_); unfold x) | (refine Ev.cutP (P := Q0) (s0 := s0) (x := x) (by unfold x; exact rfl) ?_ (fun hx => ?_)) | skip) | with_reducible apply State.ev_flitIn | with_reducible apply State.ev_setMdir | split

theorem execMarulNakReceive_ev {Q0 : StatePart → Bool} (hp0 : Need Q0 [.marul, .regs, .out]) {s0 s : State} (ev : Ev Q0 s0 s) (link : Fin 7) (rev : Bool) : ∃ t, (execMarulNakReceive link rev s) = .next t ∧ Ev Q0 s0 t := by
  unfold execMarulNakReceive
  refine ⟨_, rfl, ?_⟩
  repeat' first | with_reducible assumption | exact Need.sub hp0 rfl | ((try lift_lets -underBinder); intro x; first | (refine Ev.cut (P := Q0) (s0 := s0) (x := x) ?_ (fun hx => ?_); unfold x) | (refine Ev.cutP (P := Q0) (s0 := s0) (x := x) (by unfold x; exact rfl) ?_ (fun hx => ?_)) | skip) | with_reducible apply State.ev_bumpSat | with_reducible apply State.ev_setMdir | with_reducible apply State.ev_setMlink | with_reducible apply State.ev_emit | with_reducible refine Ev.foldl _ (fun st a hst => ?_) _ _ ?_ | with_reducible refine Ev.foldlP _ (fun st a hst => ?_) _ _ ?_ | split

theorem execMarulAckDue_ev {Q0 : StatePart → Bool} (hp0 : Need Q0 [.marul, .out]) {s0 s : State} (ev : Ev Q0 s0 s) (link : Fin 7) (rev : Bool) : ∃ t, (execMarulAckDue link rev s) = .next t ∧ Ev Q0 s0 t := by
  unfold execMarulAckDue
  refine ⟨_, rfl, ?_⟩
  repeat' first | with_reducible assumption | exact Need.sub hp0 rfl | with_reducible apply State.ev_sendNull | split

theorem execMarulLinkDown_ev {Q0 : StatePart → Bool} (hp0 : Need Q0 [.host, .log, .marul, .regs, .out]) {s0 s : State} (ev : Ev Q0 s0 s) (link : Fin 7) (lanes : Bool) : ∃ t, (execMarulLinkDown link lanes s) = .next t ∧ Ev Q0 s0 t := by
  unfold execMarulLinkDown
  refine ⟨_, rfl, ?_⟩
  repeat' first | with_reducible assumption | exact Need.sub hp0 rfl | ((try lift_lets -underBinder); intro x; first | (refine Ev.cut (P := Q0) (s0 := s0) (x := x) ?_ (fun hx => ?_); unfold x) | (refine Ev.cutP (P := Q0) (s0 := s0) (x := x) (by unfold x; exact rfl) ?_ (fun hx => ?_)) | skip) | with_reducible apply State.ev_moveToDetour | with_reducible apply State.ev_setMlink | with_reducible apply State.ev_bumpSat | with_reducible apply State.ev_setF | with_reducible apply State.ev_powerRec | split

theorem execMarulLinkRestore_ev {Q0 : StatePart → Bool} (hp0 : Need Q0 [.regs]) {s0 s : State} (ev : Ev Q0 s0 s) (link : Fin 7) : ∃ t, (execMarulLinkRestore link s) = .next t ∧ Ev Q0 s0 t := by
  unfold execMarulLinkRestore
  refine ⟨_, rfl, ?_⟩
  repeat' first | with_reducible assumption | exact Need.sub hp0 rfl | ((try lift_lets -underBinder); intro x; first | (refine Ev.cut (P := Q0) (s0 := s0) (x := x) ?_ (fun hx => ?_); unfold x) | (refine Ev.cutP (P := Q0) (s0 := s0) (x := x) (by unfold x; exact rfl) ?_ (fun hx => ?_)) | skip) | with_reducible apply State.ev_setF | split

end Sys2Proof.Machine
end

