-- ==== Sys2Proof/Laws/EvThermal.lean ====
section
/-! SUPPORT. The operations of Thermal.lean keep the relation Ev. -/

namespace Sys2Proof.Machine

open Sys2Proof

set_option linter.unusedVariables false

theorem State.ev_setTherm {Q0 : StatePart → Bool} (hp0 : Need Q0 [.therm]) {s0 s : State} (ev : Ev Q0 s0 s) (t : ThermSt) : Ev Q0 s0 (State.setTherm s t) := by
  unfold State.setTherm
  repeat' first | with_reducible assumption | exact Need.sub hp0 rfl | with_reducible apply Ev.upd | with_reducible apply Ev.updOut | exact Or.inl (Need.has hp0 rfl) | with_reducible exact Or.inr rfl | exact Need.has hp0 rfl | with_reducible rfl

theorem State.ev_setT {Q0 : StatePart → Bool} (hp0 : Need Q0 [.regs]) {s0 s : State} (ev : Ev Q0 s0 s) (f : Fld) (t : Int) : Ev Q0 s0 (State.setT s f t) := by
  unfold State.setT
  repeat' first | with_reducible assumption | exact Need.sub hp0 rfl | with_reducible apply State.ev_setF

theorem State.ev_thermRec {Q0 : StatePart → Bool} (hp0 : Need Q0 [.host, .log, .regs, .out]) {s0 s : State} (ev : Ev Q0 s0 s) (bit : Nat) (unitKind : Nat) (unit : Nat) (t : Int) (sev : Nat) : Ev Q0 s0 (State.thermRec s bit unitKind unit t sev) := by
  unfold State.thermRec
  repeat' first | with_reducible assumption | exact Need.sub hp0 rfl | with_reducible apply State.ev_errRec

theorem State.ev_warn {Q0 : StatePart → Bool} (hp0 : Need Q0 [.regs]) {s0 s : State} (ev : Ev Q0 s0 s) (bit : Nat) : Ev Q0 s0 (State.warn s bit) := by
  unfold State.warn
  repeat' first | with_reducible assumption | exact Need.sub hp0 rfl | with_reducible apply State.ev_setF

theorem State.ev_trip {Q0 : StatePart → Bool} (hp0 : Need Q0 [.host, .log, .power, .ports, .regs, .out]) {s0 s : State} (ev : Ev Q0 s0 s) (cause : Nat) (a : Nat) (b : Nat) (ta : Int) (tb : Int) : Ev Q0 s0 (State.trip s cause a b ta tb) := by
  unfold State.trip
  repeat' first | with_reducible assumption | exact Need.sub hp0 rfl | ((try lift_lets -underBinder); intro x; first | (refine Ev.cut (P := Q0) (s0 := s0) (x := x) ?_ (fun hx => ?_); unfold x) | (refine Ev.cutP (P := Q0) (s0 := s0) (x := x) (by unfold x; exact rfl) ?_ (fun hx => ?_)) | skip) | with_reducible apply State.ev_setF | with_reducible apply State.ev_writeRaw | with_reducible apply State.ev_setLit | with_reducible refine Ev.foldl _ (fun st a hst => ?_) _ _ ?_ | with_reducible refine Ev.foldlP _ (fun st a hst => ?_) _ _ ?_ | split | with_reducible apply Ev.upd | with_reducible apply Ev.updOut | exact Or.inl (Need.has hp0 rfl) | with_reducible exact Or.inr rfl | exact Need.has hp0 rfl | with_reducible rfl

theorem State.ev_compareSensors {Q0 : StatePart → Bool} (hp0 : Need Q0 [.host, .log, .power, .ports, .regs, .out]) {s0 s : State} (ev : Ev Q0 s0 s)  : Ev Q0 s0 (State.compareSensors s) := by
  unfold State.compareSensors
  repeat' first | with_reducible assumption | exact Need.sub hp0 rfl | ((try lift_lets -underBinder); intro x; first | (refine Ev.cut (P := Q0) (s0 := s0) (x := x) ?_ (fun hx => ?_); unfold x) | (refine Ev.cutP (P := Q0) (s0 := s0) (x := x) (by unfold x; exact rfl) ?_ (fun hx => ?_)) | (generalize he : x = y) | skip) | with_reducible apply State.ev_trip | split

theorem State.ev_thermSync {Q0 : StatePart → Bool} (hp0 : Need Q0 [.therm, .regs]) {s0 s : State} (ev : Ev Q0 s0 s)  : Ev Q0 s0 (State.thermSync s) := by
  unfold State.thermSync
  repeat' first | with_reducible assumption | exact Need.sub hp0 rfl | ((try lift_lets -underBinder); intro x; first | (refine Ev.cut (P := Q0) (s0 := s0) (x := x) ?_ (fun hx => ?_); unfold x) | (refine Ev.cutP (P := Q0) (s0 := s0) (x := x) (by unfold x; exact rfl) ?_ (fun hx => ?_)) | skip) | with_reducible apply State.ev_setF | with_reducible apply State.ev_setTherm

theorem State.ev_publishRaw {Q0 : StatePart → Bool} (hp0 : Need Q0 [.regs]) {s0 s : State} (ev : Ev Q0 s0 s)  : Ev Q0 s0 (State.publishRaw s) := by
  unfold State.publishRaw
  repeat' first | with_reducible assumption | exact Need.sub hp0 rfl | with_reducible apply State.ev_setF | with_reducible refine Ev.foldl _ (fun st a hst => ?_) _ _ ?_ | with_reducible refine Ev.foldlP _ (fun st a hst => ?_) _ _ ?_

theorem State.ev_publishLine {Q0 : StatePart → Bool} (hp0 : Need Q0 [.host, .log, .therm, .regs, .out]) {s0 s : State} (ev : Ev Q0 s0 s) (l : Nat) : Ev Q0 s0 (State.publishLine s l) := by
  unfold State.publishLine
  repeat' first | with_reducible assumption | exact Need.sub hp0 rfl | ((try lift_lets -underBinder); intro x; first | (refine Ev.cut (P := Q0) (s0 := s0) (x := x) ?_ (fun hx => ?_); unfold x) | (refine Ev.cutP (P := Q0) (s0 := s0) (x := x) (by unfold x; exact rfl) ?_ (fun hx => ?_)) | (generalize he : x = y) | skip) | with_reducible apply State.ev_setTherm | with_reducible apply State.ev_setF | with_reducible apply State.ev_thermRec | with_reducible apply State.ev_warn | split

theorem State.ev_crossCheck {Q0 : StatePart → Bool} (hp0 : Need Q0 [.host, .log, .therm, .regs, .out]) {s0 s before : State} (evs : Ev Q0 s0 s) (evbefore : Ev Q0 s0 before) (i : Nat) : Ev Q0 s0 (State.crossCheck s before i) := by
  unfold State.crossCheck
  repeat' first | with_reducible assumption | exact Need.sub hp0 rfl | ((try lift_lets -underBinder); intro x; first | (refine Ev.cut (P := Q0) (s0 := s0) (x := x) ?_ (fun hx => ?_); unfold x) | (refine Ev.cutP (P := Q0) (s0 := s0) (x := x) (by unfold x; exact rfl) ?_ (fun hx => ?_)) | skip) | with_reducible apply State.ev_setTherm | with_reducible apply State.ev_thermRec | with_reducible apply State.ev_warn | with_reducible apply State.ev_setF | split

theorem State.ev_publishSensor {Q0 : StatePart → Bool} (hp0 : Need Q0 [.regs]) {s0 s marks : State} (evs : Ev Q0 s0 s) (evmarks : Ev Q0 s0 marks) (i : Nat) : Ev Q0 s0 (State.publishSensor s marks i) := by
  unfold State.publishSensor
  repeat' first | with_reducible assumption | exact Need.sub hp0 rfl | ((try lift_lets -underBinder); intro x; first | (refine Ev.cut (P := Q0) (s0 := s0) (x := x) ?_ (fun hx => ?_); unfold x) | (refine Ev.cutP (P := Q0) (s0 := s0) (x := x) (by unfold x; exact rfl) ?_ (fun hx => ?_)) | skip) | with_reducible apply State.ev_setT | with_reducible apply State.ev_setF | split

theorem State.ev_publishStack {Q0 : StatePart → Bool} (hp0 : Need Q0 [.host, .log, .power, .ports, .therm, .regs, .out]) {s0 s : State} (ev : Ev Q0 s0 s) (n : Nat) (r : Option Half) : Ev Q0 s0 (State.publishStack s n r) := by
  unfold State.publishStack
  repeat' first | with_reducible assumption | exact Need.sub hp0 rfl | ((try lift_lets -underBinder); intro x; first | (refine Ev.cut (P := Q0) (s0 := s0) (x := x) ?_ (fun hx => ?_); unfold x) | (refine Ev.cutP (P := Q0) (s0 := s0) (x := x) (by unfold x; exact rfl) ?_ (fun hx => ?_)) | skip) | with_reducible apply State.ev_setTherm | with_reducible apply State.ev_setF | with_reducible apply State.ev_setT | with_reducible apply State.ev_trip | with_reducible apply State.ev_thermRec | with_reducible apply State.ev_warn | split

theorem State.ev_fallback {Q0 : StatePart → Bool} (hp0 : Need Q0 [.host, .log, .regs, .out]) {s0 s : State} (ev : Ev Q0 s0 s) (n : Nat) : Ev Q0 s0 (State.fallback s n) := by
  unfold State.fallback
  repeat' first | with_reducible assumption | exact Need.sub hp0 rfl | ((try lift_lets -underBinder); intro x; first | (refine Ev.cut (P := Q0) (s0 := s0) (x := x) ?_ (fun hx => ?_); unfold x) | (refine Ev.cutP (P := Q0) (s0 := s0) (x := x) (by unfold x; exact rfl) ?_ (fun hx => ?_)) | skip) | with_reducible apply State.ev_setF | with_reducible apply State.ev_maxF | with_reducible apply State.ev_showApplied | with_reducible apply State.ev_thermRec | with_reducible apply State.ev_warn | split

theorem State.ev_warnHot {Q0 : StatePart → Bool} (hp0 : Need Q0 [.regs]) {s0 s before : State} (evs : Ev Q0 s0 s) (evbefore : Ev Q0 s0 before)  : Ev Q0 s0 (State.warnHot s before) := by
  unfold State.warnHot
  repeat' first | with_reducible assumption | exact Need.sub hp0 rfl | ((try lift_lets -underBinder); intro x; first | (refine Ev.cut (P := Q0) (s0 := s0) (x := x) ?_ (fun hx => ?_); unfold x) | (refine Ev.cutP (P := Q0) (s0 := s0) (x := x) (by unfold x; exact rfl) ?_ (fun hx => ?_)) | skip) | with_reducible apply State.ev_warn | with_reducible refine Ev.foldl _ (fun st a hst => ?_) _ _ ?_ | with_reducible refine Ev.foldlP _ (fun st a hst => ?_) _ _ ?_ | split

theorem State.ev_ageSensorInj {Q0 : StatePart → Bool} (hp0 : Need Q0 [.faults]) {s0 s : State} (ev : Ev Q0 s0 s)  : Ev Q0 s0 (State.ageSensorInj s) := by
  unfold State.ageSensorInj
  repeat' first | with_reducible assumption | exact Need.sub hp0 rfl | ((try lift_lets -underBinder); intro x; first | (refine Ev.cut (P := Q0) (s0 := s0) (x := x) ?_ (fun hx => ?_); unfold x) | (refine Ev.cutP (P := Q0) (s0 := s0) (x := x) (by unfold x; exact rfl) ?_ (fun hx => ?_)) | skip) | with_reducible apply State.ev_setFaults | split

theorem State.ev_publishMon {Q0 : StatePart → Bool} (hp0 : Need Q0 [.regs]) {s0 s : State} (ev : Ev Q0 s0 s) (vmon : List Half) (imon : List Half) (watts : Nat) : Ev Q0 s0 (State.publishMon s vmon imon watts) := by
  unfold State.publishMon
  repeat' first | with_reducible assumption | exact Need.sub hp0 rfl | ((try lift_lets -underBinder); intro x; first | (refine Ev.cut (P := Q0) (s0 := s0) (x := x) ?_ (fun hx => ?_); unfold x) | (refine Ev.cutP (P := Q0) (s0 := s0) (x := x) (by unfold x; exact rfl) ?_ (fun hx => ?_)) | skip) | with_reducible apply State.ev_setF | with_reducible refine Ev.foldl _ (fun st a hst => ?_) _ _ ?_ | with_reducible refine Ev.foldlP _ (fun st a hst => ?_) _ _ ?_ | split

theorem State.ev_publish {Q0 : StatePart → Bool} (hp0 : Need Q0 [.host, .faults, .log, .power, .ports, .therm, .regs, .out]) {s0 s : State} (ev : Ev Q0 s0 s) (stackTemps : List (Option Half)) (vmon : List Half) (imon : List Half) (watts : Nat) : Ev Q0 s0 (State.publish s stackTemps vmon imon watts) := by
  unfold State.publish
  repeat' first | with_reducible assumption | exact Need.sub hp0 rfl | ((try lift_lets -underBinder); intro x; first | (refine Ev.cut (P := Q0) (s0 := s0) (x := x) ?_ (fun hx => ?_); unfold x) | (refine Ev.cutP (P := Q0) (s0 := s0) (x := x) (by unfold x; exact rfl) ?_ (fun hx => ?_)) | skip) | with_reducible apply State.ev_publishLine | with_reducible apply State.ev_publishRaw | with_reducible apply State.ev_crossCheck | with_reducible apply State.ev_publishSensor | with_reducible apply State.ev_publishStack | with_reducible apply State.ev_setTherm | with_reducible apply State.ev_bumpWrap | with_reducible apply State.ev_setF | with_reducible apply State.ev_setT | with_reducible apply State.ev_fallback | with_reducible apply State.ev_warnHot | with_reducible apply State.ev_ageSensorInj | with_reducible apply State.ev_publishMon | with_reducible refine Ev.foldl _ (fun st a hst => ?_) _ _ ?_ | with_reducible refine Ev.foldlP _ (fun st a hst => ?_) _ _ ?_ | split

theorem execSensorConversion_ev {Q0 : StatePart → Bool} (hp0 : Need Q0 [.host, .log, .power, .ports, .therm, .regs, .out]) {s0 s : State} (ev : Ev Q0 s0 s) (sensor : Fin 96) (raw : BitVec 20) : ∃ t, (execSensorConversion sensor raw s) = .next t ∧ Ev Q0 s0 t := by
  unfold execSensorConversion
  refine ⟨_, rfl, ?_⟩
  repeat' first | with_reducible assumption | exact Need.sub hp0 rfl | ((try lift_lets -underBinder); intro x; first | (refine Ev.cut (P := Q0) (s0 := s0) (x := x) ?_ (fun hx => ?_); unfold x) | (refine Ev.cutP (P := Q0) (s0 := s0) (x := x) (by unfold x; exact rfl) ?_ (fun hx => ?_)) | skip) | with_reducible apply State.ev_compareSensors | with_reducible apply State.ev_setTherm | split

theorem execRoundStart_ev {Q0 : StatePart → Bool} (hp0 : Need Q0 [.therm]) {s0 s : State} (ev : Ev Q0 s0 s)  : ∃ t, (execRoundStart s) = .next t ∧ Ev Q0 s0 t := by
  unfold execRoundStart
  refine ⟨_, rfl, ?_⟩
  repeat' first | with_reducible assumption | exact Need.sub hp0 rfl | ((try lift_lets -underBinder); intro x; first | (refine Ev.cut (P := Q0) (s0 := s0) (x := x) ?_ (fun hx => ?_); unfold x) | (refine Ev.cutP (P := Q0) (s0 := s0) (x := x) (by unfold x; exact rfl) ?_ (fun hx => ?_)) | skip) | with_reducible apply State.ev_setTherm | split

theorem execRoundPublish_ev {Q0 : StatePart → Bool} (hp0 : Need Q0 [.host, .faults, .log, .power, .ports, .therm, .regs, .out]) {s0 s : State} (ev : Ev Q0 s0 s) (stackTemps : List (Option Half)) (vmon : List Half) (imon : List Half) (watts : Half) : ∃ t, (execRoundPublish stackTemps vmon imon watts s) = .next t ∧ Ev Q0 s0 t := by
  unfold execRoundPublish
  refine ⟨_, rfl, ?_⟩
  repeat' first | with_reducible assumption | exact Need.sub hp0 rfl | ((try lift_lets -underBinder); intro x; first | (refine Ev.cut (P := Q0) (s0 := s0) (x := x) ?_ (fun hx => ?_); unfold x) | (refine Ev.cutP (P := Q0) (s0 := s0) (x := x) (by unfold x; exact rfl) ?_ (fun hx => ?_)) | skip) | with_reducible apply State.ev_publish | split

end Sys2Proof.Machine
end

