-- ==== Sys2Proof/Laws/EvHousekeeping.lean ====
section
/-! SUPPORT. The operations of Housekeeping.lean keep the relation Ev. -/

namespace Sys2Proof.Machine

open Sys2Proof

set_option linter.unusedVariables false

theorem State.ev_setHk {Q0 : StatePart → Bool} (hp0 : Need Q0 [.hk]) {s0 s : State} (ev : Ev Q0 s0 s) (k : Nat) (h : HkSt) : Ev Q0 s0 (State.setHk s k h) := by
  unfold State.setHk
  repeat' first | with_reducible assumption | exact Need.sub hp0 rfl | with_reducible apply Ev.upd | with_reducible apply Ev.updOut | exact Or.inl (Need.has hp0 rfl) | with_reducible exact Or.inr rfl | exact Need.has hp0 rfl | with_reducible rfl

theorem State.ev_readyHk {Q0 : StatePart → Bool} (hp0 : Need Q0 [.regs]) {s0 s : State} (ev : Ev Q0 s0 s) (k : Nat) (v : Bool) : Ev Q0 s0 (State.readyHk s k v) := by
  unfold State.readyHk
  repeat' first | with_reducible assumption | exact Need.sub hp0 rfl | with_reducible apply State.ev_setF

theorem State.ev_fallbackOf {Q0 : StatePart → Bool} (hp0 : Need Q0 [.host, .log, .regs, .out]) {s0 s : State} (ev : Ev Q0 s0 s) (die : Nat) : Ev Q0 s0 (State.fallbackOf s die) := by
  unfold State.fallbackOf
  repeat' first | with_reducible assumption | exact Need.sub hp0 rfl | with_reducible apply State.ev_fallback | split

theorem State.ev_setReq {Q0 : StatePart → Bool} (hp0 : Need Q0 [.clk]) {s0 s : State} (ev : Ev Q0 s0 s) (n : Nat) (mhz : Nat) : Ev Q0 s0 (State.setReq s n mhz) := by
  unfold State.setReq
  repeat' first | with_reducible assumption | exact Need.sub hp0 rfl | ((try lift_lets -underBinder); intro x; first | (refine Ev.cut (P := Q0) (s0 := s0) (x := x) ?_ (fun hx => ?_); unfold x) | (refine Ev.cutP (P := Q0) (s0 := s0) (x := x) (by unfold x; exact rfl) ?_ (fun hx => ?_)) | skip) | with_reducible apply State.ev_setClk

theorem State.ev_writeRed {Q0 : StatePart → Bool} (hp0 : Need Q0 [.therm, .regs]) {s0 s : State} (ev : Ev Q0 s0 s) (n : Nat) (v : Nat) : Ev Q0 s0 (State.writeRed s n v) := by
  unfold State.writeRed
  repeat' first | with_reducible assumption | exact Need.sub hp0 rfl | ((try lift_lets -underBinder); intro x; first | (refine Ev.cut (P := Q0) (s0 := s0) (x := x) ?_ (fun hx => ?_); unfold x) | (refine Ev.cutP (P := Q0) (s0 := s0) (x := x) (by unfold x; exact rfl) ?_ (fun hx => ?_)) | skip) | with_reducible apply State.ev_setF | with_reducible apply State.ev_setTherm | with_reducible apply State.ev_showApplied | split

theorem State.ev_writeRedStack {Q0 : StatePart → Bool} (hp0 : Need Q0 [.therm, .regs]) {s0 s : State} (ev : Ev Q0 s0 s) (n : Nat) (v : Nat) : Ev Q0 s0 (State.writeRedStack s n v) := by
  unfold State.writeRedStack
  repeat' first | with_reducible assumption | exact Need.sub hp0 rfl | ((try lift_lets -underBinder); intro x; first | (refine Ev.cut (P := Q0) (s0 := s0) (x := x) ?_ (fun hx => ?_); unfold x) | (refine Ev.cutP (P := Q0) (s0 := s0) (x := x) (by unfold x; exact rfl) ?_ (fun hx => ?_)) | skip) | with_reducible apply State.ev_setTherm | with_reducible apply State.ev_showApplied | with_reducible apply State.ev_setF | split

theorem State.ev_loopSpan {Q0 : StatePart → Bool} (hp0 : Need Q0 [.therm, .clk, .regs]) {s0 s : State} (ev : Ev Q0 s0 s) (n : Nat) (creq : Nat) : Ev Q0 s0 (State.loopSpan s n creq) := by
  unfold State.loopSpan
  repeat' first | with_reducible assumption | exact Need.sub hp0 rfl | ((try lift_lets -underBinder); intro x; first | (refine Ev.cut (P := Q0) (s0 := s0) (x := x) ?_ (fun hx => ?_); unfold x) | (refine Ev.cutP (P := Q0) (s0 := s0) (x := x) (by unfold x; exact rfl) ?_ (fun hx => ?_)) | skip) | with_reducible apply State.ev_setReq | with_reducible apply State.ev_writeRed | with_reducible apply State.ev_writeRedStack

theorem State.ev_hkHalt {Q0 : StatePart → Bool} (hp0 : Need Q0 [.regs]) {s0 s : State} (ev : Ev Q0 s0 s) (k : Nat) (st : Nat) (cause : Nat) : Ev Q0 s0 (State.hkHalt s k st cause) := by
  unfold State.hkHalt
  repeat' first | with_reducible assumption | exact Need.sub hp0 rfl | with_reducible apply State.ev_readyHk | with_reducible apply State.ev_setF

theorem State.ev_hkCmdStop {Q0 : StatePart → Bool} (hp0 : Need Q0 [.regs]) {s0 s : State} (ev : Ev Q0 s0 s) (k : Nat) : Ev Q0 s0 (State.hkCmdStop s k) := by
  unfold State.hkCmdStop
  repeat' first | with_reducible assumption | exact Need.sub hp0 rfl | with_reducible apply State.ev_hkHalt | with_reducible apply State.ev_setF | split

theorem State.ev_hkFail {Q0 : StatePart → Bool} (hp0 : Need Q0 [.host, .log, .regs, .out]) {s0 s : State} (ev : Ev Q0 s0 s) (k : Nat) (cause : Nat) (injected : optParam Bool false) : Ev Q0 s0 (State.hkFail s k cause injected) := by
  unfold State.hkFail
  repeat' first | with_reducible assumption | exact Need.sub hp0 rfl | ((try lift_lets -underBinder); intro x; first | (refine Ev.cut (P := Q0) (s0 := s0) (x := x) ?_ (fun hx => ?_); unfold x) | (refine Ev.cutP (P := Q0) (s0 := s0) (x := x) (by unfold x; exact rfl) ?_ (fun hx => ?_)) | skip) | with_reducible apply State.ev_errRec | with_reducible apply State.ev_warn | with_reducible apply State.ev_hkHalt | with_reducible apply State.ev_fallbackOf

theorem State.ev_secRec {Q0 : StatePart → Bool} (hp0 : Need Q0 [.host, .log, .regs, .out]) {s0 s : State} (ev : Ev Q0 s0 s) (event : Nat) (a : Nat) (b : Nat) : Ev Q0 s0 (State.secRec s event a b) := by
  unfold State.secRec
  repeat' first | with_reducible assumption | exact Need.sub hp0 rfl | with_reducible apply State.ev_errRec

theorem State.ev_hkVerify {Q0 : StatePart → Bool} (hp0 : Need Q0 [.host, .log, .hk, .regs, .out]) {s0 s : State} (ev : Ev Q0 s0 s) (f : InFlight) (k : Nat) (die : Nat) (m : List Byte) : Ev Q0 s0 (State.hkVerify s f k die m) := by
  unfold State.hkVerify
  repeat' first | with_reducible assumption | exact Need.sub hp0 rfl | ((try lift_lets -underBinder); intro x; first | (refine Ev.cut (P := Q0) (s0 := s0) (x := x) ?_ (fun hx => ?_); unfold x) | (refine Ev.cutP (P := Q0) (s0 := s0) (x := x) (by unfold x; exact rfl) ?_ (fun hx => ?_)) | skip) | with_reducible apply State.ev_setF | with_reducible apply State.ev_finish | with_reducible apply State.ev_secRec | with_reducible apply State.ev_startFlight | with_reducible apply State.ev_setHk | split

theorem State.ev_hkTake {Q0 : StatePart → Bool} (hp0 : Need Q0 [.host, .log, .hk, .regs, .out]) {s0 s : State} (ev : Ev Q0 s0 s) (f : InFlight) (k : Nat) (die : Nat) (got : Option (List Byte)) : Ev Q0 s0 (State.hkTake s f k die got) := by
  unfold State.hkTake
  repeat' first | with_reducible assumption | exact Need.sub hp0 rfl | ((try lift_lets -underBinder); intro x; first | (refine Ev.cut (P := Q0) (s0 := s0) (x := x) ?_ (fun hx => ?_); unfold x) | (refine Ev.cutP (P := Q0) (s0 := s0) (x := x) (by unfold x; exact rfl) ?_ (fun hx => ?_)) | skip) | with_reducible apply State.ev_finish | with_reducible apply State.ev_setF | with_reducible apply State.ev_hkVerify | with_reducible apply State.ev_setHk | split

theorem State.ev_hkLoad {Q0 : StatePart → Bool} (hp0 : Need Q0 [.host, .log, .hk, .regs, .out]) {s0 s : State} (ev : Ev Q0 s0 s) (data : Option (List Byte)) (f : InFlight) : Ev Q0 s0 (State.hkLoad s data f) := by
  unfold State.hkLoad
  repeat' first | with_reducible assumption | exact Need.sub hp0 rfl | ((try lift_lets -underBinder); intro x; first | (refine Ev.cut (P := Q0) (s0 := s0) (x := x) ?_ (fun hx => ?_); unfold x) | (refine Ev.cutP (P := Q0) (s0 := s0) (x := x) (by unfold x; exact rfl) ?_ (fun hx => ?_)) | skip) | with_reducible apply State.ev_finish | with_reducible apply State.ev_hkCmdStop | with_reducible apply State.ev_setF | with_reducible apply State.ev_setHk | with_reducible apply State.ev_hostGet | with_reducible apply State.ev_hkTake | with_reducible refine State.ev_hostGet_eq (Need.sub hp0 rfl) ?_ _ _ _ _ (by with_reducible assumption) | split

theorem State.ev_hkRun {Q0 : StatePart → Bool} (hp0 : Need Q0 [.hk, .clk, .regs]) {s0 s : State} (ev : Ev Q0 s0 s) (k : Nat) : Ev Q0 s0 (State.hkRun s k) := by
  unfold State.hkRun
  repeat' first | with_reducible assumption | exact Need.sub hp0 rfl | ((try lift_lets -underBinder); intro x; first | (refine Ev.cut (P := Q0) (s0 := s0) (x := x) ?_ (fun hx => ?_); unfold x) | (refine Ev.cutP (P := Q0) (s0 := s0) (x := x) (by unfold x; exact rfl) ?_ (fun hx => ?_)) | skip) | with_reducible apply State.ev_readyHk | with_reducible apply State.ev_setF | with_reducible apply State.ev_setHk | with_reducible apply State.ev_bumpSat | with_reducible apply State.ev_showCeiling | with_reducible apply State.ev_setClk | split

theorem State.ev_hkRestart {Q0 : StatePart → Bool} (hp0 : Need Q0 [.host, .log, .hk, .regs, .out]) {s0 s : State} (ev : Ev Q0 s0 s) (f : InFlight) : Ev Q0 s0 (State.hkRestart s f) := by
  unfold State.hkRestart
  repeat' first | with_reducible assumption | exact Need.sub hp0 rfl | ((try lift_lets -underBinder); intro x; first | (refine Ev.cut (P := Q0) (s0 := s0) (x := x) ?_ (fun hx => ?_); unfold x) | (refine Ev.cutP (P := Q0) (s0 := s0) (x := x) (by unfold x; exact rfl) ?_ (fun hx => ?_)) | skip) | with_reducible apply State.ev_finish | with_reducible apply State.ev_hkVerify | with_reducible apply State.ev_hkCmdStop | split

theorem State.ev_hkStop {Q0 : StatePart → Bool} (hp0 : Need Q0 [.host, .log, .hk, .regs, .out]) {s0 s : State} (ev : Ev Q0 s0 s) (f : InFlight) : Ev Q0 s0 (State.hkStop s f) := by
  unfold State.hkStop
  repeat' first | with_reducible assumption | exact Need.sub hp0 rfl | ((try lift_lets -underBinder); intro x; first | (refine Ev.cut (P := Q0) (s0 := s0) (x := x) ?_ (fun hx => ?_); unfold x) | (refine Ev.cutP (P := Q0) (s0 := s0) (x := x) (by unfold x; exact rfl) ?_ (fun hx => ?_)) | skip) | with_reducible apply State.ev_finish | with_reducible apply State.ev_setF | with_reducible apply State.ev_hkCmdStop | with_reducible apply State.ev_fallbackOf | with_reducible apply State.ev_setHk | split

theorem State.ev_thermalSet {Q0 : StatePart → Bool} (hp0 : Need Q0 [.host, .regs, .out]) {s0 s : State} (ev : Ev Q0 s0 s) (f : InFlight) : Ev Q0 s0 (State.thermalSet s f) := by
  unfold State.thermalSet
  repeat' first | with_reducible assumption | exact Need.sub hp0 rfl | ((try lift_lets -underBinder); intro x; first | (refine Ev.cut (P := Q0) (s0 := s0) (x := x) ?_ (fun hx => ?_); unfold x) | (refine Ev.cutP (P := Q0) (s0 := s0) (x := x) (by unfold x; exact rfl) ?_ (fun hx => ?_)) | skip) | with_reducible apply State.ev_finish | with_reducible apply State.ev_setF | split

theorem execThrottleLoop_ev {Q0 : StatePart → Bool} (hp0 : Need Q0 [.hk, .therm, .clk, .regs]) {s0 s : State} (ev : Ev Q0 s0 s) (core : HkIx) (req0 : BitVec 11) (req1 : BitVec 11) : ∃ t, (execThrottleLoop core req0 req1 s) = .next t ∧ Ev Q0 s0 t := by
  unfold execThrottleLoop
  refine ⟨_, rfl, ?_⟩
  repeat' first | with_reducible assumption | exact Need.sub hp0 rfl | ((try lift_lets -underBinder); intro x; first | (refine Ev.cut (P := Q0) (s0 := s0) (x := x) ?_ (fun hx => ?_); unfold x) | (refine Ev.cutP (P := Q0) (s0 := s0) (x := x) (by unfold x; exact rfl) ?_ (fun hx => ?_)) | skip) | with_reducible apply State.ev_setHk | with_reducible apply State.ev_loopSpan | split

theorem execHkFirmwareWrite_ev {Q0 : StatePart → Bool} (hp0 : Need Q0 [.ports, .hk, .therm, .clk, .regs]) {s0 s : State} (ev : Ev Q0 s0 s) (core : HkIx) (field : Byte) (target : Byte) (value : Word) : ∃ t, (execHkFirmwareWrite core field target value s) = .next t ∧ Ev Q0 s0 t := by
  unfold execHkFirmwareWrite
  refine ⟨_, rfl, ?_⟩
  repeat' first | with_reducible assumption | exact Need.sub hp0 rfl | ((try lift_lets -underBinder); intro x; first | (refine Ev.cut (P := Q0) (s0 := s0) (x := x) ?_ (fun hx => ?_); unfold x) | (refine Ev.cutP (P := Q0) (s0 := s0) (x := x) (by unfold x; exact rfl) ?_ (fun hx => ?_)) | skip) | with_reducible apply State.ev_setHk | with_reducible apply State.ev_setReq | with_reducible apply State.ev_writeRed | with_reducible apply State.ev_writeRedStack | with_reducible apply State.ev_modPort | with_reducible apply State.ev_bumpSat | split

theorem execHkWatchdogTimeout_ev {Q0 : StatePart → Bool} (hp0 : Need Q0 [.host, .log, .regs, .out]) {s0 s : State} (ev : Ev Q0 s0 s) (core : HkIx) : ∃ t, (execHkWatchdogTimeout core s) = .next t ∧ Ev Q0 s0 t := by
  unfold execHkWatchdogTimeout
  refine ⟨_, rfl, ?_⟩
  repeat' first | with_reducible assumption | exact Need.sub hp0 rfl | with_reducible apply State.ev_hkFail | split

theorem execHkCoreFault_ev {Q0 : StatePart → Bool} (hp0 : Need Q0 [.host, .log, .regs, .out]) {s0 s : State} (ev : Ev Q0 s0 s) (core : HkIx) : ∃ t, (execHkCoreFault core s) = .next t ∧ Ev Q0 s0 t := by
  unfold execHkCoreFault
  refine ⟨_, rfl, ?_⟩
  repeat' first | with_reducible assumption | exact Need.sub hp0 rfl | with_reducible apply State.ev_hkFail | split

theorem execHkLoad_ev {Q0 : StatePart → Bool} (hp0 : Need Q0 [.host, .log, .hk, .regs, .out]) {s0 s : State} (ev : Ev Q0 s0 s) (sq : RingNo) (data : Option (List Byte)) : ∃ t, (execHkLoad sq data s) = .next t ∧ Ev Q0 s0 t := by
  unfold execHkLoad
  refine ⟨_, rfl, ?_⟩
  repeat' first | with_reducible assumption | exact Need.sub hp0 rfl | ((try lift_lets -underBinder); intro x; (try dsimp -zeta -proj only); first | (refine Ev.cut (P := Q0) (s0 := s0) (x := x) ?_ (fun hx => ?_); unfold x) | (refine Ev.cutP (P := Q0) (s0 := s0) (x := x) (by unfold x; exact rfl) ?_ (fun hx => ?_)) | skip) | with_reducible apply State.ev_ringCmd | with_reducible apply State.ev_hkLoad

theorem execHkStart_ev {Q0 : StatePart → Bool} (hp0 : Need Q0 [.host, .hk, .clk, .regs, .out]) {s0 s : State} (ev : Ev Q0 s0 s) (core : HkIx) : ∃ t, (execHkStart core s) = .next t ∧ Ev Q0 s0 t := by
  unfold execHkStart
  refine ⟨_, rfl, ?_⟩
  repeat' first | with_reducible assumption | exact Need.sub hp0 rfl | ((try lift_lets -underBinder); intro x; first | (refine Ev.cut (P := Q0) (s0 := s0) (x := x) ?_ (fun hx => ?_); unfold x) | (refine Ev.cutP (P := Q0) (s0 := s0) (x := x) (by unfold x; exact rfl) ?_ (fun hx => ?_)) | skip) | with_reducible apply State.ev_hkRun | with_reducible apply State.ev_finish | split

theorem execHkRestart_ev {Q0 : StatePart → Bool} (hp0 : Need Q0 [.host, .log, .hk, .regs, .out]) {s0 s : State} (ev : Ev Q0 s0 s) (sq : RingNo) : ∃ t, (execHkRestart sq s) = .next t ∧ Ev Q0 s0 t := by
  unfold execHkRestart
  refine ⟨_, rfl, ?_⟩
  repeat' first | with_reducible assumption | exact Need.sub hp0 rfl | ((try lift_lets -underBinder); intro x; (try dsimp -zeta -proj only); first | (refine Ev.cut (P := Q0) (s0 := s0) (x := x) ?_ (fun hx => ?_); unfold x) | (refine Ev.cutP (P := Q0) (s0 := s0) (x := x) (by unfold x; exact rfl) ?_ (fun hx => ?_)) | skip) | with_reducible apply State.ev_ringCmd | with_reducible apply State.ev_hkRestart

theorem execHkStop_ev {Q0 : StatePart → Bool} (hp0 : Need Q0 [.host, .log, .hk, .regs, .out]) {s0 s : State} (ev : Ev Q0 s0 s) (sq : RingNo) : ∃ t, (execHkStop sq s) = .next t ∧ Ev Q0 s0 t := by
  unfold execHkStop
  refine ⟨_, rfl, ?_⟩
  repeat' first | with_reducible assumption | exact Need.sub hp0 rfl | ((try lift_lets -underBinder); intro x; (try dsimp -zeta -proj only); first | (refine Ev.cut (P := Q0) (s0 := s0) (x := x) ?_ (fun hx => ?_); unfold x) | (refine Ev.cutP (P := Q0) (s0 := s0) (x := x) (by unfold x; exact rfl) ?_ (fun hx => ?_)) | skip) | with_reducible apply State.ev_ringCmd | with_reducible apply State.ev_hkStop

theorem execThermalSet_ev {Q0 : StatePart → Bool} (hp0 : Need Q0 [.host, .regs, .out]) {s0 s : State} (ev : Ev Q0 s0 s) (sq : RingNo) : ∃ t, (execThermalSet sq s) = .next t ∧ Ev Q0 s0 t := by
  unfold execThermalSet
  refine ⟨_, rfl, ?_⟩
  repeat' first | with_reducible assumption | exact Need.sub hp0 rfl | ((try lift_lets -underBinder); intro x; (try dsimp -zeta -proj only); first | (refine Ev.cut (P := Q0) (s0 := s0) (x := x) ?_ (fun hx => ?_); unfold x) | (refine Ev.cutP (P := Q0) (s0 := s0) (x := x) (by unfold x; exact rfl) ?_ (fun hx => ?_)) | skip) | with_reducible apply State.ev_ringCmd | with_reducible apply State.ev_thermalSet

theorem execThermalSync_ev {Q0 : StatePart → Bool} (hp0 : Need Q0 [.host, .therm, .regs, .out]) {s0 s : State} (ev : Ev Q0 s0 s) (sq : RingNo) : ∃ t, (execThermalSync sq s) = .next t ∧ Ev Q0 s0 t := by
  unfold execThermalSync
  refine ⟨_, rfl, ?_⟩
  repeat' first | with_reducible assumption | exact Need.sub hp0 rfl | ((try lift_lets -underBinder); intro x; (try dsimp -zeta -proj only); first | (refine Ev.cut (P := Q0) (s0 := s0) (x := x) ?_ (fun hx => ?_); unfold x) | (refine Ev.cutP (P := Q0) (s0 := s0) (x := x) (by unfold x; exact rfl) ?_ (fun hx => ?_)) | skip) | with_reducible apply State.ev_ringCmd | with_reducible apply State.ev_finish | with_reducible apply State.ev_thermSync

theorem execThermalRead_ev {Q0 : StatePart → Bool} (hp0 : Need Q0 [.host, .regs, .out]) {s0 s : State} (ev : Ev Q0 s0 s) (sq : RingNo) (ok : Bool) : ∃ t, (execThermalRead sq ok s) = .next t ∧ Ev Q0 s0 t := by
  unfold execThermalRead
  refine ⟨_, rfl, ?_⟩
  repeat' first | with_reducible assumption | exact Need.sub hp0 rfl | ((try lift_lets -underBinder); intro x; (try dsimp -zeta -proj only); first | (refine Ev.cut (P := Q0) (s0 := s0) (x := x) ?_ (fun hx => ?_); unfold x) | (refine Ev.cutP (P := Q0) (s0 := s0) (x := x) (by unfold x; exact rfl) ?_ (fun hx => ?_)) | skip) | with_reducible apply State.ev_ringCmd | with_reducible apply State.ev_hostPut | with_reducible apply State.ev_finish | with_reducible refine State.ev_hostPut_eq (Need.sub hp0 rfl) ?_ _ _ _ _ (by with_reducible assumption) | split

end Sys2Proof.Machine
end

