-- ==== Sys2Proof/Laws/EvRecovery.lean ====
section
/-! SUPPORT. The operations of Recovery.lean keep the relation Ev. -/

namespace Sys2Proof.Machine

open Sys2Proof

set_option linter.unusedVariables false

theorem State.ev_requestReset {Q0 : StatePart → Bool} (hp0 : Need Q0 [.host, .steps, .mm, .faults, .log, .streams, .router, .rmt, .col, .cores, .ports, .sec, .regs, .out, .freeCtr, .mem]) {s0 s : State} (ev : Ev Q0 s0 s) (lvl : Nat) (d : Domain) (hold : Bool) (hbm : Bool) (f : InFlight) : Ev Q0 s0 (State.requestReset s lvl d hold hbm f) := by
  unfold State.requestReset
  repeat' first | with_reducible assumption | exact Need.sub hp0 rfl | ((try lift_lets -underBinder); intro x; first | (refine Ev.cut (P := Q0) (s0 := s0) (x := x) ?_ (fun hx => ?_); unfold x) | (refine Ev.cutP (P := Q0) (s0 := s0) (x := x) (by unfold x; exact rfl) ?_ (fun hx => ?_)) | skip) | with_reducible apply State.ev_startFlight | with_reducible apply State.ev_startReset | with_reducible apply State.ev_openWindow | with_reducible apply State.ev_setFaults | with_reducible apply State.ev_escalate | split

theorem State.ev_resetCmd {Q0 : StatePart → Bool} (hp0 : Need Q0 [.host, .regs, .out]) {s0 s : State} (ev : Ev Q0 s0 s) (n : Nat) (lvl : Nat) (k : State → InFlight → State) (hk : ∀ x0 x1, Ev Q0 s0 x0 → Ev Q0 s0 (k x0 x1)) : Ev Q0 s0 (State.resetCmd s n lvl k) := by
  unfold State.resetCmd
  repeat' first | with_reducible assumption | exact Need.sub hp0 rfl | ((try lift_lets -underBinder); intro x; first | (refine Ev.cut (P := Q0) (s0 := s0) (x := x) ?_ (fun hx => ?_); unfold x) | (refine Ev.cutP (P := Q0) (s0 := s0) (x := x) (by unfold x; exact rfl) ?_ (fun hx => ?_)) | skip) | with_reducible apply State.ev_finish | with_reducible apply hk | split

theorem State.ev_resetL2 {Q0 : StatePart → Bool} (hp0 : Need Q0 [.host, .steps, .mm, .faults, .log, .streams, .router, .rmt, .col, .cores, .ports, .sec, .regs, .out, .freeCtr, .mem]) {s0 s : State} (ev : Ev Q0 s0 s) (f : InFlight) : Ev Q0 s0 (State.resetL2 s f) := by
  unfold State.resetL2
  repeat' first | with_reducible assumption | exact Need.sub hp0 rfl | ((try lift_lets -underBinder); intro x; first | (refine Ev.cut (P := Q0) (s0 := s0) (x := x) ?_ (fun hx => ?_); unfold x) | (refine Ev.cutP (P := Q0) (s0 := s0) (x := x) (by unfold x; exact rfl) ?_ (fun hx => ?_)) | skip) | with_reducible apply State.ev_finish | with_reducible apply State.ev_requestReset | split

theorem State.ev_resetL3 {Q0 : StatePart → Bool} (hp0 : Need Q0 [.host, .steps, .mm, .faults, .log, .streams, .router, .rmt, .col, .cores, .ports, .sec, .regs, .out, .freeCtr, .mem]) {s0 s : State} (ev : Ev Q0 s0 s) (f : InFlight) : Ev Q0 s0 (State.resetL3 s f) := by
  unfold State.resetL3
  repeat' first | with_reducible assumption | exact Need.sub hp0 rfl | ((try lift_lets -underBinder); intro x; first | (refine Ev.cut (P := Q0) (s0 := s0) (x := x) ?_ (fun hx => ?_); unfold x) | (refine Ev.cutP (P := Q0) (s0 := s0) (x := x) (by unfold x; exact rfl) ?_ (fun hx => ?_)) | skip) | with_reducible apply State.ev_finish | with_reducible apply State.ev_requestReset | split

theorem State.ev_resetL4 {Q0 : StatePart → Bool} (hp0 : Need Q0 [.host, .steps, .mm, .faults, .log, .streams, .router, .rmt, .col, .cores, .ports, .sec, .regs, .out, .freeCtr, .mem]) {s0 s : State} (ev : Ev Q0 s0 s) (f : InFlight) : Ev Q0 s0 (State.resetL4 s f) := by
  unfold State.resetL4
  repeat' first | with_reducible assumption | exact Need.sub hp0 rfl | ((try lift_lets -underBinder); intro x; first | (refine Ev.cut (P := Q0) (s0 := s0) (x := x) ?_ (fun hx => ?_); unfold x) | (refine Ev.cutP (P := Q0) (s0 := s0) (x := x) (by unfold x; exact rfl) ?_ (fun hx => ?_)) | skip) | with_reducible apply State.ev_finish | with_reducible apply State.ev_startFlight | with_reducible apply State.ev_setFaults | with_reducible apply State.ev_startReset | with_reducible apply State.ev_openWindow | with_reducible apply State.ev_requestReset | split

theorem State.ev_spanUp {Q0 : StatePart → Bool} (hp0 : Need Q0 [.mm, .regs]) {s0 s : State} (ev : Ev Q0 s0 s) (n : Nat) : Ev Q0 s0 (State.spanUp s n) := by
  unfold State.spanUp
  repeat' first | with_reducible assumption | exact Need.sub hp0 rfl | ((try lift_lets -underBinder); intro x; first | (refine Ev.cut (P := Q0) (s0 := s0) (x := x) ?_ (fun hx => ?_); unfold x) | (refine Ev.cutP (P := Q0) (s0 := s0) (x := x) (by unfold x; exact rfl) ?_ (fun hx => ?_)) | skip) | with_reducible apply State.ev_setSpan | with_reducible apply State.ev_setReadySpan | with_reducible apply State.ev_ownStack | split

theorem State.ev_runWindows {Q0 : StatePart → Bool} (hp0 : Need Q0 [.faults]) {s0 s : State} (ev : Ev Q0 s0 s) (ds : List Domain) : Ev Q0 s0 (State.runWindows s ds) := by
  unfold State.runWindows
  repeat' first | with_reducible assumption | exact Need.sub hp0 rfl | ((try lift_lets -underBinder); intro x; first | (refine Ev.cut (P := Q0) (s0 := s0) (x := x) ?_ (fun hx => ?_); unfold x) | (refine Ev.cutP (P := Q0) (s0 := s0) (x := x) (by unfold x; exact rfl) ?_ (fun hx => ?_)) | skip) | with_reducible apply State.ev_setFaults | split

theorem State.ev_endHangs {Q0 : StatePart → Bool} (hp0 : Need Q0 [.faults]) {s0 s : State} (ev : Ev Q0 s0 s) (ds : List Domain) : Ev Q0 s0 (State.endHangs s ds) := by
  unfold State.endHangs
  repeat' first | with_reducible assumption | exact Need.sub hp0 rfl | with_reducible apply State.ev_setInjections

theorem State.ev_completeReset {Q0 : StatePart → Bool} (hp0 : Need Q0 [.host, .mm, .faults, .log, .regs, .out]) {s0 s : State} (ev : Ev Q0 s0 s) (r : ResetRun) : Ev Q0 s0 (State.completeReset s r) := by
  unfold State.completeReset
  repeat' first | with_reducible assumption | exact Need.sub hp0 rfl | ((try lift_lets -underBinder); intro x; first | (refine Ev.cut (P := Q0) (s0 := s0) (x := x) ?_ (fun hx => ?_); unfold x) | (refine Ev.cutP (P := Q0) (s0 := s0) (x := x) (by unfold x; exact rfl) ?_ (fun hx => ?_)) | skip) | with_reducible apply State.ev_countReset | with_reducible apply State.ev_setFaults | with_reducible apply State.ev_endHangs | with_reducible apply State.ev_runWindows | with_reducible apply State.ev_clearFaulted | with_reducible apply State.ev_setF | with_reducible apply State.ev_showReset | with_reducible apply State.ev_spanUp | with_reducible apply State.ev_resetRec | with_reducible apply State.ev_finish | with_reducible refine Ev.foldl _ (fun st a hst => ?_) _ _ ?_ | with_reducible refine Ev.foldlP _ (fun st a hst => ?_) _ _ ?_ | split

theorem State.ev_resetRelease {Q0 : StatePart → Bool} (hp0 : Need Q0 [.host, .mm, .faults, .regs, .out]) {s0 s : State} (ev : Ev Q0 s0 s) (f : InFlight) : Ev Q0 s0 (State.resetRelease s f) := by
  unfold State.resetRelease
  repeat' first | with_reducible assumption | exact Need.sub hp0 rfl | ((try lift_lets -underBinder); intro x; first | (refine Ev.cut (P := Q0) (s0 := s0) (x := x) ?_ (fun hx => ?_); unfold x) | (refine Ev.cutP (P := Q0) (s0 := s0) (x := x) (by unfold x; exact rfl) ?_ (fun hx => ?_)) | skip) | with_reducible apply State.ev_finish | with_reducible apply State.ev_showReset | with_reducible apply State.ev_spanUp | with_reducible apply State.ev_setFaults | with_reducible apply State.ev_setF | with_reducible refine Ev.foldl _ (fun st a hst => ?_) _ _ ?_ | with_reducible refine Ev.foldlP _ (fun st a hst => ?_) _ _ ?_ | split

theorem State.ev_shutIo {Q0 : StatePart → Bool} (hp0 : Need Q0 [.host, .ports, .subs, .boot, .regs, .out]) {s0 s : State} (ev : Ev Q0 s0 s)  : Ev Q0 s0 (State.shutIo s) := by
  unfold State.shutIo
  repeat' first | with_reducible assumption | exact Need.sub hp0 rfl | ((try lift_lets -underBinder); intro x; first | (refine Ev.cut (P := Q0) (s0 := s0) (x := x) ?_ (fun hx => ?_); unfold x) | (refine Ev.cutP (P := Q0) (s0 := s0) (x := x) (by unfold x; exact rfl) ?_ (fun hx => ?_)) | skip) | with_reducible apply State.ev_darkPort | with_reducible apply State.ev_linkDown | with_reducible apply State.ev_setBoot | with_reducible refine Ev.foldl _ (fun st a hst => ?_) _ _ ?_ | with_reducible refine Ev.foldlP _ (fun st a hst => ?_) _ _ ?_ | split

theorem State.ev_spareRec {Q0 : StatePart → Bool} (hp0 : Need Q0 [.host, .log, .regs, .out]) {s0 s : State} (ev : Ev Q0 s0 s) (event : Nat) (core : Nat) (old : Nat) (new : Nat) : Ev Q0 s0 (State.spareRec s event core old new) := by
  unfold State.spareRec
  repeat' first | with_reducible assumption | exact Need.sub hp0 rfl | with_reducible apply State.ev_errRec

theorem State.ev_markFailed {Q0 : StatePart → Bool} (hp0 : Need Q0 [.regs]) {s0 s : State} (ev : Ev Q0 s0 s) (p : Nat) : Ev Q0 s0 (State.markFailed s p) := by
  unfold State.markFailed
  repeat' first | with_reducible assumption | exact Need.sub hp0 rfl | with_reducible apply State.ev_setF

theorem State.ev_setTested {Q0 : StatePart → Bool} (hp0 : Need Q0 [.regs]) {s0 s : State} (ev : Ev Q0 s0 s) (p : Nat) (v : Bool) : Ev Q0 s0 (State.setTested s p v) := by
  unfold State.setTested
  repeat' first | with_reducible assumption | exact Need.sub hp0 rfl | with_reducible apply State.ev_setF

theorem State.ev_coreUsed {Q0 : StatePart → Bool} (hp0 : Need Q0 [.faults]) {s0 s : State} (ev : Ev Q0 s0 s) (p : Nat) : Ev Q0 s0 (State.coreUsed s p) := by
  unfold State.coreUsed
  repeat' first | with_reducible assumption | exact Need.sub hp0 rfl | ((try lift_lets -underBinder); intro x; first | (refine Ev.cut (P := Q0) (s0 := s0) (x := x) ?_ (fun hx => ?_); unfold x) | (refine Ev.cutP (P := Q0) (s0 := s0) (x := x) (by unfold x; exact rfl) ?_ (fun hx => ?_)) | skip) | with_reducible apply State.ev_setFaults

theorem State.ev_moveCore {Q0 : StatePart → Bool} (hp0 : Need Q0 [.steps, .mm, .faults, .trs, .cbk, .regs, .freeCtr, .mem]) {s0 s : State} (ev : Ev Q0 s0 s) (c : Nat) (new : Option Nat) : Ev Q0 s0 (State.moveCore s c new) := by
  unfold State.moveCore
  repeat' first | with_reducible assumption | exact Need.sub hp0 rfl | exact Memory.wf_clear _ _ | ((try lift_lets -underBinder); intro x; first | (refine Ev.cut (P := Q0) (s0 := s0) (x := x) ?_ (fun hx => ?_); unfold x) | (refine Ev.cutP (P := Q0) (s0 := s0) (x := x) (by unfold x; exact rfl) ?_ (fun hx => ?_)) | skip) | with_reducible apply State.ev_countReset | with_reducible apply State.ev_clearL2 | with_reducible apply State.ev_coreUsed | with_reducible apply State.ev_setTested | with_reducible apply State.ev_markFaulted | with_reducible apply State.ev_setMap | with_reducible apply State.ev_resetRegs | with_reducible apply State.ev_setMem | with_reducible apply State.ev_openWindow | with_reducible apply State.ev_endHangs | with_reducible apply State.ev_runWindows | split | with_reducible apply Ev.upd | with_reducible apply Ev.updOut | exact Or.inl (Need.has hp0 rfl) | with_reducible exact Or.inr rfl | exact Need.has hp0 rfl | with_reducible rfl

theorem State.ev_coreSwap {Q0 : StatePart → Bool} (hp0 : Need Q0 [.host, .steps, .mm, .faults, .log, .trs, .cbk, .regs, .out, .freeCtr, .mem]) {s0 s : State} (ev : Ev Q0 s0 s) (f : InFlight) : Ev Q0 s0 (State.coreSwap s f) := by
  unfold State.coreSwap
  repeat' first | with_reducible assumption | exact Need.sub hp0 rfl | ((try lift_lets -underBinder); intro x; first | (refine Ev.cut (P := Q0) (s0 := s0) (x := x) ?_ (fun hx => ?_); unfold x) | (refine Ev.cutP (P := Q0) (s0 := s0) (x := x) (by unfold x; exact rfl) ?_ (fun hx => ?_)) | skip) | with_reducible apply State.ev_finish | with_reducible apply State.ev_spareRec | with_reducible apply State.ev_moveCore | split

theorem State.ev_coreTest {Q0 : StatePart → Bool} (hp0 : Need Q0 [.host, .faults, .regs, .out]) {s0 s : State} (ev : Ev Q0 s0 s) (f : InFlight) : Ev Q0 s0 (State.coreTest s f) := by
  unfold State.coreTest
  repeat' first | with_reducible assumption | exact Need.sub hp0 rfl | ((try lift_lets -underBinder); intro x; first | (refine Ev.cut (P := Q0) (s0 := s0) (x := x) ?_ (fun hx => ?_); unfold x) | (refine Ev.cutP (P := Q0) (s0 := s0) (x := x) (by unfold x; exact rfl) ?_ (fun hx => ?_)) | skip) | with_reducible apply State.ev_finish | with_reducible apply State.ev_startFlight | with_reducible apply State.ev_setFaults | split

theorem State.ev_coreRetire {Q0 : StatePart → Bool} (hp0 : Need Q0 [.host, .steps, .mm, .faults, .log, .trs, .cbk, .regs, .out, .freeCtr, .mem]) {s0 s : State} (ev : Ev Q0 s0 s) (f : InFlight) : Ev Q0 s0 (State.coreRetire s f) := by
  unfold State.coreRetire
  repeat' first | with_reducible assumption | exact Need.sub hp0 rfl | ((try lift_lets -underBinder); intro x; first | (refine Ev.cut (P := Q0) (s0 := s0) (x := x) ?_ (fun hx => ?_); unfold x) | (refine Ev.cutP (P := Q0) (s0 := s0) (x := x) (by unfold x; exact rfl) ?_ (fun hx => ?_)) | skip) | with_reducible apply State.ev_finish | with_reducible apply State.ev_spareRec | with_reducible apply State.ev_markFailed | with_reducible apply State.ev_moveCore | split

theorem State.ev_logRead {Q0 : StatePart → Bool} (hp0 : Need Q0 [.host, .regs, .out]) {s0 s : State} (ev : Ev Q0 s0 s) (ok : Bool) (f : InFlight) : Ev Q0 s0 (State.logRead s ok f) := by
  unfold State.logRead
  repeat' first | with_reducible assumption | exact Need.sub hp0 rfl | ((try lift_lets -underBinder); intro x; (try dsimp -zeta -proj only); first | (refine Ev.cut (P := Q0) (s0 := s0) (x := x) ?_ (fun hx => ?_); unfold x) | (refine Ev.cutP (P := Q0) (s0 := s0) (x := x) (by unfold x; exact rfl) ?_ (fun hx => ?_)) | (refine Ev.cutF (x := x) (fun f => ∀ st, Ev Q0 s0 st → Ev Q0 s0 (f st)) ?_ (fun hF => ?_); unfold x; try dsimp -zeta -proj only) | (refine Ev.cutF (x := x) (fun f => ∀ st a, Ev Q0 s0 st → Ev Q0 s0 (f st a)) ?_ (fun hF => ?_); unfold x; try dsimp -zeta -proj only) | (refine Ev.cutF (x := x) (fun f => ∀ st a b, Ev Q0 s0 st → Ev Q0 s0 (f st a b)) ?_ (fun hF => ?_); unfold x; try dsimp -zeta -proj only) | (refine Ev.cutF (x := x) (fun f => ∀ b, Ev Q0 s0 (f b)) ?_ (fun hF => ?_); unfold x; try dsimp -zeta -proj only) | (refine Ev.cutF (x := x) (fun f => ∀ a b, Ev Q0 s0 (f a b)) ?_ (fun hF => ?_); unfold x; try dsimp -zeta -proj only) | skip) | with_reducible apply hF | with_reducible apply State.ev_finish | with_reducible apply State.ev_hostPut | with_reducible refine State.ev_hostPut_eq (Need.sub hp0 rfl) ?_ _ _ _ _ (by with_reducible assumption) | split

theorem execL2_ev {Q0 : StatePart → Bool} (hp0 : Need Q0 [.host, .steps, .mm, .faults, .log, .streams, .router, .rmt, .col, .cores, .ports, .sec, .regs, .out, .freeCtr, .mem]) {s0 s : State} (ev : Ev Q0 s0 s) (sq : RingNo) : ∃ t, (execL2 sq s) = .next t ∧ Ev Q0 s0 t := by
  unfold execL2
  refine ⟨_, rfl, ?_⟩
  repeat' first | with_reducible assumption | exact Need.sub hp0 rfl | ((try lift_lets -underBinder); intro x; (try dsimp -zeta -proj only); first | (refine Ev.cut (P := Q0) (s0 := s0) (x := x) ?_ (fun hx => ?_); unfold x) | (refine Ev.cutP (P := Q0) (s0 := s0) (x := x) (by unfold x; exact rfl) ?_ (fun hx => ?_)) | skip) | with_reducible apply State.ev_resetCmd | with_reducible apply State.ev_resetL2

theorem execL3_ev {Q0 : StatePart → Bool} (hp0 : Need Q0 [.host, .steps, .mm, .faults, .log, .streams, .router, .rmt, .col, .cores, .ports, .sec, .regs, .out, .freeCtr, .mem]) {s0 s : State} (ev : Ev Q0 s0 s) (sq : RingNo) : ∃ t, (execL3 sq s) = .next t ∧ Ev Q0 s0 t := by
  unfold execL3
  refine ⟨_, rfl, ?_⟩
  repeat' first | with_reducible assumption | exact Need.sub hp0 rfl | ((try lift_lets -underBinder); intro x; (try dsimp -zeta -proj only); first | (refine Ev.cut (P := Q0) (s0 := s0) (x := x) ?_ (fun hx => ?_); unfold x) | (refine Ev.cutP (P := Q0) (s0 := s0) (x := x) (by unfold x; exact rfl) ?_ (fun hx => ?_)) | skip) | with_reducible apply State.ev_resetCmd | with_reducible apply State.ev_resetL3

theorem execL4_ev {Q0 : StatePart → Bool} (hp0 : Need Q0 [.host, .steps, .mm, .faults, .log, .streams, .router, .rmt, .col, .cores, .ports, .sec, .regs, .out, .freeCtr, .mem]) {s0 s : State} (ev : Ev Q0 s0 s) (sq : RingNo) : ∃ t, (execL4 sq s) = .next t ∧ Ev Q0 s0 t := by
  unfold execL4
  refine ⟨_, rfl, ?_⟩
  repeat' first | with_reducible assumption | exact Need.sub hp0 rfl | ((try lift_lets -underBinder); intro x; (try dsimp -zeta -proj only); first | (refine Ev.cut (P := Q0) (s0 := s0) (x := x) ?_ (fun hx => ?_); unfold x) | (refine Ev.cutP (P := Q0) (s0 := s0) (x := x) (by unfold x; exact rfl) ?_ (fun hx => ?_)) | skip) | with_reducible apply State.ev_resetCmd | with_reducible apply State.ev_resetL4

theorem execResetComplete_ev {Q0 : StatePart → Bool} (hp0 : Need Q0 [.host, .mm, .faults, .log, .regs, .out]) {s0 s : State} (ev : Ev Q0 s0 s) (ix : Fin 64) : ∃ t, (execResetComplete ix s) = .next t ∧ Ev Q0 s0 t := by
  unfold execResetComplete
  refine ⟨_, rfl, ?_⟩
  repeat' first | with_reducible assumption | exact Need.sub hp0 rfl | with_reducible apply State.ev_completeReset | split

theorem execRecoveryWindowEnd_ev {Q0 : StatePart → Bool} (hp0 : Need Q0 [.faults]) {s0 s : State} (ev : Ev Q0 s0 s)  : ∃ t, (execRecoveryWindowEnd s) = .next t ∧ Ev Q0 s0 t := by
  unfold execRecoveryWindowEnd
  refine ⟨_, rfl, ?_⟩
  repeat' first | with_reducible assumption | exact Need.sub hp0 rfl | ((try lift_lets -underBinder); intro x; first | (refine Ev.cut (P := Q0) (s0 := s0) (x := x) ?_ (fun hx => ?_); unfold x) | (refine Ev.cutP (P := Q0) (s0 := s0) (x := x) (by unfold x; exact rfl) ?_ (fun hx => ?_)) | skip) | with_reducible apply State.ev_setFaults

theorem execResetRelease_ev {Q0 : StatePart → Bool} (hp0 : Need Q0 [.host, .mm, .faults, .regs, .out]) {s0 s : State} (ev : Ev Q0 s0 s) (sq : RingNo) : ∃ t, (execResetRelease sq s) = .next t ∧ Ev Q0 s0 t := by
  unfold execResetRelease
  refine ⟨_, rfl, ?_⟩
  repeat' first | with_reducible assumption | exact Need.sub hp0 rfl | ((try lift_lets -underBinder); intro x; (try dsimp -zeta -proj only); first | (refine Ev.cut (P := Q0) (s0 := s0) (x := x) ?_ (fun hx => ?_); unfold x) | (refine Ev.cutP (P := Q0) (s0 := s0) (x := x) (by unfold x; exact rfl) ?_ (fun hx => ?_)) | skip) | with_reducible apply State.ev_ringCmd | with_reducible apply State.ev_resetRelease

theorem execRailOutOfRange_ev {Q0 : StatePart → Bool} (hp0 : Need Q0 [.host, .steps, .mm, .faults, .log, .streams, .router, .rmt, .col, .cores, .ports, .subs, .boot, .sec, .regs, .out, .freeCtr, .mem]) {s0 s : State} (ev : Ev Q0 s0 s) (rail : Fin 5) (mv : Half) : ∃ t, (execRailOutOfRange rail mv s) = .next t ∧ Ev Q0 s0 t := by
  unfold execRailOutOfRange
  refine ⟨_, rfl, ?_⟩
  repeat' first | with_reducible assumption | exact Need.sub hp0 rfl | ((try lift_lets -underBinder); intro x; first | (refine Ev.cut (P := Q0) (s0 := s0) (x := x) ?_ (fun hx => ?_); unfold x) | (refine Ev.cutP (P := Q0) (s0 := s0) (x := x) (by unfold x; exact rfl) ?_ (fun hx => ?_)) | skip) | with_reducible apply State.ev_setBoot | with_reducible apply State.ev_setF | with_reducible apply State.ev_powerRec | with_reducible apply State.ev_showReset | with_reducible apply State.ev_faultReset | with_reducible apply State.ev_setFaults | with_reducible apply State.ev_shutIo | split

theorem execRailRestored_ev {Q0 : StatePart → Bool} (hp0 : Need Q0 [.mm, .faults, .boot, .regs]) {s0 s : State} (ev : Ev Q0 s0 s) (rail : Fin 5) : ∃ t, (execRailRestored rail s) = .next t ∧ Ev Q0 s0 t := by
  unfold execRailRestored
  refine ⟨_, rfl, ?_⟩
  repeat' first | with_reducible assumption | exact Need.sub hp0 rfl | ((try lift_lets -underBinder); intro x; first | (refine Ev.cut (P := Q0) (s0 := s0) (x := x) ?_ (fun hx => ?_); unfold x) | (refine Ev.cutP (P := Q0) (s0 := s0) (x := x) (by unfold x; exact rfl) ?_ (fun hx => ?_)) | skip) | with_reducible apply State.ev_setBoot | with_reducible apply State.ev_setFaults | with_reducible apply State.ev_setF | with_reducible apply State.ev_showReset | with_reducible apply State.ev_spanUp | with_reducible refine Ev.foldl _ (fun st a hst => ?_) _ _ ?_ | with_reducible refine Ev.foldlP _ (fun st a hst => ?_) _ _ ?_ | split

theorem execCoreSwap_ev {Q0 : StatePart → Bool} (hp0 : Need Q0 [.host, .steps, .mm, .faults, .log, .trs, .cbk, .regs, .out, .freeCtr, .mem]) {s0 s : State} (ev : Ev Q0 s0 s) (sq : RingNo) : ∃ t, (execCoreSwap sq s) = .next t ∧ Ev Q0 s0 t := by
  unfold execCoreSwap
  refine ⟨_, rfl, ?_⟩
  repeat' first | with_reducible assumption | exact Need.sub hp0 rfl | ((try lift_lets -underBinder); intro x; (try dsimp -zeta -proj only); first | (refine Ev.cut (P := Q0) (s0 := s0) (x := x) ?_ (fun hx => ?_); unfold x) | (refine Ev.cutP (P := Q0) (s0 := s0) (x := x) (by unfold x; exact rfl) ?_ (fun hx => ?_)) | skip) | with_reducible apply State.ev_ringCmd | with_reducible apply State.ev_coreSwap

theorem execCoreTest_ev {Q0 : StatePart → Bool} (hp0 : Need Q0 [.host, .faults, .regs, .out]) {s0 s : State} (ev : Ev Q0 s0 s) (sq : RingNo) : ∃ t, (execCoreTest sq s) = .next t ∧ Ev Q0 s0 t := by
  unfold execCoreTest
  refine ⟨_, rfl, ?_⟩
  repeat' first | with_reducible assumption | exact Need.sub hp0 rfl | ((try lift_lets -underBinder); intro x; (try dsimp -zeta -proj only); first | (refine Ev.cut (P := Q0) (s0 := s0) (x := x) ?_ (fun hx => ?_); unfold x) | (refine Ev.cutP (P := Q0) (s0 := s0) (x := x) (by unfold x; exact rfl) ?_ (fun hx => ?_)) | skip) | with_reducible apply State.ev_ringCmd | with_reducible apply State.ev_coreTest

theorem execCoreTestDone_ev {Q0 : StatePart → Bool} (hp0 : Need Q0 [.host, .mm, .faults, .log, .regs, .out, .freeCtr, .mem]) {s0 s : State} (ev : Ev Q0 s0 s) (core : PCore) (pass : Bool) : ∃ t, (execCoreTestDone core pass s) = .next t ∧ Ev Q0 s0 t := by
  unfold execCoreTestDone
  refine ⟨_, rfl, ?_⟩
  repeat' first | with_reducible assumption | exact Need.sub hp0 rfl | ((try lift_lets -underBinder); intro x; first | (refine Ev.cut (P := Q0) (s0 := s0) (x := x) ?_ (fun hx => ?_); unfold x) | (refine Ev.cutP (P := Q0) (s0 := s0) (x := x) (by unfold x; exact rfl) ?_ (fun hx => ?_)) | skip) | with_reducible apply State.ev_forgetSpad | with_reducible apply State.ev_setFaults | with_reducible apply State.ev_coreUsed | with_reducible apply State.ev_setTested | with_reducible apply State.ev_spareRec | with_reducible apply State.ev_markFailed | with_reducible apply State.ev_finish | split

theorem execCoreRetire_ev {Q0 : StatePart → Bool} (hp0 : Need Q0 [.host, .steps, .mm, .faults, .log, .trs, .cbk, .regs, .out, .freeCtr, .mem]) {s0 s : State} (ev : Ev Q0 s0 s) (sq : RingNo) : ∃ t, (execCoreRetire sq s) = .next t ∧ Ev Q0 s0 t := by
  unfold execCoreRetire
  refine ⟨_, rfl, ?_⟩
  repeat' first | with_reducible assumption | exact Need.sub hp0 rfl | ((try lift_lets -underBinder); intro x; (try dsimp -zeta -proj only); first | (refine Ev.cut (P := Q0) (s0 := s0) (x := x) ?_ (fun hx => ?_); unfold x) | (refine Ev.cutP (P := Q0) (s0 := s0) (x := x) (by unfold x; exact rfl) ?_ (fun hx => ?_)) | skip) | with_reducible apply State.ev_ringCmd | with_reducible apply State.ev_coreRetire

theorem execSpareRotateDue_ev {Q0 : StatePart → Bool} (hp0 : Need Q0 [.host, .log, .regs, .out]) {s0 s : State} (ev : Ev Q0 s0 s) (span : SpanIx) : ∃ t, (execSpareRotateDue span s) = .next t ∧ Ev Q0 s0 t := by
  unfold execSpareRotateDue
  refine ⟨_, rfl, ?_⟩
  repeat' first | with_reducible assumption | exact Need.sub hp0 rfl | ((try lift_lets -underBinder); intro x; first | (refine Ev.cut (P := Q0) (s0 := s0) (x := x) ?_ (fun hx => ?_); unfold x) | (refine Ev.cutP (P := Q0) (s0 := s0) (x := x) (by unfold x; exact rfl) ?_ (fun hx => ?_)) | skip) | with_reducible apply State.ev_setF | with_reducible apply State.ev_spareRec | with_reducible refine Ev.foldl _ (fun st a hst => ?_) _ _ ?_ | with_reducible refine Ev.foldlP _ (fun st a hst => ?_) _ _ ?_ | split

theorem execLogRead_ev {Q0 : StatePart → Bool} (hp0 : Need Q0 [.host, .regs, .out]) {s0 s : State} (ev : Ev Q0 s0 s) (sq : RingNo) (ok : Bool) : ∃ t, (execLogRead sq ok s) = .next t ∧ Ev Q0 s0 t := by
  unfold execLogRead
  refine ⟨_, rfl, ?_⟩
  repeat' first | with_reducible assumption | exact Need.sub hp0 rfl | ((try lift_lets -underBinder); intro x; (try dsimp -zeta -proj only); first | (refine Ev.cut (P := Q0) (s0 := s0) (x := x) ?_ (fun hx => ?_); unfold x) | (refine Ev.cutP (P := Q0) (s0 := s0) (x := x) (by unfold x; exact rfl) ?_ (fun hx => ?_)) | skip) | with_reducible apply State.ev_ringCmd | with_reducible apply State.ev_logRead

end Sys2Proof.Machine
end

