-- ==== Sys2Proof/Laws/EvInject.lean ====
section
/-! SUPPORT. The operations of Inject.lean keep the relation Ev. -/

namespace Sys2Proof.Machine

open Sys2Proof

set_option linter.unusedVariables false

theorem State.ev_injRec {Q0 : StatePart → Bool} (hp0 : Need Q0 [.host, .log, .regs, .out]) {s0 s : State} (ev : Ev Q0 s0 s) (event : Nat) (plan : Nat) (entry : Nat) : Ev Q0 s0 (State.injRec s event plan entry) := by
  unfold State.injRec
  repeat' first | with_reducible assumption | exact Need.sub hp0 rfl | with_reducible apply State.ev_errRec

theorem State.ev_injectPlan {Q0 : StatePart → Bool} (hp0 : Need Q0 [.host, .regs, .out]) {s0 s : State} (ev : Ev Q0 s0 s) (data : Option (List Byte)) (f : InFlight) : Ev Q0 s0 (State.injectPlan s data f) := by
  unfold State.injectPlan
  repeat' first | with_reducible assumption | exact Need.sub hp0 rfl | ((try lift_lets -underBinder); intro x; first | (refine Ev.cut (P := Q0) (s0 := s0) (x := x) ?_ (fun hx => ?_); unfold x) | (refine Ev.cutP (P := Q0) (s0 := s0) (x := x) (by unfold x; exact rfl) ?_ (fun hx => ?_)) | skip) | with_reducible apply State.ev_finish | with_reducible apply State.ev_hostGet | with_reducible apply State.ev_setF | with_reducible refine State.ev_hostGet_eq (Need.sub hp0 rfl) ?_ _ _ _ _ (by with_reducible assumption) | with_reducible refine Ev.foldl _ (fun st a hst => ?_) _ _ ?_ | with_reducible refine Ev.foldlP _ (fun st a hst => ?_) _ _ ?_ | split

theorem State.ev_setActive {Q0 : StatePart → Bool} (hp0 : Need Q0 [.regs]) {s0 s : State} (ev : Ev Q0 s0 s) (k : Nat) (v : Bool) : Ev Q0 s0 (State.setActive s k v) := by
  unfold State.setActive
  repeat' first | with_reducible assumption | exact Need.sub hp0 rfl | with_reducible apply State.ev_setF

theorem State.ev_startPlan {Q0 : StatePart → Bool} (hp0 : Need Q0 [.host, .faults, .log, .regs, .out]) {s0 s : State} (ev : Ev Q0 s0 s) (k : Nat) : Ev Q0 s0 (State.startPlan s k) := by
  unfold State.startPlan
  repeat' first | with_reducible assumption | exact Need.sub hp0 rfl | ((try lift_lets -underBinder); intro x; first | (refine Ev.cut (P := Q0) (s0 := s0) (x := x) ?_ (fun hx => ?_); unfold x) | (refine Ev.cutP (P := Q0) (s0 := s0) (x := x) (by unfold x; exact rfl) ?_ (fun hx => ?_)) | skip) | with_reducible apply State.ev_injRec | with_reducible apply State.ev_setActive | with_reducible apply State.ev_setFaults

theorem State.ev_injectStart {Q0 : StatePart → Bool} (hp0 : Need Q0 [.host, .faults, .log, .regs, .out]) {s0 s : State} (ev : Ev Q0 s0 s) (f : InFlight) : Ev Q0 s0 (State.injectStart s f) := by
  unfold State.injectStart
  repeat' first | with_reducible assumption | exact Need.sub hp0 rfl | ((try lift_lets -underBinder); intro x; first | (refine Ev.cut (P := Q0) (s0 := s0) (x := x) ?_ (fun hx => ?_); unfold x) | (refine Ev.cutP (P := Q0) (s0 := s0) (x := x) (by unfold x; exact rfl) ?_ (fun hx => ?_)) | skip) | with_reducible apply State.ev_finish | with_reducible apply State.ev_startPlan | split

theorem State.ev_cancelPlan {Q0 : StatePart → Bool} (hp0 : Need Q0 [.host, .faults, .log, .ports, .regs, .out]) {s0 s : State} (ev : Ev Q0 s0 s) (k : Nat) : Ev Q0 s0 (State.cancelPlan s k) := by
  unfold State.cancelPlan
  repeat' first | with_reducible assumption | exact Need.sub hp0 rfl | ((try lift_lets -underBinder); intro x; first | (refine Ev.cut (P := Q0) (s0 := s0) (x := x) ?_ (fun hx => ?_); unfold x) | (refine Ev.cutP (P := Q0) (s0 := s0) (x := x) (by unfold x; exact rfl) ?_ (fun hx => ?_)) | skip) | with_reducible apply State.ev_relight | with_reducible apply State.ev_setFaults | with_reducible apply State.ev_injRec | with_reducible apply State.ev_setActive | split

theorem State.ev_injectCancel {Q0 : StatePart → Bool} (hp0 : Need Q0 [.host, .faults, .log, .ports, .regs, .out]) {s0 s : State} (ev : Ev Q0 s0 s) (f : InFlight) : Ev Q0 s0 (State.injectCancel s f) := by
  unfold State.injectCancel
  repeat' first | with_reducible assumption | exact Need.sub hp0 rfl | ((try lift_lets -underBinder); intro x; first | (refine Ev.cut (P := Q0) (s0 := s0) (x := x) ?_ (fun hx => ?_); unfold x) | (refine Ev.cutP (P := Q0) (s0 := s0) (x := x) (by unfold x; exact rfl) ?_ (fun hx => ?_)) | skip) | with_reducible apply State.ev_finish | with_reducible apply State.ev_cancelPlan | with_reducible refine Ev.foldl _ (fun st a hst => ?_) _ _ ?_ | with_reducible refine Ev.foldlP _ (fun st a hst => ?_) _ _ ?_ | split

theorem State.ev_injFire {Q0 : StatePart → Bool} (hp0 : Need Q0 [.host, .faults, .log, .ports, .regs, .out]) {s0 s : State} (ev : Ev Q0 s0 s) (k : Nat) (e : Nat) (ent : List Byte) : Ev Q0 s0 (State.injFire s k e ent) := by
  unfold State.injFire
  repeat' first | with_reducible assumption | exact Need.sub hp0 rfl | ((try lift_lets -underBinder); intro x; first | (refine Ev.cut (P := Q0) (s0 := s0) (x := x) ?_ (fun hx => ?_); unfold x) | (refine Ev.cutP (P := Q0) (s0 := s0) (x := x) (by unfold x; exact rfl) ?_ (fun hx => ?_)) | (generalize he : x = y) | skip) | with_reducible apply State.ev_setInjections | with_reducible apply State.ev_emit | with_reducible apply State.ev_modPort | with_reducible apply State.ev_hkFail | split

theorem State.ev_endPlan {Q0 : StatePart → Bool} (hp0 : Need Q0 [.host, .faults, .log, .regs, .out]) {s0 s : State} (ev : Ev Q0 s0 s) (k : Nat) (e : Nat) : Ev Q0 s0 (State.endPlan s k e) := by
  unfold State.endPlan
  repeat' first | with_reducible assumption | exact Need.sub hp0 rfl | ((try lift_lets -underBinder); intro x; first | (refine Ev.cut (P := Q0) (s0 := s0) (x := x) ?_ (fun hx => ?_); unfold x) | (refine Ev.cutP (P := Q0) (s0 := s0) (x := x) (by unfold x; exact rfl) ?_ (fun hx => ?_)) | skip) | with_reducible apply State.ev_injRec | with_reducible apply State.ev_setActive | with_reducible apply State.ev_setFaults | split

theorem State.ev_planNext {Q0 : StatePart → Bool} (hp0 : Need Q0 [.faults]) {s0 s : State} (ev : Ev Q0 s0 s) (k : Nat) : Ev Q0 s0 (State.planNext s k) := by
  unfold State.planNext
  repeat' first | with_reducible assumption | exact Need.sub hp0 rfl | ((try lift_lets -underBinder); intro x; first | (refine Ev.cut (P := Q0) (s0 := s0) (x := x) ?_ (fun hx => ?_); unfold x) | (refine Ev.cutP (P := Q0) (s0 := s0) (x := x) (by unfold x; exact rfl) ?_ (fun hx => ?_)) | skip) | with_reducible apply State.ev_setFaults

theorem State.ev_injDue {Q0 : StatePart → Bool} (hp0 : Need Q0 [.host, .faults, .log, .ports, .regs, .out]) {s0 s : State} (ev : Ev Q0 s0 s) (k : Nat) (kind : Nat) (excess : Bool) : Ev Q0 s0 (State.injDue s k kind excess) := by
  unfold State.injDue
  repeat' first | with_reducible assumption | exact Need.sub hp0 rfl | ((try lift_lets -underBinder); intro x; first | (refine Ev.cut (P := Q0) (s0 := s0) (x := x) ?_ (fun hx => ?_); unfold x) | (refine Ev.cutP (P := Q0) (s0 := s0) (x := x) (by unfold x; exact rfl) ?_ (fun hx => ?_)) | skip) | with_reducible apply State.ev_planNext | with_reducible apply State.ev_injRec | with_reducible apply State.ev_bumpSat | with_reducible apply State.ev_injFire | with_reducible apply State.ev_endPlan | split

theorem execInjectPlan_ev {Q0 : StatePart → Bool} (hp0 : Need Q0 [.host, .regs, .out]) {s0 s : State} (ev : Ev Q0 s0 s) (sq : RingNo) (data : Option (List Byte)) : ∃ t, (execInjectPlan sq data s) = .next t ∧ Ev Q0 s0 t := by
  unfold execInjectPlan
  refine ⟨_, rfl, ?_⟩
  repeat' first | with_reducible assumption | exact Need.sub hp0 rfl | ((try lift_lets -underBinder); intro x; (try dsimp -zeta -proj only); first | (refine Ev.cut (P := Q0) (s0 := s0) (x := x) ?_ (fun hx => ?_); unfold x) | (refine Ev.cutP (P := Q0) (s0 := s0) (x := x) (by unfold x; exact rfl) ?_ (fun hx => ?_)) | skip) | with_reducible apply State.ev_ringCmd | with_reducible apply State.ev_injectPlan

theorem execInjectStart_ev {Q0 : StatePart → Bool} (hp0 : Need Q0 [.host, .faults, .log, .regs, .out]) {s0 s : State} (ev : Ev Q0 s0 s) (sq : RingNo) : ∃ t, (execInjectStart sq s) = .next t ∧ Ev Q0 s0 t := by
  unfold execInjectStart
  refine ⟨_, rfl, ?_⟩
  repeat' first | with_reducible assumption | exact Need.sub hp0 rfl | ((try lift_lets -underBinder); intro x; (try dsimp -zeta -proj only); first | (refine Ev.cut (P := Q0) (s0 := s0) (x := x) ?_ (fun hx => ?_); unfold x) | (refine Ev.cutP (P := Q0) (s0 := s0) (x := x) (by unfold x; exact rfl) ?_ (fun hx => ?_)) | skip) | with_reducible apply State.ev_ringCmd | with_reducible apply State.ev_injectStart

theorem execInjectCancel_ev {Q0 : StatePart → Bool} (hp0 : Need Q0 [.host, .faults, .log, .ports, .regs, .out]) {s0 s : State} (ev : Ev Q0 s0 s) (sq : RingNo) : ∃ t, (execInjectCancel sq s) = .next t ∧ Ev Q0 s0 t := by
  unfold execInjectCancel
  refine ⟨_, rfl, ?_⟩
  repeat' first | with_reducible assumption | exact Need.sub hp0 rfl | ((try lift_lets -underBinder); intro x; (try dsimp -zeta -proj only); first | (refine Ev.cut (P := Q0) (s0 := s0) (x := x) ?_ (fun hx => ?_); unfold x) | (refine Ev.cutP (P := Q0) (s0 := s0) (x := x) (by unfold x; exact rfl) ?_ (fun hx => ?_)) | skip) | with_reducible apply State.ev_ringCmd | with_reducible apply State.ev_injectCancel

theorem execWavelengthDrop_ev {Q0 : StatePart → Bool} (hp0 : Need Q0 [.host, .faults, .log, .ports, .regs, .out]) {s0 s : State} (ev : Ev Q0 s0 s) (plan : Fin 16) : ∃ t, (execWavelengthDrop plan s) = .next t ∧ Ev Q0 s0 t := by
  unfold execWavelengthDrop
  refine ⟨_, rfl, ?_⟩
  repeat' first | with_reducible assumption | exact Need.sub hp0 rfl | with_reducible apply State.ev_injDue

theorem execWavelengthDropEnd_ev {Q0 : StatePart → Bool} (hp0 : Need Q0 [.faults, .ports, .out]) {s0 s : State} (ev : Ev Q0 s0 s) (port : Port) (chan : Chan) : ∃ t, (execWavelengthDropEnd port chan s) = .next t ∧ Ev Q0 s0 t := by
  unfold execWavelengthDropEnd
  refine ⟨_, rfl, ?_⟩
  repeat' first | with_reducible assumption | exact Need.sub hp0 rfl | ((try lift_lets -underBinder); intro x; first | (refine Ev.cut (P := Q0) (s0 := s0) (x := x) ?_ (fun hx => ?_); unfold x) | (refine Ev.cutP (P := Q0) (s0 := s0) (x := x) (by unfold x; exact rfl) ?_ (fun hx => ?_)) | skip) | with_reducible apply State.ev_relight | with_reducible apply State.ev_setInjections

theorem execCodewordCorrupt_ev {Q0 : StatePart → Bool} (hp0 : Need Q0 [.host, .faults, .log, .ports, .regs, .out]) {s0 s : State} (ev : Ev Q0 s0 s) (plan : Fin 16) (excess : Bool) : ∃ t, (execCodewordCorrupt plan excess s) = .next t ∧ Ev Q0 s0 t := by
  unfold execCodewordCorrupt
  refine ⟨_, rfl, ?_⟩
  repeat' first | with_reducible assumption | exact Need.sub hp0 rfl | with_reducible apply State.ev_injDue

theorem execHbmCe_ev {Q0 : StatePart → Bool} (hp0 : Need Q0 [.host, .faults, .log, .ports, .regs, .out]) {s0 s : State} (ev : Ev Q0 s0 s) (plan : Fin 16) : ∃ t, (execHbmCe plan s) = .next t ∧ Ev Q0 s0 t := by
  unfold execHbmCe
  refine ⟨_, rfl, ?_⟩
  repeat' first | with_reducible assumption | exact Need.sub hp0 rfl | with_reducible apply State.ev_injDue

theorem execHbmPoison_ev {Q0 : StatePart → Bool} (hp0 : Need Q0 [.host, .faults, .log, .ports, .regs, .out]) {s0 s : State} (ev : Ev Q0 s0 s) (plan : Fin 16) : ∃ t, (execHbmPoison plan s) = .next t ∧ Ev Q0 s0 t := by
  unfold execHbmPoison
  refine ⟨_, rfl, ?_⟩
  repeat' first | with_reducible assumption | exact Need.sub hp0 rfl | with_reducible apply State.ev_injDue

theorem execStationHang_ev {Q0 : StatePart → Bool} (hp0 : Need Q0 [.host, .faults, .log, .ports, .regs, .out]) {s0 s : State} (ev : Ev Q0 s0 s) (plan : Fin 16) : ∃ t, (execStationHang plan s) = .next t ∧ Ev Q0 s0 t := by
  unfold execStationHang
  refine ⟨_, rfl, ?_⟩
  repeat' first | with_reducible assumption | exact Need.sub hp0 rfl | with_reducible apply State.ev_injDue

theorem execSensor_ev {Q0 : StatePart → Bool} (hp0 : Need Q0 [.host, .faults, .log, .ports, .regs, .out]) {s0 s : State} (ev : Ev Q0 s0 s) (plan : Fin 16) : ∃ t, (execSensor plan s) = .next t ∧ Ev Q0 s0 t := by
  unfold execSensor
  refine ⟨_, rfl, ?_⟩
  repeat' first | with_reducible assumption | exact Need.sub hp0 rfl | with_reducible apply State.ev_injDue

theorem execHkStopInject_ev {Q0 : StatePart → Bool} (hp0 : Need Q0 [.host, .faults, .log, .ports, .regs, .out]) {s0 s : State} (ev : Ev Q0 s0 s) (plan : Fin 16) : ∃ t, (execHkStopInject plan s) = .next t ∧ Ev Q0 s0 t := by
  unfold execHkStopInject
  refine ⟨_, rfl, ?_⟩
  repeat' first | with_reducible assumption | exact Need.sub hp0 rfl | with_reducible apply State.ev_injDue

end Sys2Proof.Machine
end

