-- ==== Sys2Proof/Laws/EvActions.lean ====
section
/-! SUPPORT. The operations of Actions.lean keep the relation Ev. -/

namespace Sys2Proof.Machine

open Sys2Proof

set_option linter.unusedVariables false

theorem State.ev_actNext {Q0 : StatePart → Bool} (hp0 : Need Q0 [.actions]) {s0 s : State} (ev : Ev Q0 s0 s) (i : Nat) (e : List Byte) : Ev Q0 s0 (State.actNext s i e) := by
  unfold State.actNext
  repeat' first | with_reducible assumption | exact Need.sub hp0 rfl | ((try lift_lets -underBinder); intro x; first | (refine Ev.cut (P := Q0) (s0 := s0) (x := x) ?_ (fun hx => ?_); unfold x) | (refine Ev.cutP (P := Q0) (s0 := s0) (x := x) (by unfold x; exact rfl) ?_ (fun hx => ?_)) | skip) | split | with_reducible apply Ev.upd | with_reducible apply Ev.updOut | exact Or.inl (Need.has hp0 rfl) | with_reducible exact Or.inr rfl | exact Need.has hp0 rfl | with_reducible rfl

theorem State.ev_actStepStart {Q0 : StatePart → Bool} (hp0 : Need Q0 [.steps, .regs]) {s0 s : State} (ev : Ev Q0 s0 s) (slice : Nat) (t : Nat) : Ev Q0 s0 (State.actStepStart s slice t) := by
  unfold State.actStepStart
  repeat' first | with_reducible assumption | exact Need.sub hp0 rfl | ((try lift_lets -underBinder); intro x; first | (refine Ev.cut (P := Q0) (s0 := s0) (x := x) ?_ (fun hx => ?_); unfold x) | (refine Ev.cutP (P := Q0) (s0 := s0) (x := x) (by unfold x; exact rfl) ?_ (fun hx => ?_)) | skip) | with_reducible apply State.ev_modStep | with_reducible apply State.ev_bumpSat | split

theorem State.ev_actFire {Q0 : StatePart → Bool} (hp0 : Need Q0 [.host, .steps, .faults, .log, .subs, .therm, .regs, .out]) {s0 s : State} (ev : Ev Q0 s0 s) (e : List Byte) (t : Nat) : Ev Q0 s0 (State.actFire s e t) := by
  unfold State.actFire
  repeat' first | with_reducible assumption | exact Need.sub hp0 rfl | with_reducible apply State.ev_actStepStart | with_reducible apply State.ev_thermSync | with_reducible apply State.ev_startPlan | with_reducible apply State.ev_sendPauses | split

theorem State.ev_actRun {Q0 : StatePart → Bool} (hp0 : Need Q0 [.host, .steps, .faults, .log, .subs, .actions, .therm, .regs, .out]) {s0 s : State} (ev : Ev Q0 s0 s) (i : Nat) (kind : Nat) : Ev Q0 s0 (State.actRun s i kind) := by
  unfold State.actRun
  repeat' first | with_reducible assumption | exact Need.sub hp0 rfl | with_reducible apply State.ev_actNext | with_reducible apply State.ev_actFire | split

theorem State.ev_writeAction {Q0 : StatePart → Bool} (hp0 : Need Q0 [.actions]) {s0 s : State} (ev : Ev Q0 s0 s) (i : Nat) (e : List Byte) : Ev Q0 s0 (State.writeAction s i e) := by
  unfold State.writeAction
  repeat' first | with_reducible assumption | exact Need.sub hp0 rfl | split | with_reducible apply Ev.upd | with_reducible apply Ev.updOut | exact Or.inl (Need.has hp0 rfl) | with_reducible exact Or.inr rfl | exact Need.has hp0 rfl | with_reducible rfl

theorem State.ev_actionWrite {Q0 : StatePart → Bool} (hp0 : Need Q0 [.host, .actions, .regs, .out]) {s0 s : State} (ev : Ev Q0 s0 s) (f : InFlight) (data : List Byte) : Ev Q0 s0 (State.actionWrite s f data) := by
  unfold State.actionWrite
  repeat' first | with_reducible assumption | exact Need.sub hp0 rfl | ((try lift_lets -underBinder); intro x; (try dsimp -zeta -proj only); first | (refine Ev.cut (P := Q0) (s0 := s0) (x := x) ?_ (fun hx => ?_); unfold x) | (refine Ev.cutP (P := Q0) (s0 := s0) (x := x) (by unfold x; exact rfl) ?_ (fun hx => ?_)) | skip) | with_reducible apply State.ev_finish | with_reducible apply State.ev_tableWrite | with_reducible apply State.ev_writeAction | split

theorem execSwing_ev {Q0 : StatePart → Bool} (hp0 : Need Q0 [.host, .ports, .subs, .actions, .regs, .out]) {s0 s : State} (ev : Ev Q0 s0 s) (entry : Fin 256) : ∃ t, (execSwing entry s) = .next t ∧ Ev Q0 s0 t := by
  unfold execSwing
  refine ⟨_, rfl, ?_⟩
  repeat' first | with_reducible assumption | exact Need.sub hp0 rfl | ((try lift_lets -underBinder); intro x; first | (refine Ev.cut (P := Q0) (s0 := s0) (x := x) ?_ (fun hx => ?_); unfold x) | (refine Ev.cutP (P := Q0) (s0 := s0) (x := x) (by unfold x; exact rfl) ?_ (fun hx => ?_)) | skip) | with_reducible apply State.ev_swingAct | with_reducible apply State.ev_actNext | split

theorem execStepStart_ev {Q0 : StatePart → Bool} (hp0 : Need Q0 [.host, .steps, .faults, .log, .subs, .actions, .therm, .regs, .out]) {s0 s : State} (ev : Ev Q0 s0 s) (entry : Fin 256) : ∃ t, (execStepStart entry s) = .next t ∧ Ev Q0 s0 t := by
  unfold execStepStart
  refine ⟨_, rfl, ?_⟩
  repeat' first | with_reducible assumption | exact Need.sub hp0 rfl | with_reducible apply State.ev_actRun

theorem execThermalSyncAction_ev {Q0 : StatePart → Bool} (hp0 : Need Q0 [.host, .steps, .faults, .log, .subs, .actions, .therm, .regs, .out]) {s0 s : State} (ev : Ev Q0 s0 s) (entry : Fin 256) : ∃ t, (execThermalSyncAction entry s) = .next t ∧ Ev Q0 s0 t := by
  unfold execThermalSyncAction
  refine ⟨_, rfl, ?_⟩
  repeat' first | with_reducible assumption | exact Need.sub hp0 rfl | with_reducible apply State.ev_actRun

theorem execInject_ev {Q0 : StatePart → Bool} (hp0 : Need Q0 [.host, .steps, .faults, .log, .subs, .actions, .therm, .regs, .out]) {s0 s : State} (ev : Ev Q0 s0 s) (entry : Fin 256) : ∃ t, (execInject entry s) = .next t ∧ Ev Q0 s0 t := by
  unfold execInject
  refine ⟨_, rfl, ?_⟩
  repeat' first | with_reducible assumption | exact Need.sub hp0 rfl | with_reducible apply State.ev_actRun

theorem execPauseSend_ev {Q0 : StatePart → Bool} (hp0 : Need Q0 [.host, .steps, .faults, .log, .subs, .actions, .therm, .regs, .out]) {s0 s : State} (ev : Ev Q0 s0 s) (entry : Fin 256) : ∃ t, (execPauseSend entry s) = .next t ∧ Ev Q0 s0 t := by
  unfold execPauseSend
  refine ⟨_, rfl, ?_⟩
  repeat' first | with_reducible assumption | exact Need.sub hp0 rfl | with_reducible apply State.ev_actRun

theorem execActionLate_ev {Q0 : StatePart → Bool} (hp0 : Need Q0 [.host, .steps, .faults, .log, .subs, .actions, .therm, .regs, .out]) {s0 s : State} (ev : Ev Q0 s0 s) (entry : Fin 256) : ∃ t, (execActionLate entry s) = .next t ∧ Ev Q0 s0 t := by
  unfold execActionLate
  refine ⟨_, rfl, ?_⟩
  repeat' first | with_reducible assumption | exact Need.sub hp0 rfl | ((try lift_lets -underBinder); intro x; first | (refine Ev.cut (P := Q0) (s0 := s0) (x := x) ?_ (fun hx => ?_); unfold x) | (refine Ev.cutP (P := Q0) (s0 := s0) (x := x) (by unfold x; exact rfl) ?_ (fun hx => ?_)) | skip) | with_reducible apply State.ev_bumpSat | with_reducible apply State.ev_actNext | with_reducible apply State.ev_timeRec | with_reducible apply State.ev_actFire | split

theorem execActionSkipped_ev {Q0 : StatePart → Bool} (hp0 : Need Q0 [.actions, .regs]) {s0 s : State} (ev : Ev Q0 s0 s) (entry : Fin 256) : ∃ t, (execActionSkipped entry s) = .next t ∧ Ev Q0 s0 t := by
  unfold execActionSkipped
  refine ⟨_, rfl, ?_⟩
  repeat' first | with_reducible assumption | exact Need.sub hp0 rfl | ((try lift_lets -underBinder); intro x; first | (refine Ev.cut (P := Q0) (s0 := s0) (x := x) ?_ (fun hx => ?_); unfold x) | (refine Ev.cutP (P := Q0) (s0 := s0) (x := x) (by unfold x; exact rfl) ?_ (fun hx => ?_)) | skip) | with_reducible apply State.ev_bumpSat | with_reducible apply State.ev_actNext | split

theorem execActionWrite_ev {Q0 : StatePart → Bool} (hp0 : Need Q0 [.host, .actions, .regs, .out]) {s0 s : State} (ev : Ev Q0 s0 s) (sq : RingNo) (data : List Byte) : ∃ t, (execActionWrite sq data s) = .next t ∧ Ev Q0 s0 t := by
  unfold execActionWrite
  refine ⟨_, rfl, ?_⟩
  repeat' first | with_reducible assumption | exact Need.sub hp0 rfl | ((try lift_lets -underBinder); intro x; (try dsimp -zeta -proj only); first | (refine Ev.cut (P := Q0) (s0 := s0) (x := x) ?_ (fun hx => ?_); unfold x) | (refine Ev.cutP (P := Q0) (s0 := s0) (x := x) (by unfold x; exact rfl) ?_ (fun hx => ?_)) | skip) | with_reducible apply State.ev_ringCmd | with_reducible apply State.ev_actionWrite

end Sys2Proof.Machine
end

