-- ==== Sys2Proof/Laws/EvAttend.lean ====
section
/-! SUPPORT. The operations of Attend.lean keep the relation Ev. -/

namespace Sys2Proof.Machine

open Sys2Proof

set_option linter.unusedVariables false

theorem State.ev_setStagedLen {Q0 : StatePart → Bool} (hp0 : Need Q0 [.mm, .mem]) {s0 s : State} (ev : Ev Q0 s0 s) (x1 : OpCtx) (n : Nat) : Ev Q0 s0 (State.setStagedLen s x1 n) := by
  unfold State.setStagedLen
  repeat' first | with_reducible assumption | exact Need.sub hp0 rfl | with_reducible apply State.ev_putCtx

theorem State.ev_kvExclude {Q0 : StatePart → Bool} (hp0 : Need Q0 [.steps, .regs]) {s0 s : State} (ev : Ev Q0 s0 s) (x1 : OpCtx) (cause : Nat) : Ev Q0 s0 (State.kvExclude s x1 cause) := by
  unfold State.kvExclude
  repeat' first | with_reducible assumption | exact Need.sub hp0 rfl | ((try lift_lets -underBinder); intro x; first | (refine Ev.cut (P := Q0) (s0 := s0) (x := x) ?_ (fun hx => ?_); unfold x) | (refine Ev.cutP (P := Q0) (s0 := s0) (x := x) (by unfold x; exact rfl) ?_ (fun hx => ?_)) | skip) | with_reducible apply State.ev_excludeStream | with_reducible apply State.ev_bumpSat | split

theorem State.ev_kvAppend {Q0 : StatePart → Bool} (hp0 : Need Q0 [.host, .mm, .faults, .log, .rmt, .regs, .out, .freeCtr, .mem]) {s0 s : State} (ev : Ev Q0 s0 s) (x1 : OpCtx) (k : KvLay) (pages : Array Nat) (h : Nat) (n : Nat) (kvTile : Tile) : Ev Q0 s0 (State.kvAppend s x1 k pages h n kvTile) := by
  unfold State.kvAppend
  repeat' first | with_reducible assumption | exact Need.sub hp0 rfl | ((try lift_lets -underBinder); intro x; first | (refine Ev.cut (P := Q0) (s0 := s0) (x := x) ?_ (fun hx => ?_); unfold x) | (refine Ev.cutP (P := Q0) (s0 := s0) (x := x) (by unfold x; exact rfl) ?_ (fun hx => ?_)) | skip) | with_reducible apply State.ev_st | with_reducible apply State.ev_access | with_reducible apply State.ev_drew | with_reducible apply State.ev_setStagedLen | with_reducible refine Ev.foldl _ (fun st a hst => ?_) _ _ ?_ | with_reducible refine Ev.foldlP _ (fun st a hst => ?_) _ _ ?_

theorem State.ev_attendOut {Q0 : StatePart → Bool} (hp0 : Need Q0 [.steps, .mm, .traceLost, .regs, .mem]) {s0 s : State} (ev : Ev Q0 s0 s) (x1 : OpCtx) (h : Nat) (q : Tile) (vals : List (List Val)) (poison : Bool) : Ev Q0 s0 (State.attendOut s x1 h q vals poison) := by
  unfold State.attendOut
  repeat' first | with_reducible assumption | exact Need.sub hp0 rfl | ((try lift_lets -underBinder); intro x; first | (refine Ev.cut (P := Q0) (s0 := s0) (x := x) ?_ (fun hx => ?_); unfold x) | (refine Ev.cutP (P := Q0) (s0 := s0) (x := x) (by unfold x; exact rfl) ?_ (fun hx => ?_)) | skip) | with_reducible apply State.ev_stage | with_reducible apply State.ev_endRead | with_reducible apply State.ev_progress | with_reducible apply State.ev_modInst | with_reducible apply State.ev_unstall | with_reducible apply State.ev_endRepeat | split

theorem State.ev_attendRead {Q0 : StatePart → Bool} (hp0 : Need Q0 [.host, .steps, .mm, .faults, .log, .streams, .router, .rmt, .col, .cores, .ports, .sec, .regs, .out, .freeCtr, .mem]) {s0 s : State} (ev : Ev Q0 s0 s) (x1 : OpCtx) (k : KvLay) (pages : Array Nat) (h : Nat) (n : Nat) (kv : Tile) (hits : List EccHit) : Ev Q0 s0 (State.attendRead s x1 k pages h n kv hits) := by
  unfold State.attendRead
  repeat' first | with_reducible assumption | exact Need.sub hp0 rfl | ((try lift_lets -underBinder); intro x; first | (refine Ev.cut (P := Q0) (s0 := s0) (x := x) ?_ (fun hx => ?_); unfold x) | (refine Ev.cutP (P := Q0) (s0 := s0) (x := x) (by unfold x; exact rfl) ?_ (fun hx => ?_)) | skip) | with_reducible apply State.ev_ecc | with_reducible apply State.ev_poisonExcl | with_reducible apply State.ev_kvAppend | with_reducible apply State.ev_access | with_reducible refine Ev.foldl _ (fun st a hst => ?_) _ _ ?_ | with_reducible refine Ev.foldlP _ (fun st a hst => ?_) _ _ ?_

theorem State.ev_attendHead {Q0 : StatePart → Bool} (hp0 : Need Q0 [.host, .steps, .mm, .faults, .log, .streams, .router, .traceLost, .rmt, .col, .cores, .ports, .sec, .regs, .out, .freeCtr, .mem]) {s0 s : State} (ev : Ev Q0 s0 s) (x1 : OpCtx) (hits : List EccHit) : Ev Q0 s0 (State.attendHead s x1 hits) := by
  unfold State.attendHead
  repeat' first | with_reducible assumption | exact Need.sub hp0 rfl | ((try lift_lets -underBinder); intro x; first | (refine Ev.cut (P := Q0) (s0 := s0) (x := x) ?_ (fun hx => ?_); unfold x) | (refine Ev.cutP (P := Q0) (s0 := s0) (x := x) (by unfold x; exact rfl) ?_ (fun hx => ?_)) | (generalize he : x = y) | skip) | with_reducible apply State.ev_stallOn | with_reducible apply State.ev_opFault | with_reducible apply State.ev_attendOut | with_reducible apply State.ev_kvExclude | with_reducible apply State.ev_attendRead | with_reducible apply State.ev_drew | split

theorem State.ev_compactRow {Q0 : StatePart → Bool} (hp0 : Need Q0 [.host, .mm, .faults, .log, .rmt, .regs, .out, .freeCtr, .mem]) {s0 s : State} (ev : Ev Q0 s0 s) (k : KvLay) (p : List Nat) (l : Nat) (hk : Nat) (m : Nat × Nat) : Ev Q0 s0 (State.compactRow s k p l hk m) := by
  unfold State.compactRow
  repeat' first | with_reducible assumption | exact Need.sub hp0 rfl | ((try lift_lets -underBinder); intro x; first | (refine Ev.cut (P := Q0) (s0 := s0) (x := x) ?_ (fun hx => ?_); unfold x) | (refine Ev.cutP (P := Q0) (s0 := s0) (x := x) (by unfold x; exact rfl) ?_ (fun hx => ?_)) | skip) | with_reducible apply State.ev_drew | with_reducible apply State.ev_st | with_reducible apply State.ev_access

theorem State.ev_compactDone {Q0 : StatePart → Bool} (hp0 : Need Q0 [.steps, .mm, .traceLost, .regs, .mem]) {s0 s : State} (ev : Ev Q0 s0 s) (x1 : OpCtx) (t : Tile) : Ev Q0 s0 (State.compactDone s x1 t) := by
  unfold State.compactDone
  repeat' first | with_reducible assumption | exact Need.sub hp0 rfl | with_reducible apply State.ev_endRepeat | with_reducible apply State.ev_endInA | with_reducible apply State.ev_poisonExcl

theorem State.ev_compact {Q0 : StatePart → Bool} (hp0 : Need Q0 [.host, .steps, .mm, .faults, .log, .router, .traceLost, .rmt, .regs, .out, .freeCtr, .mem]) {s0 s : State} (ev : Ev Q0 s0 s) (x1 : OpCtx) : Ev Q0 s0 (State.compact s x1) := by
  unfold State.compact
  repeat' first | with_reducible assumption | exact Need.sub hp0 rfl | ((try lift_lets -underBinder); intro x; first | (refine Ev.cut (P := Q0) (s0 := s0) (x := x) ?_ (fun hx => ?_); unfold x) | (refine Ev.cutP (P := Q0) (s0 := s0) (x := x) (by unfold x; exact rfl) ?_ (fun hx => ?_)) | skip) | with_reducible apply State.ev_stallOn | with_reducible apply State.ev_opFault | with_reducible apply State.ev_compactDone | with_reducible apply State.ev_kvExclude | with_reducible apply State.ev_compactRow | with_reducible refine Ev.foldl _ (fun st a hst => ?_) _ _ ?_ | with_reducible refine Ev.foldlP _ (fun st a hst => ?_) _ _ ?_ | split

theorem execAttend_ev {Q0 : StatePart → Bool} (hp0 : Need Q0 [.host, .steps, .mm, .faults, .log, .streams, .router, .traceLost, .rmt, .col, .cores, .ports, .sec, .regs, .out, .freeCtr, .mem]) {s0 s : State} (ev : Ev Q0 s0 s) (slot : StepIx) (core : LCore) (hits : List EccHit) : ∃ t, (execAttend slot core hits s) = .next t ∧ Ev Q0 s0 t := by
  unfold execAttend
  refine ⟨_, rfl, ?_⟩
  repeat' first | with_reducible assumption | exact Need.sub hp0 rfl | ((try lift_lets -underBinder); intro x; (try dsimp -zeta -proj only); first | (refine Ev.cut (P := Q0) (s0 := s0) (x := x) ?_ (fun hx => ?_); unfold x) | (refine Ev.cutP (P := Q0) (s0 := s0) (x := x) (by unfold x; exact rfl) ?_ (fun hx => ?_)) | skip) | with_reducible apply State.ev_runOp | with_reducible apply State.ev_attendHead

theorem execCompact_ev {Q0 : StatePart → Bool} (hp0 : Need Q0 [.host, .steps, .mm, .faults, .log, .router, .traceLost, .rmt, .regs, .out, .freeCtr, .mem]) {s0 s : State} (ev : Ev Q0 s0 s) (slot : StepIx) (core : LCore) : ∃ t, (execCompact slot core s) = .next t ∧ Ev Q0 s0 t := by
  unfold execCompact
  refine ⟨_, rfl, ?_⟩
  repeat' first | with_reducible assumption | exact Need.sub hp0 rfl | ((try lift_lets -underBinder); intro x; (try dsimp -zeta -proj only); first | (refine Ev.cut (P := Q0) (s0 := s0) (x := x) ?_ (fun hx => ?_); unfold x) | (refine Ev.cutP (P := Q0) (s0 := s0) (x := x) (by unfold x; exact rfl) ?_ (fun hx => ?_)) | skip) | with_reducible apply State.ev_runOp | with_reducible apply State.ev_compact

end Sys2Proof.Machine
end

