-- ==== Sys2Proof/Laws/EvLoadStore.lean ====
section
/-! SUPPORT. The operations of LoadStore.lean keep the relation Ev. -/

namespace Sys2Proof.Machine

open Sys2Proof

set_option linter.unusedVariables false

theorem State.ev_loadOp {Q0 : StatePart → Bool} (hp0 : Need Q0 [.host, .steps, .mm, .faults, .log, .streams, .router, .traceLost, .rmt, .col, .cores, .ports, .sec, .regs, .out, .freeCtr, .mem]) {s0 s : State} (ev : Ev Q0 s0 s) (x1 : OpCtx) (hits : List EccHit) : Ev Q0 s0 (State.loadOp s x1 hits) := by
  unfold State.loadOp
  repeat' first | with_reducible assumption | exact Need.sub hp0 rfl | ((try lift_lets -underBinder); intro x; first | (refine Ev.cut (P := Q0) (s0 := s0) (x := x) ?_ (fun hx => ?_); unfold x) | (refine Ev.cutP (P := Q0) (s0 := s0) (x := x) (by unfold x; exact rfl) ?_ (fun hx => ?_)) | skip) | with_reducible apply State.ev_opFault | with_reducible apply State.ev_ecc | with_reducible apply State.ev_access | with_reducible apply State.ev_endRepeat | with_reducible apply State.ev_stage | with_reducible apply State.ev_drew | with_reducible refine Ev.foldl _ (fun st a hst => ?_) _ _ ?_ | with_reducible refine Ev.foldlP _ (fun st a hst => ?_) _ _ ?_ | split

theorem State.ev_storeOp {Q0 : StatePart → Bool} (hp0 : Need Q0 [.host, .steps, .mm, .faults, .log, .streams, .router, .traceLost, .rmt, .col, .cores, .ports, .sec, .regs, .out, .freeCtr, .mem]) {s0 s : State} (ev : Ev Q0 s0 s) (x1 : OpCtx) (hits : List EccHit) : Ev Q0 s0 (State.storeOp s x1 hits) := by
  unfold State.storeOp
  repeat' first | with_reducible assumption | exact Need.sub hp0 rfl | ((try lift_lets -underBinder); intro x; first | (refine Ev.cut (P := Q0) (s0 := s0) (x := x) ?_ (fun hx => ?_); unfold x) | (refine Ev.cutP (P := Q0) (s0 := s0) (x := x) (by unfold x; exact rfl) ?_ (fun hx => ?_)) | skip) | with_reducible apply State.ev_stallOn | with_reducible apply State.ev_opFault | with_reducible apply State.ev_st | with_reducible apply State.ev_ecc | with_reducible apply State.ev_access | with_reducible apply State.ev_endRepeat | with_reducible apply State.ev_endInA | with_reducible apply State.ev_stage | with_reducible refine Ev.foldl _ (fun st a hst => ?_) _ _ ?_ | with_reducible refine Ev.foldlP _ (fun st a hst => ?_) _ _ ?_ | split

theorem State.ev_kvDone {Q0 : StatePart → Bool} (hp0 : Need Q0 [.steps, .mm, .traceLost, .regs, .mem]) {s0 s : State} (ev : Ev Q0 s0 s) (x1 : OpCtx) (h : Nat) (kv : Tile) : Ev Q0 s0 (State.kvDone s x1 h kv) := by
  unfold State.kvDone
  repeat' first | with_reducible assumption | exact Need.sub hp0 rfl | ((try lift_lets -underBinder); intro x; first | (refine Ev.cut (P := Q0) (s0 := s0) (x := x) ?_ (fun hx => ?_); unfold x) | (refine Ev.cutP (P := Q0) (s0 := s0) (x := x) (by unfold x; exact rfl) ?_ (fun hx => ?_)) | skip) | with_reducible apply State.ev_poisonExcl | with_reducible apply State.ev_endRead | with_reducible apply State.ev_progress | with_reducible apply State.ev_modInst | with_reducible apply State.ev_unstall | with_reducible apply State.ev_endRepeat | with_reducible apply State.ev_stage | split

theorem State.ev_kvAppendOp {Q0 : StatePart → Bool} (hp0 : Need Q0 [.host, .steps, .mm, .faults, .log, .router, .traceLost, .rmt, .regs, .out, .freeCtr, .mem]) {s0 s : State} (ev : Ev Q0 s0 s) (x1 : OpCtx) : Ev Q0 s0 (State.kvAppendOp s x1) := by
  unfold State.kvAppendOp
  repeat' first | with_reducible assumption | exact Need.sub hp0 rfl | ((try lift_lets -underBinder); intro x; first | (refine Ev.cut (P := Q0) (s0 := s0) (x := x) ?_ (fun hx => ?_); unfold x) | (refine Ev.cutP (P := Q0) (s0 := s0) (x := x) (by unfold x; exact rfl) ?_ (fun hx => ?_)) | skip) | with_reducible apply State.ev_stallOn | with_reducible apply State.ev_opFault | with_reducible apply State.ev_kvDone | with_reducible apply State.ev_kvExclude | with_reducible apply State.ev_kvAppend | split

theorem execLoad_ev {Q0 : StatePart → Bool} (hp0 : Need Q0 [.host, .steps, .mm, .faults, .log, .streams, .router, .traceLost, .rmt, .col, .cores, .ports, .sec, .regs, .out, .freeCtr, .mem]) {s0 s : State} (ev : Ev Q0 s0 s) (slot : StepIx) (core : LCore) (ix : Fin 4) (hits : List EccHit) : ∃ t, (execLoad slot core ix hits s) = .next t ∧ Ev Q0 s0 t := by
  unfold execLoad
  refine ⟨_, rfl, ?_⟩
  repeat' first | with_reducible assumption | exact Need.sub hp0 rfl | ((try lift_lets -underBinder); intro x; (try dsimp -zeta -proj only); first | (refine Ev.cut (P := Q0) (s0 := s0) (x := x) ?_ (fun hx => ?_); unfold x) | (refine Ev.cutP (P := Q0) (s0 := s0) (x := x) (by unfold x; exact rfl) ?_ (fun hx => ?_)) | skip) | with_reducible apply State.ev_runOp | with_reducible apply State.ev_loadOp

theorem execStore_ev {Q0 : StatePart → Bool} (hp0 : Need Q0 [.host, .steps, .mm, .faults, .log, .streams, .router, .traceLost, .rmt, .col, .cores, .ports, .sec, .regs, .out, .freeCtr, .mem]) {s0 s : State} (ev : Ev Q0 s0 s) (slot : StepIx) (core : LCore) (ix : Fin 2) (hits : List EccHit) : ∃ t, (execStore slot core ix hits s) = .next t ∧ Ev Q0 s0 t := by
  unfold execStore
  refine ⟨_, rfl, ?_⟩
  repeat' first | with_reducible assumption | exact Need.sub hp0 rfl | ((try lift_lets -underBinder); intro x; (try dsimp -zeta -proj only); first | (refine Ev.cut (P := Q0) (s0 := s0) (x := x) ?_ (fun hx => ?_); unfold x) | (refine Ev.cutP (P := Q0) (s0 := s0) (x := x) (by unfold x; exact rfl) ?_ (fun hx => ?_)) | skip) | with_reducible apply State.ev_runOp | with_reducible apply State.ev_storeOp

theorem execKvAppend_ev {Q0 : StatePart → Bool} (hp0 : Need Q0 [.host, .steps, .mm, .faults, .log, .router, .traceLost, .rmt, .regs, .out, .freeCtr, .mem]) {s0 s : State} (ev : Ev Q0 s0 s) (slot : StepIx) (core : LCore) (ix : Fin 2) : ∃ t, (execKvAppend slot core ix s) = .next t ∧ Ev Q0 s0 t := by
  unfold execKvAppend
  refine ⟨_, rfl, ?_⟩
  repeat' first | with_reducible assumption | exact Need.sub hp0 rfl | ((try lift_lets -underBinder); intro x; (try dsimp -zeta -proj only); first | (refine Ev.cut (P := Q0) (s0 := s0) (x := x) ?_ (fun hx => ?_); unfold x) | (refine Ev.cutP (P := Q0) (s0 := s0) (x := x) (by unfold x; exact rfl) ?_ (fun hx => ?_)) | skip) | with_reducible apply State.ev_runOp | with_reducible apply State.ev_kvAppendOp

end Sys2Proof.Machine
end

