-- ==== Sys2Proof/Laws/EvTarget.lean ====
section
/-! SUPPORT. The operations of Target.lean keep the relation Ev. -/

namespace Sys2Proof.Machine

open Sys2Proof

set_option linter.unusedVariables false

theorem State.ev_setArrival {Q0 : StatePart → Bool} (hp0 : Need Q0 [.regs]) {s0 s : State} (ev : Ev Q0 s0 s) (c : Nat) (n : Nat) : Ev Q0 s0 (State.setArrival s c n) := by
  unfold State.setArrival
  repeat' first | with_reducible assumption | exact Need.sub hp0 rfl | with_reducible apply State.ev_setF

theorem State.ev_rmtWrite {Q0 : StatePart → Bool} (hp0 : Need Q0 [.host, .mm, .faults, .log, .rmt, .regs, .out, .mem]) {s0 s : State} (ev : Ev Q0 s0 s) (h : ReqHdr) (data : List Byte) (cells : Nat) : Ev Q0 s0 (State.rmtWrite s h data cells) := by
  unfold State.rmtWrite
  repeat' first | with_reducible assumption | exact Need.sub hp0 rfl | ((try lift_lets -underBinder); intro x; first | (refine Ev.cut (P := Q0) (s0 := s0) (x := x) ?_ (fun hx => ?_); unfold x) | (refine Ev.cutP (P := Q0) (s0 := s0) (x := x) (by unfold x; exact rfl) ?_ (fun hx => ?_)) | skip) | with_reducible apply State.ev_st | with_reducible apply State.ev_access | with_reducible apply State.ev_setArrival | split

theorem State.ev_combLine {Q0 : StatePart → Bool} (hp0 : Need Q0 [.mm, .rmt, .regs]) {s0 s : State} (ev : Ev Q0 s0 s) (span : Nat) (line : Nat) : Ev Q0 s0 (State.combLine s span line) := by
  unfold State.combLine
  repeat' first | with_reducible assumption | exact Need.sub hp0 rfl | ((try lift_lets -underBinder); intro x; first | (refine Ev.cut (P := Q0) (s0 := s0) (x := x) ?_ (fun hx => ?_); unfold x) | (refine Ev.cutP (P := Q0) (s0 := s0) (x := x) (by unfold x; exact rfl) ?_ (fun hx => ?_)) | (generalize he : x = y) | skip) | with_reducible apply State.ev_touchComb | with_reducible apply State.ev_lineAccess | split | with_reducible apply Ev.upd | with_reducible apply Ev.updOut | exact Or.inl (Need.has hp0 rfl) | with_reducible exact Or.inr rfl | exact Need.has hp0 rfl | with_reducible rfl

theorem State.ev_rmtAtomic {Q0 : StatePart → Bool} (hp0 : Need Q0 [.host, .mm, .faults, .log, .rmt, .regs, .out, .freeCtr, .mem]) {s0 s : State} (ev : Ev Q0 s0 s) (a : Nat) (op : Nat) (w64 : Bool) (x4 : Nat) (cmp : Nat) : Ev Q0 s0 (State.rmtAtomic s a op w64 x4 cmp).1 := by
  unfold State.rmtAtomic
  repeat' first | with_reducible assumption | exact Need.sub hp0 rfl | ((try lift_lets -underBinder); intro x; first | (refine Ev.cut (P := Q0) (s0 := s0) (x := x) ?_ (fun hx => ?_); unfold x) | (refine Ev.cutP (P := Q0) (s0 := s0) (x := x) (by unfold x; exact rfl) ?_ (fun hx => ?_)) | skip) | with_reducible apply State.ev_combLine | with_reducible apply State.ev_access | with_reducible apply State.ev_drew | with_reducible apply State.ev_st | split

theorem State.ev_rmtAtomic_eq {Q0 : StatePart → Bool} (hp0 : Need Q0 [.host, .mm, .faults, .log, .rmt, .regs, .out, .freeCtr, .mem]) {s0 s : State} (ev : Ev Q0 s0 s) (a : Nat) (op : Nat) (w64 : Bool) (x4 : Nat) (cmp : Nat) {sT : State} {r : Nat × Bool} (e : (State.rmtAtomic s a op w64 x4 cmp) = (sT, r)) : Ev Q0 s0 sT := by
  have h := State.ev_rmtAtomic hp0 ev a op w64 x4 cmp
  rw [e] at h
  exact h

theorem State.ev_takeFrame {Q0 : StatePart → Bool} (hp0 : Need Q0 [.router]) {s0 s : State} (ev : Ev Q0 s0 s) (typ : Nat) (src : Nat) {r : Frame} {sT : State} (e : (State.takeFrame s typ src) = some (r, sT)) : Ev Q0 s0 sT := by
  unfold State.takeFrame at e
  (try dsimp only at e)
  repeat' split at e
  all_goals cases e
  all_goals repeat' first | with_reducible assumption | exact Need.sub hp0 rfl | with_reducible apply State.ev_setRouter

theorem State.ev_respond {Q0 : StatePart → Bool} (hp0 : Need Q0 [.router]) {s0 s : State} (ev : Ev Q0 s0 s) (dst : Nat) (typ : Nat) (body : List Byte) : Ev Q0 s0 (State.respond s dst typ body) := by
  unfold State.respond
  repeat' first | with_reducible assumption | exact Need.sub hp0 rfl | with_reducible apply State.ev_sendFrame

theorem State.ev_respondError {Q0 : StatePart → Bool} (hp0 : Need Q0 [.router, .regs]) {s0 s : State} (ev : Ev Q0 s0 s) (f : Frame) (h : ReqHdr) (code : Nat) (bytes : Nat) (addr : Nat) : Ev Q0 s0 (State.respondError s f h code bytes addr) := by
  unfold State.respondError
  repeat' first | with_reducible assumption | exact Need.sub hp0 rfl | with_reducible apply State.ev_respond | with_reducible apply State.ev_bumpSat

theorem State.ev_rmtServe {Q0 : StatePart → Bool} (hp0 : Need Q0 [.router, .regs]) {s0 s : State} (ev : Ev Q0 s0 s) (typ : Nat) (src : Nat) (copy : Bool) (n : ReqHdr → Nat) (bad : Frame → ReqHdr → Bool) (perform : State → Nat → Frame → ReqHdr → State) (hperform : ∀ x0 x1 x2 x3, Ev Q0 s0 x0 → Ev Q0 s0 (perform x0 x1 x2 x3)) : Ev Q0 s0 (State.rmtServe s typ src copy n bad perform) := by
  unfold State.rmtServe
  repeat' first | with_reducible assumption | exact Need.sub hp0 rfl | ((try lift_lets -underBinder); intro x; first | (refine Ev.cut (P := Q0) (s0 := s0) (x := x) ?_ (fun hx => ?_); unfold x) | (refine Ev.cutP (P := Q0) (s0 := s0) (x := x) (by unfold x; exact rfl) ?_ (fun hx => ?_)) | skip) | with_reducible apply State.ev_bumpSat | with_reducible apply State.ev_respondError | refine State.ev_takeFrame (Need.sub hp0 rfl) ?_ _ _ (he.trans (by with_reducible assumption)) | with_reducible refine State.ev_takeFrame (Need.sub hp0 rfl) ?_ _ _ (by with_reducible assumption) | with_reducible apply hperform | split

theorem State.ev_ackCopy {Q0 : StatePart → Bool} (hp0 : Need Q0 [.router]) {s0 s : State} (ev : Ev Q0 s0 s) (dst : Nat) (id : Nat) (bytes : Nat) : Ev Q0 s0 (State.ackCopy s dst id bytes) := by
  unfold State.ackCopy
  repeat' first | with_reducible assumption | exact Need.sub hp0 rfl | with_reducible apply State.ev_respond

theorem State.ev_flushComb {Q0 : StatePart → Bool} (hp0 : Need Q0 [.mm, .rmt, .regs]) {s0 s : State} (ev : Ev Q0 s0 s) (c : CombLine) : Ev Q0 s0 (State.flushComb s c) := by
  unfold State.flushComb
  repeat' first | with_reducible assumption | exact Need.sub hp0 rfl | ((try lift_lets -underBinder); intro x; first | (refine Ev.cut (P := Q0) (s0 := s0) (x := x) ?_ (fun hx => ?_); unfold x) | (refine Ev.cutP (P := Q0) (s0 := s0) (x := x) (by unfold x; exact rfl) ?_ (fun hx => ?_)) | skip) | with_reducible apply State.ev_lineAccess | split | with_reducible apply Ev.upd | with_reducible apply Ev.updOut | exact Or.inl (Need.has hp0 rfl) | with_reducible exact Or.inr rfl | exact Need.has hp0 rfl | with_reducible rfl

theorem execRdReqReceive_ev {Q0 : StatePart → Bool} (hp0 : Need Q0 [.host, .steps, .mm, .faults, .log, .streams, .router, .rmt, .col, .cores, .ports, .sec, .regs, .out, .freeCtr, .mem]) {s0 s : State} (ev : Ev Q0 s0 s) (src : Endpoint) (hits : List EccHit) : ∃ t, (execRdReqReceive src hits s) = .next t ∧ Ev Q0 s0 t := by
  unfold execRdReqReceive
  refine ⟨_, rfl, ?_⟩
  repeat' first | with_reducible assumption | exact Need.sub hp0 rfl | ((try lift_lets -underBinder); intro x; (try dsimp -zeta -proj only); first | (refine Ev.cut (P := Q0) (s0 := s0) (x := x) ?_ (fun hx => ?_); unfold x) | (refine Ev.cutP (P := Q0) (s0 := s0) (x := x) (by unfold x; exact rfl) ?_ (fun hx => ?_)) | skip) | with_reducible apply State.ev_rmtServe | with_reducible apply State.ev_ecc | with_reducible apply State.ev_access | with_reducible apply State.ev_respond | with_reducible apply State.ev_drew

theorem execWrReceive_ev {Q0 : StatePart → Bool} (hp0 : Need Q0 [.host, .mm, .faults, .log, .router, .rmt, .regs, .out, .mem]) {s0 s : State} (ev : Ev Q0 s0 s) (src : Endpoint) : ∃ t, (execWrReceive src s) = .next t ∧ Ev Q0 s0 t := by
  unfold execWrReceive
  refine ⟨_, rfl, ?_⟩
  repeat' first | with_reducible assumption | exact Need.sub hp0 rfl | ((try lift_lets -underBinder); intro x; (try dsimp -zeta -proj only); first | (refine Ev.cut (P := Q0) (s0 := s0) (x := x) ?_ (fun hx => ?_); unfold x) | (refine Ev.cutP (P := Q0) (s0 := s0) (x := x) (by unfold x; exact rfl) ?_ (fun hx => ?_)) | skip) | with_reducible apply State.ev_rmtServe | with_reducible apply State.ev_rmtWrite | with_reducible apply State.ev_respond | split

theorem execAtomicReceive_ev {Q0 : StatePart → Bool} (hp0 : Need Q0 [.host, .mm, .faults, .log, .router, .rmt, .regs, .out, .freeCtr, .mem]) {s0 s : State} (ev : Ev Q0 s0 s) (src : Endpoint) : ∃ t, (execAtomicReceive src s) = .next t ∧ Ev Q0 s0 t := by
  unfold execAtomicReceive
  refine ⟨_, rfl, ?_⟩
  repeat' first | with_reducible assumption | exact Need.sub hp0 rfl | ((try lift_lets -underBinder); intro x; (try dsimp -zeta -proj only); first | (refine Ev.cut (P := Q0) (s0 := s0) (x := x) ?_ (fun hx => ?_); unfold x) | (refine Ev.cutP (P := Q0) (s0 := s0) (x := x) (by unfold x; exact rfl) ?_ (fun hx => ?_)) | skip) | with_reducible apply State.ev_rmtServe | with_reducible apply State.ev_rmtAtomic | with_reducible apply State.ev_respond | with_reducible refine State.ev_rmtAtomic_eq (Need.sub hp0 rfl) ?_ _ _ _ _ _ (by with_reducible assumption)

theorem execCopyReceive_ev {Q0 : StatePart → Bool} (hp0 : Need Q0 [.host, .mm, .faults, .log, .router, .rmt, .regs, .out, .mem]) {s0 s : State} (ev : Ev Q0 s0 s) (src : Endpoint) : ∃ t, (execCopyReceive src s) = .next t ∧ Ev Q0 s0 t := by
  unfold execCopyReceive
  refine ⟨_, rfl, ?_⟩
  repeat' first | with_reducible assumption | exact Need.sub hp0 rfl | ((try lift_lets -underBinder); intro x; (try dsimp -zeta -proj only); first | (refine Ev.cut (P := Q0) (s0 := s0) (x := x) ?_ (fun hx => ?_); unfold x) | (refine Ev.cutP (P := Q0) (s0 := s0) (x := x) (by unfold x; exact rfl) ?_ (fun hx => ?_)) | skip) | with_reducible apply State.ev_rmtServe | with_reducible apply State.ev_rmtWrite | with_reducible apply State.ev_ackCopy | split | with_reducible apply Ev.upd | with_reducible apply Ev.updOut | exact Or.inl (Need.has hp0 rfl) | with_reducible exact Or.inr rfl | exact Need.has hp0 rfl | with_reducible rfl

theorem execCopyAckFlush_ev {Q0 : StatePart → Bool} (hp0 : Need Q0 [.router, .rmt]) {s0 s : State} (ev : Ev Q0 s0 s) (src : Endpoint) (reqId : Half) : ∃ t, (execCopyAckFlush src reqId s) = .next t ∧ Ev Q0 s0 t := by
  unfold execCopyAckFlush
  refine ⟨_, rfl, ?_⟩
  repeat' first | with_reducible assumption | exact Need.sub hp0 rfl | ((try lift_lets -underBinder); intro x; first | (refine Ev.cut (P := Q0) (s0 := s0) (x := x) ?_ (fun hx => ?_); unfold x) | (refine Ev.cutP (P := Q0) (s0 := s0) (x := x) (by unfold x; exact rfl) ?_ (fun hx => ?_)) | skip) | with_reducible apply State.ev_ackCopy | split | with_reducible apply Ev.upd | with_reducible apply Ev.updOut | exact Or.inl (Need.has hp0 rfl) | with_reducible exact Or.inr rfl | exact Need.has hp0 rfl | with_reducible rfl

theorem execCombineLineIdle_ev {Q0 : StatePart → Bool} (hp0 : Need Q0 [.mm, .rmt, .regs]) {s0 s : State} (ev : Ev Q0 s0 s) (span : SpanIx) : ∃ t, (execCombineLineIdle span s) = .next t ∧ Ev Q0 s0 t := by
  unfold execCombineLineIdle
  refine ⟨_, rfl, ?_⟩
  repeat' first | with_reducible assumption | exact Need.sub hp0 rfl | with_reducible apply State.ev_flushComb | split

theorem execSpanResetEnter_ev {Q0 : StatePart → Bool} (hp0 : Need Q0 [.steps, .mm, .faults, .trs, .cbk, .traceLost, .rmt, .cores, .regs, .freeCtr, .mem]) {s0 s : State} (ev : Ev Q0 s0 s) (span : SpanIx) : ∃ t, (execSpanResetEnter span s) = .next t ∧ Ev Q0 s0 t := by
  unfold execSpanResetEnter
  refine ⟨_, rfl, ?_⟩
  repeat' first | with_reducible assumption | exact Need.sub hp0 rfl | ((try lift_lets -underBinder); intro x; first | (refine Ev.cut (P := Q0) (s0 := s0) (x := x) ?_ (fun hx => ?_); unfold x) | (refine Ev.cutP (P := Q0) (s0 := s0) (x := x) (by unfold x; exact rfl) ?_ (fun hx => ?_)) | skip) | with_reducible apply State.ev_flushComb | with_reducible apply State.ev_serve | with_reducible apply State.ev_setFaults | with_reducible apply State.ev_showReset | with_reducible apply State.ev_enterSpan | with_reducible refine Ev.foldl _ (fun st a hst => ?_) _ _ ?_ | with_reducible refine Ev.foldlP _ (fun st a hst => ?_) _ _ ?_ | split

end Sys2Proof.Machine
end

