-- ==== Sys2Proof/Laws/EvRemote.lean ====
section
/-! SUPPORT. The operations of Remote.lean keep the relation Ev. -/

namespace Sys2Proof.Machine

open Sys2Proof

set_option linter.unusedVariables false

theorem State.ev_setRmt {Q0 : StatePart → Bool} (hp0 : Need Q0 [.rmt]) {s0 s : State} (ev : Ev Q0 s0 s) (r : RmtSt) : Ev Q0 s0 (State.setRmt s r) := by
  unfold State.setRmt
  repeat' first | with_reducible assumption | exact Need.sub hp0 rfl | with_reducible apply Ev.upd | with_reducible apply Ev.updOut | exact Or.inl (Need.has hp0 rfl) | with_reducible exact Or.inr rfl | exact Need.has hp0 rfl | with_reducible rfl

theorem State.ev_windowFault {Q0 : StatePart → Bool} (hp0 : Need Q0 [.host, .steps, .log, .router, .regs, .out]) {s0 s : State} (ev : Ev Q0 s0 s) (x1 : OpCtx) (rank : Nat) (off : Nat) : Ev Q0 s0 (State.windowFault s x1 rank off) := by
  unfold State.windowFault
  repeat' first | with_reducible assumption | exact Need.sub hp0 rfl | with_reducible apply State.ev_opFault | with_reducible apply State.ev_bumpSat | split

theorem State.ev_remoteError {Q0 : StatePart → Bool} (hp0 : Need Q0 [.host, .steps, .log, .router, .regs, .out]) {s0 s : State} (ev : Ev Q0 s0 s) (slot : Nat) (core : Nat) (inst3 : Nat) (code : Nat) (addr : Nat) : Ev Q0 s0 (State.remoteError s slot core inst3 code addr) := by
  unfold State.remoteError
  repeat' first | with_reducible assumption | exact Need.sub hp0 rfl | with_reducible apply State.ev_stepFault

theorem State.ev_releaseRes {Q0 : StatePart → Bool} (hp0 : Need Q0 [.steps, .mm, .traceLost, .rmt, .regs, .mem]) {s0 s : State} (ev : Ev Q0 s0 s) (slot : Nat) (core : Nat) (inst3 : Nat) (x4 : Nat) : Ev Q0 s0 (State.releaseRes s slot core inst3 x4) := by
  induction x4 generalizing s with
  | zero => unfold State.releaseRes; repeat' first | with_reducible assumption | exact Need.sub hp0 rfl | ((try lift_lets -underBinder); intro x; first | (refine Ev.cut (P := Q0) (s0 := s0) (x := x) ?_ (fun hx => ?_); unfold x) | (refine Ev.cutP (P := Q0) (s0 := s0) (x := x) (by unfold x; exact rfl) ?_ (fun hx => ?_)) | skip) | with_reducible apply State.ev_modInst | with_reducible apply State.ev_setRmt | with_reducible apply State.ev_traceInst | split
  | succ k ih =>
    unfold State.releaseRes
    repeat' first | with_reducible assumption | exact Need.sub hp0 rfl | ((try lift_lets -underBinder); intro x; first | (refine Ev.cut (P := Q0) (s0 := s0) (x := x) ?_ (fun hx => ?_); unfold x) | (refine Ev.cutP (P := Q0) (s0 := s0) (x := x) (by unfold x; exact rfl) ?_ (fun hx => ?_)) | skip) | with_reducible apply State.ev_modInst | with_reducible apply State.ev_setRmt | with_reducible apply State.ev_traceInst | split | apply ih

theorem State.ev_release {Q0 : StatePart → Bool} (hp0 : Need Q0 [.steps, .mm, .traceLost, .rmt, .regs, .mem]) {s0 s : State} (ev : Ev Q0 s0 s) (slot : Nat) (core : Nat) (inst3 : Nat) : Ev Q0 s0 (State.release s slot core inst3) := by
  unfold State.release
  repeat' first | with_reducible assumption | exact Need.sub hp0 rfl | with_reducible apply State.ev_releaseRes

theorem State.ev_resPart {Q0 : StatePart → Bool} (hp0 : Need Q0 [.steps, .mm, .traceLost, .rmt, .regs, .mem]) {s0 s : State} (ev : Ev Q0 s0 s) (res : Option Nat) (off : Nat) (bytes : List Byte) (poison : Bool) : Ev Q0 s0 (State.resPart s res off bytes poison) := by
  unfold State.resPart
  repeat' first | with_reducible assumption | exact Need.sub hp0 rfl | ((try lift_lets -underBinder); intro x; first | (refine Ev.cut (P := Q0) (s0 := s0) (x := x) ?_ (fun hx => ?_); unfold x) | (refine Ev.cutP (P := Q0) (s0 := s0) (x := x) (by unfold x; exact rfl) ?_ (fun hx => ?_)) | skip) | with_reducible apply State.ev_release | with_reducible apply State.ev_setRmt | split

theorem State.ev_awaitRes {Q0 : StatePart → Bool} (hp0 : Need Q0 [.rmt]) {s0 s : State} (ev : Ev Q0 s0 s) (x1 : OpCtx) (tile : Tile) (parts : Nat) : Ev Q0 s0 (State.awaitRes s x1 tile parts).1 := by
  unfold State.awaitRes
  repeat' first | with_reducible assumption | exact Need.sub hp0 rfl | ((try lift_lets -underBinder); intro x; first | (refine Ev.cut (P := Q0) (s0 := s0) (x := x) ?_ (fun hx => ?_); unfold x) | (refine Ev.cutP (P := Q0) (s0 := s0) (x := x) (by unfold x; exact rfl) ?_ (fun hx => ?_)) | skip) | with_reducible apply State.ev_setRmt | split

theorem State.ev_awaitRes_eq {Q0 : StatePart → Bool} (hp0 : Need Q0 [.rmt]) {s0 s : State} (ev : Ev Q0 s0 s) (x1 : OpCtx) (tile : Tile) (parts : Nat) {sT : State} {r : Option Nat} (e : (State.awaitRes s x1 tile parts) = (sT, r)) : Ev Q0 s0 sT := by
  have h := State.ev_awaitRes hp0 ev x1 tile parts
  rw [e] at h
  exact h

theorem State.ev_endIssue {Q0 : StatePart → Bool} (hp0 : Need Q0 [.steps, .mm, .traceLost, .rmt, .regs, .mem]) {s0 s : State} (ev : Ev Q0 s0 s) (x1 : OpCtx) : Ev Q0 s0 (State.endIssue s x1) := by
  unfold State.endIssue
  repeat' first | with_reducible assumption | exact Need.sub hp0 rfl | ((try lift_lets -underBinder); intro x; first | (refine Ev.cut (P := Q0) (s0 := s0) (x := x) ?_ (fun hx => ?_); unfold x) | (refine Ev.cutP (P := Q0) (s0 := s0) (x := x) (by unfold x; exact rfl) ?_ (fun hx => ?_)) | skip) | with_reducible apply State.ev_endRepeat | with_reducible apply State.ev_nextRepeat | with_reducible apply State.ev_release | split

theorem State.ev_runRmt {Q0 : StatePart → Bool} (hp0 : Need Q0 [.host, .steps, .mm, .log, .router, .traceLost, .regs, .out, .mem]) {s0 s : State} (ev : Ev Q0 s0 s) (slot : Nat) (core : Nat) (inst3 : Nat) (known : List Nat) (code : Nat) (ok : OpCtx → Bool) (body : State → OpCtx → State) (hbody : ∀ x0 x1, Ev Q0 s0 x0 → Ev Q0 s0 (body x0 x1)) : Ev Q0 s0 (State.runRmt s slot core inst3 known code ok body) := by
  unfold State.runRmt
  repeat' first | with_reducible assumption | exact Need.sub hp0 rfl | ((try lift_lets -underBinder); intro x; (try dsimp -zeta -proj only); first | (refine Ev.cut (P := Q0) (s0 := s0) (x := x) ?_ (fun hx => ?_); unfold x) | (refine Ev.cutP (P := Q0) (s0 := s0) (x := x) (by unfold x; exact rfl) ?_ (fun hx => ?_)) | skip) | with_reducible apply State.ev_runOp | with_reducible apply hbody | split

theorem State.ev_takeId {Q0 : StatePart → Bool} (hp0 : Need Q0 [.rmt]) {s0 s : State} (ev : Ev Q0 s0 s)  : Ev Q0 s0 (State.takeId s).1 := by
  unfold State.takeId
  repeat' first | with_reducible assumption | exact Need.sub hp0 rfl | ((try lift_lets -underBinder); intro x; first | (refine Ev.cut (P := Q0) (s0 := s0) (x := x) ?_ (fun hx => ?_); unfold x) | (refine Ev.cutP (P := Q0) (s0 := s0) (x := x) (by unfold x; exact rfl) ?_ (fun hx => ?_)) | skip) | with_reducible apply State.ev_setRmt

theorem State.ev_takeId_eq {Q0 : StatePart → Bool} (hp0 : Need Q0 [.rmt]) {s0 s : State} (ev : Ev Q0 s0 s)  {sT : State} {r : Nat} (e : (State.takeId s) = (sT, r)) : Ev Q0 s0 sT := by
  have h := State.ev_takeId hp0 ev
  rw [e] at h
  exact h

theorem State.ev_sendReq {Q0 : StatePart → Bool} (hp0 : Need Q0 [.steps, .router, .rmt]) {s0 s : State} (ev : Ev Q0 s0 s) (w : RmtWait) : Ev Q0 s0 (State.sendReq s w) := by
  unfold State.sendReq
  repeat' first | with_reducible assumption | exact Need.sub hp0 rfl | ((try lift_lets -underBinder); intro x; first | (refine Ev.cut (P := Q0) (s0 := s0) (x := x) ?_ (fun hx => ?_); unfold x) | (refine Ev.cutP (P := Q0) (s0 := s0) (x := x) (by unfold x; exact rfl) ?_ (fun hx => ?_)) | skip) | with_reducible apply State.ev_takeId | with_reducible apply State.ev_sendFrame | with_reducible apply State.ev_setRmt | with_reducible apply State.ev_progress | with_reducible refine State.ev_takeId_eq (Need.sub hp0 rfl) ?_  (by with_reducible assumption) | with_reducible refine Ev.foldl _ (fun st a hst => ?_) _ _ ?_ | with_reducible refine Ev.foldlP _ (fun st a hst => ?_) _ _ ?_ | split

theorem State.ev_issue {Q0 : StatePart → Bool} (hp0 : Need Q0 [.steps, .router, .rmt]) {s0 s : State} (ev : Ev Q0 s0 s) (w : RmtWait) : Ev Q0 s0 (State.issue s w) := by
  unfold State.issue
  repeat' first | with_reducible assumption | exact Need.sub hp0 rfl | ((try lift_lets -underBinder); intro x; first | (refine Ev.cut (P := Q0) (s0 := s0) (x := x) ?_ (fun hx => ?_); unfold x) | (refine Ev.cutP (P := Q0) (s0 := s0) (x := x) (by unfold x; exact rfl) ?_ (fun hx => ?_)) | skip) | with_reducible apply State.ev_sendReq | with_reducible apply State.ev_setRmt | split

theorem State.ev_putLocal {Q0 : StatePart → Bool} (hp0 : Need Q0 [.host, .mm, .faults, .log, .rmt, .regs, .out, .mem]) {s0 s : State} (ev : Ev Q0 s0 s) (x1 : OpCtx) (o : Nat) (t : Tile) (good : List (Nat × Nat)) : Ev Q0 s0 (State.putLocal s x1 o t good).1 := by
  unfold State.putLocal
  repeat' first | with_reducible assumption | exact Need.sub hp0 rfl | with_reducible apply State.ev_rmtWrite | with_reducible refine Ev.foldl _ (fun st a hst => ?_) _ _ ?_ | with_reducible refine Ev.foldlP _ (fun st a hst => ?_) _ _ ?_ | split

theorem State.ev_putLocal_eq {Q0 : StatePart → Bool} (hp0 : Need Q0 [.host, .mm, .faults, .log, .rmt, .regs, .out, .mem]) {s0 s : State} (ev : Ev Q0 s0 s) (x1 : OpCtx) (o : Nat) (t : Tile) (good : List (Nat × Nat)) {sT : State} {r : Option (Nat × Nat)} (e : (State.putLocal s x1 o t good) = (sT, r)) : Ev Q0 s0 sT := by
  have h := State.ev_putLocal hp0 ev x1 o t good
  rw [e] at h
  exact h

theorem State.ev_putOp {Q0 : StatePart → Bool} (hp0 : Need Q0 [.host, .steps, .mm, .faults, .log, .router, .traceLost, .rmt, .regs, .out, .mem]) {s0 s : State} (ev : Ev Q0 s0 s) (x1 : OpCtx) : Ev Q0 s0 (State.putOp s x1) := by
  unfold State.putOp
  repeat' first | with_reducible assumption | exact Need.sub hp0 rfl | ((try lift_lets -underBinder); intro x; first | (refine Ev.cut (P := Q0) (s0 := s0) (x := x) ?_ (fun hx => ?_); unfold x) | (refine Ev.cutP (P := Q0) (s0 := s0) (x := x) (by unfold x; exact rfl) ?_ (fun hx => ?_)) | skip) | with_reducible apply State.ev_opFault | with_reducible apply State.ev_stallOn | with_reducible apply State.ev_putLocal | with_reducible apply State.ev_sendFrame | with_reducible apply State.ev_windowFault | with_reducible apply State.ev_remoteError | with_reducible apply State.ev_endIssue | with_reducible apply State.ev_awaitRes | with_reducible apply State.ev_endInA | with_reducible apply State.ev_issue | with_reducible refine State.ev_putLocal_eq (Need.sub hp0 rfl) ?_ _ _ _ _ (by with_reducible assumption) | with_reducible refine State.ev_awaitRes_eq (Need.sub hp0 rfl) ?_ _ _ _ (by with_reducible assumption) | with_reducible refine Ev.foldl _ (fun st a hst => ?_) _ _ ?_ | with_reducible refine Ev.foldlP _ (fun st a hst => ?_) _ _ ?_ | split

theorem State.ev_getOp {Q0 : StatePart → Bool} (hp0 : Need Q0 [.host, .steps, .mm, .faults, .log, .router, .traceLost, .rmt, .regs, .out, .freeCtr, .mem]) {s0 s : State} (ev : Ev Q0 s0 s) (x1 : OpCtx) : Ev Q0 s0 (State.getOp s x1) := by
  unfold State.getOp
  repeat' first | with_reducible assumption | exact Need.sub hp0 rfl | ((try lift_lets -underBinder); intro x; first | (refine Ev.cut (P := Q0) (s0 := s0) (x := x) ?_ (fun hx => ?_); unfold x) | (refine Ev.cutP (P := Q0) (s0 := s0) (x := x) (by unfold x; exact rfl) ?_ (fun hx => ?_)) | skip) | with_reducible apply State.ev_opFault | with_reducible apply State.ev_windowFault | with_reducible apply State.ev_issue | with_reducible apply State.ev_remoteError | with_reducible apply State.ev_access | with_reducible apply State.ev_endIssue | with_reducible apply State.ev_awaitRes | with_reducible apply State.ev_drew | with_reducible refine State.ev_awaitRes_eq (Need.sub hp0 rfl) ?_ _ _ _ (by with_reducible assumption) | with_reducible refine Ev.foldl _ (fun st a hst => ?_) _ _ ?_ | with_reducible refine Ev.foldlP _ (fun st a hst => ?_) _ _ ?_ | split

theorem State.ev_atomicRow {Q0 : StatePart → Bool} (hp0 : Need Q0 [.host, .steps, .mm, .faults, .log, .router, .traceLost, .rmt, .regs, .out, .freeCtr, .mem]) {s0 s : State} (ev : Ev Q0 s0 s) (x1 : OpCtx) (res : Option Nat) (row : List Int) (i : Nat) : Ev Q0 s0 (State.atomicRow s x1 res row i).1 := by
  unfold State.atomicRow
  repeat' first | with_reducible assumption | exact Need.sub hp0 rfl | ((try lift_lets -underBinder); intro x; first | (refine Ev.cut (P := Q0) (s0 := s0) (x := x) ?_ (fun hx => ?_); unfold x) | (refine Ev.cutP (P := Q0) (s0 := s0) (x := x) (by unfold x; exact rfl) ?_ (fun hx => ?_)) | skip) | with_reducible apply State.ev_opFault | with_reducible apply State.ev_windowFault | with_reducible apply State.ev_remoteError | with_reducible apply State.ev_rmtAtomic | with_reducible apply State.ev_resPart | with_reducible apply State.ev_issue | with_reducible refine State.ev_rmtAtomic_eq (Need.sub hp0 rfl) ?_ _ _ _ _ _ (by with_reducible assumption) | split

theorem State.ev_atomicRow_eq {Q0 : StatePart → Bool} (hp0 : Need Q0 [.host, .steps, .mm, .faults, .log, .router, .traceLost, .rmt, .regs, .out, .freeCtr, .mem]) {s0 s : State} (ev : Ev Q0 s0 s) (x1 : OpCtx) (res : Option Nat) (row : List Int) (i : Nat) {sT : State} {r : Bool} (e : (State.atomicRow s x1 res row i) = (sT, r)) : Ev Q0 s0 sT := by
  have h := State.ev_atomicRow hp0 ev x1 res row i
  rw [e] at h
  exact h

theorem State.ev_atomicRows {Q0 : StatePart → Bool} (hp0 : Need Q0 [.host, .steps, .mm, .faults, .log, .router, .traceLost, .rmt, .regs, .out, .freeCtr, .mem]) {s0 s : State} (ev : Ev Q0 s0 s) (x1 : OpCtx) (res : Option Nat) (t : Tile) : Ev Q0 s0 (State.atomicRows s x1 res t).1 := by
  unfold State.atomicRows
  repeat' first | with_reducible assumption | exact Need.sub hp0 rfl | with_reducible apply State.ev_atomicRow | with_reducible refine State.ev_atomicRow_eq (Need.sub hp0 rfl) ?_ _ _ _ _ (by with_reducible assumption) | with_reducible refine Ev.foldl _ (fun st a hst => ?_) _ _ ?_ | with_reducible refine Ev.foldlP _ (fun st a hst => ?_) _ _ ?_ | split

theorem State.ev_atomicRows_eq {Q0 : StatePart → Bool} (hp0 : Need Q0 [.host, .steps, .mm, .faults, .log, .router, .traceLost, .rmt, .regs, .out, .freeCtr, .mem]) {s0 s : State} (ev : Ev Q0 s0 s) (x1 : OpCtx) (res : Option Nat) (t : Tile) {sT : State} {r : Bool} (e : (State.atomicRows s x1 res t) = (sT, r)) : Ev Q0 s0 sT := by
  have h := State.ev_atomicRows hp0 ev x1 res t
  rw [e] at h
  exact h

theorem State.ev_atomicOp {Q0 : StatePart → Bool} (hp0 : Need Q0 [.host, .steps, .mm, .faults, .log, .router, .traceLost, .rmt, .regs, .out, .freeCtr, .mem]) {s0 s : State} (ev : Ev Q0 s0 s) (x1 : OpCtx) : Ev Q0 s0 (State.atomicOp s x1) := by
  unfold State.atomicOp
  repeat' first | with_reducible assumption | exact Need.sub hp0 rfl | ((try lift_lets -underBinder); intro x; first | (refine Ev.cut (P := Q0) (s0 := s0) (x := x) ?_ (fun hx => ?_); unfold x) | (refine Ev.cutP (P := Q0) (s0 := s0) (x := x) (by unfold x; exact rfl) ?_ (fun hx => ?_)) | skip) | with_reducible apply State.ev_stallOn | with_reducible apply State.ev_opFault | with_reducible apply State.ev_awaitRes | with_reducible apply State.ev_atomicRows | with_reducible apply State.ev_endIssue | with_reducible apply State.ev_endInA | with_reducible refine State.ev_awaitRes_eq (Need.sub hp0 rfl) ?_ _ _ _ (by with_reducible assumption) | with_reducible refine State.ev_atomicRows_eq (Need.sub hp0 rfl) ?_ _ _ _ (by with_reducible assumption) | split

theorem State.ev_fenceOp {Q0 : StatePart → Bool} (hp0 : Need Q0 [.steps, .mm, .traceLost, .rmt, .regs, .mem]) {s0 s : State} (ev : Ev Q0 s0 s) (x1 : OpCtx) : Ev Q0 s0 (State.fenceOp s x1) := by
  unfold State.fenceOp
  repeat' first | with_reducible assumption | exact Need.sub hp0 rfl | with_reducible apply State.ev_endIssue | with_reducible apply State.ev_awaitRes | with_reducible refine State.ev_awaitRes_eq (Need.sub hp0 rfl) ?_ _ _ _ (by with_reducible assumption) | split

theorem State.ev_flagOp {Q0 : StatePart → Bool} (hp0 : Need Q0 [.host, .steps, .mm, .faults, .log, .router, .traceLost, .rmt, .regs, .out, .mem]) {s0 s : State} (ev : Ev Q0 s0 s) (x1 : OpCtx) : Ev Q0 s0 (State.flagOp s x1) := by
  unfold State.flagOp
  repeat' first | with_reducible assumption | exact Need.sub hp0 rfl | ((try lift_lets -underBinder); intro x; first | (refine Ev.cut (P := Q0) (s0 := s0) (x := x) ?_ (fun hx => ?_); unfold x) | (refine Ev.cutP (P := Q0) (s0 := s0) (x := x) (by unfold x; exact rfl) ?_ (fun hx => ?_)) | skip) | with_reducible apply State.ev_opFault | with_reducible apply State.ev_windowFault | with_reducible apply State.ev_remoteError | with_reducible apply State.ev_endIssue | with_reducible apply State.ev_awaitRes | with_reducible apply State.ev_rmtWrite | with_reducible apply State.ev_issue | with_reducible refine State.ev_awaitRes_eq (Need.sub hp0 rfl) ?_ _ _ _ (by with_reducible assumption) | split

theorem State.ev_sendPieces {Q0 : StatePart → Bool} (hp0 : Need Q0 [.host, .steps, .mm, .faults, .log, .router, .rmt, .regs, .out, .freeCtr, .mem]) {s0 s : State} (ev : Ev Q0 s0 s) (c : CopyRun) (hd : ReqHdr) (x3 : List (Nat × Nat)) : Ev Q0 s0 (State.sendPieces s c hd x3) := by
  induction x3 generalizing s with
  | nil => unfold State.sendPieces; repeat' first | with_reducible assumption | exact Need.sub hp0 rfl | ((try lift_lets -underBinder); intro x; first | (refine Ev.cut (P := Q0) (s0 := s0) (x := x) ?_ (fun hx => ?_); unfold x) | (refine Ev.cutP (P := Q0) (s0 := s0) (x := x) (by unfold x; exact rfl) ?_ (fun hx => ?_)) | (generalize he : x = y) | skip) | with_reducible apply State.ev_remoteError | with_reducible apply State.ev_access | with_reducible apply State.ev_rmtWrite | with_reducible apply State.ev_sendFrame | with_reducible apply State.ev_drew | with_reducible apply State.ev_setRmt | split
  | cons o rest ih =>
    unfold State.sendPieces
    repeat' first | with_reducible assumption | exact Need.sub hp0 rfl | ((try lift_lets -underBinder); intro x; first | (refine Ev.cut (P := Q0) (s0 := s0) (x := x) ?_ (fun hx => ?_); unfold x) | (refine Ev.cutP (P := Q0) (s0 := s0) (x := x) (by unfold x; exact rfl) ?_ (fun hx => ?_)) | (generalize he : x = y) | skip) | with_reducible apply State.ev_remoteError | with_reducible apply State.ev_access | with_reducible apply State.ev_rmtWrite | with_reducible apply State.ev_sendFrame | with_reducible apply State.ev_drew | with_reducible apply State.ev_setRmt | split | apply ih

theorem State.ev_pumpCopy {Q0 : StatePart → Bool} (hp0 : Need Q0 [.host, .steps, .mm, .faults, .log, .router, .rmt, .regs, .out, .freeCtr, .mem]) {s0 s : State} (ev : Ev Q0 s0 s) (c : CopyRun) : Ev Q0 s0 (State.pumpCopy s c) := by
  unfold State.pumpCopy
  repeat' first | with_reducible assumption | exact Need.sub hp0 rfl | with_reducible apply State.ev_sendPieces | split

theorem State.ev_copyOp {Q0 : StatePart → Bool} (hp0 : Need Q0 [.host, .steps, .mm, .faults, .log, .router, .traceLost, .rmt, .regs, .out, .freeCtr, .mem]) {s0 s : State} (ev : Ev Q0 s0 s) (x1 : OpCtx) : Ev Q0 s0 (State.copyOp s x1) := by
  unfold State.copyOp
  repeat' first | with_reducible assumption | exact Need.sub hp0 rfl | ((try lift_lets -underBinder); intro x; first | (refine Ev.cut (P := Q0) (s0 := s0) (x := x) ?_ (fun hx => ?_); unfold x) | (refine Ev.cutP (P := Q0) (s0 := s0) (x := x) (by unfold x; exact rfl) ?_ (fun hx => ?_)) | skip) | with_reducible apply State.ev_opFault | with_reducible apply State.ev_stallOn | with_reducible apply State.ev_windowFault | with_reducible apply State.ev_endInA | with_reducible apply State.ev_awaitRes | with_reducible apply State.ev_takeId | with_reducible apply State.ev_pumpCopy | with_reducible apply State.ev_endIssue | with_reducible apply State.ev_setRmt | with_reducible refine State.ev_awaitRes_eq (Need.sub hp0 rfl) ?_ _ _ _ (by with_reducible assumption) | with_reducible refine State.ev_takeId_eq (Need.sub hp0 rfl) ?_  (by with_reducible assumption) | split

theorem State.ev_unknownRsp {Q0 : StatePart → Bool} (hp0 : Need Q0 [.regs]) {s0 s : State} (ev : Ev Q0 s0 s)  : Ev Q0 s0 (State.unknownRsp s) := by
  unfold State.unknownRsp
  repeat' first | with_reducible assumption | exact Need.sub hp0 rfl | with_reducible apply State.ev_bumpSat

theorem State.ev_dropReq {Q0 : StatePart → Bool} (hp0 : Need Q0 [.rmt]) {s0 s : State} (ev : Ev Q0 s0 s) (id : Nat) : Ev Q0 s0 (State.dropReq s id) := by
  unfold State.dropReq
  repeat' first | with_reducible assumption | exact Need.sub hp0 rfl | ((try lift_lets -underBinder); intro x; first | (refine Ev.cut (P := Q0) (s0 := s0) (x := x) ?_ (fun hx => ?_); unfold x) | (refine Ev.cutP (P := Q0) (s0 := s0) (x := x) (by unfold x; exact rfl) ?_ (fun hx => ?_)) | skip) | with_reducible apply State.ev_setRmt

theorem State.ev_takeRsp {Q0 : StatePart → Bool} (hp0 : Need Q0 [.steps, .router, .rmt]) {s0 s : State} (ev : Ev Q0 s0 s) (typ : Nat) (src : Nat) (kind : Nat) (take : State → Frame → RmtReq → State) (other : State → Frame → State) (htake : ∀ x0 x1 x2, Ev Q0 s0 x0 → Ev Q0 s0 (take x0 x1 x2)) (hother : ∀ x0 x1, Ev Q0 s0 x0 → Ev Q0 s0 (other x0 x1)) : Ev Q0 s0 (State.takeRsp s typ src kind take other) := by
  unfold State.takeRsp
  repeat' first | with_reducible assumption | exact Need.sub hp0 rfl | with_reducible apply State.ev_progress | with_reducible apply State.ev_dropReq | refine State.ev_takeFrame (Need.sub hp0 rfl) ?_ _ _ (he.trans (by with_reducible assumption)) | with_reducible refine State.ev_takeFrame (Need.sub hp0 rfl) ?_ _ _ (by with_reducible assumption) | with_reducible apply htake | with_reducible apply hother | split

theorem execLoadAtomicEngineSlot_ev {Q0 : StatePart → Bool} (hp0 : Need Q0 [.steps, .router, .rmt]) {s0 s : State} (ev : Ev Q0 s0 s) (span : SpanIx) : ∃ t, (execLoadAtomicEngineSlot span s) = .next t ∧ Ev Q0 s0 t := by
  unfold execLoadAtomicEngineSlot
  refine ⟨_, rfl, ?_⟩
  repeat' first | with_reducible assumption | exact Need.sub hp0 rfl | ((try lift_lets -underBinder); intro x; first | (refine Ev.cut (P := Q0) (s0 := s0) (x := x) ?_ (fun hx => ?_); unfold x) | (refine Ev.cutP (P := Q0) (s0 := s0) (x := x) (by unfold x; exact rfl) ?_ (fun hx => ?_)) | skip) | with_reducible apply State.ev_sendReq | with_reducible apply State.ev_setRmt | split

theorem execPut_ev {Q0 : StatePart → Bool} (hp0 : Need Q0 [.host, .steps, .mm, .faults, .log, .router, .traceLost, .rmt, .regs, .out, .mem]) {s0 s : State} (ev : Ev Q0 s0 s) (slot : StepIx) (core : LCore) (ix : Fin 4) : ∃ t, (execPut slot core ix s) = .next t ∧ Ev Q0 s0 t := by
  unfold execPut
  refine ⟨_, rfl, ?_⟩
  repeat' first | with_reducible assumption | exact Need.sub hp0 rfl | ((try lift_lets -underBinder); intro x; (try dsimp -zeta -proj only); first | (refine Ev.cut (P := Q0) (s0 := s0) (x := x) ?_ (fun hx => ?_); unfold x) | (refine Ev.cutP (P := Q0) (s0 := s0) (x := x) (by unfold x; exact rfl) ?_ (fun hx => ?_)) | skip) | with_reducible apply State.ev_runRmt | with_reducible apply State.ev_putOp

theorem execGet_ev {Q0 : StatePart → Bool} (hp0 : Need Q0 [.host, .steps, .mm, .faults, .log, .router, .traceLost, .rmt, .regs, .out, .freeCtr, .mem]) {s0 s : State} (ev : Ev Q0 s0 s) (slot : StepIx) (core : LCore) (ix : Fin 4) : ∃ t, (execGet slot core ix s) = .next t ∧ Ev Q0 s0 t := by
  unfold execGet
  refine ⟨_, rfl, ?_⟩
  repeat' first | with_reducible assumption | exact Need.sub hp0 rfl | ((try lift_lets -underBinder); intro x; (try dsimp -zeta -proj only); first | (refine Ev.cut (P := Q0) (s0 := s0) (x := x) ?_ (fun hx => ?_); unfold x) | (refine Ev.cutP (P := Q0) (s0 := s0) (x := x) (by unfold x; exact rfl) ?_ (fun hx => ?_)) | skip) | with_reducible apply State.ev_runRmt | with_reducible apply State.ev_getOp

theorem execAtomic_ev {Q0 : StatePart → Bool} (hp0 : Need Q0 [.host, .steps, .mm, .faults, .log, .router, .traceLost, .rmt, .regs, .out, .freeCtr, .mem]) {s0 s : State} (ev : Ev Q0 s0 s) (slot : StepIx) (core : LCore) (ix : Fin 4) : ∃ t, (execAtomic slot core ix s) = .next t ∧ Ev Q0 s0 t := by
  unfold execAtomic
  refine ⟨_, rfl, ?_⟩
  repeat' first | with_reducible assumption | exact Need.sub hp0 rfl | ((try lift_lets -underBinder); intro x; (try dsimp -zeta -proj only); first | (refine Ev.cut (P := Q0) (s0 := s0) (x := x) ?_ (fun hx => ?_); unfold x) | (refine Ev.cutP (P := Q0) (s0 := s0) (x := x) (by unfold x; exact rfl) ?_ (fun hx => ?_)) | skip) | with_reducible apply State.ev_runRmt | with_reducible apply State.ev_atomicOp

theorem execFence_ev {Q0 : StatePart → Bool} (hp0 : Need Q0 [.host, .steps, .mm, .log, .router, .traceLost, .rmt, .regs, .out, .mem]) {s0 s : State} (ev : Ev Q0 s0 s) (slot : StepIx) (core : LCore) (ix : Fin 4) : ∃ t, (execFence slot core ix s) = .next t ∧ Ev Q0 s0 t := by
  unfold execFence
  refine ⟨_, rfl, ?_⟩
  repeat' first | with_reducible assumption | exact Need.sub hp0 rfl | ((try lift_lets -underBinder); intro x; (try dsimp -zeta -proj only); first | (refine Ev.cut (P := Q0) (s0 := s0) (x := x) ?_ (fun hx => ?_); unfold x) | (refine Ev.cutP (P := Q0) (s0 := s0) (x := x) (by unfold x; exact rfl) ?_ (fun hx => ?_)) | skip) | with_reducible apply State.ev_runRmt | with_reducible apply State.ev_fenceOp

theorem execFlag_ev {Q0 : StatePart → Bool} (hp0 : Need Q0 [.host, .steps, .mm, .faults, .log, .router, .traceLost, .rmt, .regs, .out, .mem]) {s0 s : State} (ev : Ev Q0 s0 s) (slot : StepIx) (core : LCore) (ix : Fin 4) : ∃ t, (execFlag slot core ix s) = .next t ∧ Ev Q0 s0 t := by
  unfold execFlag
  refine ⟨_, rfl, ?_⟩
  repeat' first | with_reducible assumption | exact Need.sub hp0 rfl | ((try lift_lets -underBinder); intro x; (try dsimp -zeta -proj only); first | (refine Ev.cut (P := Q0) (s0 := s0) (x := x) ?_ (fun hx => ?_); unfold x) | (refine Ev.cutP (P := Q0) (s0 := s0) (x := x) (by unfold x; exact rfl) ?_ (fun hx => ?_)) | skip) | with_reducible apply State.ev_runRmt | with_reducible apply State.ev_flagOp

theorem execCopy_ev {Q0 : StatePart → Bool} (hp0 : Need Q0 [.host, .steps, .mm, .faults, .log, .router, .traceLost, .rmt, .regs, .out, .freeCtr, .mem]) {s0 s : State} (ev : Ev Q0 s0 s) (slot : StepIx) (core : LCore) (ix : Fin 4) : ∃ t, (execCopy slot core ix s) = .next t ∧ Ev Q0 s0 t := by
  unfold execCopy
  refine ⟨_, rfl, ?_⟩
  repeat' first | with_reducible assumption | exact Need.sub hp0 rfl | ((try lift_lets -underBinder); intro x; (try dsimp -zeta -proj only); first | (refine Ev.cut (P := Q0) (s0 := s0) (x := x) ?_ (fun hx => ?_); unfold x) | (refine Ev.cutP (P := Q0) (s0 := s0) (x := x) (by unfold x; exact rfl) ?_ (fun hx => ?_)) | skip) | with_reducible apply State.ev_runRmt | with_reducible apply State.ev_copyOp

theorem execCopyComplete_ev {Q0 : StatePart → Bool} (hp0 : Need Q0 [.steps, .mm, .traceLost, .rmt, .regs, .mem]) {s0 s : State} (ev : Ev Q0 s0 s) (die : Fin 4) (engine : Fin 16) : ∃ t, (execCopyComplete die engine s) = .next t ∧ Ev Q0 s0 t := by
  unfold execCopyComplete
  refine ⟨_, rfl, ?_⟩
  repeat' first | with_reducible assumption | exact Need.sub hp0 rfl | ((try lift_lets -underBinder); intro x; first | (refine Ev.cut (P := Q0) (s0 := s0) (x := x) ?_ (fun hx => ?_); unfold x) | (refine Ev.cutP (P := Q0) (s0 := s0) (x := x) (by unfold x; exact rfl) ?_ (fun hx => ?_)) | skip) | with_reducible apply State.ev_resPart | with_reducible apply State.ev_setRmt | split

theorem execRdRspReceive_ev {Q0 : StatePart → Bool} (hp0 : Need Q0 [.steps, .mm, .router, .traceLost, .rmt, .regs, .mem]) {s0 s : State} (ev : Ev Q0 s0 s) (src : Endpoint) : ∃ t, (execRdRspReceive src s) = .next t ∧ Ev Q0 s0 t := by
  unfold execRdRspReceive
  refine ⟨_, rfl, ?_⟩
  repeat' first | with_reducible assumption | exact Need.sub hp0 rfl | ((try lift_lets -underBinder); intro x; (try dsimp -zeta -proj only); first | (refine Ev.cut (P := Q0) (s0 := s0) (x := x) ?_ (fun hx => ?_); unfold x) | (refine Ev.cutP (P := Q0) (s0 := s0) (x := x) (by unfold x; exact rfl) ?_ (fun hx => ?_)) | skip) | with_reducible apply State.ev_takeRsp | with_reducible apply State.ev_resPart | with_reducible apply State.ev_unknownRsp

theorem execWrAckReceive_ev {Q0 : StatePart → Bool} (hp0 : Need Q0 [.host, .steps, .mm, .faults, .log, .router, .traceLost, .rmt, .regs, .out, .freeCtr, .mem]) {s0 s : State} (ev : Ev Q0 s0 s) (src : Endpoint) : ∃ t, (execWrAckReceive src s) = .next t ∧ Ev Q0 s0 t := by
  unfold execWrAckReceive
  refine ⟨_, rfl, ?_⟩
  repeat' first | with_reducible assumption | exact Need.sub hp0 rfl | ((try lift_lets -underBinder); intro x; (try dsimp -zeta -proj only); first | (refine Ev.cut (P := Q0) (s0 := s0) (x := x) ?_ (fun hx => ?_); unfold x) | (refine Ev.cutP (P := Q0) (s0 := s0) (x := x) (by unfold x; exact rfl) ?_ (fun hx => ?_)) | skip) | with_reducible apply State.ev_takeRsp | with_reducible apply State.ev_resPart | with_reducible apply State.ev_unknownRsp | with_reducible apply State.ev_pumpCopy | with_reducible apply State.ev_progress | with_reducible apply State.ev_setRmt | split

theorem execAtomicRspReceive_ev {Q0 : StatePart → Bool} (hp0 : Need Q0 [.steps, .mm, .router, .traceLost, .rmt, .regs, .mem]) {s0 s : State} (ev : Ev Q0 s0 s) (src : Endpoint) : ∃ t, (execAtomicRspReceive src s) = .next t ∧ Ev Q0 s0 t := by
  unfold execAtomicRspReceive
  refine ⟨_, rfl, ?_⟩
  repeat' first | with_reducible assumption | exact Need.sub hp0 rfl | ((try lift_lets -underBinder); intro x; (try dsimp -zeta -proj only); first | (refine Ev.cut (P := Q0) (s0 := s0) (x := x) ?_ (fun hx => ?_); unfold x) | (refine Ev.cutP (P := Q0) (s0 := s0) (x := x) (by unfold x; exact rfl) ?_ (fun hx => ?_)) | skip) | with_reducible apply State.ev_takeRsp | with_reducible apply State.ev_resPart | with_reducible apply State.ev_unknownRsp

theorem execErrorRspReceive_ev {Q0 : StatePart → Bool} (hp0 : Need Q0 [.host, .steps, .log, .router, .rmt, .regs, .out]) {s0 s : State} (ev : Ev Q0 s0 s) (src : Endpoint) : ∃ t, (execErrorRspReceive src s) = .next t ∧ Ev Q0 s0 t := by
  unfold execErrorRspReceive
  refine ⟨_, rfl, ?_⟩
  repeat' first | with_reducible assumption | exact Need.sub hp0 rfl | ((try lift_lets -underBinder); intro x; first | (refine Ev.cut (P := Q0) (s0 := s0) (x := x) ?_ (fun hx => ?_); unfold x) | (refine Ev.cutP (P := Q0) (s0 := s0) (x := x) (by unfold x; exact rfl) ?_ (fun hx => ?_)) | skip) | with_reducible apply State.ev_remoteError | with_reducible apply State.ev_bumpSat | with_reducible apply State.ev_dropReq | with_reducible apply State.ev_setRmt | with_reducible apply State.ev_unknownRsp | refine State.ev_takeFrame (Need.sub hp0 rfl) ?_ _ _ (he.trans (by with_reducible assumption)) | with_reducible refine State.ev_takeFrame (Need.sub hp0 rfl) ?_ _ _ (by with_reducible assumption) | split

theorem execRemoteTimeout_ev {Q0 : StatePart → Bool} (hp0 : Need Q0 [.host, .steps, .log, .router, .rmt, .regs, .out]) {s0 s : State} (ev : Ev Q0 s0 s) (reqId : Half) : ∃ t, (execRemoteTimeout reqId s) = .next t ∧ Ev Q0 s0 t := by
  unfold execRemoteTimeout
  refine ⟨_, rfl, ?_⟩
  repeat' first | with_reducible assumption | exact Need.sub hp0 rfl | ((try lift_lets -underBinder); intro x; (try dsimp -zeta -proj only); first | (refine Ev.cut (P := Q0) (s0 := s0) (x := x) ?_ (fun hx => ?_); unfold x) | (refine Ev.cutP (P := Q0) (s0 := s0) (x := x) (by unfold x; exact rfl) ?_ (fun hx => ?_)) | (refine Ev.cutF (x := x) (fun f => ∀ st, Ev Q0 s0 st → Ev Q0 s0 (f st)) ?_ (fun hF => ?_); unfold x; try dsimp -zeta -proj only) | (refine Ev.cutF (x := x) (fun f => ∀ st a, Ev Q0 s0 st → Ev Q0 s0 (f st a)) ?_ (fun hF => ?_); unfold x; try dsimp -zeta -proj only) | (refine Ev.cutF (x := x) (fun f => ∀ st a b, Ev Q0 s0 st → Ev Q0 s0 (f st a b)) ?_ (fun hF => ?_); unfold x; try dsimp -zeta -proj only) | (refine Ev.cutF (x := x) (fun f => ∀ b, Ev Q0 s0 (f b)) ?_ (fun hF => ?_); unfold x; try dsimp -zeta -proj only) | (refine Ev.cutF (x := x) (fun f => ∀ a b, Ev Q0 s0 (f a b)) ?_ (fun hF => ?_); unfold x; try dsimp -zeta -proj only) | skip) | with_reducible apply hF | with_reducible apply State.ev_stepFault | with_reducible apply State.ev_bumpSat | with_reducible apply State.ev_dropReq | with_reducible apply State.ev_setRmt | split

end Sys2Proof.Machine
end

