-- ==== Sys2Proof/Laws/EvBetween.lean ====
section
/-! SUPPORT. The operations of Between.lean keep the relation Ev. -/

namespace Sys2Proof.Machine

open Sys2Proof

set_option linter.unusedVariables false

theorem State.ev_sendCredit {Q0 : StatePart → Bool} (hp0 : Need Q0 [.router]) {s0 s : State} (ev : Ev Q0 s0 s) (t : Step) (u : Queue) (chan : Nat) (granted : Nat) (grant : Bool) : Ev Q0 s0 (State.sendCredit s t u chan granted grant) := by
  unfold State.sendCredit
  repeat' first | with_reducible assumption | exact Need.sub hp0 rfl | with_reducible apply State.ev_sendFrame | split

theorem State.ev_setRx {Q0 : StatePart → Bool} (hp0 : Need Q0 [.rmt]) {s0 s : State} (ev : Ev Q0 s0 s) (r : RxQueue) : Ev Q0 s0 (State.setRx s r) := by
  unfold State.setRx
  repeat' first | with_reducible assumption | exact Need.sub hp0 rfl | ((try lift_lets -underBinder); intro x; first | (refine Ev.cut (P := Q0) (s0 := s0) (x := x) ?_ (fun hx => ?_); unfold x) | (refine Ev.cutP (P := Q0) (s0 := s0) (x := x) (by unfold x; exact rfl) ?_ (fun hx => ?_)) | skip) | with_reducible apply State.ev_setRmt | split

theorem State.ev_grantMore {Q0 : StatePart → Bool} (hp0 : Need Q0 [.router, .rmt]) {s0 s : State} (ev : Ev Q0 s0 s) (slot : Nat) (q : Nat) : Ev Q0 s0 (State.grantMore s slot q) := by
  unfold State.grantMore
  repeat' first | with_reducible assumption | exact Need.sub hp0 rfl | with_reducible apply State.ev_sendCredit | with_reducible apply State.ev_setRx | split

theorem State.ev_releaseRx {Q0 : StatePart → Bool} (hp0 : Need Q0 [.host, .steps, .mm, .log, .router, .traceLost, .rmt, .regs, .out, .mem]) {s0 s : State} (ev : Ev Q0 s0 s) (slot : Nat) (core : Nat) (inst3 : Nat) (q : Nat) (x5 : Nat) : Ev Q0 s0 (State.releaseRx s slot core inst3 q x5) := by
  induction x5 generalizing s with
  | zero => unfold State.releaseRx; repeat' first | with_reducible assumption | exact Need.sub hp0 rfl | ((try lift_lets -underBinder); intro x; first | (refine Ev.cut (P := Q0) (s0 := s0) (x := x) ?_ (fun hx => ?_); unfold x) | (refine Ev.cutP (P := Q0) (s0 := s0) (x := x) (by unfold x; exact rfl) ?_ (fun hx => ?_)) | skip) | with_reducible apply State.ev_opFault | with_reducible apply State.ev_setRx | with_reducible apply State.ev_endRepeat | with_reducible apply State.ev_stage | split
  | succ k ih =>
    unfold State.releaseRx
    repeat' first | with_reducible assumption | exact Need.sub hp0 rfl | ((try lift_lets -underBinder); intro x; first | (refine Ev.cut (P := Q0) (s0 := s0) (x := x) ?_ (fun hx => ?_); unfold x) | (refine Ev.cutP (P := Q0) (s0 := s0) (x := x) (by unfold x; exact rfl) ?_ (fun hx => ?_)) | skip) | with_reducible apply State.ev_opFault | with_reducible apply State.ev_setRx | with_reducible apply State.ev_endRepeat | with_reducible apply State.ev_stage | split | apply ih

theorem State.ev_allocChan {Q0 : StatePart → Bool} (hp0 : Need Q0 [.steps, .router, .rmt, .regs]) {s0 s : State} (ev : Ev Q0 s0 s) (x1 : OpCtx) (q : Nat) : Ev Q0 s0 (State.allocChan s x1 q) := by
  unfold State.allocChan
  repeat' first | with_reducible assumption | exact Need.sub hp0 rfl | ((try lift_lets -underBinder); intro x; first | (refine Ev.cut (P := Q0) (s0 := s0) (x := x) ?_ (fun hx => ?_); unfold x) | (refine Ev.cutP (P := Q0) (s0 := s0) (x := x) (by unfold x; exact rfl) ?_ (fun hx => ?_)) | (generalize he : x = y) | skip) | with_reducible apply State.ev_modInst | with_reducible apply State.ev_setRx | with_reducible apply State.ev_progress | with_reducible apply State.ev_sendCredit | with_reducible apply State.ev_bumpSat | split

theorem State.ev_queueRx {Q0 : StatePart → Bool} (hp0 : Need Q0 [.host, .steps, .mm, .log, .router, .traceLost, .rmt, .regs, .out, .mem]) {s0 s : State} (ev : Ev Q0 s0 s) (slot : Nat) (core : Nat) (inst3 : Nat) : Ev Q0 s0 (State.queueRx s slot core inst3) := by
  unfold State.queueRx
  repeat' first | with_reducible assumption | exact Need.sub hp0 rfl | ((try lift_lets -underBinder); intro x; first | (refine Ev.cut (P := Q0) (s0 := s0) (x := x) ?_ (fun hx => ?_); unfold x) | (refine Ev.cutP (P := Q0) (s0 := s0) (x := x) (by unfold x; exact rfl) ?_ (fun hx => ?_)) | skip) | with_reducible apply State.ev_startOp | with_reducible apply State.ev_allocChan | with_reducible apply State.ev_releaseRx | split

theorem State.ev_sendTile {Q0 : StatePart → Bool} (hp0 : Need Q0 [.router]) {s0 s : State} (ev : Ev Q0 s0 s) (t : Step) (u : Queue) (chan : Nat) (tile : Tile) : Ev Q0 s0 (State.sendTile s t u chan tile) := by
  unfold State.sendTile
  repeat' first | with_reducible assumption | exact Need.sub hp0 rfl | ((try lift_lets -underBinder); intro x; first | (refine Ev.cut (P := Q0) (s0 := s0) (x := x) ?_ (fun hx => ?_); unfold x) | (refine Ev.cutP (P := Q0) (s0 := s0) (x := x) (by unfold x; exact rfl) ?_ (fun hx => ?_)) | skip) | with_reducible apply State.ev_sendFrame | with_reducible refine Ev.foldl _ (fun st a hst => ?_) _ _ ?_ | with_reducible refine Ev.foldlP _ (fun st a hst => ?_) _ _ ?_ | split

theorem State.ev_queueTx {Q0 : StatePart → Bool} (hp0 : Need Q0 [.steps, .mm, .router, .traceLost, .rmt, .regs, .mem]) {s0 s : State} (ev : Ev Q0 s0 s) (x1 : OpCtx) : Ev Q0 s0 (State.queueTx s x1) := by
  unfold State.queueTx
  repeat' first | with_reducible assumption | exact Need.sub hp0 rfl | ((try lift_lets -underBinder); intro x; first | (refine Ev.cut (P := Q0) (s0 := s0) (x := x) ?_ (fun hx => ?_); unfold x) | (refine Ev.cutP (P := Q0) (s0 := s0) (x := x) (by unfold x; exact rfl) ?_ (fun hx => ?_)) | skip) | with_reducible apply State.ev_stallOn | with_reducible apply State.ev_setRmt | with_reducible apply State.ev_endRepeat | with_reducible apply State.ev_endInA | with_reducible apply State.ev_sendTile | split

theorem State.ev_waitDone {Q0 : StatePart → Bool} (hp0 : Need Q0 [.steps, .mm, .traceLost, .regs, .mem]) {s0 s : State} (ev : Ev Q0 s0 s) (x1 : OpCtx) : Ev Q0 s0 (State.waitDone s x1) := by
  unfold State.waitDone
  repeat' first | with_reducible assumption | exact Need.sub hp0 rfl | ((try lift_lets -underBinder); intro x; first | (refine Ev.cut (P := Q0) (s0 := s0) (x := x) ?_ (fun hx => ?_); unfold x) | (refine Ev.cutP (P := Q0) (s0 := s0) (x := x) (by unfold x; exact rfl) ?_ (fun hx => ?_)) | skip) | with_reducible apply State.ev_setArrival | with_reducible apply State.ev_endRepeat | with_reducible apply State.ev_stage | split

theorem State.ev_setAlive {Q0 : StatePart → Bool} (hp0 : Need Q0 [.rmt]) {s0 s : State} (ev : Ev Q0 s0 s) (x1 : OpCtx) (id : Nat) (v : Nat) : Ev Q0 s0 (State.setAlive s x1 id v) := by
  unfold State.setAlive
  repeat' first | with_reducible assumption | exact Need.sub hp0 rfl | ((try lift_lets -underBinder); intro x; first | (refine Ev.cut (P := Q0) (s0 := s0) (x := x) ?_ (fun hx => ?_); unfold x) | (refine Ev.cutP (P := Q0) (s0 := s0) (x := x) (by unfold x; exact rfl) ?_ (fun hx => ?_)) | skip) | with_reducible apply State.ev_setRmt | split

theorem State.ev_appendOp {Q0 : StatePart → Bool} (hp0 : Need Q0 [.host, .steps, .mm, .log, .router, .traceLost, .rmt, .regs, .out, .mem]) {s0 s : State} (ev : Ev Q0 s0 s) (x1 : OpCtx) : Ev Q0 s0 (State.appendOp s x1) := by
  unfold State.appendOp
  repeat' first | with_reducible assumption | exact Need.sub hp0 rfl | ((try lift_lets -underBinder); intro x; first | (refine Ev.cut (P := Q0) (s0 := s0) (x := x) ?_ (fun hx => ?_); unfold x) | (refine Ev.cutP (P := Q0) (s0 := s0) (x := x) (by unfold x; exact rfl) ?_ (fun hx => ?_)) | skip) | with_reducible apply State.ev_opFault | with_reducible apply State.ev_stallOn | with_reducible apply State.ev_endRepeat | with_reducible apply State.ev_endInA | with_reducible apply State.ev_stage | with_reducible apply State.ev_setAlive | split

theorem State.ev_verifyOp {Q0 : StatePart → Bool} (hp0 : Need Q0 [.host, .steps, .mm, .log, .router, .traceLost, .rmt, .regs, .out, .mem]) {s0 s : State} (ev : Ev Q0 s0 s) (x1 : OpCtx) : Ev Q0 s0 (State.verifyOp s x1) := by
  unfold State.verifyOp
  repeat' first | with_reducible assumption | exact Need.sub hp0 rfl | ((try lift_lets -underBinder); intro x; (try dsimp -zeta -proj only); first | (refine Ev.cut (P := Q0) (s0 := s0) (x := x) ?_ (fun hx => ?_); unfold x) | (refine Ev.cutP (P := Q0) (s0 := s0) (x := x) (by unfold x; exact rfl) ?_ (fun hx => ?_)) | (refine Ev.cutF (x := x) (fun f => ∀ st, Ev Q0 s0 st → Ev Q0 s0 (f st)) ?_ (fun hF => ?_); unfold x; try dsimp -zeta -proj only) | (refine Ev.cutF (x := x) (fun f => ∀ st a, Ev Q0 s0 st → Ev Q0 s0 (f st a)) ?_ (fun hF => ?_); unfold x; try dsimp -zeta -proj only) | (refine Ev.cutF (x := x) (fun f => ∀ st a b, Ev Q0 s0 st → Ev Q0 s0 (f st a b)) ?_ (fun hF => ?_); unfold x; try dsimp -zeta -proj only) | (refine Ev.cutF (x := x) (fun f => ∀ b, Ev Q0 s0 (f b)) ?_ (fun hF => ?_); unfold x; try dsimp -zeta -proj only) | (refine Ev.cutF (x := x) (fun f => ∀ a b, Ev Q0 s0 (f a b)) ?_ (fun hF => ?_); unfold x; try dsimp -zeta -proj only) | skip) | with_reducible apply hF | with_reducible apply State.ev_opFault | with_reducible apply State.ev_stallOn | with_reducible apply State.ev_progress | with_reducible apply State.ev_endRead | with_reducible apply State.ev_bumpSat | with_reducible apply State.ev_endRepeat | with_reducible apply State.ev_endInA | with_reducible apply State.ev_stage | with_reducible apply State.ev_setAlive | split

theorem execQueue_ev {Q0 : StatePart → Bool} (hp0 : Need Q0 [.host, .steps, .mm, .log, .router, .traceLost, .rmt, .regs, .out, .mem]) {s0 s : State} (ev : Ev Q0 s0 s) (slot : StepIx) (core : LCore) (receive : Bool) (ix : Fin 4) : ∃ t, (execQueue slot core receive ix s) = .next t ∧ Ev Q0 s0 t := by
  unfold execQueue
  refine ⟨_, rfl, ?_⟩
  repeat' first | with_reducible assumption | exact Need.sub hp0 rfl | ((try lift_lets -underBinder); intro x; (try dsimp -zeta -proj only); first | (refine Ev.cut (P := Q0) (s0 := s0) (x := x) ?_ (fun hx => ?_); unfold x) | (refine Ev.cutP (P := Q0) (s0 := s0) (x := x) (by unfold x; exact rfl) ?_ (fun hx => ?_)) | skip) | with_reducible apply State.ev_queueRx | with_reducible apply State.ev_runRmt | with_reducible apply State.ev_queueTx | split

theorem execQueueCreditReceive_ev {Q0 : StatePart → Bool} (hp0 : Need Q0 [.steps, .router, .rmt]) {s0 s : State} (ev : Ev Q0 s0 s) (src : Endpoint) : ∃ t, (execQueueCreditReceive src s) = .next t ∧ Ev Q0 s0 t := by
  unfold execQueueCreditReceive
  refine ⟨_, rfl, ?_⟩
  repeat' first | with_reducible assumption | exact Need.sub hp0 rfl | ((try lift_lets -underBinder); intro x; first | (refine Ev.cut (P := Q0) (s0 := s0) (x := x) ?_ (fun hx => ?_); unfold x) | (refine Ev.cutP (P := Q0) (s0 := s0) (x := x) (by unfold x; exact rfl) ?_ (fun hx => ?_)) | skip) | with_reducible apply State.ev_setRmt | with_reducible apply State.ev_progress | refine State.ev_takeFrame (Need.sub hp0 rfl) ?_ _ _ (he.trans (by with_reducible assumption)) | with_reducible refine State.ev_takeFrame (Need.sub hp0 rfl) ?_ _ _ (by with_reducible assumption) | split

theorem execQueueCellReceive_ev {Q0 : StatePart → Bool} (hp0 : Need Q0 [.host, .steps, .mm, .log, .router, .traceLost, .rmt, .regs, .out, .mem]) {s0 s : State} (ev : Ev Q0 s0 s) (src : Endpoint) : ∃ t, (execQueueCellReceive src s) = .next t ∧ Ev Q0 s0 t := by
  unfold execQueueCellReceive
  refine ⟨_, rfl, ?_⟩
  repeat' first | with_reducible assumption | exact Need.sub hp0 rfl | ((try lift_lets -underBinder); intro x; first | (refine Ev.cut (P := Q0) (s0 := s0) (x := x) ?_ (fun hx => ?_); unfold x) | (refine Ev.cutP (P := Q0) (s0 := s0) (x := x) (by unfold x; exact rfl) ?_ (fun hx => ?_)) | skip) | with_reducible apply State.ev_bumpSat | with_reducible apply State.ev_setRx | with_reducible apply State.ev_releaseRx | with_reducible apply State.ev_progress | refine State.ev_takeFrame (Need.sub hp0 rfl) ?_ _ _ (he.trans (by with_reducible assumption)) | with_reducible refine State.ev_takeFrame (Need.sub hp0 rfl) ?_ _ _ (by with_reducible assumption) | split

theorem execQueueChannelFree_ev {Q0 : StatePart → Bool} (hp0 : Need Q0 [.rmt]) {s0 s : State} (ev : Ev Q0 s0 s) (chan : BitVec 12) : ∃ t, (execQueueChannelFree chan s) = .next t ∧ Ev Q0 s0 t := by
  unfold execQueueChannelFree
  refine ⟨_, rfl, ?_⟩
  repeat' first | with_reducible assumption | exact Need.sub hp0 rfl | ((try lift_lets -underBinder); intro x; first | (refine Ev.cut (P := Q0) (s0 := s0) (x := x) ?_ (fun hx => ?_); unfold x) | (refine Ev.cutP (P := Q0) (s0 := s0) (x := x) (by unfold x; exact rfl) ?_ (fun hx => ?_)) | skip) | with_reducible apply State.ev_setRmt

theorem execWaitGe_ev {Q0 : StatePart → Bool} (hp0 : Need Q0 [.host, .steps, .mm, .log, .router, .traceLost, .regs, .out, .mem]) {s0 s : State} (ev : Ev Q0 s0 s) (slot : StepIx) (core : LCore) (ix : Fin 2) : ∃ t, (execWaitGe slot core ix s) = .next t ∧ Ev Q0 s0 t := by
  unfold execWaitGe
  refine ⟨_, rfl, ?_⟩
  repeat' first | with_reducible assumption | exact Need.sub hp0 rfl | ((try lift_lets -underBinder); intro x; (try dsimp -zeta -proj only); first | (refine Ev.cut (P := Q0) (s0 := s0) (x := x) ?_ (fun hx => ?_); unfold x) | (refine Ev.cutP (P := Q0) (s0 := s0) (x := x) (by unfold x; exact rfl) ?_ (fun hx => ?_)) | skip) | with_reducible apply State.ev_runOp | with_reducible apply State.ev_stallOn | split

theorem execWaitGeSatisfied_ev {Q0 : StatePart → Bool} (hp0 : Need Q0 [.host, .steps, .mm, .log, .router, .traceLost, .regs, .out, .mem]) {s0 s : State} (ev : Ev Q0 s0 s) (slot : StepIx) (core : LCore) (ix : Fin 2) : ∃ t, (execWaitGeSatisfied slot core ix s) = .next t ∧ Ev Q0 s0 t := by
  unfold execWaitGeSatisfied
  refine ⟨_, rfl, ?_⟩
  repeat' first | with_reducible assumption | exact Need.sub hp0 rfl | ((try lift_lets -underBinder); intro x; (try dsimp -zeta -proj only); first | (refine Ev.cut (P := Q0) (s0 := s0) (x := x) ?_ (fun hx => ?_); unfold x) | (refine Ev.cutP (P := Q0) (s0 := s0) (x := x) (by unfold x; exact rfl) ?_ (fun hx => ?_)) | skip) | with_reducible apply State.ev_runOp | with_reducible apply State.ev_waitDone | split

theorem execAppend_ev {Q0 : StatePart → Bool} (hp0 : Need Q0 [.host, .steps, .mm, .log, .router, .traceLost, .rmt, .regs, .out, .mem]) {s0 s : State} (ev : Ev Q0 s0 s) (slot : StepIx) (core : LCore) (ix : Fin 2) : ∃ t, (execAppend slot core ix s) = .next t ∧ Ev Q0 s0 t := by
  unfold execAppend
  refine ⟨_, rfl, ?_⟩
  repeat' first | with_reducible assumption | exact Need.sub hp0 rfl | ((try lift_lets -underBinder); intro x; (try dsimp -zeta -proj only); first | (refine Ev.cut (P := Q0) (s0 := s0) (x := x) ?_ (fun hx => ?_); unfold x) | (refine Ev.cutP (P := Q0) (s0 := s0) (x := x) (by unfold x; exact rfl) ?_ (fun hx => ?_)) | skip) | with_reducible apply State.ev_runOp | with_reducible apply State.ev_appendOp

theorem execVerify_ev {Q0 : StatePart → Bool} (hp0 : Need Q0 [.host, .steps, .mm, .log, .router, .traceLost, .rmt, .regs, .out, .mem]) {s0 s : State} (ev : Ev Q0 s0 s) (slot : StepIx) (core : LCore) (ix : Fin 2) : ∃ t, (execVerify slot core ix s) = .next t ∧ Ev Q0 s0 t := by
  unfold execVerify
  refine ⟨_, rfl, ?_⟩
  repeat' first | with_reducible assumption | exact Need.sub hp0 rfl | ((try lift_lets -underBinder); intro x; (try dsimp -zeta -proj only); first | (refine Ev.cut (P := Q0) (s0 := s0) (x := x) ?_ (fun hx => ?_); unfold x) | (refine Ev.cutP (P := Q0) (s0 := s0) (x := x) (by unfold x; exact rfl) ?_ (fun hx => ?_)) | skip) | with_reducible apply State.ev_runOp | with_reducible apply State.ev_verifyOp

end Sys2Proof.Machine
end

