-- ==== Sys2Proof/Laws/EvCollect.lean ====
section
/-! SUPPORT. The operations of Collect.lean keep the relation Ev. -/

namespace Sys2Proof.Machine

open Sys2Proof

set_option linter.unusedVariables false

theorem State.ev_setCol {Q0 : StatePart → Bool} (hp0 : Need Q0 [.col]) {s0 s : State} (ev : Ev Q0 s0 s) (k : ColSt) : Ev Q0 s0 (State.setCol s k) := by
  unfold State.setCol
  repeat' first | with_reducible assumption | exact Need.sub hp0 rfl | with_reducible apply Ev.upd | with_reducible apply Ev.updOut | exact Or.inl (Need.has hp0 rfl) | with_reducible exact Or.inr rfl | exact Need.has hp0 rfl | with_reducible rfl

theorem State.ev_modColl {Q0 : StatePart → Bool} (hp0 : Need Q0 [.col]) {s0 s : State} (ev : Ev Q0 s0 s) (no : Nat) (f : Coll → Coll) : Ev Q0 s0 (State.modColl s no f) := by
  unfold State.modColl
  repeat' first | with_reducible assumption | exact Need.sub hp0 rfl | ((try lift_lets -underBinder); intro x; first | (refine Ev.cut (P := Q0) (s0 := s0) (x := x) ?_ (fun hx => ?_); unfold x) | (refine Ev.cutP (P := Q0) (s0 := s0) (x := x) (by unfold x; exact rfl) ?_ (fun hx => ?_)) | skip) | with_reducible apply State.ev_setCol

theorem State.ev_collFault {Q0 : StatePart → Bool} (hp0 : Need Q0 [.host, .steps, .log, .router, .regs, .out]) {s0 s : State} (ev : Ev Q0 s0 s) (c : Coll) (cause : Nat) (rank : optParam Nat 0) (addr : optParam Nat 0) : Ev Q0 s0 (State.collFault s c cause rank addr) := by
  unfold State.collFault
  repeat' first | with_reducible assumption | exact Need.sub hp0 rfl | with_reducible apply State.ev_stepFault

theorem State.ev_sendColl {Q0 : StatePart → Bool} (hp0 : Need Q0 [.steps, .router, .regs]) {s0 s : State} (ev : Ev Q0 s0 s) (c : Coll) (h : Nat) (cls : Nat) (parts : List (List Byte)) : Ev Q0 s0 (State.sendColl s c h cls parts) := by
  unfold State.sendColl
  repeat' first | with_reducible assumption | exact Need.sub hp0 rfl | with_reducible apply State.ev_progress | with_reducible apply State.ev_bumpWrap | with_reducible apply State.ev_sendFrame | split

theorem State.ev_sendGrant {Q0 : StatePart → Bool} (hp0 : Need Q0 [.steps, .router, .col, .regs]) {s0 s : State} (ev : Ev Q0 s0 s) (no : Nat) (phase : Nat) (h : Nat) : Ev Q0 s0 (State.sendGrant s no phase h) := by
  unfold State.sendGrant
  repeat' first | with_reducible assumption | exact Need.sub hp0 rfl | with_reducible apply State.ev_modColl | with_reducible apply State.ev_sendColl | split

theorem State.ev_sendSizes {Q0 : StatePart → Bool} (hp0 : Need Q0 [.steps, .router, .col, .regs]) {s0 s : State} (ev : Ev Q0 s0 s) (no : Nat) (h : Nat) : Ev Q0 s0 (State.sendSizes s no h) := by
  unfold State.sendSizes
  repeat' first | with_reducible assumption | exact Need.sub hp0 rfl | with_reducible apply State.ev_modColl | with_reducible apply State.ev_sendColl | split

theorem State.ev_collEmit {Q0 : StatePart → Bool} (hp0 : Need Q0 [.steps, .col]) {s0 s : State} (ev : Ev Q0 s0 s) (no : Nat) (x2 : Nat) : Ev Q0 s0 (State.collEmit s no x2) := by
  induction x2 generalizing s with
  | zero => unfold State.collEmit; repeat' first | with_reducible assumption | exact Need.sub hp0 rfl | ((try lift_lets -underBinder); intro x; first | (refine Ev.cut (P := Q0) (s0 := s0) (x := x) ?_ (fun hx => ?_); unfold x) | (refine Ev.cutP (P := Q0) (s0 := s0) (x := x) (by unfold x; exact rfl) ?_ (fun hx => ?_)) | skip) | with_reducible apply State.ev_modInst | with_reducible apply State.ev_modColl | split
  | succ k ih =>
    unfold State.collEmit
    repeat' first | with_reducible assumption | exact Need.sub hp0 rfl | ((try lift_lets -underBinder); intro x; first | (refine Ev.cut (P := Q0) (s0 := s0) (x := x) ?_ (fun hx => ?_); unfold x) | (refine Ev.cutP (P := Q0) (s0 := s0) (x := x) (by unfold x; exact rfl) ?_ (fun hx => ?_)) | skip) | with_reducible apply State.ev_modInst | with_reducible apply State.ev_modColl | split | apply ih

theorem State.ev_collPut {Q0 : StatePart → Bool} (hp0 : Need Q0 [.host, .steps, .mm, .faults, .log, .rmt, .col, .regs, .out, .mem]) {s0 s : State} (ev : Ev Q0 s0 s) (no : Nat) (off : Nat) (bytes : List Byte) (poison : Bool) : Ev Q0 s0 (State.collPut s no off bytes poison) := by
  unfold State.collPut
  repeat' first | with_reducible assumption | exact Need.sub hp0 rfl | ((try lift_lets -underBinder); intro x; first | (refine Ev.cut (P := Q0) (s0 := s0) (x := x) ?_ (fun hx => ?_); unfold x) | (refine Ev.cutP (P := Q0) (s0 := s0) (x := x) (by unfold x; exact rfl) ?_ (fun hx => ?_)) | skip) | with_reducible apply State.ev_st | with_reducible apply State.ev_access | with_reducible apply State.ev_collEmit | with_reducible apply State.ev_modColl | split

theorem State.ev_grantFold {Q0 : StatePart → Bool} (hp0 : Need Q0 [.steps, .router, .col, .regs]) {s0 s : State} (ev : Ev Q0 s0 s) (no : Nat) (also : List Nat) : Ev Q0 s0 (State.grantFold s no also) := by
  unfold State.grantFold
  repeat' first | with_reducible assumption | exact Need.sub hp0 rfl | ((try lift_lets -underBinder); intro x; first | (refine Ev.cut (P := Q0) (s0 := s0) (x := x) ?_ (fun hx => ?_); unfold x) | (refine Ev.cutP (P := Q0) (s0 := s0) (x := x) (by unfold x; exact rfl) ?_ (fun hx => ?_)) | skip) | with_reducible apply State.ev_sendGrant | with_reducible apply State.ev_modColl | with_reducible refine Ev.foldl _ (fun st a hst => ?_) _ _ ?_ | with_reducible refine Ev.foldlP _ (fun st a hst => ?_) _ _ ?_ | split

theorem State.ev_gateReady {Q0 : StatePart → Bool} (hp0 : Need Q0 [.col, .regs]) {s0 s : State} (ev : Ev Q0 s0 s) (no : Nat) : Ev Q0 s0 (State.gateReady s no) := by
  unfold State.gateReady
  repeat' first | with_reducible assumption | exact Need.sub hp0 rfl | ((try lift_lets -underBinder); intro x; first | (refine Ev.cut (P := Q0) (s0 := s0) (x := x) ?_ (fun hx => ?_); unfold x) | (refine Ev.cutP (P := Q0) (s0 := s0) (x := x) (by unfold x; exact rfl) ?_ (fun hx => ?_)) | skip) | with_reducible apply State.ev_modColl | with_reducible apply State.ev_bumpSat | split

theorem State.ev_foldGo {Q0 : StatePart → Bool} (hp0 : Need Q0 [.host, .steps, .mm, .faults, .log, .router, .rmt, .col, .regs, .out, .mem]) {s0 s : State} (ev : Ev Q0 s0 s) (no : Nat) (x2 : Nat) (x3 : Nat) : Ev Q0 s0 (State.foldGo s no x2 x3) := by
  induction x2 generalizing s x3 with
  | zero => unfold State.foldGo; repeat' first | with_reducible assumption | exact Need.sub hp0 rfl | ((try lift_lets -underBinder); intro x; first | (refine Ev.cut (P := Q0) (s0 := s0) (x := x) ?_ (fun hx => ?_); unfold x) | (refine Ev.cutP (P := Q0) (s0 := s0) (x := x) (by unfold x; exact rfl) ?_ (fun hx => ?_)) | skip) | with_reducible apply State.ev_modColl | with_reducible apply State.ev_collPut | with_reducible apply State.ev_gateReady | with_reducible apply State.ev_grantFold | with_reducible apply State.ev_progress | split
  | succ k ih =>
    unfold State.foldGo
    repeat' first | with_reducible assumption | exact Need.sub hp0 rfl | ((try lift_lets -underBinder); intro x; first | (refine Ev.cut (P := Q0) (s0 := s0) (x := x) ?_ (fun hx => ?_); unfold x) | (refine Ev.cutP (P := Q0) (s0 := s0) (x := x) (by unfold x; exact rfl) ?_ (fun hx => ?_)) | skip) | with_reducible apply State.ev_modColl | with_reducible apply State.ev_collPut | with_reducible apply State.ev_gateReady | with_reducible apply State.ev_grantFold | with_reducible apply State.ev_progress | split | apply ih

theorem State.ev_foldAll {Q0 : StatePart → Bool} (hp0 : Need Q0 [.host, .steps, .mm, .faults, .log, .router, .rmt, .col, .regs, .out, .mem]) {s0 s : State} (ev : Ev Q0 s0 s) (no : Nat) : Ev Q0 s0 (State.foldAll s no) := by
  unfold State.foldAll
  repeat' first | with_reducible assumption | exact Need.sub hp0 rfl | with_reducible apply State.ev_foldGo | split

theorem State.ev_collEntry {Q0 : StatePart → Bool} (hp0 : Need Q0 [.mm, .mem]) {s0 s : State} (ev : Ev Q0 s0 s) (c : Coll) (h : Nat) (rows : Nat) : Ev Q0 s0 (State.collEntry s c h rows) := by
  unfold State.collEntry
  repeat' first | with_reducible assumption | exact Need.sub hp0 rfl | with_reducible apply State.ev_st

theorem State.ev_collList {Q0 : StatePart → Bool} (hp0 : Need Q0 [.mm, .mem]) {s0 s : State} (ev : Ev Q0 s0 s) (c : Coll) (h : Nat) (entries : List (List Byte)) : Ev Q0 s0 (State.collList s c h entries) := by
  unfold State.collList
  repeat' first | with_reducible assumption | exact Need.sub hp0 rfl | with_reducible apply State.ev_st

theorem State.ev_collSelf {Q0 : StatePart → Bool} (hp0 : Need Q0 [.host, .steps, .mm, .faults, .log, .rmt, .col, .regs, .out, .mem]) {s0 s : State} (ev : Ev Q0 s0 s) (no : Nat) : Ev Q0 s0 (State.collSelf s no) := by
  unfold State.collSelf
  repeat' first | with_reducible assumption | exact Need.sub hp0 rfl | ((try lift_lets -underBinder); intro x; first | (refine Ev.cut (P := Q0) (s0 := s0) (x := x) ?_ (fun hx => ?_); unfold x) | (refine Ev.cutP (P := Q0) (s0 := s0) (x := x) (by unfold x; exact rfl) ?_ (fun hx => ?_)) | skip) | with_reducible apply State.ev_collPut | with_reducible apply State.ev_modColl | with_reducible apply State.ev_collList | with_reducible apply State.ev_collEntry | split

theorem State.ev_collTake {Q0 : StatePart → Bool} (hp0 : Need Q0 [.host, .steps, .mm, .faults, .log, .router, .traceLost, .rmt, .col, .regs, .out, .mem]) {s0 s : State} (ev : Ev Q0 s0 s) (no : Nat) (x2 : Nat) : Ev Q0 s0 (State.collTake s no x2) := by
  induction x2 generalizing s with
  | zero => unfold State.collTake; repeat' first | with_reducible assumption | exact Need.sub hp0 rfl | ((try lift_lets -underBinder); intro x; first | (refine Ev.cut (P := Q0) (s0 := s0) (x := x) ?_ (fun hx => ?_); unfold x) | (refine Ev.cutP (P := Q0) (s0 := s0) (x := x) (by unfold x; exact rfl) ?_ (fun hx => ?_)) | skip) | with_reducible apply State.ev_foldAll | with_reducible apply State.ev_collSelf | with_reducible apply State.ev_collFault | with_reducible apply State.ev_modColl | with_reducible apply State.ev_traceInst | with_reducible apply State.ev_modQueue | with_reducible apply State.ev_progress | split
  | succ k ih =>
    unfold State.collTake
    repeat' first | with_reducible assumption | exact Need.sub hp0 rfl | ((try lift_lets -underBinder); intro x; first | (refine Ev.cut (P := Q0) (s0 := s0) (x := x) ?_ (fun hx => ?_); unfold x) | (refine Ev.cutP (P := Q0) (s0 := s0) (x := x) (by unfold x; exact rfl) ?_ (fun hx => ?_)) | skip) | with_reducible apply State.ev_foldAll | with_reducible apply State.ev_collSelf | with_reducible apply State.ev_collFault | with_reducible apply State.ev_modColl | with_reducible apply State.ev_traceInst | with_reducible apply State.ev_modQueue | with_reducible apply State.ev_progress | split | apply ih

theorem State.ev_collRangeFault {Q0 : StatePart → Bool} (hp0 : Need Q0 [.host, .steps, .log, .router, .regs, .out]) {s0 s : State} (ev : Ev Q0 s0 s) (c : Coll) (f : Nat × Nat) : Ev Q0 s0 (State.collRangeFault s c f) := by
  unfold State.collRangeFault
  repeat' first | with_reducible assumption | exact Need.sub hp0 rfl | with_reducible apply State.ev_collFault | with_reducible apply State.ev_bumpSat | split

theorem State.ev_applyEarly {Q0 : StatePart → Bool} (hp0 : Need Q0 [.col]) {s0 s : State} (ev : Ev Q0 s0 s) (no : Nat) : Ev Q0 s0 (State.applyEarly s no) := by
  unfold State.applyEarly
  repeat' first | with_reducible assumption | exact Need.sub hp0 rfl | ((try lift_lets -underBinder); intro x; first | (refine Ev.cut (P := Q0) (s0 := s0) (x := x) ?_ (fun hx => ?_); unfold x) | (refine Ev.cutP (P := Q0) (s0 := s0) (x := x) (by unfold x; exact rfl) ?_ (fun hx => ?_)) | skip) | with_reducible apply State.ev_setCol | with_reducible apply State.ev_modColl | split

theorem State.ev_armed {Q0 : StatePart → Bool} (hp0 : Need Q0 [.steps, .mm, .router, .traceLost, .col, .regs, .mem]) {s0 s : State} (ev : Ev Q0 s0 s) (x1 : OpCtx) (c1 : Coll) : Ev Q0 s0 (State.armed s x1 c1) := by
  unfold State.armed
  repeat' first | with_reducible assumption | exact Need.sub hp0 rfl | ((try lift_lets -underBinder); intro x; first | (refine Ev.cut (P := Q0) (s0 := s0) (x := x) ?_ (fun hx => ?_); unfold x) | (refine Ev.cutP (P := Q0) (s0 := s0) (x := x) (by unfold x; exact rfl) ?_ (fun hx => ?_)) | skip) | with_reducible apply State.ev_setCol | with_reducible apply State.ev_bumpSat | with_reducible apply State.ev_applyEarly | with_reducible apply State.ev_grantFold | with_reducible apply State.ev_sendGrant | with_reducible apply State.ev_nextRepeat | with_reducible refine Ev.foldl _ (fun st a hst => ?_) _ _ ?_ | with_reducible refine Ev.foldlP _ (fun st a hst => ?_) _ _ ?_ | split

theorem State.ev_armColl {Q0 : StatePart → Bool} (hp0 : Need Q0 [.host, .steps, .mm, .log, .router, .traceLost, .col, .regs, .out, .mem]) {s0 s : State} (ev : Ev Q0 s0 s) (x1 : OpCtx) : Ev Q0 s0 (State.armColl s x1) := by
  unfold State.armColl
  repeat' first | with_reducible assumption | exact Need.sub hp0 rfl | ((try lift_lets -underBinder); intro x; first | (refine Ev.cut (P := Q0) (s0 := s0) (x := x) ?_ (fun hx => ?_); unfold x) | (refine Ev.cutP (P := Q0) (s0 := s0) (x := x) (by unfold x; exact rfl) ?_ (fun hx => ?_)) | skip) | with_reducible apply State.ev_opFault | with_reducible apply State.ev_collRangeFault | with_reducible apply State.ev_armed | split

theorem State.ev_runColl {Q0 : StatePart → Bool} (hp0 : Need Q0 [.host, .steps, .mm, .log, .router, .traceLost, .col, .regs, .out, .mem]) {s0 s : State} (ev : Ev Q0 s0 s) (slot : Nat) (core : Nat) : Ev Q0 s0 (State.runColl s slot core) := by
  unfold State.runColl
  repeat' first | with_reducible assumption | exact Need.sub hp0 rfl | ((try lift_lets -underBinder); intro x; first | (refine Ev.cut (P := Q0) (s0 := s0) (x := x) ?_ (fun hx => ?_); unfold x) | (refine Ev.cutP (P := Q0) (s0 := s0) (x := x) (by unfold x; exact rfl) ?_ (fun hx => ?_)) | skip) | with_reducible apply State.ev_startOp | with_reducible apply State.ev_armColl | with_reducible apply State.ev_setCol | split

theorem State.ev_beginData {Q0 : StatePart → Bool} (hp0 : Need Q0 [.host, .steps, .mm, .faults, .log, .router, .traceLost, .rmt, .col, .regs, .out, .mem]) {s0 s : State} (ev : Ev Q0 s0 s) (c : Coll) (t : Step) (area : Nat) : Ev Q0 s0 (State.beginData s c t area) := by
  unfold State.beginData
  repeat' first | with_reducible assumption | exact Need.sub hp0 rfl | ((try lift_lets -underBinder); intro x; first | (refine Ev.cut (P := Q0) (s0 := s0) (x := x) ?_ (fun hx => ?_); unfold x) | (refine Ev.cutP (P := Q0) (s0 := s0) (x := x) (by unfold x; exact rfl) ?_ (fun hx => ?_)) | skip) | with_reducible apply State.ev_modColl | with_reducible apply State.ev_gateReady | with_reducible apply State.ev_sendGrant | with_reducible apply State.ev_collTake | with_reducible refine Ev.foldl _ (fun st a hst => ?_) _ _ ?_ | with_reducible refine Ev.foldlP _ (fun st a hst => ?_) _ _ ?_ | split

theorem State.ev_startColl {Q0 : StatePart → Bool} (hp0 : Need Q0 [.host, .steps, .mm, .faults, .log, .router, .traceLost, .rmt, .col, .regs, .out, .mem]) {s0 s : State} (ev : Ev Q0 s0 s) (c : Coll) (t : Step) : Ev Q0 s0 (State.startColl s c t) := by
  unfold State.startColl
  repeat' first | with_reducible assumption | exact Need.sub hp0 rfl | ((try lift_lets -underBinder); intro x; first | (refine Ev.cut (P := Q0) (s0 := s0) (x := x) ?_ (fun hx => ?_); unfold x) | (refine Ev.cutP (P := Q0) (s0 := s0) (x := x) (by unfold x; exact rfl) ?_ (fun hx => ?_)) | skip) | with_reducible apply State.ev_beginData | with_reducible apply State.ev_collFault | with_reducible apply State.ev_progress | with_reducible apply State.ev_traceInst | with_reducible apply State.ev_modQueue | with_reducible apply State.ev_bumpSat | with_reducible apply State.ev_collRangeFault | split

theorem State.ev_sendChunk {Q0 : StatePart → Bool} (hp0 : Need Q0 [.steps, .router, .col, .regs]) {s0 s : State} (ev : Ev Q0 s0 s) (c : Coll) (t : Step) (h : Nat) (phase : Nat) (lo : Nat) (bytes : List Byte) (bad : Bool) : Ev Q0 s0 (State.sendChunk s c t h phase lo bytes bad) := by
  unfold State.sendChunk
  repeat' first | with_reducible assumption | exact Need.sub hp0 rfl | ((try lift_lets -underBinder); intro x; first | (refine Ev.cut (P := Q0) (s0 := s0) (x := x) ?_ (fun hx => ?_); unfold x) | (refine Ev.cutP (P := Q0) (s0 := s0) (x := x) (by unfold x; exact rfl) ?_ (fun hx => ?_)) | skip) | with_reducible apply State.ev_sendColl | with_reducible apply State.ev_modColl | with_reducible refine Ev.foldl _ (fun st a hst => ?_) _ _ ?_ | with_reducible refine Ev.foldlP _ (fun st a hst => ?_) _ _ ?_ | split

theorem State.ev_collMismatch {Q0 : StatePart → Bool} (hp0 : Need Q0 [.host, .steps, .log, .router, .regs, .out]) {s0 s : State} (ev : Ev Q0 s0 s) (slot : Nat) (f : Frame) : Ev Q0 s0 (State.collMismatch s slot f) := by
  unfold State.collMismatch
  repeat' first | with_reducible assumption | exact Need.sub hp0 rfl | with_reducible apply State.ev_stepFault | split

theorem State.ev_takeColl {Q0 : StatePart → Bool} (hp0 : Need Q0 [.router]) {s0 s : State} (ev : Ev Q0 s0 s) (src : Nat) (kind : Nat) {r : Frame} {sT : State} (e : (State.takeColl s src kind) = some (r, sT)) : Ev Q0 s0 sT := by
  unfold State.takeColl at e
  (try dsimp only at e)
  repeat' split at e
  all_goals cases e
  all_goals repeat' first | with_reducible assumption | exact Need.sub hp0 rfl | with_reducible apply State.ev_setRouter

theorem State.ev_keepEarly {Q0 : StatePart → Bool} (hp0 : Need Q0 [.col, .regs]) {s0 s : State} (ev : Ev Q0 s0 s) (f : Frame) : Ev Q0 s0 (State.keepEarly s f) := by
  unfold State.keepEarly
  repeat' first | with_reducible assumption | exact Need.sub hp0 rfl | ((try lift_lets -underBinder); intro x; first | (refine Ev.cut (P := Q0) (s0 := s0) (x := x) ?_ (fun hx => ?_); unfold x) | (refine Ev.cutP (P := Q0) (s0 := s0) (x := x) (by unfold x; exact rfl) ?_ (fun hx => ?_)) | skip) | with_reducible apply State.ev_setCol | with_reducible apply State.ev_bumpSat | split

theorem State.ev_advanceRx {Q0 : StatePart → Bool} (hp0 : Need Q0 [.steps, .router, .col, .regs]) {s0 s : State} (ev : Ev Q0 s0 s) (no : Nat) (phase : Nat) (h : Nat) : Ev Q0 s0 (State.advanceRx s no phase h) := by
  unfold State.advanceRx
  repeat' first | with_reducible assumption | exact Need.sub hp0 rfl | ((try lift_lets -underBinder); intro x; first | (refine Ev.cut (P := Q0) (s0 := s0) (x := x) ?_ (fun hx => ?_); unfold x) | (refine Ev.cutP (P := Q0) (s0 := s0) (x := x) (by unfold x; exact rfl) ?_ (fun hx => ?_)) | skip) | with_reducible apply State.ev_sendGrant | with_reducible apply State.ev_modColl | split

theorem State.ev_collHeaderArea {Q0 : StatePart → Bool} (hp0 : Need Q0 [.mm, .mem]) {s0 s : State} (ev : Ev Q0 s0 s) (c : Coll) : Ev Q0 s0 (State.collHeaderArea s c) := by
  unfold State.collHeaderArea
  repeat' first | with_reducible assumption | exact Need.sub hp0 rfl | ((try lift_lets -underBinder); intro x; first | (refine Ev.cut (P := Q0) (s0 := s0) (x := x) ?_ (fun hx => ?_); unfold x) | (refine Ev.cutP (P := Q0) (s0 := s0) (x := x) (by unfold x; exact rfl) ?_ (fun hx => ?_)) | skip) | with_reducible apply State.ev_st | with_reducible refine Ev.foldl _ (fun st a hst => ?_) _ _ ?_ | with_reducible refine Ev.foldlP _ (fun st a hst => ?_) _ _ ?_

theorem State.ev_collOpEnd {Q0 : StatePart → Bool} (hp0 : Need Q0 [.mm, .traceLost, .regs, .mem]) {s0 s : State} (ev : Ev Q0 s0 s) (c : Coll) : Ev Q0 s0 (State.collOpEnd s c) := by
  unfold State.collOpEnd
  repeat' first | with_reducible assumption | exact Need.sub hp0 rfl | with_reducible apply State.ev_traceInst | split

theorem execRun_ev {Q0 : StatePart → Bool} (hp0 : Need Q0 [.host, .steps, .mm, .log, .router, .traceLost, .col, .regs, .out, .mem]) {s0 s : State} (ev : Ev Q0 s0 s) (slot : StepIx) (core : LCore) : ∃ t, (execRun slot core s) = .next t ∧ Ev Q0 s0 t := by
  unfold execRun
  refine ⟨_, rfl, ?_⟩
  repeat' first | with_reducible assumption | exact Need.sub hp0 rfl | with_reducible apply State.ev_runColl

theorem execCollectSlotFree_ev {Q0 : StatePart → Bool} (hp0 : Need Q0 [.host, .steps, .mm, .log, .router, .traceLost, .col, .regs, .out, .mem]) {s0 s : State} (ev : Ev Q0 s0 s) (slot : StepIx) (seq : Fin 16) : ∃ t, (execCollectSlotFree slot seq s) = .next t ∧ Ev Q0 s0 t := by
  unfold execCollectSlotFree
  refine ⟨_, rfl, ?_⟩
  repeat' first | with_reducible assumption | exact Need.sub hp0 rfl | with_reducible apply State.ev_runColl | split

theorem execCollectDataStart_ev {Q0 : StatePart → Bool} (hp0 : Need Q0 [.host, .steps, .mm, .faults, .log, .router, .traceLost, .rmt, .col, .regs, .out, .mem]) {s0 s : State} (ev : Ev Q0 s0 s) (core : LCore) : ∃ t, (execCollectDataStart core s) = .next t ∧ Ev Q0 s0 t := by
  unfold execCollectDataStart
  refine ⟨_, rfl, ?_⟩
  repeat' first | with_reducible assumption | exact Need.sub hp0 rfl | with_reducible apply State.ev_startColl | split

theorem execCollectGateOpen_ev {Q0 : StatePart → Bool} (hp0 : Need Q0 [.col]) {s0 s : State} (ev : Ev Q0 s0 s) (core : LCore) : ∃ t, (execCollectGateOpen core s) = .next t ∧ Ev Q0 s0 t := by
  unfold execCollectGateOpen
  refine ⟨_, rfl, ?_⟩
  repeat' first | with_reducible assumption | exact Need.sub hp0 rfl | with_reducible apply State.ev_modColl | split

theorem execCollectChunkSend_ev {Q0 : StatePart → Bool} (hp0 : Need Q0 [.host, .steps, .mm, .faults, .log, .router, .rmt, .col, .regs, .out]) {s0 s : State} (ev : Ev Q0 s0 s) (core : LCore) : ∃ t, (execCollectChunkSend core s) = .next t ∧ Ev Q0 s0 t := by
  unfold execCollectChunkSend
  refine ⟨_, rfl, ?_⟩
  repeat' first | with_reducible assumption | exact Need.sub hp0 rfl | ((try lift_lets -underBinder); intro x; first | (refine Ev.cut (P := Q0) (s0 := s0) (x := x) ?_ (fun hx => ?_); unfold x) | (refine Ev.cutP (P := Q0) (s0 := s0) (x := x) (by unfold x; exact rfl) ?_ (fun hx => ?_)) | skip) | with_reducible apply State.ev_sendSizes | with_reducible apply State.ev_sendChunk | with_reducible apply State.ev_access | split

theorem execGrantReceive_ev {Q0 : StatePart → Bool} (hp0 : Need Q0 [.host, .steps, .log, .router, .col, .regs, .out]) {s0 s : State} (ev : Ev Q0 s0 s) (src : Endpoint) : ∃ t, (execGrantReceive src s) = .next t ∧ Ev Q0 s0 t := by
  unfold execGrantReceive
  refine ⟨_, rfl, ?_⟩
  repeat' first | with_reducible assumption | exact Need.sub hp0 rfl | ((try lift_lets -underBinder); intro x; first | (refine Ev.cut (P := Q0) (s0 := s0) (x := x) ?_ (fun hx => ?_); unfold x) | (refine Ev.cutP (P := Q0) (s0 := s0) (x := x) (by unfold x; exact rfl) ?_ (fun hx => ?_)) | skip) | with_reducible apply State.ev_bumpSat | with_reducible apply State.ev_collMismatch | with_reducible apply State.ev_keepEarly | with_reducible apply State.ev_progress | with_reducible apply State.ev_modColl | refine State.ev_takeColl (Need.sub hp0 rfl) ?_ _ _ (he.trans (by with_reducible assumption)) | with_reducible refine State.ev_takeColl (Need.sub hp0 rfl) ?_ _ _ (by with_reducible assumption) | split

theorem execCollectDataReceive_ev {Q0 : StatePart → Bool} (hp0 : Need Q0 [.host, .steps, .mm, .faults, .log, .router, .rmt, .col, .regs, .out, .mem]) {s0 s : State} (ev : Ev Q0 s0 s) (src : Endpoint) : ∃ t, (execCollectDataReceive src s) = .next t ∧ Ev Q0 s0 t := by
  unfold execCollectDataReceive
  refine ⟨_, rfl, ?_⟩
  repeat' first | with_reducible assumption | exact Need.sub hp0 rfl | ((try lift_lets -underBinder); intro x; first | (refine Ev.cut (P := Q0) (s0 := s0) (x := x) ?_ (fun hx => ?_); unfold x) | (refine Ev.cutP (P := Q0) (s0 := s0) (x := x) (by unfold x; exact rfl) ?_ (fun hx => ?_)) | skip) | with_reducible apply State.ev_bumpSat | with_reducible apply State.ev_collMismatch | with_reducible apply State.ev_progress | with_reducible apply State.ev_modColl | with_reducible apply State.ev_foldAll | with_reducible apply State.ev_collPut | with_reducible apply State.ev_advanceRx | refine State.ev_takeColl (Need.sub hp0 rfl) ?_ _ _ (he.trans (by with_reducible assumption)) | with_reducible refine State.ev_takeColl (Need.sub hp0 rfl) ?_ _ _ (by with_reducible assumption) | split

theorem execSizesReceive_ev {Q0 : StatePart → Bool} (hp0 : Need Q0 [.host, .steps, .mm, .log, .router, .col, .regs, .out, .mem]) {s0 s : State} (ev : Ev Q0 s0 s) (src : Endpoint) (entries : List DWord) : ∃ t, (execSizesReceive src entries s) = .next t ∧ Ev Q0 s0 t := by
  unfold execSizesReceive
  refine ⟨_, rfl, ?_⟩
  repeat' first | with_reducible assumption | exact Need.sub hp0 rfl | ((try lift_lets -underBinder); intro x; first | (refine Ev.cut (P := Q0) (s0 := s0) (x := x) ?_ (fun hx => ?_); unfold x) | (refine Ev.cutP (P := Q0) (s0 := s0) (x := x) (by unfold x; exact rfl) ?_ (fun hx => ?_)) | skip) | with_reducible apply State.ev_bumpSat | with_reducible apply State.ev_collMismatch | with_reducible apply State.ev_progress | with_reducible apply State.ev_modColl | with_reducible apply State.ev_collList | with_reducible apply State.ev_collEntry | with_reducible apply State.ev_sendGrant | refine State.ev_takeColl (Need.sub hp0 rfl) ?_ _ _ (he.trans (by with_reducible assumption)) | with_reducible refine State.ev_takeColl (Need.sub hp0 rfl) ?_ _ _ (by with_reducible assumption) | split

theorem execCollectResendTimeout_ev {Q0 : StatePart → Bool} (hp0 : Need Q0 [.steps, .router, .col, .regs]) {s0 s : State} (ev : Ev Q0 s0 s) (core : LCore) (node : Half) (rep : Byte) (peer : Half) : ∃ t, (execCollectResendTimeout core node rep peer s) = .next t ∧ Ev Q0 s0 t := by
  unfold execCollectResendTimeout
  refine ⟨_, rfl, ?_⟩
  repeat' first | with_reducible assumption | exact Need.sub hp0 rfl | ((try lift_lets -underBinder); intro x; first | (refine Ev.cut (P := Q0) (s0 := s0) (x := x) ?_ (fun hx => ?_); unfold x) | (refine Ev.cutP (P := Q0) (s0 := s0) (x := x) (by unfold x; exact rfl) ?_ (fun hx => ?_)) | skip) | with_reducible apply State.ev_bumpSat | with_reducible apply State.ev_sendGrant | with_reducible apply State.ev_sendSizes | with_reducible refine Ev.foldl _ (fun st a hst => ?_) _ _ ?_ | with_reducible refine Ev.foldlP _ (fun st a hst => ?_) _ _ ?_ | split

theorem execCollectComplete_ev {Q0 : StatePart → Bool} (hp0 : Need Q0 [.steps, .mm, .traceLost, .col, .regs, .mem]) {s0 s : State} (ev : Ev Q0 s0 s) (core : LCore) : ∃ t, (execCollectComplete core s) = .next t ∧ Ev Q0 s0 t := by
  unfold execCollectComplete
  refine ⟨_, rfl, ?_⟩
  repeat' first | with_reducible assumption | exact Need.sub hp0 rfl | ((try lift_lets -underBinder); intro x; first | (refine Ev.cut (P := Q0) (s0 := s0) (x := x) ?_ (fun hx => ?_); unfold x) | (refine Ev.cutP (P := Q0) (s0 := s0) (x := x) (by unfold x; exact rfl) ?_ (fun hx => ?_)) | skip) | with_reducible apply State.ev_collHeaderArea | with_reducible apply State.ev_setCol | with_reducible apply State.ev_progress | with_reducible apply State.ev_bumpWrap | with_reducible apply State.ev_modInst | with_reducible apply State.ev_collOpEnd | split

end Sys2Proof.Machine
end

