-- ==== Sys2Proof/Laws/EvFlow.lean ====
section
/-! SUPPORT. The operations of Flow.lean keep the relation Ev. -/

namespace Sys2Proof.Machine

open Sys2Proof

set_option linter.unusedVariables false

theorem State.ev_copyContexts {Q0 : StatePart → Bool} (hp0 : Need Q0 [.steps, .mm, .regs, .mem]) {s0 s : State} (ev : Ev Q0 s0 s) (i : Nat) : Ev Q0 s0 (State.copyContexts s i) := by
  unfold State.copyContexts
  repeat' first | with_reducible assumption | exact Need.sub hp0 rfl | ((try lift_lets -underBinder); intro x; first | (refine Ev.cut (P := Q0) (s0 := s0) (x := x) ?_ (fun hx => ?_); unfold x) | (refine Ev.cutP (P := Q0) (s0 := s0) (x := x) (by unfold x; exact rfl) ?_ (fun hx => ?_)) | skip) | with_reducible apply State.ev_putCtx | with_reducible apply State.ev_bumpSat | with_reducible apply State.ev_excludeStream | with_reducible apply State.ev_modStep | with_reducible refine Ev.foldl _ (fun st a hst => ?_) _ _ ?_ | with_reducible refine Ev.foldlP _ (fun st a hst => ?_) _ _ ?_ | split

theorem State.ev_stageContexts {Q0 : StatePart → Bool} (hp0 : Need Q0 [.mm, .mem]) {s0 s : State} (ev : Ev Q0 s0 s) (i : Nat) (n : Nat) : Ev Q0 s0 (State.stageContexts s i n) := by
  unfold State.stageContexts
  repeat' first | with_reducible assumption | exact Need.sub hp0 rfl | ((try lift_lets -underBinder); intro x; first | (refine Ev.cut (P := Q0) (s0 := s0) (x := x) ?_ (fun hx => ?_); unfold x) | (refine Ev.cutP (P := Q0) (s0 := s0) (x := x) (by unfold x; exact rfl) ?_ (fun hx => ?_)) | skip) | with_reducible apply State.ev_putCtx | with_reducible refine Ev.foldl _ (fun st a hst => ?_) _ _ ?_ | with_reducible refine Ev.foldlP _ (fun st a hst => ?_) _ _ ?_

theorem State.ev_enterRunning {Q0 : StatePart → Bool} (hp0 : Need Q0 [.host, .steps, .mm, .log, .streams, .router, .trs, .cbk, .traceLost, .rmt, .col, .cores, .regs, .out, .mem]) {s0 s : State} (ev : Ev Q0 s0 s) (i : Nat) (t : Step) (late : Bool) : Ev Q0 s0 (State.enterRunning s i t late) := by
  unfold State.enterRunning
  repeat' first | with_reducible assumption | exact Need.sub hp0 rfl | ((try lift_lets -underBinder); intro x; first | (refine Ev.cut (P := Q0) (s0 := s0) (x := x) ?_ (fun hx => ?_); unfold x) | (refine Ev.cutP (P := Q0) (s0 := s0) (x := x) (by unfold x; exact rfl) ?_ (fun hx => ?_)) | skip) | with_reducible apply State.ev_stepFault | with_reducible apply State.ev_setStep | with_reducible apply State.ev_abortPost | with_reducible apply State.ev_stageContexts | with_reducible apply State.ev_trace | with_reducible apply State.ev_modCore | with_reducible apply State.ev_stopTrestle | with_reducible refine Ev.foldl _ (fun st a hst => ?_) _ _ ?_ | with_reducible refine Ev.foldlP _ (fun st a hst => ?_) _ _ ?_ | split

theorem State.ev_coresIdle {Q0 : StatePart → Bool} (hp0 : Need Q0 [.cores]) {s0 s : State} (ev : Ev Q0 s0 s) (t : Step) : Ev Q0 s0 (State.coresIdle s t) := by
  unfold State.coresIdle
  repeat' first | with_reducible assumption | exact Need.sub hp0 rfl | with_reducible apply State.ev_modCore | with_reducible refine Ev.foldl _ (fun st a hst => ?_) _ _ ?_ | with_reducible refine Ev.foldlP _ (fun st a hst => ?_) _ _ ?_

theorem State.ev_prepare {Q0 : StatePart → Bool} (hp0 : Need Q0 [.host, .steps, .mm, .streams, .router, .traceLost, .rmt, .col, .cores, .regs, .out, .mem]) {s0 s : State} (ev : Ev Q0 s0 s) (i : Nat) (t : Step) : Ev Q0 s0 (State.prepare s i t) := by
  unfold State.prepare
  repeat' first | with_reducible assumption | exact Need.sub hp0 rfl | ((try lift_lets -underBinder); intro x; first | (refine Ev.cut (P := Q0) (s0 := s0) (x := x) ?_ (fun hx => ?_); unfold x) | (refine Ev.cutP (P := Q0) (s0 := s0) (x := x) (by unfold x; exact rfl) ?_ (fun hx => ?_)) | skip) | with_reducible apply State.ev_writeBackCtx | with_reducible apply State.ev_coresIdle | with_reducible apply State.ev_setStep | with_reducible apply State.ev_commitStep | with_reducible apply State.ev_sendCommit | with_reducible apply State.ev_recordReady | with_reducible refine Ev.foldl _ (fun st a hst => ?_) _ _ ?_ | with_reducible refine Ev.foldlP _ (fun st a hst => ?_) _ _ ?_ | split

theorem State.ev_clearCounters {Q0 : StatePart → Bool} (hp0 : Need Q0 [.regs]) {s0 s : State} (ev : Ev Q0 s0 s) (t : Step) : Ev Q0 s0 (State.clearCounters s t) := by
  unfold State.clearCounters
  repeat' first | with_reducible assumption | exact Need.sub hp0 rfl | ((try lift_lets -underBinder); intro x; first | (refine Ev.cut (P := Q0) (s0 := s0) (x := x) ?_ (fun hx => ?_); unfold x) | (refine Ev.cutP (P := Q0) (s0 := s0) (x := x) (by unfold x; exact rfl) ?_ (fun hx => ?_)) | skip) | with_reducible apply State.ev_setArrival | with_reducible refine Ev.foldl _ (fun st a hst => ?_) _ _ ?_ | with_reducible refine Ev.foldlP _ (fun st a hst => ?_) _ _ ?_ | split

theorem State.ev_hangRec {Q0 : StatePart → Bool} (hp0 : Need Q0 [.host, .log, .regs, .out]) {s0 s : State} (ev : Ev Q0 s0 s) (t : Step) (r : InstRun) (level : Nat) (since : Nat) : Ev Q0 s0 (State.hangRec s t r level since) := by
  unfold State.hangRec
  repeat' first | with_reducible assumption | exact Need.sub hp0 rfl | ((try lift_lets -underBinder); intro x; first | (refine Ev.cut (P := Q0) (s0 := s0) (x := x) ?_ (fun hx => ?_); unfold x) | (refine Ev.cutP (P := Q0) (s0 := s0) (x := x) (by unfold x; exact rfl) ?_ (fun hx => ?_)) | skip) | with_reducible apply State.ev_errRec

theorem execStreamCtxCopyDone_ev {Q0 : StatePart → Bool} (hp0 : Need Q0 [.steps, .mm, .regs, .mem]) {s0 s : State} (ev : Ev Q0 s0 s) (slot : StepIx) : ∃ t, (execStreamCtxCopyDone slot s) = .next t ∧ Ev Q0 s0 t := by
  unfold execStreamCtxCopyDone
  refine ⟨_, rfl, ?_⟩
  repeat' first | with_reducible assumption | exact Need.sub hp0 rfl | with_reducible apply State.ev_copyContexts | split

theorem execStepRun_ev {Q0 : StatePart → Bool} (hp0 : Need Q0 [.host, .steps, .mm, .log, .streams, .router, .trs, .cbk, .traceLost, .rmt, .col, .cores, .regs, .out, .mem]) {s0 s : State} (ev : Ev Q0 s0 s) (slot : StepIx) : ∃ t, (execStepRun slot s) = .next t ∧ Ev Q0 s0 t := by
  unfold execStepRun
  refine ⟨_, rfl, ?_⟩
  repeat' first | with_reducible assumption | exact Need.sub hp0 rfl | with_reducible apply State.ev_enterRunning | split

theorem execStartTimeReached_ev {Q0 : StatePart → Bool} (hp0 : Need Q0 [.host, .steps, .mm, .log, .streams, .router, .trs, .cbk, .traceLost, .rmt, .col, .cores, .regs, .out, .mem]) {s0 s : State} (ev : Ev Q0 s0 s) (slot : StepIx) : ∃ t, (execStartTimeReached slot s) = .next t ∧ Ev Q0 s0 t := by
  unfold execStartTimeReached
  refine ⟨_, rfl, ?_⟩
  repeat' first | with_reducible assumption | exact Need.sub hp0 rfl | with_reducible apply State.ev_enterRunning | with_reducible apply State.ev_modStep | split

theorem execTileEmit_ev {Q0 : StatePart → Bool} (hp0 : Need Q0 [.host, .steps, .mm, .log, .router, .traceLost, .regs, .out, .mem]) {s0 s : State} (ev : Ev Q0 s0 s) (slot : StepIx) (who : List (LCore × Byte)) : ∃ t, (execTileEmit slot who s) = .next t ∧ Ev Q0 s0 t := by
  unfold execTileEmit
  refine ⟨_, rfl, ?_⟩
  repeat' first | with_reducible assumption | exact Need.sub hp0 rfl | with_reducible apply State.ev_emitOne | with_reducible refine Ev.foldl _ (fun st a hst => ?_) _ _ ?_ | with_reducible refine Ev.foldlP _ (fun st a hst => ?_) _ _ ?_

theorem execTileArrive_ev {Q0 : StatePart → Bool} (hp0 : Need Q0 [.host, .steps, .mm, .faults, .log, .router, .traceLost, .rmt, .col, .regs, .out, .mem]) {s0 s : State} (ev : Ev Q0 s0 s) (slot : StepIx) (queue : BitVec 12) : ∃ t, (execTileArrive slot queue s) = .next t ∧ Ev Q0 s0 t := by
  unfold execTileArrive
  refine ⟨_, rfl, ?_⟩
  repeat' first | with_reducible assumption | exact Need.sub hp0 rfl | ((try lift_lets -underBinder); intro x; first | (refine Ev.cut (P := Q0) (s0 := s0) (x := x) ?_ (fun hx => ?_); unfold x) | (refine Ev.cutP (P := Q0) (s0 := s0) (x := x) (by unfold x; exact rfl) ?_ (fun hx => ?_)) | skip) | with_reducible apply State.ev_modQueue | with_reducible apply State.ev_stepFault | with_reducible apply State.ev_collTake | split

theorem execSlotRelease_ev {Q0 : StatePart → Bool} (hp0 : Need Q0 [.steps, .router, .rmt]) {s0 s : State} (ev : Ev Q0 s0 s) (slot : StepIx) (queue : BitVec 12) : ∃ t, (execSlotRelease slot queue s) = .next t ∧ Ev Q0 s0 t := by
  unfold execSlotRelease
  refine ⟨_, rfl, ?_⟩
  repeat' first | with_reducible assumption | exact Need.sub hp0 rfl | ((try lift_lets -underBinder); intro x; first | (refine Ev.cut (P := Q0) (s0 := s0) (x := x) ?_ (fun hx => ?_); unfold x) | (refine Ev.cutP (P := Q0) (s0 := s0) (x := x) (by unfold x; exact rfl) ?_ (fun hx => ?_)) | skip) | with_reducible apply State.ev_modQueue | with_reducible apply State.ev_grantMore | split

theorem execCreditArrive_ev {Q0 : StatePart → Bool} (hp0 : Need Q0 [.steps]) {s0 s : State} (ev : Ev Q0 s0 s) (slot : StepIx) (queue : BitVec 12) : ∃ t, (execCreditArrive slot queue s) = .next t ∧ Ev Q0 s0 t := by
  unfold execCreditArrive
  refine ⟨_, rfl, ?_⟩
  repeat' first | with_reducible assumption | exact Need.sub hp0 rfl | ((try lift_lets -underBinder); intro x; first | (refine Ev.cut (P := Q0) (s0 := s0) (x := x) ?_ (fun hx => ?_); unfold x) | (refine Ev.cutP (P := Q0) (s0 := s0) (x := x) (by unfold x; exact rfl) ?_ (fun hx => ?_)) | skip) | with_reducible apply State.ev_modQueue | split

theorem execEndOp_ev {Q0 : StatePart → Bool} (hp0 : Need Q0 [.steps, .mm, .traceLost, .regs, .mem]) {s0 s : State} (ev : Ev Q0 s0 s) (slot : StepIx) (core : LCore) (inst2 : Byte) : ∃ t, (execEndOp slot core inst2 s) = .next t ∧ Ev Q0 s0 t := by
  unfold execEndOp
  refine ⟨_, rfl, ?_⟩
  repeat' first | with_reducible assumption | exact Need.sub hp0 rfl | with_reducible apply State.ev_modStep | with_reducible apply State.ev_modInst | with_reducible apply State.ev_unstall | split

theorem execStepDrainEnd_ev {Q0 : StatePart → Bool} (hp0 : Need Q0 [.host, .steps, .mm, .log, .streams, .router, .traceLost, .rmt, .col, .cores, .regs, .out, .mem]) {s0 s : State} (ev : Ev Q0 s0 s) (slot : StepIx) : ∃ t, (execStepDrainEnd slot s) = .next t ∧ Ev Q0 s0 t := by
  unfold execStepDrainEnd
  refine ⟨_, rfl, ?_⟩
  repeat' first | with_reducible assumption | exact Need.sub hp0 rfl | with_reducible apply State.ev_stepFault | with_reducible apply State.ev_prepare | split

theorem execStepFault_ev {Q0 : StatePart → Bool} (hp0 : Need Q0 [.host, .steps, .log, .router, .regs, .out]) {s0 s : State} (ev : Ev Q0 s0 s) (slot : StepIx) (cause : Half) (core : LCore) (inst3 : Byte) : ∃ t, (execStepFault slot cause core inst3 s) = .next t ∧ Ev Q0 s0 t := by
  unfold execStepFault
  refine ⟨_, rfl, ?_⟩
  repeat' first | with_reducible assumption | exact Need.sub hp0 rfl | with_reducible apply State.ev_stepFault | split

theorem execAbortQuiesceDone_ev {Q0 : StatePart → Bool} (hp0 : Need Q0 [.host, .steps, .mm, .streams, .trs, .cbk, .traceLost, .rmt, .col, .cores, .regs, .out, .mem]) {s0 s : State} (ev : Ev Q0 s0 s) (slot : StepIx) : ∃ t, (execAbortQuiesceDone slot s) = .next t ∧ Ev Q0 s0 t := by
  unfold execAbortQuiesceDone
  refine ⟨_, rfl, ?_⟩
  repeat' first | with_reducible assumption | exact Need.sub hp0 rfl | ((try lift_lets -underBinder); intro x; first | (refine Ev.cut (P := Q0) (s0 := s0) (x := x) ?_ (fun hx => ?_); unfold x) | (refine Ev.cutP (P := Q0) (s0 := s0) (x := x) (by unfold x; exact rfl) ?_ (fun hx => ?_)) | skip) | with_reducible apply State.ev_modCore | with_reducible apply State.ev_stopTrestle | with_reducible apply State.ev_abortPost | with_reducible apply State.ev_dropColls | with_reducible apply State.ev_clearCounters | with_reducible refine Ev.foldl _ (fun st a hst => ?_) _ _ ?_ | with_reducible refine Ev.foldlP _ (fun st a hst => ?_) _ _ ?_ | split

theorem execAbortStopTimeout_ev {Q0 : StatePart → Bool} (hp0 : Need Q0 [.host, .steps, .mm, .faults, .log, .streams, .router, .rmt, .col, .cores, .ports, .sec, .regs, .out, .freeCtr, .mem]) {s0 s : State} (ev : Ev Q0 s0 s) (slot : StepIx) (core : LCore) (inst2 : Byte) : ∃ t, (execAbortStopTimeout slot core inst2 s) = .next t ∧ Ev Q0 s0 t := by
  unfold execAbortStopTimeout
  refine ⟨_, rfl, ?_⟩
  repeat' first | with_reducible assumption | exact Need.sub hp0 rfl | ((try lift_lets -underBinder); intro x; first | (refine Ev.cut (P := Q0) (s0 := s0) (x := x) ?_ (fun hx => ?_); unfold x) | (refine Ev.cutP (P := Q0) (s0 := s0) (x := x) (by unfold x; exact rfl) ?_ (fun hx => ?_)) | skip) | with_reducible apply State.ev_cancelOnFault | with_reducible apply State.ev_hangRec | with_reducible apply State.ev_markFaulted | with_reducible apply State.ev_escalate | with_reducible apply State.ev_startReset | with_reducible apply State.ev_openWindow | split

theorem execDeadlineExpire_ev {Q0 : StatePart → Bool} (hp0 : Need Q0 [.host, .steps, .log, .router, .regs, .out]) {s0 s : State} (ev : Ev Q0 s0 s) (slot : StepIx) : ∃ t, (execDeadlineExpire slot s) = .next t ∧ Ev Q0 s0 t := by
  unfold execDeadlineExpire
  refine ⟨_, rfl, ?_⟩
  repeat' first | with_reducible assumption | exact Need.sub hp0 rfl | with_reducible apply State.ev_stepFault | with_reducible apply State.ev_propose | split

theorem execInDoubtTimeout_ev {Q0 : StatePart → Bool} (hp0 : Need Q0 [.host, .steps, .regs, .out]) {s0 s : State} (ev : Ev Q0 s0 s) (slot : StepIx) : ∃ t, (execInDoubtTimeout slot s) = .next t ∧ Ev Q0 s0 t := by
  unfold execInDoubtTimeout
  refine ⟨_, rfl, ?_⟩
  repeat' first | with_reducible assumption | exact Need.sub hp0 rfl | with_reducible apply State.ev_enterInDoubt | split

theorem execNoProgressTimeout_ev {Q0 : StatePart → Bool} (hp0 : Need Q0 [.host, .steps, .mm, .faults, .log, .streams, .router, .rmt, .col, .cores, .ports, .sec, .regs, .out, .freeCtr, .mem]) {s0 s : State} (ev : Ev Q0 s0 s) (slot : StepIx) (core : LCore) (inst2 : Byte) : ∃ t, (execNoProgressTimeout slot core inst2 s) = .next t ∧ Ev Q0 s0 t := by
  unfold execNoProgressTimeout
  refine ⟨_, rfl, ?_⟩
  repeat' first | with_reducible assumption | exact Need.sub hp0 rfl | ((try lift_lets -underBinder); intro x; first | (refine Ev.cut (P := Q0) (s0 := s0) (x := x) ?_ (fun hx => ?_); unfold x) | (refine Ev.cutP (P := Q0) (s0 := s0) (x := x) (by unfold x; exact rfl) ?_ (fun hx => ?_)) | skip) | with_reducible apply State.ev_bumpSat | with_reducible apply State.ev_hangRec | with_reducible apply State.ev_faultCall | with_reducible apply State.ev_stepFault | split

end Sys2Proof.Machine
end

