-- ==== Sys2Proof/Laws/EvCommit.lean ====
section
/-! SUPPORT. The operations of Commit.lean keep the relation Ev. -/

namespace Sys2Proof.Machine

open Sys2Proof

set_option linter.unusedVariables false

theorem State.ev_badCommit {Q0 : StatePart → Bool} (hp0 : Need Q0 [.regs]) {s0 s : State} (ev : Ev Q0 s0 s)  : Ev Q0 s0 (State.badCommit s) := by
  unfold State.badCommit
  repeat' first | with_reducible assumption | exact Need.sub hp0 rfl | with_reducible apply State.ev_bumpSat

theorem State.ev_takeCommit {Q0 : StatePart → Bool} (hp0 : Need Q0 [.router, .regs]) {s0 s : State} (ev : Ev Q0 s0 s) (typ : Nat) (src : Nat) (coordOnly : Bool) (use : State → CommitCell → Nat → State) (huse : ∀ x0 x1 x2, Ev Q0 s0 x0 → Ev Q0 s0 (use x0 x1 x2)) : Ev Q0 s0 (State.takeCommit s typ src coordOnly use) := by
  unfold State.takeCommit
  repeat' first | with_reducible assumption | exact Need.sub hp0 rfl | ((try lift_lets -underBinder); intro x; first | (refine Ev.cut (P := Q0) (s0 := s0) (x := x) ?_ (fun hx => ?_); unfold x) | (refine Ev.cutP (P := Q0) (s0 := s0) (x := x) (by unfold x; exact rfl) ?_ (fun hx => ?_)) | skip) | with_reducible apply State.ev_badCommit | refine State.ev_takeFrame (Need.sub hp0 rfl) ?_ _ _ (he.trans (by with_reducible assumption)) | with_reducible refine State.ev_takeFrame (Need.sub hp0 rfl) ?_ _ _ (by with_reducible assumption) | with_reducible apply huse | split

theorem State.ev_keepAbort {Q0 : StatePart → Bool} (hp0 : Need Q0 [.steps, .regs]) {s0 s : State} (ev : Ev Q0 s0 s) (c : CommitCell) : Ev Q0 s0 (State.keepAbort s c) := by
  unfold State.keepAbort
  repeat' first | with_reducible assumption | exact Need.sub hp0 rfl | ((try lift_lets -underBinder); intro x; first | (refine Ev.cut (P := Q0) (s0 := s0) (x := x) ?_ (fun hx => ?_); unfold x) | (refine Ev.cutP (P := Q0) (s0 := s0) (x := x) (by unfold x; exact rfl) ?_ (fun hx => ?_)) | skip) | with_reducible apply State.ev_bumpSat | split | with_reducible apply Ev.upd | with_reducible apply Ev.updOut | exact Or.inl (Need.has hp0 rfl) | with_reducible exact Or.inr rfl | exact Need.has hp0 rfl | with_reducible rfl

theorem State.ev_sendDecisions {Q0 : StatePart → Bool} (hp0 : Need Q0 [.router]) {s0 s : State} (ev : Ev Q0 s0 s) (slice : Nat) (seq : Nat) (attempt : Nat) (d : Decision) : Ev Q0 s0 (State.sendDecisions s slice seq attempt d) := by
  unfold State.sendDecisions
  repeat' first | with_reducible assumption | exact Need.sub hp0 rfl | with_reducible apply State.ev_sendCommit | with_reducible refine Ev.foldl _ (fun st a hst => ?_) _ _ ?_ | with_reducible refine Ev.foldlP _ (fun st a hst => ?_) _ _ ?_

theorem State.ev_takeOver {Q0 : StatePart → Bool} (hp0 : Need Q0 [.host, .steps, .mm, .streams, .router, .traceLost, .rmt, .col, .cores, .regs, .out, .mem]) {s0 s : State} (ev : Ev Q0 s0 s) (i : Nat) (t : Step) (commit : Bool) : Ev Q0 s0 (State.takeOver s i t commit) := by
  unfold State.takeOver
  repeat' first | with_reducible assumption | exact Need.sub hp0 rfl | ((try lift_lets -underBinder); intro x; first | (refine Ev.cut (P := Q0) (s0 := s0) (x := x) ?_ (fun hx => ?_); unfold x) | (refine Ev.cutP (P := Q0) (s0 := s0) (x := x) (by unfold x; exact rfl) ?_ (fun hx => ?_)) | skip) | with_reducible apply State.ev_applyDecision | with_reducible apply State.ev_sendDecisions | with_reducible apply State.ev_bumpSat | with_reducible apply State.ev_setCoord | split

theorem State.ev_contradicts {Q0 : StatePart → Bool} (hp0 : Need Q0 [.host, .log, .regs, .out]) {s0 s : State} (ev : Ev Q0 s0 s) (c : CommitCell) (src : Nat) (fid : Option Nat) : Ev Q0 s0 (State.contradicts s c src fid) := by
  unfold State.contradicts
  repeat' first | with_reducible assumption | exact Need.sub hp0 rfl | with_reducible apply State.ev_errRec | with_reducible apply State.ev_badCommit

theorem execReadyReceive_ev {Q0 : StatePart → Bool} (hp0 : Need Q0 [.steps, .router, .regs]) {s0 s : State} (ev : Ev Q0 s0 s) (src : Endpoint) : ∃ t, (execReadyReceive src s) = .next t ∧ Ev Q0 s0 t := by
  unfold execReadyReceive
  refine ⟨_, rfl, ?_⟩
  repeat' first | with_reducible assumption | exact Need.sub hp0 rfl | ((try lift_lets -underBinder); intro x; (try dsimp -zeta -proj only); first | (refine Ev.cut (P := Q0) (s0 := s0) (x := x) ?_ (fun hx => ?_); unfold x) | (refine Ev.cutP (P := Q0) (s0 := s0) (x := x) (by unfold x; exact rfl) ?_ (fun hx => ?_)) | skip) | with_reducible apply State.ev_takeCommit | with_reducible apply State.ev_recordReady | with_reducible apply State.ev_badCommit | split

theorem execDecideReceive_ev {Q0 : StatePart → Bool} (hp0 : Need Q0 [.steps, .router, .regs]) {s0 s : State} (ev : Ev Q0 s0 s) (src : Endpoint) : ∃ t, (execDecideReceive src s) = .next t ∧ Ev Q0 s0 t := by
  unfold execDecideReceive
  refine ⟨_, rfl, ?_⟩
  repeat' first | with_reducible assumption | exact Need.sub hp0 rfl | ((try lift_lets -underBinder); intro x; (try dsimp -zeta -proj only); first | (refine Ev.cut (P := Q0) (s0 := s0) (x := x) ?_ (fun hx => ?_); unfold x) | (refine Ev.cutP (P := Q0) (s0 := s0) (x := x) (by unfold x; exact rfl) ?_ (fun hx => ?_)) | skip) | with_reducible apply State.ev_takeCommit | with_reducible apply State.ev_badCommit | with_reducible apply State.ev_sendCommit | with_reducible apply State.ev_setCoord | split

theorem execDecideAckReceive_ev {Q0 : StatePart → Bool} (hp0 : Need Q0 [.host, .steps, .mm, .streams, .router, .traceLost, .rmt, .col, .cores, .regs, .out, .mem]) {s0 s : State} (ev : Ev Q0 s0 s) (src : Endpoint) : ∃ t, (execDecideAckReceive src s) = .next t ∧ Ev Q0 s0 t := by
  unfold execDecideAckReceive
  refine ⟨_, rfl, ?_⟩
  repeat' first | with_reducible assumption | exact Need.sub hp0 rfl | ((try lift_lets -underBinder); intro x; (try dsimp -zeta -proj only); first | (refine Ev.cut (P := Q0) (s0 := s0) (x := x) ?_ (fun hx => ?_); unfold x) | (refine Ev.cutP (P := Q0) (s0 := s0) (x := x) (by unfold x; exact rfl) ?_ (fun hx => ?_)) | skip) | with_reducible apply State.ev_takeCommit | with_reducible apply State.ev_badCommit | with_reducible apply State.ev_sendDecisions | with_reducible apply State.ev_setCoord | with_reducible apply State.ev_applyDecision | split

theorem execDecideAckTimeout_ev {Q0 : StatePart → Bool} (hp0 : Need Q0 [.host, .steps, .regs, .out]) {s0 s : State} (ev : Ev Q0 s0 s) (slice : Half) (seq : BitVec 48) (attempt : Fin 16) : ∃ t, (execDecideAckTimeout slice seq attempt s) = .next t ∧ Ev Q0 s0 t := by
  unfold execDecideAckTimeout
  refine ⟨_, rfl, ?_⟩
  repeat' first | with_reducible assumption | exact Need.sub hp0 rfl | ((try lift_lets -underBinder); intro x; first | (refine Ev.cut (P := Q0) (s0 := s0) (x := x) ?_ (fun hx => ?_); unfold x) | (refine Ev.cutP (P := Q0) (s0 := s0) (x := x) (by unfold x; exact rfl) ?_ (fun hx => ?_)) | skip) | with_reducible apply State.ev_setCoord | with_reducible apply State.ev_enterInDoubt | split

theorem execTakeoverCommitTimeout_ev {Q0 : StatePart → Bool} (hp0 : Need Q0 [.host, .steps, .mm, .streams, .router, .traceLost, .rmt, .col, .cores, .regs, .out, .mem]) {s0 s : State} (ev : Ev Q0 s0 s) (slot : StepIx) : ∃ t, (execTakeoverCommitTimeout slot s) = .next t ∧ Ev Q0 s0 t := by
  unfold execTakeoverCommitTimeout
  refine ⟨_, rfl, ?_⟩
  repeat' first | with_reducible assumption | exact Need.sub hp0 rfl | ((try lift_lets -underBinder); intro x; first | (refine Ev.cut (P := Q0) (s0 := s0) (x := x) ?_ (fun hx => ?_); unfold x) | (refine Ev.cutP (P := Q0) (s0 := s0) (x := x) (by unfold x; exact rfl) ?_ (fun hx => ?_)) | skip) | with_reducible apply State.ev_takeOver | split

theorem execTakeoverAbortTimeout_ev {Q0 : StatePart → Bool} (hp0 : Need Q0 [.host, .steps, .mm, .streams, .router, .traceLost, .rmt, .col, .cores, .regs, .out, .mem]) {s0 s : State} (ev : Ev Q0 s0 s) (slot : StepIx) : ∃ t, (execTakeoverAbortTimeout slot s) = .next t ∧ Ev Q0 s0 t := by
  unfold execTakeoverAbortTimeout
  refine ⟨_, rfl, ?_⟩
  repeat' first | with_reducible assumption | exact Need.sub hp0 rfl | ((try lift_lets -underBinder); intro x; first | (refine Ev.cut (P := Q0) (s0 := s0) (x := x) ?_ (fun hx => ?_); unfold x) | (refine Ev.cutP (P := Q0) (s0 := s0) (x := x) (by unfold x; exact rfl) ?_ (fun hx => ?_)) | skip) | with_reducible apply State.ev_takeOver | split

theorem execDecisionReceive_ev {Q0 : StatePart → Bool} (hp0 : Need Q0 [.host, .steps, .mm, .log, .streams, .router, .traceLost, .rmt, .col, .cores, .regs, .out, .mem]) {s0 s : State} (ev : Ev Q0 s0 s) (src : Endpoint) : ∃ t, (execDecisionReceive src s) = .next t ∧ Ev Q0 s0 t := by
  unfold execDecisionReceive
  refine ⟨_, rfl, ?_⟩
  repeat' first | with_reducible assumption | exact Need.sub hp0 rfl | ((try lift_lets -underBinder); intro x; (try dsimp -zeta -proj only); first | (refine Ev.cut (P := Q0) (s0 := s0) (x := x) ?_ (fun hx => ?_); unfold x) | (refine Ev.cutP (P := Q0) (s0 := s0) (x := x) (by unfold x; exact rfl) ?_ (fun hx => ?_)) | skip) | with_reducible apply State.ev_takeCommit | with_reducible apply State.ev_contradicts | with_reducible apply State.ev_applyDecision | with_reducible apply State.ev_keepAbort | split

theorem execAbortCellReceive_ev {Q0 : StatePart → Bool} (hp0 : Need Q0 [.host, .steps, .mm, .streams, .router, .traceLost, .rmt, .col, .cores, .regs, .out, .mem]) {s0 s : State} (ev : Ev Q0 s0 s) (src : Endpoint) : ∃ t, (execAbortCellReceive src s) = .next t ∧ Ev Q0 s0 t := by
  unfold execAbortCellReceive
  refine ⟨_, rfl, ?_⟩
  repeat' first | with_reducible assumption | exact Need.sub hp0 rfl | ((try lift_lets -underBinder); intro x; (try dsimp -zeta -proj only); first | (refine Ev.cut (P := Q0) (s0 := s0) (x := x) ?_ (fun hx => ?_); unfold x) | (refine Ev.cutP (P := Q0) (s0 := s0) (x := x) (by unfold x; exact rfl) ?_ (fun hx => ?_)) | skip) | with_reducible apply State.ev_takeCommit | with_reducible apply State.ev_abortRemote | with_reducible apply State.ev_keepAbort | with_reducible apply State.ev_propose | split

end Sys2Proof.Machine
end

