-- ==== Sys2Proof/Laws/EvSecurity.lean ====
section
/-! SUPPORT. The operations of Security.lean keep the relation Ev. -/

namespace Sys2Proof.Machine

open Sys2Proof

set_option linter.unusedVariables false

theorem State.ev_setSec {Q0 : StatePart → Bool} (hp0 : Need Q0 [.sec]) {s0 s : State} (ev : Ev Q0 s0 s) (c : SecSt) : Ev Q0 s0 (State.setSec s c) := by
  unfold State.setSec
  repeat' first | with_reducible assumption | exact Need.sub hp0 rfl | with_reducible apply Ev.upd | with_reducible apply Ev.updOut | exact Or.inl (Need.has hp0 rfl) | with_reducible exact Or.inr rfl | exact Need.has hp0 rfl | with_reducible rfl

theorem State.ev_setSpdm {Q0 : StatePart → Bool} (hp0 : Need Q0 [.sec]) {s0 s : State} (ev : Ev Q0 s0 s) (ch : Nat) (n : Nat) : Ev Q0 s0 (State.setSpdm s ch n) := by
  unfold State.setSpdm
  repeat' first | with_reducible assumption | exact Need.sub hp0 rfl | ((try lift_lets -underBinder); intro x; first | (refine Ev.cut (P := Q0) (s0 := s0) (x := x) ?_ (fun hx => ?_); unfold x) | (refine Ev.cutP (P := Q0) (s0 := s0) (x := x) (by unfold x; exact rfl) ?_ (fun hx => ?_)) | skip) | with_reducible apply State.ev_setSec

theorem State.ev_answer {Q0 : StatePart → Bool} (hp0 : Need Q0 [.out]) {s0 s : State} (ev : Ev Q0 s0 s) (ch : Nat) (a : Nat × List Byte) : Ev Q0 s0 (State.answer s ch a) := by
  unfold State.answer
  repeat' first | with_reducible assumption | exact Need.sub hp0 rfl | with_reducible apply State.ev_emit

theorem State.ev_spdmReq {Q0 : StatePart → Bool} (hp0 : Need Q0 [.out]) {s0 s : State} (ev : Ev Q0 s0 s) (ch : Nat) (need : Nat) (k : State → State) (hk : ∀ x0, Ev Q0 s0 x0 → Ev Q0 s0 (k x0)) : Ev Q0 s0 (State.spdmReq s ch need k) := by
  unfold State.spdmReq
  repeat' first | with_reducible assumption | exact Need.sub hp0 rfl | with_reducible apply State.ev_answer | with_reducible apply hk | split

theorem State.ev_modSession {Q0 : StatePart → Bool} (hp0 : Need Q0 [.sec]) {s0 s : State} (ev : Ev Q0 s0 s) (id : Nat) (k : SpdmSession → SpdmSession) : Ev Q0 s0 (State.modSession s id k) := by
  unfold State.modSession
  repeat' first | with_reducible assumption | exact Need.sub hp0 rfl | ((try lift_lets -underBinder); intro x; first | (refine Ev.cut (P := Q0) (s0 := s0) (x := x) ?_ (fun hx => ?_); unfold x) | (refine Ev.cutP (P := Q0) (s0 := s0) (x := x) (by unfold x; exact rfl) ?_ (fun hx => ?_)) | skip) | with_reducible apply State.ev_setSec

theorem State.ev_dropSession {Q0 : StatePart → Bool} (hp0 : Need Q0 [.sec]) {s0 s : State} (ev : Ev Q0 s0 s) (id : Nat) : Ev Q0 s0 (State.dropSession s id) := by
  unfold State.dropSession
  repeat' first | with_reducible assumption | exact Need.sub hp0 rfl | ((try lift_lets -underBinder); intro x; first | (refine Ev.cut (P := Q0) (s0 := s0) (x := x) ?_ (fun hx => ?_); unfold x) | (refine Ev.cutP (P := Q0) (s0 := s0) (x := x) (by unfold x; exact rfl) ?_ (fun hx => ?_)) | skip) | with_reducible apply State.ev_setSec

theorem State.ev_sessionReq {Q0 : StatePart → Bool} (hp0 : Need Q0 [.out]) {s0 s : State} (ev : Ev Q0 s0 s) (ch : Nat) (id : Nat) (open' : Bool) (k : State → State) (hk : ∀ x0, Ev Q0 s0 x0 → Ev Q0 s0 (k x0)) : Ev Q0 s0 (State.sessionReq s ch id open' k) := by
  unfold State.sessionReq
  repeat' first | with_reducible assumption | exact Need.sub hp0 rfl | with_reducible apply State.ev_answer | with_reducible apply hk | split

theorem State.ev_showOwner {Q0 : StatePart → Bool} (hp0 : Need Q0 [.regs]) {s0 s : State} (ev : Ev Q0 s0 s)  : Ev Q0 s0 (State.showOwner s) := by
  unfold State.showOwner
  repeat' first | with_reducible assumption | exact Need.sub hp0 rfl | with_reducible apply State.ev_setF | split

theorem State.ev_ownerBind {Q0 : StatePart → Bool} (hp0 : Need Q0 [.host, .log, .sec, .regs, .out]) {s0 s : State} (ev : Ev Q0 s0 s) (data : Option (List Byte)) (f : InFlight) : Ev Q0 s0 (State.ownerBind s data f) := by
  unfold State.ownerBind
  repeat' first | with_reducible assumption | exact Need.sub hp0 rfl | ((try lift_lets -underBinder); intro x; first | (refine Ev.cut (P := Q0) (s0 := s0) (x := x) ?_ (fun hx => ?_); unfold x) | (refine Ev.cutP (P := Q0) (s0 := s0) (x := x) (by unfold x; exact rfl) ?_ (fun hx => ?_)) | skip) | with_reducible apply State.ev_finish | with_reducible apply State.ev_hostGet | with_reducible apply State.ev_secRec | with_reducible apply State.ev_showOwner | with_reducible apply State.ev_setSec | with_reducible refine State.ev_hostGet_eq (Need.sub hp0 rfl) ?_ _ _ _ _ (by with_reducible assumption) | split

theorem State.ev_ownerRevoke {Q0 : StatePart → Bool} (hp0 : Need Q0 [.host, .log, .sec, .regs, .out]) {s0 s : State} (ev : Ev Q0 s0 s) (f : InFlight) : Ev Q0 s0 (State.ownerRevoke s f) := by
  unfold State.ownerRevoke
  repeat' first | with_reducible assumption | exact Need.sub hp0 rfl | ((try lift_lets -underBinder); intro x; first | (refine Ev.cut (P := Q0) (s0 := s0) (x := x) ?_ (fun hx => ?_); unfold x) | (refine Ev.cutP (P := Q0) (s0 := s0) (x := x) (by unfold x; exact rfl) ?_ (fun hx => ?_)) | skip) | with_reducible apply State.ev_finish | with_reducible apply State.ev_secRec | with_reducible apply State.ev_showOwner | with_reducible apply State.ev_setSec | split

theorem State.ev_svnAdvance {Q0 : StatePart → Bool} (hp0 : Need Q0 [.host, .regs, .out]) {s0 s : State} (ev : Ev Q0 s0 s) (f : InFlight) : Ev Q0 s0 (State.svnAdvance s f) := by
  unfold State.svnAdvance
  repeat' first | with_reducible assumption | exact Need.sub hp0 rfl | ((try lift_lets -underBinder); intro x; first | (refine Ev.cut (P := Q0) (s0 := s0) (x := x) ?_ (fun hx => ?_); unfold x) | (refine Ev.cutP (P := Q0) (s0 := s0) (x := x) (by unfold x; exact rfl) ?_ (fun hx => ?_)) | skip) | with_reducible apply State.ev_finish | with_reducible apply State.ev_setF | split

theorem State.ev_debugChallenge {Q0 : StatePart → Bool} (hp0 : Need Q0 [.host, .log, .sec, .regs, .out, .freeCtr]) {s0 s : State} (ev : Ev Q0 s0 s) (ok : Bool) (f : InFlight) : Ev Q0 s0 (State.debugChallenge s ok f) := by
  unfold State.debugChallenge
  repeat' first | with_reducible assumption | exact Need.sub hp0 rfl | ((try lift_lets -underBinder); intro x; first | (refine Ev.cut (P := Q0) (s0 := s0) (x := x) ?_ (fun hx => ?_); unfold x) | (refine Ev.cutP (P := Q0) (s0 := s0) (x := x) (by unfold x; exact rfl) ?_ (fun hx => ?_)) | skip) | with_reducible apply State.ev_finish | with_reducible apply State.ev_hostPut | with_reducible apply State.ev_drew | with_reducible apply State.ev_secRec | with_reducible apply State.ev_setF | with_reducible apply State.ev_setSec | with_reducible refine State.ev_hostPut_eq (Need.sub hp0 rfl) ?_ _ _ _ _ (by with_reducible assumption) | split

theorem State.ev_dropIde {Q0 : StatePart → Bool} (hp0 : Need Q0 [.host, .log, .regs, .out]) {s0 s : State} (ev : Ev Q0 s0 s) (ps : List (RingNo × Bool × Word)) : Ev Q0 s0 (State.dropIde s ps) := by
  unfold State.dropIde
  repeat' first | with_reducible assumption | exact Need.sub hp0 rfl | ((try lift_lets -underBinder); intro x; first | (refine Ev.cut (P := Q0) (s0 := s0) (x := x) ?_ (fun hx => ?_); unfold x) | (refine Ev.cutP (P := Q0) (s0 := s0) (x := x) (by unfold x; exact rfl) ?_ (fun hx => ?_)) | skip) | with_reducible apply State.ev_setF | with_reducible apply State.ev_setLink | with_reducible apply State.ev_linkFail | with_reducible refine Ev.foldl _ (fun st a hst => ?_) _ _ ?_ | with_reducible refine Ev.foldlP _ (fun st a hst => ?_) _ _ ?_ | split

theorem State.ev_beginErase {Q0 : StatePart → Bool} (hp0 : Need Q0 [.host, .steps, .mm, .faults, .log, .streams, .router, .rmt, .col, .cores, .ports, .subs, .sec, .regs, .out, .freeCtr, .mem]) {s0 s : State} (ev : Ev Q0 s0 s) (scope : Nat) (ps : List (RingNo × Bool × Word)) (f : InFlight) : Ev Q0 s0 (State.beginErase s scope ps f) := by
  unfold State.beginErase
  repeat' first | with_reducible assumption | exact Need.sub hp0 rfl | ((try lift_lets -underBinder); intro x; first | (refine Ev.cut (P := Q0) (s0 := s0) (x := x) ?_ (fun hx => ?_); unfold x) | (refine Ev.cutP (P := Q0) (s0 := s0) (x := x) (by unfold x; exact rfl) ?_ (fun hx => ?_)) | skip) | with_reducible apply State.ev_secRec | with_reducible apply State.ev_setF | with_reducible apply State.ev_darkPort | with_reducible apply State.ev_dropAllKeys | with_reducible apply State.ev_dropIde | with_reducible apply State.ev_setSec | with_reducible apply State.ev_startReset | with_reducible apply State.ev_openWindow | with_reducible apply State.ev_startFlight | with_reducible refine Ev.foldl _ (fun st a hst => ?_) _ _ ?_ | with_reducible refine Ev.foldlP _ (fun st a hst => ?_) _ _ ?_

theorem State.ev_refuseToken {Q0 : StatePart → Bool} (hp0 : Need Q0 [.host, .log, .sec, .regs, .out]) {s0 s : State} (ev : Ev Q0 s0 s) (code : Nat) (f : InFlight) : Ev Q0 s0 (State.refuseToken s code f) := by
  unfold State.refuseToken
  repeat' first | with_reducible assumption | exact Need.sub hp0 rfl | ((try lift_lets -underBinder); intro x; first | (refine Ev.cut (P := Q0) (s0 := s0) (x := x) ?_ (fun hx => ?_); unfold x) | (refine Ev.cutP (P := Q0) (s0 := s0) (x := x) (by unfold x; exact rfl) ?_ (fun hx => ?_)) | skip) | with_reducible apply State.ev_finish | with_reducible apply State.ev_secRec | with_reducible apply State.ev_bumpSat | with_reducible apply State.ev_setF | with_reducible apply State.ev_setSec

theorem State.ev_debugUnlock {Q0 : StatePart → Bool} (hp0 : Need Q0 [.host, .steps, .mm, .faults, .log, .streams, .router, .rmt, .col, .cores, .ports, .subs, .sec, .regs, .out, .freeCtr, .mem]) {s0 s : State} (ev : Ev Q0 s0 s) (token : Option (List Byte)) (ps : List (RingNo × Bool × Word)) (f : InFlight) : Ev Q0 s0 (State.debugUnlock s token ps f) := by
  unfold State.debugUnlock
  repeat' first | with_reducible assumption | exact Need.sub hp0 rfl | with_reducible apply State.ev_finish | with_reducible apply State.ev_hostGet | with_reducible apply State.ev_refuseToken | with_reducible apply State.ev_beginErase | with_reducible refine State.ev_hostGet_eq (Need.sub hp0 rfl) ?_ _ _ _ _ (by with_reducible assumption) | split

theorem State.ev_zeroKeys {Q0 : StatePart → Bool} (hp0 : Need Q0 [.mm, .mem]) {s0 s : State} (ev : Ev Q0 s0 s) (runs : List (Nat × Nat)) : Ev Q0 s0 (State.zeroKeys s runs) := by
  unfold State.zeroKeys
  repeat' first | with_reducible assumption | exact Need.sub hp0 rfl | exact Memory.wf_clear _ _ | with_reducible apply State.ev_setPoison | with_reducible apply State.ev_setMem | with_reducible refine Ev.foldl _ (fun st a hst => ?_) _ _ ?_ | with_reducible refine Ev.foldlP _ (fun st a hst => ?_) _ _ ?_

theorem State.ev_eraseSrams {Q0 : StatePart → Bool} (hp0 : Need Q0 [.host, .mm, .log, .streams, .router, .trs, .cbk, .rmt, .ports, .subs, .parts, .tele, .hk, .regs, .out, .mem]) {s0 s : State} (ev : Ev Q0 s0 s)  : Ev Q0 s0 (State.eraseSrams s) := by
  unfold State.eraseSrams
  repeat' first | with_reducible assumption | exact Need.sub hp0 rfl | ((try lift_lets -underBinder); intro x; first | (refine Ev.cut (P := Q0) (s0 := s0) (x := x) ?_ (fun hx => ?_); unfold x) | (refine Ev.cutP (P := Q0) (s0 := s0) (x := x) (by unfold x; exact rfl) ?_ (fun hx => ?_)) | skip) | with_reducible apply State.ev_zeroKeys | with_reducible apply State.ev_setHk | with_reducible apply State.ev_fallbackOf | with_reducible apply State.ev_hkHalt | with_reducible refine Ev.foldl _ (fun st a hst => ?_) _ _ ?_ | with_reducible refine Ev.foldlP _ (fun st a hst => ?_) _ _ ?_ | split | with_reducible apply Ev.upd | with_reducible apply Ev.updOut | exact Or.inl (Need.has hp0 rfl) | with_reducible exact Or.inr rfl | exact Need.has hp0 rfl | with_reducible rfl

theorem State.ev_lineKey {Q0 : StatePart → Bool} (hp0 : Need Q0 [.host, .subs, .regs, .out]) {s0 s : State} (ev : Ev Q0 s0 s) (data : Option (List Byte)) (f : InFlight) : Ev Q0 s0 (State.lineKey s data f) := by
  unfold State.lineKey
  repeat' first | with_reducible assumption | exact Need.sub hp0 rfl | ((try lift_lets -underBinder); intro x; first | (refine Ev.cut (P := Q0) (s0 := s0) (x := x) ?_ (fun hx => ?_); unfold x) | (refine Ev.cutP (P := Q0) (s0 := s0) (x := x) (by unfold x; exact rfl) ?_ (fun hx => ?_)) | skip) | with_reducible apply State.ev_finish | with_reducible apply State.ev_hostGet | with_reducible apply State.ev_modSub | with_reducible refine State.ev_hostGet_eq (Need.sub hp0 rfl) ?_ _ _ _ _ (by with_reducible assumption) | split

theorem State.ev_corePower {Q0 : StatePart → Bool} (hp0 : Need Q0 [.host, .cores, .regs, .out]) {s0 s : State} (ev : Ev Q0 s0 s) (f : InFlight) : Ev Q0 s0 (State.corePower s f) := by
  unfold State.corePower
  repeat' first | with_reducible assumption | exact Need.sub hp0 rfl | ((try lift_lets -underBinder); intro x; first | (refine Ev.cut (P := Q0) (s0 := s0) (x := x) ?_ (fun hx => ?_); unfold x) | (refine Ev.cutP (P := Q0) (s0 := s0) (x := x) (by unfold x; exact rfl) ?_ (fun hx => ?_)) | skip) | with_reducible apply State.ev_finish | with_reducible apply State.ev_modCore | with_reducible refine Ev.foldl _ (fun st a hst => ?_) _ _ ?_ | with_reducible refine Ev.foldlP _ (fun st a hst => ?_) _ _ ?_ | split

theorem execGetVersion_ev {Q0 : StatePart → Bool} (hp0 : Need Q0 [.sec, .out]) {s0 s : State} (ev : Ev Q0 s0 s) (chan : Fin 5) : ∃ t, (execGetVersion chan s) = .next t ∧ Ev Q0 s0 t := by
  unfold execGetVersion
  refine ⟨_, rfl, ?_⟩
  repeat' first | with_reducible assumption | exact Need.sub hp0 rfl | ((try lift_lets -underBinder); intro x; (try dsimp -zeta -proj only); first | (refine Ev.cut (P := Q0) (s0 := s0) (x := x) ?_ (fun hx => ?_); unfold x) | (refine Ev.cutP (P := Q0) (s0 := s0) (x := x) (by unfold x; exact rfl) ?_ (fun hx => ?_)) | skip) | with_reducible apply State.ev_spdmReq | with_reducible apply State.ev_answer | with_reducible apply State.ev_setSpdm

theorem execGetCapabilities_ev {Q0 : StatePart → Bool} (hp0 : Need Q0 [.sec, .out]) {s0 s : State} (ev : Ev Q0 s0 s) (chan : Fin 5) : ∃ t, (execGetCapabilities chan s) = .next t ∧ Ev Q0 s0 t := by
  unfold execGetCapabilities
  refine ⟨_, rfl, ?_⟩
  repeat' first | with_reducible assumption | exact Need.sub hp0 rfl | ((try lift_lets -underBinder); intro x; (try dsimp -zeta -proj only); first | (refine Ev.cut (P := Q0) (s0 := s0) (x := x) ?_ (fun hx => ?_); unfold x) | (refine Ev.cutP (P := Q0) (s0 := s0) (x := x) (by unfold x; exact rfl) ?_ (fun hx => ?_)) | skip) | with_reducible apply State.ev_spdmReq | with_reducible apply State.ev_answer | with_reducible apply State.ev_setSpdm

theorem execNegotiateAlgorithms_ev {Q0 : StatePart → Bool} (hp0 : Need Q0 [.sec, .out]) {s0 s : State} (ev : Ev Q0 s0 s) (chan : Fin 5) (offered : Bool) : ∃ t, (execNegotiateAlgorithms chan offered s) = .next t ∧ Ev Q0 s0 t := by
  unfold execNegotiateAlgorithms
  refine ⟨_, rfl, ?_⟩
  repeat' first | with_reducible assumption | exact Need.sub hp0 rfl | ((try lift_lets -underBinder); intro x; (try dsimp -zeta -proj only); first | (refine Ev.cut (P := Q0) (s0 := s0) (x := x) ?_ (fun hx => ?_); unfold x) | (refine Ev.cutP (P := Q0) (s0 := s0) (x := x) (by unfold x; exact rfl) ?_ (fun hx => ?_)) | skip) | with_reducible apply State.ev_spdmReq | with_reducible apply State.ev_answer | with_reducible apply State.ev_setSpdm | split

theorem execGetDigests_ev {Q0 : StatePart → Bool} (hp0 : Need Q0 [.out]) {s0 s : State} (ev : Ev Q0 s0 s) (chan : Fin 5) : ∃ t, (execGetDigests chan s) = .next t ∧ Ev Q0 s0 t := by
  unfold execGetDigests
  refine ⟨_, rfl, ?_⟩
  repeat' first | with_reducible assumption | exact Need.sub hp0 rfl | ((try lift_lets -underBinder); intro x; (try dsimp -zeta -proj only); first | (refine Ev.cut (P := Q0) (s0 := s0) (x := x) ?_ (fun hx => ?_); unfold x) | (refine Ev.cutP (P := Q0) (s0 := s0) (x := x) (by unfold x; exact rfl) ?_ (fun hx => ?_)) | skip) | with_reducible apply State.ev_spdmReq | with_reducible apply State.ev_answer

theorem execGetCertificate_ev {Q0 : StatePart → Bool} (hp0 : Need Q0 [.out]) {s0 s : State} (ev : Ev Q0 s0 s) (chan : Fin 5) (slot : Byte) (offset : Half) (length : Half) : ∃ t, (execGetCertificate chan slot offset length s) = .next t ∧ Ev Q0 s0 t := by
  unfold execGetCertificate
  refine ⟨_, rfl, ?_⟩
  repeat' first | with_reducible assumption | exact Need.sub hp0 rfl | ((try lift_lets -underBinder); intro x; (try dsimp -zeta -proj only); first | (refine Ev.cut (P := Q0) (s0 := s0) (x := x) ?_ (fun hx => ?_); unfold x) | (refine Ev.cutP (P := Q0) (s0 := s0) (x := x) (by unfold x; exact rfl) ?_ (fun hx => ?_)) | skip) | with_reducible apply State.ev_spdmReq | with_reducible apply State.ev_answer | split

theorem execChallenge_ev {Q0 : StatePart → Bool} (hp0 : Need Q0 [.out, .freeCtr]) {s0 s : State} (ev : Ev Q0 s0 s) (chan : Fin 5) (slot : Byte) (nonce : List Byte) : ∃ t, (execChallenge chan slot nonce s) = .next t ∧ Ev Q0 s0 t := by
  unfold execChallenge
  refine ⟨_, rfl, ?_⟩
  repeat' first | with_reducible assumption | exact Need.sub hp0 rfl | ((try lift_lets -underBinder); intro x; (try dsimp -zeta -proj only); first | (refine Ev.cut (P := Q0) (s0 := s0) (x := x) ?_ (fun hx => ?_); unfold x) | (refine Ev.cutP (P := Q0) (s0 := s0) (x := x) (by unfold x; exact rfl) ?_ (fun hx => ?_)) | skip) | with_reducible apply State.ev_spdmReq | with_reducible apply State.ev_answer | with_reducible apply State.ev_drew | split

theorem execGetMeasurements_ev {Q0 : StatePart → Bool} (hp0 : Need Q0 [.out, .freeCtr]) {s0 s : State} (ev : Ev Q0 s0 s) (chan : Fin 5) (sign : Bool) (index : Byte) (nonce : List Byte) : ∃ t, (execGetMeasurements chan sign index nonce s) = .next t ∧ Ev Q0 s0 t := by
  unfold execGetMeasurements
  refine ⟨_, rfl, ?_⟩
  repeat' first | with_reducible assumption | exact Need.sub hp0 rfl | ((try lift_lets -underBinder); intro x; (try dsimp -zeta -proj only); first | (refine Ev.cut (P := Q0) (s0 := s0) (x := x) ?_ (fun hx => ?_); unfold x) | (refine Ev.cutP (P := Q0) (s0 := s0) (x := x) (by unfold x; exact rfl) ?_ (fun hx => ?_)) | skip) | with_reducible apply State.ev_spdmReq | with_reducible apply State.ev_answer | with_reducible apply State.ev_drew | split

theorem execKeyExchange_ev {Q0 : StatePart → Bool} (hp0 : Need Q0 [.sec, .out, .freeCtr]) {s0 s : State} (ev : Ev Q0 s0 s) (chan : Fin 5) (slot : Byte) (share : List Byte) : ∃ t, (execKeyExchange chan slot share s) = .next t ∧ Ev Q0 s0 t := by
  unfold execKeyExchange
  refine ⟨_, rfl, ?_⟩
  repeat' first | with_reducible assumption | exact Need.sub hp0 rfl | ((try lift_lets -underBinder); intro x; (try dsimp -zeta -proj only); first | (refine Ev.cut (P := Q0) (s0 := s0) (x := x) ?_ (fun hx => ?_); unfold x) | (refine Ev.cutP (P := Q0) (s0 := s0) (x := x) (by unfold x; exact rfl) ?_ (fun hx => ?_)) | skip) | with_reducible apply State.ev_spdmReq | with_reducible apply State.ev_answer | with_reducible apply State.ev_drew | with_reducible apply State.ev_setSec | split

theorem execFinish_ev {Q0 : StatePart → Bool} (hp0 : Need Q0 [.sec, .out]) {s0 s : State} (ev : Ev Q0 s0 s) (chan : Fin 5) (session : Half) (verified : Bool) : ∃ t, (execFinish chan session verified s) = .next t ∧ Ev Q0 s0 t := by
  unfold execFinish
  refine ⟨_, rfl, ?_⟩
  repeat' first | with_reducible assumption | exact Need.sub hp0 rfl | ((try lift_lets -underBinder); intro x; (try dsimp -zeta -proj only); first | (refine Ev.cut (P := Q0) (s0 := s0) (x := x) ?_ (fun hx => ?_); unfold x) | (refine Ev.cutP (P := Q0) (s0 := s0) (x := x) (by unfold x; exact rfl) ?_ (fun hx => ?_)) | skip) | with_reducible apply State.ev_sessionReq | with_reducible apply State.ev_answer | with_reducible apply State.ev_modSession | with_reducible apply State.ev_dropSession | split

theorem execHeartbeat_ev {Q0 : StatePart → Bool} (hp0 : Need Q0 [.out]) {s0 s : State} (ev : Ev Q0 s0 s) (chan : Fin 5) (session : Half) : ∃ t, (execHeartbeat chan session s) = .next t ∧ Ev Q0 s0 t := by
  unfold execHeartbeat
  refine ⟨_, rfl, ?_⟩
  repeat' first | with_reducible assumption | exact Need.sub hp0 rfl | ((try lift_lets -underBinder); intro x; (try dsimp -zeta -proj only); first | (refine Ev.cut (P := Q0) (s0 := s0) (x := x) ?_ (fun hx => ?_); unfold x) | (refine Ev.cutP (P := Q0) (s0 := s0) (x := x) (by unfold x; exact rfl) ?_ (fun hx => ?_)) | skip) | with_reducible apply State.ev_sessionReq | with_reducible apply State.ev_answer

theorem execKeyUpdate_ev {Q0 : StatePart → Bool} (hp0 : Need Q0 [.sec, .out]) {s0 s : State} (ev : Ev Q0 s0 s) (chan : Fin 5) (session : Half) (op : Fin 3) : ∃ t, (execKeyUpdate chan session op s) = .next t ∧ Ev Q0 s0 t := by
  unfold execKeyUpdate
  refine ⟨_, rfl, ?_⟩
  repeat' first | with_reducible assumption | exact Need.sub hp0 rfl | ((try lift_lets -underBinder); intro x; (try dsimp -zeta -proj only); first | (refine Ev.cut (P := Q0) (s0 := s0) (x := x) ?_ (fun hx => ?_); unfold x) | (refine Ev.cutP (P := Q0) (s0 := s0) (x := x) (by unfold x; exact rfl) ?_ (fun hx => ?_)) | skip) | with_reducible apply State.ev_sessionReq | with_reducible apply State.ev_answer | with_reducible apply State.ev_modSession | split

theorem execEndSession_ev {Q0 : StatePart → Bool} (hp0 : Need Q0 [.sec, .out]) {s0 s : State} (ev : Ev Q0 s0 s) (chan : Fin 5) (session : Half) : ∃ t, (execEndSession chan session s) = .next t ∧ Ev Q0 s0 t := by
  unfold execEndSession
  refine ⟨_, rfl, ?_⟩
  repeat' first | with_reducible assumption | exact Need.sub hp0 rfl | ((try lift_lets -underBinder); intro x; (try dsimp -zeta -proj only); first | (refine Ev.cut (P := Q0) (s0 := s0) (x := x) ?_ (fun hx => ?_); unfold x) | (refine Ev.cutP (P := Q0) (s0 := s0) (x := x) (by unfold x; exact rfl) ?_ (fun hx => ?_)) | skip) | with_reducible apply State.ev_sessionReq | with_reducible apply State.ev_dropSession | with_reducible apply State.ev_answer

theorem execIdeKm_ev {Q0 : StatePart → Bool} (hp0 : Need Q0 [.host, .regs, .out]) {s0 s : State} (ev : Ev Q0 s0 s) (link : LinkIx) (session : Half) (stream : Fin 5) : ∃ t, (execIdeKm link session stream s) = .next t ∧ Ev Q0 s0 t := by
  unfold execIdeKm
  refine ⟨_, rfl, ?_⟩
  repeat' first | with_reducible assumption | exact Need.sub hp0 rfl | ((try lift_lets -underBinder); intro x; (try dsimp -zeta -proj only); first | (refine Ev.cut (P := Q0) (s0 := s0) (x := x) ?_ (fun hx => ?_); unfold x) | (refine Ev.cutP (P := Q0) (s0 := s0) (x := x) (by unfold x; exact rfl) ?_ (fun hx => ?_)) | skip) | with_reducible apply State.ev_sessionReq | with_reducible apply State.ev_answer | with_reducible apply State.ev_setF | with_reducible apply State.ev_setLink

theorem execDoeDiscovery_ev {Q0 : StatePart → Bool} (hp0 : Need Q0 [.out]) {s0 s : State} (ev : Ev Q0 s0 s) (link : LinkIx) (index : Byte) : ∃ t, (execDoeDiscovery link index s) = .next t ∧ Ev Q0 s0 t := by
  unfold execDoeDiscovery
  refine ⟨_, rfl, ?_⟩
  repeat' first | with_reducible assumption | exact Need.sub hp0 rfl | with_reducible apply State.ev_emit | split

theorem execOwnerBind_ev {Q0 : StatePart → Bool} (hp0 : Need Q0 [.host, .log, .sec, .regs, .out]) {s0 s : State} (ev : Ev Q0 s0 s) (sq : RingNo) (data : Option (List Byte)) : ∃ t, (execOwnerBind sq data s) = .next t ∧ Ev Q0 s0 t := by
  unfold execOwnerBind
  refine ⟨_, rfl, ?_⟩
  repeat' first | with_reducible assumption | exact Need.sub hp0 rfl | ((try lift_lets -underBinder); intro x; (try dsimp -zeta -proj only); first | (refine Ev.cut (P := Q0) (s0 := s0) (x := x) ?_ (fun hx => ?_); unfold x) | (refine Ev.cutP (P := Q0) (s0 := s0) (x := x) (by unfold x; exact rfl) ?_ (fun hx => ?_)) | skip) | with_reducible apply State.ev_ringCmd | with_reducible apply State.ev_ownerBind

theorem execOwnerRevoke_ev {Q0 : StatePart → Bool} (hp0 : Need Q0 [.host, .log, .sec, .regs, .out]) {s0 s : State} (ev : Ev Q0 s0 s) (sq : RingNo) : ∃ t, (execOwnerRevoke sq s) = .next t ∧ Ev Q0 s0 t := by
  unfold execOwnerRevoke
  refine ⟨_, rfl, ?_⟩
  repeat' first | with_reducible assumption | exact Need.sub hp0 rfl | ((try lift_lets -underBinder); intro x; (try dsimp -zeta -proj only); first | (refine Ev.cut (P := Q0) (s0 := s0) (x := x) ?_ (fun hx => ?_); unfold x) | (refine Ev.cutP (P := Q0) (s0 := s0) (x := x) (by unfold x; exact rfl) ?_ (fun hx => ?_)) | skip) | with_reducible apply State.ev_ringCmd | with_reducible apply State.ev_ownerRevoke

theorem execOwnerRelease_ev {Q0 : StatePart → Bool} (hp0 : Need Q0 [.host, .log, .regs, .out]) {s0 s : State} (ev : Ev Q0 s0 s) (sq : RingNo) : ∃ t, (execOwnerRelease sq s) = .next t ∧ Ev Q0 s0 t := by
  unfold execOwnerRelease
  refine ⟨_, rfl, ?_⟩
  repeat' first | with_reducible assumption | exact Need.sub hp0 rfl | ((try lift_lets -underBinder); intro x; (try dsimp -zeta -proj only); first | (refine Ev.cut (P := Q0) (s0 := s0) (x := x) ?_ (fun hx => ?_); unfold x) | (refine Ev.cutP (P := Q0) (s0 := s0) (x := x) (by unfold x; exact rfl) ?_ (fun hx => ?_)) | skip) | with_reducible apply State.ev_ringCmd | with_reducible apply State.ev_finish | with_reducible apply State.ev_secRec | with_reducible apply State.ev_setF

theorem execSvnAdvance_ev {Q0 : StatePart → Bool} (hp0 : Need Q0 [.host, .regs, .out]) {s0 s : State} (ev : Ev Q0 s0 s) (sq : RingNo) : ∃ t, (execSvnAdvance sq s) = .next t ∧ Ev Q0 s0 t := by
  unfold execSvnAdvance
  refine ⟨_, rfl, ?_⟩
  repeat' first | with_reducible assumption | exact Need.sub hp0 rfl | ((try lift_lets -underBinder); intro x; (try dsimp -zeta -proj only); first | (refine Ev.cut (P := Q0) (s0 := s0) (x := x) ?_ (fun hx => ?_); unfold x) | (refine Ev.cutP (P := Q0) (s0 := s0) (x := x) (by unfold x; exact rfl) ?_ (fun hx => ?_)) | skip) | with_reducible apply State.ev_ringCmd | with_reducible apply State.ev_svnAdvance

theorem execDebugChallenge_ev {Q0 : StatePart → Bool} (hp0 : Need Q0 [.host, .log, .sec, .regs, .out, .freeCtr]) {s0 s : State} (ev : Ev Q0 s0 s) (sq : RingNo) (ok : Bool) : ∃ t, (execDebugChallenge sq ok s) = .next t ∧ Ev Q0 s0 t := by
  unfold execDebugChallenge
  refine ⟨_, rfl, ?_⟩
  repeat' first | with_reducible assumption | exact Need.sub hp0 rfl | ((try lift_lets -underBinder); intro x; (try dsimp -zeta -proj only); first | (refine Ev.cut (P := Q0) (s0 := s0) (x := x) ?_ (fun hx => ?_); unfold x) | (refine Ev.cutP (P := Q0) (s0 := s0) (x := x) (by unfold x; exact rfl) ?_ (fun hx => ?_)) | skip) | with_reducible apply State.ev_ringCmd | with_reducible apply State.ev_debugChallenge

theorem execDebugUnlock_ev {Q0 : StatePart → Bool} (hp0 : Need Q0 [.host, .steps, .mm, .faults, .log, .streams, .router, .rmt, .col, .cores, .ports, .subs, .sec, .regs, .out, .freeCtr, .mem]) {s0 s : State} (ev : Ev Q0 s0 s) (sq : RingNo) (token : Option (List Byte)) (ptrs : List (RingNo × Bool × Word)) : ∃ t, (execDebugUnlock sq token ptrs s) = .next t ∧ Ev Q0 s0 t := by
  unfold execDebugUnlock
  refine ⟨_, rfl, ?_⟩
  repeat' first | with_reducible assumption | exact Need.sub hp0 rfl | ((try lift_lets -underBinder); intro x; (try dsimp -zeta -proj only); first | (refine Ev.cut (P := Q0) (s0 := s0) (x := x) ?_ (fun hx => ?_); unfold x) | (refine Ev.cutP (P := Q0) (s0 := s0) (x := x) (by unfold x; exact rfl) ?_ (fun hx => ?_)) | skip) | with_reducible apply State.ev_ringCmd | with_reducible apply State.ev_debugUnlock

theorem execDebugEraseDone_ev {Q0 : StatePart → Bool} (hp0 : Need Q0 [.host, .mm, .log, .streams, .router, .trs, .cbk, .rmt, .ports, .subs, .parts, .tele, .hk, .sec, .regs, .out, .mem]) {s0 s : State} (ev : Ev Q0 s0 s)  : ∃ t, (execDebugEraseDone s) = .next t ∧ Ev Q0 s0 t := by
  unfold execDebugEraseDone
  refine ⟨_, rfl, ?_⟩
  repeat' first | with_reducible assumption | exact Need.sub hp0 rfl | ((try lift_lets -underBinder); intro x; first | (refine Ev.cut (P := Q0) (s0 := s0) (x := x) ?_ (fun hx => ?_); unfold x) | (refine Ev.cutP (P := Q0) (s0 := s0) (x := x) (by unfold x; exact rfl) ?_ (fun hx => ?_)) | skip) | with_reducible apply State.ev_setSec | with_reducible apply State.ev_eraseSrams | with_reducible apply State.ev_setF | with_reducible apply State.ev_finish | split

theorem execLineKey_ev {Q0 : StatePart → Bool} (hp0 : Need Q0 [.host, .subs, .regs, .out]) {s0 s : State} (ev : Ev Q0 s0 s) (sq : RingNo) (data : Option (List Byte)) : ∃ t, (execLineKey sq data s) = .next t ∧ Ev Q0 s0 t := by
  unfold execLineKey
  refine ⟨_, rfl, ?_⟩
  repeat' first | with_reducible assumption | exact Need.sub hp0 rfl | ((try lift_lets -underBinder); intro x; (try dsimp -zeta -proj only); first | (refine Ev.cut (P := Q0) (s0 := s0) (x := x) ?_ (fun hx => ?_); unfold x) | (refine Ev.cutP (P := Q0) (s0 := s0) (x := x) (by unfold x; exact rfl) ?_ (fun hx => ?_)) | skip) | with_reducible apply State.ev_ringCmd | with_reducible apply State.ev_lineKey

theorem execLineKeyActivate_ev {Q0 : StatePart → Bool} (hp0 : Need Q0 [.subs, .regs]) {s0 s : State} (ev : Ev Q0 s0 s) (port : Port) (sub : Sub) : ∃ t, (execLineKeyActivate port sub s) = .next t ∧ Ev Q0 s0 t := by
  unfold execLineKeyActivate
  refine ⟨_, rfl, ?_⟩
  repeat' first | with_reducible assumption | exact Need.sub hp0 rfl | ((try lift_lets -underBinder); intro x; first | (refine Ev.cut (P := Q0) (s0 := s0) (x := x) ?_ (fun hx => ?_); unfold x) | (refine Ev.cutP (P := Q0) (s0 := s0) (x := x) (by unfold x; exact rfl) ?_ (fun hx => ?_)) | skip) | with_reducible apply State.ev_showKey | with_reducible apply State.ev_setSub | split

theorem execCorePower_ev {Q0 : StatePart → Bool} (hp0 : Need Q0 [.host, .cores, .regs, .out]) {s0 s : State} (ev : Ev Q0 s0 s) (sq : RingNo) : ∃ t, (execCorePower sq s) = .next t ∧ Ev Q0 s0 t := by
  unfold execCorePower
  refine ⟨_, rfl, ?_⟩
  repeat' first | with_reducible assumption | exact Need.sub hp0 rfl | ((try lift_lets -underBinder); intro x; (try dsimp -zeta -proj only); first | (refine Ev.cut (P := Q0) (s0 := s0) (x := x) ?_ (fun hx => ?_); unfold x) | (refine Ev.cutP (P := Q0) (s0 := s0) (x := x) (by unfold x; exact rfl) ?_ (fun hx => ?_)) | skip) | with_reducible apply State.ev_ringCmd | with_reducible apply State.ev_corePower

theorem execCoreIdleEnter_ev {Q0 : StatePart → Bool} (hp0 : Need Q0 [.cores]) {s0 s : State} (ev : Ev Q0 s0 s) (core : LCore) : ∃ t, (execCoreIdleEnter core s) = .next t ∧ Ev Q0 s0 t := by
  unfold execCoreIdleEnter
  refine ⟨_, rfl, ?_⟩
  repeat' first | with_reducible assumption | exact Need.sub hp0 rfl | ((try lift_lets -underBinder); intro x; first | (refine Ev.cut (P := Q0) (s0 := s0) (x := x) ?_ (fun hx => ?_); unfold x) | (refine Ev.cutP (P := Q0) (s0 := s0) (x := x) (by unfold x; exact rfl) ?_ (fun hx => ?_)) | skip) | with_reducible apply State.ev_modCore | split

theorem execCorePark_ev {Q0 : StatePart → Bool} (hp0 : Need Q0 [.mm, .traceLost, .cores, .regs, .mem]) {s0 s : State} (ev : Ev Q0 s0 s) (core : LCore) : ∃ t, (execCorePark core s) = .next t ∧ Ev Q0 s0 t := by
  unfold execCorePark
  refine ⟨_, rfl, ?_⟩
  repeat' first | with_reducible assumption | exact Need.sub hp0 rfl | ((try lift_lets -underBinder); intro x; first | (refine Ev.cut (P := Q0) (s0 := s0) (x := x) ?_ (fun hx => ?_); unfold x) | (refine Ev.cutP (P := Q0) (s0 := s0) (x := x) (by unfold x; exact rfl) ?_ (fun hx => ?_)) | skip) | with_reducible apply State.ev_modCore | with_reducible apply State.ev_trace | split

theorem execCoreWakeDone_ev {Q0 : StatePart → Bool} (hp0 : Need Q0 [.mm, .traceLost, .cores, .regs, .freeCtr, .mem]) {s0 s : State} (ev : Ev Q0 s0 s) (core : LCore) : ∃ t, (execCoreWakeDone core s) = .next t ∧ Ev Q0 s0 t := by
  unfold execCoreWakeDone
  refine ⟨_, rfl, ?_⟩
  repeat' first | with_reducible assumption | exact Need.sub hp0 rfl | ((try lift_lets -underBinder); intro x; first | (refine Ev.cut (P := Q0) (s0 := s0) (x := x) ?_ (fun hx => ?_); unfold x) | (refine Ev.cutP (P := Q0) (s0 := s0) (x := x) (by unfold x; exact rfl) ?_ (fun hx => ?_)) | skip) | with_reducible apply State.ev_forgetSpad | with_reducible apply State.ev_trace | with_reducible apply State.ev_modCore | split

end Sys2Proof.Machine
end

