-- ==== Sys2Proof/Laws/EvSetupWindow.lean ====
section
/-! SUPPORT. The operations of SetupWindow.lean keep the relation Ev. -/

namespace Sys2Proof.Machine

open Sys2Proof

set_option linter.unusedVariables false

theorem State.ev_clearRc {Q0 : StatePart → Bool} (hp0 : Need Q0 [.regs]) {s0 s : State} (ev : Ev Q0 s0 s) (o : Nat) (lo : Nat) (hi : Nat) : Ev Q0 s0 (State.clearRc s o lo hi) := by
  unfold State.clearRc
  repeat' first | with_reducible assumption | exact Need.sub hp0 rfl | with_reducible apply State.ev_setF | with_reducible refine Ev.foldl _ (fun st a hst => ?_) _ _ ?_ | with_reducible refine Ev.foldlP _ (fun st a hst => ?_) _ _ ?_ | split

theorem State.ev_capture {Q0 : StatePart → Bool} (hp0 : Need Q0 [.latches, .regs]) {s0 s : State} (ev : Ev Q0 s0 s) (req : Nat) (o : Nat) : Ev Q0 s0 (State.capture s req o) := by
  unfold State.capture
  repeat' first | with_reducible assumption | exact Need.sub hp0 rfl | ((try lift_lets -underBinder); intro x; first | (refine Ev.cut (P := Q0) (s0 := s0) (x := x) ?_ (fun hx => ?_); unfold x) | (refine Ev.cutP (P := Q0) (s0 := s0) (x := x) (by unfold x; exact rfl) ?_ (fun hx => ?_)) | skip) | with_reducible apply State.ev_clearRc | with_reducible apply Ev.upd | with_reducible apply Ev.updOut | exact Or.inl (Need.has hp0 rfl) | with_reducible exact Or.inr rfl | exact Need.has hp0 rfl | with_reducible rfl

theorem State.ev_read32 {Q0 : StatePart → Bool} (hp0 : Need Q0 [.latches, .regs]) {s0 s : State} (ev : Ev Q0 s0 s) (req : Nat) (o : Nat) : Ev Q0 s0 (State.read32 s req o).1 := by
  unfold State.read32
  repeat' first | with_reducible assumption | exact Need.sub hp0 rfl | with_reducible apply State.ev_capture | with_reducible apply State.ev_clearRc | with_reducible refine Ev.foldl _ (fun st a hst => ?_) _ _ ?_ | with_reducible refine Ev.foldlP _ (fun st a hst => ?_) _ _ ?_ | split | with_reducible apply Ev.upd | with_reducible apply Ev.updOut | exact Or.inl (Need.has hp0 rfl) | with_reducible exact Or.inr rfl | exact Need.has hp0 rfl | with_reducible rfl

theorem State.ev_read32_eq {Q0 : StatePart → Bool} (hp0 : Need Q0 [.latches, .regs]) {s0 s : State} (ev : Ev Q0 s0 s) (req : Nat) (o : Nat) {sT : State} {r : Nat} (e : (State.read32 s req o) = (sT, r)) : Ev Q0 s0 sT := by
  have h := State.ev_read32 hp0 ev req o
  rw [e] at h
  exact h

theorem State.ev_read64 {Q0 : StatePart → Bool} (hp0 : Need Q0 [.latches, .regs]) {s0 s : State} (ev : Ev Q0 s0 s) (req : Nat) (o : Nat) : Ev Q0 s0 (State.read64 s req o).1 := by
  unfold State.read64
  repeat' first | with_reducible assumption | exact Need.sub hp0 rfl | ((try lift_lets -underBinder); intro x; first | (refine Ev.cut (P := Q0) (s0 := s0) (x := x) ?_ (fun hx => ?_); unfold x) | (refine Ev.cutP (P := Q0) (s0 := s0) (x := x) (by unfold x; exact rfl) ?_ (fun hx => ?_)) | skip) | with_reducible apply State.ev_clearRc | with_reducible apply State.ev_read32 | with_reducible refine State.ev_read32_eq (Need.sub hp0 rfl) ?_ _ _ (by with_reducible assumption) | split

theorem State.ev_read64_eq {Q0 : StatePart → Bool} (hp0 : Need Q0 [.latches, .regs]) {s0 s : State} (ev : Ev Q0 s0 s) (req : Nat) (o : Nat) {sT : State} {r : Nat} (e : (State.read64 s req o) = (sT, r)) : Ev Q0 s0 sT := by
  have h := State.ev_read64 hp0 ev req o
  rw [e] at h
  exact h

theorem State.ev_writeFields {Q0 : StatePart → Bool} (hp0 : Need Q0 [.regs]) {s0 s : State} (ev : Ev Q0 s0 s) (o : Nat) (v : Nat) : Ev Q0 s0 (State.writeFields s o v) := by
  unfold State.writeFields
  repeat' first | with_reducible assumption | exact Need.sub hp0 rfl | ((try lift_lets -underBinder); intro x; first | (refine Ev.cut (P := Q0) (s0 := s0) (x := x) ?_ (fun hx => ?_); unfold x) | (refine Ev.cutP (P := Q0) (s0 := s0) (x := x) (by unfold x; exact rfl) ?_ (fun hx => ?_)) | skip) | with_reducible apply State.ev_setF | with_reducible refine Ev.foldl _ (fun st a hst => ?_) _ _ ?_ | with_reducible refine Ev.foldlP _ (fun st a hst => ?_) _ _ ?_ | split

theorem State.ev_countLocked {Q0 : StatePart → Bool} (hp0 : Need Q0 [.regs]) {s0 s : State} (ev : Ev Q0 s0 s) (o : Nat) : Ev Q0 s0 (State.countLocked s o) := by
  unfold State.countLocked
  repeat' first | with_reducible assumption | exact Need.sub hp0 rfl | with_reducible apply State.ev_bumpSat | split

theorem State.ev_dilWrite {Q0 : StatePart → Bool} (hp0 : Need Q0 [.regs]) {s0 s : State} (ev : Ev Q0 s0 s) (i : Nat) (v : Nat) : Ev Q0 s0 (State.dilWrite s i v) := by
  unfold State.dilWrite
  repeat' first | with_reducible assumption | exact Need.sub hp0 rfl | ((try lift_lets -underBinder); intro x; first | (refine Ev.cut (P := Q0) (s0 := s0) (x := x) ?_ (fun hx => ?_); unfold x) | (refine Ev.cutP (P := Q0) (s0 := s0) (x := x) (by unfold x; exact rfl) ?_ (fun hx => ?_)) | skip) | with_reducible apply State.ev_setF | split

theorem State.ev_deckWrite {Q0 : StatePart → Bool} (hp0 : Need Q0 [.mm, .regs]) {s0 s : State} (ev : Ev Q0 s0 s) (n : Nat) (v : Nat) : Ev Q0 s0 (State.deckWrite s n v) := by
  unfold State.deckWrite
  repeat' first | with_reducible assumption | exact Need.sub hp0 rfl | ((try lift_lets -underBinder); intro x; first | (refine Ev.cut (P := Q0) (s0 := s0) (x := x) ?_ (fun hx => ?_); unfold x) | (refine Ev.cutP (P := Q0) (s0 := s0) (x := x) (by unfold x; exact rfl) ?_ (fun hx => ?_)) | skip) | with_reducible apply State.ev_setSpan | with_reducible apply State.ev_setF | split

theorem State.ev_ctlWrite {Q0 : StatePart → Bool} (hp0 : Need Q0 [.host, .regs, .out]) {s0 s : State} (ev : Ev Q0 s0 s) (k : Nat) (v : Nat) : Ev Q0 s0 (State.ctlWrite s k v) := by
  unfold State.ctlWrite
  repeat' first | with_reducible assumption | exact Need.sub hp0 rfl | ((try lift_lets -underBinder); intro x; first | (refine Ev.cut (P := Q0) (s0 := s0) (x := x) ?_ (fun hx => ?_); unfold x) | (refine Ev.cutP (P := Q0) (s0 := s0) (x := x) (by unfold x; exact rfl) ?_ (fun hx => ?_)) | skip) | with_reducible apply State.ev_setF | with_reducible apply State.ev_writeFields | with_reducible apply State.ev_ctlStop | with_reducible apply State.ev_ctlStart | split

theorem State.ev_chkWrite {Q0 : StatePart → Bool} (hp0 : Need Q0 [.regs]) {s0 s : State} (ev : Ev Q0 s0 s) (k : Nat) (v : Nat) : Ev Q0 s0 (State.chkWrite s k v) := by
  unfold State.chkWrite
  repeat' first | with_reducible assumption | exact Need.sub hp0 rfl | ((try lift_lets -underBinder); intro x; first | (refine Ev.cut (P := Q0) (s0 := s0) (x := x) ?_ (fun hx => ?_); unfold x) | (refine Ev.cutP (P := Q0) (s0 := s0) (x := x) (by unfold x; exact rfl) ?_ (fun hx => ?_)) | skip) | with_reducible apply State.ev_writeFields | with_reducible apply State.ev_setF | split

theorem State.ev_trcWrite {Q0 : StatePart → Bool} (hp0 : Need Q0 [.regs]) {s0 s : State} (ev : Ev Q0 s0 s) (c : Nat) (v : Nat) : Ev Q0 s0 (State.trcWrite s c v) := by
  unfold State.trcWrite
  repeat' first | with_reducible assumption | exact Need.sub hp0 rfl | ((try lift_lets -underBinder); intro x; first | (refine Ev.cut (P := Q0) (s0 := s0) (x := x) ?_ (fun hx => ?_); unfold x) | (refine Ev.cutP (P := Q0) (s0 := s0) (x := x) (by unfold x; exact rfl) ?_ (fun hx => ?_)) | skip) | with_reducible apply State.ev_writeFields | with_reducible apply State.ev_setF | split

theorem State.ev_afterWrite {Q0 : StatePart → Bool} (hp0 : Need Q0 [.mm, .traceLost, .regs, .mem]) {s0 s : State} (ev : Ev Q0 s0 s) (o : Nat) : Ev Q0 s0 (State.afterWrite s o) := by
  unfold State.afterWrite
  repeat' first | with_reducible assumption | exact Need.sub hp0 rfl | with_reducible apply State.ev_traceLostFirst | split

theorem State.ev_writeReg {Q0 : StatePart → Bool} (hp0 : Need Q0 [.host, .mm, .traceLost, .ports, .subs, .regs, .out, .mem]) {s0 s : State} (ev : Ev Q0 s0 s) (o : Nat) (v : Nat) : Ev Q0 s0 (State.writeReg s o v) := by
  unfold State.writeReg
  repeat' first | with_reducible assumption | exact Need.sub hp0 rfl | with_reducible apply State.ev_writeFields | with_reducible apply State.ev_lnkCfgWrite | with_reducible apply State.ev_dilWrite | with_reducible apply State.ev_deckWrite | with_reducible apply State.ev_ctlWrite | with_reducible apply State.ev_chkWrite | with_reducible apply State.ev_trcWrite | with_reducible apply State.ev_afterWrite | split

theorem State.ev_write32 {Q0 : StatePart → Bool} (hp0 : Need Q0 [.host, .mm, .traceLost, .ports, .subs, .regs, .out, .mem]) {s0 s : State} (ev : Ev Q0 s0 s) (o : Nat) (v : Nat) : Ev Q0 s0 (State.write32 s o v) := by
  unfold State.write32
  repeat' first | with_reducible assumption | exact Need.sub hp0 rfl | with_reducible apply State.ev_writeReg | with_reducible apply State.ev_countLocked | split

theorem State.ev_write64 {Q0 : StatePart → Bool} (hp0 : Need Q0 [.host, .mm, .traceLost, .ports, .subs, .regs, .out, .mem]) {s0 s : State} (ev : Ev Q0 s0 s) (o : Nat) (v : Nat) : Ev Q0 s0 (State.write64 s o v) := by
  unfold State.write64
  repeat' first | with_reducible assumption | exact Need.sub hp0 rfl | ((try lift_lets -underBinder); intro x; first | (refine Ev.cut (P := Q0) (s0 := s0) (x := x) ?_ (fun hx => ?_); unfold x) | (refine Ev.cutP (P := Q0) (s0 := s0) (x := x) (by unfold x; exact rfl) ?_ (fun hx => ?_)) | skip) | with_reducible apply State.ev_bumpSat | with_reducible apply State.ev_writeReg | with_reducible apply State.ev_write32 | split

theorem State.ev_reply {Q0 : StatePart → Bool} (hp0 : Need Q0 [.out]) {s0 : State} {x : State × Nat} (ev : Ev Q0 s0 x.1) (r size : Nat) : Ev Q0 s0 (State.reply x r size) := State.ev_emit hp0 ev _

theorem State.ev_zeroReply {Q0 : StatePart → Bool} (hp0 : Need Q0 [.out]) {s0 s : State} (ev : Ev Q0 s0 s) (r : Nat) (n : Nat) (write : Bool) : Ev Q0 s0 (State.zeroReply s r n write) := by
  unfold State.zeroReply
  repeat' first | with_reducible assumption | exact Need.sub hp0 rfl | with_reducible apply State.ev_emit | split

theorem State.ev_debugZero {Q0 : StatePart → Bool} (hp0 : Need Q0 [.out]) {s0 s : State} (ev : Ev Q0 s0 s) (write : Bool) : Ev Q0 s0 (State.debugZero s write) := by
  unfold State.debugZero
  repeat' first | with_reducible assumption | exact Need.sub hp0 rfl | with_reducible apply State.ev_emit | split

theorem execRegisterWrite_ev {Q0 : StatePart → Bool} (hp0 : Need Q0 [.mm, .traceLost, .regs, .mem]) {s0 s : State} (ev : Ev Q0 s0 s) (req : Fin 8) (offset : BitVec 26) (value : Word) : ∃ t, (execRegisterWrite req offset value s) = .next t ∧ Ev Q0 s0 t := by
  unfold execRegisterWrite
  refine ⟨_, rfl, ?_⟩
  repeat' first | with_reducible assumption | exact Need.sub hp0 rfl | ((try lift_lets -underBinder); intro x; first | (refine Ev.cut (P := Q0) (s0 := s0) (x := x) ?_ (fun hx => ?_); unfold x) | (refine Ev.cutP (P := Q0) (s0 := s0) (x := x) (by unfold x; exact rfl) ?_ (fun hx => ?_)) | skip) | with_reducible apply State.ev_afterWrite | with_reducible apply State.ev_writeFields | with_reducible apply State.ev_countLocked | split

theorem execW1cWrite_ev {Q0 : StatePart → Bool} (hp0 : Need Q0 [.regs]) {s0 s : State} (ev : Ev Q0 s0 s) (req : Fin 8) (offset : BitVec 26) (value : Word) : ∃ t, (execW1cWrite req offset value s) = .next t ∧ Ev Q0 s0 t := by
  unfold execW1cWrite
  refine ⟨_, rfl, ?_⟩
  repeat' first | with_reducible assumption | exact Need.sub hp0 rfl | ((try lift_lets -underBinder); intro x; first | (refine Ev.cut (P := Q0) (s0 := s0) (x := x) ?_ (fun hx => ?_); unfold x) | (refine Ev.cutP (P := Q0) (s0 := s0) (x := x) (by unfold x; exact rfl) ?_ (fun hx => ?_)) | skip) | with_reducible apply State.ev_writeFields | with_reducible apply State.ev_countLocked | split

theorem execRcFieldRead_ev {Q0 : StatePart → Bool} (hp0 : Need Q0 [.latches, .regs, .out]) {s0 s : State} (ev : Ev Q0 s0 s) (req : Fin 8) (offset : BitVec 26) : ∃ t, (execRcFieldRead req offset s) = .next t ∧ Ev Q0 s0 t := by
  unfold execRcFieldRead
  refine ⟨_, rfl, ?_⟩
  repeat' first | with_reducible assumption | exact Need.sub hp0 rfl | ((try lift_lets -underBinder); intro x; first | (refine Ev.cut (P := Q0) (s0 := s0) (x := x) ?_ (fun hx => ?_); unfold x) | (refine Ev.cutP (P := Q0) (s0 := s0) (x := x) (by unfold x; exact rfl) ?_ (fun hx => ?_)) | skip) | with_reducible apply State.ev_reply | with_reducible apply State.ev_read32 | with_reducible refine State.ev_read32_eq (Need.sub hp0 rfl) ?_ _ _ (by with_reducible assumption) | split

theorem execPairLowRead_ev {Q0 : StatePart → Bool} (hp0 : Need Q0 [.latches, .regs, .out]) {s0 s : State} (ev : Ev Q0 s0 s) (req : Fin 8) (offset : BitVec 26) : ∃ t, (execPairLowRead req offset s) = .next t ∧ Ev Q0 s0 t := by
  unfold execPairLowRead
  refine ⟨_, rfl, ?_⟩
  repeat' first | with_reducible assumption | exact Need.sub hp0 rfl | ((try lift_lets -underBinder); intro x; first | (refine Ev.cut (P := Q0) (s0 := s0) (x := x) ?_ (fun hx => ?_); unfold x) | (refine Ev.cutP (P := Q0) (s0 := s0) (x := x) (by unfold x; exact rfl) ?_ (fun hx => ?_)) | skip) | with_reducible apply State.ev_reply | with_reducible apply State.ev_read32 | with_reducible refine State.ev_read32_eq (Need.sub hp0 rfl) ?_ _ _ (by with_reducible assumption) | split

theorem execPairHighRead_ev {Q0 : StatePart → Bool} (hp0 : Need Q0 [.latches, .regs, .out]) {s0 s : State} (ev : Ev Q0 s0 s) (req : Fin 8) (offset : BitVec 26) : ∃ t, (execPairHighRead req offset s) = .next t ∧ Ev Q0 s0 t := by
  unfold execPairHighRead
  refine ⟨_, rfl, ?_⟩
  repeat' first | with_reducible assumption | exact Need.sub hp0 rfl | ((try lift_lets -underBinder); intro x; first | (refine Ev.cut (P := Q0) (s0 := s0) (x := x) ?_ (fun hx => ?_); unfold x) | (refine Ev.cutP (P := Q0) (s0 := s0) (x := x) (by unfold x; exact rfl) ?_ (fun hx => ?_)) | skip) | with_reducible apply State.ev_reply | with_reducible apply State.ev_read32 | with_reducible refine State.ev_read32_eq (Need.sub hp0 rfl) ?_ _ _ (by with_reducible assumption) | split

theorem execPair64bitAccess_ev {Q0 : StatePart → Bool} (hp0 : Need Q0 [.latches, .host, .mm, .traceLost, .ports, .subs, .regs, .out, .mem]) {s0 s : State} (ev : Ev Q0 s0 s) (req : Fin 8) (offset : BitVec 26) (write : Option DWord) : ∃ t, (execPair64bitAccess req offset write s) = .next t ∧ Ev Q0 s0 t := by
  unfold execPair64bitAccess
  refine ⟨_, rfl, ?_⟩
  repeat' first | with_reducible assumption | exact Need.sub hp0 rfl | ((try lift_lets -underBinder); intro x; first | (refine Ev.cut (P := Q0) (s0 := s0) (x := x) ?_ (fun hx => ?_); unfold x) | (refine Ev.cutP (P := Q0) (s0 := s0) (x := x) (by unfold x; exact rfl) ?_ (fun hx => ?_)) | skip) | with_reducible apply State.ev_write64 | with_reducible apply State.ev_reply | with_reducible apply State.ev_read64 | with_reducible refine State.ev_read64_eq (Need.sub hp0 rfl) ?_ _ _ (by with_reducible assumption) | split

theorem execNarrowRead_ev {Q0 : StatePart → Bool} (hp0 : Need Q0 [.regs, .out]) {s0 s : State} (ev : Ev Q0 s0 s) (req : Fin 8) (offset : BitVec 26) (half : Bool) : ∃ t, (execNarrowRead req offset half s) = .next t ∧ Ev Q0 s0 t := by
  unfold execNarrowRead
  refine ⟨_, rfl, ?_⟩
  repeat' first | with_reducible assumption | exact Need.sub hp0 rfl | ((try lift_lets -underBinder); intro x; first | (refine Ev.cut (P := Q0) (s0 := s0) (x := x) ?_ (fun hx => ?_); unfold x) | (refine Ev.cutP (P := Q0) (s0 := s0) (x := x) (by unfold x; exact rfl) ?_ (fun hx => ?_)) | skip) | with_reducible apply State.ev_reply | with_reducible apply State.ev_clearRc | split

theorem execBadAccess_ev {Q0 : StatePart → Bool} (hp0 : Need Q0 [.regs, .out]) {s0 s : State} (ev : Ev Q0 s0 s) (req : Fin 8) (offset : BitVec 26) (size : Fin 4) (write : Bool) : ∃ t, (execBadAccess req offset size write s) = .next t ∧ Ev Q0 s0 t := by
  unfold execBadAccess
  refine ⟨_, rfl, ?_⟩
  repeat' first | with_reducible assumption | exact Need.sub hp0 rfl | ((try lift_lets -underBinder); intro x; first | (refine Ev.cut (P := Q0) (s0 := s0) (x := x) ?_ (fun hx => ?_); unfold x) | (refine Ev.cutP (P := Q0) (s0 := s0) (x := x) (by unfold x; exact rfl) ?_ (fun hx => ?_)) | skip) | with_reducible apply State.ev_zeroReply | with_reducible apply State.ev_bumpSat | split

theorem execUnmappedAccess_ev {Q0 : StatePart → Bool} (hp0 : Need Q0 [.regs, .out]) {s0 s : State} (ev : Ev Q0 s0 s) (req : Fin 8) (offset : BitVec 26) (size : Fin 4) (write : Bool) : ∃ t, (execUnmappedAccess req offset size write s) = .next t ∧ Ev Q0 s0 t := by
  unfold execUnmappedAccess
  refine ⟨_, rfl, ?_⟩
  repeat' first | with_reducible assumption | exact Need.sub hp0 rfl | ((try lift_lets -underBinder); intro x; first | (refine Ev.cut (P := Q0) (s0 := s0) (x := x) ?_ (fun hx => ?_); unfold x) | (refine Ev.cutP (P := Q0) (s0 := s0) (x := x) (by unfold x; exact rfl) ?_ (fun hx => ?_)) | skip) | with_reducible apply State.ev_zeroReply | with_reducible apply State.ev_bumpSat | split

theorem execResetBlockedAccess_ev {Q0 : StatePart → Bool} (hp0 : Need Q0 [.regs, .out]) {s0 s : State} (ev : Ev Q0 s0 s) (req : Fin 8) (offset : BitVec 26) (size : Fin 4) (write : Bool) : ∃ t, (execResetBlockedAccess req offset size write s) = .next t ∧ Ev Q0 s0 t := by
  unfold execResetBlockedAccess
  refine ⟨_, rfl, ?_⟩
  repeat' first | with_reducible assumption | exact Need.sub hp0 rfl | ((try lift_lets -underBinder); intro x; first | (refine Ev.cut (P := Q0) (s0 := s0) (x := x) ?_ (fun hx => ?_); unfold x) | (refine Ev.cutP (P := Q0) (s0 := s0) (x := x) (by unfold x; exact rfl) ?_ (fun hx => ?_)) | skip) | with_reducible apply State.ev_zeroReply | with_reducible apply State.ev_bumpSat | split

theorem execSetupLockWrite_ev {Q0 : StatePart → Bool} (hp0 : Need Q0 [.regs]) {s0 s : State} (ev : Ev Q0 s0 s) (req : Fin 8) (value : Word) : ∃ t, (execSetupLockWrite req value s) = .next t ∧ Ev Q0 s0 t := by
  unfold execSetupLockWrite
  refine ⟨_, rfl, ?_⟩
  repeat' first | with_reducible assumption | exact Need.sub hp0 rfl | with_reducible apply State.ev_writeFields | with_reducible apply State.ev_countLocked | split

theorem execDilValidWrite_ev {Q0 : StatePart → Bool} (hp0 : Need Q0 [.regs]) {s0 s : State} (ev : Ev Q0 s0 s) (req : Fin 8) (region : Fin 16) (value : Word) : ∃ t, (execDilValidWrite req region value s) = .next t ∧ Ev Q0 s0 t := by
  unfold execDilValidWrite
  refine ⟨_, rfl, ?_⟩
  repeat' first | with_reducible assumption | exact Need.sub hp0 rfl | ((try lift_lets -underBinder); intro x; first | (refine Ev.cut (P := Q0) (s0 := s0) (x := x) ?_ (fun hx => ?_); unfold x) | (refine Ev.cutP (P := Q0) (s0 := s0) (x := x) (by unfold x; exact rfl) ?_ (fun hx => ?_)) | skip) | with_reducible apply State.ev_dilWrite | with_reducible apply State.ev_countLocked | split

theorem execDeckSplitWrite_ev {Q0 : StatePart → Bool} (hp0 : Need Q0 [.mm, .regs]) {s0 s : State} (ev : Ev Q0 s0 s) (req : Fin 8) (span : SpanIx) (value : Word) : ∃ t, (execDeckSplitWrite req span value s) = .next t ∧ Ev Q0 s0 t := by
  unfold execDeckSplitWrite
  refine ⟨_, rfl, ?_⟩
  repeat' first | with_reducible assumption | exact Need.sub hp0 rfl | ((try lift_lets -underBinder); intro x; first | (refine Ev.cut (P := Q0) (s0 := s0) (x := x) ?_ (fun hx => ?_); unfold x) | (refine Ev.cutP (P := Q0) (s0 := s0) (x := x) (by unfold x; exact rfl) ?_ (fun hx => ?_)) | skip) | with_reducible apply State.ev_deckWrite | with_reducible apply State.ev_countLocked | split

theorem execCtlEnableWrite_ev {Q0 : StatePart → Bool} (hp0 : Need Q0 [.host, .regs, .out]) {s0 s : State} (ev : Ev Q0 s0 s) (req : Fin 8) (ring : Fin 8) (value : Word) : ∃ t, (execCtlEnableWrite req ring value s) = .next t ∧ Ev Q0 s0 t := by
  unfold execCtlEnableWrite
  refine ⟨_, rfl, ?_⟩
  repeat' first | with_reducible assumption | exact Need.sub hp0 rfl | ((try lift_lets -underBinder); intro x; first | (refine Ev.cut (P := Q0) (s0 := s0) (x := x) ?_ (fun hx => ?_); unfold x) | (refine Ev.cutP (P := Q0) (s0 := s0) (x := x) (by unfold x; exact rfl) ?_ (fun hx => ?_)) | skip) | with_reducible apply State.ev_ctlWrite | with_reducible apply State.ev_countLocked | split

theorem execChkPresetCfgWrite_ev {Q0 : StatePart → Bool} (hp0 : Need Q0 [.regs]) {s0 s : State} (ev : Ev Q0 s0 s) (req : Fin 8) (preset : Fin 16) (value : Word) : ∃ t, (execChkPresetCfgWrite req preset value s) = .next t ∧ Ev Q0 s0 t := by
  unfold execChkPresetCfgWrite
  refine ⟨_, rfl, ?_⟩
  repeat' first | with_reducible assumption | exact Need.sub hp0 rfl | ((try lift_lets -underBinder); intro x; first | (refine Ev.cut (P := Q0) (s0 := s0) (x := x) ?_ (fun hx => ?_); unfold x) | (refine Ev.cutP (P := Q0) (s0 := s0) (x := x) (by unfold x; exact rfl) ?_ (fun hx => ?_)) | skip) | with_reducible apply State.ev_chkWrite | with_reducible apply State.ev_countLocked | split

theorem execTraceEnableWrite_ev {Q0 : StatePart → Bool} (hp0 : Need Q0 [.regs]) {s0 s : State} (ev : Ev Q0 s0 s) (req : Fin 8) (core : LCore) (value : Word) : ∃ t, (execTraceEnableWrite req core value s) = .next t ∧ Ev Q0 s0 t := by
  unfold execTraceEnableWrite
  refine ⟨_, rfl, ?_⟩
  repeat' first | with_reducible assumption | exact Need.sub hp0 rfl | ((try lift_lets -underBinder); intro x; first | (refine Ev.cut (P := Q0) (s0 := s0) (x := x) ?_ (fun hx => ?_); unfold x) | (refine Ev.cutP (P := Q0) (s0 := s0) (x := x) (by unfold x; exact rfl) ?_ (fun hx => ?_)) | skip) | with_reducible apply State.ev_trcWrite | with_reducible apply State.ev_countLocked | split

theorem execDebugPortAccess_ev {Q0 : StatePart → Bool} (hp0 : Need Q0 [.latches, .host, .mm, .traceLost, .ports, .subs, .hk, .regs, .out, .mem]) {s0 s : State} (ev : Ev Q0 s0 s) (dap : Bool) (space : Fin 3) (addr : DevAddr) (value : Option Word) : ∃ t, (execDebugPortAccess dap space addr value s) = .next t ∧ Ev Q0 s0 t := by
  unfold execDebugPortAccess
  refine ⟨_, rfl, ?_⟩
  repeat' first | with_reducible assumption | exact Need.sub hp0 rfl | ((try lift_lets -underBinder); intro x; first | (refine Ev.cut (P := Q0) (s0 := s0) (x := x) ?_ (fun hx => ?_); unfold x) | (refine Ev.cutP (P := Q0) (s0 := s0) (x := x) (by unfold x; exact rfl) ?_ (fun hx => ?_)) | skip) | with_reducible apply State.ev_debugZero | with_reducible apply State.ev_bumpSat | with_reducible apply State.ev_write32 | with_reducible apply State.ev_read32 | with_reducible apply State.ev_emit | with_reducible apply State.ev_st | with_reducible apply State.ev_setHk | with_reducible refine State.ev_read32_eq (Need.sub hp0 rfl) ?_ _ _ (by with_reducible assumption) | split

end Sys2Proof.Machine
end

