-- ==== Sys2Proof/Laws/Exec.lean ====
section
/-! SUPPORT. What every command leaves: `exec` always answers a next state, and that state stands in the relation `Ev` to the one before it. -/

namespace Sys2Proof.Machine

open Sys2Proof

/-- Every command answers a next state, and what it leaves stands in `Ev` to every state the state before stood in it to. -/
theorem exec_ev {P : StatePart → Bool} {s0 s : State} (i : Instr) (hp : Need P (touches i)) (ev : Ev P s0 s) : ∃ t, exec i s = .next t ∧ Ev P s0 t := by
  cases i with
  | registerWrite req offset value => exact execRegisterWrite_ev hp ev req offset value
  | w1cWrite req offset value => exact execW1cWrite_ev hp ev req offset value
  | rcFieldRead req offset => exact execRcFieldRead_ev hp ev req offset
  | pairLowRead req offset => exact execPairLowRead_ev hp ev req offset
  | pairHighRead req offset => exact execPairHighRead_ev hp ev req offset
  | pair64bitAccess req offset write => exact execPair64bitAccess_ev hp ev req offset write
  | narrowRead req offset half => exact execNarrowRead_ev hp ev req offset half
  | badAccess req offset size write => exact execBadAccess_ev hp ev req offset size write
  | unmappedAccess req offset size write => exact execUnmappedAccess_ev hp ev req offset size write
  | setupLockWrite req value => exact execSetupLockWrite_ev hp ev req value
  | resetBlockedAccess req offset size write => exact execResetBlockedAccess_ev hp ev req offset size write
  | dilValidWrite req region value => exact execDilValidWrite_ev hp ev req region value
  | deckSplitWrite req span value => exact execDeckSplitWrite_ev hp ev req span value
  | deckSplitApply span => exact execDeckSplitApply_ev hp ev span
  | ctlEnableWrite req ring value => exact execCtlEnableWrite_ev hp ev req ring value
  | lnkCfgWrite port value => exact execLnkCfgWrite_ev hp ev port value
  | chkPresetCfgWrite req preset value => exact execChkPresetCfgWrite_ev hp ev req preset value
  | traceEnableWrite req core value => exact execTraceEnableWrite_ev hp ev req core value
  | porRelease loc plan par => exact execPorRelease_ev hp ev loc plan par
  | porAssert => exact execPorAssert_ev hp ev
  | vinAonLoss => exact execVinAonLoss_ev hp ev
  | railOutOfRange rail mv => exact execRailOutOfRange_ev hp ev rail mv
  | railRestored rail => exact execRailRestored_ev hp ev rail
  | bootStageDone stage die ok bad0 bad1 => exact execBootStageDone_ev hp ev stage die ok bad0 bad1
  | stackTrainAttemptDone stack ok => exact execStackTrainAttemptDone_ev hp ev stack ok
  | spanReady span => exact execSpanReady_ev hp ev span
  | stackHandover stack => exact execStackHandover_ev hp ev stack
  | perstAssert port ptrs => exact execPerstAssert_ev hp ev port ptrs
  | perstRelease port strapBif => exact execPerstRelease_ev hp ev port strapBif
  | functionLevelReset fid => exact execFunctionLevelReset_ev hp ev fid
  | hostLinkFail link readFailed ptrs => exact execHostLinkFail_ev hp ev link readFailed ptrs
  | ideSecureLoss link stream ptrs => exact execIdeSecureLoss_ev hp ev link stream ptrs
  | doorbellPoll fid => exact execDoorbellPoll_ev hp ev fid
  | summarySwapDone fid word bits => exact execSummarySwapDone_ev hp ev fid word bits
  | bellWrite fid value => exact execBellWrite_ev hp ev fid value
  | sqRecordReadDone sq tail => exact execSqRecordReadDone_ev hp ev sq tail
  | descriptorFetch sq desc => exact execDescriptorFetch_ev hp ev sq desc
  | cqHeadRead cq head => exact execCqHeadRead_ev hp ev cq head
  | recordPost cq => exact execRecordPost_ev hp ev cq
  | irqCoalesceTimeout cq => exact execIrqCoalesceTimeout_ev hp ev cq
  | nop sq => exact execNop_ev hp ev sq
  | stepSubmit sq => exact execStepSubmit_ev hp ev sq
  | hostCopy sq => exact execHostCopy_ev hp ev sq
  | hostCopyDone sq data fail hits => exact execHostCopyDone_ev hp ev sq data fail hits
  | ringCreate sq => exact execRingCreate_ev hp ev sq
  | ringDestroy sq => exact execRingDestroy_ev hp ev sq
  | ringDestroyDone ring => exact execRingDestroyDone_ev hp ev ring
  | ringMove sq ptr => exact execRingMove_ev hp ev sq ptr
  | funcConfig sq => exact execFuncConfig_ev hp ev sq
  | graphRegister sq => exact execGraphRegister_ev hp ev sq
  | graphUnregister sq => exact execGraphUnregister_ev hp ev sq
  | resolveStep sq => exact execResolveStep_ev hp ev sq
  | streamOpen sq img => exact execStreamOpen_ev hp ev sq img
  | streamSet sq img => exact execStreamSet_ev hp ev sq img
  | streamHold sq => exact execStreamHold_ev hp ev sq
  | streamRelease sq => exact execStreamRelease_ev hp ev sq
  | streamClose sq => exact execStreamClose_ev hp ev sq
  | streamPin sq => exact execStreamPin_ev hp ev sq
  | streamUnpin sq => exact execStreamUnpin_ev hp ev sq
  | streamRead sq ok => exact execStreamRead_ev hp ev sq ok
  | streamImport sq img => exact execStreamImport_ev hp ev sq img
  | hbmRetire sq => exact execHbmRetire_ev hp ev sq
  | hbmRekey sq => exact execHbmRekey_ev hp ev sq
  | hbmTest sq => exact execHbmTest_ev hp ev sq
  | hbmBistDone stack failing => exact execHbmBistDone_ev hp ev stack failing
  | powerCap sq => exact execPowerCap_ev hp ev sq
  | streamCtxCopyDone slot => exact execStreamCtxCopyDone_ev hp ev slot
  | streamCacheFetchDone stream => exact execStreamCacheFetchDone_ev hp ev stream
  | startTimeReached slot => exact execStartTimeReached_ev hp ev slot
  | stepRun slot => exact execStepRun_ev hp ev slot
  | tileEmit slot who => exact execTileEmit_ev hp ev slot who
  | tileArrive slot queue => exact execTileArrive_ev hp ev slot queue
  | slotRelease slot queue => exact execSlotRelease_ev hp ev slot queue
  | creditArrive slot queue => exact execCreditArrive_ev hp ev slot queue
  | endOp slot core inst => exact execEndOp_ev hp ev slot core inst
  | stepDrainEnd slot => exact execStepDrainEnd_ev hp ev slot
  | stepFault slot cause core inst => exact execStepFault_ev hp ev slot cause core inst
  | abortQuiesceDone slot => exact execAbortQuiesceDone_ev hp ev slot
  | abortStopTimeout slot core inst => exact execAbortStopTimeout_ev hp ev slot core inst
  | deadlineExpire slot => exact execDeadlineExpire_ev hp ev slot
  | inDoubtTimeout slot => exact execInDoubtTimeout_ev hp ev slot
  | readyReceive src => exact execReadyReceive_ev hp ev src
  | decideReceive src => exact execDecideReceive_ev hp ev src
  | decideAckReceive src => exact execDecideAckReceive_ev hp ev src
  | decideAckTimeout slice seq attempt => exact execDecideAckTimeout_ev hp ev slice seq attempt
  | takeoverCommitTimeout slot => exact execTakeoverCommitTimeout_ev hp ev slot
  | takeoverAbortTimeout slot => exact execTakeoverAbortTimeout_ev hp ev slot
  | decisionReceive src => exact execDecisionReceive_ev hp ev src
  | abortCellReceive src => exact execAbortCellReceive_ev hp ev src
  | pass slot core => exact execPass_ev hp ev slot core
  | trestlePassIssue slot core => exact execTrestlePassIssue_ev hp ev slot core
  | trestleGroupFeed slot core lost ecc off => exact execTrestleGroupFeed_ev hp ev slot core lost ecc off
  | trestleDrainStart slot core => exact execTrestleDrainStart_ev hp ev slot core
  | trestleTileOut slot core => exact execTrestleTileOut_ev hp ev slot core
  | trestleParityError slot core line => exact execTrestleParityError_ev hp ev slot core line
  | decode slot core => exact execDecode_ev hp ev slot core
  | codebookTileDecode slot core => exact execCodebookTileDecode_ev hp ev slot core
  | convert slot core ix => exact execConvert_ev hp ev slot core ix
  | ewise slot core => exact execEwise_ev hp ev slot core
  | map slot core => exact execMap_ev hp ev slot core
  | reduce slot core => exact execReduce_ev hp ev slot core
  | softmax slot core => exact execSoftmax_ev hp ev slot core
  | norm slot core => exact execNorm_ev hp ev slot core
  | topk slot core => exact execTopk_ev hp ev slot core
  | attend slot core hits => exact execAttend_ev hp ev slot core hits
  | compact slot core => exact execCompact_ev hp ev slot core
  | route slot core => exact execRoute_ev hp ev slot core
  | draw slot core => exact execDraw_ev hp ev slot core
  | accept slot core => exact execAccept_ev hp ev slot core
  | load slot core ix hits => exact execLoad_ev hp ev slot core ix hits
  | store slot core ix hits => exact execStore_ev hp ev slot core ix hits
  | kvAppend slot core ix => exact execKvAppend_ev hp ev slot core ix
  | patrolScrub stack hits => exact execPatrolScrub_ev hp ev stack hits
  | retirementCopyDone stack bad faulty => exact execRetirementCopyDone_ev hp ev stack bad faulty
  | skewWindowEnd stack => exact execSkewWindowEnd_ev hp ev stack
  | combineLineIdle span => exact execCombineLineIdle_ev hp ev span
  | spanResetEnter span => exact execSpanResetEnter_ev hp ev span
  | queue slot core receive ix => exact execQueue_ev hp ev slot core receive ix
  | queueCreditReceive src => exact execQueueCreditReceive_ev hp ev src
  | queueCellReceive src => exact execQueueCellReceive_ev hp ev src
  | queueChannelFree chan => exact execQueueChannelFree_ev hp ev chan
  | put slot core ix => exact execPut_ev hp ev slot core ix
  | copy slot core ix => exact execCopy_ev hp ev slot core ix
  | copyComplete die engine => exact execCopyComplete_ev hp ev die engine
  | atomic slot core ix => exact execAtomic_ev hp ev slot core ix
  | fence slot core ix => exact execFence_ev hp ev slot core ix
  | flag slot core ix => exact execFlag_ev hp ev slot core ix
  | get slot core ix => exact execGet_ev hp ev slot core ix
  | loadAtomicEngineSlot span => exact execLoadAtomicEngineSlot_ev hp ev span
  | rdReqReceive src hits => exact execRdReqReceive_ev hp ev src hits
  | wrReceive src => exact execWrReceive_ev hp ev src
  | atomicReceive src => exact execAtomicReceive_ev hp ev src
  | copyReceive src => exact execCopyReceive_ev hp ev src
  | copyAckFlush src reqId => exact execCopyAckFlush_ev hp ev src reqId
  | rdRspReceive src => exact execRdRspReceive_ev hp ev src
  | wrAckReceive src => exact execWrAckReceive_ev hp ev src
  | atomicRspReceive src => exact execAtomicRspReceive_ev hp ev src
  | errorRspReceive src => exact execErrorRspReceive_ev hp ev src
  | remoteTimeout reqId => exact execRemoteTimeout_ev hp ev reqId
  | waitGe slot core ix => exact execWaitGe_ev hp ev slot core ix
  | waitGeSatisfied slot core ix => exact execWaitGeSatisfied_ev hp ev slot core ix
  | append slot core ix => exact execAppend_ev hp ev slot core ix
  | verify slot core ix => exact execVerify_ev hp ev slot core ix
  | windowWrite sq data => exact execWindowWrite_ev hp ev sq data
  | sliceWrite sq data => exact execSliceWrite_ev hp ev sq data
  | run slot core => exact execRun_ev hp ev slot core
  | collectSlotFree slot seq => exact execCollectSlotFree_ev hp ev slot seq
  | collectDataStart core => exact execCollectDataStart_ev hp ev core
  | grantReceive src => exact execGrantReceive_ev hp ev src
  | collectDataReceive src => exact execCollectDataReceive_ev hp ev src
  | sizesReceive src entries => exact execSizesReceive_ev hp ev src entries
  | collectChunkSend core => exact execCollectChunkSend_ev hp ev core
  | collectComplete core => exact execCollectComplete_ev hp ev core
  | collectResendTimeout core node rep peer => exact execCollectResendTimeout_ev hp ev core node rep peer
  | collectGateOpen core => exact execCollectGateOpen_ev hp ev core
  | cellRoute port => exact execCellRoute_ev hp ev port
  | keystoneAdmit port sub => exact execKeystoneAdmit_ev hp ev port sub
  | landingToInput port => exact execLandingToInput_ev hp ev port
  | cellTransmit port sub => exact execCellTransmit_ev hp ev port sub
  | subportReroute port sub => exact execSubportReroute_ev hp ev port sub
  | creditCellReceive port sub => exact execCreditCellReceive_ev hp ev port sub
  | creditCellSend port sub => exact execCreditCellSend_ev hp ev port sub
  | creditStallTimeout port sub => exact execCreditStallTimeout_ev hp ev port sub
  | kStallTimeout port sub => exact execKStallTimeout_ev hp ev port sub
  | slowDestMark group => exact execSlowDestMark_ev hp ev group
  | telemetrySample => exact execTelemetrySample_ev hp ev
  | telemetryIntervalEnd => exact execTelemetryIntervalEnd_ev hp ev
  | rteWrite sq data => exact execRteWrite_ev hp ev sq data
  | psetWrite sq data => exact execPsetWrite_ev hp ev sq data
  | ovrWrite sq data => exact execOvrWrite_ev hp ev sq data
  | filterWrite sq data => exact execFilterWrite_ev hp ev sq data
  | portRole sq => exact execPortRole_ev hp ev sq
  | endpointAssign sq => exact execEndpointAssign_ev hp ev sq
  | telemetryCfg sq => exact execTelemetryCfg_ev hp ev sq
  | telemetryRead sq ok => exact execTelemetryRead_ev hp ev sq ok
  | codewordTransmit port sub => exact execCodewordTransmit_ev hp ev port sub
  | codewordReceive port sub n lanes => exact execCodewordReceive_ev hp ev port sub n lanes
  | nakReceive port sub => exact execNakReceive_ev hp ev port sub
  | replayReceive port sub => exact execReplayReceive_ev hp ev port sub
  | nakLost port sub => exact execNakLost_ev hp ev port sub
  | fillReceive port sub => exact execFillReceive_ev hp ev port sub
  | trainReceive port sub => exact execTrainReceive_ev hp ev port sub
  | lockAcquired port sub ok lanes => exact execLockAcquired_ev hp ev port sub ok lanes
  | identReceive port sub => exact execIdentReceive_ev hp ev port sub
  | certReceive port sub => exact execCertReceive_ev hp ev port sub
  | authReceive port sub => exact execAuthReceive_ev hp ev port sub
  | echoReqReceive port sub => exact execEchoReqReceive_ev hp ev port sub
  | echoRspReceive port sub frac => exact execEchoRspReceive_ev hp ev port sub frac
  | echoReqSend port sub => exact execEchoReqSend_ev hp ev port sub
  | lanemapReceive port sub => exact execLanemapReceive_ev hp ev port sub
  | swingCheckReceive port sub => exact execSwingCheckReceive_ev hp ev port sub
  | lockTimeout port sub => exact execLockTimeout_ev hp ev port sub
  | identTimeout port sub => exact execIdentTimeout_ev hp ev port sub
  | noLightTimeout port sub => exact execNoLightTimeout_ev hp ev port sub
  | nakStorm port sub => exact execNakStorm_ev hp ev port sub
  | heaterUpdate port rings => exact execHeaterUpdate_ev hp ev port rings
  | laneFail port chan rx laser => exact execLaneFail_ev hp ev port chan rx laser
  | spareLaserTuned port laser => exact execSpareLaserTuned_ev hp ev port laser
  | laserBiasSet port bias eol => exact execLaserBiasSet_ev hp ev port bias eol
  | swing entry => exact execSwing_ev hp ev entry
  | swingRelock port => exact execSwingRelock_ev hp ev port
  | swingTimeout port => exact execSwingTimeout_ev hp ev port
  | openFibreShutdown port => exact execOpenFibreShutdown_ev hp ev port
  | openFibreProbe port => exact execOpenFibreProbe_ev hp ev port
  | farLightDetect port => exact execFarLightDetect_ev hp ev port
  | disable sq => exact execDisable_ev hp ev sq
  | enable sq => exact execEnable_ev hp ev sq
  | retrain sq => exact execRetrain_ev hp ev sq
  | release sq => exact execRelease_ev hp ev sq
  | acceptPeer sq => exact execAcceptPeer_ev hp ev sq
  | setMode sq => exact execSetMode_ev hp ev sq
  | substitute sq => exact execSubstitute_ev hp ev sq
  | unsubstitute sq => exact execUnsubstitute_ev hp ev sq
  | portExpect sq => exact execPortExpect_ev hp ev sq
  | presetWrite sq => exact execPresetWrite_ev hp ev sq
  | todRecordWrite rec => exact execTodRecordWrite_ev hp ev rec
  | ppsEdge => exact execPpsEdge_ev hp ev
  | ppsTimeout => exact execPpsTimeout_ev hp ev
  | timeSourceLoss => exact execTimeSourceLoss_ev hp ev
  | holdoverTimeout => exact execHoldoverTimeout_ev hp ev
  | gateEntryBoundary port => exact execGateEntryBoundary_ev hp ev port
  | gateTakeover port => exact execGateTakeover_ev hp ev port
  | pauseReceive port sub => exact execPauseReceive_ev hp ev port sub
  | pauseExpire port sub => exact execPauseExpire_ev hp ev port sub
  | pauseAbuseTimeout port sub => exact execPauseAbuseTimeout_ev hp ev port sub
  | pauseIgnoreEnd port sub => exact execPauseIgnoreEnd_ev hp ev port sub
  | stepStart entry => exact execStepStart_ev hp ev entry
  | thermalSyncAction entry => exact execThermalSyncAction_ev hp ev entry
  | inject entry => exact execInject_ev hp ev entry
  | pauseSend entry => exact execPauseSend_ev hp ev entry
  | actionLate entry => exact execActionLate_ev hp ev entry
  | actionSkipped entry => exact execActionSkipped_ev hp ev entry
  | source sq => exact execSource_ev hp ev sq
  | step sq => exact execStep_ev hp ev sq
  | asym sq => exact execAsym_ev hp ev sq
  | pause sq => exact execPause_ev hp ev sq
  | gateWrite sq data => exact execGateWrite_ev hp ev sq data
  | actionWrite sq data => exact execActionWrite_ev hp ev sq data
  | regPhaseFail span phase => exact execRegPhaseFail_ev hp ev span phase
  | hbmPhaseFail stack => exact execHbmPhaseFail_ev hp ev stack
  | clockChange span => exact execClockChange_ev hp ev span
  | didtWindow span => exact execDidtWindow_ev hp ev span
  | didtDroop span => exact execDidtDroop_ev hp ev span
  | powerLimitEvent watts => exact execPowerLimitEvent_ev hp ev watts
  | marulCapExchange link first second repaired => exact execMarulCapExchange_ev hp ev link first second repaired
  | marulFlitReceive link rev sent recv => exact execMarulFlitReceive_ev hp ev link rev sent recv
  | marulNakReceive link rev => exact execMarulNakReceive_ev hp ev link rev
  | marulAckDue link rev => exact execMarulAckDue_ev hp ev link rev
  | marulLinkDown link lanes => exact execMarulLinkDown_ev hp ev link lanes
  | marulLinkRestore link => exact execMarulLinkRestore_ev hp ev link
  | sensorConversion sensor raw => exact execSensorConversion_ev hp ev sensor raw
  | roundStart => exact execRoundStart_ev hp ev
  | roundPublish stackTemps vmon imon watts => exact execRoundPublish_ev hp ev stackTemps vmon imon watts
  | throttleLoop core req0 req1 => exact execThrottleLoop_ev hp ev core req0 req1
  | hkFirmwareWrite core field target value => exact execHkFirmwareWrite_ev hp ev core field target value
  | hkWatchdogTimeout core => exact execHkWatchdogTimeout_ev hp ev core
  | hkCoreFault core => exact execHkCoreFault_ev hp ev core
  | hkLoad sq data => exact execHkLoad_ev hp ev sq data
  | hkStart core => exact execHkStart_ev hp ev core
  | hkRestart sq => exact execHkRestart_ev hp ev sq
  | hkStop sq => exact execHkStop_ev hp ev sq
  | thermalSet sq => exact execThermalSet_ev hp ev sq
  | thermalSync sq => exact execThermalSync_ev hp ev sq
  | thermalRead sq ok => exact execThermalRead_ev hp ev sq ok
  | noProgressTimeout slot core inst => exact execNoProgressTimeout_ev hp ev slot core inst
  | recoveryWindowEnd => exact execRecoveryWindowEnd_ev hp ev
  | l2 sq => exact execL2_ev hp ev sq
  | l3 sq => exact execL3_ev hp ev sq
  | l4 sq => exact execL4_ev hp ev sq
  | resetComplete ix => exact execResetComplete_ev hp ev ix
  | resetRelease sq => exact execResetRelease_ev hp ev sq
  | coreSwap sq => exact execCoreSwap_ev hp ev sq
  | coreTest sq => exact execCoreTest_ev hp ev sq
  | coreTestDone core pass => exact execCoreTestDone_ev hp ev core pass
  | coreRetire sq => exact execCoreRetire_ev hp ev sq
  | logRead sq ok => exact execLogRead_ev hp ev sq ok
  | injectPlan sq data => exact execInjectPlan_ev hp ev sq data
  | injectStart sq => exact execInjectStart_ev hp ev sq
  | injectCancel sq => exact execInjectCancel_ev hp ev sq
  | wavelengthDrop plan => exact execWavelengthDrop_ev hp ev plan
  | codewordCorrupt plan excess => exact execCodewordCorrupt_ev hp ev plan excess
  | hbmCe plan => exact execHbmCe_ev hp ev plan
  | hbmPoison plan => exact execHbmPoison_ev hp ev plan
  | stationHang plan => exact execStationHang_ev hp ev plan
  | sensor plan => exact execSensor_ev hp ev plan
  | hkStopInject plan => exact execHkStopInject_ev hp ev plan
  | spareRotateDue span => exact execSpareRotateDue_ev hp ev span
  | getVersion chan => exact execGetVersion_ev hp ev chan
  | getCapabilities chan => exact execGetCapabilities_ev hp ev chan
  | negotiateAlgorithms chan offered => exact execNegotiateAlgorithms_ev hp ev chan offered
  | getDigests chan => exact execGetDigests_ev hp ev chan
  | getCertificate chan slot offset length => exact execGetCertificate_ev hp ev chan slot offset length
  | challenge chan slot nonce => exact execChallenge_ev hp ev chan slot nonce
  | getMeasurements chan sign index nonce => exact execGetMeasurements_ev hp ev chan sign index nonce
  | keyExchange chan slot share => exact execKeyExchange_ev hp ev chan slot share
  | finish chan session verified => exact execFinish_ev hp ev chan session verified
  | heartbeat chan session => exact execHeartbeat_ev hp ev chan session
  | keyUpdate chan session op => exact execKeyUpdate_ev hp ev chan session op
  | endSession chan session => exact execEndSession_ev hp ev chan session
  | ownerBind sq data => exact execOwnerBind_ev hp ev sq data
  | ownerRevoke sq => exact execOwnerRevoke_ev hp ev sq
  | ownerRelease sq => exact execOwnerRelease_ev hp ev sq
  | svnAdvance sq => exact execSvnAdvance_ev hp ev sq
  | debugChallenge sq ok => exact execDebugChallenge_ev hp ev sq ok
  | debugUnlock sq token ptrs => exact execDebugUnlock_ev hp ev sq token ptrs
  | debugEraseDone => exact execDebugEraseDone_ev hp ev
  | lineKey sq data => exact execLineKey_ev hp ev sq data
  | lineKeyActivate port sub => exact execLineKeyActivate_ev hp ev port sub
  | corePower sq => exact execCorePower_ev hp ev sq
  | portPower sq => exact execPortPower_ev hp ev sq
  | coreIdleEnter core => exact execCoreIdleEnter_ev hp ev core
  | corePark core => exact execCorePark_ev hp ev core
  | coreWakeDone core => exact execCoreWakeDone_ev hp ev core
  | powerOn => exact execPowerOn_ev hp ev
  | hostLinkUp link speed width atomics => exact execHostLinkUp_ev hp ev link speed width atomics
  | hostLinkDown link => exact execHostLinkDown_ev hp ev link
  | d3hot fid enter => exact execD3hot_ev hp ev fid enter
  | vfEnableWrite fid enable => exact execVfEnableWrite_ev hp ev fid enable
  | msixUnmask fid vec => exact execMsixUnmask_ev hp ev fid vec
  | ideKm link session stream => exact execIdeKm_ev hp ev link session stream
  | doeDiscovery link index => exact execDoeDiscovery_ev hp ev link index
  | openFibreProbeEnd port => exact execOpenFibreProbeEnd_ev hp ev port
  | wavelengthDropEnd port chan => exact execWavelengthDropEnd_ev hp ev port chan
  | debugPortAccess dap space addr value => exact execDebugPortAccess_ev hp ev dap space addr value

end Sys2Proof.Machine
end

