-- ==== Sys2Proof/Laws/Marul.lean ====
section
/-! SUPPORT. Little-endian records read back what they hold, and a flit made with its CRC checks (R593). -/

namespace Sys2Proof.Machine

open Sys2Proof

@[simp] theorem length_leBytes (k n : Nat) : (leBytes k n).length = k := by
  induction k generalizing n with
  | zero => rfl
  | succ k ih => simp only [leBytes, List.length_cons, ih]

@[simp] theorem length_byteField (d : List Byte) (lo n : Nat) : (byteField d lo n).length = n := by
  simp only [byteField, List.length_map, List.length_range]

/-- k little-endian bytes hold a number modulo 2⁸ᵏ. -/
theorem leNat_leBytes (k n : Nat) : leNat (leBytes k n) = n % 2 ^ (8 * k) := by
  induction k generalizing n with
  | zero => simp only [leBytes, leNat, Nat.mul_zero, Nat.pow_zero, Nat.mod_one]
  | succ k ih =>
    have e : 2 ^ (8 * (k + 1)) = 256 * 2 ^ (8 * k) := by rw [Nat.mul_succ, Nat.pow_add, Nat.mul_comm]
    simp only [leBytes, leNat, ih, BitVec.toNat_ofNat]
    rw [e, Nat.mod_mul, show (2 : Nat) ^ 8 = 256 from rfl]

/-- The bytes of a record after a first part. -/
theorem byteField_append (a b : List Byte) (n : Nat) (h : n = b.length) : byteField (a ++ b) a.length n = b := by
  subst h
  apply List.ext_getElem
  · simp only [length_byteField]
  · intro i h1 h2
    simp only [byteField, List.getElem_map, List.getElem_range]
    rw [List.getD_eq_getElem?_getD, List.getElem?_append_right (by omega), Nat.add_sub_cancel_left, List.getElem?_eq_getElem h2, Option.getD_some]

/-- A flit made of a header and a payload checks. -/
theorem flitGood_mkFlit (h : Nat) (p : List Byte) : flitGood (mkFlit h p) = true := by
  have la : (leBytes 8 h ++ byteField p 0 240).length = 248 := by simp only [List.length_append, length_leBytes, length_byteField]
  have hc : ∀ b, crcOf presetCrc64 b < 2 ^ 64 := fun b => Nat.mod_lt _ (by decide)
  simp only [flitGood, mkFlit]
  generalize hb : leBytes 8 h ++ byteField p 0 240 = b at la ⊢
  have e1 : (b ++ leBytes 8 (crcOf presetCrc64 b)).length = 256 := by simp only [List.length_append, length_leBytes, la]
  have e2 : (b ++ leBytes 8 (crcOf presetCrc64 b)).take 248 = b := by rw [← la]; exact List.take_left ..
  have e3 : recNat (b ++ leBytes 8 (crcOf presetCrc64 b)) 248 8 = crcOf presetCrc64 b := by
    unfold recNat
    rw [show (248 : Nat) = b.length from la.symm, byteField_append _ _ _ (length_leBytes ..).symm, leNat_leBytes]
    exact Nat.mod_eq_of_lt (hc b)
  rw [e1, e2, e3]; simp only [beq_self_eq_true, Bool.and_self]

end Sys2Proof.Machine
end

