-- ==== Sys2Proof/Laws/Operands.lean ====
section
/-! SUPPORT. What the common frame of a station's op does: an instance with an op of the wanted opcode in hand runs the op's body. -/

namespace Sys2Proof.Machine

open Sys2Proof

/-- An op that has started, with nothing staged, runs its body. -/
theorem State.runOp_started {s : State} {slot core inst code : Nat} {known : List Nat} {ok : OpCtx → Bool} {body : State → OpCtx → State} {x : OpCtx}
    (ha : s.active slot core inst = some x) (he : x.atEnd = false) (ho : x.run.outbox = []) (ht : s.tripHolds inst = false) (hs : x.run.started = true)
    (hc : opCode x.op = code) (hk : known.contains code = true) : s.runOp slot core inst known code ok body = body s x := by
  subst hc
  simp only [State.runOp, ha, he, ho, ht, hk, State.startOp, hs, List.isEmpty_nil, Bool.not_true, Bool.or_self, Bool.false_eq_true, ↓reduceIte, ne_eq,
    not_true_eq_false]

/-- An op that has not started and passes its chapter's checks starts; its body then runs if the instance is still active. -/
theorem State.runOp_starts {s : State} {slot core inst code : Nat} {known : List Nat} {ok : OpCtx → Bool} {body : State → OpCtx → State} {x : OpCtx}
    (ha : s.active slot core inst = some x) (he : x.atEnd = false) (ho : x.run.outbox = []) (ht : s.tripHolds inst = false) (hs : x.run.started = false)
    (hc : opCode x.op = code) (hk : known.contains code = true) (hx : ok x = true) :
    s.runOp slot core inst known code ok body =
      match (((s.traceInst x.step x.core x.inst (opNode x.op) 0x02 x.opIx (opRepeat x.op)).modInst x.slot x.core x.inst fun r => { r with started := true })).active
        slot core inst with
      | some y => body ((s.traceInst x.step x.core x.inst (opNode x.op) 0x02 x.opIx (opRepeat x.op)).modInst x.slot x.core x.inst fun r => { r with started := true }) y
      | none => (s.traceInst x.step x.core x.inst (opNode x.op) 0x02 x.opIx (opRepeat x.op)).modInst x.slot x.core x.inst fun r => { r with started := true } := by
  subst hc
  simp only [State.runOp, ha, he, ho, ht, hk, State.startOp, hs, hx, List.isEmpty_nil, Bool.not_true, Bool.or_self, Bool.false_eq_true, ↓reduceIte, ne_eq,
    not_true_eq_false] <;> rfl

end Sys2Proof.Machine
end

