-- ==== Sys2Proof/Laws/Registers.lean ====
section
/-! SUPPORT. Fields of setup registers: a field written reads back, and writing it leaves every field that shares no bit with it, and every other register, as they were. -/

namespace Sys2Proof.Machine

open Sys2Proof

theorem testBit_bitsOf (v hi lo i : Nat) : (bitsOf v hi lo).testBit i = (decide (i < hi + 1 - lo) && v.testBit (lo + i)) := by
  simp [bitsOf, Nat.testBit_mod_two_pow, Nat.testBit_shiftRight]

theorem bitsOf_lt (v hi lo : Nat) : bitsOf v hi lo < 2 ^ (hi + 1 - lo) := Nat.mod_lt _ (Nat.two_pow_pos _)

/-- A value put together again around bits hi to lo. -/
theorem putBits_eq (v x : Nat) {hi lo : Nat} (h : lo ≤ hi) :
    putBits v hi lo x = 2 ^ (hi + 1) * (v >>> (hi + 1)) + (2 ^ lo * (x % 2 ^ (hi + 1 - lo)) + v % 2 ^ lo) := by
  have e1 : v = 2 ^ lo * (v >>> lo) + v % 2 ^ lo := by rw [Nat.shiftRight_eq_div_pow]; exact (Nat.div_add_mod v _).symm
  have e2 : v >>> lo = 2 ^ (hi + 1 - lo) * (v >>> (hi + 1)) + bitsOf v hi lo := by
    have : v >>> (hi + 1) = (v >>> lo) >>> (hi + 1 - lo) := by rw [← Nat.shiftRight_add]; congr 1; omega
    rw [this, Nat.shiftRight_eq_div_pow (v >>> lo)]; exact (Nat.div_add_mod _ _).symm
  have e3 : 2 ^ (hi + 1) = 2 ^ lo * 2 ^ (hi + 1 - lo) := by rw [← Nat.pow_add]; congr 1; omega
  have e4 : v = 2 ^ (hi + 1) * (v >>> (hi + 1)) + (bitsOf v hi lo * 2 ^ lo + v % 2 ^ lo) := by
    rw [e3, Nat.mul_assoc, Nat.mul_comm (bitsOf v hi lo), ← Nat.add_assoc, ← Nat.mul_add, ← e2]; exact e1
  unfold putBits
  generalize hA : 2 ^ (hi + 1) * (v >>> (hi + 1)) = A at e4 ⊢
  generalize hB : bitsOf v hi lo * 2 ^ lo = B at e4 ⊢
  rw [Nat.mul_comm (x % 2 ^ (hi + 1 - lo))]
  omega

theorem testBit_putBits (v x : Nat) {hi lo : Nat} (h : lo ≤ hi) (i : Nat) :
    (putBits v hi lo x).testBit i = if lo ≤ i ∧ i ≤ hi then x.testBit (i - lo) else v.testBit i := by
  have l1 : v % 2 ^ lo < 2 ^ lo := Nat.mod_lt _ (Nat.two_pow_pos _)
  have l2 : 2 ^ lo * (x % 2 ^ (hi + 1 - lo)) + v % 2 ^ lo < 2 ^ (hi + 1) := by
    have e3 : 2 ^ (hi + 1) = 2 ^ lo * 2 ^ (hi + 1 - lo) := by rw [← Nat.pow_add]; congr 1; omega
    have l3 : x % 2 ^ (hi + 1 - lo) + 1 ≤ 2 ^ (hi + 1 - lo) := Nat.mod_lt _ (Nat.two_pow_pos _)
    have := Nat.mul_le_mul_left (2 ^ lo) l3
    rw [Nat.mul_add, Nat.mul_one] at this
    omega
  rw [putBits_eq v x h, Nat.testBit_two_pow_mul_add _ l2, Nat.testBit_two_pow_mul_add _ l1, Nat.testBit_mod_two_pow, Nat.testBit_mod_two_pow, Nat.testBit_shiftRight]
  by_cases c1 : i < lo
  · simp [c1, show i < hi + 1 by omega, show ¬ lo ≤ i by omega]
  · by_cases c2 : i < hi + 1
    · simp [c1, c2, show lo ≤ i by omega, show i ≤ hi by omega, show i - lo < hi + 1 - lo by omega]
    · simp [c2, show ¬ i ≤ hi by omega, show hi + 1 + (i - (hi + 1)) = i by omega]

theorem putBits_lt (v x : Nat) {hi lo : Nat} (h : lo ≤ hi) (h32 : hi < 32) (hv : v < 2 ^ 32) : putBits v hi lo x < 2 ^ 32 := by
  apply Nat.lt_pow_two_of_testBit
  intro i hi'
  rw [testBit_putBits v x h, if_neg (by omega)]
  exact Nat.testBit_lt_two_pow (Nat.lt_of_lt_of_le hv (Nat.pow_le_pow_right (by decide) hi'))

theorem bitsOf_putBits (v x : Nat) {hi lo : Nat} (h : lo ≤ hi) : bitsOf (putBits v hi lo x) hi lo = x % 2 ^ (hi + 1 - lo) := by
  apply Nat.eq_of_testBit_eq
  intro i
  rw [testBit_bitsOf, testBit_putBits v x h, Nat.testBit_mod_two_pow]
  by_cases c : i < hi + 1 - lo
  · simp [c, show lo + i ≤ hi by omega]
  · simp [c]

theorem bitsOf_putBits_apart (v x : Nat) {hi lo hi' lo' : Nat} (h : lo ≤ hi) (a : hi < lo' ∨ hi' < lo) : bitsOf (putBits v hi lo x) hi' lo' = bitsOf v hi' lo' := by
  apply Nat.eq_of_testBit_eq
  intro i
  rw [testBit_bitsOf, testBit_bitsOf, testBit_putBits v x h]
  by_cases c : i < hi' + 1 - lo'
  · rw [if_neg (by omega)]
  · simp [c]

/-! ### Registers -/

theorem aget_regsPut_self (m : List (Nat × Word)) (o : Nat) (v : Word) : (aget (regsPut m o v) o).getD (regDefault o) = v := by
  unfold regsPut
  split
  · next h => rw [aget_adel_self]; exact h.symm
  · rw [aget_aput_self]; rfl

theorem aget_regsPut_ne (m : List (Nat × Word)) {o k : Nat} (v : Word) (h : k ≠ o) : aget (regsPut m o v) k = aget m k := by
  unfold regsPut
  split
  · exact aget_adel_ne m h
  · exact aget_aput_ne m v h

theorem State.reg_eq (s : State) (o : Nat) : s.reg o = (aget s.regs o).getD (regDefault o) := by
  unfold State.reg; cases aget s.regs o <;> rfl

@[simp] theorem State.reg_setReg (s : State) (o : Nat) (v : Word) : (s.setReg o v).reg o = v := by rw [State.reg_eq]; exact aget_regsPut_self _ _ _

theorem State.reg_setReg_ne (s : State) {o k : Nat} (v : Word) (h : k ≠ o) : (s.setReg o v).reg k = s.reg k := by
  rw [State.reg_eq, State.reg_eq]; simp only [State.setReg]; rw [aget_regsPut_ne _ _ h]

theorem State.reg_setF_ne (s : State) (f : Fld) (x : Nat) {k : Nat} (h : k ≠ f.off) : (s.setF f x).reg k = s.reg k := State.reg_setReg_ne s _ h

theorem State.reg_setF (s : State) (f : Fld) (x : Nat) (h : f.lo ≤ f.hi) (h32 : f.hi < 32) : ((s.setF f x).reg f.off).toNat = putBits (s.reg f.off).toNat f.hi f.lo x := by
  unfold State.setF
  rw [State.reg_setReg, BitVec.toNat_ofNat, Nat.mod_eq_of_lt (putBits_lt _ _ h h32 (s.reg f.off).isLt)]

/-- A field written reads back, cut to its width. -/
theorem State.getF_setF (s : State) (f : Fld) (x : Nat) (h : f.lo ≤ f.hi) (h32 : f.hi < 32) : (s.setF f x).getF f = x % 2 ^ (f.hi + 1 - f.lo) := by
  unfold State.getF
  rw [State.reg_setF s f x h h32, bitsOf_putBits _ _ h]

/-- A field in another register, or with no bit in common, stands. -/
theorem State.getF_setF_apart (s : State) (f g : Fld) (x : Nat) (h : f.lo ≤ f.hi) (h32 : f.hi < 32) (a : g.off ≠ f.off ∨ f.hi < g.lo ∨ g.hi < f.lo) :
    (s.setF f x).getF g = s.getF g := by
  unfold State.getF
  by_cases e : g.off = f.off
  · rw [e, State.reg_setF s f x h h32, bitsOf_putBits_apart _ _ h (by omega)]
  · rw [State.reg_setF_ne s f x e]

/-! ### The field maps -/

/-- Every field lies in its register, holds its reset value, and lies below the field before it. -/
def fieldsOk : List FieldDef → Bool
  | [] => true
  | f :: fs => decide (f.lo ≤ f.hi) && decide (f.hi < 32) && decide (f.rst < 2 ^ (f.hi + 1 - f.lo)) && fs.all (fun g => decide (g.hi < f.lo)) && fieldsOk fs

theorem regTable_ok : (regTable.all fun r => fieldsOk r.fields) = true := by decide +kernel

/-- The field maps of the spec: no two fields of a register share a bit. -/
theorem regFields_ok (o : Nat) : fieldsOk (regFields o) = true := by
  unfold regFields
  split
  · next r h => exact List.all_eq_true.1 regTable_ok r (List.mem_of_find?_eq_some h)
  · rfl

theorem fieldsOk_mem {fs : List FieldDef} (h : fieldsOk fs = true) {f : FieldDef} (hf : f ∈ fs) : f.lo ≤ f.hi ∧ f.hi < 32 ∧ f.rst < 2 ^ (f.hi + 1 - f.lo) := by
  induction fs with
  | nil => cases hf
  | cons g gs ih =>
    simp only [fieldsOk, Bool.and_eq_true, decide_eq_true_eq] at h
    rcases List.mem_cons.1 hf with rfl | hf
    · exact ⟨h.1.1.1.1, h.1.1.1.2, h.1.1.2⟩
    · exact ih h.2 hf

/-- Two fields of a register are the same one or share no bit. -/
theorem fieldsOk_apart {fs : List FieldDef} (h : fieldsOk fs = true) {f g : FieldDef} (hf : f ∈ fs) (hg : g ∈ fs) : f = g ∨ f.hi < g.lo ∨ g.hi < f.lo := by
  induction fs with
  | nil => cases hf
  | cons k ks ih =>
    simp only [fieldsOk, Bool.and_eq_true, decide_eq_true_eq, List.all_eq_true] at h
    rcases List.mem_cons.1 hf with ef | hf' <;> rcases List.mem_cons.1 hg with eg | hg'
    · exact .inl (ef.trans eg.symm)
    · exact .inr (.inr (ef ▸ h.1.2 g hg'))
    · exact .inr (.inl (eg ▸ h.1.2 f hf'))
    · exact ih h.2 hf' hg'

end Sys2Proof.Machine
end

