-- ==== Sys2Proof/Laws/State.lean ====
section
/-! SUPPORT. What the plain updates of the state leave in each of its fields. -/

namespace Sys2Proof.Machine

open Sys2Proof

/-! ### setReg -/

@[simp] theorem State.setReg_regs (s : State) (o : Nat) (v : Word) : (s.setReg o v).regs = regsPut s.regs o v := rfl
@[simp] theorem State.setReg_pending (s : State) (o : Nat) (v : Word) : (s.setReg o v).pending = s.pending := rfl
@[simp] theorem State.setReg_latches (s : State) (o : Nat) (v : Word) : (s.setReg o v).latches = s.latches := rfl
@[simp] theorem State.setReg_time (s : State) (o : Nat) (v : Word) : (s.setReg o v).time = s.time := rfl
@[simp] theorem State.setReg_host (s : State) (o : Nat) (v : Word) : (s.setReg o v).host = s.host := rfl
@[simp] theorem State.setReg_steps (s : State) (o : Nat) (v : Word) : (s.setReg o v).steps = s.steps := rfl
@[simp] theorem State.setReg_mm (s : State) (o : Nat) (v : Word) : (s.setReg o v).mm = s.mm := rfl
@[simp] theorem State.setReg_faults (s : State) (o : Nat) (v : Word) : (s.setReg o v).faults = s.faults := rfl
@[simp] theorem State.setReg_log (s : State) (o : Nat) (v : Word) : (s.setReg o v).log = s.log := rfl
@[simp] theorem State.setReg_streams (s : State) (o : Nat) (v : Word) : (s.setReg o v).streams = s.streams := rfl
@[simp] theorem State.setReg_router (s : State) (o : Nat) (v : Word) : (s.setReg o v).router = s.router := rfl
@[simp] theorem State.setReg_trs (s : State) (o : Nat) (v : Word) : (s.setReg o v).trs = s.trs := rfl
@[simp] theorem State.setReg_cbk (s : State) (o : Nat) (v : Word) : (s.setReg o v).cbk = s.cbk := rfl
@[simp] theorem State.setReg_power (s : State) (o : Nat) (v : Word) : (s.setReg o v).power = s.power := rfl
@[simp] theorem State.setReg_traceLost (s : State) (o : Nat) (v : Word) : (s.setReg o v).traceLost = s.traceLost := rfl
@[simp] theorem State.setReg_rmt (s : State) (o : Nat) (v : Word) : (s.setReg o v).rmt = s.rmt := rfl
@[simp] theorem State.setReg_col (s : State) (o : Nat) (v : Word) : (s.setReg o v).col = s.col := rfl
@[simp] theorem State.setReg_cores (s : State) (o : Nat) (v : Word) : (s.setReg o v).cores = s.cores := rfl
@[simp] theorem State.setReg_ports (s : State) (o : Nat) (v : Word) : (s.setReg o v).ports = s.ports := rfl
@[simp] theorem State.setReg_subs (s : State) (o : Nat) (v : Word) : (s.setReg o v).subs = s.subs := rfl
@[simp] theorem State.setReg_parts (s : State) (o : Nat) (v : Word) : (s.setReg o v).parts = s.parts := rfl
@[simp] theorem State.setReg_cutFrames (s : State) (o : Nat) (v : Word) : (s.setReg o v).cutFrames = s.cutFrames := rfl
@[simp] theorem State.setReg_tele (s : State) (o : Nat) (v : Word) : (s.setReg o v).tele = s.tele := rfl
@[simp] theorem State.setReg_steer (s : State) (o : Nat) (v : Word) : (s.setReg o v).steer = s.steer := rfl
@[simp] theorem State.setReg_actions (s : State) (o : Nat) (v : Word) : (s.setReg o v).actions = s.actions := rfl
@[simp] theorem State.setReg_boot (s : State) (o : Nat) (v : Word) : (s.setReg o v).boot = s.boot := rfl
@[simp] theorem State.setReg_marul (s : State) (o : Nat) (v : Word) : (s.setReg o v).marul = s.marul := rfl
@[simp] theorem State.setReg_hk (s : State) (o : Nat) (v : Word) : (s.setReg o v).hk = s.hk := rfl
@[simp] theorem State.setReg_therm (s : State) (o : Nat) (v : Word) : (s.setReg o v).therm = s.therm := rfl
@[simp] theorem State.setReg_clk (s : State) (o : Nat) (v : Word) : (s.setReg o v).clk = s.clk := rfl
@[simp] theorem State.setReg_sec (s : State) (o : Nat) (v : Word) : (s.setReg o v).sec = s.sec := rfl
@[simp] theorem State.setReg_out (s : State) (o : Nat) (v : Word) : (s.setReg o v).out = s.out := rfl
@[simp] theorem State.setReg_freeCtr (s : State) (o : Nat) (v : Word) : (s.setReg o v).freeCtr = s.freeCtr := rfl

/-! ### setF -/

@[simp] theorem State.setF_pending (s : State) (f : Fld) (x : Nat) : (s.setF f x).pending = s.pending := rfl
@[simp] theorem State.setF_latches (s : State) (f : Fld) (x : Nat) : (s.setF f x).latches = s.latches := rfl
@[simp] theorem State.setF_time (s : State) (f : Fld) (x : Nat) : (s.setF f x).time = s.time := rfl
@[simp] theorem State.setF_host (s : State) (f : Fld) (x : Nat) : (s.setF f x).host = s.host := rfl
@[simp] theorem State.setF_steps (s : State) (f : Fld) (x : Nat) : (s.setF f x).steps = s.steps := rfl
@[simp] theorem State.setF_mm (s : State) (f : Fld) (x : Nat) : (s.setF f x).mm = s.mm := rfl
@[simp] theorem State.setF_faults (s : State) (f : Fld) (x : Nat) : (s.setF f x).faults = s.faults := rfl
@[simp] theorem State.setF_log (s : State) (f : Fld) (x : Nat) : (s.setF f x).log = s.log := rfl
@[simp] theorem State.setF_streams (s : State) (f : Fld) (x : Nat) : (s.setF f x).streams = s.streams := rfl
@[simp] theorem State.setF_router (s : State) (f : Fld) (x : Nat) : (s.setF f x).router = s.router := rfl
@[simp] theorem State.setF_trs (s : State) (f : Fld) (x : Nat) : (s.setF f x).trs = s.trs := rfl
@[simp] theorem State.setF_cbk (s : State) (f : Fld) (x : Nat) : (s.setF f x).cbk = s.cbk := rfl
@[simp] theorem State.setF_power (s : State) (f : Fld) (x : Nat) : (s.setF f x).power = s.power := rfl
@[simp] theorem State.setF_traceLost (s : State) (f : Fld) (x : Nat) : (s.setF f x).traceLost = s.traceLost := rfl
@[simp] theorem State.setF_rmt (s : State) (f : Fld) (x : Nat) : (s.setF f x).rmt = s.rmt := rfl
@[simp] theorem State.setF_col (s : State) (f : Fld) (x : Nat) : (s.setF f x).col = s.col := rfl
@[simp] theorem State.setF_cores (s : State) (f : Fld) (x : Nat) : (s.setF f x).cores = s.cores := rfl
@[simp] theorem State.setF_ports (s : State) (f : Fld) (x : Nat) : (s.setF f x).ports = s.ports := rfl
@[simp] theorem State.setF_subs (s : State) (f : Fld) (x : Nat) : (s.setF f x).subs = s.subs := rfl
@[simp] theorem State.setF_parts (s : State) (f : Fld) (x : Nat) : (s.setF f x).parts = s.parts := rfl
@[simp] theorem State.setF_cutFrames (s : State) (f : Fld) (x : Nat) : (s.setF f x).cutFrames = s.cutFrames := rfl
@[simp] theorem State.setF_tele (s : State) (f : Fld) (x : Nat) : (s.setF f x).tele = s.tele := rfl
@[simp] theorem State.setF_steer (s : State) (f : Fld) (x : Nat) : (s.setF f x).steer = s.steer := rfl
@[simp] theorem State.setF_actions (s : State) (f : Fld) (x : Nat) : (s.setF f x).actions = s.actions := rfl
@[simp] theorem State.setF_boot (s : State) (f : Fld) (x : Nat) : (s.setF f x).boot = s.boot := rfl
@[simp] theorem State.setF_marul (s : State) (f : Fld) (x : Nat) : (s.setF f x).marul = s.marul := rfl
@[simp] theorem State.setF_hk (s : State) (f : Fld) (x : Nat) : (s.setF f x).hk = s.hk := rfl
@[simp] theorem State.setF_therm (s : State) (f : Fld) (x : Nat) : (s.setF f x).therm = s.therm := rfl
@[simp] theorem State.setF_clk (s : State) (f : Fld) (x : Nat) : (s.setF f x).clk = s.clk := rfl
@[simp] theorem State.setF_sec (s : State) (f : Fld) (x : Nat) : (s.setF f x).sec = s.sec := rfl
@[simp] theorem State.setF_out (s : State) (f : Fld) (x : Nat) : (s.setF f x).out = s.out := rfl
@[simp] theorem State.setF_freeCtr (s : State) (f : Fld) (x : Nat) : (s.setF f x).freeCtr = s.freeCtr := rfl

/-! ### setMem -/

@[simp] theorem State.setMem_mm (s : State) (m : Memory) : (s.setMem m).mm = { s.mm with mem := m } := rfl
@[simp] theorem State.setMem_pending (s : State) (m : Memory) : (s.setMem m).pending = s.pending := rfl
@[simp] theorem State.setMem_regs (s : State) (m : Memory) : (s.setMem m).regs = s.regs := rfl
@[simp] theorem State.setMem_latches (s : State) (m : Memory) : (s.setMem m).latches = s.latches := rfl
@[simp] theorem State.setMem_time (s : State) (m : Memory) : (s.setMem m).time = s.time := rfl
@[simp] theorem State.setMem_host (s : State) (m : Memory) : (s.setMem m).host = s.host := rfl
@[simp] theorem State.setMem_steps (s : State) (m : Memory) : (s.setMem m).steps = s.steps := rfl
@[simp] theorem State.setMem_faults (s : State) (m : Memory) : (s.setMem m).faults = s.faults := rfl
@[simp] theorem State.setMem_log (s : State) (m : Memory) : (s.setMem m).log = s.log := rfl
@[simp] theorem State.setMem_streams (s : State) (m : Memory) : (s.setMem m).streams = s.streams := rfl
@[simp] theorem State.setMem_router (s : State) (m : Memory) : (s.setMem m).router = s.router := rfl
@[simp] theorem State.setMem_trs (s : State) (m : Memory) : (s.setMem m).trs = s.trs := rfl
@[simp] theorem State.setMem_cbk (s : State) (m : Memory) : (s.setMem m).cbk = s.cbk := rfl
@[simp] theorem State.setMem_power (s : State) (m : Memory) : (s.setMem m).power = s.power := rfl
@[simp] theorem State.setMem_traceLost (s : State) (m : Memory) : (s.setMem m).traceLost = s.traceLost := rfl
@[simp] theorem State.setMem_rmt (s : State) (m : Memory) : (s.setMem m).rmt = s.rmt := rfl
@[simp] theorem State.setMem_col (s : State) (m : Memory) : (s.setMem m).col = s.col := rfl
@[simp] theorem State.setMem_cores (s : State) (m : Memory) : (s.setMem m).cores = s.cores := rfl
@[simp] theorem State.setMem_ports (s : State) (m : Memory) : (s.setMem m).ports = s.ports := rfl
@[simp] theorem State.setMem_subs (s : State) (m : Memory) : (s.setMem m).subs = s.subs := rfl
@[simp] theorem State.setMem_parts (s : State) (m : Memory) : (s.setMem m).parts = s.parts := rfl
@[simp] theorem State.setMem_cutFrames (s : State) (m : Memory) : (s.setMem m).cutFrames = s.cutFrames := rfl
@[simp] theorem State.setMem_tele (s : State) (m : Memory) : (s.setMem m).tele = s.tele := rfl
@[simp] theorem State.setMem_steer (s : State) (m : Memory) : (s.setMem m).steer = s.steer := rfl
@[simp] theorem State.setMem_actions (s : State) (m : Memory) : (s.setMem m).actions = s.actions := rfl
@[simp] theorem State.setMem_boot (s : State) (m : Memory) : (s.setMem m).boot = s.boot := rfl
@[simp] theorem State.setMem_marul (s : State) (m : Memory) : (s.setMem m).marul = s.marul := rfl
@[simp] theorem State.setMem_hk (s : State) (m : Memory) : (s.setMem m).hk = s.hk := rfl
@[simp] theorem State.setMem_therm (s : State) (m : Memory) : (s.setMem m).therm = s.therm := rfl
@[simp] theorem State.setMem_clk (s : State) (m : Memory) : (s.setMem m).clk = s.clk := rfl
@[simp] theorem State.setMem_sec (s : State) (m : Memory) : (s.setMem m).sec = s.sec := rfl
@[simp] theorem State.setMem_out (s : State) (m : Memory) : (s.setMem m).out = s.out := rfl
@[simp] theorem State.setMem_freeCtr (s : State) (m : Memory) : (s.setMem m).freeCtr = s.freeCtr := rfl

/-! ### setPoison -/

@[simp] theorem State.setPoison_mm (s : State) (l : List Nat) : (s.setPoison l).mm = { s.mm with poison := l } := rfl
@[simp] theorem State.setPoison_pending (s : State) (l : List Nat) : (s.setPoison l).pending = s.pending := rfl
@[simp] theorem State.setPoison_regs (s : State) (l : List Nat) : (s.setPoison l).regs = s.regs := rfl
@[simp] theorem State.setPoison_latches (s : State) (l : List Nat) : (s.setPoison l).latches = s.latches := rfl
@[simp] theorem State.setPoison_time (s : State) (l : List Nat) : (s.setPoison l).time = s.time := rfl
@[simp] theorem State.setPoison_host (s : State) (l : List Nat) : (s.setPoison l).host = s.host := rfl
@[simp] theorem State.setPoison_steps (s : State) (l : List Nat) : (s.setPoison l).steps = s.steps := rfl
@[simp] theorem State.setPoison_faults (s : State) (l : List Nat) : (s.setPoison l).faults = s.faults := rfl
@[simp] theorem State.setPoison_log (s : State) (l : List Nat) : (s.setPoison l).log = s.log := rfl
@[simp] theorem State.setPoison_streams (s : State) (l : List Nat) : (s.setPoison l).streams = s.streams := rfl
@[simp] theorem State.setPoison_router (s : State) (l : List Nat) : (s.setPoison l).router = s.router := rfl
@[simp] theorem State.setPoison_trs (s : State) (l : List Nat) : (s.setPoison l).trs = s.trs := rfl
@[simp] theorem State.setPoison_cbk (s : State) (l : List Nat) : (s.setPoison l).cbk = s.cbk := rfl
@[simp] theorem State.setPoison_power (s : State) (l : List Nat) : (s.setPoison l).power = s.power := rfl
@[simp] theorem State.setPoison_traceLost (s : State) (l : List Nat) : (s.setPoison l).traceLost = s.traceLost := rfl
@[simp] theorem State.setPoison_rmt (s : State) (l : List Nat) : (s.setPoison l).rmt = s.rmt := rfl
@[simp] theorem State.setPoison_col (s : State) (l : List Nat) : (s.setPoison l).col = s.col := rfl
@[simp] theorem State.setPoison_cores (s : State) (l : List Nat) : (s.setPoison l).cores = s.cores := rfl
@[simp] theorem State.setPoison_ports (s : State) (l : List Nat) : (s.setPoison l).ports = s.ports := rfl
@[simp] theorem State.setPoison_subs (s : State) (l : List Nat) : (s.setPoison l).subs = s.subs := rfl
@[simp] theorem State.setPoison_parts (s : State) (l : List Nat) : (s.setPoison l).parts = s.parts := rfl
@[simp] theorem State.setPoison_cutFrames (s : State) (l : List Nat) : (s.setPoison l).cutFrames = s.cutFrames := rfl
@[simp] theorem State.setPoison_tele (s : State) (l : List Nat) : (s.setPoison l).tele = s.tele := rfl
@[simp] theorem State.setPoison_steer (s : State) (l : List Nat) : (s.setPoison l).steer = s.steer := rfl
@[simp] theorem State.setPoison_actions (s : State) (l : List Nat) : (s.setPoison l).actions = s.actions := rfl
@[simp] theorem State.setPoison_boot (s : State) (l : List Nat) : (s.setPoison l).boot = s.boot := rfl
@[simp] theorem State.setPoison_marul (s : State) (l : List Nat) : (s.setPoison l).marul = s.marul := rfl
@[simp] theorem State.setPoison_hk (s : State) (l : List Nat) : (s.setPoison l).hk = s.hk := rfl
@[simp] theorem State.setPoison_therm (s : State) (l : List Nat) : (s.setPoison l).therm = s.therm := rfl
@[simp] theorem State.setPoison_clk (s : State) (l : List Nat) : (s.setPoison l).clk = s.clk := rfl
@[simp] theorem State.setPoison_sec (s : State) (l : List Nat) : (s.setPoison l).sec = s.sec := rfl
@[simp] theorem State.setPoison_out (s : State) (l : List Nat) : (s.setPoison l).out = s.out := rfl
@[simp] theorem State.setPoison_freeCtr (s : State) (l : List Nat) : (s.setPoison l).freeCtr = s.freeCtr := rfl

/-! ### emit -/

@[simp] theorem State.emit_out (s : State) (o : Out) : (s.emit o).out = s.out ++ [o] := rfl
@[simp] theorem State.emit_pending (s : State) (o : Out) : (s.emit o).pending = s.pending := rfl
@[simp] theorem State.emit_regs (s : State) (o : Out) : (s.emit o).regs = s.regs := rfl
@[simp] theorem State.emit_latches (s : State) (o : Out) : (s.emit o).latches = s.latches := rfl
@[simp] theorem State.emit_time (s : State) (o : Out) : (s.emit o).time = s.time := rfl
@[simp] theorem State.emit_host (s : State) (o : Out) : (s.emit o).host = s.host := rfl
@[simp] theorem State.emit_steps (s : State) (o : Out) : (s.emit o).steps = s.steps := rfl
@[simp] theorem State.emit_mm (s : State) (o : Out) : (s.emit o).mm = s.mm := rfl
@[simp] theorem State.emit_faults (s : State) (o : Out) : (s.emit o).faults = s.faults := rfl
@[simp] theorem State.emit_log (s : State) (o : Out) : (s.emit o).log = s.log := rfl
@[simp] theorem State.emit_streams (s : State) (o : Out) : (s.emit o).streams = s.streams := rfl
@[simp] theorem State.emit_router (s : State) (o : Out) : (s.emit o).router = s.router := rfl
@[simp] theorem State.emit_trs (s : State) (o : Out) : (s.emit o).trs = s.trs := rfl
@[simp] theorem State.emit_cbk (s : State) (o : Out) : (s.emit o).cbk = s.cbk := rfl
@[simp] theorem State.emit_power (s : State) (o : Out) : (s.emit o).power = s.power := rfl
@[simp] theorem State.emit_traceLost (s : State) (o : Out) : (s.emit o).traceLost = s.traceLost := rfl
@[simp] theorem State.emit_rmt (s : State) (o : Out) : (s.emit o).rmt = s.rmt := rfl
@[simp] theorem State.emit_col (s : State) (o : Out) : (s.emit o).col = s.col := rfl
@[simp] theorem State.emit_cores (s : State) (o : Out) : (s.emit o).cores = s.cores := rfl
@[simp] theorem State.emit_ports (s : State) (o : Out) : (s.emit o).ports = s.ports := rfl
@[simp] theorem State.emit_subs (s : State) (o : Out) : (s.emit o).subs = s.subs := rfl
@[simp] theorem State.emit_parts (s : State) (o : Out) : (s.emit o).parts = s.parts := rfl
@[simp] theorem State.emit_cutFrames (s : State) (o : Out) : (s.emit o).cutFrames = s.cutFrames := rfl
@[simp] theorem State.emit_tele (s : State) (o : Out) : (s.emit o).tele = s.tele := rfl
@[simp] theorem State.emit_steer (s : State) (o : Out) : (s.emit o).steer = s.steer := rfl
@[simp] theorem State.emit_actions (s : State) (o : Out) : (s.emit o).actions = s.actions := rfl
@[simp] theorem State.emit_boot (s : State) (o : Out) : (s.emit o).boot = s.boot := rfl
@[simp] theorem State.emit_marul (s : State) (o : Out) : (s.emit o).marul = s.marul := rfl
@[simp] theorem State.emit_hk (s : State) (o : Out) : (s.emit o).hk = s.hk := rfl
@[simp] theorem State.emit_therm (s : State) (o : Out) : (s.emit o).therm = s.therm := rfl
@[simp] theorem State.emit_clk (s : State) (o : Out) : (s.emit o).clk = s.clk := rfl
@[simp] theorem State.emit_sec (s : State) (o : Out) : (s.emit o).sec = s.sec := rfl
@[simp] theorem State.emit_freeCtr (s : State) (o : Out) : (s.emit o).freeCtr = s.freeCtr := rfl

/-! ### drew -/

@[simp] theorem State.drew_freeCtr (s : State) : (s.drew).freeCtr = s.freeCtr + 1 := rfl
@[simp] theorem State.drew_pending (s : State) : (s.drew).pending = s.pending := rfl
@[simp] theorem State.drew_regs (s : State) : (s.drew).regs = s.regs := rfl
@[simp] theorem State.drew_latches (s : State) : (s.drew).latches = s.latches := rfl
@[simp] theorem State.drew_time (s : State) : (s.drew).time = s.time := rfl
@[simp] theorem State.drew_host (s : State) : (s.drew).host = s.host := rfl
@[simp] theorem State.drew_steps (s : State) : (s.drew).steps = s.steps := rfl
@[simp] theorem State.drew_mm (s : State) : (s.drew).mm = s.mm := rfl
@[simp] theorem State.drew_faults (s : State) : (s.drew).faults = s.faults := rfl
@[simp] theorem State.drew_log (s : State) : (s.drew).log = s.log := rfl
@[simp] theorem State.drew_streams (s : State) : (s.drew).streams = s.streams := rfl
@[simp] theorem State.drew_router (s : State) : (s.drew).router = s.router := rfl
@[simp] theorem State.drew_trs (s : State) : (s.drew).trs = s.trs := rfl
@[simp] theorem State.drew_cbk (s : State) : (s.drew).cbk = s.cbk := rfl
@[simp] theorem State.drew_power (s : State) : (s.drew).power = s.power := rfl
@[simp] theorem State.drew_traceLost (s : State) : (s.drew).traceLost = s.traceLost := rfl
@[simp] theorem State.drew_rmt (s : State) : (s.drew).rmt = s.rmt := rfl
@[simp] theorem State.drew_col (s : State) : (s.drew).col = s.col := rfl
@[simp] theorem State.drew_cores (s : State) : (s.drew).cores = s.cores := rfl
@[simp] theorem State.drew_ports (s : State) : (s.drew).ports = s.ports := rfl
@[simp] theorem State.drew_subs (s : State) : (s.drew).subs = s.subs := rfl
@[simp] theorem State.drew_parts (s : State) : (s.drew).parts = s.parts := rfl
@[simp] theorem State.drew_cutFrames (s : State) : (s.drew).cutFrames = s.cutFrames := rfl
@[simp] theorem State.drew_tele (s : State) : (s.drew).tele = s.tele := rfl
@[simp] theorem State.drew_steer (s : State) : (s.drew).steer = s.steer := rfl
@[simp] theorem State.drew_actions (s : State) : (s.drew).actions = s.actions := rfl
@[simp] theorem State.drew_boot (s : State) : (s.drew).boot = s.boot := rfl
@[simp] theorem State.drew_marul (s : State) : (s.drew).marul = s.marul := rfl
@[simp] theorem State.drew_hk (s : State) : (s.drew).hk = s.hk := rfl
@[simp] theorem State.drew_therm (s : State) : (s.drew).therm = s.therm := rfl
@[simp] theorem State.drew_clk (s : State) : (s.drew).clk = s.clk := rfl
@[simp] theorem State.drew_sec (s : State) : (s.drew).sec = s.sec := rfl
@[simp] theorem State.drew_out (s : State) : (s.drew).out = s.out := rfl

/-! ### setHost -/

@[simp] theorem State.setHost_host (s : State) (h : HostSt) : (s.setHost h).host = h := rfl
@[simp] theorem State.setHost_pending (s : State) (h : HostSt) : (s.setHost h).pending = s.pending := rfl
@[simp] theorem State.setHost_regs (s : State) (h : HostSt) : (s.setHost h).regs = s.regs := rfl
@[simp] theorem State.setHost_latches (s : State) (h : HostSt) : (s.setHost h).latches = s.latches := rfl
@[simp] theorem State.setHost_time (s : State) (h : HostSt) : (s.setHost h).time = s.time := rfl
@[simp] theorem State.setHost_steps (s : State) (h : HostSt) : (s.setHost h).steps = s.steps := rfl
@[simp] theorem State.setHost_mm (s : State) (h : HostSt) : (s.setHost h).mm = s.mm := rfl
@[simp] theorem State.setHost_faults (s : State) (h : HostSt) : (s.setHost h).faults = s.faults := rfl
@[simp] theorem State.setHost_log (s : State) (h : HostSt) : (s.setHost h).log = s.log := rfl
@[simp] theorem State.setHost_streams (s : State) (h : HostSt) : (s.setHost h).streams = s.streams := rfl
@[simp] theorem State.setHost_router (s : State) (h : HostSt) : (s.setHost h).router = s.router := rfl
@[simp] theorem State.setHost_trs (s : State) (h : HostSt) : (s.setHost h).trs = s.trs := rfl
@[simp] theorem State.setHost_cbk (s : State) (h : HostSt) : (s.setHost h).cbk = s.cbk := rfl
@[simp] theorem State.setHost_power (s : State) (h : HostSt) : (s.setHost h).power = s.power := rfl
@[simp] theorem State.setHost_traceLost (s : State) (h : HostSt) : (s.setHost h).traceLost = s.traceLost := rfl
@[simp] theorem State.setHost_rmt (s : State) (h : HostSt) : (s.setHost h).rmt = s.rmt := rfl
@[simp] theorem State.setHost_col (s : State) (h : HostSt) : (s.setHost h).col = s.col := rfl
@[simp] theorem State.setHost_cores (s : State) (h : HostSt) : (s.setHost h).cores = s.cores := rfl
@[simp] theorem State.setHost_ports (s : State) (h : HostSt) : (s.setHost h).ports = s.ports := rfl
@[simp] theorem State.setHost_subs (s : State) (h : HostSt) : (s.setHost h).subs = s.subs := rfl
@[simp] theorem State.setHost_parts (s : State) (h : HostSt) : (s.setHost h).parts = s.parts := rfl
@[simp] theorem State.setHost_cutFrames (s : State) (h : HostSt) : (s.setHost h).cutFrames = s.cutFrames := rfl
@[simp] theorem State.setHost_tele (s : State) (h : HostSt) : (s.setHost h).tele = s.tele := rfl
@[simp] theorem State.setHost_steer (s : State) (h : HostSt) : (s.setHost h).steer = s.steer := rfl
@[simp] theorem State.setHost_actions (s : State) (h : HostSt) : (s.setHost h).actions = s.actions := rfl
@[simp] theorem State.setHost_boot (s : State) (h : HostSt) : (s.setHost h).boot = s.boot := rfl
@[simp] theorem State.setHost_marul (s : State) (h : HostSt) : (s.setHost h).marul = s.marul := rfl
@[simp] theorem State.setHost_hk (s : State) (h : HostSt) : (s.setHost h).hk = s.hk := rfl
@[simp] theorem State.setHost_therm (s : State) (h : HostSt) : (s.setHost h).therm = s.therm := rfl
@[simp] theorem State.setHost_clk (s : State) (h : HostSt) : (s.setHost h).clk = s.clk := rfl
@[simp] theorem State.setHost_sec (s : State) (h : HostSt) : (s.setHost h).sec = s.sec := rfl
@[simp] theorem State.setHost_out (s : State) (h : HostSt) : (s.setHost h).out = s.out := rfl
@[simp] theorem State.setHost_freeCtr (s : State) (h : HostSt) : (s.setHost h).freeCtr = s.freeCtr := rfl

/-! ### setStep -/

@[simp] theorem State.setStep_steps (s : State) (i : Nat) (t : Step) : (s.setStep i t).steps = { s.steps with slots := aput s.steps.slots i t } := rfl
@[simp] theorem State.setStep_pending (s : State) (i : Nat) (t : Step) : (s.setStep i t).pending = s.pending := rfl
@[simp] theorem State.setStep_regs (s : State) (i : Nat) (t : Step) : (s.setStep i t).regs = s.regs := rfl
@[simp] theorem State.setStep_latches (s : State) (i : Nat) (t : Step) : (s.setStep i t).latches = s.latches := rfl
@[simp] theorem State.setStep_time (s : State) (i : Nat) (t : Step) : (s.setStep i t).time = s.time := rfl
@[simp] theorem State.setStep_host (s : State) (i : Nat) (t : Step) : (s.setStep i t).host = s.host := rfl
@[simp] theorem State.setStep_mm (s : State) (i : Nat) (t : Step) : (s.setStep i t).mm = s.mm := rfl
@[simp] theorem State.setStep_faults (s : State) (i : Nat) (t : Step) : (s.setStep i t).faults = s.faults := rfl
@[simp] theorem State.setStep_log (s : State) (i : Nat) (t : Step) : (s.setStep i t).log = s.log := rfl
@[simp] theorem State.setStep_streams (s : State) (i : Nat) (t : Step) : (s.setStep i t).streams = s.streams := rfl
@[simp] theorem State.setStep_router (s : State) (i : Nat) (t : Step) : (s.setStep i t).router = s.router := rfl
@[simp] theorem State.setStep_trs (s : State) (i : Nat) (t : Step) : (s.setStep i t).trs = s.trs := rfl
@[simp] theorem State.setStep_cbk (s : State) (i : Nat) (t : Step) : (s.setStep i t).cbk = s.cbk := rfl
@[simp] theorem State.setStep_power (s : State) (i : Nat) (t : Step) : (s.setStep i t).power = s.power := rfl
@[simp] theorem State.setStep_traceLost (s : State) (i : Nat) (t : Step) : (s.setStep i t).traceLost = s.traceLost := rfl
@[simp] theorem State.setStep_rmt (s : State) (i : Nat) (t : Step) : (s.setStep i t).rmt = s.rmt := rfl
@[simp] theorem State.setStep_col (s : State) (i : Nat) (t : Step) : (s.setStep i t).col = s.col := rfl
@[simp] theorem State.setStep_cores (s : State) (i : Nat) (t : Step) : (s.setStep i t).cores = s.cores := rfl
@[simp] theorem State.setStep_ports (s : State) (i : Nat) (t : Step) : (s.setStep i t).ports = s.ports := rfl
@[simp] theorem State.setStep_subs (s : State) (i : Nat) (t : Step) : (s.setStep i t).subs = s.subs := rfl
@[simp] theorem State.setStep_parts (s : State) (i : Nat) (t : Step) : (s.setStep i t).parts = s.parts := rfl
@[simp] theorem State.setStep_cutFrames (s : State) (i : Nat) (t : Step) : (s.setStep i t).cutFrames = s.cutFrames := rfl
@[simp] theorem State.setStep_tele (s : State) (i : Nat) (t : Step) : (s.setStep i t).tele = s.tele := rfl
@[simp] theorem State.setStep_steer (s : State) (i : Nat) (t : Step) : (s.setStep i t).steer = s.steer := rfl
@[simp] theorem State.setStep_actions (s : State) (i : Nat) (t : Step) : (s.setStep i t).actions = s.actions := rfl
@[simp] theorem State.setStep_boot (s : State) (i : Nat) (t : Step) : (s.setStep i t).boot = s.boot := rfl
@[simp] theorem State.setStep_marul (s : State) (i : Nat) (t : Step) : (s.setStep i t).marul = s.marul := rfl
@[simp] theorem State.setStep_hk (s : State) (i : Nat) (t : Step) : (s.setStep i t).hk = s.hk := rfl
@[simp] theorem State.setStep_therm (s : State) (i : Nat) (t : Step) : (s.setStep i t).therm = s.therm := rfl
@[simp] theorem State.setStep_clk (s : State) (i : Nat) (t : Step) : (s.setStep i t).clk = s.clk := rfl
@[simp] theorem State.setStep_sec (s : State) (i : Nat) (t : Step) : (s.setStep i t).sec = s.sec := rfl
@[simp] theorem State.setStep_out (s : State) (i : Nat) (t : Step) : (s.setStep i t).out = s.out := rfl
@[simp] theorem State.setStep_freeCtr (s : State) (i : Nat) (t : Step) : (s.setStep i t).freeCtr = s.freeCtr := rfl

/-! ### setRouter -/

@[simp] theorem State.setRouter_router (s : State) (r : RouterSt) : (s.setRouter r).router = r := rfl
@[simp] theorem State.setRouter_pending (s : State) (r : RouterSt) : (s.setRouter r).pending = s.pending := rfl
@[simp] theorem State.setRouter_regs (s : State) (r : RouterSt) : (s.setRouter r).regs = s.regs := rfl
@[simp] theorem State.setRouter_latches (s : State) (r : RouterSt) : (s.setRouter r).latches = s.latches := rfl
@[simp] theorem State.setRouter_time (s : State) (r : RouterSt) : (s.setRouter r).time = s.time := rfl
@[simp] theorem State.setRouter_host (s : State) (r : RouterSt) : (s.setRouter r).host = s.host := rfl
@[simp] theorem State.setRouter_steps (s : State) (r : RouterSt) : (s.setRouter r).steps = s.steps := rfl
@[simp] theorem State.setRouter_mm (s : State) (r : RouterSt) : (s.setRouter r).mm = s.mm := rfl
@[simp] theorem State.setRouter_faults (s : State) (r : RouterSt) : (s.setRouter r).faults = s.faults := rfl
@[simp] theorem State.setRouter_log (s : State) (r : RouterSt) : (s.setRouter r).log = s.log := rfl
@[simp] theorem State.setRouter_streams (s : State) (r : RouterSt) : (s.setRouter r).streams = s.streams := rfl
@[simp] theorem State.setRouter_trs (s : State) (r : RouterSt) : (s.setRouter r).trs = s.trs := rfl
@[simp] theorem State.setRouter_cbk (s : State) (r : RouterSt) : (s.setRouter r).cbk = s.cbk := rfl
@[simp] theorem State.setRouter_power (s : State) (r : RouterSt) : (s.setRouter r).power = s.power := rfl
@[simp] theorem State.setRouter_traceLost (s : State) (r : RouterSt) : (s.setRouter r).traceLost = s.traceLost := rfl
@[simp] theorem State.setRouter_rmt (s : State) (r : RouterSt) : (s.setRouter r).rmt = s.rmt := rfl
@[simp] theorem State.setRouter_col (s : State) (r : RouterSt) : (s.setRouter r).col = s.col := rfl
@[simp] theorem State.setRouter_cores (s : State) (r : RouterSt) : (s.setRouter r).cores = s.cores := rfl
@[simp] theorem State.setRouter_ports (s : State) (r : RouterSt) : (s.setRouter r).ports = s.ports := rfl
@[simp] theorem State.setRouter_subs (s : State) (r : RouterSt) : (s.setRouter r).subs = s.subs := rfl
@[simp] theorem State.setRouter_parts (s : State) (r : RouterSt) : (s.setRouter r).parts = s.parts := rfl
@[simp] theorem State.setRouter_cutFrames (s : State) (r : RouterSt) : (s.setRouter r).cutFrames = s.cutFrames := rfl
@[simp] theorem State.setRouter_tele (s : State) (r : RouterSt) : (s.setRouter r).tele = s.tele := rfl
@[simp] theorem State.setRouter_steer (s : State) (r : RouterSt) : (s.setRouter r).steer = s.steer := rfl
@[simp] theorem State.setRouter_actions (s : State) (r : RouterSt) : (s.setRouter r).actions = s.actions := rfl
@[simp] theorem State.setRouter_boot (s : State) (r : RouterSt) : (s.setRouter r).boot = s.boot := rfl
@[simp] theorem State.setRouter_marul (s : State) (r : RouterSt) : (s.setRouter r).marul = s.marul := rfl
@[simp] theorem State.setRouter_hk (s : State) (r : RouterSt) : (s.setRouter r).hk = s.hk := rfl
@[simp] theorem State.setRouter_therm (s : State) (r : RouterSt) : (s.setRouter r).therm = s.therm := rfl
@[simp] theorem State.setRouter_clk (s : State) (r : RouterSt) : (s.setRouter r).clk = s.clk := rfl
@[simp] theorem State.setRouter_sec (s : State) (r : RouterSt) : (s.setRouter r).sec = s.sec := rfl
@[simp] theorem State.setRouter_out (s : State) (r : RouterSt) : (s.setRouter r).out = s.out := rfl
@[simp] theorem State.setRouter_freeCtr (s : State) (r : RouterSt) : (s.setRouter r).freeCtr = s.freeCtr := rfl

/-! ### setFaults -/

@[simp] theorem State.setFaults_faults (s : State) (f : FaultSt) : (s.setFaults f).faults = f := rfl
@[simp] theorem State.setFaults_pending (s : State) (f : FaultSt) : (s.setFaults f).pending = s.pending := rfl
@[simp] theorem State.setFaults_regs (s : State) (f : FaultSt) : (s.setFaults f).regs = s.regs := rfl
@[simp] theorem State.setFaults_latches (s : State) (f : FaultSt) : (s.setFaults f).latches = s.latches := rfl
@[simp] theorem State.setFaults_time (s : State) (f : FaultSt) : (s.setFaults f).time = s.time := rfl
@[simp] theorem State.setFaults_host (s : State) (f : FaultSt) : (s.setFaults f).host = s.host := rfl
@[simp] theorem State.setFaults_steps (s : State) (f : FaultSt) : (s.setFaults f).steps = s.steps := rfl
@[simp] theorem State.setFaults_mm (s : State) (f : FaultSt) : (s.setFaults f).mm = s.mm := rfl
@[simp] theorem State.setFaults_log (s : State) (f : FaultSt) : (s.setFaults f).log = s.log := rfl
@[simp] theorem State.setFaults_streams (s : State) (f : FaultSt) : (s.setFaults f).streams = s.streams := rfl
@[simp] theorem State.setFaults_router (s : State) (f : FaultSt) : (s.setFaults f).router = s.router := rfl
@[simp] theorem State.setFaults_trs (s : State) (f : FaultSt) : (s.setFaults f).trs = s.trs := rfl
@[simp] theorem State.setFaults_cbk (s : State) (f : FaultSt) : (s.setFaults f).cbk = s.cbk := rfl
@[simp] theorem State.setFaults_power (s : State) (f : FaultSt) : (s.setFaults f).power = s.power := rfl
@[simp] theorem State.setFaults_traceLost (s : State) (f : FaultSt) : (s.setFaults f).traceLost = s.traceLost := rfl
@[simp] theorem State.setFaults_rmt (s : State) (f : FaultSt) : (s.setFaults f).rmt = s.rmt := rfl
@[simp] theorem State.setFaults_col (s : State) (f : FaultSt) : (s.setFaults f).col = s.col := rfl
@[simp] theorem State.setFaults_cores (s : State) (f : FaultSt) : (s.setFaults f).cores = s.cores := rfl
@[simp] theorem State.setFaults_ports (s : State) (f : FaultSt) : (s.setFaults f).ports = s.ports := rfl
@[simp] theorem State.setFaults_subs (s : State) (f : FaultSt) : (s.setFaults f).subs = s.subs := rfl
@[simp] theorem State.setFaults_parts (s : State) (f : FaultSt) : (s.setFaults f).parts = s.parts := rfl
@[simp] theorem State.setFaults_cutFrames (s : State) (f : FaultSt) : (s.setFaults f).cutFrames = s.cutFrames := rfl
@[simp] theorem State.setFaults_tele (s : State) (f : FaultSt) : (s.setFaults f).tele = s.tele := rfl
@[simp] theorem State.setFaults_steer (s : State) (f : FaultSt) : (s.setFaults f).steer = s.steer := rfl
@[simp] theorem State.setFaults_actions (s : State) (f : FaultSt) : (s.setFaults f).actions = s.actions := rfl
@[simp] theorem State.setFaults_boot (s : State) (f : FaultSt) : (s.setFaults f).boot = s.boot := rfl
@[simp] theorem State.setFaults_marul (s : State) (f : FaultSt) : (s.setFaults f).marul = s.marul := rfl
@[simp] theorem State.setFaults_hk (s : State) (f : FaultSt) : (s.setFaults f).hk = s.hk := rfl
@[simp] theorem State.setFaults_therm (s : State) (f : FaultSt) : (s.setFaults f).therm = s.therm := rfl
@[simp] theorem State.setFaults_clk (s : State) (f : FaultSt) : (s.setFaults f).clk = s.clk := rfl
@[simp] theorem State.setFaults_sec (s : State) (f : FaultSt) : (s.setFaults f).sec = s.sec := rfl
@[simp] theorem State.setFaults_out (s : State) (f : FaultSt) : (s.setFaults f).out = s.out := rfl
@[simp] theorem State.setFaults_freeCtr (s : State) (f : FaultSt) : (s.setFaults f).freeCtr = s.freeCtr := rfl

/-! ### setRmt -/

@[simp] theorem State.setRmt_rmt (s : State) (r : RmtSt) : (s.setRmt r).rmt = r := rfl
@[simp] theorem State.setRmt_pending (s : State) (r : RmtSt) : (s.setRmt r).pending = s.pending := rfl
@[simp] theorem State.setRmt_regs (s : State) (r : RmtSt) : (s.setRmt r).regs = s.regs := rfl
@[simp] theorem State.setRmt_latches (s : State) (r : RmtSt) : (s.setRmt r).latches = s.latches := rfl
@[simp] theorem State.setRmt_time (s : State) (r : RmtSt) : (s.setRmt r).time = s.time := rfl
@[simp] theorem State.setRmt_host (s : State) (r : RmtSt) : (s.setRmt r).host = s.host := rfl
@[simp] theorem State.setRmt_steps (s : State) (r : RmtSt) : (s.setRmt r).steps = s.steps := rfl
@[simp] theorem State.setRmt_mm (s : State) (r : RmtSt) : (s.setRmt r).mm = s.mm := rfl
@[simp] theorem State.setRmt_faults (s : State) (r : RmtSt) : (s.setRmt r).faults = s.faults := rfl
@[simp] theorem State.setRmt_log (s : State) (r : RmtSt) : (s.setRmt r).log = s.log := rfl
@[simp] theorem State.setRmt_streams (s : State) (r : RmtSt) : (s.setRmt r).streams = s.streams := rfl
@[simp] theorem State.setRmt_router (s : State) (r : RmtSt) : (s.setRmt r).router = s.router := rfl
@[simp] theorem State.setRmt_trs (s : State) (r : RmtSt) : (s.setRmt r).trs = s.trs := rfl
@[simp] theorem State.setRmt_cbk (s : State) (r : RmtSt) : (s.setRmt r).cbk = s.cbk := rfl
@[simp] theorem State.setRmt_power (s : State) (r : RmtSt) : (s.setRmt r).power = s.power := rfl
@[simp] theorem State.setRmt_traceLost (s : State) (r : RmtSt) : (s.setRmt r).traceLost = s.traceLost := rfl
@[simp] theorem State.setRmt_col (s : State) (r : RmtSt) : (s.setRmt r).col = s.col := rfl
@[simp] theorem State.setRmt_cores (s : State) (r : RmtSt) : (s.setRmt r).cores = s.cores := rfl
@[simp] theorem State.setRmt_ports (s : State) (r : RmtSt) : (s.setRmt r).ports = s.ports := rfl
@[simp] theorem State.setRmt_subs (s : State) (r : RmtSt) : (s.setRmt r).subs = s.subs := rfl
@[simp] theorem State.setRmt_parts (s : State) (r : RmtSt) : (s.setRmt r).parts = s.parts := rfl
@[simp] theorem State.setRmt_cutFrames (s : State) (r : RmtSt) : (s.setRmt r).cutFrames = s.cutFrames := rfl
@[simp] theorem State.setRmt_tele (s : State) (r : RmtSt) : (s.setRmt r).tele = s.tele := rfl
@[simp] theorem State.setRmt_steer (s : State) (r : RmtSt) : (s.setRmt r).steer = s.steer := rfl
@[simp] theorem State.setRmt_actions (s : State) (r : RmtSt) : (s.setRmt r).actions = s.actions := rfl
@[simp] theorem State.setRmt_boot (s : State) (r : RmtSt) : (s.setRmt r).boot = s.boot := rfl
@[simp] theorem State.setRmt_marul (s : State) (r : RmtSt) : (s.setRmt r).marul = s.marul := rfl
@[simp] theorem State.setRmt_hk (s : State) (r : RmtSt) : (s.setRmt r).hk = s.hk := rfl
@[simp] theorem State.setRmt_therm (s : State) (r : RmtSt) : (s.setRmt r).therm = s.therm := rfl
@[simp] theorem State.setRmt_clk (s : State) (r : RmtSt) : (s.setRmt r).clk = s.clk := rfl
@[simp] theorem State.setRmt_sec (s : State) (r : RmtSt) : (s.setRmt r).sec = s.sec := rfl
@[simp] theorem State.setRmt_out (s : State) (r : RmtSt) : (s.setRmt r).out = s.out := rfl
@[simp] theorem State.setRmt_freeCtr (s : State) (r : RmtSt) : (s.setRmt r).freeCtr = s.freeCtr := rfl

/-! ### setCol -/

@[simp] theorem State.setCol_col (s : State) (k : ColSt) : (s.setCol k).col = k := rfl
@[simp] theorem State.setCol_pending (s : State) (k : ColSt) : (s.setCol k).pending = s.pending := rfl
@[simp] theorem State.setCol_regs (s : State) (k : ColSt) : (s.setCol k).regs = s.regs := rfl
@[simp] theorem State.setCol_latches (s : State) (k : ColSt) : (s.setCol k).latches = s.latches := rfl
@[simp] theorem State.setCol_time (s : State) (k : ColSt) : (s.setCol k).time = s.time := rfl
@[simp] theorem State.setCol_host (s : State) (k : ColSt) : (s.setCol k).host = s.host := rfl
@[simp] theorem State.setCol_steps (s : State) (k : ColSt) : (s.setCol k).steps = s.steps := rfl
@[simp] theorem State.setCol_mm (s : State) (k : ColSt) : (s.setCol k).mm = s.mm := rfl
@[simp] theorem State.setCol_faults (s : State) (k : ColSt) : (s.setCol k).faults = s.faults := rfl
@[simp] theorem State.setCol_log (s : State) (k : ColSt) : (s.setCol k).log = s.log := rfl
@[simp] theorem State.setCol_streams (s : State) (k : ColSt) : (s.setCol k).streams = s.streams := rfl
@[simp] theorem State.setCol_router (s : State) (k : ColSt) : (s.setCol k).router = s.router := rfl
@[simp] theorem State.setCol_trs (s : State) (k : ColSt) : (s.setCol k).trs = s.trs := rfl
@[simp] theorem State.setCol_cbk (s : State) (k : ColSt) : (s.setCol k).cbk = s.cbk := rfl
@[simp] theorem State.setCol_power (s : State) (k : ColSt) : (s.setCol k).power = s.power := rfl
@[simp] theorem State.setCol_traceLost (s : State) (k : ColSt) : (s.setCol k).traceLost = s.traceLost := rfl
@[simp] theorem State.setCol_rmt (s : State) (k : ColSt) : (s.setCol k).rmt = s.rmt := rfl
@[simp] theorem State.setCol_cores (s : State) (k : ColSt) : (s.setCol k).cores = s.cores := rfl
@[simp] theorem State.setCol_ports (s : State) (k : ColSt) : (s.setCol k).ports = s.ports := rfl
@[simp] theorem State.setCol_subs (s : State) (k : ColSt) : (s.setCol k).subs = s.subs := rfl
@[simp] theorem State.setCol_parts (s : State) (k : ColSt) : (s.setCol k).parts = s.parts := rfl
@[simp] theorem State.setCol_cutFrames (s : State) (k : ColSt) : (s.setCol k).cutFrames = s.cutFrames := rfl
@[simp] theorem State.setCol_tele (s : State) (k : ColSt) : (s.setCol k).tele = s.tele := rfl
@[simp] theorem State.setCol_steer (s : State) (k : ColSt) : (s.setCol k).steer = s.steer := rfl
@[simp] theorem State.setCol_actions (s : State) (k : ColSt) : (s.setCol k).actions = s.actions := rfl
@[simp] theorem State.setCol_boot (s : State) (k : ColSt) : (s.setCol k).boot = s.boot := rfl
@[simp] theorem State.setCol_marul (s : State) (k : ColSt) : (s.setCol k).marul = s.marul := rfl
@[simp] theorem State.setCol_hk (s : State) (k : ColSt) : (s.setCol k).hk = s.hk := rfl
@[simp] theorem State.setCol_therm (s : State) (k : ColSt) : (s.setCol k).therm = s.therm := rfl
@[simp] theorem State.setCol_clk (s : State) (k : ColSt) : (s.setCol k).clk = s.clk := rfl
@[simp] theorem State.setCol_sec (s : State) (k : ColSt) : (s.setCol k).sec = s.sec := rfl
@[simp] theorem State.setCol_out (s : State) (k : ColSt) : (s.setCol k).out = s.out := rfl
@[simp] theorem State.setCol_freeCtr (s : State) (k : ColSt) : (s.setCol k).freeCtr = s.freeCtr := rfl

/-! ### setSub -/

@[simp] theorem State.setSub_subs (s : State) (p q : Nat) (u : SubPort) : (s.setSub p q u).subs = aput s.subs (p * 16 + q) u := rfl
@[simp] theorem State.setSub_pending (s : State) (p q : Nat) (u : SubPort) : (s.setSub p q u).pending = s.pending := rfl
@[simp] theorem State.setSub_regs (s : State) (p q : Nat) (u : SubPort) : (s.setSub p q u).regs = s.regs := rfl
@[simp] theorem State.setSub_latches (s : State) (p q : Nat) (u : SubPort) : (s.setSub p q u).latches = s.latches := rfl
@[simp] theorem State.setSub_time (s : State) (p q : Nat) (u : SubPort) : (s.setSub p q u).time = s.time := rfl
@[simp] theorem State.setSub_host (s : State) (p q : Nat) (u : SubPort) : (s.setSub p q u).host = s.host := rfl
@[simp] theorem State.setSub_steps (s : State) (p q : Nat) (u : SubPort) : (s.setSub p q u).steps = s.steps := rfl
@[simp] theorem State.setSub_mm (s : State) (p q : Nat) (u : SubPort) : (s.setSub p q u).mm = s.mm := rfl
@[simp] theorem State.setSub_faults (s : State) (p q : Nat) (u : SubPort) : (s.setSub p q u).faults = s.faults := rfl
@[simp] theorem State.setSub_log (s : State) (p q : Nat) (u : SubPort) : (s.setSub p q u).log = s.log := rfl
@[simp] theorem State.setSub_streams (s : State) (p q : Nat) (u : SubPort) : (s.setSub p q u).streams = s.streams := rfl
@[simp] theorem State.setSub_router (s : State) (p q : Nat) (u : SubPort) : (s.setSub p q u).router = s.router := rfl
@[simp] theorem State.setSub_trs (s : State) (p q : Nat) (u : SubPort) : (s.setSub p q u).trs = s.trs := rfl
@[simp] theorem State.setSub_cbk (s : State) (p q : Nat) (u : SubPort) : (s.setSub p q u).cbk = s.cbk := rfl
@[simp] theorem State.setSub_power (s : State) (p q : Nat) (u : SubPort) : (s.setSub p q u).power = s.power := rfl
@[simp] theorem State.setSub_traceLost (s : State) (p q : Nat) (u : SubPort) : (s.setSub p q u).traceLost = s.traceLost := rfl
@[simp] theorem State.setSub_rmt (s : State) (p q : Nat) (u : SubPort) : (s.setSub p q u).rmt = s.rmt := rfl
@[simp] theorem State.setSub_col (s : State) (p q : Nat) (u : SubPort) : (s.setSub p q u).col = s.col := rfl
@[simp] theorem State.setSub_cores (s : State) (p q : Nat) (u : SubPort) : (s.setSub p q u).cores = s.cores := rfl
@[simp] theorem State.setSub_ports (s : State) (p q : Nat) (u : SubPort) : (s.setSub p q u).ports = s.ports := rfl
@[simp] theorem State.setSub_parts (s : State) (p q : Nat) (u : SubPort) : (s.setSub p q u).parts = s.parts := rfl
@[simp] theorem State.setSub_cutFrames (s : State) (p q : Nat) (u : SubPort) : (s.setSub p q u).cutFrames = s.cutFrames := rfl
@[simp] theorem State.setSub_tele (s : State) (p q : Nat) (u : SubPort) : (s.setSub p q u).tele = s.tele := rfl
@[simp] theorem State.setSub_steer (s : State) (p q : Nat) (u : SubPort) : (s.setSub p q u).steer = s.steer := rfl
@[simp] theorem State.setSub_actions (s : State) (p q : Nat) (u : SubPort) : (s.setSub p q u).actions = s.actions := rfl
@[simp] theorem State.setSub_boot (s : State) (p q : Nat) (u : SubPort) : (s.setSub p q u).boot = s.boot := rfl
@[simp] theorem State.setSub_marul (s : State) (p q : Nat) (u : SubPort) : (s.setSub p q u).marul = s.marul := rfl
@[simp] theorem State.setSub_hk (s : State) (p q : Nat) (u : SubPort) : (s.setSub p q u).hk = s.hk := rfl
@[simp] theorem State.setSub_therm (s : State) (p q : Nat) (u : SubPort) : (s.setSub p q u).therm = s.therm := rfl
@[simp] theorem State.setSub_clk (s : State) (p q : Nat) (u : SubPort) : (s.setSub p q u).clk = s.clk := rfl
@[simp] theorem State.setSub_sec (s : State) (p q : Nat) (u : SubPort) : (s.setSub p q u).sec = s.sec := rfl
@[simp] theorem State.setSub_out (s : State) (p q : Nat) (u : SubPort) : (s.setSub p q u).out = s.out := rfl
@[simp] theorem State.setSub_freeCtr (s : State) (p q : Nat) (u : SubPort) : (s.setSub p q u).freeCtr = s.freeCtr := rfl

/-! ### setSteer -/

@[simp] theorem State.setSteer_steer (s : State) (x : SteerSt) : (s.setSteer x).steer = x := rfl
@[simp] theorem State.setSteer_pending (s : State) (x : SteerSt) : (s.setSteer x).pending = s.pending := rfl
@[simp] theorem State.setSteer_regs (s : State) (x : SteerSt) : (s.setSteer x).regs = s.regs := rfl
@[simp] theorem State.setSteer_latches (s : State) (x : SteerSt) : (s.setSteer x).latches = s.latches := rfl
@[simp] theorem State.setSteer_time (s : State) (x : SteerSt) : (s.setSteer x).time = s.time := rfl
@[simp] theorem State.setSteer_host (s : State) (x : SteerSt) : (s.setSteer x).host = s.host := rfl
@[simp] theorem State.setSteer_steps (s : State) (x : SteerSt) : (s.setSteer x).steps = s.steps := rfl
@[simp] theorem State.setSteer_mm (s : State) (x : SteerSt) : (s.setSteer x).mm = s.mm := rfl
@[simp] theorem State.setSteer_faults (s : State) (x : SteerSt) : (s.setSteer x).faults = s.faults := rfl
@[simp] theorem State.setSteer_log (s : State) (x : SteerSt) : (s.setSteer x).log = s.log := rfl
@[simp] theorem State.setSteer_streams (s : State) (x : SteerSt) : (s.setSteer x).streams = s.streams := rfl
@[simp] theorem State.setSteer_router (s : State) (x : SteerSt) : (s.setSteer x).router = s.router := rfl
@[simp] theorem State.setSteer_trs (s : State) (x : SteerSt) : (s.setSteer x).trs = s.trs := rfl
@[simp] theorem State.setSteer_cbk (s : State) (x : SteerSt) : (s.setSteer x).cbk = s.cbk := rfl
@[simp] theorem State.setSteer_power (s : State) (x : SteerSt) : (s.setSteer x).power = s.power := rfl
@[simp] theorem State.setSteer_traceLost (s : State) (x : SteerSt) : (s.setSteer x).traceLost = s.traceLost := rfl
@[simp] theorem State.setSteer_rmt (s : State) (x : SteerSt) : (s.setSteer x).rmt = s.rmt := rfl
@[simp] theorem State.setSteer_col (s : State) (x : SteerSt) : (s.setSteer x).col = s.col := rfl
@[simp] theorem State.setSteer_cores (s : State) (x : SteerSt) : (s.setSteer x).cores = s.cores := rfl
@[simp] theorem State.setSteer_ports (s : State) (x : SteerSt) : (s.setSteer x).ports = s.ports := rfl
@[simp] theorem State.setSteer_subs (s : State) (x : SteerSt) : (s.setSteer x).subs = s.subs := rfl
@[simp] theorem State.setSteer_parts (s : State) (x : SteerSt) : (s.setSteer x).parts = s.parts := rfl
@[simp] theorem State.setSteer_cutFrames (s : State) (x : SteerSt) : (s.setSteer x).cutFrames = s.cutFrames := rfl
@[simp] theorem State.setSteer_tele (s : State) (x : SteerSt) : (s.setSteer x).tele = s.tele := rfl
@[simp] theorem State.setSteer_actions (s : State) (x : SteerSt) : (s.setSteer x).actions = s.actions := rfl
@[simp] theorem State.setSteer_boot (s : State) (x : SteerSt) : (s.setSteer x).boot = s.boot := rfl
@[simp] theorem State.setSteer_marul (s : State) (x : SteerSt) : (s.setSteer x).marul = s.marul := rfl
@[simp] theorem State.setSteer_hk (s : State) (x : SteerSt) : (s.setSteer x).hk = s.hk := rfl
@[simp] theorem State.setSteer_therm (s : State) (x : SteerSt) : (s.setSteer x).therm = s.therm := rfl
@[simp] theorem State.setSteer_clk (s : State) (x : SteerSt) : (s.setSteer x).clk = s.clk := rfl
@[simp] theorem State.setSteer_sec (s : State) (x : SteerSt) : (s.setSteer x).sec = s.sec := rfl
@[simp] theorem State.setSteer_out (s : State) (x : SteerSt) : (s.setSteer x).out = s.out := rfl
@[simp] theorem State.setSteer_freeCtr (s : State) (x : SteerSt) : (s.setSteer x).freeCtr = s.freeCtr := rfl

/-! ### setTherm -/

@[simp] theorem State.setTherm_therm (s : State) (t : ThermSt) : (s.setTherm t).therm = t := rfl
@[simp] theorem State.setTherm_pending (s : State) (t : ThermSt) : (s.setTherm t).pending = s.pending := rfl
@[simp] theorem State.setTherm_regs (s : State) (t : ThermSt) : (s.setTherm t).regs = s.regs := rfl
@[simp] theorem State.setTherm_latches (s : State) (t : ThermSt) : (s.setTherm t).latches = s.latches := rfl
@[simp] theorem State.setTherm_time (s : State) (t : ThermSt) : (s.setTherm t).time = s.time := rfl
@[simp] theorem State.setTherm_host (s : State) (t : ThermSt) : (s.setTherm t).host = s.host := rfl
@[simp] theorem State.setTherm_steps (s : State) (t : ThermSt) : (s.setTherm t).steps = s.steps := rfl
@[simp] theorem State.setTherm_mm (s : State) (t : ThermSt) : (s.setTherm t).mm = s.mm := rfl
@[simp] theorem State.setTherm_faults (s : State) (t : ThermSt) : (s.setTherm t).faults = s.faults := rfl
@[simp] theorem State.setTherm_log (s : State) (t : ThermSt) : (s.setTherm t).log = s.log := rfl
@[simp] theorem State.setTherm_streams (s : State) (t : ThermSt) : (s.setTherm t).streams = s.streams := rfl
@[simp] theorem State.setTherm_router (s : State) (t : ThermSt) : (s.setTherm t).router = s.router := rfl
@[simp] theorem State.setTherm_trs (s : State) (t : ThermSt) : (s.setTherm t).trs = s.trs := rfl
@[simp] theorem State.setTherm_cbk (s : State) (t : ThermSt) : (s.setTherm t).cbk = s.cbk := rfl
@[simp] theorem State.setTherm_power (s : State) (t : ThermSt) : (s.setTherm t).power = s.power := rfl
@[simp] theorem State.setTherm_traceLost (s : State) (t : ThermSt) : (s.setTherm t).traceLost = s.traceLost := rfl
@[simp] theorem State.setTherm_rmt (s : State) (t : ThermSt) : (s.setTherm t).rmt = s.rmt := rfl
@[simp] theorem State.setTherm_col (s : State) (t : ThermSt) : (s.setTherm t).col = s.col := rfl
@[simp] theorem State.setTherm_cores (s : State) (t : ThermSt) : (s.setTherm t).cores = s.cores := rfl
@[simp] theorem State.setTherm_ports (s : State) (t : ThermSt) : (s.setTherm t).ports = s.ports := rfl
@[simp] theorem State.setTherm_subs (s : State) (t : ThermSt) : (s.setTherm t).subs = s.subs := rfl
@[simp] theorem State.setTherm_parts (s : State) (t : ThermSt) : (s.setTherm t).parts = s.parts := rfl
@[simp] theorem State.setTherm_cutFrames (s : State) (t : ThermSt) : (s.setTherm t).cutFrames = s.cutFrames := rfl
@[simp] theorem State.setTherm_tele (s : State) (t : ThermSt) : (s.setTherm t).tele = s.tele := rfl
@[simp] theorem State.setTherm_steer (s : State) (t : ThermSt) : (s.setTherm t).steer = s.steer := rfl
@[simp] theorem State.setTherm_actions (s : State) (t : ThermSt) : (s.setTherm t).actions = s.actions := rfl
@[simp] theorem State.setTherm_boot (s : State) (t : ThermSt) : (s.setTherm t).boot = s.boot := rfl
@[simp] theorem State.setTherm_marul (s : State) (t : ThermSt) : (s.setTherm t).marul = s.marul := rfl
@[simp] theorem State.setTherm_hk (s : State) (t : ThermSt) : (s.setTherm t).hk = s.hk := rfl
@[simp] theorem State.setTherm_clk (s : State) (t : ThermSt) : (s.setTherm t).clk = s.clk := rfl
@[simp] theorem State.setTherm_sec (s : State) (t : ThermSt) : (s.setTherm t).sec = s.sec := rfl
@[simp] theorem State.setTherm_out (s : State) (t : ThermSt) : (s.setTherm t).out = s.out := rfl
@[simp] theorem State.setTherm_freeCtr (s : State) (t : ThermSt) : (s.setTherm t).freeCtr = s.freeCtr := rfl

/-! ### setClk -/

@[simp] theorem State.setClk_clk (s : State) (c : ClockSt) : (s.setClk c).clk = c := rfl
@[simp] theorem State.setClk_pending (s : State) (c : ClockSt) : (s.setClk c).pending = s.pending := rfl
@[simp] theorem State.setClk_regs (s : State) (c : ClockSt) : (s.setClk c).regs = s.regs := rfl
@[simp] theorem State.setClk_latches (s : State) (c : ClockSt) : (s.setClk c).latches = s.latches := rfl
@[simp] theorem State.setClk_time (s : State) (c : ClockSt) : (s.setClk c).time = s.time := rfl
@[simp] theorem State.setClk_host (s : State) (c : ClockSt) : (s.setClk c).host = s.host := rfl
@[simp] theorem State.setClk_steps (s : State) (c : ClockSt) : (s.setClk c).steps = s.steps := rfl
@[simp] theorem State.setClk_mm (s : State) (c : ClockSt) : (s.setClk c).mm = s.mm := rfl
@[simp] theorem State.setClk_faults (s : State) (c : ClockSt) : (s.setClk c).faults = s.faults := rfl
@[simp] theorem State.setClk_log (s : State) (c : ClockSt) : (s.setClk c).log = s.log := rfl
@[simp] theorem State.setClk_streams (s : State) (c : ClockSt) : (s.setClk c).streams = s.streams := rfl
@[simp] theorem State.setClk_router (s : State) (c : ClockSt) : (s.setClk c).router = s.router := rfl
@[simp] theorem State.setClk_trs (s : State) (c : ClockSt) : (s.setClk c).trs = s.trs := rfl
@[simp] theorem State.setClk_cbk (s : State) (c : ClockSt) : (s.setClk c).cbk = s.cbk := rfl
@[simp] theorem State.setClk_power (s : State) (c : ClockSt) : (s.setClk c).power = s.power := rfl
@[simp] theorem State.setClk_traceLost (s : State) (c : ClockSt) : (s.setClk c).traceLost = s.traceLost := rfl
@[simp] theorem State.setClk_rmt (s : State) (c : ClockSt) : (s.setClk c).rmt = s.rmt := rfl
@[simp] theorem State.setClk_col (s : State) (c : ClockSt) : (s.setClk c).col = s.col := rfl
@[simp] theorem State.setClk_cores (s : State) (c : ClockSt) : (s.setClk c).cores = s.cores := rfl
@[simp] theorem State.setClk_ports (s : State) (c : ClockSt) : (s.setClk c).ports = s.ports := rfl
@[simp] theorem State.setClk_subs (s : State) (c : ClockSt) : (s.setClk c).subs = s.subs := rfl
@[simp] theorem State.setClk_parts (s : State) (c : ClockSt) : (s.setClk c).parts = s.parts := rfl
@[simp] theorem State.setClk_cutFrames (s : State) (c : ClockSt) : (s.setClk c).cutFrames = s.cutFrames := rfl
@[simp] theorem State.setClk_tele (s : State) (c : ClockSt) : (s.setClk c).tele = s.tele := rfl
@[simp] theorem State.setClk_steer (s : State) (c : ClockSt) : (s.setClk c).steer = s.steer := rfl
@[simp] theorem State.setClk_actions (s : State) (c : ClockSt) : (s.setClk c).actions = s.actions := rfl
@[simp] theorem State.setClk_boot (s : State) (c : ClockSt) : (s.setClk c).boot = s.boot := rfl
@[simp] theorem State.setClk_marul (s : State) (c : ClockSt) : (s.setClk c).marul = s.marul := rfl
@[simp] theorem State.setClk_hk (s : State) (c : ClockSt) : (s.setClk c).hk = s.hk := rfl
@[simp] theorem State.setClk_therm (s : State) (c : ClockSt) : (s.setClk c).therm = s.therm := rfl
@[simp] theorem State.setClk_sec (s : State) (c : ClockSt) : (s.setClk c).sec = s.sec := rfl
@[simp] theorem State.setClk_out (s : State) (c : ClockSt) : (s.setClk c).out = s.out := rfl
@[simp] theorem State.setClk_freeCtr (s : State) (c : ClockSt) : (s.setClk c).freeCtr = s.freeCtr := rfl

/-! ### setBoot -/

@[simp] theorem State.setBoot_boot (s : State) (b : BootSt) : (s.setBoot b).boot = b := rfl
@[simp] theorem State.setBoot_pending (s : State) (b : BootSt) : (s.setBoot b).pending = s.pending := rfl
@[simp] theorem State.setBoot_regs (s : State) (b : BootSt) : (s.setBoot b).regs = s.regs := rfl
@[simp] theorem State.setBoot_latches (s : State) (b : BootSt) : (s.setBoot b).latches = s.latches := rfl
@[simp] theorem State.setBoot_time (s : State) (b : BootSt) : (s.setBoot b).time = s.time := rfl
@[simp] theorem State.setBoot_host (s : State) (b : BootSt) : (s.setBoot b).host = s.host := rfl
@[simp] theorem State.setBoot_steps (s : State) (b : BootSt) : (s.setBoot b).steps = s.steps := rfl
@[simp] theorem State.setBoot_mm (s : State) (b : BootSt) : (s.setBoot b).mm = s.mm := rfl
@[simp] theorem State.setBoot_faults (s : State) (b : BootSt) : (s.setBoot b).faults = s.faults := rfl
@[simp] theorem State.setBoot_log (s : State) (b : BootSt) : (s.setBoot b).log = s.log := rfl
@[simp] theorem State.setBoot_streams (s : State) (b : BootSt) : (s.setBoot b).streams = s.streams := rfl
@[simp] theorem State.setBoot_router (s : State) (b : BootSt) : (s.setBoot b).router = s.router := rfl
@[simp] theorem State.setBoot_trs (s : State) (b : BootSt) : (s.setBoot b).trs = s.trs := rfl
@[simp] theorem State.setBoot_cbk (s : State) (b : BootSt) : (s.setBoot b).cbk = s.cbk := rfl
@[simp] theorem State.setBoot_power (s : State) (b : BootSt) : (s.setBoot b).power = s.power := rfl
@[simp] theorem State.setBoot_traceLost (s : State) (b : BootSt) : (s.setBoot b).traceLost = s.traceLost := rfl
@[simp] theorem State.setBoot_rmt (s : State) (b : BootSt) : (s.setBoot b).rmt = s.rmt := rfl
@[simp] theorem State.setBoot_col (s : State) (b : BootSt) : (s.setBoot b).col = s.col := rfl
@[simp] theorem State.setBoot_cores (s : State) (b : BootSt) : (s.setBoot b).cores = s.cores := rfl
@[simp] theorem State.setBoot_ports (s : State) (b : BootSt) : (s.setBoot b).ports = s.ports := rfl
@[simp] theorem State.setBoot_subs (s : State) (b : BootSt) : (s.setBoot b).subs = s.subs := rfl
@[simp] theorem State.setBoot_parts (s : State) (b : BootSt) : (s.setBoot b).parts = s.parts := rfl
@[simp] theorem State.setBoot_cutFrames (s : State) (b : BootSt) : (s.setBoot b).cutFrames = s.cutFrames := rfl
@[simp] theorem State.setBoot_tele (s : State) (b : BootSt) : (s.setBoot b).tele = s.tele := rfl
@[simp] theorem State.setBoot_steer (s : State) (b : BootSt) : (s.setBoot b).steer = s.steer := rfl
@[simp] theorem State.setBoot_actions (s : State) (b : BootSt) : (s.setBoot b).actions = s.actions := rfl
@[simp] theorem State.setBoot_marul (s : State) (b : BootSt) : (s.setBoot b).marul = s.marul := rfl
@[simp] theorem State.setBoot_hk (s : State) (b : BootSt) : (s.setBoot b).hk = s.hk := rfl
@[simp] theorem State.setBoot_therm (s : State) (b : BootSt) : (s.setBoot b).therm = s.therm := rfl
@[simp] theorem State.setBoot_clk (s : State) (b : BootSt) : (s.setBoot b).clk = s.clk := rfl
@[simp] theorem State.setBoot_sec (s : State) (b : BootSt) : (s.setBoot b).sec = s.sec := rfl
@[simp] theorem State.setBoot_out (s : State) (b : BootSt) : (s.setBoot b).out = s.out := rfl
@[simp] theorem State.setBoot_freeCtr (s : State) (b : BootSt) : (s.setBoot b).freeCtr = s.freeCtr := rfl

/-! ### setSec -/

@[simp] theorem State.setSec_sec (s : State) (c : SecSt) : (s.setSec c).sec = c := rfl
@[simp] theorem State.setSec_pending (s : State) (c : SecSt) : (s.setSec c).pending = s.pending := rfl
@[simp] theorem State.setSec_regs (s : State) (c : SecSt) : (s.setSec c).regs = s.regs := rfl
@[simp] theorem State.setSec_latches (s : State) (c : SecSt) : (s.setSec c).latches = s.latches := rfl
@[simp] theorem State.setSec_time (s : State) (c : SecSt) : (s.setSec c).time = s.time := rfl
@[simp] theorem State.setSec_host (s : State) (c : SecSt) : (s.setSec c).host = s.host := rfl
@[simp] theorem State.setSec_steps (s : State) (c : SecSt) : (s.setSec c).steps = s.steps := rfl
@[simp] theorem State.setSec_mm (s : State) (c : SecSt) : (s.setSec c).mm = s.mm := rfl
@[simp] theorem State.setSec_faults (s : State) (c : SecSt) : (s.setSec c).faults = s.faults := rfl
@[simp] theorem State.setSec_log (s : State) (c : SecSt) : (s.setSec c).log = s.log := rfl
@[simp] theorem State.setSec_streams (s : State) (c : SecSt) : (s.setSec c).streams = s.streams := rfl
@[simp] theorem State.setSec_router (s : State) (c : SecSt) : (s.setSec c).router = s.router := rfl
@[simp] theorem State.setSec_trs (s : State) (c : SecSt) : (s.setSec c).trs = s.trs := rfl
@[simp] theorem State.setSec_cbk (s : State) (c : SecSt) : (s.setSec c).cbk = s.cbk := rfl
@[simp] theorem State.setSec_power (s : State) (c : SecSt) : (s.setSec c).power = s.power := rfl
@[simp] theorem State.setSec_traceLost (s : State) (c : SecSt) : (s.setSec c).traceLost = s.traceLost := rfl
@[simp] theorem State.setSec_rmt (s : State) (c : SecSt) : (s.setSec c).rmt = s.rmt := rfl
@[simp] theorem State.setSec_col (s : State) (c : SecSt) : (s.setSec c).col = s.col := rfl
@[simp] theorem State.setSec_cores (s : State) (c : SecSt) : (s.setSec c).cores = s.cores := rfl
@[simp] theorem State.setSec_ports (s : State) (c : SecSt) : (s.setSec c).ports = s.ports := rfl
@[simp] theorem State.setSec_subs (s : State) (c : SecSt) : (s.setSec c).subs = s.subs := rfl
@[simp] theorem State.setSec_parts (s : State) (c : SecSt) : (s.setSec c).parts = s.parts := rfl
@[simp] theorem State.setSec_cutFrames (s : State) (c : SecSt) : (s.setSec c).cutFrames = s.cutFrames := rfl
@[simp] theorem State.setSec_tele (s : State) (c : SecSt) : (s.setSec c).tele = s.tele := rfl
@[simp] theorem State.setSec_steer (s : State) (c : SecSt) : (s.setSec c).steer = s.steer := rfl
@[simp] theorem State.setSec_actions (s : State) (c : SecSt) : (s.setSec c).actions = s.actions := rfl
@[simp] theorem State.setSec_boot (s : State) (c : SecSt) : (s.setSec c).boot = s.boot := rfl
@[simp] theorem State.setSec_marul (s : State) (c : SecSt) : (s.setSec c).marul = s.marul := rfl
@[simp] theorem State.setSec_hk (s : State) (c : SecSt) : (s.setSec c).hk = s.hk := rfl
@[simp] theorem State.setSec_therm (s : State) (c : SecSt) : (s.setSec c).therm = s.therm := rfl
@[simp] theorem State.setSec_clk (s : State) (c : SecSt) : (s.setSec c).clk = s.clk := rfl
@[simp] theorem State.setSec_out (s : State) (c : SecSt) : (s.setSec c).out = s.out := rfl
@[simp] theorem State.setSec_freeCtr (s : State) (c : SecSt) : (s.setSec c).freeCtr = s.freeCtr := rfl

end Sys2Proof.Machine
end

