-- ==== Sys2Proof/WellFormed.lean ====
section
/-! DEFINITION. Which commands are well formed: operands that the device can be given. A memory read returns as many bytes as it asks for, a list that names units names each
once, an instance byte names an instance (R67), a device address has 40 bits (R236). The device's own checks (R24, R26, R314 and the codes of the chapters) are no part of it. -/

namespace Sys2Proof

/-- No element twice. -/
def distinct {α : Type} [BEq α] : List α → Bool
  | [] => true
  | a :: as => !as.contains a && distinct as

/-- A read that did not fail returns n elements. -/
def optLen {α : Type} (n : Nat) : Option (List α) → Bool
  | some l => l.length == n
  | none => true

/-- Instances per core of each type code (R66). -/
def instances (typ : Nat) : Nat := [0, 4, 2, 1, 1, 1, 1, 1, 1, 2, 2, 4, 4, 1, 2].getD typ 0

/-- Whether an instance byte names an instance: its type code in bits 7 to 4, its number in bits 3 to 0 (R67). -/
def instByte (b : Byte) : Bool := decide (b.toNat % 16 < instances (b.toNat / 16))

/-- An ECC event lies at a device address. -/
def EccHit.wf (h : EccHit) : Bool := decide (h.addr < 2 ^ 40)

/-- Whether the operands of a command are ones the device can be given. -/
def Instr.WellFormed (i : Instr) : Bool :=
  match i with
  | .registerWrite _ offset _ => offset.toNat % 4 == 0
  | .w1cWrite _ offset _ => offset.toNat % 4 == 0
  | .rcFieldRead _ offset => offset.toNat % 4 == 0
  | .pairLowRead _ offset => offset.toNat % 8 == 0
  | .pairHighRead _ offset => offset.toNat % 8 == 4
  | .pair64bitAccess _ offset _ => offset.toNat % 8 == 0
  | .narrowRead _ offset half => decide (offset.toNat % 4 + (if half then 2 else 1) ≤ 4)
  | .badAccess _ _ _ _ => true
  | .unmappedAccess _ _ _ _ => true
  | .setupLockWrite _ _ => true
  | .resetBlockedAccess _ _ _ _ => true
  | .dilValidWrite _ _ _ => true
  | .deckSplitWrite _ _ _ => true
  | .deckSplitApply _ => true
  | .ctlEnableWrite _ _ _ => true
  | .lnkCfgWrite _ _ => true
  | .chkPresetCfgWrite _ _ _ => true
  | .traceEnableWrite _ _ _ => true
  | .porRelease _ _ _ => true
  | .porAssert => true
  | .vinAonLoss => true
  | .railOutOfRange _ _ => true
  | .railRestored _ => true
  | .bootStageDone _ _ _ _ _ => true
  | .stackTrainAttemptDone _ _ => true
  | .spanReady _ => true
  | .stackHandover _ => true
  | .perstAssert _ ptrs => distinct (ptrs.map (·.1))
  | .perstRelease _ _ => true
  | .functionLevelReset _ => true
  | .hostLinkFail _ _ ptrs => distinct (ptrs.map (·.1))
  | .ideSecureLoss _ _ ptrs => distinct (ptrs.map (·.1))
  | .doorbellPoll _ => true
  | .summarySwapDone _ _ _ => true
  | .bellWrite _ _ => true
  | .sqRecordReadDone _ _ => true
  | .descriptorFetch _ desc => optLen 64 desc
  | .cqHeadRead _ _ => true
  | .recordPost _ => true
  | .irqCoalesceTimeout _ => true
  | .nop _ => true
  | .stepSubmit _ => true
  | .hostCopy _ => true
  | .hostCopyDone _ _ _ hits => hits.all EccHit.wf
  | .ringCreate _ => true
  | .ringDestroy _ => true
  | .ringDestroyDone _ => true
  | .ringMove _ _ => true
  | .funcConfig _ => true
  | .graphRegister _ => true
  | .graphUnregister _ => true
  | .resolveStep _ => true
  | .streamOpen _ img => optLen 128 img
  | .streamSet _ img => optLen 128 img
  | .streamHold _ => true
  | .streamRelease _ => true
  | .streamClose _ => true
  | .streamPin _ => true
  | .streamUnpin _ => true
  | .streamRead _ _ => true
  | .streamImport _ img => optLen 128 img
  | .hbmRetire _ => true
  | .hbmRekey _ => true
  | .hbmTest _ => true
  | .hbmBistDone _ failing => distinct failing
  | .powerCap _ => true
  | .streamCtxCopyDone _ => true
  | .streamCacheFetchDone _ => true
  | .startTimeReached _ => true
  | .stepRun _ => true
  | .tileEmit _ who => who.all (fun e => instByte e.2) && distinct who
  | .tileArrive _ _ => true
  | .slotRelease _ _ => true
  | .creditArrive _ _ => true
  | .endOp _ _ inst => instByte inst
  | .stepDrainEnd _ => true
  | .stepFault _ cause _ inst => instByte inst && decide (1 ≤ cause.toNat) && decide (cause.toNat ≤ 0x18)
  | .abortQuiesceDone _ => true
  | .abortStopTimeout _ _ inst => instByte inst
  | .deadlineExpire _ => true
  | .inDoubtTimeout _ => true
  | .readyReceive _ => true
  | .decideReceive _ => true
  | .decideAckReceive _ => true
  | .decideAckTimeout _ _ _ => true
  | .takeoverCommitTimeout _ => true
  | .takeoverAbortTimeout _ => true
  | .decisionReceive _ => true
  | .abortCellReceive _ => true
  | .pass _ _ => true
  | .trestlePassIssue _ _ => true
  | .trestleGroupFeed _ _ _ _ off => decide (off < 2 ^ 20)
  | .trestleDrainStart _ _ => true
  | .trestleTileOut _ _ => true
  | .trestleParityError _ _ line => decide (line < 2 ^ 32)
  | .decode _ _ => true
  | .codebookTileDecode _ _ => true
  | .convert _ _ _ => true
  | .ewise _ _ => true
  | .map _ _ => true
  | .reduce _ _ => true
  | .softmax _ _ => true
  | .norm _ _ => true
  | .topk _ _ => true
  | .attend _ _ hits => hits.all EccHit.wf
  | .compact _ _ => true
  | .route _ _ => true
  | .draw _ _ => true
  | .accept _ _ => true
  | .load _ _ _ hits => hits.all EccHit.wf
  | .store _ _ _ hits => hits.all EccHit.wf
  | .kvAppend _ _ _ => true
  | .patrolScrub _ hits => hits.all EccHit.wf
  | .retirementCopyDone _ bad _ => distinct bad
  | .skewWindowEnd _ => true
  | .combineLineIdle _ => true
  | .spanResetEnter _ => true
  | .queue _ _ _ _ => true
  | .queueCreditReceive _ => true
  | .queueCellReceive _ => true
  | .queueChannelFree _ => true
  | .put _ _ _ => true
  | .copy _ _ _ => true
  | .copyComplete _ _ => true
  | .atomic _ _ _ => true
  | .fence _ _ _ => true
  | .flag _ _ _ => true
  | .get _ _ _ => true
  | .loadAtomicEngineSlot _ => true
  | .rdReqReceive _ hits => hits.all EccHit.wf
  | .wrReceive _ => true
  | .atomicReceive _ => true
  | .copyReceive _ => true
  | .copyAckFlush _ _ => true
  | .rdRspReceive _ => true
  | .wrAckReceive _ => true
  | .atomicRspReceive _ => true
  | .errorRspReceive _ => true
  | .remoteTimeout _ => true
  | .waitGe _ _ _ => true
  | .waitGeSatisfied _ _ _ => true
  | .append _ _ _ => true
  | .verify _ _ _ => true
  | .windowWrite _ data => data.length % 32 == 0
  | .sliceWrite _ data => optLen 32 data
  | .run _ _ => true
  | .collectSlotFree _ _ => true
  | .collectDataStart _ => true
  | .grantReceive _ => true
  | .collectDataReceive _ => true
  | .sizesReceive _ _ => true
  | .collectChunkSend _ => true
  | .collectComplete _ => true
  | .collectResendTimeout _ _ _ _ => true
  | .collectGateOpen _ => true
  | .cellRoute _ => true
  | .keystoneAdmit _ _ => true
  | .landingToInput _ => true
  | .cellTransmit _ _ => true
  | .subportReroute _ _ => true
  | .creditCellReceive _ _ => true
  | .creditCellSend _ _ => true
  | .creditStallTimeout _ _ => true
  | .kStallTimeout _ _ => true
  | .slowDestMark _ => true
  | .telemetrySample => true
  | .telemetryIntervalEnd => true
  | .rteWrite _ data => data.length % 2 == 0
  | .psetWrite _ data => data.length % 8 == 0
  | .ovrWrite _ data => data.length % 16 == 0
  | .filterWrite _ data => data.length % 8 == 0 && decide (data.length ≤ 128)
  | .portRole _ => true
  | .endpointAssign _ => true
  | .telemetryCfg _ => true
  | .telemetryRead _ _ => true
  | .codewordTransmit _ _ => true
  | .codewordReceive _ _ _ lanes => decide (lanes.length ≤ 16) && lanes.all (fun l => optLen 272 l)
  | .nakReceive _ _ => true
  | .replayReceive _ _ => true
  | .nakLost _ _ => true
  | .fillReceive _ _ => true
  | .trainReceive _ _ => true
  | .lockAcquired _ _ _ lanes => distinct (lanes.map (·.1))
  | .identReceive _ _ => true
  | .certReceive _ _ => true
  | .authReceive _ _ => true
  | .echoReqReceive _ _ => true
  | .echoRspReceive _ _ _ => true
  | .echoReqSend _ _ => true
  | .lanemapReceive _ _ => true
  | .swingCheckReceive _ _ => true
  | .lockTimeout _ _ => true
  | .identTimeout _ _ => true
  | .noLightTimeout _ _ => true
  | .nakStorm _ _ => true
  | .heaterUpdate _ rings => distinct (rings.map fun r => (r.1, r.2.1))
  | .laneFail _ _ _ _ => true
  | .spareLaserTuned _ _ => true
  | .laserBiasSet _ bias eol => distinct (bias.map (·.1)) && distinct eol
  | .swing _ => true
  | .swingRelock _ => true
  | .swingTimeout _ => true
  | .openFibreShutdown _ => true
  | .openFibreProbe _ => true
  | .farLightDetect _ => true
  | .disable _ => true
  | .enable _ => true
  | .retrain _ => true
  | .release _ => true
  | .acceptPeer _ => true
  | .setMode _ => true
  | .substitute _ => true
  | .unsubstitute _ => true
  | .portExpect _ => true
  | .presetWrite _ => true
  | .todRecordWrite rec => rec.length == 16
  | .ppsEdge => true
  | .ppsTimeout => true
  | .timeSourceLoss => true
  | .holdoverTimeout => true
  | .gateEntryBoundary _ => true
  | .gateTakeover _ => true
  | .pauseReceive _ _ => true
  | .pauseExpire _ _ => true
  | .pauseAbuseTimeout _ _ => true
  | .pauseIgnoreEnd _ _ => true
  | .stepStart _ => true
  | .thermalSyncAction _ => true
  | .inject _ => true
  | .pauseSend _ => true
  | .actionLate _ => true
  | .actionSkipped _ => true
  | .source _ => true
  | .step _ => true
  | .asym _ => true
  | .pause _ => true
  | .gateWrite _ data => optLen 256 data
  | .actionWrite _ data => data.length % 32 == 0
  | .regPhaseFail _ _ => true
  | .hbmPhaseFail _ => true
  | .clockChange _ => true
  | .didtWindow _ => true
  | .didtDroop _ => true
  | .powerLimitEvent _ => true
  | .marulCapExchange _ first second _ => first.length == 32 && second.length == 32
  | .marulFlitReceive _ _ sent recv => sent.length == 256 && recv.length == 256
  | .marulNakReceive _ _ => true
  | .marulAckDue _ _ => true
  | .marulLinkDown _ _ => true
  | .marulLinkRestore _ => true
  | .sensorConversion _ _ => true
  | .roundStart => true
  | .roundPublish stackTemps vmon imon _ => stackTemps.length == 8 && vmon.length == 64 && imon.length == 40
  | .throttleLoop _ _ _ => true
  | .hkFirmwareWrite _ _ _ _ => true
  | .hkWatchdogTimeout _ => true
  | .hkCoreFault _ => true
  | .hkLoad _ data => (match data with | some d => decide (d.length ≤ 524288) | none => true)
  | .hkStart _ => true
  | .hkRestart _ => true
  | .hkStop _ => true
  | .thermalSet _ => true
  | .thermalSync _ => true
  | .thermalRead _ _ => true
  | .noProgressTimeout _ _ inst => instByte inst
  | .recoveryWindowEnd => true
  | .l2 _ => true
  | .l3 _ => true
  | .l4 _ => true
  | .resetComplete _ => true
  | .resetRelease _ => true
  | .coreSwap _ => true
  | .coreTest _ => true
  | .coreTestDone _ _ => true
  | .coreRetire _ => true
  | .logRead _ _ => true
  | .injectPlan _ data => optLen 256 data
  | .injectStart _ => true
  | .injectCancel _ => true
  | .wavelengthDrop _ => true
  | .codewordCorrupt _ _ => true
  | .hbmCe _ => true
  | .hbmPoison _ => true
  | .stationHang _ => true
  | .sensor _ => true
  | .hkStopInject _ => true
  | .spareRotateDue _ => true
  | .getVersion _ => true
  | .getCapabilities _ => true
  | .negotiateAlgorithms _ _ => true
  | .getDigests _ => true
  | .getCertificate _ _ _ _ => true
  | .challenge _ _ nonce => nonce.length == 32
  | .getMeasurements _ _ _ nonce => nonce.length == 32
  | .keyExchange _ _ share => share.length == 96
  | .finish _ _ _ => true
  | .heartbeat _ _ => true
  | .keyUpdate _ _ _ => true
  | .endSession _ _ => true
  | .ownerBind _ data => optLen 96 data
  | .ownerRevoke _ => true
  | .ownerRelease _ => true
  | .svnAdvance _ => true
  | .debugChallenge _ _ => true
  | .debugUnlock _ token ptrs => optLen 416 token && distinct (ptrs.map (·.1))
  | .debugEraseDone => true
  | .lineKey _ data => optLen 64 data
  | .lineKeyActivate _ _ => true
  | .corePower _ => true
  | .portPower _ => true
  | .coreIdleEnter _ => true
  | .corePark _ => true
  | .coreWakeDone _ => true
  | .powerOn => true
  | .hostLinkUp _ _ _ _ => true
  | .hostLinkDown _ => true
  | .d3hot _ _ => true
  | .vfEnableWrite _ _ => true
  | .msixUnmask _ _ => true
  | .ideKm _ _ _ => true
  | .doeDiscovery _ _ => true
  | .openFibreProbeEnd _ => true
  | .wavelengthDropEnd _ _ => true
  | .debugPortAccess _ _ _ _ => true

end Sys2Proof
end

