-- ==== Sys2Proof/Tests/Slice0.lean ====
section
/-! SUPPORT. Tests: ill-formed commands that the well-formedness check refuses, small states in which the hypotheses of the statements hold, and single steps checked against
the spec's own values. -/

namespace Sys2Proof.Machine

open Sys2Proof

set_option linter.unusedVariables false
set_option Elab.async false

/-- Commands with operands the device cannot be given. -/
theorem test_illFormed_1 : ([.registerWrite 0 2 0,
    .w1cWrite 0 2 0,
    .rcFieldRead 0 6,
    .pairLowRead 0 4,
    .pairHighRead 0 8,
    .pair64bitAccess 0 4 none,
    .narrowRead 0 3 true,
    .perstAssert 0 [(1, false, 0), (1, true, 0)],
    .hostLinkFail 0 false [(1, false, 0), (1, false, 0)]] : List Instr).all (fun i => !i.WellFormed) = true := by decide +kernel

/-- Commands with operands the device cannot be given. -/
theorem test_illFormed_2 : ([.ideSecureLoss 0 0 [(1, false, 0), (1, false, 0)],
    .descriptorFetch 0 (some []),
    .hostCopyDone 0 [] none [⟨2 ^ 40, .hbmCe⟩],
    .streamOpen 0 (some []),
    .streamSet 0 (some []),
    .streamImport 0 (some []),
    .hbmBistDone 0 [5, 5],
    .tileEmit 0 [(0, 0x40), (0, 0x40)],
    .endOp 0 0 0x48] : List Instr).all (fun i => !i.WellFormed) = true := by decide +kernel

/-- Commands with operands the device cannot be given. -/
theorem test_illFormed_3 : ([.stepFault 0 0x19 0 0x40,
    .abortStopTimeout 0 0 0x04,
    .trestleGroupFeed 0 0 false 0 (2 ^ 20),
    .trestleParityError 0 0 (2 ^ 32),
    .attend 0 0 [⟨2 ^ 40, .deckUe⟩],
    .load 0 0 0 [⟨2 ^ 40, .hbmUe⟩],
    .store 0 0 0 [⟨2 ^ 40, .deckCe⟩],
    .patrolScrub 0 [⟨2 ^ 40, .hbmCe⟩],
    .retirementCopyDone 0 [7, 7] 0] : List Instr).all (fun i => !i.WellFormed) = true := by decide +kernel

/-- Commands with operands the device cannot be given. -/
theorem test_illFormed_4 : ([.rdReqReceive 0 [⟨2 ^ 40, .hbmCe⟩],
    .windowWrite 0 [1],
    .sliceWrite 0 (some [1]),
    .rteWrite 0 [1],
    .psetWrite 0 [1],
    .ovrWrite 0 [1],
    .filterWrite 0 (List.replicate 136 0),
    .codewordReceive 0 0 0 [some []],
    .lockAcquired 0 0 0 [(0, 0, 0, 0), (0, 1, 0, 0)]] : List Instr).all (fun i => !i.WellFormed) = true := by decide +kernel

/-- Commands with operands the device cannot be given. -/
theorem test_illFormed_5 : ([.heaterUpdate 0 [(0, true, 1, 1), (0, true, 2, 2)],
    .laserBiasSet 0 [(0, 1), (0, 2)] [],
    .todRecordWrite [],
    .gateWrite 0 (some []),
    .actionWrite 0 [1],
    .marulCapExchange 0 [] [] 0,
    .marulFlitReceive 0 false [] [],
    .roundPublish [] [] [] 0,
    .noProgressTimeout 0 0 0xFF] : List Instr).all (fun i => !i.WellFormed) = true := by decide +kernel

/-- Commands with operands the device cannot be given. -/
theorem test_illFormed_6 : ([.injectPlan 0 (some []),
    .challenge 0 0 [],
    .getMeasurements 0 false 0 [],
    .keyExchange 0 0 [],
    .ownerBind 0 (some []),
    .debugUnlock 0 (some []) [],
    .lineKey 0 (some [])] : List Instr).all (fun i => !i.WellFormed) = true := by decide +kernel

/-- A housekeeping image longer than 512 KiB. -/
theorem test_illFormed_hkLoad : ∀ d : List Byte, 524288 < d.length → (Instr.hkLoad 0 (some d)).WellFormed = false := by
  intro d h
  simp only [Instr.WellFormed]
  exact decide_eq_false (Nat.not_le.2 h)

/-- A descriptor of one opcode with some of its bytes set. -/
def wDesc (op : Nat) (l : List (Nat × Nat)) : List Byte := (List.range 64).map fun i => if i = 0 then BitVec.ofNat 8 op else BitVec.ofNat 8 ((l.lookup i).getD 0)

/-- A descriptor fetched from SQ 0. -/
def wFlight (op : Nat) (l : List (Nat × Nat)) : InFlight := { sq := 0, tag := 7, opcode := op, no := 0, desc := wDesc op l }

/-- A state in which one descriptor has been fetched. -/
def wRing (f : InFlight) : State := { host := { flights := [f] } }

/-- Link 0 up and its port out of PERST, so that PF 0 is live; every ring's function is PF 0. -/
def wLive (fs : List InFlight) : State := State.setF { host := { perst0 := false, flights := fs } } (fHOST_LINK_UP 0) 1

/-- A STEP_SUBMIT that passes its checks: handle of slot 0, slice 0, one stream (ID 0, ACTIVE), no deadline. -/
def wStepFlight : InFlight := { sq := 8, tag := 7, opcode := 1, no := 0, desc := wDesc 1 [(9, 16), (24, 1), (33, 16)] }

/-- Span 0 ready; slice 0 has one rank, this device; slot 0 is registered; stream 0 is ACTIVE in the table at address 0. -/
def wSubmit : State :=
  State.setF { mm := { mem := { cells := [(0, 0x11), (9, 0x10)] } }, host := { flights := [wStepFlight] }, steps := { graphs := [(0, { gen := 1, reg := true })] } } fTOP_READY_SPAN 1

/-- A state whose memories are defined and 0. -/
def wBlank (s : State) : State := { s with mm := { mem := {} } }

/-- The first byte of stream 0's entry, in the table at address 0. -/
def wEntry (s : State) (b : Byte) : State := { s with mm := { mem := { cells := [(0, b)] } } }

/-- An image that STREAM_OPEN takes: MAX_LEN 1, TOP_P 1, TOP_K 1. -/
def wOpenImage : List Byte := (List.range 128).map fun i => if i = 48 then 1 else if i = 66 then 0x80 else if i = 67 then 0x3F else if i = 68 then 1 else 0

/-- Slice 0 with two ranks, at endpoints 5 and 6, this device being rank `own`, and one frame delivered. -/
def wSlice (own : Byte) (f : Frame) : State :=
  { mm := { mem := { cells := [(0, 1), (2, 1), (4, own), (9, 16), (0x1000, 5), (0x1004, 6)] } }, router := { delivered := [f] } }

/-- A commit cell of slice 0, SEQ 0, ATTEMPT 0 from an endpoint and rank, with its decision byte. -/
def wCommit (src typ sender : Nat) (dec : Byte) : Frame :=
  { src := src, cls := 0, typ := typ, body := (List.range 64).map fun i => if i = 8 then BitVec.ofNat 8 sender else if i = 11 then dec else 0 }

/-- An op's first word: opcode, IN_A, IN_B, OUT, PER_STREAM, one repeat. -/
def wWord (code inA inB out ps : Nat) : Nat := code * 2 ^ 56 + inA * 2 ^ 44 + inB * 2 ^ 32 + out * 2 ^ 20 + 16 + 4 * ps

/-- A running step in slot 3 whose instance `inst` of core 1 has an op in hand, with its queues. -/
def wOp (inst w0 w1 w2 w3 : Nat) (qs : List (Nat × Queue)) : State :=
  { mm := { mem := { cells := (List.range 32).zip ([w0, w1, w2, w3].flatMap (leBytes 8)) } }
    steps := { graphs := [(0, { reg := true })]
               slots := [(3, { phase := .running, queues := qs, streams := [{ id := 0 }]
                               insts := [{ core := 1, inst := inst, start := 0, pc := 0, progEnd := 64, started := true }] })] } }

/-- A queue with one tile at its head. -/
def wQueue (t : Tile) : Queue := { items := [{ tile := t, arrived := true }] }

/-- The same with the op not yet started. -/
def wFresh (inst w0 w1 w2 w3 : Nat) (qs : List (Nat × Queue)) : State :=
  (wOp inst w0 w1 w2 w3 qs).modInst 3 1 inst fun r => { r with started := false }

/-- A codebook tile of 128 rows and columns, all 0. -/
def wCbTile : Tile := { format := 0x20, rows := 128, cols := 128, layout := 2, payload := List.replicate 9344 0 }

theorem wCbTile_ok : cbTileOk wCbTile = true := by
  have g : ∀ n i, ((List.replicate n (0 : Byte)).toArray.getD i 0) = 0 := by intro n i; simp [Array.getD]
  have h := g 9344
  unfold cbTileOk wCbTile
  simp only [h, List.length_replicate]
  decide

/-- Span 0 ready, the context at address 786,432 saying 4 rows, and a page table at address 65,536 whose first pages all lead to the page at 98,304. -/
def wKv (s : State) : State :=
  State.setF { s with mm := { mem := { cells := s.mm.mem.cells ++ [(65536, 5), (65539, 0x80), (81920, 6), (81923, 0x80), (81924, 6), (81927, 0x80), (81928, 6), (81931, 0x80), (81932, 6), (81935, 0x80), (786440, 4)] } } } fTOP_READY_SPAN 1

/-- A frame of a type delivered from endpoint 6, while the step of slot 3 (slice 0, SEQ 0, ATTEMPT 0) runs and span 0 is ready. -/
def wReq (typ : Nat) (body : List Byte) : State :=
  State.setF { mm := { mem := {} }, steps := { slots := [(3, { phase := .running })] }, router := { delivered := [{ src := 6, cls := 2, typ := typ, body := body }] } } fTOP_READY_SPAN 1

/-- Slice 0 has two ranks and window 0 lets every rank do everything in the first 4 KiB. -/
def wWin (s : State) : State :=
  State.setF (State.setF (State.setF { s with mm := { mem := { cells := s.mm.mem.cells ++ [(4096, 1), (4098, 1), (4105, 32), (8192, 5), (8196, 6)] } } }
    (fMEM_WIN0_FLAGS 0) 0x1D) (fMEM_WIN2_TGT_HI 0) 5) (fMEM_WIN6_OFF_HI 0) 1

/-- A copy of engine 2 of die 0 to endpoint 6, all of it acknowledged. -/
def wCopyRun : CopyRun := { die := 0, eng := 2, id := 0, slot := 3, core := 1, inst := 0xB0, dst := 6, src := 0, off := 0, total := 4, sent := 4, acked := 4 }

/-- An outstanding request of span 0 to endpoint 6. -/
def wReqOut (kind : Nat) : RmtReq := { kind := kind, span := 0, slot := 3, core := 1, inst := 0xB0, dst := 6, off := 0, len := 4 }

/-- A COLLECT instance with a RUN op whose descriptor at address 64 asks for an AGATHER of one rank from queue 0 to queue 2. -/
def wRun (k : ColSt) : State :=
  State.setF { wOp 0xD0 (wWord 1 0 0xFFF 2 0) 0 64 0 [] with
    mm := { mem := { cells := (wOp 0xD0 (wWord 1 0 0xFFF 2 0) 0 64 0 []).mm.mem.cells ++ [(64, 1), (65, 24), (66, 1), (68, 1), (96, 1)] } }, col := k } fTOP_READY_SPAN 1

/-- A started AGATHER of two members, this one being member 0, with 16 bytes to move each way. -/
def wColl : Coll :=
  { no := 5, slot := 3, core := 1, node := 0, rep := 0, desc := [1, 0, 1, 0, 1, 1, 0, 0, 1] ++ List.replicate 15 0 ++ [1] ++ List.replicate 7 0 ++ [16] ++ List.replicate 95 0
    inA := 0xFFF, outQ := 2, src := 0x3000, dst := 0x4000, size := 2, own := 0, started := true
    rx := [{ phase := 0, peer := 1, len := some 16, granted := 1 }], tx := [{ phase := 0, peer := 1, len := some 16, granted := 1 }] }

/-- The collective of a running step of slice 0, whose ranks are at endpoints 5 and 6, with one COLLECT frame delivered from rank 1. -/
def wCollect (c : Coll) (body : List Byte) : State :=
  State.setF { mm := { mem := { cells := [(0, 1), (2, 1), (9, 16), (0x1000, 5), (0x1004, 6)] } }, steps := { slots := [(3, { phase := .running, ranks := 2 })] },
               router := { delivered := [{ src := 6, cls := 0, typ := 0x0D, body := body }] }, col := { colls := [c] } } fTOP_READY_SPAN 1

/-- Port 3 bonded, its sub-port up as given, 100 µs after power-on. -/
def wPort (u : SubPort) : State :=
  State.setSub { time := { nowNs := 100000 } } 3 0 { u with state := 4, width := 10 }

/-- Fabric time set, at t. -/
def wFt (t : Nat) : State := State.setF { time := { ft := t } } fTIME_STATUS_STATE 1

/-- Port 3 bonded and dark, its sub-port as given, 100 µs after power-on; and the same with the port lit. -/
def wSub (u : SubPort) : State := State.setSub { time := { nowNs := 100000 } } 3 0 u
def wLit (u : SubPort) : State := State.setSub { time := { nowNs := 100000 }, ports := [(3, { lit := true })] } 3 0 u

/-- A TOD_RECORD of second 7, valid, with its check. -/
def wTod : List Byte := [7, 0, 0, 0, 0, 0, 0, 0, 1, 0, 0, 0, 117, 51, 112, 96]

/-- An action entry for time 10,000 of a kind with its argument bytes; and a state at that time with the entry in place 0. -/
def wActE (kind : Nat) (args : List Byte) : List Byte := leBytes 8 10000 ++ leBytes 8 0 ++ [BitVec.ofNat 8 kind, 0, 0, 0] ++ (args ++ List.replicate 12 0).take 12
def wAct (e : List Byte) : State := { wFt 10000 with actions := [(0, e)] }

/-- Injection enabled, the plans of a mask loaded. -/
def wPlan (s : State) (m : Nat) : State := State.setF (State.setF s fINJ_CFG_ENABLE 1) fINJ_STATUS_LOADED m

/-- Plan 0 running at an entry of a kind: A, B and its argument. -/
def wInj (kind a b arg : Nat) : State :=
  State.setF (State.setF (State.setF (State.setF { faults := { plans := [⟨0, 0, 0⟩] } } (fINJ_PLAN_WORD 0 1) (kind + a * 65536)) (fINJ_PLAN_WORD 0 2) b) (fINJ_PLAN_WORD 0 3) arg)
    fTOP_READY_SPAN 3

/-- A flit without payload may always be sent as the next one. -/
theorem wNull : MarulDir.sent (State.mdir (State.setF {} (fD2D_LINK0_STATE 0) 2) 0 false) (mkFlit (2 ^ 37) []) 0 = some {} := by
  have e : flitHead (mkFlit (2 ^ 37) []) = 2 ^ 37 := by rfl
  unfold MarulDir.sent flitNull flitSeq; rw [e]; decide

/-- Housekeeping core 0 running with the duties of a die. -/
def wHk (die : Nat) (s : State) : State := State.setF (State.setF s (fTHM_HK_STATUS_STATE 0) 2) (fTHM_HK_STATUS_DUTY 0) die

/-- HK_LOAD of core 0 for die 0 fetched; no core holds duties. -/
def wHkLoad : State := wLive [wFlight 0x80 [(24, 1)]]
theorem wHkLoad_free : (wHkLoad.hkCmdStop 0).dutyCore 0 = none := by decide +kernel
theorem wHkLoad_may : wHkLoad.hkState 0 ≠ 1 ∧ (0 = 6 ∨ wHkLoad.hkDuty 6 ≠ 0) := by decide +kernel

/-- The core stopped for the load. -/
def wHkLoaded : State := (wHkLoad.hkCmdStop 0).setHk 0 { (wHkLoad.hkCmdStop 0).hkCore 0 with image := [], running := [], wait := none }
theorem wHkLoad_get : ∃ w m, wHkLoaded.hostGet (wFlight 0x80 [(24, 1)]) (recNat (wFlight 0x80 [(24, 1)]).desc 16 8) (recNat (wFlight 0x80 [(24, 1)]).desc 24 4) (some []) = (w, some m) :=
  ⟨_, _, rfl⟩

/-- The tray transport live, n steps of its negotiation done; with a session on it; and the same on link 0. -/
def wSpdm (n : Nat) : State := { boot := { por := true }, sec := { spdm := [(4, n)] } }
def wSession (o : Bool) : State := { boot := { por := true }, sec := { sessions := [⟨7, 4, o, 0, 0⟩] } }
def wLinkSession : State := State.setF { boot := { por := true }, sec := { sessions := [⟨7, 0, true, 0, 0⟩] } } (fHOST_LINK_UP 0) 1

/-- Core 0 on physical core 0, 100 µs and 100 cycles after power-on. -/
def wCore (c : CoreSt) : State :=
  { cores := [(0, c)], time := { nowNs := 100000 }, regs := [(0x300010, 0x80#32)], mm := { spans := [(0, { cyc := 100 })] } }


/-- A state and operands that meet the hypotheses of each clause of SetupAccessesAnswer. -/
theorem test_witness_SetupAccessesAnswer :
    (∃ s : State, ∃ req : Fin 8, ∃ offset : BitVec 26, ∃ value : Word, (s.reaches req.val offset.toNat = true) ∧ (writeClass offset.toNat = (0, 0)) ∧ (hasField offset.toNat .w1c = false)) ∧
    (∃ s : State, ∃ req : Fin 8, ∃ offset : BitVec 26, ∃ value : Word, (s.reaches req.val offset.toNat = true) ∧ (writeClass offset.toNat = (0, 0)) ∧ (hasField offset.toNat .w1c = true)) ∧
    (∃ s : State, ∃ req : Fin 8, ∃ offset : BitVec 26, (s.reaches req.val offset.toNat = true) ∧ (pairLow offset.toNat = false) ∧ (pairHigh offset.toNat = false) ∧ (s.latches.find? (fun e => e.req == req.val && e.off == offset.toNat) = none) ∧ (captures offset.toNat = [])) ∧
    (∃ s : State, ∃ req : Fin 8, ∃ offset : BitVec 26, (s.reaches req.val offset.toNat = true) ∧ (pairLow offset.toNat = true) ∧ (s.latches.find? (fun e => e.req == req.val && e.off == offset.toNat) = none)) ∧
    (∃ s : State, ∃ req : Fin 8, ∃ offset : BitVec 26, ∃ l : Latch, (s.reaches req.val offset.toNat = true) ∧ (pairHigh offset.toNat = true) ∧ (s.latches.find? (fun e => e.req == req.val && e.off == offset.toNat) = some l)) ∧
    (∃ s : State, ∃ req : Fin 8, ∃ offset : BitVec 26, (s.reaches req.val offset.toNat = true) ∧ (offset.toNat % 8 = 0) ∧ (pairLow offset.toNat = true)) ∧
    (∃ s : State, ∃ req : Fin 8, ∃ offset : BitVec 26, ∃ half : Bool, (s.reaches req.val (offset.toNat / 4 * 4) = true) ∧ (offset.toNat % 4 + (if half then 2 else 1) ≤ 4)) ∧
    (∃ s : State, ∃ req : Fin 8, ∃ offset : BitVec 26, ∃ size : Fin 4, ∃ write : Bool, (s.reqLive req.val = true) ∧ (badShape offset.toNat (2 ^ size.val) write = true)) ∧
    (∃ s : State, ∃ req : Fin 8, ∃ offset : BitVec 26, ∃ size : Fin 4, ∃ write : Bool, (s.reqLive req.val = true) ∧ (badShape offset.toNat (2 ^ size.val) write = false) ∧ (decoded offset.toNat = false)) ∧
    (∃ s : State, ∃ req : Fin 8, ∃ offset : BitVec 26, ∃ size : Fin 4, ∃ write : Bool, (s.reqLive req.val = true) ∧ (badShape offset.toNat (2 ^ size.val) write = false) ∧ (computeBlock offset.toNat = true) ∧ (s.inL4 = true)) := by
  refine ⟨?_, ?_, ?_, ?_, ?_, ?_, ?_, ?_, ?_, ?_⟩
  · exact ⟨{}, 4, 0x100000#26, 5#32, by decide +kernel, by decide +kernel, by decide +kernel⟩
  · exact ⟨{}, 4, 0x50#26, 5#32, by decide +kernel, by decide +kernel, by decide +kernel⟩
  · exact ⟨{}, 4, 0x24#26, by decide +kernel, by decide +kernel, by decide +kernel, by decide +kernel, by decide +kernel⟩
  · exact ⟨{}, 4, 0x44#26, by decide +kernel, by decide +kernel, by decide +kernel⟩
  · exact ⟨{ latches := [⟨4, 0x48, 7⟩] }, 4, 0x48#26, ⟨4, 0x48, 7⟩, by decide +kernel, by decide +kernel, by decide +kernel⟩
  · exact ⟨{}, 4, 0x100100#26, by decide +kernel, by decide +kernel, by decide +kernel⟩
  · exact ⟨{}, 4, 0x25#26, false, by decide +kernel, by decide +kernel⟩
  · exact ⟨{}, 4, 0x25#26, 2, false, by decide +kernel, by decide +kernel⟩
  · exact ⟨{}, 4, 0x1500000#26, 2, true, by decide +kernel, by decide +kernel, by decide +kernel⟩
  · exact ⟨{ faults := { heldDevice := true } }, 4, 0x500000#26, 2, false, by decide +kernel, by decide +kernel, by decide +kernel, by decide +kernel⟩

/-- A state and operands that meet the hypotheses of each clause of SetupWritesWithEffects. -/
theorem test_witness_SetupWritesWithEffects :
    (∃ s : State, ∃ req : Fin 8, ∃ value : Word, (s.reqLive req.val = true)) ∧
    (∃ s : State, ∃ req : Fin 8, ∃ region : Fin 16, ∃ value : Word, (s.reaches req.val (0xC00100 + 0x10 * region.val) = true) ∧ (s.rwlOpen 0xC00100 = true) ∧ (s.rwlOpen (0xC00100 + 0x10 * region.val) = true) ∧ (bitsOf value.toNat 31 31 = 1) ∧ ((s.setF (fMEM_DIL_APER_APER_BASE region.val) value.toNat).dilFits region.val = true)) ∧
    (∃ s : State, ∃ req : Fin 8, ∃ span : SpanIx, ∃ value : Word, (s.reaches req.val (0x500000 + 0x1000 * (span.val / 2) + 4 * (span.val % 2)) = true) ∧ (s.rwlOpen (0x500000 + 0x1000 * (span.val / 2) + 4 * (span.val % 2)) = true)) ∧
    (∃ s : State, ∃ req : Fin 8, ∃ ring : Fin 8, ∃ value : Word, (s.reaches req.val (0x100210 + 0x20 * ring.val) = true) ∧ (s.rwlOpen (0x100210 + 0x20 * ring.val) = true) ∧ (s.isSet (fHOST_CTL_CFG_ENABLE ring.val) = false) ∧ (bitsOf value.toNat 31 31 = 1) ∧ (((s.writeFields (0x100210 + 0x20 * ring.val) value.toNat).setF (fHOST_CTL_CFG_ENABLE ring.val) 0).ctlOk ring.val = true)) ∧
    (∃ s : State, ∃ port : Port, ∃ value : Word, (s.isSet fTOP_SETUP_LOCK_LOCK = false) ∧ (value.toNat / 2 ^ 31 = 1) ∧ (State.isDark ((((s.setEnable port.val true).setF (fLNK_CFG_SPLIT port.val) (value.toNat / 2 ^ 30 % 2)).setF (fLNK_CFG_WIDTH_MAX port.val) (value.toNat / 2 ^ 28 % 4)).setF (fLNK_CFG_FF_GAIN port.val) (value.toNat / 2 ^ 16 % 256)) port.val = true)) ∧
    (∃ s : State, ∃ req : Fin 8, ∃ preset : Fin 16, ∃ value : Word, (s.reaches req.val (0xD00018 + 0x20 * preset.val) = true) ∧ (s.rwlOpen (0xD00018 + 0x20 * preset.val) = true) ∧ (8 ≤ bitsOf value.toNat 6 0 ∧ bitsOf value.toNat 6 0 ≤ 64)) ∧
    (∃ s : State, ∃ req : Fin 8, ∃ core : LCore, ∃ value : Word, (s.reaches req.val (0xF21000 + 0x20 * core.val) = true) ∧ (s.reaches req.val (0xF21000 + 0x20 * core.val) = true)) ∧
    (∃ s : State, ∃ dap : Bool, ∃ space : Fin 3, ∃ addr : DevAddr, ∃ value : Option Word, ∃ v : Word, (s.debugOpen = true) ∧ (s.getF fDBG_STATE_SCOPE / (if dap then 2 else 1) % 2 = 1) ∧ (space = 0) ∧ (value = some v) ∧ (addr.toNat % 4 = 0) ∧ (addr.toNat < 0x4000000) ∧ (decoded addr.toNat = true) ∧ (s.resetBlocked addr.toNat = false)) := by
  refine ⟨?_, ?_, ?_, ?_, ?_, ?_, ?_, ?_⟩
  · exact ⟨{}, 4, 1#32, by decide +kernel⟩
  · exact ⟨{ regs := [(0xC00104, 1#32)] }, 4, 0, 0x80000000#32, by decide +kernel, by decide +kernel, by decide +kernel, by decide +kernel, by decide +kernel⟩
  · exact ⟨{}, 4, 3, 2#32, by decide +kernel, by decide +kernel⟩
  · exact ⟨{}, 4, 0, 0x844000FF#32, by decide +kernel, by decide +kernel, by decide +kernel, by decide +kernel, by decide +kernel⟩
  · exact ⟨{}, 3, 0x80000000#32, by decide +kernel, by decide +kernel, by decide +kernel⟩
  · exact ⟨{}, 4, 5, 0x80000020#32, by decide +kernel, by decide +kernel, by decide +kernel⟩
  · exact ⟨{}, 4, 5, 0x80000020#32, by decide +kernel, by decide +kernel⟩
  · exact ⟨State.setF (State.setF {} fDBG_STATE_STATE 3) fDBG_STATE_SCOPE 1, false, 0, 0x44#40, some 5#32, 5#32, by decide +kernel, by decide +kernel, by decide +kernel, by decide +kernel, by decide +kernel, by decide +kernel, by decide +kernel, by decide +kernel⟩

/-- A state and operands that meet the hypotheses of each clause of StartUpStages. -/
theorem test_witness_StartUpStages :
    (∃ s : State, (s.boot.on = false)) ∧
    (∃ s : State, (s.boot.on = true)) ∧
    (∃ s : State, ∃ loc : BitVec 20, ∃ plan : BitVec 3, ∃ par : Bool, ∃ t : State, (s.boot.on = true) ∧ (s.boot.por = false) ∧ (parityGo 24 (loc.toNat + 2 ^ 20 * plan.toNat + 2 ^ 23 * par.toNat) = 1) ∧ (t = (((State.setF { s.setBoot { s.boot with por := true } with time := { s.time with porAt := s.time.nowNs } } fTOP_STRAPS_PAR_FAIL 0).setF fTOP_STRAPS_PLAN plan.toNat).setF fTOP_STRAPS_LOC loc.toNat).setF fRTE_OWN_ID_ID loc.toNat)) ∧
    (∃ s : State, ∃ loc : BitVec 20, ∃ plan : BitVec 3, ∃ par : Bool, ∃ t : State, (s.boot.on = true) ∧ (s.boot.por = false) ∧ (parityGo 24 (loc.toNat + 2 ^ 20 * plan.toNat + 2 ^ 23 * par.toNat) = 0) ∧ (t = (((State.setF { s.setBoot { s.boot with por := true } with time := { s.time with porAt := s.time.nowNs } } fTOP_STRAPS_PAR_FAIL 1).setF fTOP_STRAPS_PLAN plan.toNat).setF fTOP_STRAPS_LOC loc.toNat).setF fRTE_OWN_ID_ID loc.toNat)) ∧
    (∃ s : State, ∃ t : State, (s.boot.on = true) ∧ (s.boot.por = true) ∧ (t = ([fTOP_STRAPS_LOC.off, fTHM_TRIP_LATCHED.off, fTOP_LOG_NEXT_SEQ.off, fTOP_LOG_STATE_LEDGER_USED.off, fTOP_GRAPH_EPOCH_EPOCH.off, fSEC_STATE_KEY_BLOCKED.off, fDBG_STATE_STATE.off] : List Nat).foldl (fun st o => st.setReg o (s.reg o)) (s.cleared.setBoot { done := [(1, 4)] })) ∧ (t.getF fDBG_STATE_STATE ≠ 1)) ∧
    (∃ s : State, ∃ stage : Fin 7, ∃ die : Fin 10, ∃ ok : Bool, ∃ bad0 : BitVec 18, ∃ bad1 : BitVec 18, (s.stageOpen stage.val die.val = true) ∧ (stage.val ≠ 6)) ∧
    (∃ s : State, ∃ stage : Fin 7, ∃ die : Fin 10, ∃ bad0 : BitVec 18, ∃ bad1 : BitVec 18, ∃ t : State, (s.stageOpen stage.val die.val = true) ∧ (stage.val = 6) ∧ (t = (((s.setBoot { s.boot with done := s.boot.done ++ [(6, die.val)] }).mapCores (2 * die.val) bad0.toNat).mapCores (2 * die.val + 1) bad1.toNat).setF fTOP_READY_COLL 1)) ∧
    (∃ s : State, ∃ stack : SpanIx, ∃ ok : Bool, (s.boot.on = true ∧ s.boot.por = true ∧ s.power.tripped = false ∧ s.boot.stage4 = true ∧ s.boot.footingUp (stack.val / 2) = true) ∧ ((s.stack stack.val).trained = false) ∧ ((s.stack stack.val).trainTries < 2)) ∧
    (∃ s : State, ∃ span : SpanIx, ∃ t : State, (s.boot.isDone 6 (span.val / 2) = true ∧ (s.getF fTOP_READY_STACK / 2 ^ span.val % 2 == 1) = true ∧ s.spanReady span.val = false ∧ s.spanInReset span.val = false ∧ (s.stack span.val).bist = false) ∧ (t = (s.ownStack span.val false).setReadySpan span.val true)) := by
  refine ⟨?_, ?_, ?_, ?_, ?_, ?_, ?_, ?_, ?_⟩
  · exact ⟨{ boot := { on := false } }, by decide +kernel⟩
  · exact ⟨{}, by decide +kernel⟩
  · exact ⟨{}, 0x12345, 1, true, _, by decide +kernel, by decide +kernel, by decide +kernel, rfl⟩
  · exact ⟨{}, 0x12345, 1, false, _, by decide +kernel, by decide +kernel, by decide +kernel, rfl⟩
  · exact ⟨{ boot := { por := true } }, _, by decide +kernel, by decide +kernel, rfl, by decide +kernel⟩
  · exact ⟨{ boot := { por := true, done := [(1, 4)] } }, 2, 4, true, 0, 0, by decide +kernel, by decide +kernel⟩
  · exact ⟨State.setF { boot := { por := true, done := [(1, 4), (2, 4), (5, 8)] } } (fD2D_LINK0_STATE 4) 2, 6, 0, 0, 1, _, by decide +kernel, rfl, rfl⟩
  · exact ⟨{ boot := { por := true, done := [(2, 4), (3, 5), (3, 6), (3, 7)] } }, 3, true, by decide +kernel, by decide +kernel, by decide +kernel⟩
  · exact ⟨State.setF { boot := { por := true, done := [(6, 1)] } } fTOP_READY_STACK 8, 3, _, by decide +kernel, rfl⟩

/-- A state and operands that meet the hypotheses of each clause of RegulatorsClocksPower. -/
theorem test_witness_RegulatorsClocksPower :
    (∃ s : State, ∃ rail : Fin 5, ∃ mv : Half, ∃ u : State, ∃ t : State, (s.boot.por = true) ∧ (s.boot.railsOut.contains rail.val = false) ∧ (u = s.setBoot { s.boot with railsOut := insNat rail.val s.boot.railsOut }) ∧ (t = (u.powerRec 1 1 rail.val mv.toNat 3 (if rail.val < 2 && !u.faults.railHold then u.startLevel 4 .device else 0)).setF fTOP_ALERT_RAIL 1)) ∧
    (∃ s : State, ∃ rail : Fin 5, (s.faults.railHold = false)) ∧
    (∃ s : State, ∃ span : SpanIx, ∃ phase : Fin 24, ((s.getF (fSPN_PHASES_FAILED span.val)).testBit phase.val = false) ∧ (23 ≤ s.getF (fSPN_PHASES_HEALTHY span.val))) ∧
    (∃ s : State, ∃ stack : SpanIx, ((aget s.clk.hbmFailed stack.val).getD 0 = 0)) ∧
    (∃ s : State, ∃ stack : SpanIx, ((aget s.clk.hbmFailed stack.val).getD 0 = 1)) ∧
    (∃ s : State, ∃ span : SpanIx, (s.clockTarget span.val ≠ s.getF (fSPN_CLK_CURRENT_MHZ span.val)) ∧ ((match aget s.clk.changedAt span.val with | some a => decide (a + 100000 ≤ s.time.nowNs) | none => true) = true)) ∧
    (∃ s : State, ∃ watts : Half, (s.getF fTOP_POWER_CAP_W * 11 < watts.toNat * 10) ∧ (s.power.capRed = 0)) ∧
    (∃ s : State, ∃ watts : Half, (¬ s.getF fTOP_POWER_CAP_W * 11 < watts.toNat * 10) ∧ (watts.toNat < s.getF fTOP_POWER_CAP_W)) := by
  refine ⟨?_, ?_, ?_, ?_, ?_, ?_, ?_, ?_⟩
  · exact ⟨{ boot := { por := true } }, 2, 900, _, _, by decide +kernel, by decide +kernel, rfl, rfl⟩
  · exact ⟨{ boot := { railsOut := [4] } }, 4, by decide +kernel⟩
  · exact ⟨{}, 3, 5, by decide +kernel, by decide +kernel⟩
  · exact ⟨{}, 3, by decide +kernel⟩
  · exact ⟨{ clk := { hbmFailed := [(3, 1)] } }, 3, by decide +kernel⟩
  · exact ⟨{ clk := { req := [(3, 1000)] }, regs := [((fSPN_CLK_CEILING_MHZ 3).off, 0x64003E8)] }, 3, by decide +kernel, by decide +kernel⟩
  · exact ⟨{}, 0xFFFF, by decide +kernel, by decide +kernel⟩
  · exact ⟨{}, 0, by decide +kernel, by decide +kernel⟩

/-- A state and operands that meet the hypotheses of each clause of PortControlCompletes. -/
theorem test_witness_PortControlCompletes :
    (∃ s : State, ∃ sq : RingNo, ∃ f : InFlight, ∃ qs : List Nat, (s.nextCmd sq.toNat 0x68 = some f) ∧ (recNat f.desc 9 1 = 0) ∧ (s.pcSubs f.desc = some qs) ∧ (pcWhole f.desc = true)) ∧
    (∃ s : State, ∃ sq : RingNo, ∃ f : InFlight, ∃ qs : List Nat, (s.nextCmd sq.toNat 0x68 = some f) ∧ (recNat f.desc 9 1 = 1) ∧ (s.pcSubs f.desc = some qs) ∧ (pcWhole f.desc = true) ∧ (s.isDark (recNat f.desc 8 1) = true)) ∧
    (∃ s : State, ∃ sq : RingNo, ∃ f : InFlight, ∃ qs : List Nat, (s.nextCmd sq.toNat 0x68 = some f) ∧ (recNat f.desc 9 1 = 2) ∧ (s.pcSubs f.desc = some qs) ∧ (pcWhole f.desc = true) ∧ (s.isDark (recNat f.desc 8 1) = false)) ∧
    (∃ s : State, ∃ sq : RingNo, ∃ f : InFlight, ∃ qs : List Nat, (s.nextCmd sq.toNat 0x68 = some f) ∧ (recNat f.desc 9 1 = 3) ∧ (s.pcSubs f.desc = some qs) ∧ ((qs.filter fun q => (s.sub (recNat f.desc 8 1) q).state == 7).isEmpty = false)) ∧
    (∃ s : State, ∃ sq : RingNo, ∃ f : InFlight, ∃ qs : List Nat, (s.nextCmd sq.toNat 0x68 = some f) ∧ (recNat f.desc 9 1 = 4) ∧ (s.pcSubs f.desc = some qs) ∧ ((qs.filter fun q => (s.sub (recNat f.desc 8 1) q).state == 6).isEmpty = false)) ∧
    (∃ s : State, ∃ sq : RingNo, ∃ f : InFlight, ∃ qs : List Nat, (s.nextCmd sq.toNat 0x68 = some f) ∧ (recNat f.desc 9 1 = 5) ∧ (s.pcSubs f.desc = some qs) ∧ (recNat f.desc 11 1 < 8) ∧ (pcWhole f.desc = true) ∧ (State.isDark ((s.setF (fLNK_CFG_SPLIT (recNat f.desc 8 1)) (recBits f.desc 11 1 0 0)).setF (fLNK_CFG_WIDTH_MAX (recNat f.desc 8 1)) (recBits f.desc 11 1 2 1)) (recNat f.desc 8 1) = s.isDark (recNat f.desc 8 1))) ∧
    (∃ s : State, ∃ sq : RingNo, ∃ f : InFlight, ∃ p : Nat, ∃ x : Nat, (s.nextCmd sq.toNat 0x68 = some f) ∧ (recNat f.desc 9 1 = 6) ∧ (recNat f.desc 8 1 = p ∧ recNat f.desc 11 1 = x) ∧ (32 ≤ p ∧ p < 34 ∧ x < 32) ∧ ((s.pcSubs f.desc).isNone = false) ∧ (s.isSet (fLNK_STATUS_SUBST p) = false)) ∧
    (∃ s : State, ∃ sq : RingNo, ∃ f : InFlight, (s.nextCmd sq.toNat 0x68 = some f) ∧ (recNat f.desc 9 1 = 7) ∧ ((s.pcSubs f.desc).isNone = false) ∧ (32 ≤ recNat f.desc 8 1) ∧ (s.isSet (fLNK_STATUS_SUBST (recNat f.desc 8 1)) = true)) := by
  refine ⟨?_, ?_, ?_, ?_, ?_, ?_, ?_, ?_⟩
  · exact ⟨wRing (wFlight 0x68 [(8, 3), (10, 255)]), 0, wFlight 0x68 [(8, 3), (10, 255)], [0], by decide +kernel, by decide +kernel, by decide +kernel, by decide +kernel⟩
  · exact ⟨wRing (wFlight 0x68 [(8, 33), (9, 1), (10, 255)]), 0, wFlight 0x68 [(8, 33), (9, 1), (10, 255)], [0], by decide +kernel, by decide +kernel, by decide +kernel, by decide +kernel, by decide +kernel⟩
  · exact ⟨{ wRing (wFlight 0x68 [(8, 3), (9, 2), (10, 255)]) with subs := [(48, { state := 4 })] }, 0, wFlight 0x68 [(8, 3), (9, 2), (10, 255)], [0], by decide +kernel, by decide +kernel, by decide +kernel, by decide +kernel, by decide +kernel⟩
  · exact ⟨{ wRing (wFlight 0x68 [(8, 3), (9, 3), (10, 255)]) with subs := [(48, { state := 7 })] }, 0, wFlight 0x68 [(8, 3), (9, 3), (10, 255)], [0], by decide +kernel, by decide +kernel, by decide +kernel, by decide +kernel⟩
  · exact ⟨{ wRing (wFlight 0x68 [(8, 3), (9, 4), (10, 255)]) with subs := [(48, { state := 6 })] }, 0, wFlight 0x68 [(8, 3), (9, 4), (10, 255)], [0], by decide +kernel, by decide +kernel, by decide +kernel, by decide +kernel⟩
  · exact ⟨wRing (wFlight 0x68 [(8, 3), (9, 5), (10, 255), (11, 7)]), 0, wFlight 0x68 [(8, 3), (9, 5), (10, 255), (11, 7)], [0], by decide +kernel, by decide +kernel, by decide +kernel, by decide +kernel, by decide +kernel, by decide +kernel⟩
  · exact ⟨wRing (wFlight 0x68 [(8, 32), (9, 6), (10, 255), (11, 3)]), 0, wFlight 0x68 [(8, 32), (9, 6), (10, 255), (11, 3)], 32, 3, by decide +kernel, by decide +kernel, by decide +kernel, by decide +kernel, by decide +kernel, by decide +kernel⟩
  · exact ⟨State.setF (wRing (wFlight 0x68 [(8, 32), (9, 7), (10, 255)])) (fLNK_STATUS_SUBST 32) 1, 0, wFlight 0x68 [(8, 32), (9, 7), (10, 255)], by decide +kernel, by decide +kernel, by decide +kernel, by decide +kernel, by decide +kernel⟩

/-- A state and operands that meet the hypotheses of each clause of PortSettingsComplete. -/
theorem test_witness_PortSettingsComplete :
    (∃ s : State, ∃ sq : RingNo, ∃ f : InFlight, ∃ p : Nat, ∃ q : Nat, (s.nextCmd sq.toNat 0x69 = some f) ∧ (recNat f.desc 8 1 = p ∧ p < 34 ∧ recNat f.desc 16 1 < 34) ∧ ((s.port p).split = false ∧ recNat f.desc 9 1 = 0xFF ∧ q = 0 ∨ (s.port p).split = true ∧ recNat f.desc 9 1 = q ∧ q < 16) ∧ (SubPort.up (State.sub (s.modSub p q fun u => { u with expect := if recBits f.desc 10 1 0 0 = 1 then none else some ⟨recNat f.desc 12 4, recNat f.desc 16 1, recNat f.desc 17 1⟩ }) p q) = false)) ∧
    (∃ s : State, ∃ sq : RingNo, ∃ f : InFlight, (s.nextCmd sq.toNat 0x6A = some f) ∧ (recNat f.desc 8 1 < 34 ∧ recNat f.desc 16 1 < 34 ∧ recNat f.desc 18 2 ≤ 20000) ∧ (s.isSet (fLNK_CFG_SPLIT (recNat f.desc 8 1)) = false) ∧ ((s.port (recNat f.desc 8 1)).split = false) ∧ ((s.sub (recNat f.desc 8 1) 0).swing = none)) ∧
    (∃ s : State, ∃ sq : RingNo, ∃ f : InFlight, (s.nextCmd sq.toNat 0x98 = some f) ∧ (recNat f.desc 8 1 < 34 ∧ recNat f.desc 9 1 < 2) ∧ (s.isDark (recNat f.desc 8 1) = true)) := by
  refine ⟨?_, ?_, ?_⟩
  · exact ⟨wRing (wFlight 0x69 [(8, 3), (9, 255), (12, 5)]), 0, wFlight 0x69 [(8, 3), (9, 255), (12, 5)], 3, 0, by decide +kernel, by decide +kernel, by decide +kernel, by decide +kernel⟩
  · exact ⟨wRing (wFlight 0x6A [(8, 33), (9, 3), (18, 32), (19, 78)]), 0, wFlight 0x6A [(8, 33), (9, 3), (18, 32), (19, 78)], by decide +kernel, by decide +kernel, by decide +kernel, by decide +kernel, by decide +kernel⟩
  · exact ⟨wRing (wFlight 0x98 [(8, 33)]), 0, wFlight 0x98 [(8, 33)], by decide +kernel, by decide +kernel, by decide +kernel⟩

/-- A state and operands that meet the hypotheses of each clause of CodewordsComplete. -/
theorem test_witness_CodewordsComplete :
    (∃ s : State, ∃ port : Port, ∃ sub : Sub, ∃ u : SubPort, (s.subNamed port.val sub.val = true ∧ (s.port port.val).lit = true ∧ (s.sub port.val sub.val).state ≠ 0 ∧ (s.sub port.val sub.val).nextNo ≤ s.codeNo) ∧ (u = (s.sub port.val sub.val).readyTx s.codeNo s.time.nowNs) ∧ (u.state = 4 ∨ u.state = 5)) ∧
    (∃ s : State, ∃ port : Port, ∃ sub : Sub, ∃ u : SubPort, (s.subNamed port.val sub.val = true ∧ (s.port port.val).lit = true ∧ (s.sub port.val sub.val).state ≠ 0 ∧ (s.sub port.val sub.val).nextNo ≤ s.codeNo) ∧ (u = (s.sub port.val sub.val).readyTx s.codeNo s.time.nowNs) ∧ (u.state = 1)) ∧
    (∃ s : State, ∃ port : Port, ∃ sub : Sub, ∃ n : DWord, ∃ lanes : List (Option (List (BitVec 10))), ∃ u : State, (s.subNamed port.val sub.val = true ∧ (s.sub port.val sub.val).state ≠ 0) ∧ (u = (s.modSub port.val sub.val fun v => v.readyRx n.toNat).rxCount port.val sub.val (rxWords n.toNat lanes)) ∧ ((rxGot (rxWords n.toNat lanes)).find? (·.1) = none) ∧ ((u.sub port.val sub.val).width ≤ (rxGot (rxWords n.toNat lanes)).length ∧ (u.sub port.val sub.val).keyAt n.toNat = none)) ∧
    (∃ s : State, ∃ port : Port, ∃ sub : Sub, ∃ n : DWord, ∃ lanes : List (Option (List (BitVec 10))), ∃ u : State, (s.subNamed port.val sub.val = true ∧ (s.sub port.val sub.val).state ≠ 0) ∧ (u = (s.modSub port.val sub.val fun v => v.readyRx n.toNat).rxCount port.val sub.val (rxWords n.toNat lanes)) ∧ ((rxGot (rxWords n.toNat lanes)).find? (·.1) = none) ∧ ((rxGot (rxWords n.toNat lanes)).length < (u.sub port.val sub.val).width ∧ (rxWords n.toNat lanes).any (·.isSome) = false)) ∧
    (∃ s : State, ∃ port : Port, ∃ sub : Sub, ∃ b : List Byte, ∃ t : State, (s.takeType port.val sub.val 0x01 = some (b, t))) ∧
    (∃ s : State, ∃ port : Port, ∃ sub : Sub, ∃ b : List Byte, ∃ t : State, ∃ u : State, ∃ n : Nat, (s.takeType port.val sub.val 0x04 = some (b, t)) ∧ (u = (t.bumpSat (fLNK_NAKS_RECEIVED port.val)).modSub port.val sub.val fun v => { v with naks := v.naks ++ [s.time.nowNs] }) ∧ (n = (u.sub port.val sub.val).nakNo (recNat b 1 4) ∧ (u.sub port.val sub.val).up = true) ∧ ((u.sub port.val sub.val).replayTo = none ∧ u.codeNo * 85 / 4 ≤ n * 85 / 4 + (u.sub port.val sub.val).hold)) ∧
    (∃ s : State, ∃ port : Port, ∃ sub : Sub, ∃ b : List Byte, ∃ t : State, ∃ a : Nat × Nat, (s.takeType port.val sub.val 0x02 = some (b, t)) ∧ ((t.sub port.val sub.val).await = some a ∧ (recNat b 1 4 + 2 ^ 32 - a.1 % 2 ^ 32) % 2 ^ 32 < 2 ^ 31)) ∧
    (∃ s : State, ∃ port : Port, ∃ sub : Sub, ∃ a : Nat × Nat, ((s.sub port.val sub.val).await = some a ∧ (s.sub port.val sub.val).up = true) ∧ (a.2 + (s.sub port.val sub.val).hold + (s.sub port.val sub.val).rtt ≤ s.time.nowNs)) := by
  refine ⟨?_, ?_, ?_, ?_, ?_, ?_, ?_, ?_⟩
  · exact ⟨wLit { state := 4 }, 3, 0, _, by decide +kernel, rfl, by decide +kernel⟩
  · exact ⟨wLit { state := 1 }, 3, 0, _, by decide +kernel, rfl, by decide +kernel⟩
  · exact ⟨wSub { state := 4, width := 0 }, 3, 0, 0, [], _, by decide +kernel, rfl, by decide +kernel, by decide +kernel⟩
  · exact ⟨wSub { state := 4, width := 1 }, 3, 0, 0, [none], _, by decide +kernel, rfl, by decide +kernel, by decide +kernel⟩
  · exact ⟨wSub { state := 4, ctlIn := [[1]] }, 3, 0, _, _, rfl⟩
  · exact ⟨wSub { state := 4, hold := 100000000, ctlIn := [[4, 0, 0, 0, 0]] }, 3, 0, _, _, _, _, rfl, rfl, ⟨rfl, by decide +kernel⟩, by decide +kernel⟩
  · exact ⟨wSub { state := 4, await := some (5, 0), ctlIn := [[2, 5, 0, 0, 0]] }, 3, 0, _, _, (5, 0), rfl, by decide +kernel⟩
  · exact ⟨wSub { state := 4, await := some (5, 0) }, 3, 0, (5, 0), by decide +kernel, by decide +kernel⟩

/-- A state and operands that meet the hypotheses of each clause of TrainingAndIdentity. -/
theorem test_witness_TrainingAndIdentity :
    (∃ s : State, ∃ port : Port, ∃ sub : Sub, ∃ b : List Byte, ∃ t : State, (s.takeType port.val sub.val 0x03 = some (b, t)) ∧ ((t.sub port.val sub.val).state = 1) ∧ ((if (s.port port.val).split then (t.sub port.val sub.val).trainSeen.testBit sub.val else (t.sub port.val sub.val).trainSeen.testBit 0 && (t.sub port.val sub.val).trainSeen.testBit 1) = true)) ∧
    (∃ s : State, ∃ port : Port, ∃ sub : Sub, ∃ ok : BitVec 18, ∃ lanes : List (Chan × Byte × Byte × BitVec 12), ∃ u : SubPort, ∃ m : List Nat, (s.subNamed port.val sub.val = true ∧ u = s.sub port.val sub.val) ∧ (u.state = 2 ∧ u.swing = none ∧ m.isEmpty = false ∧ m = s.lockMap port.val sub.val ok.toNat)) ∧
    (∃ s : State, ∃ port : Port, ∃ sub : Sub, (s.subNamed port.val sub.val = true ∧ (s.sub port.val sub.val).state = 2 ∧ (s.sub port.val sub.val).swing = none) ∧ ((s.sub port.val sub.val).since + (if s.timeUnlocked then 50000000 else 5000000) ≤ s.time.nowNs)) ∧
    (∃ s : State, ∃ port : Port, ∃ sub : Sub, (s.subNamed port.val sub.val = true ∧ (s.sub port.val sub.val).state = 3) ∧ ((s.sub port.val sub.val).since + 20000000 ≤ s.time.nowNs)) ∧
    (∃ s : State, ∃ port : Port, ∃ sub : Sub, (s.subNamed port.val sub.val = true ∧ ((s.sub port.val sub.val).up || (s.sub port.val sub.val).state == 6) = true ∧ (s.sub port.val sub.val).swing = none) ∧ (max (if (s.sub port.val sub.val).state = 6 then (s.sub port.val sub.val).seenAt else (s.sub port.val sub.val).lightAt) (s.sub port.val sub.val).since + 20000 ≤ s.time.nowNs)) ∧
    (∃ s : State, ∃ port : Port, ∃ sub : Sub, (s.subNamed port.val sub.val = true ∧ (s.sub port.val sub.val).up = true) ∧ (256 < ((s.sub port.val sub.val).naks.filter fun t => decide (s.time.nowNs < t + 1000000)).length)) ∧
    (∃ s : State, ∃ port : Port, ∃ sub : Sub, ∃ b : List Byte, ∃ t : State, ∃ w : State, ∃ v : SubPort, (s.takeType port.val sub.val 0x09 = some (b, t)) ∧ ((t.sub port.val sub.val).state = 3 ∧ v = (t.sub port.val sub.val).takeIdent (byteField b 1 64) ∧ w = t.setSub port.val sub.val v) ∧ (w.commonOk port.val v.common (t.sub port.val sub.val).width = true)) ∧
    (∃ s : State, ∃ port : Port, ∃ sub : Sub, ∃ b : List Byte, ∃ t : State, ∃ v : SubPort, (s.takeType port.val sub.val 0x0A = some (b, t)) ∧ ((t.sub port.val sub.val).state = 3 ∧ recNat b 1 1 < 16) ∧ (v = { t.sub port.val sub.val with cert := aput (t.sub port.val sub.val).cert (recNat b 1 1) (byteField b 2 256) } ∧ v.cert.length ≠ 16)) ∧
    (∃ s : State, ∃ port : Port, ∃ sub : Sub, ∃ b : List Byte, ∃ t : State, (s.takeType port.val sub.val 0x0B = some (b, t)) ∧ ((t.sub port.val sub.val).state = 3)) := by
  refine ⟨?_, ?_, ?_, ?_, ?_, ?_, ?_, ?_, ?_⟩
  · exact ⟨wSub { state := 1, trainSeen := 3, ctlIn := [[3]] }, 3, 0, _, _, rfl, by decide +kernel, by decide +kernel⟩
  · exact ⟨wSub { state := 2, txMap := List.range 16 }, 3, 0, 0xFFFF, [], _, List.range 16, ⟨by decide +kernel, rfl⟩, by decide +kernel⟩
  · exact ⟨{ wSub { state := 2 } with time := { nowNs := 60000000 } }, 3, 0, by decide +kernel, by decide +kernel⟩
  · exact ⟨{ wSub { state := 3 } with time := { nowNs := 60000000 } }, 3, 0, by decide +kernel, by decide +kernel⟩
  · exact ⟨wSub { state := 4 }, 3, 0, by decide +kernel, by decide +kernel⟩
  · exact ⟨wSub { state := 4, naks := List.replicate 257 5 }, 3, 0, by decide +kernel, by decide +kernel⟩
  · exact ⟨wSub { state := 3, ctlIn := [9 :: List.replicate 64 0xFF] }, 3, 0, _, _, _, _, rfl, ⟨rfl, rfl, rfl⟩, by decide +kernel⟩
  · exact ⟨wSub { state := 3, ctlIn := [[10, 2, 5]] }, 3, 0, _, _, _, rfl, by decide +kernel, ⟨rfl, by decide +kernel⟩⟩
  · exact ⟨wSub { state := 3, ctlIn := [[11]] }, 3, 0, _, _, rfl, by decide +kernel⟩

/-- A state and operands that meet the hypotheses of each clause of LanesSwingsAndEyeSafety. -/
theorem test_witness_LanesSwingsAndEyeSafety :
    (∃ s : State, ∃ port : Port, ∃ sub : Sub, ∃ b : List Byte, ∃ t : State, ∃ u : State, ∃ m : List Nat, ∃ n : Nat, (s.takeType port.val sub.val 0x08 = some (b, t)) ∧ (m = ((b.drop 5).map (·.toNat)).filter (· != 0xFF) ∧ n = nearNo s.codeNo (recNat b 1 4)) ∧ (([16, 8, 4, 2, 1].contains m.length && m.all (· < 18) && m.Nodup) = true ∧ (t.sub port.val sub.val).up = true) ∧ (u = t.setSub port.val sub.val { t.sub port.val sub.val with rxNext := some (n, m) })) ∧
    (∃ s : State, ∃ port : Port, ∃ chan : Chan, ∃ rx : Bool, ∃ laser : Bool, ∃ u : State, ∃ was : List Nat, ∃ m : List Nat, (u = s.failChan port.val chan.val rx ∧ was = (((u.sub port.val 0).txNext.map (·.2)).getD (u.sub port.val 0).txMap)) ∧ ((s.port port.val).split = false ∧ (u.sub port.val 0).up = true ∧ was.contains chan.val = true) ∧ ((mendMap (u.badChans port.val) (u.spareChans port.val) was).any (u.badChans port.val).testBit = false) ∧ (u.mapFor port.val was = some m ∧ m.length = was.length)) ∧
    (∃ s : State, ∃ port : Port, ∃ chan : Chan, ∃ rx : Bool, ∃ laser : Bool, ∃ u : State, (u = s.failChan port.val chan.val rx) ∧ ((s.port port.val).split = true ∧ chan.val < 16 ∧ (u.sub port.val chan.val).state ≠ 0 ∧ (laser && !rx) = false)) ∧
    (∃ s : State, ∃ port : Port, ∃ laser : Chan, ∃ e : Nat × Nat, ∃ t : State, ((s.port port.val).tuning.find? (·.1 == laser.val) = some e ∧ (s.port port.val).split = true) ∧ (t = s.tunedLaser port.val laser.val e.2) ∧ ((t.sub port.val e.2).state = 1 ∧ (t.sub port.val e.2).authOk = true)) ∧
    (∃ s : State, ∃ port : Port, ∃ laser : Chan, ∃ e : Nat × Nat, ∃ t : State, ∃ m : List Nat, ((s.port port.val).tuning.find? (·.1 == laser.val) = some e ∧ (s.port port.val).split = false) ∧ (t = s.tunedLaser port.val laser.val e.2) ∧ ((t.sub port.val 0).up = true ∧ t.mapFor port.val (List.range 16) = some m)) ∧
    (∃ s : State, ∃ port : Port, ∃ rings : List (Chan × Bool × Int × Int), ((s.port port.val).lit = true)) ∧
    (∃ s : State, ∃ port : Port, ∃ w : Swing, ((s.sub port.val 0).swing = some w ∧ (s.sub port.val 0).state = 2 ∧ w.loaded = true ∧ w.relocked = false)) ∧
    (∃ s : State, ∃ port : Port, ∃ sub : Sub, ∃ b : List Byte, ∃ t : State, ∃ w : Swing, (s.takeType port.val sub.val 0x05 = some (b, t)) ∧ ((t.sub port.val 0).swing = some w ∧ (t.sub port.val 0).state = 2 ∧ w.loaded = true) ∧ (recNat b 1 3 = s.preWord port.val w.preset 0 % 2 ^ 21 ∧ recBits b 4 1 5 0 = s.preWord port.val w.preset 1 % 64 ∧ recNat b 5 4 = s.preWord port.val w.preset 2)) ∧
    (∃ s : State, ∃ port : Port, ∃ w : Swing, ((s.sub port.val 0).swing = some w ∧ w.loaded = true) ∧ (w.ts + s.preWord port.val w.preset 1 / 65536 + 10000 ≤ s.time.ft)) ∧
    (∃ s : State, ∃ port : Port, ∃ t : State, ((s.port port.val).lit = true ∧ (s.port port.val).shut = false ∧ (s.port port.val).anyLight + 200000 ≤ s.time.nowNs) ∧ (t = (((s.setLit port.val false).drew).subsOf port.val).foldl (fun st q => if (st.sub port.val q).state = 0 ∨ (st.sub port.val q).state = 7 then st else st.toLight port.val q (some 0x0D) false) (s.setLit port.val false).drew)) ∧
    (∃ s : State, ∃ port : Port, ((s.port port.val).shut = true ∧ (s.port port.val).probeEnd = none ∧ (s.port port.val).probeAt ≤ s.time.nowNs)) ∧
    (∃ s : State, ∃ port : Port, ∃ e : Nat, ((s.port port.val).probeEnd = some e ∧ (s.port port.val).shut = true ∧ e ≤ s.time.nowNs)) ∧
    (∃ s : State, ∃ port : Port, ∃ t : State, ((s.port port.val).shut = true) ∧ (t = (s.modPort port.val fun x => { x with shut := false, probeEnd := none, anyLight := s.time.nowNs }).setF (fLNK_STATUS_OPEN_FIBRE port.val) 0)) := by
  refine ⟨?_, ?_, ?_, ?_, ?_, ?_, ?_, ?_, ?_, ?_, ?_, ?_, ?_⟩
  · exact ⟨wSub { state := 4, ctlIn := [[8, 0, 0, 0, 0, 1, 2]] }, 3, 0, _, _, _, _, _, rfl, ⟨rfl, rfl⟩, by decide +kernel, rfl⟩
  · exact ⟨wSub { state := 4, txMap := List.range 16, common := 0x2F }, 3, 5, false, false, _, _, [0, 1, 2, 3, 4, 16, 6, 7, 8, 9, 10, 11, 12, 13, 14, 15], ⟨rfl, rfl⟩, by decide +kernel, by decide +kernel, by decide +kernel⟩
  · exact ⟨{ wSub { state := 4 } with ports := [(3, { split := true })] }, 3, 0, true, false, _, rfl, by decide +kernel⟩
  · exact ⟨{ wSub { state := 1, authOk := true } with ports := [(3, { split := true, tuning := [(16, 0)] })] }, 3, 16, (16, 0), _, by decide +kernel, rfl, by decide +kernel⟩
  · exact ⟨{ wSub { state := 5, txMap := List.range 8, common := 0x2F } with ports := [(3, { tuning := [(16, 5)] })] }, 3, 16, (16, 5), _, List.range 16, by decide +kernel, rfl, by decide +kernel⟩
  · exact ⟨wLit {}, 3, [], by decide +kernel⟩
  · exact ⟨wSub { state := 2, swing := some { preset := 1, ts := 0, loaded := true } }, 3, { preset := 1, ts := 0, loaded := true }, by decide +kernel⟩
  · exact ⟨wSub { state := 2, swing := some { preset := 1, ts := 0, loaded := true }, ctlIn := [[5, 0, 0, 0, 0, 0, 0, 0, 0]] }, 3, 0, _, _, { preset := 1, ts := 0, loaded := true }, rfl, by decide +kernel, by decide +kernel⟩
  · exact ⟨{ wSub { state := 2, swing := some { preset := 1, ts := 0, loaded := true } } with time := { ft := 20000 } }, 3, { preset := 1, ts := 0, loaded := true }, by decide +kernel, by decide +kernel⟩
  · exact ⟨{ wLit { state := 4 } with time := { nowNs := 300000 } }, 3, _, by decide +kernel, rfl⟩
  · exact ⟨{ ports := [(3, { shut := true })] }, 3, by decide +kernel⟩
  · exact ⟨{ ports := [(3, { shut := true, probeEnd := some 0 })] }, 3, 0, by decide +kernel⟩
  · exact ⟨{ ports := [(3, { shut := true })] }, 3, _, by decide +kernel, rfl⟩

/-- A state and operands that meet the hypotheses of each clause of RouterMovesCells. -/
theorem test_witness_RouterMovesCells :
    (∃ s : State, ∃ port : Option Port, ∃ p : Port, ∃ e : InCell, (port = some p) ∧ (nextInput (s.port p.val).input = some e)) ∧
    (∃ s : State, ∃ port : Option Port, ∃ c : Cell, ∃ rest : List Cell, (port = none) ∧ (s.router.egress = c :: rest)) ∧
    (∃ s : State, ∃ port : Port, ∃ sub : Sub, ∃ c : OutCell, ∃ rest : List OutCell, ∃ b : Bucket, ((s.sub port.val sub.val).admitQ = c :: rest) ∧ ((s.refill port.val sub.val (s.sub port.val sub.val).admission).take = some b)) ∧
    (∃ s : State, ∃ port : Port, ∃ cls : Nat, ∃ q : Nat, ∃ c : Cell, (s.landingPick port.val = some (cls, q, c))) ∧
    (∃ s : State, ∃ port : Port, ∃ sub : Sub, ∃ u : SubPort, (s.subNamed port.val sub.val = true ∧ s.maySend port.val sub.val = true) ∧ (u = s.sub port.val sub.val ∧ u.tx.n < u.roomBits u.nextNo) ∧ (s.creditDue port.val sub.val = true)) ∧
    (∃ s : State, ∃ port : Port, ∃ sub : Sub, ∃ u : SubPort, ∃ c : OutCell, ∃ o : Cell, (s.subNamed port.val sub.val = true ∧ s.maySend port.val sub.val = true) ∧ (u = s.sub port.val sub.val ∧ u.tx.n < u.roomBits u.nextNo) ∧ (s.creditDue port.val sub.val = false) ∧ (s.nextOut port.val sub.val = some c ∧ o = s.leaving port.val c.cell)) := by
  refine ⟨?_, ?_, ?_, ?_, ?_, ?_⟩
  · exact ⟨{ ports := [(3, { input := [⟨{ typ := 4, cls := 2 }, 0, 0⟩] })] }, some 3, 3, ⟨{ typ := 4, cls := 2 }, 0, 0⟩, rfl, by decide +kernel⟩
  · exact ⟨{ router := { egress := [{ typ := 4, cls := 2 }] } }, none, { typ := 4, cls := 2 }, [], rfl, rfl⟩
  · exact ⟨State.setSub {} 3 0 { admission := ⟨2 ^ 33, 0⟩, admitQ := [{ cell := { typ := 4, cls := 0 } }] }, 3, 0, { cell := { typ := 4, cls := 0 } }, [], _, by decide +kernel, rfl⟩
  · exact ⟨State.setSub {} 3 0 { landing := [{ typ := 4, cls := 2 }] }, 3, 2, 0, { typ := 4, cls := 2 }, by decide +kernel⟩
  · exact ⟨wPort {}, 3, 0, _, by decide +kernel, ⟨rfl, by decide +kernel⟩, by decide +kernel⟩
  · exact ⟨wPort { creditSentAt := 100000, outQ := [{ cell := { typ := 4, cls := 0 } }] }, 3, 0, _, { cell := { typ := 4, cls := 0 } }, _, by decide +kernel, ⟨rfl, by decide +kernel⟩, by decide +kernel, ⟨by decide +kernel, rfl⟩⟩

/-- A state and operands that meet the hypotheses of each clause of CreditsStallsAndTelemetry. -/
theorem test_witness_CreditsStallsAndTelemetry :
    (∃ s : State, ∃ port : Port, ∃ sub : Sub, (s.subNamed port.val sub.val = true ∧ s.creditDue port.val sub.val = true)) ∧
    (∃ s : State, ∃ port : Port, ∃ sub : Sub, ∃ c : Cell, ∃ t : State, ∃ u : SubPort, ∃ got : List Nat, ∃ back : Nat → Nat, (s.takeLink port.val sub.val 1 = some (c, t)) ∧ (u = t.sub port.val sub.val ∧ got = (List.range 18).map (fun v => recNat c.payload (2 * v) 2)) ∧ ((∀ v, back v = (vcGet got v + 65536 - vcGet u.freedPeer v % 65536) % 65536))) ∧
    (∃ s : State, ∃ port : Port, ∃ sub : Sub, ∃ c : OutCell, (s.wantsCredit port.val sub.val false = some c) ∧ ((s.sub port.val sub.val).stall = none ∧ (s.sub port.val sub.val).up = true ∧ max (s.sub port.val sub.val).creditAt (s.sub port.val sub.val).since + 50000 ≤ s.time.nowNs)) ∧
    (∃ s : State, ∃ port : Port, ∃ sub : Sub, ∃ c : OutCell, (s.wantsCredit port.val sub.val true = some c) ∧ ((s.sub port.val sub.val).kStall = none ∧ (s.sub port.val sub.val).up = true ∧ c.at' + 1000 ≤ s.time.nowNs)) ∧
    (∃ s : State, ∃ group : BitVec 12, (s.slowFor group.toNat = true)) ∧
    (∃ s : State, (s.ftSet = true ∧ s.tele.sampled / 1000 < s.time.ft / 1000)) ∧
    (∃ s : State, ∃ t : Nat, (s.ftSet = true ∧ t = 100000 * (s.time.ft / 100000) ∧ s.tele.began < t)) := by
  refine ⟨?_, ?_, ?_, ?_, ?_, ?_, ?_⟩
  · exact ⟨wPort {}, 3, 0, by decide +kernel⟩
  · exact ⟨wPort { linkIn := [{ typ := 1, cls := 1, payload := List.replicate 64 0 }] }, 3, 0, _, _, _, _, fun v => _, rfl, ⟨rfl, rfl⟩, fun v => rfl⟩
  · exact ⟨wPort { occ := (List.range 18).map fun _ => 20000, outQ := [{ cell := { typ := 4, cls := 0 } }] }, 3, 0, { cell := { typ := 4, cls := 0 } }, by decide +kernel, by decide +kernel⟩
  · exact ⟨wPort { occ := (List.range 18).map fun _ => 20000, outQ := [{ cell := { typ := 4, cls := 0 } }] }, 3, 0, { cell := { typ := 4, cls := 0 } }, by decide +kernel, by decide +kernel⟩
  · exact ⟨wPort { outQ := [{ cell := { typ := 4, cls := 2, dst := 512 } }] }, 2, by decide +kernel⟩
  · exact ⟨wFt 250000, by decide +kernel⟩
  · exact ⟨wFt 250000, 200000, by decide +kernel⟩

/-- A state and operands that meet the hypotheses of each clause of RouterTableCommands. -/
theorem test_witness_RouterTableCommands :
    (∃ s : State, ∃ sq : RingNo, ∃ data : List Byte, ∃ f : InFlight, ∃ i : Nat, ∃ n : Nat, (s.nextCmd sq.toNat 0x60 = some f) ∧ (i = recNat f.desc 8 4 ∧ n = recNat f.desc 12 4 ∧ 0 < n ∧ i + n ≤ 2 ^ 21)) ∧
    (∃ s : State, ∃ sq : RingNo, ∃ data : List Byte, ∃ f : InFlight, ∃ i : Nat, ∃ n : Nat, (s.nextCmd sq.toNat 0x61 = some f) ∧ (i = recNat f.desc 8 2 ∧ n = recNat f.desc 10 2 ∧ 0 < n ∧ i + n ≤ 4096)) ∧
    (∃ s : State, ∃ sq : RingNo, ∃ data : List Byte, ∃ f : InFlight, ∃ i : Nat, ∃ n : Nat, (s.nextCmd sq.toNat 0x62 = some f) ∧ (i = recNat f.desc 8 1 ∧ n = recNat f.desc 10 2 ∧ 0 < n ∧ i + n ≤ 256)) ∧
    (∃ s : State, ∃ sq : RingNo, ∃ data : List Byte, ∃ f : InFlight, ∃ p : Nat, (s.nextCmd sq.toNat 0x63 = some f) ∧ (p = recNat f.desc 8 1 ∧ p < 34) ∧ (s.fidLive (s.sqFid f.sq) = true ∧ 128 ≤ data.length ∧ ((List.range 16).all fun i => goodFilter (byteField data (8 * i) 8)) = true)) ∧
    (∃ s : State, ∃ sq : RingNo, ∃ f : InFlight, ∃ p : Nat, ∃ k : Nat, (s.nextCmd sq.toNat 0x64 = some f) ∧ (p = recNat f.desc 8 1 ∧ k = recNat f.desc 10 1 ∧ p < 34 ∧ 1 ≤ k ∧ k ≤ 25)) ∧
    (∃ s : State, ∃ sq : RingNo, ∃ f : InFlight, (s.nextCmd sq.toNat 0x65 = some f) ∧ (recNat f.desc 8 4 ≠ s.ownId)) ∧
    (∃ s : State, ∃ sq : RingNo, ∃ f : InFlight, (s.nextCmd sq.toNat 0x66 = some f) ∧ (recNat f.desc 13 1 ≠ 0)) ∧
    (∃ s : State, ∃ sq : RingNo, ∃ ok : Bool, ∃ f : InFlight, ∃ u : State, (s.nextCmd sq.toNat 0x67 = some f) ∧ (s.hostPut f (recNat f.desc 16 8) (if s.tele.image.isEmpty then List.replicate 20160 0 else s.tele.image) ok = (u, true))) := by
  refine ⟨?_, ?_, ?_, ?_, ?_, ?_, ?_, ?_⟩
  · exact ⟨wRing (wFlight 0x60 [(12, 1)]), 0, [1, 0], wFlight 0x60 [(12, 1)], 0, 1, by decide +kernel, by decide +kernel⟩
  · exact ⟨wRing (wFlight 0x61 [(10, 1)]), 0, List.replicate 8 0, wFlight 0x61 [(10, 1)], 0, 1, by decide +kernel, by decide +kernel⟩
  · exact ⟨wRing (wFlight 0x62 [(10, 1)]), 0, List.replicate 16 0, wFlight 0x62 [(10, 1)], 0, 1, by decide +kernel, by decide +kernel⟩
  · exact ⟨wLive [wFlight 0x63 []], 0, List.replicate 128 0, wFlight 0x63 [], 0, by decide +kernel, by decide +kernel, by decide +kernel⟩
  · exact ⟨wRing (wFlight 0x64 [(10, 1)]), 0, wFlight 0x64 [(10, 1)], 0, 1, by decide +kernel, by decide +kernel⟩
  · exact ⟨wRing (wFlight 0x65 [(8, 1)]), 0, wFlight 0x65 [(8, 1)], by decide +kernel, by decide +kernel⟩
  · exact ⟨wRing (wFlight 0x66 [(13, 1)]), 0, wFlight 0x66 [(13, 1)], by decide +kernel, by decide +kernel⟩
  · exact ⟨wLive [wFlight 0x67 []], 0, true, wFlight 0x67 [], _, by decide +kernel, rfl⟩

/-- A state and operands that meet the hypotheses of each clause of MarulLinksComplete. -/
theorem test_witness_MarulLinksComplete :
    (∃ s : State, ∃ link : Fin 7, ∃ first : List Byte, ∃ second : List Byte, ∃ repaired : Byte, (s.boot.on = true ∧ s.boot.por = true ∧ s.power.tripped = false ∧ (s.getF (fD2D_LINK0_STATE link.val) == 2) = false) ∧ (link.val ≠ 4 ∧ link.val ≠ 5)) ∧
    (∃ s : State, ∃ link : Fin 7, ∃ first : List Byte, ∃ second : List Byte, ∃ repaired : Byte, ∃ i : Nat, ∃ a : List Byte, ∃ b : List Byte, (s.boot.on = true ∧ s.boot.por = true ∧ s.power.tripped = false ∧ (s.getF (fD2D_LINK0_STATE link.val) == 2) = false) ∧ (link.val = i + 4 ∧ i < 2 ∧ a = byteField first 0 32 ∧ b = byteField second 0 32) ∧ (s.capOk i a b = true)) ∧
    (∃ s : State, ∃ link : Fin 7, ∃ rev : Bool, ∃ sent : List Byte, ∃ recv : List Byte, ∃ d : MarulDir, (s.d2dUp link.val = true ∧ flitGood sent = true) ∧ ((s.mdir link.val rev).sent sent s.time.nowNs = some d)) ∧
    (∃ s : State, ∃ link : Fin 7, ∃ rev : Bool, ∃ d : MarulDir, ∃ a : Nat, ∃ n : Nat, ∃ u : State, (d = s.mdir link.val rev ∧ d.nakIn = some a ∧ d.again = none ∧ d.held ≠ []) ∧ (u = (s.setMdir link.val rev { d with nakIn := none, again := some ((a + 1) % 4096, 1) }).bumpSat (fD2D_LINK1_RESENDS link.val))) ∧
    (∃ s : State, ∃ link : Fin 7, ∃ rev : Bool, (s.d2dUp link.val = true ∧ (s.mdir link.val rev).unacked.isSome = true)) ∧
    (∃ s : State, ∃ link : Fin 7, ∃ lanes : Bool, ∃ u : State, ∃ w : State, (s.d2dUp link.val = true) ∧ ((lanes || (s.mdir link.val false).stuck s.time.nowNs || (s.mdir link.val true).stuck s.time.nowNs) = true) ∧ (u = (s.moveToDetour link.val false).moveToDetour link.val true) ∧ (w = (((u.setMlink link.val { u.mlink link.val with trained := false }).setF (fD2D_LINK0_STATE link.val) 3).bumpSat (fD2D_LINK2_DETOURS link.val)).bumpSat (fD2D_LINK2_DOWN_EVENTS link.val))) ∧
    (∃ s : State, ∃ link : Fin 7, (s.getF (fD2D_LINK0_STATE link.val) = 3 ∧ (s.mlink link.val).trained = true ∧ (s.mlink link.val).cleanAt + 1000000000 ≤ s.time.nowNs) ∧ (([detourLink link.val false, detourLink link.val true].all fun d => [false, true].all fun r => (s.mdir d r).held.isEmpty) = true)) := by
  refine ⟨?_, ?_, ?_, ?_, ?_, ?_, ?_⟩
  · exact ⟨{ boot := { on := true, por := true } }, 0, [], [], 0, by decide +kernel, by decide +kernel⟩
  · exact ⟨{ boot := { on := true, por := true } }, 4, List.replicate 32 0xFF, [16, 0, 2, 0, 0xD4, 0x1F, 0, 0, 0x1F, 0, 0, 0], 0, 0, _, _, by decide +kernel, ⟨rfl, by decide +kernel, rfl, rfl⟩, by decide +kernel⟩
  · exact ⟨State.setF {} (fD2D_LINK0_STATE 0) 2, 0, false, mkFlit (2 ^ 37) [], [], _, ⟨by decide +kernel, flitGood_mkFlit _ _⟩, wNull⟩
  · exact ⟨{ marul := [(0, { fwd := { nakIn := some 5, held := [(6, [])] } })] }, 0, false, _, 5, 0, _, ⟨rfl, rfl, rfl, by decide +kernel⟩, rfl⟩
  · exact ⟨State.setF { marul := [(0, { fwd := { unacked := some 5 } })] } (fD2D_LINK0_STATE 0) 2, 0, false, by decide +kernel⟩
  · exact ⟨State.setF {} (fD2D_LINK0_STATE 0) 2, 0, true, _, _, by decide +kernel, by decide +kernel, rfl, rfl⟩
  · exact ⟨State.setF { time := { nowNs := 2000000000 }, marul := [(0, { trained := true })] } (fD2D_LINK0_STATE 0) 3, 0, by decide +kernel, by decide +kernel⟩

/-- A state and operands that meet the hypotheses of each clause of HeatRoundAndLoops. -/
theorem test_witness_HeatRoundAndLoops :
    (∃ s : State, ∃ sensor : Fin 96, ∃ raw : BitVec 20, ∃ t : Int, (s.boot.por = true ∧ (s.therm.roundNo == 0) = false ∧ s.therm.published = false ∧ aget s.therm.conv sensor.val = none) ∧ (s.therm.roundAt + 40000 * (sensor.val % 8 + 1) ≤ s.time.nowNs) ∧ (t = tempQ raw.toNat (Config.sensorN0 sensor.val) (Config.sensorSlope sensor.val))) ∧
    (∃ s : State, (s.boot.por = true ∧ s.therm.roundAt + 1000000 ≤ s.time.nowNs)) ∧
    (∃ s : State, ∃ stackTemps : List (Option Half), ∃ vmon : List Half, ∃ imon : List Half, ∃ watts : Half, (s.boot.por = true ∧ (s.therm.roundNo != 0) = true ∧ s.therm.published = false ∧ s.therm.roundAt + 400000 ≤ s.time.nowNs)) ∧
    (∃ s : State, ∃ core : HkIx, ∃ req0 : BitVec 11, ∃ req1 : BitVec 11, (s.hkState core.val = 2 ∧ s.hkDuty core.val < 4 ∧ (s.hkCore core.val).loopAt + 100000 ≤ s.time.nowNs)) ∧
    (∃ s : State, ∃ core : HkIx, ∃ field : Byte, ∃ target : Byte, ∃ value : Word, (s.hkState core.val = 2 ∧ field.toNat = 0 ∧ s.hkDuty core.val < 4 ∧ target.toNat / 2 = s.hkDuty core.val)) ∧
    (∃ s : State, ∃ core : HkIx, ∃ field : Byte, ∃ target : Byte, ∃ value : Word, (s.hkState core.val = 2 ∧ field.toNat = 4)) ∧
    (∃ s : State, ∃ core : HkIx, (s.hkState core.val = 2 ∧ (s.hkCore core.val).wdogAt + 10000000 ≤ s.time.nowNs)) ∧
    (∃ s : State, ∃ core : HkIx, (s.hkState core.val = 2)) := by
  refine ⟨?_, ?_, ?_, ?_, ?_, ?_, ?_, ?_⟩
  · exact ⟨{ time := { nowNs := 500000 }, boot := { por := true }, therm := { roundNo := 1 } }, 0, 5, _, by decide +kernel, by decide +kernel, rfl⟩
  · exact ⟨{ time := { nowNs := 1500000 }, boot := { por := true } }, by decide +kernel⟩
  · exact ⟨{ time := { nowNs := 500000 }, boot := { por := true }, therm := { roundNo := 1 } }, [], [], [], 0, by decide +kernel⟩
  · exact ⟨wHk 0 { time := { nowNs := 500000 } }, 0, 0, 0, by decide +kernel⟩
  · exact ⟨wHk 0 {}, 0, 0, 1, 5, by decide +kernel⟩
  · exact ⟨wHk 0 {}, 0, 4, 1, 5, by decide +kernel⟩
  · exact ⟨wHk 0 { time := { nowNs := 50000000 } }, 0, by decide +kernel⟩
  · exact ⟨wHk 0 {}, 0, by decide +kernel⟩

/-- A state and operands that meet the hypotheses of each clause of HousekeepingCommands. -/
theorem test_witness_HousekeepingCommands :
    (∃ s : State, ∃ sq : RingNo, ∃ data : Option (List Byte), ∃ f : InFlight, ∃ k : Nat, ∃ die : Nat, ∃ u : State, ∃ v : State, ∃ w : State, ∃ m : List Byte, (s.nextCmd sq.toNat 0x80 = some f) ∧ (k = recNat f.desc 8 1 ∧ die = recNat f.desc 9 1 ∧ dutyAllowed k die = true) ∧ (0 < recNat f.desc 24 4 ∧ recNat f.desc 24 4 ≤ 524288) ∧ (s.hkState k ≠ 1 ∧ (k = 6 ∨ s.hkDuty 6 ≠ die) ∧ u = s.hkCmdStop k ∧ u.dutyCore die = none) ∧ (v = u.setHk k { u.hkCore k with image := [], running := [], wait := none }) ∧ (v.hostGet f (recNat f.desc 16 8) (recNat f.desc 24 4) data = (w, some m))) ∧
    (∃ s : State, ∃ core : HkIx, ∃ no : Nat, ∃ f : InFlight, ((s.hkCore core.val).wait = some no) ∧ ((s.hkRun core.val).flight no = some f)) ∧
    (∃ s : State, ∃ sq : RingNo, ∃ f : InFlight, ∃ k : Nat, (s.nextCmd sq.toNat 0x81 = some f) ∧ (k = recNat f.desc 8 1 ∧ k < 7 ∧ (s.hkCore k).image ≠ [] ∧ s.hkState k ≠ 1)) ∧
    (∃ s : State, ∃ sq : RingNo, ∃ f : InFlight, ∃ k : Nat, ∃ u : State, (s.nextCmd sq.toNat 0x82 = some f) ∧ (k = recNat f.desc 8 1 ∧ k < 7 ∧ (s.hkCore k).image ≠ [] ∧ s.hkState k ≠ 1) ∧ (u = (s.hkCmdStop k).setF (fTHM_HK_STATUS_DUTY k) 7)) ∧
    (∃ s : State, ∃ sq : RingNo, ∃ f : InFlight, ∃ t : Nat, ∃ g : Nat, (s.nextCmd sq.toNat 0x83 = some f) ∧ (t = recNat f.desc 8 1 ∧ g = recNat f.desc 9 1 ∧ 80 ≤ t ∧ t ≤ 100 ∧ 1 ≤ g ∧ g ≤ 10)) ∧
    (∃ s : State, ∃ sq : RingNo, ∃ f : InFlight, (s.nextCmd sq.toNat 0x84 = some f)) ∧
    (∃ s : State, ∃ sq : RingNo, ∃ ok : Bool, ∃ f : InFlight, ∃ u : State, (s.nextCmd sq.toNat 0x85 = some f) ∧ (s.hostPut f (recNat f.desc 16 8) ((List.range 512).flatMap fun i => leBytes 4 (s.reg (0xE00000 + 4 * i)).toNat) ok = (u, true))) := by
  refine ⟨?_, ?_, ?_, ?_, ?_, ?_, ?_⟩
  · obtain ⟨w, m, h⟩ := wHkLoad_get; exact ⟨wHkLoad, 0, some [], wFlight 0x80 [(24, 1)], 0, 0, _, wHkLoaded, w, m, by decide +kernel, by decide +kernel, by decide +kernel, ⟨wHkLoad_may.1, wHkLoad_may.2, rfl, wHkLoad_free⟩, rfl, h⟩
  · exact ⟨{ wRing (wFlight 0x80 []) with hk := [(0, { wait := some 0 })] }, 0, 0, wFlight 0x80 [], by decide +kernel, by decide +kernel⟩
  · exact ⟨{ wRing (wFlight 0x81 []) with hk := [(0, { image := [1] })] }, 0, wFlight 0x81 [], 0, by decide +kernel, by decide +kernel⟩
  · exact ⟨{ wRing (wFlight 0x82 []) with hk := [(0, { image := [1] })] }, 0, wFlight 0x82 [], 0, _, by decide +kernel, by decide +kernel, rfl⟩
  · exact ⟨wRing (wFlight 0x83 [(8, 90), (9, 5)]), 0, wFlight 0x83 [(8, 90), (9, 5)], 90, 5, by decide +kernel, by decide +kernel⟩
  · exact ⟨wRing (wFlight 0x84 []), 0, wFlight 0x84 [], by decide +kernel⟩
  · exact ⟨wLive [wFlight 0x85 []], 0, true, wFlight 0x85 [], _, by decide +kernel, rfl⟩

/-- A state and operands that meet the hypotheses of each clause of FetchAndPolling. -/
theorem test_witness_FetchAndPolling :
    (∃ s : State, ∃ sq : RingNo, ∃ tail : Word, ((s.sq sq.toNat).wantRead = true) ∧ (s.isSet (fHOST_SQ_STATE_HI_VALID sq.toNat) = true ∧ s.isSet (fHOST_SQ_STATE_HI_DISABLED sq.toNat) = false ∧ s.fidLive (s.sqFid sq.toNat) = true) ∧ ((tail.toNat + 2 ^ 32 - s.getF (fHOST_SQ_STATE_LO_FETCHED sq.toNat)) % 2 ^ 32 ≤ s.sqSize sq.toNat)) ∧
    (∃ s : State, ∃ sq : RingNo, ∃ desc : Option (List Byte), ∃ d : List Byte, ∃ x : Nat × Nat × Nat, (desc = some d) ∧ (s.fetchPick = some x ∧ x.2.1 = sq.toNat)) ∧
    (∃ s : State, ∃ fid : Fid, ∃ a : Nat, (s.fidLive fid.toNat = true ∧ (s.fn fid.toNat).enabled = true) ∧ (aget s.host.polledAt fid.toNat = some a ∧ a + s.pollNs ≤ s.time.nowNs)) ∧
    (∃ s : State, ∃ fid : Fid, ∃ word : Fin 512, ∃ bits : DWord, (s.fidLive fid.toNat = true ∧ s.summaryMode fid.toNat = true)) ∧
    (∃ s : State, ∃ fid : Fid, ∃ value : Word, (s.fidLive fid.toNat = true)) ∧
    (∃ s : State, ∃ cq : RingNo, ∃ head : Word, ∃ t : State, (s.isSet (fHOST_CQ_STATE_HI_VALID cq.toNat) = true ∧ s.fidLive (s.cqFid cq.toNat) = true) ∧ (t = (s.emit (.hostRead (s.cqFid cq.toNat) (s.dbBase (s.cqFid cq.toNat) + 0x41000 + 8 * cq.toNat) 8)).setCq cq.toNat { s.cq cq.toNat with head := head.toNat, live := (s.cq cq.toNat).live.drop ((s.cq cq.toNat).live.length - min ((s.getF (fHOST_CQ_STATE_LO_POSTED cq.toNat) + 2 ^ 32 - head.toNat) % 2 ^ 32) (s.cq cq.toNat).live.length) })) ∧
    (∃ s : State, ∃ cq : RingNo, (s.cqLive cq.toNat = true) ∧ (s.irqDue cq.toNat = true)) ∧
    (∃ s : State, ∃ fid : Fid, ∃ vec : Fin 2048, (s.fidNames fid.toNat = true) ∧ ((s.fn fid.toNat).msixPend.contains vec.val = true)) ∧
    (∃ s : State, ∃ sq : RingNo, ∃ f : InFlight, (s.nextCmd sq.toNat 0x00 = some f)) := by
  refine ⟨?_, ?_, ?_, ?_, ?_, ?_, ?_, ?_, ?_⟩
  · exact ⟨State.setSq (State.setF (wLive []) (fHOST_SQ_STATE_HI_VALID 8) 1) 8 { wantRead := true }, 8, 1, by decide +kernel, by decide +kernel, by decide +kernel⟩
  · exact ⟨State.setSq (State.setF (State.setF (wLive []) (fHOST_SQ_STATE_HI_VALID 7) 1) (fHOST_CQ_STATE_HI_LOG2_SIZE 0) 4) 7 { tail := 1 }, 7, some [], [], (0, 7, 1), rfl, by decide +kernel⟩
  · exact ⟨State.setFn { (wLive []) with time := { nowNs := 3000000 }, host := { (wLive []).host with polledAt := [(0, 5)] } } 0 { enabled := true }, 0, 5, by decide +kernel, by decide +kernel⟩
  · exact ⟨State.setFn (wLive []) 0 { atomicEn := true }, 0, 3, 5, by decide +kernel⟩
  · exact ⟨wLive [], 0, 5, by decide +kernel⟩
  · exact ⟨State.setF (wLive []) (fHOST_CQ_STATE_HI_VALID 3) 1, 3, 1, _, by decide +kernel, rfl⟩
  · exact ⟨State.setCq (State.setF (wLive []) (fHOST_CQ_STATE_HI_VALID 3) 1) 3 { irqEn := true, since := 1, irqNow := true }, 3, by decide +kernel, by decide +kernel⟩
  · exact ⟨State.setFn {} 0 { msixPend := [5] }, 0, 5, by decide +kernel, by decide +kernel⟩
  · exact ⟨wRing (wFlight 0 []), 0, wFlight 0 [], by decide +kernel⟩

/-- A state and operands that meet the hypotheses of each clause of RingCommandsComplete. -/
theorem test_witness_RingCommandsComplete :
    (∃ s : State, ∃ sq : RingNo, ∃ f : InFlight, (s.nextCmd sq.toNat 0x10 = some f) ∧ (recBits f.desc 10 1 0 0 ≠ 1) ∧ (s.createBad false (recNat f.desc 8 2) (recNat f.desc 12 1) (recNat f.desc 13 1) (recNat f.desc 14 2) = false) ∧ (4 ≤ recNat f.desc 11 1 ∧ recNat f.desc 11 1 ≤ 15 ∧ recNat f.desc 16 8 % 4096 = 0)) ∧
    (∃ s : State, ∃ sq : RingNo, ∃ f : InFlight, ∃ n : Nat, (s.nextCmd sq.toNat 0x11 = some f) ∧ (recNat f.desc 8 2 = n ∧ 8 ≤ n ∧ n < 32768 ∧ recBits f.desc 10 1 0 0 ≠ 1) ∧ (s.sqValid n = true) ∧ ((State.host (s.setSq n { s.sq n with destroying := true })).flights.any (·.sq == n) = false)) ∧
    (∃ s : State, ∃ ring : RingNo, ∃ f : InFlight, (s.host.flights.find? (fun f => f.opcode == 0x11 && f.stage == .started && f.a == ring.toNat) = some f) ∧ (s.host.flights.any (·.sq == ring.toNat) = false)) ∧
    (∃ s : State, ∃ sq : RingNo, ∃ ptr : Word, ∃ f : InFlight, ∃ n : Nat, ∃ toStby : Bool, (s.nextCmd sq.toNat 0x12 = some f) ∧ (recNat f.desc 8 2 = n ∧ 8 ≤ n ∧ n < 32768 ∧ (recBits f.desc 10 1 0 0 == 1) = false ∧ (recBits f.desc 11 1 0 0 == 1) = toStby) ∧ (s.sqValid n = true ∧ (s.sq n).stby ≠ 0xFF) ∧ (s.isSet (fHOST_LINK_UP (s.fidLink (if toStby then (s.sq n).stby else s.getF (fHOST_SQ_STATE_HI_FID n)))) = true)) ∧
    (∃ s : State, ∃ sq : RingNo, ∃ f : InFlight, ∃ fid : Nat, (s.nextCmd sq.toNat 0x13 = some f) ∧ (recNat f.desc 8 1 = fid ∧ s.fidNames fid = true ∧ isPf fid = false ∧ recNat f.desc 16 8 % 4096 = 0) ∧ (recNat f.desc 24 8 % 4096 = 0 ∧ recNat f.desc 32 8 % 4096 = 0 ∧ recNat f.desc 12 2 < 4096 ∧ recNat f.desc 14 2 < 4096) ∧ (recNat f.desc 10 2 = 0xFFFF)) ∧
    (∃ s : State, ∃ sq : RingNo, ∃ f : InFlight, (s.nextCmd sq.toNat 0x50 = some f)) := by
  refine ⟨?_, ?_, ?_, ?_, ?_, ?_⟩
  · exact ⟨State.setCq (State.setF (State.setFn (wRing (wFlight 0x10 [(8, 9), (11, 4), (13, 255), (14, 1), (17, 16)])) 0 { enabled := true }) (fHOST_CQ_STATE_HI_VALID 1) 1) 1 {}, 0, wFlight 0x10 [(8, 9), (11, 4), (13, 255), (14, 1), (17, 16)], by decide +kernel, by decide +kernel, by decide +kernel, by decide +kernel⟩
  · exact ⟨State.setSq (State.setF (wRing (wFlight 0x11 [(8, 9)])) (fHOST_SQ_STATE_HI_VALID 9) 1) 9 {}, 0, wFlight 0x11 [(8, 9)], 9, by decide +kernel, by decide +kernel, by decide +kernel, by decide +kernel⟩
  · exact ⟨{ host := { flights := [{ (wFlight 0x11 [(8, 9)]) with stage := .started, a := 9 }] } }, 9, { (wFlight 0x11 [(8, 9)]) with stage := .started, a := 9 }, by decide +kernel, by decide +kernel⟩
  · exact ⟨State.setSq (State.setF (State.setF (wLive [wFlight 0x12 [(8, 9), (11, 0)]]) (fHOST_SQ_STATE_HI_VALID 9) 1) (fHOST_SQ_STATE_HI_ON_STBY 9) 1) 9 { stby := 128 }, 0, 5, wFlight 0x12 [(8, 9), (11, 0)], 9, false, by decide +kernel, by decide +kernel, by decide +kernel, by decide +kernel⟩
  · exact ⟨wRing (wFlight 0x13 [(8, 2), (9, 1), (10, 255), (11, 255)]), 0, wFlight 0x13 [(8, 2), (9, 1), (10, 255), (11, 255)], 2, by decide +kernel, by decide +kernel, by decide +kernel, by decide +kernel⟩
  · exact ⟨wRing (wFlight 0x50 []), 0, wFlight 0x50 [], by decide +kernel⟩

/-- A state and operands that meet the hypotheses of each clause of LinksAndFunctions. -/
theorem test_witness_LinksAndFunctions :
    (∃ s : State, ∃ port : Fin 2, ∃ ptrs : List (RingNo × Bool × Word), ∃ t : State, (port.val = 0) ∧ (s.host.perst0 = false) ∧ (s.bif 0 = false) ∧ (t = ((((s.setHost { s.host with perst0 := true }).bumpSat (fHOST_LINK_PERST 0)).linkDown 0).setF (fHOST_LINK_IDE_SECURE 0) 0).setLink 0 { State.link (s.setHost { s.host with perst0 := true }) 0 with downAt := s.time.nowNs, ideSecure := [] }) ∧ ((((t.portFids 0).foldl (fun st fid => st.resetFn fid) t).link 0).failed = false)) ∧
    (∃ s : State, ∃ port : Fin 2, ∃ strapBif : Bool, ∃ t : State, (s.perst port.val = true) ∧ (t = s.setHost (if port.val = 0 then { s.host with perst0 := false } else { s.host with perst1 := false }))) ∧
    (∃ s : State, ∃ link : LinkIx, ∃ readFailed : Bool, ∃ ptrs : List (RingNo × Bool × Word), ((s.link link.val).failed = false) ∧ (readFailed = true ∧ s.isSet (fHOST_LINK_UP link.val) = true ∨ s.isSet (fHOST_LINK_UP link.val) = false ∧ (s.link link.val).downAt + s.failNs ≤ s.time.nowNs)) ∧
    (∃ s : State, ∃ link : LinkIx, ∃ stream : Fin 5, ∃ ptrs : List (RingNo × Bool × Word), ∃ t : State, ((s.link link.val).ideSecure.contains stream.val = true) ∧ (t = (s.setLink link.val { s.link link.val with ideSecure := (s.link link.val).ideSecure.filter (· != stream.val) }).setF (fHOST_LINK_IDE_SECURE link.val) (if ((s.link link.val).ideSecure.filter (· != stream.val)).isEmpty then 0 else 1))) ∧
    (∃ s : State, ∃ link : LinkIx, ∃ speed : Fin 7, ∃ width : Fin 17, ∃ atomics : Bool, ∃ t : State, ∃ u : State, (s.perst (link.val / 2) = false ∧ s.boot.ioDead = false ∧ s.fidNames (link.val / 2 * 128 + link.val % 2) = true ∧ speed.val ≠ 0 ∧ width.val ≠ 0) ∧ (t = ((s.setF (fHOST_LINK_UP link.val) 1).setF (fHOST_LINK_SPEED link.val) speed.val).setF (fHOST_LINK_WIDTH link.val) width.val) ∧ (u = (t.setF (fHOST_LINK_SUMMARY link.val) atomics.toNat).setFn (link.val / 2 * 128 + link.val % 2) { t.fn (link.val / 2 * 128 + link.val % 2) with atomicEn := atomics })) ∧
    (∃ s : State, ∃ link : LinkIx, (s.isSet (fHOST_LINK_UP link.val) = true)) ∧
    (∃ s : State, ∃ fid : Fid, (s.fidNames fid.toNat = true)) ∧
    (∃ s : State, ∃ fid : Fid, ∃ enable : Bool, (isPf fid.toNat = true ∧ s.fidNames fid.toNat = true)) ∧
    (∃ s : State, ∃ fid : Fid, ∃ enter : Bool, (s.fidNames fid.toNat = true)) := by
  refine ⟨?_, ?_, ?_, ?_, ?_, ?_, ?_, ?_, ?_⟩
  · exact ⟨{ host := { perst0 := false } }, 0, [], _, by decide +kernel, by decide +kernel, by decide +kernel, rfl, by decide +kernel⟩
  · exact ⟨{}, 1, true, _, by decide +kernel, rfl⟩
  · exact ⟨wLive [], 0, true, [], by decide +kernel, by decide +kernel⟩
  · exact ⟨State.setLink {} 1 { ideSecure := [2] }, 1, 2, [], _, by decide +kernel, rfl⟩
  · exact ⟨{ host := { perst0 := false } }, 0, 6, 16, true, _, _, by decide +kernel, rfl, rfl⟩
  · exact ⟨wLive [], 0, by decide +kernel⟩
  · exact ⟨{}, 2, by decide +kernel⟩
  · exact ⟨{}, 0, true, by decide +kernel⟩
  · exact ⟨{}, 2, true, by decide +kernel⟩

/-- A state and operands that meet the hypotheses of each clause of HostCopyAndStackCommands. -/
theorem test_witness_HostCopyAndStackCommands :
    (∃ s : State, ∃ sq : RingNo, ∃ f : InFlight, (s.nextCmd sq.toNat 0x02 = some f) ∧ (copyLen f.desc ≠ 0) ∧ (s.copyMay (s.sqFid f.sq) (copyDev f.desc) (copyLen f.desc) = true)) ∧
    (∃ s : State, ∃ sq : RingNo, ∃ data : List Byte, ∃ fail : Option Word, ∃ hits : List EccHit, ∃ f : InFlight, ∃ n : Nat, (s.host.flights.find? (fun f => f.sq == sq.toNat && f.opcode == 2 && f.stage == .started) = some f) ∧ (fail = none ∧ s.fidLive (s.sqFid f.sq) = true ∧ copyOut f.desc = false ∧ copyLen f.desc = n) ∧ (s.copyMay (s.sqFid f.sq) (copyDev f.desc) n = true ∧ s.readyPrefix (copyDev f.desc) n = n)) ∧
    (∃ s : State, ∃ sq : RingNo, ∃ f : InFlight, (s.nextCmd sq.toNat 0x40 = some f) ∧ (recNat f.desc 12 4 < 94208 ∧ aget (s.stack (recNat f.desc 8 1)).remap (recNat f.desc 12 4) = none) ∧ (s.isSet (fHBM_STATUS_RESERVE_FULL (recNat f.desc 8 1)) = false)) ∧
    (∃ s : State, ∃ sq : RingNo, ∃ f : InFlight, (s.nextCmd sq.toNat 0x41 = some f) ∧ (s.faults.heldSpans.contains (recNat f.desc 8 1) = true)) ∧
    (∃ s : State, ∃ sq : RingNo, ∃ f : InFlight, (s.nextCmd sq.toNat 0x42 = some f) ∧ (s.getF (fHBM_STATUS_OWNER (recNat f.desc 8 1)) ≠ 0)) := by
  refine ⟨?_, ?_, ?_, ?_, ?_⟩
  · exact ⟨wRing (wFlight 2 [(24, 64)]), 0, wFlight 2 [(24, 64)], by decide +kernel, by decide +kernel, by decide +kernel⟩
  · exact ⟨State.setF (wLive [{ (wFlight 2 [(24, 64)]) with stage := .started }]) fTOP_READY_SPAN 1, 0, [1, 2], none, [], { (wFlight 2 [(24, 64)]) with stage := .started }, 64, by decide +kernel, by decide +kernel, by decide +kernel⟩
  · exact ⟨wRing (wFlight 0x40 [(8, 3), (12, 7)]), 0, wFlight 0x40 [(8, 3), (12, 7)], by decide +kernel, by decide +kernel, by decide +kernel⟩
  · exact ⟨{ wRing (wFlight 0x41 [(8, 3), (16, 9)]) with faults := { heldSpans := [3] } }, 0, wFlight 0x41 [(8, 3), (16, 9)], by decide +kernel, by decide +kernel⟩
  · exact ⟨State.setF (wRing (wFlight 0x42 [(8, 3)])) (fHBM_STATUS_OWNER 3) 1, 0, wFlight 0x42 [(8, 3)], by decide +kernel, by decide +kernel⟩

/-- A state and operands that meet the hypotheses of each clause of MemoryEventsAct. -/
theorem test_witness_MemoryEventsAct :
    (∃ s : State, ∃ stack : SpanIx, ∃ hits : List EccHit, (s.getF (fHBM_CFG_SCRUB_H stack.val) ≠ 0) ∧ ((s.stack stack.val).trained = true)) ∧
    (∃ s : State, ∃ stack : SpanIx, ∃ bad : List (Fin 8192), ∃ faulty : Fin 4097, ∃ page : Nat, ∃ rest : List Nat, ((s.stack stack.val).retireQ = page :: rest)) ∧
    (∃ s : State, ∃ stack : SpanIx, ∃ total : Nat, (s.isSet (fHBM_CFG_SKEW_EN stack.val) = true) ∧ (sumNat ((s.stack stack.val).chan.map (·.2)) = total) ∧ (2400 ≤ total) ∧ ((busiest (s.stack stack.val).chan).2 * 32 < 4 * total)) ∧
    (∃ s : State, ∃ span : SpanIx, ((s.span span.val).splitWant ≠ (s.span span.val).split)) ∧
    (∃ s : State, ∃ stack : SpanIx, ((s.stack stack.val).handover = 1 ∨ (s.stack stack.val).handover = 2)) ∧
    (∃ s : State, ∃ stack : SpanIx, ∃ f : InFlight, ((s.stack stack.val).bist = true) ∧ (State.bistFlight (((s.setStack stack.val { s.stack stack.val with bist := false }).forgetStack stack.val).setF (fHBM_STATUS_BIST_FAIL stack.val) 0) stack.val = some f) ∧ (State.retired (((s.setStack stack.val { s.stack stack.val with bist := false }).forgetStack stack.val).setF (fHBM_STATUS_BIST_FAIL stack.val) 0) stack.val = State.retired ((s.setStack stack.val { s.stack stack.val with bist := false }).forgetStack stack.val) stack.val)) := by
  refine ⟨?_, ?_, ?_, ?_, ?_, ?_⟩
  · exact ⟨{ mm := { hbm := [(3, { trained := true })] } }, 3, [], by decide +kernel, by decide +kernel⟩
  · exact ⟨{ mm := { hbm := [(3, { retireQ := [5, 6] })] } }, 3, [0], 0, 5, [6], by decide +kernel⟩
  · exact ⟨{ regs := [(0x600000 + 0x1000 * 3, 0)], mm := { hbm := [(3, { chan := (List.range 25).map fun i => (i, 100) })] } }, 3, 2500, by decide +kernel, by decide +kernel, by decide +kernel, by decide +kernel⟩
  · exact ⟨{ mm := { spans := [(3, { split := 4, splitWant := 2 })] } }, 3, by decide +kernel⟩
  · exact ⟨{ mm := { hbm := [(3, { handover := 2 })] } }, 3, by decide +kernel⟩
  · exact ⟨{ mm := { hbm := [(3, { bist := true })] }, host := { flights := [{ (wFlight 0x42 [(8, 3)]) with stage := .started }] } }, 3, { (wFlight 0x42 [(8, 3)]) with stage := .started }, by decide +kernel, by decide +kernel, by decide +kernel⟩

/-- A state and operands that meet the hypotheses of each clause of AttentionAndMemoryStationsComplete. -/
theorem test_witness_AttentionAndMemoryStationsComplete :
    (∃ s : State, ∃ slot : StepIx, ∃ core : LCore, ∃ hits : List EccHit, ∃ x : OpCtx, ∃ q : Tile, ∃ kv : Tile, ∃ pages : Array Nat, ∃ u : State, ∃ h : Nat, ∃ n : Nat, (s.active slot.val core.val instAttend = some x) ∧ (x.atEnd = false ∧ x.run.outbox = [] ∧ s.tripHolds instAttend = false ∧ x.run.started = true ∧ opCode x.op = 1) ∧ (opF x.op 2 31 20 = noQ ∧ h = (aget x.run.work 0).getD 0 ∧ n = q.rows / (opF x.op 1 35 32 + 1)) ∧ (x.head (opInA x.op) (if opHoldA x.op && !x.lastRep then h else 0) = some q ∧ x.head (opInB x.op) = some kv ∧ attendShapes x.op q kv none = true) ∧ (s.kvReach x (kvLay x.op) n = .inr pages ∧ s.addrCheck (pageRuns pages ++ (kvLay x.op).tableRuns) = none ∧ s.walkFault x (kvLay x.op) n = none) ∧ (u = s.attendRead x (kvLay x.op) pages h n kv hits)) ∧
    (∃ s : State, ∃ slot : StepIx, ∃ core : LCore, ∃ x : OpCtx, ∃ t : Tile, ∃ ps : List (List Nat), (s.active slot.val core.val instAttend = some x) ∧ (x.atEnd = false ∧ x.run.outbox = [] ∧ s.tripHolds instAttend = false ∧ x.run.started = true ∧ opCode x.op = 2) ∧ (x.head (opInA x.op) = some t ∧ acceptOk t = true ∧ (compactMoves (acceptInts t)).isEmpty = false) ∧ (s.compactPages x (compactMoves (acceptInts t)) = some ps) ∧ (s.addrCheck (ps.flatMap fun p => pageRuns p.toArray) = none ∧ s.compactWalk x (compactMoves (acceptInts t)) = none)) ∧
    (∃ s : State, ∃ slot : StepIx, ∃ core : LCore, ∃ x : OpCtx, ∃ t : Tile, (s.active slot.val core.val instSample = some x) ∧ (x.atEnd = false ∧ x.run.outbox = [] ∧ s.tripHolds instSample = false ∧ x.run.started = true ∧ opCode x.op = 1) ∧ (opInB x.op = noQ ∧ opHoldA x.op = false ∧ x.run.wbytes = []) ∧ (x.head (opInA x.op) 0 = some t ∧ drawShape t none = true ∧ opF x.op 1 47 28 + 1 ≤ t.cols)) ∧
    (∃ s : State, ∃ slot : StepIx, ∃ core : LCore, ∃ x : OpCtx, ∃ t : Tile, (s.active slot.val core.val instSample = some x) ∧ (x.atEnd = false ∧ x.run.outbox = [] ∧ s.tripHolds instSample = false ∧ x.run.started = true ∧ opCode x.op = 2) ∧ (x.head (opInA x.op) = some t ∧ acceptOk t = true ∧ (acceptInts t).getD 19 (-1) = (((x.step.streams.map (·.id)).getD x.run.streamIx 0 : Nat) : Int))) ∧
    (∃ s : State, ∃ slot : StepIx, ∃ core : LCore, ∃ ix : Fin 4, ∃ hits : List EccHit, ∃ x : OpCtx, ∃ runs : List (Nat × Nat), ∃ u : State, (s.active slot.val core.val (0x10+ix.val) = some x) ∧ (x.atEnd = false ∧ x.run.outbox = [] ∧ s.tripHolds (0x10+ix.val) = false ∧ x.run.started = true ∧ opCode x.op = 1) ∧ (runs = lsRuns x.op x.repNo (loadRows x.op) (loadBytes x.op)) ∧ (s.addrCheck runs = none) ∧ (u = runs.foldl (fun st q => (st.access q.1 q.2 false (lsHint x.op == 0)).ecc x.slot q.1 q.2 hits) s)) ∧
    (∃ s : State, ∃ slot : StepIx, ∃ core : LCore, ∃ ix : Fin 2, ∃ hits : List EccHit, ∃ x : OpCtx, ∃ t : Tile, ∃ runs : List (Nat × Nat), (s.active slot.val core.val (0x20+ix.val) = some x) ∧ (x.atEnd = false ∧ x.run.outbox = [] ∧ s.tripHolds (0x20+ix.val) = false ∧ x.run.started = true ∧ opCode x.op = 1) ∧ (x.head (opInA x.op) = some t ∧ opF x.op 3 63 40 = 0) ∧ (runs = lsRuns x.op x.repNo t.rows t.payload.length) ∧ (s.addrCheck runs = none)) ∧
    (∃ s : State, ∃ slot : StepIx, ∃ core : LCore, ∃ ix : Fin 2, ∃ x : OpCtx, ∃ kv : Tile, ∃ pages : Array Nat, ∃ h : Nat, (s.active slot.val core.val (0x20+ix.val) = some x) ∧ (x.atEnd = false ∧ x.run.outbox = [] ∧ s.tripHolds (0x20+ix.val) = false ∧ x.run.started = true ∧ opCode x.op = 2) ∧ (h = (aget x.run.work 0).getD 0) ∧ (x.head (opInA x.op) (if opHoldA x.op && !x.lastRep then h else 0) = some kv ∧ kvShape (kvLay x.op) kv = true) ∧ (s.kvReach x (kvLay x.op) (kv.rows / 2) = .inr pages ∧ s.addrCheck (pageRuns pages ++ (kvLay x.op).tableRuns) = none ∧ s.walkFault x (kvLay x.op) (kv.rows / 2) = none)) := by
  refine ⟨?_, ?_, ?_, ?_, ?_, ?_, ?_⟩
  · exact ⟨wKv (wOp 0x60 (wWord 1 0 1 2 1) (2 * 2 ^ 28 + 10 * 2 ^ 17 + 8) 0xFFF00000 0 [(0, wQueue { format := 1, rows := 1, cols := 64 }), (1, wQueue { format := 1, rows := 2, cols := 64 })]), 3, 1, [], _, { format := 1, rows := 1, cols := 64 }, { format := 1, rows := 2, cols := 64 }, #[98304], _, 0, 1, rfl, by decide +kernel, by decide +kernel, by decide +kernel, by decide +kernel, rfl⟩
  · exact ⟨wKv (wOp 0x60 (wWord 2 0 0xFFF 0xFFF 1) (2 * 2 ^ 28 + 10 * 2 ^ 17) 0 0 [(0, wQueue (acceptTile 2 7 false [0, 2] 0 false))]), 3, 1, _, acceptTile 2 7 false [0, 2] 0 false, [[98304, 98304, 98304]], rfl, by decide +kernel, by decide +kernel, by decide +kernel, by decide +kernel⟩
  · exact ⟨wOp 0x80 (wWord 1 0 0xFFF 2 1) 0 0 0 [(0, wQueue { format := 1, payload := [0, 0, 0, 0] })], 3, 1, _, { format := 1, payload := [0, 0, 0, 0] }, rfl, by decide +kernel, by decide +kernel, by decide +kernel⟩
  · exact ⟨wOp 0x80 (wWord 2 0 0xFFF 2 1) 0 0 0 [(0, wQueue (acceptTile 2 7 false [0, 2] 0 false))], 3, 1, _, acceptTile 2 7 false [0, 2] 0 false, rfl, by decide +kernel, by decide +kernel⟩
  · exact ⟨State.setF (wOp 0x10 (wWord 1 0xFFF 0xFFF 2 0) (1 * 2 ^ 42) 0 0 []) fTOP_READY_SPAN 1, 3, 1, 0, [], _, _, _, rfl, by decide +kernel, rfl, by decide +kernel, rfl⟩
  · exact ⟨State.setF (wOp 0x20 (wWord 1 0 0xFFF 2 0) 0 0 0 [(0, wQueue { format := 1, payload := [0, 0, 0, 0] })]) fTOP_READY_SPAN 1, 3, 1, 0, [], _, { format := 1, payload := [0, 0, 0, 0] }, _, rfl, by decide +kernel, by decide +kernel, rfl, by decide +kernel⟩
  · exact ⟨wKv (wOp 0x20 (wWord 2 0 0xFFF 2 1) (2 * 2 ^ 28 + 10 * 2 ^ 17) 0 0 [(0, wQueue { format := 1, rows := 2, cols := 64, payload := List.replicate 512 0 })]), 3, 1, 0, _, { format := 1, rows := 2, cols := 64, payload := List.replicate 512 0 }, #[98304], 0, rfl, by decide +kernel, by decide +kernel, by decide +kernel, by decide +kernel⟩

/-- A state and operands that meet the hypotheses of each clause of GraphAndStepCommands. -/
theorem test_witness_GraphAndStepCommands :
    (∃ s : State, ∃ sq : RingNo, ∃ f : InFlight, ∃ a : Nat, ∃ slot : Nat, (s.nextCmd sq.toNat 0x20 = some f) ∧ (recBits f.desc 8 8 39 0 = a ∧ a % 64 = 0 ∧ recNat f.desc 16 2 = slot ∧ slot ≤ s.getF fTOP_STEP_CFG_GRAPH_SLOTS_M1) ∧ (((aget s.steps.graphs slot).getD {}).reg = false)) ∧
    (∃ s : State, ∃ sq : RingNo, ∃ f : InFlight, ∃ h : Nat, (s.nextCmd sq.toNat 0x21 = some f) ∧ (recNat f.desc 8 4 = h ∧ h % 4096 ≤ s.getF fTOP_STEP_CFG_GRAPH_SLOTS_M1) ∧ (s.handleOk h = true) ∧ (s.handleBusy h = false)) ∧
    (∃ s : State, ∃ sq : RingNo, ∃ f : InFlight, ∃ i : Nat, (s.nextCmd sq.toNat 0x01 = some f) ∧ (s.submitCheck (s.sqFid f.sq) f.desc = none) ∧ (s.steps.early.find? (fun e => e.slice == (s.newStep f (s.sqFid f.sq)).slice && e.seq == (s.newStep f (s.sqFid f.sq)).seq && e.attempt == (s.newStep f (s.sqFid f.sq)).attempt) = none) ∧ (s.freeSlot = some i)) ∧
    (∃ s : State, ∃ sq : RingNo, ∃ f : InFlight, ∃ i : Nat, ∃ st : Step, (s.nextCmd sq.toNat 0x22 = some f) ∧ ((recBits f.desc 16 1 5 4 = 1 ∨ recBits f.desc 16 1 5 4 = 2) ∧ recNat f.desc 18 2 = 0) ∧ (s.steps.slots.find? (fun e => e.2.slice == recNat f.desc 8 2 && e.2.seq == recNat f.desc 10 6 && e.2.attempt == recBits f.desc 16 1 3 0 && e.2.phase == .inDoubt) = some (i, st))) := by
  refine ⟨?_, ?_, ?_, ?_⟩
  · exact ⟨wRing (wFlight 0x20 [(16, 1)]), 0, wFlight 0x20 [(16, 1)], 0, 1, by decide +kernel, by decide +kernel, by decide +kernel⟩
  · exact ⟨{ wRing (wFlight 0x21 [(9, 16)]) with steps := { graphs := [(0, { gen := 1, reg := true })] } }, 0, wFlight 0x21 [(9, 16)], 4096, by decide +kernel, by decide +kernel, by decide +kernel, by decide +kernel⟩
  · exact ⟨wSubmit, 8, wStepFlight, 0, by decide +kernel, by decide +kernel, by decide +kernel, by decide +kernel⟩
  · exact ⟨{ wRing (wFlight 0x22 [(8, 3), (16, 0x10)]) with steps := { slots := [(0, { slice := 3, phase := .inDoubt })] } }, 0, wFlight 0x22 [(8, 3), (16, 0x10)], 0, { slice := 3, phase := .inDoubt }, by decide +kernel, by decide +kernel, by decide +kernel⟩

/-- A state and operands that meet the hypotheses of each clause of StreamCommandsComplete. -/
theorem test_witness_StreamCommandsComplete :
    (∃ s : State, ∃ sq : RingNo, ∃ img : Option (List Byte), ∃ f : InFlight, ∃ t : State, ∃ e : List Byte, (s.nextCmd sq.toNat 0x30 = some f) ∧ (s.hostGet f (recNat f.desc 16 8) 128 img = (t, some e)) ∧ (openImageOk e = true) ∧ (entState (s.entry (recNat f.desc 8 2)) = 0)) ∧
    (∃ s : State, ∃ sq : RingNo, ∃ img : Option (List Byte), ∃ f : InFlight, ∃ t : State, ∃ e : List Byte, ∃ ks : List Nat, (s.nextCmd sq.toNat 0x31 = some f) ∧ (s.hostGet f (recNat f.desc 16 8) 128 img = (t, some e)) ∧ (ks = (List.range 12).filter (recNat f.desc 10 2).testBit) ∧ ((!ks.all (imageFieldOk e) || (ks.contains 11 && decide (recNat (s.entry (recNat f.desc 8 2)) 16 4 < recNat e 16 4)) || (ks.contains 10 && recBits e 1 1 0 0 == 0 && recBits (s.entry (recNat f.desc 8 2)) 1 1 1 1 == 1)) = false) ∧ (entState (s.entry (recNat f.desc 8 2)) ≠ 0) ∧ (s.streamBusy (recNat f.desc 8 2) = false)) ∧
    (∃ s : State, ∃ sq : RingNo, ∃ f : InFlight, (s.nextCmd sq.toNat 0x32 = some f) ∧ (entState (s.entry (recNat f.desc 8 2)) = 1) ∧ (s.streamBusy (recNat f.desc 8 2) = false)) ∧
    (∃ s : State, ∃ sq : RingNo, ∃ f : InFlight, (s.nextCmd sq.toNat 0x33 = some f) ∧ (entState (s.entry (recNat f.desc 8 2)) = 3) ∧ (s.streamBusy (recNat f.desc 8 2) = false)) ∧
    (∃ s : State, ∃ sq : RingNo, ∃ f : InFlight, (s.nextCmd sq.toNat 0x34 = some f) ∧ (entState (s.entry (recNat f.desc 8 2)) ≠ 0) ∧ (s.streamBusy (recNat f.desc 8 2) = false)) ∧
    (∃ s : State, ∃ sq : RingNo, ∃ f : InFlight, (s.nextCmd sq.toNat 0x35 = some f) ∧ (recBits (s.entry (recNat f.desc 8 2)) 1 1 0 0 ≠ 0 ∧ entState (s.entry (recNat f.desc 8 2)) ≠ 0) ∧ (s.streams.pinned (recNat f.desc 8 2) = false ∧ s.streams.pins < 1024 ∧ s.streams.setPins (recNat f.desc 8 2) < 8)) ∧
    (∃ s : State, ∃ sq : RingNo, ∃ f : InFlight, (s.nextCmd sq.toNat 0x36 = some f) ∧ (entState (s.entry (recNat f.desc 8 2)) ≠ 0)) ∧
    (∃ s : State, ∃ sq : RingNo, ∃ ok : Bool, ∃ f : InFlight, (s.nextCmd sq.toNat 0x37 = some f) ∧ (s.fidLive (s.sqFid f.sq) = true)) ∧
    (∃ s : State, ∃ sq : RingNo, ∃ img : Option (List Byte), ∃ f : InFlight, ∃ t : State, ∃ e : List Byte, (s.nextCmd sq.toNat 0x75 = some f) ∧ (s.hostGet f (recNat f.desc 16 8) 128 img = (t, some e)) ∧ (recBits e 0 1 7 7 ≠ 1 ∧ (recBits e 0 1 3 3 == 0 && recBits e 1 1 7 2 == 0 && recBits e 2 2 15 15 == 0 && recNat e 8 8 % 2 ^ 14 == 0 && decide (recNat e 8 8 < 2 ^ 40) && imageReserved e) = true) ∧ (entState (s.entry (recNat f.desc 8 2)) = 0)) ∧
    (∃ s : State, ∃ stream : Half, ∃ e : Nat × Nat, ∃ t : State, (s.streams.fetching.find? (·.1 == stream.toNat) = some e) ∧ (s.streams.queued = []) ∧ (t = ((s.setStreams { s.streams with fetching := dropFirst (·.1 == stream.toNat) s.streams.fetching }).maxF fSTREAM_WALK_FETCH_MAX_NS (s.time.nowNs - e.2)).loadStream stream.toNat)) := by
  refine ⟨?_, ?_, ?_, ?_, ?_, ?_, ?_, ?_, ?_, ?_⟩
  · exact ⟨wBlank (wLive [wFlight 0x30 []]), 0, some wOpenImage, wFlight 0x30 [], _, _, by decide +kernel, rfl, by decide +kernel, by decide +kernel⟩
  · exact ⟨wEntry (wLive [wFlight 0x31 [(10, 4)]]) 0x11, 0, some [], wFlight 0x31 [(10, 4)], _, _, _, by decide +kernel, rfl, rfl, by decide +kernel, by decide +kernel, by decide +kernel⟩
  · exact ⟨wEntry (wRing (wFlight 0x32 [])) 0x11, 0, wFlight 0x32 [], by decide +kernel, by decide +kernel, by decide +kernel⟩
  · exact ⟨wEntry (wRing (wFlight 0x33 [])) 0x33, 0, wFlight 0x33 [], by decide +kernel, by decide +kernel, by decide +kernel⟩
  · exact ⟨wEntry (wRing (wFlight 0x34 [])) 0x33, 0, wFlight 0x34 [], by decide +kernel, by decide +kernel, by decide +kernel⟩
  · exact ⟨{ wEntry (wRing (wFlight 0x35 [])) 0x11 with mm := { mem := { cells := [(0, 0x11), (1, 1)] } } }, 0, wFlight 0x35 [], by decide +kernel, by decide +kernel, by decide +kernel⟩
  · exact ⟨wEntry (wRing (wFlight 0x36 [])) 0x11, 0, wFlight 0x36 [], by decide +kernel, by decide +kernel⟩
  · exact ⟨wLive [wFlight 0x37 []], 0, true, wFlight 0x37 [], by decide +kernel, by decide +kernel⟩
  · exact ⟨wBlank (wLive [wFlight 0x75 []]), 0, some [], wFlight 0x75 [], _, _, by decide +kernel, rfl, by decide +kernel, by decide +kernel⟩
  · exact ⟨{ streams := { fetching := [(5, 0)] } }, 5, (5, 0), _, by decide +kernel, by decide +kernel, rfl⟩

/-- A state and operands that meet the hypotheses of each clause of StepRunsAndEnds. -/
theorem test_witness_StepRunsAndEnds :
    (∃ s : State, ∃ slot : StepIx, ∃ t : Step, (s.step? slot.val = some t) ∧ (t.phase = .queued ∧ t.ctxBegun = true ∧ t.ctxPend = [] ∧ t.ctxDone = false)) ∧
    (∃ s : State, ∃ slot : StepIx, ∃ t : Step, (s.step? slot.val = some t) ∧ (t.phase = .queued ∧ t.startTime ≠ 0 ∧ s.startDue t = true)) ∧
    (∃ s : State, ∃ slot : StepIx, ∃ t : Step, (s.step? slot.val = some t) ∧ (s.startDue t = true ∧ s.mayRun slot.val t = true)) ∧
    (∃ s : State, ∃ slot : StepIx, ∃ core : LCore, ∃ inst : Byte, ∃ t : Step, ∃ r : InstRun, ∃ o : OutTile, ∃ rest : List OutTile, ∃ u : Queue, (s.step? slot.val = some t ∧ t.inst? core.val inst.toNat = some r ∧ r.outbox = o :: rest ∧ t.queue? o.q = some u) ∧ (t.phase = .running ∧ r.stopped = false ∧ r.hung = false) ∧ (0 < u.avail (s.cycOf u.prodCore))) ∧
    (∃ s : State, ∃ slot : StepIx, ∃ queue : BitVec 12, ∃ t : Step, ∃ u : Queue, ∃ v : Queue, ∃ tile : Tile, (s.step? slot.val = some t ∧ t.queue? queue.toNat = some u ∧ u.arrive = some (tile, v)) ∧ (t.phase = .running ∧ fmtNamed tile.format = true ∧ u.consInst ≠ instCollect ∧ (computes u.consInst && tile.short) = false)) ∧
    (∃ s : State, ∃ slot : StepIx, ∃ queue : BitVec 12, ∃ u : Queue, ∃ it : QItem, ∃ rest : List QItem, ((s.step? slot.val).bind (·.queue? queue.toNat) = some u) ∧ (u.items = it :: rest ∧ it.read = true ∧ u.kind ≠ 2)) ∧
    (∃ s : State, ∃ slot : StepIx, ∃ queue : BitVec 12, ∃ u : Queue, ((s.step? slot.val).bind (·.queue? queue.toNat) = some u) ∧ (0 < u.flight)) ∧
    (∃ s : State, ∃ slot : StepIx, ∃ core : LCore, ∃ inst : Byte, ∃ x : OpCtx, (s.active slot.val core.val inst.toNat = some x) ∧ (x.atEnd = true ∧ s.owes x = false)) ∧
    (∃ s : State, ∃ slot : StepIx, ∃ t : Step, (s.step? slot.val = some t) ∧ (t.phase = .running ∧ t.insts.all (·.ended) = true ∧ t.queues.all (fun e => e.2.flight == 0) = true) ∧ (s.residue t = none ∧ t.exclList.length ≤ 16)) := by
  refine ⟨?_, ?_, ?_, ?_, ?_, ?_, ?_, ?_, ?_⟩
  · exact ⟨{ steps := { slots := [(3, { ctxBegun := true })] } }, 3, { ctxBegun := true }, by decide +kernel, by decide +kernel⟩
  · exact ⟨{ steps := { slots := [(3, { startTime := 9, startCome := true })] } }, 3, { startTime := 9, startCome := true }, by decide +kernel, by decide +kernel⟩
  · exact ⟨{ steps := { slots := [(3, { ctxDone := true })] } }, 3, { ctxDone := true }, by decide +kernel, by decide +kernel⟩
  · exact ⟨{ steps := { slots := [(3, { phase := .running, insts := [{ core := 1, inst := 16, start := 0, pc := 0, progEnd := 0, outbox := [{ q := 0, tile := {} }] }], queues := [(0, {})] })] } }, 3, 1, 16, _, _, _, _, _, ⟨rfl, rfl, rfl, rfl⟩, by decide +kernel, by decide +kernel⟩
  · exact ⟨{ steps := { slots := [(3, { phase := .running, queues := [(0, { items := [{ tile := { format := 1 } }] })] })] } }, 3, 0, _, _, _, _, ⟨rfl, rfl, rfl⟩, by decide +kernel⟩
  · exact ⟨{ steps := { slots := [(3, { phase := .running, queues := [(0, { items := [{ tile := { format := 1 }, read := true }] })] })] } }, 3, 0, _, _, _, rfl, ⟨rfl, by decide +kernel, by decide +kernel⟩⟩
  · exact ⟨{ steps := { slots := [(3, { phase := .running, queues := [(0, { flight := 1 })] })] } }, 3, 0, _, rfl, by decide +kernel⟩
  · exact ⟨{ steps := { slots := [(3, { phase := .running, insts := [{ core := 1, inst := 16, start := 0, pc := 0, progEnd := 0 }] })] } }, 3, 1, 16, _, rfl, by decide +kernel⟩
  · exact ⟨{ steps := { slots := [(3, { phase := .running })] } }, 3, { phase := .running }, by decide +kernel, by decide +kernel, by decide +kernel⟩

/-- A state and operands that meet the hypotheses of each clause of StepFaultsAndAborts. -/
theorem test_witness_StepFaultsAndAborts :
    (∃ s : State, ∃ slot : StepIx, ∃ cause : Half, ∃ core : LCore, ∃ inst : Byte, (1 ≤ cause.toNat ∧ cause.toNat ≤ 0x18)) ∧
    (∃ s : State, ∃ slot : StepIx, ∃ t : Step, ∃ u : State, (s.step? slot.val = some t) ∧ (t.phase = .aborted ∧ t.quiescing = true ∧ t.insts.all (fun r => !r.hung || r.stopped) = true) ∧ (u = (s.stepCores t).foldl (fun st c => (st.stopTrestle c).modCore c fun v => { v with usedAt := st.time.nowNs, usedCyc := st.cycOf c }) s)) ∧
    (∃ s : State, ∃ slot : StepIx, ∃ core : LCore, ∃ inst : Byte, ∃ t : Step, ∃ r : InstRun, ∃ u : State, (s.step? slot.val = some t ∧ t.inst? core.val inst.toNat = some r) ∧ (t.phase = .aborted ∧ t.quiescing = true ∧ r.stopped = false ∧ t.abortAt + 4000 ≤ s.time.nowNs) ∧ (u = ((s.hangRec t r (s.startLevel 2 (.core core.val)) r.progressAt).cancelOnFault fun j => !r.hung && j.inDomain (.core core.val)).markFaulted (.core core.val) true) ∧ (u.inRecovery (.core core.val) = false)) ∧
    (∃ s : State, ∃ slot : StepIx, ∃ t : Step, (s.step? slot.val = some t) ∧ (t.phase = .running ∧ t.deadlineUs ≠ 0 ∧ t.runAt + 1000 * t.deadlineUs ≤ s.time.nowNs)) ∧
    (∃ s : State, ∃ slot : StepIx, ∃ t : Step, (s.step? slot.val = some t) ∧ (t.phase = .prepared ∧ t.deadlineUs ≠ 0 ∧ t.runAt + 1000 * t.deadlineUs + 50000 ≤ s.time.nowNs)) ∧
    (∃ s : State, ∃ slot : StepIx, ∃ core : LCore, ∃ inst : Byte, ∃ t : Step, ∃ r : InstRun, ∃ u : State, (s.step? slot.val = some t ∧ t.inst? core.val inst.toNat = some r) ∧ (t.phase = .running ∧ r.ended = false ∧ (r.stall != 4) = true ∧ t.lastProgress r + s.npNs ≤ s.time.nowNs) ∧ (u = (s.hangRec t r (s.callLevel 2 (.inst core.val inst.toNat)) (t.lastProgress r)).bumpSat fTOP_FLT_COUNTS_HANGS)) := by
  refine ⟨?_, ?_, ?_, ?_, ?_, ?_⟩
  · exact ⟨{}, 3, 9, 1, 16, by decide +kernel⟩
  · exact ⟨{ steps := { slots := [(3, { phase := .aborted, quiescing := true })] } }, 3, { phase := .aborted, quiescing := true }, _, rfl, by decide +kernel, rfl⟩
  · exact ⟨{ time := { nowNs := 9000 }, steps := { slots := [(3, { phase := .aborted, quiescing := true, insts := [{ core := 1, inst := 16, start := 0, pc := 0, progEnd := 0 }] })] } }, 3, 1, 16, _, _, _, ⟨rfl, rfl⟩, by decide +kernel, rfl, by decide +kernel⟩
  · exact ⟨{ time := { nowNs := 9000 }, steps := { slots := [(3, { phase := .running, deadlineUs := 2 })] } }, 3, { phase := .running, deadlineUs := 2 }, by decide +kernel, by decide +kernel⟩
  · exact ⟨{ time := { nowNs := 90000 }, steps := { slots := [(3, { phase := .prepared, deadlineUs := 2 })] } }, 3, { phase := .prepared, deadlineUs := 2 }, by decide +kernel, by decide +kernel⟩
  · exact ⟨{ time := { nowNs := 9000000 }, steps := { slots := [(3, { phase := .running, insts := [{ core := 1, inst := 16, start := 0, pc := 0, progEnd := 0 }] })] } }, 3, 1, 16, _, _, _, ⟨rfl, rfl⟩, by decide +kernel, rfl⟩

/-- A state and operands that meet the hypotheses of each clause of CommitRoundAnswers. -/
theorem test_witness_CommitRoundAnswers :
    (∃ s : State, ∃ src : Endpoint, ∃ fr : Frame, ∃ u : State, ∃ c : CommitCell, (s.takeFrame 0x0F src.toNat = some (fr, u)) ∧ (c = commitOf fr.body) ∧ (u.sliceValid c.slice = true ∧ u.endpointRank c.slice src.toNat = some c.sender ∧ commitClean 0x0F fr.body = true) ∧ (u.sliceOwnRank c.slice ≤ 1)) ∧
    (∃ s : State, ∃ src : Endpoint, ∃ fr : Frame, ∃ u : State, ∃ c : CommitCell, ∃ d : Decision, (s.takeFrame 0x10 src.toNat = some (fr, u)) ∧ (c = commitOf fr.body) ∧ (u.sliceValid c.slice = true ∧ u.endpointRank c.slice src.toNat = some c.sender ∧ commitClean 0x10 fr.body = true ∧ c.sender = 0) ∧ (u.attemptCurrent c = true) ∧ (u.sliceOwnRank c.slice = 1) ∧ (d = ((u.coord c.slice c.seq c.attempt).recorded.getD c.decision))) ∧
    (∃ s : State, ∃ src : Endpoint, ∃ fr : Frame, ∃ u : State, ∃ c : CommitCell, ∃ t : State, (s.takeFrame 0x11 src.toNat = some (fr, u)) ∧ (c = commitOf fr.body) ∧ (u.sliceValid c.slice = true ∧ u.endpointRank c.slice src.toNat = some c.sender ∧ commitClean 0x11 fr.body = true ∧ c.sender = 1) ∧ (u.attemptCurrent c = true) ∧ (u.sliceOwnRank c.slice = 0) ∧ ((u.coord c.slice c.seq c.attempt).proposal.isSome = true ∧ (u.coord c.slice c.seq c.attempt).sent = false ∧ (u.coord c.slice c.seq c.attempt).noDecision = false) ∧ (t = (u.setCoord { u.coord c.slice c.seq c.attempt with sent := true }).sendDecisions c.slice c.seq c.attempt c.decision)) ∧
    (∃ s : State, ∃ slice : Half, ∃ seq : BitVec 48, ∃ attempt : Fin 16, ∃ k : Coord, (k = s.coord slice.toNat seq.toNat attempt.val) ∧ (k.proposal.isSome = true ∧ k.sent = false ∧ k.noDecision = false ∧ k.decideAt + 1000 * (s.getF fTOP_STEP_CFG_TAKEOVER_US) ≤ s.time.nowNs) ∧ ((s.setCoord { k with noDecision := true }).heldAs slice.toNat seq.toNat attempt.val = none)) ∧
    (∃ s : State, ∃ slot : StepIx, ∃ t : Step, ∃ a : Nat, (s.step? slot.val = some t) ∧ ((s.coord t.slice t.seq t.attempt).allReadyAt = some a ∧ t.rank = 1 ∧ (s.coord t.slice t.seq t.attempt).recorded = none) ∧ (a + 1000 * (s.getF fTOP_STEP_CFG_TAKEOVER_US) ≤ s.time.nowNs)) ∧
    (∃ s : State, ∃ slot : StepIx, ∃ t : Step, (s.step? slot.val = some t) ∧ (t.rank = 1 ∧ t.ran = true ∧ t.deadlineUs ≠ 0 ∧ (s.coord t.slice t.seq t.attempt).allReadyAt = none ∧ (s.coord t.slice t.seq t.attempt).recorded = none) ∧ (t.runAt + 1000 * t.deadlineUs + 1000 * (s.getF fTOP_STEP_CFG_TAKEOVER_US) ≤ s.time.nowNs)) ∧
    (∃ s : State, ∃ src : Endpoint, ∃ fr : Frame, ∃ u : State, ∃ c : CommitCell, ∃ i : Nat, ∃ st : Step, (s.takeFrame 0x12 src.toNat = some (fr, u)) ∧ (c = commitOf fr.body) ∧ (u.sliceValid c.slice = true ∧ u.endpointRank c.slice src.toNat = some c.sender ∧ commitClean 0x12 fr.body = true ∧ c.sender ≤ 1) ∧ (u.attemptCurrent c = true) ∧ (u.heldAs c.slice c.seq c.attempt = some (i, st) ∧ st.applied = none)) ∧
    (∃ s : State, ∃ src : Endpoint, ∃ fr : Frame, ∃ u : State, ∃ c : CommitCell, ∃ i : Nat, ∃ st : Step, (s.takeFrame 0x13 src.toNat = some (fr, u)) ∧ (c = commitOf fr.body) ∧ (u.sliceValid c.slice = true ∧ u.endpointRank c.slice src.toNat = some c.sender ∧ commitClean 0x13 fr.body = true) ∧ (u.heldAs c.slice c.seq c.attempt = some (i, st)) ∧ (u.sliceOwnRank c.slice ≠ 0)) := by
  refine ⟨?_, ?_, ?_, ?_, ?_, ?_, ?_, ?_⟩
  · exact ⟨wSlice 0 (wCommit 6 0x0F 1 0), 6, wCommit 6 0x0F 1 0, _, _, rfl, rfl, by decide +kernel, by decide +kernel⟩
  · exact ⟨wSlice 1 (wCommit 5 0x10 0 0x40), 5, wCommit 5 0x10 0 0x40, _, _, _, rfl, rfl, by decide +kernel, by decide +kernel, by decide +kernel, rfl⟩
  · exact ⟨{ wSlice 0 (wCommit 6 0x11 1 0x40) with steps := { coords := [{ slice := 0, seq := 0, attempt := 0, proposal := some { commit := true } }] } }, 6, wCommit 6 0x11 1 0x40, _, _, _, rfl, rfl, by decide +kernel, by decide +kernel, by decide +kernel, by decide +kernel, rfl⟩
  · exact ⟨{ time := { nowNs := 900000 }, steps := { coords := [{ slice := 0, seq := 0, attempt := 0, proposal := some { commit := true } }] } }, 0, 0, 0, _, rfl, by decide +kernel, by decide +kernel⟩
  · exact ⟨{ time := { nowNs := 900000 }, steps := { slots := [(3, { rank := 1 })], coords := [{ slice := 0, seq := 0, attempt := 0, allReadyAt := some 5 }] } }, 3, { rank := 1 }, 5, by decide +kernel, by decide +kernel, by decide +kernel⟩
  · exact ⟨{ time := { nowNs := 900000 }, steps := { slots := [(3, { rank := 1, ran := true, deadlineUs := 5 })] } }, 3, { rank := 1, ran := true, deadlineUs := 5 }, by decide +kernel, by decide +kernel, by decide +kernel⟩
  · exact ⟨{ wSlice 1 (wCommit 5 0x12 0 0x40) with steps := { slots := [(3, { rank := 1, ranks := 2, phase := .prepared })] } }, 5, wCommit 5 0x12 0 0x40, _, _, 3, { rank := 1, ranks := 2, phase := .prepared }, rfl, rfl, by decide +kernel, by decide +kernel, by decide +kernel⟩
  · exact ⟨{ wSlice 1 (wCommit 5 0x13 0 0) with steps := { slots := [(3, { rank := 1, ranks := 2, phase := .running })] } }, 5, wCommit 5 0x13 0 0, _, _, 3, { rank := 1, ranks := 2, phase := .running }, rfl, rfl, by decide +kernel, by decide +kernel, by decide +kernel⟩

/-- A state and operands that meet the hypotheses of each clause of TrestleActs. -/
theorem test_witness_TrestleActs :
    (∃ s : State, ∃ slot : StepIx, ∃ core : LCore, ∃ x : OpCtx, (s.active slot.val core.val instTrestle = some x) ∧ (x.atEnd = false ∧ x.run.outbox = [] ∧ s.tripHolds instTrestle = false ∧ x.run.started = false ∧ opCode x.op = 1) ∧ (passOk x = true)) ∧
    (∃ s : State, ∃ slot : StepIx, ∃ core : LCore, ∃ x : OpCtx, ∃ a : Tile, ∃ b : SegB, (s.active slot.val core.val instTrestle = some x) ∧ (x.atEnd = false ∧ x.run.outbox = [] ∧ s.tripHolds instTrestle = false ∧ x.run.started = true ∧ opCode x.op = 1) ∧ ((s.trsOf core.val).pass = none ∧ (s.trsOf core.val).mayIssue = true) ∧ (x.aTile 0 = some a ∧ s.segB x a.format 0 = some b ∧ segFits a b (passSegs x.op) none = true)) ∧
    (∃ s : State, ∃ slot : StepIx, ∃ core : LCore, ∃ lost : Bool, ∃ ecc : Fin 3, ∃ off : Nat, ∃ x : OpCtx, ∃ t : TrsSt, ∃ p : TrsPass, ∃ a : Tile, ∃ b : SegB, (s.active slot.val core.val instTrestle = some x) ∧ (t = s.trsCycle core.val) ∧ (t.pass = some p ∧ x.aTile p.aIx = some a ∧ State.segB (s.setTrs core.val t) x a.format p.bIx = some b ∧ segFits a b (passSegs x.op) (some p) = true) ∧ ((lost && x.shareHalf) = false ∧ dutyHit (s.trsOf core.val).tick.duty (s.duty (core.val / 16)) = false ∧ s.didtHit (core.val / 16) (s.trsOf core.val).tick = false ∧ ecc.val ≠ 2)) ∧
    (∃ s : State, ∃ slot : StepIx, ∃ core : LCore, ∃ x : OpCtx, ∃ b : TrsBank, ∃ u : Queue, (s.active slot.val core.val instTrestle = some x) ∧ ((s.trsOf core.val).banks.find? (·.drainAt.isNone) = some b ∧ x.step.queue? (opOut b.op) = some u) ∧ (b.lastCyc + 13 ≤ (s.trsOf core.val).cyc ∧ 0 < u.avail (s.cycOf core.val))) ∧
    (∃ s : State, ∃ slot : StepIx, ∃ core : LCore, ∃ x : OpCtx, ∃ b : TrsBank, ∃ rest : List TrsBank, ∃ d : Nat, (s.active slot.val core.val instTrestle = some x) ∧ ((s.trsOf core.val).banks = b :: rest ∧ b.drainAt = some d ∧ d + 196 ≤ (s.trsOf core.val).cyc) ∧ (passInE b.op = noQ)) ∧
    (∃ s : State, ∃ slot : StepIx, ∃ core : LCore, ∃ x : OpCtx, (s.active slot.val core.val instCodebook = some x) ∧ (x.atEnd = false ∧ x.run.outbox = [] ∧ s.tripHolds instCodebook = false ∧ x.run.started = false ∧ opCode x.op = 1) ∧ (decodeOk x = true)) ∧
    (∃ s : State, ∃ slot : StepIx, ∃ core : LCore, ∃ x : OpCtx, ∃ t : Tile, ∃ c : CbkSt, (s.active slot.val core.val instCodebook = some x) ∧ (x.atEnd = false ∧ x.run.outbox = [] ∧ s.tripHolds instCodebook = false ∧ x.run.started = true ∧ opCode x.op = 1) ∧ (s.cbkOf core.val = c ∧ x.head (opInA x.op) c.ix = some t ∧ cbTileOk t = true) ∧ (c.loaded = true ∧ c.load = 0 ∧ c.runs.length < 32 ∧ c.run + 1 < t.rows / 8)) := by
  refine ⟨?_, ?_, ?_, ?_, ?_, ?_, ?_⟩
  · exact ⟨wFresh 0x40 (wWord 1 0 1 2 0) (1 * 2 ^ 26 + 0xFFF * 2 ^ 36) 0 0 [], 3, 1, _, rfl, by decide +kernel, by decide +kernel⟩
  · exact ⟨wOp 0x40 (wWord 1 0 1 2 0) (1 * 2 ^ 26 + 0xFFF * 2 ^ 36) 0 0 [(0, wQueue { format := 2, rows := 1, cols := 2 }), (1, wQueue { format := 2, layout := 2, rows := 2, cols := 1, payload := List.replicate 512 0 })], 3, 1, _, { format := 2, rows := 1, cols := 2 }, ⟨2, 1, 0, false, false, some 2⟩, rfl, by decide +kernel, by decide +kernel, by decide +kernel⟩
  · exact ⟨State.setTrs (wOp 0x40 (wWord 1 0 1 2 0) (1 * 2 ^ 26 + 0xFFF * 2 ^ 36) 0 0 [(0, wQueue { format := 2, rows := 1, cols := 2 }), (1, wQueue { format := 2, layout := 2, rows := 2, cols := 1, payload := List.replicate 512 0 })]) 1 { pass := some { bank := 0, rep := 0, d := 8, sparse := false, rows := 1, cols := 1, coordR := 0, coordC := 0, acc := [] } }, 3, 1, false, 0, 0, _, _, { bank := 0, rep := 0, d := 8, sparse := false, rows := 1, cols := 1, coordR := 0, coordC := 0, acc := [] }, { format := 2, rows := 1, cols := 2 }, ⟨2, 1, 0, false, false, some 2⟩, rfl, rfl, by decide +kernel, by decide +kernel⟩
  · exact ⟨State.setTrs (wOp 0x40 (wWord 1 0 1 2 0) 0 0 0 [(2, {})]) 1 { cyc := 20, banks := [{ bank := 0, rep := 0, rows := 1, cols := 1, coordR := 0, coordC := 0, acc := [], lastCyc := 0, op := leBytes 8 (wWord 1 0 1 2 0), stream := 0, lastRep := true, last := true, poison := false }] }, 3, 1, _, { bank := 0, rep := 0, rows := 1, cols := 1, coordR := 0, coordC := 0, acc := [], lastCyc := 0, op := leBytes 8 (wWord 1 0 1 2 0), stream := 0, lastRep := true, last := true, poison := false }, {}, rfl, by decide +kernel, by decide +kernel⟩
  · exact ⟨State.setTrs (wOp 0x40 (wWord 1 0 1 2 0) 0 0 0 [(2, {})]) 1 { cyc := 200, banks := [{ bank := 0, rep := 0, rows := 1, cols := 1, coordR := 0, coordC := 0, acc := [], lastCyc := 0, op := leBytes 8 (wWord 1 0 1 2 0) ++ leBytes 8 (0xFFF * 2 ^ 36), stream := 0, lastRep := true, last := true, poison := false, drainAt := some 1 }] }, 3, 1, _, _, _, 1, rfl, ⟨rfl, by decide +kernel, by decide +kernel⟩, by decide +kernel⟩
  · exact ⟨wFresh 0x30 (wWord 1 0 0xFFF 0xFFF 0) 0 0 0 [], 3, 1, _, rfl, by decide +kernel, by decide +kernel⟩
  · exact ⟨State.setCbk (wOp 0x30 (wWord 1 0 0xFFF 0xFFF 0) 0 0 0 [(0, wQueue wCbTile)]) 1 { loaded := true }, 3, 1, _, wCbTile, { loaded := true }, rfl, by decide +kernel, ⟨by decide +kernel, rfl, wCbTile_ok⟩, by decide +kernel⟩

/-- A state and operands that meet the hypotheses of each clause of ArithmeticStationsComplete. -/
theorem test_witness_ArithmeticStationsComplete :
    (∃ s : State, ∃ slot : StepIx, ∃ core : LCore, ∃ ix : Fin 2, ∃ x : OpCtx, ∃ t0 : Tile, ∃ t : Tile, ∃ w : Written, (s.active slot.val core.val (0x90+ix.val) = some x) ∧ (x.atEnd = false ∧ x.run.outbox = [] ∧ s.tripHolds (0x90+ix.val) = false ∧ x.run.started = true ∧ opCode x.op = 1) ∧ (x.head (opInA x.op) = some t0) ∧ (((!(t0.layout == 2 && !isCb t0.format) && opF x.op 1 37 36 != 0) || (opF x.op 1 41 40 == 2 && decide (128 < t0.cols))) = false ∧ t0.short (depthOf (opF x.op 1 37 36)) = false) ∧ (t = (if t0.sparse then s.openTile t0 else t0)) ∧ (w = writeVals (opF x.op 1 47 42) (opF x.op 1 41 40) (depthOf (opF x.op 1 39 38)) (opF x.op 1 35 35 == 1) (Config.free s.freeCtr) t.rows t.cols ((t.values (depthOf (opF x.op 1 37 36))).map fun row => row.map (convertIn t.format (opF x.op 1 34 27))))) ∧
    (∃ s : State, ∃ slot : StepIx, ∃ core : LCore, ∃ x : OpCtx, ∃ a : Tile, ∃ o : Tile × Nat, (s.active slot.val core.val instVector = some x) ∧ (x.atEnd = false ∧ x.run.outbox = [] ∧ s.tripHolds instVector = false ∧ x.run.started = true ∧ opCode x.op = 1) ∧ (x.head (opInA x.op) = some a ∧ vecBcast x.op = 3) ∧ (o = vecTile x.op a a.rows a.cols (a.poison || false) (((List.range (s.vecVals a).length).zip (s.vecVals a)).map fun r => ((List.range r.2.length).zip r.2).map fun e => ewiseOne (vecFunc x.op) (vecBf16 x.op) (Config.free (s.freeCtr + 2) % 2 == 1) (vecC1 x.op) e.2 (vecC0 x.op)))) ∧
    (∃ s : State, ∃ slot : StepIx, ∃ core : LCore, ∃ x : OpCtx, ∃ a : Tile, ∃ o : Tile × Nat, (s.active slot.val core.val instVector = some x) ∧ (x.atEnd = false ∧ x.run.outbox = [] ∧ s.tripHolds instVector = false ∧ x.run.started = true ∧ opCode x.op = 2) ∧ (x.head (opInA x.op) = some a ∧ vecFunc x.op ≠ 4) ∧ (o = vecTile x.op a a.rows a.cols (a.poison || false) ((s.vecVals a).map fun r => r.map fun v => mapFn (vecFunc x.op) #[] (add32 (mul32 (vecC0 x.op) v) (vecC1 x.op))))) ∧
    (∃ s : State, ∃ slot : StepIx, ∃ core : LCore, ∃ x : OpCtx, ∃ t : Tile, ∃ u : State, (s.active slot.val core.val instVector = some x) ∧ (x.atEnd = false ∧ x.run.outbox = [] ∧ s.tripHolds instVector = false ∧ x.run.started = true ∧ opCode x.op = 3) ∧ (opHoldA x.op = false ∧ x.run.wbytes = [] ∧ vecTiles x.op = 1) ∧ (x.head (opInA x.op) = some t ∧ rowSetOk x.op [t] none = true) ∧ (u = (List.range 1).foldl (fun st _ => match st.step? x.slot with | some v => st.endRead { x with step := v } (opInA x.op) | none => st) (s.drew.stageAll x (s.rowSetOut x [t] none)))) ∧
    (∃ s : State, ∃ slot : StepIx, ∃ core : LCore, ∃ x : OpCtx, ∃ t : Tile, ∃ u : State, (s.active slot.val core.val instVector = some x) ∧ (x.atEnd = false ∧ x.run.outbox = [] ∧ s.tripHolds instVector = false ∧ x.run.started = true ∧ opCode x.op = 6) ∧ (opHoldA x.op = false ∧ x.run.wbytes = [] ∧ vecTiles x.op = 1) ∧ (x.head (opInA x.op) = some t ∧ rowSetOk x.op [t] none = true) ∧ (u = (List.range 1).foldl (fun st _ => match st.step? x.slot with | some v => st.endRead { x with step := v } (opInA x.op) | none => st) (s.drew.stageAll x (s.rowSetOut x [t] none)))) ∧
    (∃ s : State, ∃ slot : StepIx, ∃ core : LCore, ∃ x : OpCtx, ∃ ts : List Tile, ∃ u : State, (s.active slot.val core.val instVector = some x) ∧ (x.atEnd = false ∧ x.run.outbox = [] ∧ s.tripHolds instVector = false ∧ x.run.started = true ∧ opCode x.op = 4) ∧ ((List.range (vecTiles x.op)).mapM (fun i => x.head (opInA x.op) i) = some ts ∧ rowSetOk x.op ts none = true) ∧ (u = (List.range (if opHoldA x.op && !x.lastRep then 0 else vecTiles x.op)).foldl (fun st _ => match st.step? x.slot with | some v => st.endRead { x with step := v } (opInA x.op) | none => st) (s.drew.stageAll x (s.rowSetOut x ts none)))) ∧
    (∃ s : State, ∃ slot : StepIx, ∃ core : LCore, ∃ x : OpCtx, ∃ ts : List Tile, ∃ g : Tile, ∃ u : State, (s.active slot.val core.val instVector = some x) ∧ (x.atEnd = false ∧ x.run.outbox = [] ∧ s.tripHolds instVector = false ∧ x.run.started = true ∧ opCode x.op = 5) ∧ ((List.range (vecTiles x.op)).mapM (fun i => x.head (opInA x.op) i) = some ts ∧ x.head (opInB x.op) = some g ∧ rowSetOk x.op ts (some g) = true) ∧ (u = (List.range (if opHoldA x.op && !x.lastRep then 0 else vecTiles x.op)).foldl (fun st _ => match st.step? x.slot with | some v => st.endRead { x with step := v } (opInA x.op) | none => st) (s.drew.stageAll x (s.rowSetOut x ts (some g))))) ∧
    (∃ s : State, ∃ slot : StepIx, ∃ core : LCore, ∃ x : OpCtx, ∃ t : Tile, ∃ es : List Expert, (s.active slot.val core.val instDispatch = some x) ∧ (x.atEnd = false ∧ x.run.outbox = [] ∧ s.tripHolds instDispatch = false ∧ x.run.started = true ∧ opCode x.op = 1) ∧ (x.head (opInA x.op) = some t ∧ (t.format == 1 || t.format == 2) = true ∧ t.layout = 0) ∧ (s.addrCheck [(opF x.op 2 39 0, 4 * t.cols)] = none) ∧ (es = s.experts (opF x.op 2 39 0) t.cols) ∧ (es.any (fun e => e.valid && decide (x.step.ranks ≤ e.rank)) = false) ∧ (s.addrCheck [(opF x.op 3 39 0, (s.routeBuild x t es).1.length)] = none)) := by
  refine ⟨?_, ?_, ?_, ?_, ?_, ?_, ?_, ?_⟩
  · exact ⟨wOp 0x90 (wWord 1 0 0xFFF 2 0) (2 * 2 ^ 42) 0 0 [(0, wQueue { format := 2, payload := [0, 0] })], 3, 1, 0, _, { format := 2, payload := [0, 0] }, _, _, rfl, by decide +kernel, by decide +kernel, by decide +kernel, rfl, rfl⟩
  · exact ⟨wOp 0x50 (wWord 1 0 0xFFF 2 0) (3 * 2 ^ 42) 0 0 [(0, wQueue { format := 1, payload := [0, 0, 0, 0] })], 3, 1, _, { format := 1, payload := [0, 0, 0, 0] }, _, rfl, by decide +kernel, by decide +kernel, rfl⟩
  · exact ⟨wOp 0x50 (wWord 2 0 0xFFF 2 0) 0 0 0 [(0, wQueue { format := 1, payload := [0, 0, 0, 0] })], 3, 1, _, { format := 1, payload := [0, 0, 0, 0] }, _, rfl, by decide +kernel, by decide +kernel, rfl⟩
  · exact ⟨wOp 0x50 (wWord 3 0 0xFFF 2 0) 0 0 0 [(0, wQueue { format := 1, payload := [0, 0, 0, 0] })], 3, 1, _, { format := 1, payload := [0, 0, 0, 0] }, _, rfl, by decide +kernel, by decide +kernel, by decide +kernel, rfl⟩
  · exact ⟨wOp 0x50 (wWord 6 0 0xFFF 2 0) 0 0 0 [(0, wQueue { format := 1, payload := [0, 0, 0, 0] })], 3, 1, _, { format := 1, payload := [0, 0, 0, 0] }, _, rfl, by decide +kernel, by decide +kernel, by decide +kernel, rfl⟩
  · exact ⟨wOp 0x50 (wWord 4 0 0xFFF 2 0) 0 0 0 [(0, wQueue { format := 1, payload := [0, 0, 0, 0] })], 3, 1, _, [{ format := 1, payload := [0, 0, 0, 0] }], _, rfl, by decide +kernel, by decide +kernel, rfl⟩
  · exact ⟨wOp 0x50 (wWord 5 0 1 2 0) 0 0 0 [(0, wQueue { format := 1, payload := [0, 0, 0, 0] }), (1, wQueue { format := 1, payload := [0, 0, 0, 0] })], 3, 1, _, [{ format := 1, payload := [0, 0, 0, 0] }], { format := 1, payload := [0, 0, 0, 0] }, _, rfl, by decide +kernel, by decide +kernel, rfl⟩
  · exact ⟨State.setF (wOp 0x70 (wWord 1 0 0xFFF 2 0) 1 0 64 [(0, wQueue { format := 1, payload := [0, 0, 0, 0] })]) fTOP_READY_SPAN 1, 3, 1, _, { format := 1, payload := [0, 0, 0, 0] }, _, rfl, by decide +kernel, by decide +kernel, by decide +kernel, rfl, by decide +kernel, by decide +kernel⟩

/-- A state and operands that meet the hypotheses of each clause of RemoteTargetCompletes. -/
theorem test_witness_RemoteTargetCompletes :
    (∃ s : State, ∃ src : Endpoint, ∃ hits : List EccHit, ∃ fr : Frame, ∃ u : State, ∃ w : State, ∃ h : ReqHdr, ∃ i : Nat, (s.takeFrame 6 src.toNat = some (fr, u)) ∧ (h = hdrOf fr.body) ∧ (u.matchStep h.slice h.seq h.attempt = .run i ∧ h.clean false = true ∧ u.rmtError false h.addr h.len = none) ∧ (w = (u.access h.addr h.len false true).ecc i h.addr h.len hits)) ∧
    (∃ s : State, ∃ src : Endpoint, ∃ fr : Frame, ∃ u : State, ∃ w : State, ∃ h : ReqHdr, ∃ i : Nat, (s.takeFrame 7 src.toNat = some (fr, u)) ∧ (h = hdrOf fr.body) ∧ (u.matchStep h.slice h.seq h.attempt = .run i ∧ h.clean false = true ∧ u.rmtError false h.addr h.len = none ∧ 16 + h.len ≤ fr.body.length) ∧ (w = u.rmtWrite h (byteField fr.body 16 h.len) (ceilDiv (16 + h.len) 64))) ∧
    (∃ s : State, ∃ src : Endpoint, ∃ fr : Frame, ∃ u : State, ∃ h : ReqHdr, ∃ i : Nat, ∃ r : State × Nat × Bool, (s.takeFrame 8 src.toNat = some (fr, u)) ∧ (h = hdrOf fr.body) ∧ (u.matchStep h.slice h.seq h.attempt = .run i ∧ h.clean true = true ∧ u.rmtError false h.addr h.word = none ∧ aligned h.word h.addr = true) ∧ (h.arg % 16 < 7 ∧ (h.arg % 16 == 6 && h.word == 8) = false) ∧ (r = u.rmtAtomic h.addr (h.arg % 16) (h.word == 8) (recNat fr.body 16 8) (recNat fr.body 24 8))) ∧
    (∃ s : State, ∃ src : Endpoint, ∃ fr : Frame, ∃ u : State, ∃ w : State, ∃ h : ReqHdr, ∃ i : Nat, (s.takeFrame 0x0C src.toNat = some (fr, u)) ∧ (h = hdrOf fr.body) ∧ (u.matchStep h.slice h.seq h.attempt = .run i ∧ h.clean false = true ∧ u.rmtError true h.addr h.len = none ∧ 16 + h.len ≤ fr.body.length) ∧ (w = u.rmtWrite h (byteField fr.body 16 h.len) (ceilDiv (16 + h.len) 64)) ∧ (w.rmt.acks.any (fun e => e.src == fr.src && e.id == h.id) = false ∧ w.rmt.acks.length < 1024)) ∧
    (∃ s : State, ∃ src : Endpoint, ∃ reqId : Half, ∃ e : AckEntry, (s.rmt.acks.find? (fun e => e.src == src.toNat && e.id == reqId.toNat) = some e) ∧ (16384 ≤ e.bytes ∨ e.since + 500 ≤ s.time.nowNs)) ∧
    (∃ s : State, ∃ span : SpanIx, ∃ c : CombLine, (s.rmt.comb.find? (·.span == span.val) = some c) ∧ (c.usedAt + 1000 ≤ s.time.nowNs)) ∧
    (∃ s : State, ∃ span : SpanIx, ∃ r : ResetRun, ∃ u : State, ∃ w : State, (s.faults.resets.find? (fun r => r.awaitWb.contains span.val) = some r) ∧ (u = ((((s.rmt.comb.filter (·.span == span.val)).foldl State.flushComb s).span span.val).cache.flatMap fun e => e.2.filter (·.dirty)).foldl (fun st c => st.serve span.val (c.line * 256)) ((s.rmt.comb.filter (·.span == span.val)).foldl State.flushComb s)) ∧ (w = u.setFaults { u.faults with resets := mapFirst (fun x => x.awaitWb.contains span.val) (fun x => { x with awaitWb := x.awaitWb.filter (· != span.val), entered := (x.awaitWb.filter (· != span.val)).isEmpty }) u.faults.resets })) := by
  refine ⟨?_, ?_, ?_, ?_, ?_, ?_, ?_⟩
  · exact ⟨wReq 6 (List.replicate 16 0), 6, [], _, _, _, _, 3, rfl, rfl, by decide +kernel, rfl⟩
  · exact ⟨wReq 7 (List.replicate 17 0), 6, _, _, _, _, 3, rfl, rfl, by decide +kernel, rfl⟩
  · exact ⟨wReq 8 (List.replicate 32 0), 6, _, _, _, 3, _, rfl, rfl, by decide +kernel, by decide +kernel, rfl⟩
  · exact ⟨wReq 0x0C (List.replicate 17 0), 6, _, _, _, _, 3, rfl, rfl, by decide +kernel, rfl, by decide +kernel⟩
  · exact ⟨{ rmt := { acks := [⟨6, 5, 20000, 0⟩] } }, 6, 5, ⟨6, 5, 20000, 0⟩, by decide +kernel, by decide +kernel⟩
  · exact ⟨{ rmt := { comb := [⟨1, 5, 0⟩] }, time := { nowNs := 2000 } }, 1, ⟨1, 5, 0⟩, by decide +kernel, by decide +kernel⟩
  · exact ⟨{ faults := { resets := [{ level := 3, doms := [], awaitWb := [2] }] } }, 2, _, _, _, rfl, rfl, rfl⟩

/-- A state and operands that meet the hypotheses of each clause of QueuesBetweenDevicesAndWait. -/
theorem test_witness_QueuesBetweenDevicesAndWait :
    (∃ s : State, ∃ slot : StepIx, ∃ core : LCore, ∃ receive : Bool, ∃ ix : Fin 4, ∃ x : OpCtx, ∃ t : Tile, ∃ v : Queue, ∃ w : TxQueue, (receive = false ∧ s.rmtBusy slot.val core.val (instSend+ix.val) = false) ∧ (s.active slot.val core.val (instSend+ix.val) = some x) ∧ (x.atEnd = false ∧ x.run.outbox = [] ∧ s.tripHolds (instSend+ix.val) = false ∧ x.run.started = true ∧ opCode x.op = 1) ∧ (x.step.queue? (opInA x.op) = some v ∧ s.txOf x.slot (opInA x.op) = some w ∧ w.sent < w.granted) ∧ (x.head (opInA x.op) = some t)) ∧
    (∃ s : State, ∃ slot : StepIx, ∃ core : LCore, ∃ receive : Bool, ∃ ix : Fin 4, ∃ x : OpCtx, ∃ u : State, ∃ y : OpCtx, (receive = true ∧ s.rmtBusy slot.val core.val (instReceive+ix.val) = false) ∧ (s.active slot.val core.val (instReceive+ix.val) = some x) ∧ (x.atEnd = false ∧ opCode x.op = 1) ∧ (u = s.startOp x (queueRxOk x)) ∧ (u.active slot.val core.val (instReceive+ix.val) = some y)) ∧
    (∃ s : State, ∃ src : Endpoint, ∃ fr : Frame, ∃ u : State, ∃ i : Nat, ∃ t : Step, ∃ v : Queue, ∃ w : TxQueue, ∃ q : Nat, (s.takeFrame 5 src.toNat = some (fr, u)) ∧ (u.steps.slots.find? (fun e => e.2.phase == .running && e.2.slice == recNat fr.body 0 2 && e.2.seq % 65536 == recNat fr.body 2 2 && e.2.attempt == recBits fr.body 4 1 3 0) = some (i, t)) ∧ (q = recBits fr.body 6 2 11 0 ∧ t.queue? q = some v ∧ v.kind = 2 ∧ v.consInst / 16 = 0xB) ∧ (u.txOf i q = some w)) ∧
    (∃ s : State, ∃ src : Endpoint, ∃ fr : Frame, ∃ u : State, ∃ r : RxQueue, ∃ t : Step, ∃ v : Queue, ∃ b : Nat, (s.takeFrame 4 src.toNat = some (fr, u)) ∧ (fr.cls = 5 ∧ b = recNat fr.body 0 8 ∧ u.rmt.rx.find? (fun r => r.chans.contains (b % 4096)) = some r) ∧ (u.step? r.slot = some t ∧ t.queue? r.queue = some v) ∧ (t.phase = .running ∧ u.rankEndpoint t.slice v.peerRank = fr.src ∧ t.attempt % 2 = b / 4096 % 2)) ∧
    (∃ s : State, ∃ slot : StepIx, ∃ core : LCore, ∃ ix : Fin 2, ∃ x : OpCtx, (s.active slot.val core.val (instWait+ix.val) = some x) ∧ (x.atEnd = false ∧ x.run.outbox = [] ∧ s.tripHolds (instWait+ix.val) = false ∧ x.run.started = true ∧ opCode x.op = 1) ∧ (s.arrival (opF x.op 1 45 32) < opF x.op 2 63 0)) ∧
    (∃ s : State, ∃ slot : StepIx, ∃ core : LCore, ∃ ix : Fin 2, ∃ x : OpCtx, (s.active slot.val core.val (instWait+ix.val) = some x) ∧ (x.atEnd = false ∧ x.run.outbox = [] ∧ s.tripHolds (instWait+ix.val) = false ∧ x.run.started = true ∧ opCode x.op = 1) ∧ (opF x.op 2 63 0 ≤ s.arrival (opF x.op 1 45 32))) := by
  refine ⟨?_, ?_, ?_, ?_, ?_, ?_⟩
  · exact ⟨{ wOp 0xB0 (wWord 1 0 0xFFF 0xFFF 0) 0 0 0 [(0, wQueue { format := 1, payload := [0, 0, 0, 0] })] with rmt := { tx := [⟨3, 0, 9, 1, 0⟩] } }, 3, 1, false, 0, _, { format := 1, payload := [0, 0, 0, 0] }, wQueue { format := 1, payload := [0, 0, 0, 0] }, ⟨3, 0, 9, 1, 0⟩, by decide +kernel, rfl, by decide +kernel, by decide +kernel, by decide +kernel⟩
  · exact ⟨wFresh 0xC0 (wWord 1 0xFFF 0xFFF 0 0) 0 0 0 [(0, {})], 3, 1, true, 0, _, _, _, by decide +kernel, rfl, by decide +kernel, rfl, rfl⟩
  · exact ⟨{ wReq 5 (List.replicate 12 0) with rmt := { tx := [⟨3, 0, 9, 1, 0⟩] }, steps := { slots := [(3, { phase := .running, queues := [(0, { kind := 2, consInst := 0xB0 })] })] } }, 6, _, _, 3, _, { kind := 2, consInst := 0xB0 }, ⟨3, 0, 9, 1, 0⟩, 0, rfl, rfl, by decide +kernel, by decide +kernel⟩
  · exact ⟨{ wSlice 0 { src := 6, cls := 5, typ := 4, body := List.replicate 64 0 } with rmt := { rx := [{ slot := 3, core := 1, inst := 0xC0, queue := 0, chans := [0], granted := 1 }] }, steps := { slots := [(3, { phase := .running, queues := [(0, { kind := 3, peerRank := 1 })] })] } }, 6, _, _, _, _, _, _, rfl, ⟨rfl, rfl, rfl⟩, ⟨rfl, rfl⟩, by decide +kernel⟩
  · exact ⟨wOp 0xE0 (wWord 1 0xFFF 0xFFF 2 0) 0 5 0 [], 3, 1, 0, _, rfl, by decide +kernel, by decide +kernel⟩
  · exact ⟨wOp 0xE0 (wWord 1 0xFFF 0xFFF 2 0) 0 0 0 [], 3, 1, 0, _, rfl, by decide +kernel, by decide +kernel⟩

/-- A state and operands that meet the hypotheses of each clause of CheckStationCompletes. -/
theorem test_witness_CheckStationCompletes :
    (∃ s : State, ∃ slot : StepIx, ∃ core : LCore, ∃ ix : Fin 2, ∃ x : OpCtx, ∃ t : Tile, ∃ r : StreamRun, ∃ v : Queue, ∃ a : Nat, ∃ tail : List Byte, ∃ n : Tile, (s.active slot.val core.val (instCheck+ix.val) = some x) ∧ (x.atEnd = false ∧ x.run.outbox = [] ∧ s.tripHolds (instCheck+ix.val) = false ∧ x.run.started = true ∧ opCode x.op = 1) ∧ (s.isSet (fCHK_CFG_VALID (chkPreset x.op)) = true ∧ x.head (opInA x.op) = some t) ∧ (x.step.streams[x.chkStream]? = some r ∧ x.step.queue? (opOut x.op) = some v ∧ s.aliveOf x r.id = some a) ∧ (n = { t with tag := v.emitted % 65536, last := s.isLastTile x } ∧ tail = trailerTail a r.id x.step.seq x.step.attempt)) ∧
    (∃ s : State, ∃ slot : StepIx, ∃ core : LCore, ∃ ix : Fin 2, ∃ x : OpCtx, ∃ t : Tile, ∃ r : StreamRun, ∃ a : Nat, ∃ tr : List Byte, (s.active slot.val core.val (instCheck+ix.val) = some x) ∧ (x.atEnd = false ∧ x.run.outbox = [] ∧ s.tripHolds (instCheck+ix.val) = false ∧ x.run.started = true ∧ opCode x.op = 2) ∧ (s.isSet (fCHK_CFG_VALID (chkPreset x.op)) = true ∧ x.head (opInA x.op) = some t) ∧ (x.step.streams[x.chkStream]? = some r ∧ s.aliveOf x r.id = some a ∧ tr = t.payload.drop (t.payload.length - 16)) ∧ (recNat tr 12 2 = x.step.seq % 65536 ∧ recBits tr 14 1 3 0 = x.step.attempt ∧ recNat tr 10 2 = r.id ∧ recNat tr 8 2 = a) ∧ (recNat tr 0 8 = checkValue (s.preset (chkPreset x.op)) t (t.payload.take (t.payload.length - 16)) (tr.drop 8))) := by
  refine ⟨?_, ?_⟩
  · exact ⟨State.setF (wOp 0xA0 (wWord 1 0 0xFFF 2 0) 0 0 0 [(0, wQueue { format := 1, payload := [0, 0, 0, 0] }), (2, {})]) (fCHK_CFG_VALID 0) 1, 3, 1, 0, _, { format := 1, payload := [0, 0, 0, 0] }, { id := 0 }, {}, 0, _, _, rfl, by decide +kernel, by decide +kernel, by decide +kernel, ⟨rfl, rfl⟩⟩
  · exact ⟨State.setF (wOp 0xA0 (wWord 2 0 0xFFF 2 0) 0 0 0 [(0, wQueue { format := 1, payload := [0, 0, 0, 0, 179, 24, 236, 234, 0, 0, 0, 0, 0, 0, 0, 0, 0, 0, 0, 0] }), (2, {})]) (fCHK_CFG_VALID 0) 1, 3, 1, 0, _, { format := 1, payload := [0, 0, 0, 0, 179, 24, 236, 234, 0, 0, 0, 0, 0, 0, 0, 0, 0, 0, 0, 0] }, { id := 0 }, 0, _, rfl, by decide +kernel, by decide +kernel, ⟨by decide +kernel, by decide +kernel, rfl⟩, by decide +kernel, by decide +kernel⟩

/-- A state and operands that meet the hypotheses of each clause of RemoteOpsComplete. -/
theorem test_witness_RemoteOpsComplete :
    (∃ s : State, ∃ slot : StepIx, ∃ core : LCore, ∃ ix : Fin 4, ∃ x : OpCtx, ∃ rank : Nat, ∃ o : Nat, ∃ t : Tile, ∃ r : State × Option Nat, (s.rmtBusy slot.val core.val (instSend+ix.val) = false) ∧ (s.active slot.val core.val (instSend+ix.val) = some x) ∧ (x.atEnd = false ∧ x.run.outbox = [] ∧ s.tripHolds (instSend+ix.val) = false ∧ x.run.started = true ∧ opCode x.op = 2) ∧ (s.gAddr x.step.slice (opF x.op 2 63 0) = some (rank, o) ∧ x.head (opInA x.op) = some t ∧ rank ≠ x.step.rank) ∧ ((cut4k t.payload.length).all (s.piecePasses x rank o permWr) = true) ∧ (r = (s.endInA x).awaitRes x (doneTile x.repNo) 1)) ∧
    (∃ s : State, ∃ slot : StepIx, ∃ core : LCore, ∃ ix : Fin 4, ∃ x : OpCtx, ∃ rank : Nat, ∃ o : Nat, ∃ r : State × Option Nat, (s.rmtBusy slot.val core.val (instReceive+ix.val) = false) ∧ (s.active slot.val core.val (instReceive+ix.val) = some x) ∧ (x.atEnd = false ∧ x.run.outbox = [] ∧ s.tripHolds (instReceive+ix.val) = false ∧ x.run.started = true ∧ opCode x.op = 2) ∧ (s.gAddr x.step.slice (opF x.op 2 63 0) = some (rank, o) ∧ rank ≠ x.step.rank) ∧ ((cut4k (opF x.op 1 15 0 + 1)).all (s.piecePasses x rank o permRd) = true) ∧ (r = s.awaitRes x x.getTile (cut4k (opF x.op 1 15 0 + 1)).length)) ∧
    (∃ s : State, ∃ slot : StepIx, ∃ core : LCore, ∃ ix : Fin 4, ∃ x : OpCtx, ∃ t : Tile, ∃ r : State × Option Nat, (s.rmtBusy slot.val core.val (instSend+ix.val) = false) ∧ (s.active slot.val core.val (instSend+ix.val) = some x) ∧ (x.atEnd = false ∧ x.run.outbox = [] ∧ s.tripHolds (instSend+ix.val) = false ∧ x.run.started = true ∧ opCode x.op = 4) ∧ (x.head (opInA x.op) = some t ∧ t.format = 0x0B ∧ t.layout = 0 ∧ t.cols = 6) ∧ (r = s.awaitRes x { rows := t.rows, cols := 2, format := 0x0B, layout := 0, poison := t.poison, payload := List.replicate (8 * t.rows) 0 } t.rows) ∧ ((r.1.atomicRows x r.2 t).2 = false)) ∧
    (∃ s : State, ∃ slot : StepIx, ∃ core : LCore, ∃ ix : Fin 4, ∃ x : OpCtx, (s.rmtBusy slot.val core.val (instSend+ix.val) = false) ∧ (s.active slot.val core.val (instSend+ix.val) = some x) ∧ (x.atEnd = false ∧ x.run.outbox = [] ∧ s.tripHolds (instSend+ix.val) = false ∧ x.run.started = true ∧ opCode x.op = 5) ∧ (s.unacked x.slot x.core x.inst = false)) ∧
    (∃ s : State, ∃ slot : StepIx, ∃ core : LCore, ∃ ix : Fin 4, ∃ x : OpCtx, ∃ rank : Nat, ∃ o : Nat, ∃ n : Nat, ∃ r : State × Option Nat, (s.rmtBusy slot.val core.val (instSend+ix.val) = false) ∧ (s.active slot.val core.val (instSend+ix.val) = some x) ∧ (x.atEnd = false ∧ x.run.outbox = [] ∧ s.tripHolds (instSend+ix.val) = false ∧ x.run.started = true ∧ opCode x.op = 6) ∧ (s.gAddr x.step.slice (opF x.op 2 63 0) = some (rank, o) ∧ rank ≠ x.step.rank ∧ n = (if opF x.op 1 47 47 = 1 then 8 else 4) ∧ o % n = 0) ∧ (s.rmt.copies.any (fun c => c.slot == x.slot && c.core == x.core && c.inst == x.inst && c.dst == s.rankEndpoint x.step.slice rank && decide (c.acked < c.total)) = false) ∧ (s.windowOk x.step.slice false rank o n permWr = true) ∧ (r = s.awaitRes x (doneTile x.repNo) 1)) ∧
    (∃ s : State, ∃ slot : StepIx, ∃ core : LCore, ∃ ix : Fin 4, ∃ x : OpCtx, ∃ e : Nat, ∃ rank : Nat, ∃ o : Nat, ∃ i : State × Nat, ∃ q : State × Option Nat, ∃ c : CopyRun, (s.rmtBusy slot.val core.val (instSend+ix.val) = false) ∧ (s.active slot.val core.val (instSend+ix.val) = some x) ∧ (x.atEnd = false ∧ x.run.outbox = [] ∧ s.tripHolds (instSend+ix.val) = false ∧ x.run.started = true ∧ opCode x.op = 3) ∧ (opInA x.op ≠ noQ ∧ (x.head (opInA x.op)).isSome = true ∧ opF x.op 1 47 47 = 0) ∧ (s.freeEngine (x.core / 32) = some e ∧ s.gAddr x.step.slice (opF x.op 3 63 0) = some (rank, o)) ∧ (s.windowOk x.step.slice false rank ((o + x.repNo * (opF x.op 1 29 0 + 1)) % 2 ^ 40) (opF x.op 1 29 0 + 1) permWr = true) ∧ (q = (s.endInA x).awaitRes x (doneTile x.repNo) 1 ∧ i = q.1.takeId) ∧ (c = x.copyRun e i.2 (s.rankEndpoint x.step.slice rank) ((o + x.repNo * (opF x.op 1 29 0 + 1)) % 2 ^ 40) (opF x.op 1 29 0 + 1) s.time.nowNs q.2)) ∧
    (∃ s : State, ∃ die : Fin 4, ∃ engine : Fin 16, ∃ c : CopyRun, (s.rmt.copies.find? (fun c => c.die == die.val && c.eng == engine.val && decide (c.total ≤ c.acked)) = some c)) := by
  refine ⟨?_, ?_, ?_, ?_, ?_, ?_, ?_⟩
  · exact ⟨wWin (wOp 0xB0 (wWord 2 0 0xFFF 2 0) 0 (2 ^ 40) 0 [(0, wQueue { format := 1, payload := [0, 0, 0, 0] })]), 3, 1, 0, _, 1, 0, { format := 1, payload := [0, 0, 0, 0] }, _, by decide +kernel, rfl, by decide +kernel, by decide +kernel, by decide +kernel, rfl⟩
  · exact ⟨wWin (wOp 0xC0 (wWord 2 0xFFF 0xFFF 2 0) (1 * 2 ^ 42) (2 ^ 40) 0 []), 3, 1, 0, _, 1, 0, _, by decide +kernel, rfl, by decide +kernel, by decide +kernel, by decide +kernel, rfl⟩
  · exact ⟨wWin (wOp 0xB0 (wWord 4 0 0xFFF 2 0) 0 0 0 [(0, wQueue { rows := 1, cols := 6, format := 0x0B, layout := 0, payload := leBytes 8 (2 ^ 40) ++ List.replicate 16 0 })]), 3, 1, 0, _, { rows := 1, cols := 6, format := 0x0B, layout := 0, payload := leBytes 8 (2 ^ 40) ++ List.replicate 16 0 }, _, by decide +kernel, rfl, by decide +kernel, by decide +kernel, rfl, by decide +kernel⟩
  · exact ⟨wOp 0xB0 (wWord 5 0xFFF 0xFFF 2 0) 0 0 0 [], 3, 1, 0, _, by decide +kernel, rfl, by decide +kernel, by decide +kernel⟩
  · exact ⟨wWin (wOp 0xB0 (wWord 6 0xFFF 0xFFF 2 0) 0 (2 ^ 40) 0 []), 3, 1, 0, _, 1, 0, 4, _, by decide +kernel, rfl, by decide +kernel, by decide +kernel, by decide +kernel, by decide +kernel, rfl⟩
  · exact ⟨wWin (wOp 0xB0 (wWord 3 0 0xFFF 2 0) 15 0 (2 ^ 40) [(0, wQueue { format := 1, payload := [0, 0, 0, 0] })]), 3, 1, 0, _, 0, 1, 0, _, _, _, by decide +kernel, rfl, by decide +kernel, by decide +kernel, by decide +kernel, by decide +kernel, ⟨rfl, rfl⟩, rfl⟩
  · exact ⟨{ rmt := { copies := [wCopyRun] } }, 0, 2, wCopyRun, by decide +kernel⟩

/-- A state and operands that meet the hypotheses of each clause of RemoteResponsesAndEngines. -/
theorem test_witness_RemoteResponsesAndEngines :
    (∃ s : State, ∃ span : SpanIx, ∃ w : RmtWait, (s.rmt.waiting.find? (·.req.span == span.val) = some w) ∧ (s.engineFree span.val = true)) ∧
    (∃ s : State, ∃ src : Endpoint, ∃ fr : Frame, ∃ u : State, ∃ r : RmtReq, (s.takeFrame 9 src.toNat = some (fr, u)) ∧ (u.reqOf fr 6 = some r)) ∧
    (∃ s : State, ∃ src : Endpoint, ∃ fr : Frame, ∃ u : State, ∃ r : RmtReq, (s.takeFrame 0x0A src.toNat = some (fr, u)) ∧ (u.reqOf fr 7 = some r)) ∧
    (∃ s : State, ∃ src : Endpoint, ∃ fr : Frame, ∃ u : State, ∃ c : CopyRun, ∃ d : CopyRun, (s.takeFrame 0x0A src.toNat = some (fr, u)) ∧ (u.reqOf fr 7 = none) ∧ (u.rmt.copies.find? (fun c => c.id == recNat fr.body 0 2 && c.dst == fr.src) = some c) ∧ (d = { c with acked := min c.sent (c.acked + recNat fr.body 4 4), sentAt := u.time.nowNs })) ∧
    (∃ s : State, ∃ src : Endpoint, ∃ fr : Frame, ∃ u : State, ∃ r : RmtReq, (s.takeFrame 0x0B src.toNat = some (fr, u)) ∧ (u.reqOf fr 8 = some r)) ∧
    (∃ s : State, ∃ src : Endpoint, ∃ fr : Frame, ∃ u : State, ∃ r : RmtReq, (s.takeFrame 0x0E src.toNat = some (fr, u)) ∧ (u.rmt.reqs.find? (fun r => r.id == recNat fr.body 0 2 && r.dst == fr.src) = some r)) ∧
    (∃ s : State, ∃ reqId : Half, ∃ r : RmtReq, ∃ t : Step, (s.rmt.reqs.find? (·.id == reqId.toNat) = some r) ∧ (r.sentAt + s.rmtLimit ≤ s.time.nowNs) ∧ ((s.dropReq reqId.toNat).step? r.slot = some t ∧ t.phase = .running)) := by
  refine ⟨?_, ?_, ?_, ?_, ?_, ?_, ?_⟩
  · exact ⟨{ rmt := { waiting := [{ req := wReqOut 6, frames := [] }] } }, 0, { req := wReqOut 6, frames := [] }, by decide +kernel, by decide +kernel⟩
  · exact ⟨{ wReq 9 (List.replicate 12 0) with rmt := { reqs := [wReqOut 6] } }, 6, _, _, _, rfl, rfl⟩
  · exact ⟨{ wReq 0x0A (List.replicate 8 0) with rmt := { reqs := [wReqOut 7] } }, 6, _, _, _, rfl, rfl⟩
  · exact ⟨{ wReq 0x0A (List.replicate 8 0) with rmt := { copies := [wCopyRun] } }, 6, _, _, wCopyRun, _, rfl, rfl, rfl, rfl⟩
  · exact ⟨{ wReq 0x0B (List.replicate 16 0) with rmt := { reqs := [wReqOut 8] } }, 6, _, _, _, rfl, rfl⟩
  · exact ⟨{ wReq 0x0E (List.replicate 16 0) with rmt := { reqs := [wReqOut 6] } }, 6, _, _, _, rfl, rfl⟩
  · exact ⟨{ time := { nowNs := 100000000000 }, rmt := { reqs := [wReqOut 6] }, steps := { slots := [(3, { phase := .running })] } }, 0, wReqOut 6, _, rfl, by decide +kernel, rfl, rfl⟩

/-- A state and operands that meet the hypotheses of each clause of WindowsAndSlices. -/
theorem test_witness_WindowsAndSlices :
    (∃ s : State, ∃ sq : RingNo, ∃ data : List Byte, ∃ f : InFlight, ∃ i : Nat, ∃ n : Nat, (s.nextCmd sq.toNat 0x6B = some f) ∧ (i = recNat f.desc 8 2 ∧ n = recNat f.desc 10 2 ∧ 0 < n ∧ i + n ≤ 512)) ∧
    (∃ s : State, ∃ sq : RingNo, ∃ data : Option (List Byte), ∃ f : InFlight, ∃ u : State, ∃ e : List Byte, (s.nextCmd sq.toNat 0x6C = some f) ∧ (s.sliceBusy (recNat f.desc 8 2) = false) ∧ (s.hostGet f (recNat f.desc 16 8) 32 data = (u, some e)) ∧ (sliceGood e = true ∧ recBits e 0 1 0 0 ≠ 0 ∧ u.sliceOk e = true)) := by
  refine ⟨?_, ?_⟩
  · exact ⟨wRing (wFlight 0x6B [(10, 1)]), 0, List.replicate 32 0, wFlight 0x6B [(10, 1)], 0, 1, by decide +kernel, by decide +kernel⟩
  · exact ⟨wBlank (wLive [wFlight 0x6C []]), 0, some (1 :: List.replicate 31 0), wFlight 0x6C [], _, 1 :: List.replicate 31 0, by decide +kernel, by decide +kernel, rfl, by decide +kernel⟩

/-- A state and operands that meet the hypotheses of each clause of CollectArmsAndStarts. -/
theorem test_witness_CollectArmsAndStarts :
    (∃ s : State, ∃ slot : StepIx, ∃ core : LCore, ∃ x : OpCtx, ∃ y : OpCtx, ∃ u : State, (s.active slot.val core.val instCollect = some x) ∧ (x.atEnd = false ∧ opCode x.op = 1 ∧ u = s.startOp x (runOk x)) ∧ (u.active slot.val core.val instCollect = some y ∧ u.mayArm core.val = true) ∧ (u.collAddr [(opF y.op 2 39 0, 128)] = none) ∧ ((u.collOf y (opF y.op 2 39 0)).ok y.step = true ∧ u.rangeFault y.step (u.collOf y (opF y.op 2 39 0)).ranges = none)) ∧
    (∃ s : State, ∃ slot : StepIx, ∃ seq : Fin 16, ∃ core : Nat, ∃ x : OpCtx, ∃ y : OpCtx, ∃ u : State, (s.col.waiting.find? (fun c => c / 8 == seq.val && s.mayArm c) = some core) ∧ (s.active slot.val core instCollect = some x) ∧ (x.atEnd = false ∧ opCode x.op = 1 ∧ u = s.startOp x (runOk x)) ∧ (u.active slot.val core instCollect = some y ∧ u.mayArm core = true) ∧ (u.collAddr [(opF y.op 2 39 0, 128)] = none) ∧ ((u.collOf y (opF y.op 2 39 0)).ok y.step = true ∧ u.rangeFault y.step (u.collOf y (opF y.op 2 39 0)).ranges = none)) ∧
    (∃ s : State, ∃ core : LCore, ∃ c : Coll, ∃ t : Step, (s.collHead core.val = some c) ∧ (s.step? c.slot = some t ∧ c.started = false ∧ t.phase = .running ∧ c.unequal = false)) ∧
    (∃ s : State, ∃ core : LCore, ∃ c : Coll, ∃ t : Step, (s.collHead core.val = some c) ∧ (s.step? c.slot = some t) ∧ (c.gate = 2 ∧ t.startTime + c.gateNs ≤ s.time.ft)) := by
  refine ⟨?_, ?_, ?_, ?_⟩
  · exact ⟨wRun {}, 3, 1, _, _, _, rfl, ⟨by decide +kernel, by decide +kernel, rfl⟩, ⟨rfl, by decide +kernel⟩, by decide +kernel, by decide +kernel⟩
  · exact ⟨wRun { waiting := [1] }, 3, 0, 1, _, _, _, by decide +kernel, rfl, ⟨by decide +kernel, by decide +kernel, rfl⟩, ⟨rfl, by decide +kernel⟩, by decide +kernel, by decide +kernel⟩
  · exact ⟨{ wReq 0 [] with col := { colls := [{ wColl with started := false }] } }, 1, _, _, rfl, rfl, rfl, rfl, by decide +kernel⟩
  · exact ⟨{ wReq 0 [] with col := { colls := [{ wColl with gate := 2 }] } }, 1, _, _, rfl, rfl, by decide +kernel⟩

/-- A state and operands that meet the hypotheses of each clause of CollectMovesAndEnds. -/
theorem test_witness_CollectMovesAndEnds :
    (∃ s : State, ∃ src : Endpoint, ∃ fr : Frame, ∃ u : State, ∃ no : Nat, ∃ h : Nat, ∃ c : Coll, ∃ w : CollTx, (s.takeColl src.toNat 1 = some (fr, u)) ∧ (u.matchColl fr = .hit no h) ∧ (u.coll? no = some c) ∧ (c.txOf (recBits fr.body 4 1 6 6) h = some w)) ∧
    (∃ s : State, ∃ src : Endpoint, ∃ fr : Frame, ∃ u : State, ∃ w : State, ∃ no : Nat, ∃ h : Nat, ∃ p : Nat, ∃ lo : Nat, ∃ n : Nat, ∃ m : Nat, ∃ bad : Bool, ∃ c : Coll, ∃ r : CollRx, ∃ t : Step, (s.takeColl src.toNat 0 = some (fr, u)) ∧ (u.matchColl fr = .hit no h) ∧ (u.coll? no = some c) ∧ (p = recBits fr.body 4 1 6 6 ∧ lo = recNat fr.body 8 4 ∧ n = recBits fr.body 12 4 11 0 + 1 ∧ bad = (recBits fr.body 12 4 12 12 == 1)) ∧ (c.rxOf p h = some r ∧ u.step? c.slot = some t ∧ r.len = some m) ∧ (lo + n ≤ m ∧ lo + n ≤ r.granted * c.chunk ∧ c.op ≠ 6 ∧ c.reduces = false) ∧ (w = ((u.modColl no fun v => v.setRx { r with heardAt := u.time.nowNs }).progress c.slot c.core instCollect).collPut no (State.collDst ((u.modColl no fun v => v.setRx { r with heardAt := u.time.nowNs }).progress c.slot c.core instCollect) c t.rank p h + lo) (byteField fr.body 16 n) bad)) ∧
    (∃ s : State, ∃ src : Endpoint, ∃ fr : Frame, ∃ u : State, ∃ no : Nat, ∃ h : Nat, ∃ lo : Nat, ∃ n : Nat, ∃ m : Nat, ∃ bad : Bool, ∃ c : Coll, ∃ r : CollRx, ∃ t : Step, (s.takeColl src.toNat 0 = some (fr, u)) ∧ (u.matchColl fr = .hit no h) ∧ (u.coll? no = some c) ∧ (recBits fr.body 4 1 6 6 = 0 ∧ lo = recNat fr.body 8 4 ∧ n = recBits fr.body 12 4 11 0 + 1 ∧ bad = (recBits fr.body 12 4 12 12 == 1)) ∧ (c.rxOf 0 h = some r ∧ u.step? c.slot = some t ∧ r.len = some m) ∧ (lo + n ≤ m ∧ lo + n ≤ r.granted * c.chunk ∧ c.op ≠ 6 ∧ c.reduces = true)) ∧
    (∃ s : State, ∃ src : Endpoint, ∃ entries : List DWord, ∃ fr : Frame, ∃ u : State, ∃ no : Nat, ∃ h : Nat, ∃ c : Coll, ∃ r : CollRx, ∃ t : Step, (s.takeColl src.toNat 2 = some (fr, u)) ∧ (u.matchColl fr = .hit no h) ∧ (u.coll? no = some c) ∧ (c.rxOf 0 h = some r ∧ u.step? c.slot = some t) ∧ (c.op = 6 ∧ c.started = true ∧ recNat fr.body 8 4 ≤ c.rxCap ∧ recNat fr.body 8 4 = u.ldNat (c.area + 64 + 16 * c.memberRank t.rank h) 4)) ∧
    (∃ s : State, ∃ core : LCore, ∃ c : Coll, ∃ v : Coll, ∃ t : Step, ∃ h : Nat, ∃ p : Nat, ∃ lo : Nat, ∃ bytes : List Byte, ∃ bad : Bool, ∃ u : State, (s.collHead core.val = some c) ∧ (s.step? c.slot = some t ∧ c.started = true ∧ (t.phase == .running || t.phase == .prepared) = true) ∧ (((List.range c.size).map fun k => (c.turn + 1 + k) % c.size).find? (fun h => h != c.own && ((s.nextChunk c t.rank h).isSome || c.sizesDue h)) = some h) ∧ (s.nextChunk c t.rank h = some (p, bytes, bad, lo)) ∧ (u = (if c.srcQ then s else s.access ((c.src + c.srcOff h + lo) % 2 ^ 40) bytes.length false true).sendChunk c t h p lo bytes bad) ∧ (u.coll? c.no = some v ∧ v.sizesDue h = false)) ∧
    (∃ s : State, ∃ core : LCore, ∃ c : Coll, ∃ u : State, (s.collHead core.val = some c) ∧ (c.finished = true ∧ c.op ≠ 5) ∧ (u = ((s.setCol { s.col with colls := s.col.colls.filter (·.no != c.no), complete := s.col.complete ++ [(c.slot, c.node, c.rep % 256)] }).bumpWrap (fCOL_SEQ_DONE_COUNT (c.core / 8))).progress c.slot c.core instCollect)) ∧
    (∃ s : State, ∃ core : LCore, ∃ node : Half, ∃ rep : Byte, ∃ peer : Half, ∃ c : Coll, ∃ w : CollTx, (s.col.colls.find? (fun c => c.core == core.val && c.node == node.toNat && c.rep % 256 == rep.toNat) = some c) ∧ (c.txOf 0 peer.toNat = some w)) := by
  refine ⟨?_, ?_, ?_, ?_, ?_, ?_, ?_⟩
  · exact ⟨wCollect wColl (leBytes 4 0 ++ [0x10] ++ List.replicate 11 0), 6, _, _, 5, 1, _, _, rfl, rfl, rfl, rfl⟩
  · exact ⟨wCollect wColl (List.replicate 17 0), 6, _, _, _, 5, 1, 0, 0, 1, 16, false, _, _, _, rfl, rfl, rfl, by decide +kernel, ⟨rfl, rfl, rfl⟩, by decide +kernel, rfl⟩
  · exact ⟨wCollect { wColl with desc := 2 :: wColl.desc.drop 1 } (List.replicate 17 0), 6, _, _, 5, 1, 0, 1, 16, false, _, _, _, rfl, rfl, rfl, by decide +kernel, ⟨rfl, rfl, rfl⟩, by decide +kernel⟩
  · exact ⟨wCollect { wColl with desc := 6 :: wColl.desc.drop 1, area := 4096 } (leBytes 4 0 ++ [0x20] ++ List.replicate 11 0), 6, [], _, _, 5, 1, _, _, _, rfl, rfl, rfl, ⟨rfl, rfl⟩, by decide +kernel⟩
  · exact ⟨wCollect wColl [], 1, _, _, _, 1, 0, 0, List.replicate 16 0, false, _, rfl, ⟨rfl, rfl, rfl⟩, by decide +kernel, by decide +kernel, rfl, ⟨rfl, by decide +kernel⟩⟩
  · exact ⟨{ col := { colls := [{ wColl with selfDone := true, rx := [], tx := [] }] } }, 1, _, _, rfl, by decide +kernel, rfl⟩
  · exact ⟨wCollect wColl [], 1, 0, 0, 1, wColl, _, rfl, rfl⟩

/-- A state and operands that meet the hypotheses of each clause of TimeReferencesAndState. -/
theorem test_witness_TimeReferencesAndState :
    (∃ s : State, ∃ rec : List Byte, (rec.length = 16 ∧ recNat rec 12 4 = crc32c (rec.take 12) ∧ recBits rec 8 1 7 2 = 0 ∧ recNat rec 9 3 = 0 ∧ recBits rec 8 1 0 0 = 1)) ∧
    (∃ s : State, ∃ sec : Nat, ∃ t : State, (s.steer.firstEdge = true ∧ s.todNow = some sec ∧ s.timeState = 0) ∧ (t = (s.setF fTIME_STATUS_PPS_OK 1).setSteer { s.steer with ppsAt := some s.time.nowNs, firstEdge := false })) ∧
    (∃ s : State, ∃ t : Nat, (s.steer.ppsAt = some t ∧ s.isSet fTIME_STATUS_PPS_OK = true ∧ t + 1500000000 ≤ s.time.nowNs)) ∧
    (∃ s : State, ∃ t : State, (s.timeState = 2 ∧ s.sourceGood (if s.isSet fTIME_STATUS_ON_SECONDARY then s.secondary else s.primary) = false) ∧ (s.source = .none) ∧ (t = ((s.bumpSat fTIME_EVENTS_LOCK_LOSS).setTimeState 3).timeRec 2 1 0 0)) ∧
    (∃ s : State, (s.timeState = 3 ∧ s.steer.holdAt + 1000000000 * (s.getF fTIME_SOURCE_HOLDOVER_S) ≤ s.time.nowNs)) ∧
    (∃ s : State, ∃ sq : RingNo, ∃ f : InFlight, ∃ d : List Byte, (s.nextCmd sq.toNat 0x6D = some f) ∧ (recNat f.desc 8 1 = 0) ∧ (d = f.desc ∧ recNat d 9 1 ≠ 3 ∧ recNat d 12 1 ≠ 3 ∧ recNat d 10 1 < 34 ∧ recNat d 13 1 < 34) ∧ ((recNat d 11 1 = 0xFF ∨ recNat d 11 1 < 16) ∧ (recNat d 14 1 = 0xFF ∨ recNat d 14 1 < 16) ∧ 1 ≤ recNat d 15 1 ∧ recNat d 15 1 ≤ 60)) ∧
    (∃ s : State, ∃ sq : RingNo, ∃ f : InFlight, (s.nextCmd sq.toNat 0x6D = some f) ∧ (recNat f.desc 8 1 = 1) ∧ (s.ftSet = true ∧ s.portsUp = false)) ∧
    (∃ s : State, ∃ sq : RingNo, ∃ f : InFlight, (s.nextCmd sq.toNat 0x6D = some f) ∧ (recNat f.desc 8 1 = 2) ∧ (recNat f.desc 9 1 < 34)) := by
  refine ⟨?_, ?_, ?_, ?_, ?_, ?_, ?_, ?_⟩
  · exact ⟨{}, wTod, by decide +kernel⟩
  · exact ⟨{ time := { nowNs := 500000000 }, steer := { tod := some (7, 0), firstEdge := true } }, 7, _, by decide +kernel, rfl⟩
  · exact ⟨State.setF { time := { nowNs := 1600000000 }, steer := { ppsAt := some 5 } } fTIME_STATUS_PPS_OK 1, 5, by decide +kernel⟩
  · exact ⟨State.setF {} fTIME_STATUS_STATE 2, _, by decide +kernel, by decide +kernel, rfl⟩
  · exact ⟨State.setF { time := { nowNs := 100000000000 } } fTIME_STATUS_STATE 3, by decide +kernel⟩
  · exact ⟨wRing (wFlight 0x6D [(15, 10)]), 0, wFlight 0x6D [(15, 10)], wDesc 0x6D [(15, 10)], by decide +kernel, by decide +kernel, by decide +kernel, by decide +kernel⟩
  · exact ⟨State.setF (wRing (wFlight 0x6D [(8, 1)])) fTIME_STATUS_STATE 1, 0, wFlight 0x6D [(8, 1)], by decide +kernel, by decide +kernel, by decide +kernel⟩
  · exact ⟨wRing (wFlight 0x6D [(8, 2)]), 0, wFlight 0x6D [(8, 2)], by decide +kernel, by decide +kernel, by decide +kernel⟩

/-- A state and operands that meet the hypotheses of each clause of TimeExchangeGatesAndPauses. -/
theorem test_witness_TimeExchangeGatesAndPauses :
    (∃ s : State, ∃ port : Port, ∃ sub : Sub, ∃ u : SubPort, (s.echoing port.val sub.val = true ∧ u = s.sub port.val sub.val) ∧ (u.echoAt + (if u.state = 3 then 1000 else 64000) ≤ s.linkClock)) ∧
    (∃ s : State, ∃ port : Port, ∃ sub : Sub, ∃ b : List Byte, ∃ t : State, (s.takeType port.val sub.val 0x06 = some (b, t)) ∧ ((t.sub port.val sub.val).state = 3)) ∧
    (∃ s : State, ∃ port : Port, ∃ sub : Sub, ∃ frac : Half, ∃ b : List Byte, ∃ t : State, ∃ t1 : Nat, ∃ rest : List Nat, ∃ l : List Int, ∃ u : SubPort, (s.takeType port.val sub.val 0x07 = some (b, t)) ∧ (u = t.sub port.val sub.val ∧ u.echoes = t1 :: rest ∧ l = (s.echoTheta port.val b t1 frac.toNat :: u.thetas).take 16)) ∧
    (∃ s : State, ∃ port : Port, (s.ftSet = true)) ∧
    (∃ s : State, ∃ port : Port, ∃ g : Gate, ((s.port port.val).nextGate = some g ∧ g.takeover ≤ s.time.ft)) ∧
    (∃ s : State, ∃ sq : RingNo, ∃ data : Option (List Byte), ∃ f : InFlight, ∃ u : State, ∃ b : List Byte, ∃ g : Gate, (s.nextCmd sq.toNat 0x6E = some f) ∧ (recNat f.desc 8 1 < 34 ∧ 125 ≤ recNat f.desc 12 4 ∧ recNat f.desc 12 4 ≤ 128000 ∧ s.ftSet = true) ∧ (s.hostGet f (recNat f.desc 32 8) 256 data = (u, some b)) ∧ (((List.range 64).any fun i => recBits b (4 * i) 4 26 17 != 0) = false ∧ g = newGate f.desc b s.time.ft)) ∧
    (∃ s : State, ∃ port : Port, ∃ sub : Sub, ∃ c : Cell, ∃ t : State, ∃ u : State, (s.takeLink port.val sub.val 2 = some (c, t)) ∧ (u = (if recBits c.payload 0 1 0 0 = 1 then t.bumpSat fTIME_EVENTS2_PAUSE_K_IGNORED else t)) ∧ (((u.sub port.val sub.val).ignoreUntil.any fun t => decide (s.time.nowNs < t)) = false)) ∧
    (∃ s : State, ∃ port : Port, ∃ sub : Sub, (((s.sub port.val sub.val).paused.any fun e => decide (s.time.nowNs < e.2.1) && decide (e.2.2 + 10000000 ≤ s.time.nowNs)) = true)) ∧
    (∃ s : State, ∃ sq : RingNo, ∃ f : InFlight, (s.nextCmd sq.toNat 0x6D = some f) ∧ (recNat f.desc 8 1 = 3) ∧ (recNat f.desc 9 1 < 34 ∧ (recNat f.desc 10 1 = 0xFF ∨ recNat f.desc 10 1 < 16) ∧ recNat f.desc 11 1 < 64)) := by
  refine ⟨?_, ?_, ?_, ?_, ?_, ?_, ?_, ?_, ?_⟩
  · exact ⟨wSub { state := 3 }, 3, 0, _, ⟨by decide +kernel, rfl⟩, by decide +kernel⟩
  · exact ⟨wSub { state := 3, ctlIn := [[6]] }, 3, 0, _, _, rfl, by decide +kernel⟩
  · exact ⟨wSub { state := 3, echoes := [5], ctlIn := [[7]] }, 3, 0, 0, _, _, 5, [], _, _, rfl, ⟨rfl, rfl, rfl⟩⟩
  · exact ⟨wFt 5, 3, by decide +kernel⟩
  · exact ⟨{ wFt 5000 with ports := [(3, { nextGate := some { enabled := true, cycle := 1000 } })] }, 3, { enabled := true, cycle := 1000 }, by decide +kernel⟩
  · exact ⟨State.setF (wLive [wFlight 0x6E [(12, 200)]]) fTIME_STATUS_STATE 1, 0, some (List.replicate 256 0), wFlight 0x6E [(12, 200)], _, _, _, by decide +kernel, by decide +kernel, rfl, ⟨by decide +kernel, rfl⟩⟩
  · exact ⟨wSub { state := 4, linkIn := [{ typ := 2, cls := 1, payload := [4, 0, 8, 0] }] }, 3, 0, _, _, _, rfl, rfl, by decide +kernel⟩
  · exact ⟨{ wSub { state := 4, paused := [(2, 30000000, 5)] } with time := { nowNs := 20000000 } }, 3, 0, by decide +kernel⟩
  · exact ⟨wRing (wFlight 0x6D [(8, 3)]), 0, wFlight 0x6D [(8, 3)], by decide +kernel, by decide +kernel, by decide +kernel⟩

/-- A state and operands that meet the hypotheses of each clause of TimedActionsComplete. -/
theorem test_witness_TimedActionsComplete :
    (∃ s : State, ∃ entry : Fin 256, ∃ e : List Byte, (s.actNow entry.val = some e) ∧ (actKind e = 1 ∧ s.actReady e = true ∧ s.actLate e = false)) ∧
    (∃ s : State, ∃ entry : Fin 256, ∃ e : List Byte, (s.actNow entry.val = some e) ∧ (actKind e = 2 ∧ s.actReady e = true ∧ s.actLate e = false)) ∧
    (∃ s : State, ∃ entry : Fin 256, ∃ e : List Byte, (s.actNow entry.val = some e) ∧ (actKind e = 3 ∧ s.actReady e = true ∧ s.actLate e = false)) ∧
    (∃ s : State, ∃ entry : Fin 256, ∃ e : List Byte, (s.actNow entry.val = some e) ∧ (actKind e = 4 ∧ s.actReady e = true ∧ s.actLate e = false) ∧ (s.mayStart (recNat e 20 1) = true)) ∧
    (∃ s : State, ∃ entry : Fin 256, ∃ e : List Byte, (s.actNow entry.val = some e) ∧ (actKind e = 5 ∧ s.actReady e = true ∧ s.actLate e = false)) ∧
    (∃ s : State, ∃ entry : Fin 256, ∃ e : List Byte, (s.actNow entry.val = some e) ∧ (s.actReady e = true ∧ s.actLate e = true)) ∧
    (∃ s : State, ∃ entry : Fin 256, ∃ e : List Byte, (s.actNow entry.val = some e) ∧ (s.actReady e = false)) ∧
    (∃ s : State, ∃ sq : RingNo, ∃ data : List Byte, ∃ f : InFlight, ∃ i : Nat, ∃ n : Nat, (s.nextCmd sq.toNat 0x6F = some f) ∧ (i = recNat f.desc 8 1 ∧ n = recNat f.desc 10 2 ∧ 0 < n ∧ i + n ≤ 256 ∧ s.ftSet = true)) := by
  refine ⟨?_, ?_, ?_, ?_, ?_, ?_, ?_, ?_⟩
  · exact ⟨{ wAct (wActE 1 [3, 0]) with subs := (wSub { state := 4 }).subs }, 0, wActE 1 [3, 0], by decide +kernel, by decide +kernel⟩
  · exact ⟨wAct (wActE 2 []), 0, wActE 2 [], by decide +kernel, by decide +kernel⟩
  · exact ⟨wAct (wActE 3 []), 0, wActE 3 [], by decide +kernel, by decide +kernel⟩
  · exact ⟨wPlan (wAct (wActE 4 [])) 1, 0, wActE 4 [], by decide +kernel, by decide +kernel, by decide +kernel⟩
  · exact ⟨{ wAct (wActE 5 [3, 0, 4]) with subs := (wSub { state := 4 }).subs }, 0, wActE 5 [3, 0, 4], by decide +kernel, by decide +kernel⟩
  · exact ⟨wAct (leBytes 8 5000 ++ (wActE 3 []).drop 8), 0, leBytes 8 5000 ++ (wActE 3 []).drop 8, by decide +kernel, by decide +kernel⟩
  · exact ⟨wAct (wActE 1 [3, 0]), 0, wActE 1 [3, 0], by decide +kernel, by decide +kernel⟩
  · exact ⟨State.setF (wRing (wFlight 0x6F [(10, 1)])) fTIME_STATUS_STATE 1, 0, List.replicate 32 0, wFlight 0x6F [(10, 1)], 0, 1, by decide +kernel, by decide +kernel⟩

/-- A state and operands that meet the hypotheses of each clause of LoadTestUnitCompletes. -/
theorem test_witness_LoadTestUnitCompletes :
    (∃ s : State, ∃ sq : RingNo, ∃ data : Option (List Byte), ∃ f : InFlight, ∃ u : State, ∃ w : State, ∃ d : List Byte, ∃ k : Nat, (s.nextCmd sq.toNat 0x77 = some f) ∧ (k = recNat f.desc 8 1 ∧ k < 16 ∧ s.isSet fINJ_CFG_ENABLE = true ∧ s.planRuns k = false) ∧ (s.hostGet f (recNat f.desc 16 8) 256 data = (u, some d)) ∧ (planOk ((List.range 16).map fun i => byteField d (16 * i) 16) 0 = true) ∧ (w = (List.range 64).foldl (fun st w => st.setF (fINJ_PLAN_WORD k w) (recNat d (4 * w) 4)) u)) ∧
    (∃ s : State, ∃ sq : RingNo, ∃ f : InFlight, ∃ k : Nat, (s.nextCmd sq.toNat 0x78 = some f) ∧ (k = recNat f.desc 8 1 ∧ k < 16 ∧ s.isSet fINJ_CFG_ENABLE = true ∧ (s.getF fINJ_STATUS_LOADED).testBit k = true ∧ s.planRuns k = false)) ∧
    (∃ s : State, ∃ sq : RingNo, ∃ f : InFlight, (s.nextCmd sq.toNat 0x79 = some f) ∧ (recNat f.desc 8 1 < 16 ∨ recNat f.desc 8 1 = 0xFF)) ∧
    (∃ s : State, ∃ port : Port, ∃ chan : Chan, ∃ u : State, (u = s.relight (s.faults.injections.filter (·.darkOver port.val chan.val s.time.nowNs)))) ∧
    (∃ s : State, ∃ plan : Fin 16, ∃ r : PlanRun, ∃ e : List Byte, ∃ u : State, (s.faults.plans.find? (·.plan == plan.val) = some r) ∧ (e = s.planEntry plan.val r.next ∧ entKind e = 1 ∧ r.startAt + 1000 * (entOffset e) ≤ s.time.nowNs) ∧ (u = s.planNext plan.val) ∧ (u.injSkip 1 (entA e) (entB e) false = false)) ∧
    (∃ s : State, ∃ plan : Fin 16, ∃ excess : Bool, ∃ r : PlanRun, ∃ e : List Byte, ∃ u : State, (s.faults.plans.find? (·.plan == plan.val) = some r) ∧ (e = s.planEntry plan.val r.next ∧ entKind e = 2 ∧ r.startAt + 1000 * (entOffset e) ≤ s.time.nowNs) ∧ (u = s.planNext plan.val) ∧ (u.injSkip 2 (entA e) (entB e) excess = false)) ∧
    (∃ s : State, ∃ plan : Fin 16, ∃ r : PlanRun, ∃ e : List Byte, ∃ u : State, (s.faults.plans.find? (·.plan == plan.val) = some r) ∧ (e = s.planEntry plan.val r.next ∧ entKind e = 3 ∧ r.startAt + 1000 * (entOffset e) ≤ s.time.nowNs) ∧ (u = s.planNext plan.val) ∧ (u.injSkip 3 (entA e) (entB e) false = false)) ∧
    (∃ s : State, ∃ plan : Fin 16, ∃ r : PlanRun, ∃ e : List Byte, ∃ u : State, (s.faults.plans.find? (·.plan == plan.val) = some r) ∧ (e = s.planEntry plan.val r.next ∧ entKind e = 4 ∧ r.startAt + 1000 * (entOffset e) ≤ s.time.nowNs) ∧ (u = s.planNext plan.val) ∧ (u.injSkip 4 (entA e) (entB e) false = false)) ∧
    (∃ s : State, ∃ plan : Fin 16, ∃ r : PlanRun, ∃ e : List Byte, ∃ u : State, (s.faults.plans.find? (·.plan == plan.val) = some r) ∧ (e = s.planEntry plan.val r.next ∧ entKind e = 5 ∧ r.startAt + 1000 * (entOffset e) ≤ s.time.nowNs) ∧ (u = s.planNext plan.val) ∧ (u.injSkip 5 (entA e) (entB e) false = false)) ∧
    (∃ s : State, ∃ plan : Fin 16, ∃ r : PlanRun, ∃ e : List Byte, ∃ u : State, (s.faults.plans.find? (·.plan == plan.val) = some r) ∧ (e = s.planEntry plan.val r.next ∧ entKind e = 6 ∧ r.startAt + 1000 * (entOffset e) ≤ s.time.nowNs) ∧ (u = s.planNext plan.val) ∧ (u.injSkip 6 (entA e) (entB e) false = false)) ∧
    (∃ s : State, ∃ plan : Fin 16, ∃ r : PlanRun, ∃ e : List Byte, ∃ u : State, (s.faults.plans.find? (·.plan == plan.val) = some r) ∧ (e = s.planEntry plan.val r.next ∧ entKind e = 7 ∧ r.startAt + 1000 * (entOffset e) ≤ s.time.nowNs) ∧ (u = s.planNext plan.val) ∧ (u.injSkip 7 (entA e) (entB e) false = false)) := by
  refine ⟨?_, ?_, ?_, ?_, ?_, ?_, ?_, ?_, ?_, ?_, ?_⟩
  · exact ⟨wPlan (wLive [wFlight 0x77 []]) 0, 0, some (List.replicate 256 0), wFlight 0x77 [], _, _, _, 0, by decide +kernel, by decide +kernel, rfl, by decide +kernel, rfl⟩
  · exact ⟨wPlan (wLive [wFlight 0x78 []]) 1, 0, wFlight 0x78 [], 0, by decide +kernel, by decide +kernel⟩
  · exact ⟨wRing (wFlight 0x79 []), 0, wFlight 0x79 [], by decide +kernel, by decide +kernel⟩
  · exact ⟨{}, 3, 5, _, rfl⟩
  · exact ⟨State.setSub (State.setF (wInj 1 3 5 1) (fLNK_CFG_ENABLE 3) 1) 3 0 { state := 4, width := 16, common := 0x20 }, 0, ⟨0, 0, 0⟩, _, _, rfl, ⟨rfl, by decide +kernel, by decide +kernel⟩, rfl, by decide +kernel⟩
  · exact ⟨wInj 2 3 0 1, 0, false, ⟨0, 0, 0⟩, _, _, rfl, ⟨rfl, by decide +kernel, by decide +kernel⟩, rfl, by decide +kernel⟩
  · exact ⟨wInj 3 0 0 0, 0, ⟨0, 0, 0⟩, _, _, rfl, ⟨rfl, by decide +kernel, by decide +kernel⟩, rfl, by decide +kernel⟩
  · exact ⟨wInj 4 0 0 0, 0, ⟨0, 0, 0⟩, _, _, rfl, ⟨rfl, by decide +kernel, by decide +kernel⟩, rfl, by decide +kernel⟩
  · exact ⟨wInj 5 1 0x60 0, 0, ⟨0, 0, 0⟩, _, _, rfl, ⟨rfl, by decide +kernel, by decide +kernel⟩, rfl, by decide +kernel⟩
  · exact ⟨wInj 6 3 0 5, 0, ⟨0, 0, 0⟩, _, _, rfl, ⟨rfl, by decide +kernel, by decide +kernel⟩, rfl, by decide +kernel⟩
  · exact ⟨State.setF (wInj 7 0 0 0) (fTHM_HK_STATUS_STATE 0) 2, 0, ⟨0, 0, 0⟩, _, _, rfl, ⟨rfl, by decide +kernel, by decide +kernel⟩, rfl, by decide +kernel⟩

/-- A state and operands that meet the hypotheses of each clause of ResetsComplete. -/
theorem test_witness_ResetsComplete :
    (∃ s : State, ∃ sq : RingNo, ∃ f : InFlight, ∃ d : Domain, (s.nextCmd sq.toNat 0x70 = some f) ∧ (recNat f.desc 8 1 = 2 ∧ recNat f.desc 10 1 < 128 ∧ recBits f.desc 9 1 1 0 = 0) ∧ (recNat f.desc 11 1 = 0xFF ∧ d = .core (recNat f.desc 10 1) ∨ recNat f.desc 11 1 ≠ 0xFF ∧ instNamed (recNat f.desc 11 1) = true ∧ d = .inst (recNat f.desc 10 1) (recNat f.desc 11 1)) ∧ ((s.openWindows.filter fun w => w.doms.any (·.overlaps d)).isEmpty = true)) ∧
    (∃ s : State, ∃ sq : RingNo, ∃ f : InFlight, (s.nextCmd sq.toNat 0x70 = some f) ∧ (recNat f.desc 8 1 = 3 ∧ recNat f.desc 10 1 < 8 ∧ recNat f.desc 11 1 = 0) ∧ ((s.openWindows.filter fun w => w.doms.any (·.overlaps (.span (recNat f.desc 10 1)))).isEmpty = true)) ∧
    (∃ s : State, ∃ sq : RingNo, ∃ f : InFlight, (s.nextCmd sq.toNat 0x70 = some f) ∧ (recNat f.desc 8 1 = 4 ∧ recNat f.desc 10 1 = 0 ∧ recNat f.desc 11 1 = 0) ∧ (s.faults.l5Hold = false) ∧ ((s.openWindows.filter fun w => w.doms.any (·.overlaps .device)).isEmpty = true)) ∧
    (∃ s : State, ∃ ix : Fin 64, ∃ r : ResetRun, (s.faults.resets[ix.val]? = some r) ∧ (r.entered = true)) ∧
    (∃ s : State, ∃ sq : RingNo, ∃ f : InFlight, (s.nextCmd sq.toNat 0x71 = some f) ∧ (recNat f.desc 8 1 = 3 ∧ recBits f.desc 10 1 7 0 < 8) ∧ (s.faults.heldSpans.contains (recBits f.desc 10 1 7 0) = true)) := by
  refine ⟨?_, ?_, ?_, ?_, ?_⟩
  · exact ⟨wRing (wFlight 0x70 [(8, 2), (10, 5), (11, 255)]), 0, wFlight 0x70 [(8, 2), (10, 5), (11, 255)], .core 5, by decide +kernel, by decide +kernel, by decide +kernel, by decide +kernel⟩
  · exact ⟨wRing (wFlight 0x70 [(8, 3), (9, 2), (10, 5)]), 0, wFlight 0x70 [(8, 3), (9, 2), (10, 5)], by decide +kernel, by decide +kernel, by decide +kernel⟩
  · exact ⟨wRing (wFlight 0x70 [(8, 4), (9, 1)]), 0, wFlight 0x70 [(8, 4), (9, 1)], by decide +kernel, by decide +kernel, by decide +kernel, by decide +kernel⟩
  · exact ⟨{ faults := { resets := [{ level := 3, doms := [.span 2], entered := true }] } }, 0, { level := 3, doms := [.span 2], entered := true }, rfl, rfl⟩
  · exact ⟨{ wRing (wFlight 0x71 [(8, 3), (10, 5)]) with faults := { heldSpans := [5] } }, 0, wFlight 0x71 [(8, 3), (10, 5)], by decide +kernel, by decide +kernel, by decide +kernel⟩

/-- A state and operands that meet the hypotheses of each clause of SpareCoresAndLog. -/
theorem test_witness_SpareCoresAndLog :
    (∃ s : State, ∃ sq : RingNo, ∃ f : InFlight, ∃ c : Nat, ∃ p : Nat, (s.nextCmd sq.toNat 0x72 = some f) ∧ (recNat f.desc 8 1 = c ∧ recNat f.desc 9 1 = p ∧ c < 128 ∧ p < 144 ∧ p / 18 = c / 16) ∧ ((s.logOf p).isSome = false ∧ s.coreFailed p = false) ∧ (s.coreInUse c = false ∧ s.faults.testing.contains p = false)) ∧
    (∃ s : State, ∃ sq : RingNo, ∃ f : InFlight, ∃ p : Nat, (s.nextCmd sq.toNat 0x73 = some f) ∧ (recNat f.desc 9 1 = p ∧ p < 144) ∧ ((s.logOf p).isSome = false ∧ s.coreFailed p = false ∧ s.faults.testing.contains p = false)) ∧
    (∃ s : State, ∃ core : PCore, ∃ pass : Bool, ∃ t : State, ∃ f : InFlight, (s.faults.testing.contains core.val = true) ∧ (t = (if pass then (State.setTested ((s.setFaults { s.faults with testing := s.faults.testing.filter (· != core.val) }).forgetSpad core.val) core.val true).coreUsed core.val else (State.markFailed ((s.setFaults { s.faults with testing := s.faults.testing.filter (· != core.val) }).forgetSpad core.val) core.val).spareRec 3 core.val core.val core.val)) ∧ (t.host.flights.find? (fun f => f.opcode == 0x73 && f.stage == .started && f.a == core.val) = some f)) ∧
    (∃ s : State, ∃ sq : RingNo, ∃ f : InFlight, (s.nextCmd sq.toNat 0x74 = some f) ∧ (recNat f.desc 9 1 < 144) ∧ (s.logOf (recNat f.desc 9 1) = none) ∧ (s.faults.testing.contains (recNat f.desc 9 1) = false)) ∧
    (∃ s : State, ∃ span : SpanIx, (s.isSet (fSPN_SPARE_ROTATE_DUE span.val) = true)) ∧
    (∃ s : State, ∃ sq : RingNo, ∃ ok : Bool, ∃ f : InFlight, ∃ want : List (List Byte), (s.nextCmd sq.toNat 0x76 = some f) ∧ (want = (if recNat f.desc 12 4 = 0xFFFFFFFF then s.log.inOrder (recBits f.desc 8 1 0 0 == 1) else (s.log.inOrder (recBits f.desc 8 1 0 0 == 1)).dropWhile fun r => logGood r && decide (recNat r 0 4 < recNat f.desc 12 4))) ∧ (want.filter logGood = [])) := by
  refine ⟨?_, ?_, ?_, ?_, ?_, ?_⟩
  · exact ⟨wRing (wFlight 0x72 [(8, 5), (9, 16)]), 0, wFlight 0x72 [(8, 5), (9, 16)], 5, 16, by decide +kernel, by decide +kernel, by decide +kernel, by decide +kernel⟩
  · exact ⟨wRing (wFlight 0x73 [(9, 17)]), 0, wFlight 0x73 [(9, 17)], 17, by decide +kernel, by decide +kernel, by decide +kernel⟩
  · exact ⟨{ faults := { testing := [17] }, host := { flights := [{ (wFlight 0x73 [(9, 17)]) with stage := .started, a := 17 }] } }, 17, true, _, { (wFlight 0x73 [(9, 17)]) with stage := .started, a := 17 }, by decide +kernel, rfl, by decide +kernel⟩
  · exact ⟨wRing (wFlight 0x74 [(9, 17)]), 0, wFlight 0x74 [(9, 17)], by decide +kernel, by decide +kernel, by decide +kernel, by decide +kernel⟩
  · exact ⟨State.setF {} (fSPN_SPARE_ROTATE_DUE 3) 1, 3, by decide +kernel⟩
  · exact ⟨wRing (wFlight 0x76 [(24, 5)]), 0, true, wFlight 0x76 [(24, 5)], _, by decide +kernel, rfl, by decide +kernel⟩

/-- A state and operands that meet the hypotheses of each clause of SpdmResponderAnswers. -/
theorem test_witness_SpdmResponderAnswers :
    (∃ s : State, ∃ chan : Fin 5, (s.chanLive chan.val = true)) ∧
    (∃ s : State, ∃ chan : Fin 5, (s.chanLive chan.val = true ∧ 1 ≤ s.spdmDone chan.val)) ∧
    (∃ s : State, ∃ chan : Fin 5, ∃ offered : Bool, (s.chanLive chan.val = true ∧ 2 ≤ s.spdmDone chan.val)) ∧
    (∃ s : State, ∃ chan : Fin 5, (s.chanLive chan.val = true ∧ 3 ≤ s.spdmDone chan.val)) ∧
    (∃ s : State, ∃ chan : Fin 5, ∃ slot : Byte, ∃ offset : Half, ∃ length : Half, (s.chanLive chan.val = true ∧ 3 ≤ s.spdmDone chan.val)) ∧
    (∃ s : State, ∃ chan : Fin 5, ∃ slot : Byte, ∃ nonce : List Byte, (s.chanLive chan.val = true ∧ 3 ≤ s.spdmDone chan.val) ∧ (s.keyBlocked = false ∧ slot.toNat = 0)) ∧
    (∃ s : State, ∃ chan : Fin 5, ∃ sign : Bool, ∃ index : Byte, ∃ nonce : List Byte, (s.chanLive chan.val = true ∧ 3 ≤ s.spdmDone chan.val) ∧ (sign = false ∧ 1 ≤ index.toNat ∧ index.toNat ≤ 10)) ∧
    (∃ s : State, ∃ chan : Fin 5, ∃ slot : Byte, ∃ share : List Byte, (s.chanLive chan.val = true ∧ 3 ≤ s.spdmDone chan.val) ∧ (s.keyBlocked = false ∧ slot.toNat = 0 ∧ s.sec.sessions.length < 4)) ∧
    (∃ s : State, ∃ chan : Fin 5, ∃ session : Half, ∃ verified : Bool, ∃ v : SpdmSession, (s.chanLive chan.val = true) ∧ (s.session chan.val session.toNat = some v ∧ v.open' = false)) ∧
    (∃ s : State, ∃ chan : Fin 5, ∃ session : Half, ∃ v : SpdmSession, (s.chanLive chan.val = true) ∧ (s.session chan.val session.toNat = some v ∧ v.open' = true)) ∧
    (∃ s : State, ∃ chan : Fin 5, ∃ session : Half, ∃ op : Fin 3, ∃ v : SpdmSession, (s.chanLive chan.val = true) ∧ (s.session chan.val session.toNat = some v ∧ v.open' = true)) ∧
    (∃ s : State, ∃ chan : Fin 5, ∃ session : Half, ∃ v : SpdmSession, (s.chanLive chan.val = true) ∧ (s.session chan.val session.toNat = some v ∧ v.open' = true)) ∧
    (∃ s : State, ∃ link : LinkIx, ∃ session : Half, ∃ stream : Fin 5, ∃ v : SpdmSession, (s.chanLive link.val = true) ∧ (s.session link.val session.toNat = some v ∧ v.open' = true)) ∧
    (∃ s : State, ∃ link : LinkIx, ∃ index : Byte, (s.chanLive link.val = true ∧ index.toNat = 1)) := by
  refine ⟨?_, ?_, ?_, ?_, ?_, ?_, ?_, ?_, ?_, ?_, ?_, ?_, ?_, ?_⟩
  · exact ⟨wSpdm 0, 4, by decide +kernel⟩
  · exact ⟨wSpdm 1, 4, by decide +kernel⟩
  · exact ⟨wSpdm 2, 4, true, by decide +kernel⟩
  · exact ⟨wSpdm 3, 4, by decide +kernel⟩
  · exact ⟨wSpdm 3, 4, 0, 0, 0, by decide +kernel⟩
  · exact ⟨wSpdm 3, 4, 0, [], by decide +kernel, by decide +kernel⟩
  · exact ⟨wSpdm 3, 4, false, 1, [], by decide +kernel, by decide +kernel⟩
  · exact ⟨wSpdm 3, 4, 0, [], by decide +kernel, by decide +kernel⟩
  · exact ⟨wSession false, 4, 7, true, ⟨7, 4, false, 0, 0⟩, by decide +kernel, by decide +kernel⟩
  · exact ⟨wSession true, 4, 7, ⟨7, 4, true, 0, 0⟩, by decide +kernel, by decide +kernel⟩
  · exact ⟨wSession true, 4, 7, 1, ⟨7, 4, true, 0, 0⟩, by decide +kernel, by decide +kernel⟩
  · exact ⟨wSession true, 4, 7, ⟨7, 4, true, 0, 0⟩, by decide +kernel, by decide +kernel⟩
  · exact ⟨wLinkSession, 0, 7, 1, ⟨7, 0, true, 0, 0⟩, by decide +kernel, by decide +kernel⟩
  · exact ⟨wLinkSession, 0, 1, by decide +kernel⟩

/-- A state and operands that meet the hypotheses of each clause of FusesDebugAndCorePower. -/
theorem test_witness_FusesDebugAndCorePower :
    (∃ s : State, ∃ sq : RingNo, ∃ data : Option (List Byte), ∃ f : InFlight, ∃ b : Nat, ∃ u : State, ∃ k : List Byte, (s.nextCmd sq.toNat 0x90 = some f) ∧ (s.isSet fSEC_STATE_OWNER_RELEASED = false) ∧ ((List.range 4).find? (fun b => (aget s.sec.owners b).isNone) = some b) ∧ (s.hostGet f (recNat f.desc 16 8) 96 data = (u, some k))) ∧
    (∃ s : State, ∃ sq : RingNo, ∃ f : InFlight, ∃ b : Nat, (s.nextCmd sq.toNat 0x91 = some f) ∧ (s.isSet fSEC_STATE_OWNER_RELEASED = false ∧ s.sec.activeBank = some b)) ∧
    (∃ s : State, ∃ sq : RingNo, ∃ f : InFlight, (s.nextCmd sq.toNat 0x92 = some f)) ∧
    (∃ s : State, ∃ sq : RingNo, ∃ f : InFlight, ∃ v : Nat, (s.nextCmd sq.toNat 0x93 = some f) ∧ (recNat f.desc 8 1 = 1 ∧ v = recNat f.desc 9 1 ∧ v ≤ 64 ∧ s.getF fSEC_SVN_SVN_FOOTING ≤ v) ∧ (((List.range 7).any fun k => s.hkState k == 2 && imgKind (s.hkCore k).image == 1 && decide ((s.hkCore k).svn < v)) = false)) ∧
    (∃ s : State, ∃ sq : RingNo, ∃ ok : Bool, ∃ f : InFlight, ∃ u : State, (s.nextCmd sq.toNat 0x94 = some f) ∧ (s.getF fDBG_STATE_STATE < 2) ∧ (s.drew.hostPut f (recNat f.desc 16 8) (s.random 48 ++ deviceDigest) ok = (u, true))) ∧
    (∃ s : State, ∃ sq : RingNo, ∃ token : Option (List Byte), ∃ ptrs : List (RingNo × Bool × Word), ∃ f : InFlight, ∃ u : State, ∃ t : List Byte, (s.nextCmd sq.toNat 0x95 = some f) ∧ (s.getF fDBG_STATE_STATE = 1) ∧ (s.hostGet f (recNat f.desc 16 8) 416 token = (u, some t)) ∧ (tokenShape t = true ∧ u.tokenStale t = false)) ∧
    (∃ s : State, ∃ sq : RingNo, ∃ token : Option (List Byte), ∃ ptrs : List (RingNo × Bool × Word), ∃ f : InFlight, ∃ u : State, ∃ t : List Byte, (s.nextCmd sq.toNat 0x95 = some f) ∧ (s.getF fDBG_STATE_STATE = 1) ∧ (s.hostGet f (recNat f.desc 16 8) 416 token = (u, some t)) ∧ (tokenShape t = true ∧ u.tokenStale t = true)) ∧
    (∃ s : State, ∃ t : State, (s.getF fDBG_STATE_STATE = 2 ∧ s.faults.resets.any (fun r => decide (4 ≤ r.level)) = false) ∧ (t = (((s.eraseSrams).setSec { s.sec with opened := true, erasing := none, eraseKeys := [] }).setF fDBG_STATE_STATE 3).setF fDBG_STATE_SCOPE (s.sec.scope % 4)) ∧ (s.sec.erasing = none)) ∧
    (∃ s : State, ∃ sq : RingNo, ∃ data : Option (List Byte), ∃ f : InFlight, ∃ p : Nat, ∃ q : Nat, ∃ u : State, ∃ k : List Byte, (s.nextCmd sq.toNat 0x96 = some f) ∧ (p = recNat f.desc 8 1 ∧ p < 34 ∧ recNat f.desc 9 1 = 0xFF ∧ q = 0 ∧ (s.port p).split = false ∧ recNat f.desc 10 1 ≠ 0) ∧ (s.portType p = 2 ∧ (recNat (s.sub p q).peer 8 4).testBit 7 = true) ∧ (s.hostGet f (recNat f.desc 24 8) 64 data = (u, some k))) ∧
    (∃ s : State, ∃ port : Port, ∃ sub : Sub, ∃ k : LineKey, ((s.sub port.val sub.val).nextKey = some k ∧ noReached (s.sub port.val sub.val).nextNo k.activateAt = true)) ∧
    (∃ s : State, ∃ sq : RingNo, ∃ f : InFlight, ∃ c : Nat, ∃ v : Nat, (s.nextCmd sq.toNat 0x97 = some f) ∧ (c = recNat f.desc 8 1 ∧ v = recNat f.desc 9 1 ∧ (c < 128 ∨ c = 0xFF) ∧ (v = 0 ∨ v = 2 ∨ v = 3))) ∧
    (∃ s : State, ∃ core : LCore, ((s.coreSt core.val).power = 0 ∧ (s.physOf core.val).isSome = true ∧ s.coreRuns core.val = false ∧ (s.coreSt core.val).usedCyc + 64 ≤ s.cycOf core.val)) ∧
    (∃ s : State, ∃ core : LCore, ((s.coreSt core.val).power = 1 ∧ 2 ≤ (s.coreSt core.val).deepest ∧ (s.coreSt core.val).usedAt + 10000 ≤ s.time.nowNs ∧ s.coreRuns core.val = false ∧ s.coreAwaited core.val = false)) ∧
    (∃ s : State, ∃ core : LCore, ∃ t : Nat, ((s.coreSt core.val).waking = some t ∧ (s.coreSt core.val).power = 2)) := by
  refine ⟨?_, ?_, ?_, ?_, ?_, ?_, ?_, ?_, ?_, ?_, ?_, ?_, ?_, ?_⟩
  · exact ⟨wLive [wFlight 0x90 []], 0, some [], wFlight 0x90 [], 0, _, _, by decide +kernel, by decide +kernel, by decide +kernel, rfl⟩
  · exact ⟨{ wRing (wFlight 0x91 []) with sec := { owners := [(0, [])] } }, 0, wFlight 0x91 [], 0, by decide +kernel, by decide +kernel⟩
  · exact ⟨wRing (wFlight 0x92 []), 0, wFlight 0x92 [], by decide +kernel⟩
  · exact ⟨wRing (wFlight 0x93 [(8, 1)]), 0, wFlight 0x93 [(8, 1)], 0, by decide +kernel, by decide +kernel, by decide +kernel⟩
  · exact ⟨wLive [wFlight 0x94 []], 0, true, wFlight 0x94 [], _, by decide +kernel, by decide +kernel, rfl⟩
  · exact ⟨State.setF { wLive [wFlight 0x95 []] with sec := { nonce := some (List.replicate 48 0) } } fDBG_STATE_STATE 1, 0, some [0, 0, 1, 0, 1], [], wFlight 0x95 [], _, _, by decide +kernel, by decide +kernel, rfl, by decide +kernel⟩
  · exact ⟨State.setF (wLive [wFlight 0x95 []]) fDBG_STATE_STATE 1, 0, some [0, 0, 1, 0, 1], [], wFlight 0x95 [], _, _, by decide +kernel, by decide +kernel, rfl, by decide +kernel⟩
  · exact ⟨State.setF {} fDBG_STATE_STATE 2, _, by decide +kernel, rfl, rfl⟩
  · exact ⟨State.setSub (State.setF (wLive [wFlight 0x96 [(8, 3), (9, 255), (10, 1)]]) (fRTE_PORT_CFG_TYPE 3) 2) 3 0 { peer := List.replicate 64 0xFF }, 0, some [], wFlight 0x96 [(8, 3), (9, 255), (10, 1)], 3, 0, _, _, by decide +kernel, by decide +kernel, by decide +kernel, rfl⟩
  · exact ⟨wSub { state := 4, nextNo := 9, nextKey := some ⟨1, 5, [], [], 0⟩ }, 3, 0, ⟨1, 5, [], [], 0⟩, by decide +kernel⟩
  · exact ⟨wRing (wFlight 0x97 []), 0, wFlight 0x97 [], 0, 0, by decide +kernel, by decide +kernel⟩
  · exact ⟨wCore {}, 0, by decide +kernel⟩
  · exact ⟨wCore { power := 1, deepest := 2 }, 0, by decide +kernel⟩
  · exact ⟨wCore { power := 2, waking := some 5 }, 0, 5, by decide +kernel⟩

/-- Hypotheses of EmptyQueueTicks. -/
theorem test_witness_EmptyQueueTicks : State.reset.pending = [] := rfl

/-- Hypotheses of FieldsResetAsTheMapsSay: a field, a touched one below the level, one of a register that is not touched. -/
theorem test_witness_FieldsResetAsTheMapsSay :
    (∃ f, f ∈ regFields 0x20 ∧ ¬ (0xD00000 ≤ 0x20 ∧ 0x20 < 0xD00080)) ∧ (∃ f, keysRise State.reset.regs = true ∧ f ∈ regFields 0x24 ∧ (fun _ => true) 0x24 = true ∧ f.surv < 5) ∧
    (∃ f, f ∈ regFields 0x24 ∧ (fun _ => false) 0x24 = false) := by
  refine ⟨⟨_, List.mem_of_getElem? (i := 0) rfl, by decide⟩, ⟨_, rfl, List.mem_of_getElem? (i := 0) rfl, rfl, by decide⟩, ⟨_, List.mem_of_getElem? (i := 0) rfl, rfl⟩⟩

/-- Hypotheses of StepKeepsCanonical, at the state after power-on. -/
theorem test_witness_StepKeepsCanonical : StateCanonical State.reset ∧ ∃ t, step State.reset = .next t := ⟨⟨by decide +kernel, rfl, by intro e h; cases h⟩, _, rfl⟩

/-- Hypotheses of FrameOfEveryCommand. -/
theorem test_witness_FrameOfEveryCommand :
    ∃ t, exec (.ppsTimeout) State.reset = .next t ∧ .mem ∉ touches .ppsTimeout ∧ .regs ∉ touches (.doorbellPoll 0) := ⟨_, rfl, by decide, by decide⟩

/-- A state whose SETUP_LOCK is 1. -/
def wLocked : State := State.setF {} fTOP_SETUP_LOCK_LOCK 1

/-- Hypotheses of LockedFieldsStand, with the lock itself as the field. -/
theorem test_witness_LockedFieldsStand :
    ∃ f t, setupCommand (.setupLockWrite 4 0) = true ∧ wLocked.getF fTOP_SETUP_LOCK_LOCK = 1 ∧ (∀ k, k < 8 → wLocked.ctlDisabled k = false) ∧
      exec (.setupLockWrite 4 0) wLocked = .next t ∧ f ∈ regFields 0x20 ∧ f.acc = .rwl :=
  ⟨_, _, rfl, by decide +kernel, by decide +kernel, rfl, List.mem_of_getElem? (i := 0) rfl, rfl⟩

/-- Hypotheses of WritesFollowAccessCodes. -/
theorem test_witness_WritesFollowAccessCodes : State.reset.reaches (4 : Fin 8).val (0x28#26).toNat = true ∧ writeClass (0x28#26).toNat = (0, 0) := by decide +kernel

/-- Hypotheses of UndecodedOffsets. -/
theorem test_witness_UndecodedOffsets :
    State.reset.reqLive (4 : Fin 8).val = true ∧ badShape (0x1500000#26).toNat (2 ^ (2 : Fin 4).val) true = false ∧ decoded (0x1500000#26).toNat = false := by decide +kernel

/-- Hypotheses of MemoryWriteThenRead, each clause. -/
theorem test_witness_MemoryWriteThenRead :
    ((State.reset.placeKey (State.reset.place (7 + 1))).isSome = true ∧ State.reset.placeKey (State.reset.place 8) = State.reset.placeKey (State.reset.place (7 + 1)) ∧
      ∀ j, 1 < j → j < [(1 : Byte), 2].length → State.reset.placeKey (State.reset.place (7 + j)) ≠ State.reset.placeKey (State.reset.place 8)) ∧
    ∀ j, j < [(1 : Byte), 2].length → State.reset.placeKey (State.reset.place (7 + j)) ≠ State.reset.placeKey (State.reset.place 9) := by
  refine ⟨⟨by decide +kernel, rfl, fun j h1 h2 => absurd h1 (by simp at h2; omega)⟩, by decide +kernel⟩

/-- Hypotheses of WholeBlockClearsPoison, at the last block of the visible part of stack 7. -/
theorem test_witness_WholeBlockClearsPoison :
    0x1000000000 * 7 ≤ 0x1000000000 * 7 + (stackVisible - 64) ∧ 0x1000000000 * 7 + (stackVisible - 64) + (List.replicate 64 (0 : Byte)).length ≤ 0x1000000000 * 7 + stackVisible := by decide

/-- Region 0 valid: 32 KiB from aperture offset 0, from stack offset 0 on. -/
def wRegion : State := State.setF (State.setF {} (fMEM_DIL_APER_VALID 0) 1) (fMEM_DIL_SIZE_SIZE 0) 1

/-- Hypotheses of ApertureAndWindowAreOne. -/
theorem test_witness_ApertureAndWindowAreOne : ∃ off, wRegion.place (0x8000000000 + 0x3005) = .stack 3 off ∧ off < stackVisible := ⟨5, by decide +kernel⟩

/-- Hypotheses of SprayTakesLeastLoaded. -/
theorem test_witness_SprayTakesLeastLoaded : ({ cls := 5 } : Cell).cls = 5 := rfl

/-- Hypotheses of ActionsRepeatInTheFuture: an entry without a period, one with. -/
theorem test_witness_ActionsRepeatInTheFuture :
    actPeriod (wActE 1 []) = 0 ∧ ∃ e, 0 < actPeriod e ∧ State.reset.time.ft + actPeriod e < 2 ^ 64 ∧ actTime e + actPeriod e < 2 ^ 64 :=
  ⟨by decide +kernel, leBytes 8 5 ++ leBytes 8 7 ++ List.replicate 16 0, by decide +kernel⟩

/-! ### Values the spec gives -/

/-- The nine ASCII characters 1 to 9, whose check values R481 gives. -/
def wDigits : List Byte := [0x31, 0x32, 0x33, 0x34, 0x35, 0x36, 0x37, 0x38, 0x39]

/-- The check values of CRC presets 0 to 3 as the registers hold them after power-on (R481). -/
theorem test_crcPresets : crcOf (State.reset.preset 0) wDigits = 0xE3069283 ∧ crcOf (State.reset.preset 1) wDigits = 0x995DC9BBDF1939FA ∧
    crcOf (State.reset.preset 2) wDigits = 0xCBF43926 ∧ crcOf (State.reset.preset 3) wDigits = 0x29B1 := by decide +kernel

/-- LNK[17] lies at 0x0084_4000 and CORE[143] at 0x0048_F000 (chapter 00, the example after R21). -/
theorem test_blockBases : (fLNK_CFG_ENABLE 17).off = 0x844000 ∧ (fCORE_TRS_CFG_FF_EN 143).off = 0x48F200 ∧ decoded 0x847FFC = true := by decide +kernel

/-- The device strapped at 17.4.2 has the default endpoint ID 0x00_1122 (chapter 00, the example after R18). -/
theorem test_defaultId : (match exec (.porRelease 0x1122 1 false) {} with
    | .next t => t.getF fRTE_OWN_ID_ID
    | _ => 0) = 0x1122 := by decide +kernel

/-- Order along K, group 0 then group 1 (chapter 04, the example after R170). -/
theorem test_laneOrder :
    let v := fun c => decodeFloat fE4M3 c
    let g0 := laneGroup (.fin false 0 0) [(v 0x78, v 0x78), (v 0x78, v 0xF8), (v 0x08, v 0x08), (v 0x08, v 0x08)]
    toF32 g0 = 0 ∧ toF32 (laneGroup g0 [(v 0x08, v 0x08), (v 0, v 0), (v 0, v 0), (v 0, v 0)]) = 0x39800000 := by decide +kernel

/-- No sticky bit: 1.0 with 2⁻²⁴ and 2⁻²⁸ rounds to 1.0, with 2⁻²⁴ and 2⁻²⁷ to the next value (chapter 04, the example after R170). -/
theorem test_laneNoSticky :
    let v := fun c => decodeFloat fBF16 c
    toF32 (laneGroup (ofF32 0x3F800000) [(v 0x3980, v 0x3980), (v 0x3880, v 0x3880)]) = 0x3F800000 ∧
    toF32 (laneGroup (ofF32 0x3F800000) [(v 0x3980, v 0x3980), (v 0x3900, v 0x3880)]) = 0x3F800001 := by decide +kernel

/-- 13.0, −2.9 and 0.3 in a block of MXFP4 (chapter 04, the example after R173): 2.9 and 0.3 as the FP32 codes 0xC039999A and 0x3E99999A. -/
theorem test_mxfp4Block :
    let b := convBlock 0x14 ([ofF32 0x41500000, ofF32 0xC039999A, ofF32 0x3E99999A] ++ List.replicate 29 (ofF32 0x40000000))
    b.1 = 0x80 ∧ (b.2.take 3).map (·.code) = [7, 0xB, 0] ∧ (b.2.take 3).map (·.sat) = [true, false, false] ∧ (b.2.take 3).map (·.tiny) = [false, false, true] := by decide +kernel

/-- The reads of the poorly chosen key all fall on pseudo-channel 1 (chapter 06, the example after R277). -/
theorem test_pseudoChannel :
    (List.range 4).all (fun i => pseudoChannel (0x100000200 + i * 0x400000) [0xA5, 0x59, 0xC3, 0x36, 0x9C] == 1) = true := by decide +kernel

/-- Node 3 of the tree with parents −1, 0, 0, 2, 3 sees nodes 0, 2 and 3 (chapter 05, the example after R232). -/
theorem test_treeSees : (List.range 5).map (fun m => isAncestor #[-1, 0, 0, 2, 3] m 6 3) = [true, false, true, true, false] := by decide +kernel

/-- SUM of 2²⁴, 1.0 and 1.0, folded in member order, is 2²⁴ (chapter 11, the example after R518). -/
theorem test_foldOrder : toF32 (add32 (add32 (ofF32 0x4B800000) (ofF32 0x3F800000)) (ofF32 0x3F800000)) = 0x4B800000 := by decide +kernel

/-- The table gives no command bits: no word spells one. -/
theorem test_noWord (nbits w : Nat) : decodeTableWord nbits w = none := rfl

end Sys2Proof.Machine
end

/-! SUPPORT. The statements about every command and about the tick: what exec_ev and ev_tick say of them. -/
namespace Sys2Proof.Machine
open Sys2Proof

/-! ### The tick -/

@[simp] theorem State.tickSpan_time (s : State) (n : Nat) : (s.tickSpan n).time = s.time := rfl
@[simp] theorem State.tickSpan_mem (s : State) (n : Nat) : (s.tickSpan n).mm.mem = s.mm.mem := rfl

/-- Counting the cycles of spans moves no clock and no byte. -/
theorem foldl_tickSpan_keeps (l : List Nat) (s : State) :
    (l.foldl State.tickSpan s).time = s.time ∧ (l.foldl State.tickSpan s).mm.mem = s.mm.mem := by
  induction l generalizing s with
  | nil => exact ⟨rfl, rfl⟩
  | cons n ns ih => simpa using ih (s.tickSpan n)

theorem TimeSt.advance_nowNs (t : TimeSt) (set : Bool) (rate : Int) : (t.advance set rate).nowNs = t.nowNs + 1 := by
  unfold TimeSt.advance
  cases set <;> rfl

theorem State.tick_nowNs (s : State) : s.tick.time.nowNs = s.time.nowNs + 1 :=
  (congrArg TimeSt.nowNs (foldl_tickSpan_keeps _ _).1).trans (TimeSt.advance_nowNs _ _ _)

theorem State.tick_mem (s : State) : s.tick.mm.mem = s.mm.mem := (foldl_tickSpan_keeps _ _).2

/-- Settles O2: the tick moves the clocks and the span cycle counts alone. -/
theorem emptyQueueTicks : Obligations.EmptyQueueTicks := by
  intro s hs
  have ev : Ev (fun p => [StatePart.time, StatePart.mm].contains p) s s.tick := State.ev_tick (by unfold Need; decide) (Ev.refl _ s)
  exact ⟨s.tick, by simp only [step, hs], s.tick_nowNs, ev.pend.trans hs, s.tick_mem, ev.fr⟩

/-! ### Every step -/

/-- The canonical form of the register map is the one `Ev` keeps. -/
theorem stateCanonical_iff (s : State) : StateCanonical s ↔ s.mm.mem.wf = true ∧ regsWf s.regs := Iff.rfl

/-- What keeps the relation `Ev` keeps the canonical form. -/
theorem Ev.canonical {P : StatePart → Bool} {s t : State} (h : Ev P s t) (c : StateCanonical s) : StateCanonical t :=
  (stateCanonical_iff t).2 ⟨h.mem c.1, h.regs c.2⟩

/-- A step takes the front command from the queue and then keeps `Ev`; with an empty queue the tick keeps it. -/
theorem step_ev {s t : State} (h : step s = .next t) : ∃ q, Ev (fun _ => true) { s with pending := q } t := by
  unfold step at h
  split at h
  · cases h
    exact ⟨s.pending, State.ev_tick (fun _ _ => rfl) (Ev.refl _ s)⟩
  · next i rest _ =>
    obtain ⟨u, hu, ev⟩ := exec_ev i (fun _ _ => rfl) (Ev.refl (fun _ => true) { s with pending := rest })
    rw [hu] at h
    cases h
    exact ⟨rest, ev⟩

/-- Settles O5: a step changes the queue, which the canonical form does not see, and is otherwise made of operations that keep it. -/
theorem stepKeepsCanonical : Obligations.StepKeepsCanonical := by
  intro s t hs h
  obtain ⟨q, ev⟩ := step_ev h
  exact ev.canonical hs

/-- Settles O6: `exec_ev` says of every command that it answers, and what it leaves of the queue, of what was sent and of the count of free values. -/
theorem everyCommandAnswers : Obligations.EveryCommandAnswers := by
  intro i s
  obtain ⟨t, ht, ev⟩ := exec_ev i (fun _ _ => rfl) (Ev.refl (fun _ => true) s)
  obtain ⟨l, hl⟩ := ev.out
  exact ⟨t, ht, ev.pend, ⟨l, hl.symm⟩, ev.ctr⟩

/-! ### After power-on -/

/-- After power-on every key of the memories lies in the one undefined range. -/
theorem get_powerOnMem {a : Nat} (h : a < 0x20000000000) : powerOnMem.get a = Config.undefByte 0 a := by
  have e : powerOnMem.undef.find? (·.has a) = some ⟨0, 0x20000000000, 0⟩ := List.find?_cons_of_pos (by simp [Undef.has, h])
  rw [Memory.get_eq, e]
  rfl

/-- A register that the map does not list reads its reset value. -/
theorem State.reg_reset (o : Nat) : State.reset.reg o = regDefault o := rfl

/-- Settles O4: nothing is listed after power-on but one undefined range over all keys. -/
theorem resetCanonical : Obligations.ResetCanonical :=
  ⟨⟨by decide, rfl, fun _ he => nomatch he⟩, rfl, rfl, State.reg_reset, fun _ => get_powerOnMem⟩

/-! ### Data written through the address map -/

/-- The fuel of a write reaches past its last granule. -/
theorem granules_fit (a n : Nat) : a + n ≤ 4096 * (a / 4096 + (n / 4096 + 2)) := by omega

/-- Settles O11: a byte read after a write of data is the last one written under its key, or the byte as it was. -/
theorem memoryWriteThenRead : Obligations.MemoryWriteThenRead := by
  refine ⟨fun s a x i bs hi hm hx hlast => ?_, fun s a x bs hno => ?_⟩
  · obtain ⟨k, hk⟩ := Option.isSome_iff_exists.1 hm
    have got := (stGo_get _ s a bs k (.inr (granules_fit a bs.length))).1 i hi hk
    rw [hx, hk] at hlast
    rw [st_ld1, hx, hk]
    exact got hlast
  · rw [st_ld1]
    unfold State.ld1
    cases hk : s.placeKey (s.place x) with
    | none => rfl
    | some k =>
      rw [hk] at hno
      exact (stGo_get _ s a bs k (.inr (granules_fit a bs.length))).2 hno

end Sys2Proof.Machine

/-! SUPPORT. The reset values of fields, and what a reset leaves in each (R31, R32). -/
namespace Sys2Proof.Machine
open Sys2Proof

/-! ### The reset value of a register -/

theorem foldl_reset_add (fs : List FieldDef) (a : Nat) :
    fs.foldl (fun a f => a + f.rst * 2 ^ f.lo) a = a + fieldsReset fs := by
  unfold fieldsReset
  induction fs generalizing a with
  | nil => rfl
  | cons f fs ih => rw [List.foldl_cons, List.foldl_cons, ih, ih (0 + f.rst * 2 ^ f.lo)]; omega

theorem fieldsReset_cons (f : FieldDef) (fs : List FieldDef) : fieldsReset (f :: fs) = 2 ^ f.lo * f.rst + fieldsReset fs := by
  rw [fieldsReset, List.foldl_cons, foldl_reset_add, Nat.zero_add, Nat.mul_comm]

theorem fieldsOk_cons {f : FieldDef} {fs : List FieldDef} :
    fieldsOk (f :: fs) = true ↔ f.lo ≤ f.hi ∧ f.hi < 32 ∧ f.rst < 2 ^ (f.hi + 1 - f.lo) ∧ (∀ g ∈ fs, g.hi < f.lo) ∧ fieldsOk fs = true := by
  simp only [fieldsOk, Bool.and_eq_true, decide_eq_true_eq, List.all_eq_true, and_assoc]

/-- A field put above a value that ends below it ends where the field ends. -/
theorem field_add_lt {x y hi lo : Nat} (h : lo ≤ hi) (hx : x < 2 ^ (hi + 1 - lo)) (hy : y < 2 ^ lo) : 2 ^ lo * x + y < 2 ^ (hi + 1) := by
  calc 2 ^ lo * x + y < 2 ^ lo * x + 2 ^ lo := by omega
    _ = 2 ^ lo * (x + 1) := (Nat.mul_succ _ _).symm
    _ ≤ 2 ^ lo * 2 ^ (hi + 1 - lo) := Nat.mul_le_mul_left _ hx
    _ = 2 ^ (hi + 1) := by rw [← Nat.pow_add]; congr 1; omega

/-- The reset value ends below any bit above its fields. -/
theorem fieldsReset_lt {fs : List FieldDef} (h : fieldsOk fs = true) {n : Nat} (b : ∀ g ∈ fs, g.hi < n) : fieldsReset fs < 2 ^ n := by
  induction fs generalizing n with
  | nil => exact Nat.two_pow_pos n
  | cons f fs ih =>
    obtain ⟨hlo, -, hr, hb, hfs⟩ := fieldsOk_cons.1 h
    rw [fieldsReset_cons]
    exact Nat.lt_of_lt_of_le (field_add_lt hlo hr (ih hfs hb)) (Nat.pow_le_pow_right (by decide) (b f List.mem_cons_self))

/-- The bits of a field are those of the value below the next field up. -/
theorem bitsOf_mul_add_below {x y hi lo n : Nat} (h : hi < n) (hy : y < 2 ^ n) : bitsOf (2 ^ n * x + y) hi lo = bitsOf y hi lo := by
  apply Nat.eq_of_testBit_eq
  intro i
  rw [testBit_bitsOf, testBit_bitsOf, Nat.testBit_two_pow_mul_add _ hy]
  by_cases c : i < hi + 1 - lo
  · rw [if_pos (by omega)]
  · simp only [c, decide_false, Bool.false_and]

theorem bitsOf_mul_add_top {x y hi lo : Nat} (hx : x < 2 ^ (hi + 1 - lo)) (hy : y < 2 ^ lo) : bitsOf (2 ^ lo * x + y) hi lo = x := by
  unfold bitsOf
  rw [Nat.shiftRight_eq_div_pow, Nat.mul_add_div (Nat.two_pow_pos lo), Nat.div_eq_of_lt hy, Nat.add_zero, Nat.mod_eq_of_lt hx]

/-- Each field of the reset value holds the field's reset value. -/
theorem bitsOf_fieldsReset {fs : List FieldDef} (h : fieldsOk fs = true) {f : FieldDef} (hf : f ∈ fs) : bitsOf (fieldsReset fs) f.hi f.lo = f.rst := by
  induction fs with
  | nil => cases hf
  | cons g gs ih =>
    obtain ⟨-, -, hr, hb, hgs⟩ := fieldsOk_cons.1 h
    have hlt := fieldsReset_lt hgs hb
    rw [fieldsReset_cons]
    rcases List.mem_cons.1 hf with rfl | hf
    · exact bitsOf_mul_add_top hr hlt
    · rw [bitsOf_mul_add_below (hb f hf) hlt, ih hgs hf]

/-- Outside the CRC presets a register's reset value is the one its fields make. -/
theorem regDefault_toNat {o : Nat} (h : ¬ (0xD00000 ≤ o ∧ o < 0xD00080)) : (regDefault o).toNat = fieldsReset (regFields o) := by
  have hok := regFields_ok o
  rw [regDefault, if_neg h, BitVec.toNat_ofNat]
  exact Nat.mod_eq_of_lt (fieldsReset_lt hok fun g hg => (fieldsOk_mem hok hg).2.1)

/-! ### The fields after a reset -/

/-- What a reset of level lvl does to one field of a register's value. -/
def resetField (lvl o : Nat) (a : Word) (f : FieldDef) : Word :=
  if f.surv < lvl then BitVec.ofNat 32 (putBits a.toNat f.hi f.lo (bitsOf (regDefault o).toNat f.hi f.lo)) else a

theorem regAfterReset_eq (lvl o : Nat) (v : Word) : regAfterReset lvl o v = (regFields o).foldl (resetField lvl o) v := rfl

/-- Putting one field back puts its own bits back when the level is above what it survives. -/
theorem bitsOf_resetField_self (lvl o : Nat) (a : Word) {f : FieldDef} (h : f.lo ≤ f.hi) (h32 : f.hi < 32) :
    bitsOf (resetField lvl o a f).toNat f.hi f.lo = bitsOf (if f.surv < lvl then (regDefault o).toNat else a.toNat) f.hi f.lo := by
  unfold resetField
  split
  · rw [BitVec.toNat_ofNat, Nat.mod_eq_of_lt (putBits_lt _ _ h h32 a.isLt), bitsOf_putBits _ _ h, Nat.mod_eq_of_lt (bitsOf_lt _ _ _)]
  · rfl

theorem bitsOf_resetField_apart (lvl o : Nat) (a : Word) {f g : FieldDef} (h : f.lo ≤ f.hi) (h32 : f.hi < 32) (k : f.hi < g.lo ∨ g.hi < f.lo) :
    bitsOf (resetField lvl o a f).toNat g.hi g.lo = bitsOf a.toNat g.hi g.lo := by
  unfold resetField
  split
  · rw [BitVec.toNat_ofNat, Nat.mod_eq_of_lt (putBits_lt _ _ h h32 a.isLt), bitsOf_putBits_apart _ _ h k]
  · rfl

/-- Fields that share no bit with a field leave it alone. -/
theorem bitsOf_foldl_resetField_apart (lvl o : Nat) {fs : List FieldDef} (hok : fieldsOk fs = true) {g : FieldDef}
    (k : ∀ f ∈ fs, f.hi < g.lo ∨ g.hi < f.lo) (a : Word) : bitsOf (fs.foldl (resetField lvl o) a).toNat g.hi g.lo = bitsOf a.toNat g.hi g.lo := by
  induction fs generalizing a with
  | nil => rfl
  | cons f fs ih =>
    obtain ⟨hlo, h32, -, -, hfs⟩ := fieldsOk_cons.1 hok
    rw [List.foldl_cons, ih hfs (fun x hx => k x (List.mem_cons_of_mem _ hx)), bitsOf_resetField_apart lvl o a hlo h32 (k f List.mem_cons_self)]

/-- Each field of a register after a reset of level lvl: its reset value when the level is above what it survives, else what it held. -/
theorem bitsOf_foldl_resetField (lvl o : Nat) {fs : List FieldDef} (hok : fieldsOk fs = true) {f : FieldDef} (hf : f ∈ fs) (a : Word) :
    bitsOf (fs.foldl (resetField lvl o) a).toNat f.hi f.lo = bitsOf (if f.surv < lvl then (regDefault o).toNat else a.toNat) f.hi f.lo := by
  induction fs generalizing a with
  | nil => cases hf
  | cons g gs ih =>
    obtain ⟨hlo, h32, -, hb, hgs⟩ := fieldsOk_cons.1 hok
    rw [List.foldl_cons]
    rcases List.mem_cons.1 hf with rfl | hf
    · rw [bitsOf_foldl_resetField_apart lvl o hgs (fun x hx => .inl (hb x hx)), bitsOf_resetField_self lvl o a hlo h32]
    · rw [ih hgs hf]
      split
      · rfl
      · exact bitsOf_resetField_apart lvl o a hlo h32 (.inr (hb f hf))

/-- A touched register reads its value after the reset; it stands at its reset value where the map does not list it. -/
theorem State.reg_resetRegs (s : State) (lvl : Nat) (dom : Nat → Bool) (o : Nat) (h : keysRise s.regs = true) :
    (s.resetRegs lvl dom).reg o = ((aget s.regs o).map fun v => if dom o then regAfterReset lvl o v else v).getD (regDefault o) := by
  rw [State.reg_eq]
  simp only [State.resetRegs, regsReset]
  rw [aget_filterMap _ _ h]
  · cases hv : aget s.regs o with
    | none => rfl
    | some v =>
      simp only [Option.bind_some, Option.map_some, Option.getD_some]
      by_cases hd : dom o = true
      · by_cases hr : regAfterReset lvl o v = regDefault o <;> simp [hd, hr]
      · simp [hd]
  · intro e x hx
    split at hx
    · split at hx <;> cases hx
      rfl
    · cases hx; rfl

/-- A field after a reset, in the register map at large. -/
theorem State.getF_resetRegs (s : State) (lvl : Nat) (dom : Nat → Bool) {o : Nat} {f : FieldDef} (h : keysRise s.regs = true) (hf : f ∈ regFields o) :
    (s.resetRegs lvl dom).getF ⟨o, f.hi, f.lo⟩ = if dom o = true ∧ f.surv < lvl then bitsOf (regDefault o).toNat f.hi f.lo else s.getF ⟨o, f.hi, f.lo⟩ := by
  simp only [State.getF]
  rw [State.reg_resetRegs s lvl dom o h, State.reg_eq]
  cases aget s.regs o with
  | none => exact (ite_self _).symm
  | some v =>
    simp only [Option.map_some, Option.getD_some]
    by_cases hd : dom o = true
    · rw [if_pos hd, regAfterReset_eq, bitsOf_foldl_resetField lvl o (regFields_ok o) hf]
      simp only [hd, true_and]
      split <;> rfl
    · simp [hd]

/-- Settles O3: no two fields of a register share a bit, so each is put back, or left, on its own. -/
theorem fieldsResetAsTheMapsSay : Obligations.FieldsResetAsTheMapsSay := by
  refine ⟨fun o f hf ho => ?_, fun s lvl dom o f hk hf => ⟨fun hd hl => ?_, fun hn => ?_⟩⟩
  · rw [State.getF, State.reg_reset, regDefault_toNat ho]
    exact bitsOf_fieldsReset (regFields_ok o) hf
  · rw [State.getF_resetRegs s lvl dom hk hf, if_pos ⟨hd, hl⟩]
    rfl
  · rw [State.getF_resetRegs s lvl dom hk hf, if_neg]
    rintro ⟨hd, hl⟩
    rcases hn with hn | hn
    · rw [hd] at hn; cases hn
    · omega

end Sys2Proof.Machine

/-! SUPPORT. The accesses to the setup window (R21–R29): what each form of access answers, and what a locked window keeps. -/
namespace Sys2Proof.Machine
open Sys2Proof

/-! ### What an access answers -/

/-- An outcome whose guard holds. -/
theorem next_if_pos {c : Prop} [Decidable c] {a b : State} (h : c) : (.next (if c then a else b) : Host.Outcome State Fault Refusal) = .next a := by rw [if_pos h]

/-- A read where the requester holds no latch returns the register and captures what goes with it. -/
theorem State.read32_of_unlatched {s : State} {req o : Nat} (h : s.latches.find? (fun e => e.req == req && e.off == o) = none) :
    s.read32 req o = ((captures o).foldl (fun st k => st.capture req k) (s.clearRc o 0 31), s.readWord o) := by
  unfold State.read32; rw [h]

/-- A read where the requester holds a latch returns the latched word and drops it. -/
theorem State.read32_of_latched {s : State} {req o : Nat} {l : Latch} (h : s.latches.find? (fun e => e.req == req && e.off == o) = some l) :
    s.read32 req o = ({ s with latches := s.latches.filter fun x => !(x.req == req && x.off == o) }, l.val.toNat) := by
  unfold State.read32; rw [h]

theorem State.read64_of_pair {s : State} {req o : Nat} (h : pairLow o = true) :
    s.read64 req o = ((s.clearRc o 0 31).clearRc (o + 4) 0 31, s.readWord o + 2 ^ 32 * s.readWord (o + 4)) := if_pos h

/-- Settles O16: each guard holds by the clause's hypotheses, and a read is one of a word with a latch, of a word without, or of a pair. -/
theorem setupAccessesAnswer : Obligations.SetupAccessesAnswer := by
  refine ⟨?_, ?_, ?_, ?_, ?_, ?_, ?_, ?_, ?_, ?_⟩
  · intro s req offset value hr hc hw
    exact next_if_pos (by rw [hr, hc, hw]; rfl)
  · intro s req offset value hr _ hw
    exact next_if_pos (by rw [hr, hw]; rfl)
  · intro s req offset hr hl hh hf hc
    refine (next_if_pos (by rw [hr, hl, hh]; rfl)).trans ?_
    rw [State.read32_of_unlatched hf, hc]
    rfl
  · intro s req offset hr hl hf
    refine (next_if_pos (by rw [hr, hl]; rfl)).trans ?_
    rw [State.read32_of_unlatched hf]
    rfl
  · intro s req offset l hr hh hf
    refine (next_if_pos (by rw [hr, hh]; rfl)).trans ?_
    rw [State.read32_of_latched hf]
    rfl
  · intro s req offset hr h8 hl
    refine (next_if_pos (by rw [hr, h8]; rfl)).trans ?_
    dsimp only
    rw [State.read64_of_pair hl]
    rfl
  · intro s req offset half hr hk
    exact next_if_pos (by rw [hr, decide_eq_true hk]; rfl)
  · intro s req offset size write hr hb
    exact next_if_pos (by rw [hr, hb]; rfl)
  · intro s req offset size write hr hb hd
    exact next_if_pos (by rw [hr, hb, hd]; rfl)
  · intro s req offset size write hr hb hc hl
    exact next_if_pos (by rw [hr, hb, State.resetBlocked, hc, hl]; rfl)

/-- A count of 32 bits that goes up by one, and stops at its largest value. -/
theorem State.getF_bumpSat_word (s : State) (o : Nat) : (s.bumpSat ⟨o, 31, 0⟩).getF ⟨o, 31, 0⟩ = min (s.getF ⟨o, 31, 0⟩ + 1) (2 ^ 32 - 1) := by
  unfold State.bumpSat
  rw [State.getF_setF _ _ _ (Nat.zero_le 31) (by decide : 31 < 32)]
  exact Nat.mod_eq_of_lt (Nat.lt_of_le_of_lt (Nat.min_le_right _ _) (by decide : 2 ^ 32 - 1 < 2 ^ 32))

theorem State.zeroReply_reg (s : State) (r n : Nat) (write : Bool) (o : Nat) : (s.zeroReply r n write).reg o = s.reg o := by cases write <;> rfl

theorem State.zeroReply_out (s : State) (r n : Nat) (write : Bool) : (s.zeroReply r n write).out = s.out ++ if write then [] else [.regData r n 0] := by
  cases write
  · rfl
  · exact (List.append_nil _).symm

/-- Settles O10: the access raises BAD_ACCESS and answers with zeros. -/
theorem undecodedOffsets : Obligations.UndecodedOffsets := by
  intro s req offset size write hr hb hd
  refine ⟨(s.bumpSat fTOP_BAD_ACCESS_COUNT).zeroReply req.val (2 ^ size.val) write, next_if_pos (by rw [hr, hb, hd]; rfl), ?_, ?_, fun o ho => ?_, ?_⟩
  · rw [State.getF, State.zeroReply_reg]
    exact s.getF_bumpSat_word _
  · exact State.zeroReply_out _ _ _ _
  · rw [State.zeroReply_reg]
    exact State.reg_setF_ne s _ _ ho
  · have hp : Need (fun p => [StatePart.regs, StatePart.out].contains p) [.regs, .out] := by unfold Need; decide
    cases write
    · exact (State.ev_emit (hp.sub rfl) (State.ev_bumpSat (hp.sub rfl) (Ev.refl _ s) _ _) _).fr
    · exact (State.ev_bumpSat (hp.sub rfl) (Ev.refl _ s) _ _).fr

/-- Core 0's trace unit on, with one record counted lost and not yet reported. -/
def owingTrace : State := State.setF { traceLost := [(0, 1)] } (fTRC_CFG_ENABLE 0) 1

/-- A write of TRC.CORE[0].READ has the LOST record written, which raises TRC.CORE[0].WRITE (R719). -/
theorem trcRead_write_moves_trcWrite :
    (((owingTrace.countLocked 0xF21010).writeFields 0xF21010 0).afterWrite 0xF21010).reg 0xF2100C = 1 ∧ owingTrace.reg 0xF2100C = 0 := by decide +kernel

/-- Refutes O9: a write of TRC.CORE[0].READ while a LOST record is owed moves another register, TRC.CORE[0].WRITE. -/
theorem not_writesFollowAccessCodes : ¬ Obligations.WritesFollowAccessCodes := by
  intro h
  obtain ⟨t, ht, -, hother⟩ := h owingTrace 4 0xF21010#26 0 (by decide +kernel) (by decide +kernel)
  obtain rfl : ((owingTrace.countLocked 0xF21010).writeFields 0xF21010 0).afterWrite 0xF21010 = t := by
    rw [show hasField (0xF21010#26).toNat .w1c = false by decide +kernel, if_neg Bool.false_ne_true,
      setupAccessesAnswer.1 owingTrace 4 0xF21010#26 0 (by decide +kernel) (by decide +kernel) (by decide +kernel)] at ht
    exact Host.Outcome.next.inj ht
  have hreg := hother 0xF2100C (by decide)
  rw [if_neg (fun hc => absurd hc.1 (by decide)), trcRead_write_moves_trcWrite.1, trcRead_write_moves_trcWrite.2] at hreg
  exact absurd hreg (by decide)

end Sys2Proof.Machine

/-! SUPPORT. The writes that do more than set their fields, and the stages of start-up. -/
namespace Sys2Proof.Machine
open Sys2Proof

/-! ### Writes with effects -/

/-- An open register's write is not counted as refused. -/
theorem State.countLocked_of_open {s : State} {o : Nat} (h : s.rwlOpen o = true) : s.countLocked o = s := by
  unfold State.countLocked
  rw [h, Bool.not_true, Bool.and_false]
  exact if_neg Bool.false_ne_true

/-- VALID written 1 to a region that fits (R244). -/
theorem State.dilWrite_of_fits {s : State} {i v : Nat} (ho : s.rwlOpen 0xC00100 = true) (hv : bitsOf v 31 31 = 1)
    (hf : (s.setF (fMEM_DIL_APER_APER_BASE i) v).dilFits i = true) :
    s.dilWrite i v = (s.setF (fMEM_DIL_APER_APER_BASE i) v).setF (fMEM_DIL_APER_VALID i) 1 := by
  unfold State.dilWrite
  simp only [ho, hv, hf, Bool.not_true, Bool.false_eq_true, if_false, if_true, Nat.one_ne_zero]

/-- ENABLE written 1 to a control pair that is off and whose fields are in range (R336, R343). -/
theorem State.ctlWrite_of_start {s : State} {k v : Nat} (ho : s.rwlOpen (0x100210 + 0x20 * k) = true) (hoff : s.isSet (fHOST_CTL_CFG_ENABLE k) = false)
    (hv : bitsOf v 31 31 = 1) (hok : ((s.writeFields (0x100210 + 0x20 * k) v).setF (fHOST_CTL_CFG_ENABLE k) 0).ctlOk k = true) :
    s.ctlWrite k v = (((s.writeFields (0x100210 + 0x20 * k) v).setF (fHOST_CTL_CFG_ENABLE k) 0).setF (fHOST_CTL_CFG_ENABLE k) 1).ctlStart k := by
  unfold State.ctlWrite
  simp only [ho, hoff, hv, hok, Bool.not_true, Bool.false_eq_true, if_false, Nat.one_ne_zero, Bool.toNat_false]

/-- CFG written with ENABLE 1 to a port that is dark (R390). -/
theorem State.lnkCfgWrite_of_light {s : State} {p v : Nat} (hl : s.isSet fTOP_SETUP_LOCK_LOCK = false) (hv : v / 2 ^ 31 = 1)
    (hd : State.isDark ((((s.setEnable p true).setF (fLNK_CFG_SPLIT p) (v / 2 ^ 30 % 2)).setF (fLNK_CFG_WIDTH_MAX p) (v / 2 ^ 28 % 4)).setF (fLNK_CFG_FF_GAIN p) (v / 2 ^ 16 % 256)) p = true) :
    s.lnkCfgWrite p v =
      ((((s.setEnable p true).setF (fLNK_CFG_SPLIT p) (v / 2 ^ 30 % 2)).setF (fLNK_CFG_WIDTH_MAX p) (v / 2 ^ 28 % 4)).setF (fLNK_CFG_FF_GAIN p) (v / 2 ^ 16 % 256)).lightPort p := by
  unfold State.lnkCfgWrite
  simp only [hl, hv, hd, decide_true, Bool.false_eq_true, if_false, if_true]

/-- A CRC preset with a width in its range (R492). -/
theorem State.chkWrite_of_width {s : State} {k v : Nat} (hw : 8 ≤ bitsOf v 6 0 ∧ bitsOf v 6 0 ≤ 64) : s.chkWrite k v = s.writeFields (0xD00018 + 0x20 * k) v :=
  if_neg fun h => h.2 hw

/-- A trace unit's fields, ENABLE staying 0 where the ring reaches past the mapped scratch (R724). -/
theorem State.trcWrite_eq (s : State) (c v : Nat) :
    s.trcWrite c v = if s.scratchBytes (c / 16) < 4096 * s.getF (fTRC_BASE_OFFSET c) + 4096 * 2 ^ min 11 (s.getF (fTRC_SIZE_LOG2_4K c))
      then (s.writeFields (0xF21000 + 0x20 * c) v).setF (fTRC_CFG_ENABLE c) 0 else s.writeFields (0xF21000 + 0x20 * c) v := rfl

/-- A debug port's write of a register that is there and not held in reset (R710). -/
theorem execDebugPortAccess_write {s : State} {dap : Bool} {addr : DevAddr} {v : Word} (hopen : s.debugOpen = true)
    (hscope : s.getF fDBG_STATE_SCOPE / (if dap then 2 else 1) % 2 = 1) (h4 : addr.toNat % 4 = 0) (hlt : addr.toNat < 0x4000000) (hdec : decoded addr.toNat = true)
    (hblk : s.resetBlocked addr.toNat = false) : execDebugPortAccess dap 0 addr (some v) s = .next (s.write32 addr.toNat v.toNat) := by
  unfold execDebugPortAccess
  rw [hopen, hscope]
  refine congrArg Host.Outcome.next ((if_neg Bool.false_ne_true).trans ((if_neg (Nat.not_le.2 hlt)).trans ((if_neg ?_).trans (if_neg ?_))))
  · rintro (h | h)
    · exact h h4
    · exact h hdec
  · rw [hblk]; exact Bool.false_ne_true

/-- Settles O17: each write reaches its register, and what it does more than set fields is the register's own case. -/
theorem setupWritesWithEffects : Obligations.SetupWritesWithEffects := by
  refine ⟨?_, ?_, ?_, ?_, ?_, ?_, ?_, ?_⟩
  · intro s req value hr
    exact next_if_pos hr
  · intro s req region value hr ho ho' hv hf
    refine (next_if_pos hr).trans ?_
    rw [State.countLocked_of_open ho', State.dilWrite_of_fits ho hv hf]
  · intro s req span value hr ho
    refine (next_if_pos hr).trans (congrArg Host.Outcome.next ?_)
    rw [State.countLocked_of_open ho]
    exact if_pos ho
  · intro s req ring value hr ho hoff hv hok
    refine (next_if_pos hr).trans (congrArg Host.Outcome.next ?_)
    rw [State.countLocked_of_open ho, State.ctlWrite_of_start ho hoff hv hok]
  · intro s port value hl hv hd
    exact congrArg Host.Outcome.next (State.lnkCfgWrite_of_light hl hv hd)
  · intro s req preset value hr ho hw
    refine (next_if_pos hr).trans (congrArg Host.Outcome.next ?_)
    rw [State.countLocked_of_open ho, State.chkWrite_of_width hw]
  · intro s req core value hr _
    refine (next_if_pos hr).trans (congrArg Host.Outcome.next ?_)
    exact State.trcWrite_eq _ _ _
  · intro s dap space addr value v hopen hscope hspace hvalue h4 hlt hdec hblk
    subst hspace hvalue
    exact execDebugPortAccess_write hopen hscope h4 hlt hdec hblk

/-! ### Start-up -/

/-- The latching of the straps (R573, R574), up to the port types and the record of bad parity. -/
def State.straps (s : State) (loc plan bad : Nat) : State :=
  (((State.setF { s.setBoot { s.boot with por := true } with time := { s.time with porAt := s.time.nowNs } } fTOP_STRAPS_PAR_FAIL bad).setF
    fTOP_STRAPS_PLAN plan).setF fTOP_STRAPS_LOC loc).setF fRTE_OWN_ID_ID loc

/-- POR_N released with good parity: the plan gives the ports their types. -/
theorem execPorRelease_good {s : State} {loc : BitVec 20} {plan : BitVec 3} {par : Bool} (hon : s.boot.on = true) (hpor : s.boot.por = false)
    (hpar : parityGo 24 (loc.toNat + 2 ^ 20 * plan.toNat + 2 ^ 23 * par.toNat) = 1) : execPorRelease loc plan par s =
      .next ((List.range 34).foldl (fun st p => st.setF (fRTE_PORT_CFG_TYPE p) (planType plan.toNat p))
        ((s.straps loc.toNat plan.toNat 0).setF fRTE_STATUS_PLAN plan.toNat)) := by
  unfold execPorRelease
  rw [hon, hpor, hpar]
  rfl

/-- POR_N released with bad parity: the ports have no type, and the alert is raised and recorded. -/
theorem execPorRelease_bad {s : State} {loc : BitVec 20} {plan : BitVec 3} {par : Bool} (hon : s.boot.on = true) (hpor : s.boot.por = false)
    (hpar : parityGo 24 (loc.toNat + 2 ^ 20 * plan.toNat + 2 ^ 23 * par.toNat) = 0) : execPorRelease loc plan par s =
      .next ((((List.range 34).foldl (fun st p => st.setF (fRTE_PORT_CFG_TYPE p) 3)
        ((s.straps loc.toNat plan.toNat 1).setF fRTE_STATUS_PLAN plan.toNat)).setF fTOP_ALERT_STRAP_PAR 1).bootRec 2 4 1) := by
  unfold execPorRelease
  rw [hon, hpor, hpar]
  rfl

/-- Settles O18: each guard holds by the clause's hypotheses. -/
theorem startUpStages : Obligations.StartUpStages := by
  refine ⟨?_, ?_, ?_, ?_, ?_, ?_, ?_, ?_, ?_⟩
  · intro s hoff
    exact congrArg Host.Outcome.next (if_neg (by rw [hoff]; exact Bool.false_ne_true))
  · intro s hon
    exact next_if_pos hon
  · intro s loc plan par t hon hpor hpar ht
    exact ht ▸ execPorRelease_good hon hpor hpar
  · intro s loc plan par t hon hpor hpar ht
    exact ht ▸ execPorRelease_bad hon hpor hpar
  · intro s t hon hpor ht hdbg
    subst ht
    refine (congrArg Host.Outcome.next (if_neg (by rw [hon, hpor]; exact Bool.false_ne_true))).trans ?_
    dsimp only
    rw [if_neg hdbg]
  · intro s stage die ok bad0 bad1 hopen h6
    refine (congrArg Host.Outcome.next (if_neg (by rw [hopen]; exact Bool.false_ne_true))).trans ?_
    cases ok
    · rfl
    · rw [if_neg h6]; rfl
  · intro s stage die bad0 bad1 t hopen h6 ht
    subst ht
    refine (congrArg Host.Outcome.next (if_neg (by rw [hopen]; exact Bool.false_ne_true))).trans ?_
    rw [if_pos h6, h6]
    rfl
  · intro s stack ok hboot htrained htries
    obtain ⟨hon, hpor, htrip, h4, hfoot⟩ := hboot
    have hgo : ¬ (!s.boot.on || !s.boot.por || s.power.tripped || !s.boot.stage4 || !s.boot.footingUp (stack.val / 2) || (s.stack stack.val).trained ||
        decide (3 ≤ (s.stack stack.val).trainTries)) = true := by
      rw [hon, hpor, htrip, h4, hfoot, htrained, decide_eq_false (by omega)]; exact Bool.false_ne_true
    refine (congrArg Host.Outcome.next (if_neg hgo)).trans ?_
    cases ok
    · have hmore : (s.stack stack.val).trainTries + 1 < 3 := by omega
      exact congrArg Host.Outcome.next ((if_neg Bool.false_ne_true).trans ((if_pos hmore).trans (if_neg Bool.false_ne_true).symm))
    · rfl
  · intro s span t hready ht
    subst ht
    obtain ⟨h6, hstack, hspan, hreset, hbist⟩ := hready
    exact next_if_pos (by rw [h6, hstack, hspan, hreset, hbist]; rfl)

end Sys2Proof.Machine

/-! SUPPORT. What no access to the setup window changes while it is locked (R27, R296, R336): the RWL fields, and the state fields of the host's rings, which say whether a control
pair is disabled and its registers therefore open. -/
namespace Sys2Proof.Machine
open Sys2Proof

/-! ### The fields held -/

/-- The fields that a locked window holds: RWL fields, and the RO fields of the queue states of HOST (0x180000 to 0x1FFFFF). -/
def lockHeld (o : Nat) (f : FieldDef) : Bool := f.acc == .rwl || (f.acc == .ro && o / 0x80000 == 3)

/-- Every held field stands from s to t. -/
def LockKept (s t : State) : Prop := ∀ o f, f ∈ regFields o → lockHeld o f = true → t.getF ⟨o, f.hi, f.lo⟩ = s.getF ⟨o, f.hi, f.lo⟩

/-- The window is locked and no control pair opens its part of it. -/
def State.shut (s : State) : Prop := s.getF fTOP_SETUP_LOCK_LOCK = 1 ∧ ∀ k, k < 8 → s.ctlDisabled k = false

theorem State.shut_rwlOpen {s : State} (h : s.shut) (o : Nat) : s.rwlOpen o = false := by
  obtain ⟨hlock, hdis⟩ := h
  have hany : ((List.range 8).any fun k => s.ctlDisabled k &&
      ((decide (0x100200 + 0x20 * k ≤ o) && decide (o < 0x100220 + 0x20 * k)) ||
       (let f := pfIx (s.getF (fHOST_CTL_CFG_FID k)); decide (0x100100 + 0x10 * f ≤ o) && decide (o < 0x100110 + 0x10 * f)))) = false := by
    rw [List.any_eq_false]
    intro k hk
    rw [hdis k (List.mem_range.1 hk)]
    exact Bool.false_ne_true
  rw [State.rwlOpen, hany, State.isSet, hlock]
  rfl

theorem State.shut_isSet_lock {s : State} (h : s.shut) : s.isSet fTOP_SETUP_LOCK_LOCK = true := by rw [State.isSet, h.1]; rfl

theorem setupLock_mem : (⟨0, 0, .rwl, 0, 3⟩ : FieldDef) ∈ regFields 0x20 := by decide +kernel

theorem disabled_mem : ∀ k, k < 8 → (⟨29, 29, .ro, 0, 4⟩ : FieldDef) ∈ regFields (0x180004 + 8 * k) ∧ lockHeld (0x180004 + 8 * k) ⟨29, 29, .ro, 0, 4⟩ = true ∧
    (⟨29, 29, .ro, 0, 4⟩ : FieldDef) ∈ regFields (0x1C0004 + 8 * k) ∧ lockHeld (0x1C0004 + 8 * k) ⟨29, 29, .ro, 0, 4⟩ = true := by decide +kernel

/-- The lock and the DISABLED fields are held themselves. -/
theorem LockKept.shut {s t : State} (h : LockKept s t) (hs : s.shut) : t.shut := by
  refine ⟨(h _ _ setupLock_mem rfl).trans hs.1, fun k hk => ?_⟩
  obtain ⟨hsq, hsq', hcq, hcq'⟩ := disabled_mem k hk
  have esq : t.getF (fHOST_SQ_STATE_HI_DISABLED k) = s.getF (fHOST_SQ_STATE_HI_DISABLED k) := h _ _ hsq hsq'
  have ecq : t.getF (fHOST_CQ_STATE_HI_DISABLED k) = s.getF (fHOST_CQ_STATE_HI_DISABLED k) := h _ _ hcq hcq'
  rw [← hs.2 k hk]
  unfold State.ctlDisabled State.isSet
  rw [esq, ecq]

theorem LockKept.refl (s : State) : LockKept s s := fun _ _ _ _ => rfl

theorem LockKept.trans {s t u : State} (h : LockKept s t) (k : LockKept t u) : LockKept s u := fun o f hf hl => (k o f hf hl).trans (h o f hf hl)

/-- What leaves the register map leaves every field. -/
theorem LockKept.of_regs {s t : State} (h : t.regs = s.regs) : LockKept s t := fun o _ _ _ => by
  simp only [State.getF, State.reg_eq, h]

/-- A field that is not held shares no bit with one that is. -/
theorem LockKept.setF (s : State) {o : Nat} {f : FieldDef} (hf : f ∈ regFields o) (hn : lockHeld o f = false) (x : Nat) : LockKept s (s.setF ⟨o, f.hi, f.lo⟩ x) := by
  intro p g hg hl
  obtain ⟨hlo, h32, -⟩ := fieldsOk_mem (regFields_ok o) hf
  refine State.getF_setF_apart s _ _ x hlo h32 ?_
  by_cases e : p = o
  · subst e
    rcases fieldsOk_apart (regFields_ok p) hf hg with rfl | a
    · rw [hn] at hl; cases hl
    · exact .inr a
  · exact .inl e

/-- Steps that each keep the held fields, one after the other. -/
theorem LockKept.foldl {α : Type} {f : State → α → State} {l : List α} (h : ∀ st a, a ∈ l → LockKept st (f st a)) (s : State) : LockKept s (l.foldl f s) := by
  induction l generalizing s with
  | nil => exact LockKept.refl s
  | cons a as ih => exact (h s a List.mem_cons_self).trans (ih (fun st b hb => h st b (List.mem_cons_of_mem _ hb)) _)

/-- Whether a named field is a field of the map that a locked window does not hold. -/
def lockFree (f : Fld) : Bool := (regFields f.off).any fun g => g.hi == f.hi && g.lo == f.lo && !lockHeld f.off g

theorem LockKept.setF_free (s : State) {f : Fld} (h : lockFree f = true) (x : Nat) : LockKept s (s.setF f x) := by
  obtain ⟨g, hg, hb⟩ := List.any_eq_true.1 h
  simp only [Bool.and_eq_true, beq_iff_eq, Bool.not_eq_true'] at hb
  obtain ⟨⟨hhi, hlo⟩, hn⟩ := hb
  have k := LockKept.setF s hg hn x
  rwa [hhi, hlo] at k

theorem LockKept.bumpSat (s : State) {f : Fld} (h : lockFree f = true) (n : Nat) : LockKept s (s.bumpSat f n) := LockKept.setF_free s h _

/-- The counts of the window's accesses. -/
theorem lockFree_counts : lockFree fTOP_LOCK_WRITES_COUNT = true ∧ lockFree fTOP_BAD_ACCESS_COUNT = true ∧ lockFree fTOP_RESET_BLOCKED_COUNT = true := by decide +kernel

/-! ### The registers of the trace units -/

/-- Whether a register array may have an element at an offset from lo to hi − 1, by its first offset and its outermost dimension. -/
def regMayReach (lo hi : Nat) (r : RegDef) : Bool := decide (r.off < hi) && match r.dims with
  | [] => decide (lo ≤ r.off)
  | (n, st) :: _ => st == 0 || decide (lo < r.off + n * st)

theorem regMayReach_of_covers {r : RegDef} {lo hi o : Nat} (h : regCovers r o = true) (h1 : lo ≤ o) (h2 : o < hi) : regMayReach lo hi r = true := by
  obtain ⟨off, dims, pair, fields⟩ := r
  simp only [regCovers, Bool.and_eq_true, decide_eq_true_eq] at h
  obtain ⟨hlo, hd⟩ := h
  simp only [regMayReach, Bool.and_eq_true, decide_eq_true_eq]
  refine ⟨by omega, ?_⟩
  cases dims with
  | nil =>
    simp only [dimsCover, beq_iff_eq] at hd
    exact decide_eq_true (by omega)
  | cons e ds =>
    simp only [dimsCover, Bool.and_eq_true, decide_eq_true_eq] at hd
    rcases Nat.eq_zero_or_pos e.2 with h0 | hpos
    · simp [h0]
    · have := (Nat.div_lt_iff_lt_mul hpos).1 hd.1
      simp only [Bool.or_eq_true, decide_eq_true_eq]
      exact .inr (by omega)

/-- Only a register array that reaches into a range of offsets covers one of them. -/
theorem findReg_within {lo hi o : Nat} (h1 : lo ≤ o) (h2 : o < hi) : findReg o = (regTable.filter (regMayReach lo hi)).find? (regCovers · o) := by
  rw [List.find?_filter]
  refine congrArg (regTable.find? ·) (funext fun r => ?_)
  by_cases hc : regCovers r o = true
  · simp [hc, regMayReach_of_covers hc h1 h2]
  · simp [hc]

theorem regTable_trc : regTable.filter (regMayReach 0xF21000 0xF22000) = regsTrc := by decide +kernel

/-- The fields of a trace unit that a write moves. -/
theorem lockFree_trc : ∀ c, c < 128 → lockFree (fTRC_WRITE_COUNT c) = true ∧ lockFree (fTRC_CFG_ENABLE c) = true := by
  intro c hc
  unfold lockFree regFields
  rw [findReg_within (lo := 0xF21000) (hi := 0xF22000) (by simp only [fTRC_WRITE_COUNT]; omega) (by simp only [fTRC_WRITE_COUNT]; omega),
    findReg_within (lo := 0xF21000) (hi := 0xF22000) (by simp only [fTRC_CFG_ENABLE]; omega) (by simp only [fTRC_CFG_ENABLE]; omega), regTable_trc]
  revert c
  decide +kernel

/-! ### Reads -/

theorem LockKept.emit (s : State) (x : Out) : LockKept s (s.emit x) := LockKept.of_regs rfl

theorem LockKept.clearRc (s : State) (o lo hi : Nat) : LockKept s (s.clearRc o lo hi) := by
  refine LockKept.foldl (fun st f hf => ?_) s
  split
  · next h => exact LockKept.setF st hf (by rw [lockHeld, h.1]; rfl) 0
  · exact LockKept.refl st

theorem LockKept.capture (s : State) (req o : Nat) : LockKept s (s.capture req o) :=
  LockKept.trans (LockKept.of_regs rfl) (LockKept.clearRc _ o 0 31)

theorem LockKept.read32 (s : State) (req o : Nat) : LockKept s (s.read32 req o).1 := by
  unfold State.read32
  split
  · exact LockKept.of_regs rfl
  · exact (LockKept.clearRc s o 0 31).trans (LockKept.foldl (fun st k _ => LockKept.capture st req k) _)

theorem LockKept.read64 (s : State) (req o : Nat) : LockKept s (s.read64 req o).1 := by
  unfold State.read64
  split
  · exact (LockKept.clearRc s o 0 31).trans (LockKept.clearRc _ (o + 4) 0 31)
  · exact (LockKept.read32 s req o).trans (LockKept.read32 _ req (o + 4))

theorem LockKept.reply {s : State} {x : State × Nat} (h : LockKept s x.1) (r n : Nat) : LockKept s (State.reply x r n) := h.trans (LockKept.emit _ _)

theorem LockKept.zeroReply {s t : State} (h : LockKept s t) (r n : Nat) (write : Bool) : LockKept s (t.zeroReply r n write) := by
  cases write
  · exact h.trans (LockKept.emit _ _)
  · exact h

/-! ### Writes while the window is shut -/

/-- From a shut window on, every held field stands. -/
def ShutKept (s t : State) : Prop := s.shut → LockKept s t

theorem ShutKept.trans {s t u : State} (h : ShutKept s t) (k : ShutKept t u) : ShutKept s u := fun hs => (h hs).trans (k ((h hs).shut hs))

theorem ShutKept.ite {s a b : State} {c : Prop} [Decidable c] (ha : ShutKept s a) (hb : ShutKept s b) : ShutKept s (if c then a else b) := by
  split
  · exact ha
  · exact hb

/-- A command whose guard fails leaves the state. -/
theorem ShutKept.guard {s a : State} {c : Prop} [Decidable c] (h : ShutKept s a) : ShutKept s (if c then a else s) := h.ite fun _ => LockKept.refl s

theorem ShutKept.countLocked (s : State) (o : Nat) : ShutKept s (s.countLocked o) :=
  ShutKept.guard fun _ => LockKept.bumpSat s lockFree_counts.1 1

/-- A write sets RW fields and clears W1C fields; the RWL fields are shut. -/
theorem ShutKept.writeFields (s : State) (o v : Nat) : ShutKept s (s.writeFields o v) := by
  intro hs
  unfold State.writeFields
  rw [State.shut_rwlOpen hs]
  refine LockKept.foldl (fun st f hf => ?_) s
  have hn (h : f.acc = .rw ∨ f.acc = .w1c) : lockHeld o f = false := by rcases h with h | h <;> rw [lockHeld, h] <;> rfl
  dsimp only
  split
  · next h => exact LockKept.setF st hf (hn (.inl h)) _
  · exact LockKept.refl st
  · next h => exact LockKept.setF st hf (hn (.inr h)) _
  · exact LockKept.refl st

/-- Memory is no register. -/
theorem State.st_regs (s : State) (a : Nat) (bs : List Byte) : (s.st a bs).regs = s.regs := by
  have ev : Ev (fun p => [StatePart.mm, StatePart.mem].contains p) s (s.st a bs) := State.ev_st (by unfold Need; decide) (Ev.refl _ s) a bs
  have e := congrArg State.regs ev.fr
  exact e

theorem LockKept.tracePut (s : State) {c : Nat} (h : c < 128) (r : TraceRec) : LockKept s (s.tracePut c r) :=
  LockKept.trans (LockKept.of_regs (State.st_regs _ _ _)) (LockKept.setF_free _ (lockFree_trc c h).1 _)

theorem LockKept.traceLostFirst (s : State) {c : Nat} (h : c < 128) : LockKept s (s.traceLostFirst c) := by
  unfold State.traceLostFirst
  dsimp only
  split
  · have e : LockKept s { s with traceLost := adel s.traceLost c } := LockKept.of_regs rfl
    exact e.trans (LockKept.tracePut _ h _)
  · exact LockKept.refl s

theorem trcReadOf_lt {o c : Nat} (h : trcReadOf o = some c) : c < 128 := by
  unfold trcReadOf at h
  split at h
  · cases h; omega
  · cases h

theorem LockKept.afterWrite (s : State) (o : Nat) : LockKept s (s.afterWrite o) := by
  unfold State.afterWrite
  split
  · next c hc =>
    split
    · exact LockKept.traceLostFirst s (trcReadOf_lt hc)
    · exact LockKept.refl s
  · exact LockKept.refl s

theorem ShutKept.lnkCfgWrite (s : State) (p v : Nat) : ShutKept s (s.lnkCfgWrite p v) := by
  intro hs
  unfold State.lnkCfgWrite
  rw [if_pos (State.shut_isSet_lock hs)]
  exact LockKept.bumpSat s lockFree_counts.1 1

theorem ShutKept.dilWrite (s : State) (i v : Nat) : ShutKept s (s.dilWrite i v) := by
  intro hs
  unfold State.dilWrite
  rw [State.shut_rwlOpen hs]
  exact LockKept.refl s

theorem ShutKept.deckWrite (s : State) (n v : Nat) : ShutKept s (s.deckWrite n v) := by
  intro hs
  unfold State.deckWrite
  dsimp only
  rw [State.shut_rwlOpen hs]
  exact LockKept.refl s

theorem ShutKept.ctlWrite (s : State) (k v : Nat) : ShutKept s (s.ctlWrite k v) := by
  intro hs
  unfold State.ctlWrite
  dsimp only
  rw [State.shut_rwlOpen hs]
  exact LockKept.refl s

theorem ShutKept.chkWrite (s : State) (k v : Nat) : ShutKept s (s.chkWrite k v) := by
  intro hs
  unfold State.chkWrite
  dsimp only
  rw [State.shut_rwlOpen hs]
  exact ShutKept.writeFields s _ v hs

theorem ShutKept.trcWrite (s : State) {c : Nat} (h : c < 128) (v : Nat) : ShutKept s (s.trcWrite c v) := by
  intro hs
  have hw := ShutKept.writeFields s (0xF21000 + 0x20 * c) v hs
  unfold State.trcWrite
  dsimp only
  split
  · exact hw.trans (LockKept.setF_free _ (lockFree_trc c h).2 0)
  · exact hw

theorem writeClass_trc_lt {o c : Nat} (h : writeClass o = (7, c)) : c < 128 := by
  unfold writeClass at h
  dsimp only at h
  repeat' split at h
  all_goals cases h
  next _ _ _ _ _ _ hc =>
    split at hc
    · next hi => cases hc; exact hi.2.2
    · cases hc

/-- A write of any register, whatever more its write does. -/
theorem ShutKept.writeReg (s : State) (o v : Nat) : ShutKept s (s.writeReg o v) := by
  unfold State.writeReg
  split
  · exact ShutKept.writeFields s o v
  · exact ShutKept.lnkCfgWrite s _ v
  · exact ShutKept.dilWrite s _ v
  · exact ShutKept.deckWrite s _ v
  · exact ShutKept.ctlWrite s _ v
  · exact ShutKept.chkWrite s _ v
  · next h => exact ShutKept.trcWrite s (writeClass_trc_lt h) v
  · exact (ShutKept.writeFields s o v).trans fun _ => LockKept.afterWrite _ o

theorem ShutKept.write32 (s : State) (o v : Nat) : ShutKept s (s.write32 o v) :=
  ShutKept.ite (ShutKept.writeReg s o v) ((ShutKept.countLocked s o).trans (ShutKept.writeReg _ o v))

theorem ShutKept.write64 (s : State) (o v : Nat) : ShutKept s (s.write64 o v) := by
  unfold State.write64
  refine ShutKept.ite (((ShutKept.guard fun _ => ?_).trans (ShutKept.writeReg _ _ _)).trans (ShutKept.writeReg _ _ _)) ((ShutKept.write32 s _ _).trans (ShutKept.write32 _ _ _))
  exact LockKept.bumpSat s lockFree_counts.1 1

/-! ### The commands -/

/-- A property of the state that an outcome was made from holds of the state it answers. -/
theorem of_next_eq {t u : State} {Q : State → Prop} (h : (.next u : Host.Outcome State Fault Refusal) = .next t) (k : Q u) : Q t := Host.Outcome.next.inj h ▸ k

/-- Every command of the setup window keeps what a shut window holds. -/
theorem exec_setup_shutKept {i : Instr} {s t : State} (hi : setupCommand i = true) (h : exec i s = .next t) : ShutKept s t := by
  cases i with
  | registerWrite req offset value =>
    exact of_next_eq h (((ShutKept.countLocked s _).trans (ShutKept.writeFields _ _ _)).trans fun _ => LockKept.afterWrite _ _).guard
  | w1cWrite req offset value => exact of_next_eq h ((ShutKept.countLocked s _).trans (ShutKept.writeFields _ _ _)).guard
  | rcFieldRead req offset => exact of_next_eq h (ShutKept.guard fun _ => (LockKept.read32 s _ _).reply _ _)
  | pairLowRead req offset => exact of_next_eq h (ShutKept.guard fun _ => (LockKept.read32 s _ _).reply _ _)
  | pairHighRead req offset => exact of_next_eq h (ShutKept.guard fun _ => (LockKept.read32 s _ _).reply _ _)
  | pair64bitAccess req offset write =>
    cases write with
    | none => exact of_next_eq h (ShutKept.guard fun _ => (LockKept.read64 s _ _).reply _ _)
    | some v => exact of_next_eq h (ShutKept.write64 s _ _).guard
  | narrowRead req offset half => exact of_next_eq h (ShutKept.guard fun _ => LockKept.reply (x := (_, _)) (LockKept.clearRc s _ _ _) _ _)
  | badAccess req offset size write => exact of_next_eq h (ShutKept.guard fun _ => (LockKept.bumpSat s lockFree_counts.2.1 1).zeroReply _ _ _)
  | unmappedAccess req offset size write => exact of_next_eq h (ShutKept.guard fun _ => (LockKept.bumpSat s lockFree_counts.2.1 1).zeroReply _ _ _)
  | resetBlockedAccess req offset size write => exact of_next_eq h (ShutKept.guard fun _ => (LockKept.bumpSat s lockFree_counts.2.2 1).zeroReply _ _ _)
  | setupLockWrite req value => exact of_next_eq h ((ShutKept.countLocked s _).trans (ShutKept.writeFields _ _ _)).guard
  | dilValidWrite req region value => exact of_next_eq h ((ShutKept.countLocked s _).trans (ShutKept.dilWrite _ _ _)).guard
  | deckSplitWrite req span value => exact of_next_eq h ((ShutKept.countLocked s _).trans (ShutKept.deckWrite _ _ _)).guard
  | ctlEnableWrite req ring value => exact of_next_eq h ((ShutKept.countLocked s _).trans (ShutKept.ctlWrite _ _ _)).guard
  | lnkCfgWrite port value => exact of_next_eq h (ShutKept.lnkCfgWrite s _ _)
  | chkPresetCfgWrite req preset value => exact of_next_eq h ((ShutKept.countLocked s _).trans (ShutKept.chkWrite _ _ _)).guard
  | traceEnableWrite req core value => exact of_next_eq h ((ShutKept.countLocked s _).trans (ShutKept.trcWrite _ core.isLt _)).guard
  | _ => cases hi

/-- Settles O8: RWL fields are among the fields that a shut window holds. -/
theorem lockedFieldsStand : Obligations.LockedFieldsStand := by
  intro i s t o f hi hlock hdis h hf hacc
  exact exec_setup_shutKept hi h ⟨hlock, hdis⟩ o f hf (by rw [lockHeld, hacc]; rfl)

end Sys2Proof.Machine

/-! SUPPORT. The commands that make, end and move the host's rings (R328, R329, R340), and FUNC_CONFIG of a virtual function (R330). -/
namespace Sys2Proof.Machine
open Sys2Proof

/-- A ring command whose descriptor is the ring's next one is carried out on it. -/
theorem State.ringCmd_of_nextCmd {s : State} {n op : Nat} {f : InFlight} (h : s.nextCmd n op = some f) (k : State → InFlight → State) :
    s.ringCmd n op k = k s f := by
  unfold State.ringCmd; rw [h]

/-- The outcome of a ring command whose descriptor is the ring's next one. -/
theorem next_ringCmd_eq {s t : State} {n op : Nat} {f : InFlight} {k : State → InFlight → State} (h : s.nextCmd n op = some f) (e : k s f = t) :
    (.next (s.ringCmd n op k) : Host.Outcome State Fault Refusal) = .next t := by rw [State.ringCmd_of_nextCmd h, e]

/-- RING_CREATE of an SQ with no BAD_RING condition and fields in range. -/
theorem State.ringCreate_of_sq {s : State} {f : InFlight} (hsq : recBits f.desc 10 1 0 0 ≠ 1)
    (hring : s.createBad false (recNat f.desc 8 2) (recNat f.desc 12 1) (recNat f.desc 13 1) (recNat f.desc 14 2) = false)
    (hrange : 4 ≤ recNat f.desc 11 1 ∧ recNat f.desc 11 1 ≤ 15 ∧ recNat f.desc 16 8 % 4096 = 0) :
    s.ringCreate f = (s.makeSq (recNat f.desc 8 2) (recNat f.desc 14 2) (recNat f.desc 11 1) (recNat f.desc 12 1) (recNat f.desc 13 1)
      (recNat f.desc 16 8) (recBits f.desc 26 1 0 0)).finish f 0x80 [] := by
  have hfields : ¬ (recNat f.desc 11 1 < 4 ∨ 15 < recNat f.desc 11 1 ∨ recNat f.desc 16 8 % 4096 ≠ 0) := by omega
  unfold State.ringCreate
  simp only [beq_false_of_ne hsq, hring, hfields, Bool.false_eq_true, if_false]

/-- RING_DESTROY of a valid SQ none of whose descriptors is in flight. -/
theorem State.ringDestroy_of_idle {s : State} {f : InFlight} {n : Nat} (hn : recNat f.desc 8 2 = n) (hlo : 8 ≤ n) (hhi : n < 32768)
    (hsq : recBits f.desc 10 1 0 0 ≠ 1) (hvalid : s.sqValid n = true)
    (hidle : (s.setSq n { s.sq n with destroying := true }).host.flights.any (·.sq == n) = false) :
    s.ringDestroy f = ((s.setSq n { s.sq n with destroying := true }).dropSq n).finish f 0x80 [] := by
  have hno : ¬ (n < 8 ∨ 32768 ≤ n) := by omega
  unfold State.ringDestroy
  simp only [hn, hno, hsq, hvalid, hidle, Bool.not_true, Bool.false_eq_true, if_false]

/-- RING_DESTROY_DONE when the SQ that a started RING_DESTROY names has no descriptor left. -/
theorem execRingDestroyDone_of_last {s : State} {ring : RingNo} {f : InFlight}
    (hf : s.host.flights.find? (fun f => f.opcode == 0x11 && f.stage == .started && f.a == ring.toNat) = some f)
    (hlast : s.host.flights.any (·.sq == ring.toNat) = false) :
    execRingDestroyDone ring s = .next ((s.dropSq ring.toNat).finish f 0x80 []) := by
  unfold execRingDestroyDone
  rw [hf, hlast]
  rfl

/-- RING_MOVE of an SQ that may move: it stays where it is on already, and moves to the other function else. -/
theorem State.ringMove_of_sq {s : State} {f : InFlight} {n : Nat} {toStby : Bool} (ptr : Word) (hn : recNat f.desc 8 2 = n) (hlo : 8 ≤ n) (hhi : n < 32768)
    (hsq : (recBits f.desc 10 1 0 0 == 1) = false) (hto : (recBits f.desc 11 1 0 0 == 1) = toStby) (hvalid : s.sqValid n = true)
    (hstby : (s.sq n).stby ≠ 0xFF)
    (hup : s.isSet (fHOST_LINK_UP (s.fidLink (if toStby then (s.sq n).stby else s.getF (fHOST_SQ_STATE_HI_FID n)))) = true) :
    s.ringMove ptr f = (if s.isSet (fHOST_SQ_STATE_HI_ON_STBY n) = toStby then s else s.moveSq n toStby (some ptr.toNat)).finish f 0x80 [] := by
  unfold State.ringMove
  simp only [hn, hsq, hto, hvalid, hstby, hup, Nat.not_lt.2 hlo, Nat.not_le.2 hhi, Bool.not_true, Bool.false_eq_true, if_false, or_self]
  split
  · rfl
  · rfl

/-- FUNC_CONFIG of a virtual function with fields in range and no error CQ. -/
theorem State.funcConfig_of_vf {s : State} {f : InFlight} {fid : Nat} (hn : recNat f.desc 8 1 = fid) (hfid : s.fidNames fid = true) (hvf : isPf fid = false)
    (hdb : recNat f.desc 16 8 % 4096 = 0) (hbase : recNat f.desc 24 8 % 4096 = 0) (hsize : recNat f.desc 32 8 % 4096 = 0)
    (hlo : recNat f.desc 12 2 < 4096) (hhi : recNat f.desc 14 2 < 4096) (hcq : recNat f.desc 10 2 = 0xFFFF) :
    s.funcConfig f = (s.setFn fid { s.fn fid with
      enabled := recBits f.desc 9 1 0 0 == 1, errCq := 0xFFFF, slotLo := recNat f.desc 12 2, slotHi := recNat f.desc 14 2,
      memBase := recNat f.desc 24 8, memSize := recNat f.desc 32 8, dbBase := recNat f.desc 16 8 }).finish f 0x80 [] := by
  have hrange : ¬ (recNat f.desc 24 8 % 4096 ≠ 0 ∨ recNat f.desc 32 8 % 4096 ≠ 0 ∨ 4096 ≤ recNat f.desc 12 2 ∨ 4096 ≤ recNat f.desc 14 2) := by omega
  unfold State.funcConfig
  simp only [hn, hfid, hvf, hdb, hrange, hcq, Bool.not_true, Bool.false_eq_true, bne_self_eq_false, Bool.false_and, ne_eq, not_true_eq_false, and_false,
    or_self, if_false]

/-- Settles O32: the command carried out is the ring's next descriptor, and each takes the branch that the clause's hypotheses leave. -/
theorem ringCommandsComplete : Obligations.RingCommandsComplete := by
  refine ⟨?_, ?_, ?_, ?_, ?_, ?_⟩
  · intro s sq f hcmd hsq hring hrange
    exact next_ringCmd_eq hcmd (State.ringCreate_of_sq hsq hring hrange)
  · intro s sq f n hcmd hring hvalid hidle
    obtain ⟨hn, hlo, hhi, hsq⟩ := hring
    exact next_ringCmd_eq hcmd (State.ringDestroy_of_idle hn hlo hhi hsq hvalid hidle)
  · intro s ring f hf hlast
    exact execRingDestroyDone_of_last hf hlast
  · intro s sq ptr f n toStby hcmd hring hmay hup
    obtain ⟨hn, hlo, hhi, hsq, hto⟩ := hring
    obtain ⟨hvalid, hstby⟩ := hmay
    exact next_ringCmd_eq hcmd (State.ringMove_of_sq ptr hn hlo hhi hsq hto hvalid hstby hup)
  · intro s sq f fid hcmd hfn hrange hcq
    obtain ⟨hn, hfid, hvf, hdb⟩ := hfn
    obtain ⟨hbase, hsize, hlo, hhi⟩ := hrange
    exact next_ringCmd_eq hcmd (State.funcConfig_of_vf hn hfid hvf hdb hbase hsize hlo hhi hcq)
  · intro s sq f hcmd
    exact next_ringCmd_eq hcmd rfl

end Sys2Proof.Machine

/-! SUPPORT. What the memories do by themselves: the end of a retirement copy (R270), a window of the balance monitor (R276), the handover of a stack (R45) and the end of
BIST (R274). -/
namespace Sys2Proof.Machine
open Sys2Proof

/-- The copy at the head of a stack's retirement queue ends; u is the state in which its failing blocks are marked. -/
theorem State.retireCopied_cons {s u : State} {n page faulty : Nat} {rest bad : List Nat} (h : (s.stack n).retireQ = page :: rest)
    (hu : u = bad.foldl (fun st b => st.hbmUe n (0x80000 * page + b * 64)) s) :
    s.retireCopied n bad faulty = ((u.setStack n { u.stack n with retireQ := rest }).setF (fHBM_STATUS_RETIRING n)
      (if rest.isEmpty then 0 else 1)).retireNow n page faulty := by
  subst hu
  unfold State.retireCopied
  rw [h]

/-- A window with enough granules whose busiest pseudo-channel stays below the skew limit reports its share and ends the run of skewed windows. -/
theorem State.skewWindow_of_even {s : State} {n total : Nat} (hen : s.isSet (fHBM_CFG_SKEW_EN n) = true)
    (htotal : sumNat ((s.stack n).chan.map (·.2)) = total) (hmany : 2400 ≤ total) (heven : (busiest (s.stack n).chan).2 * 32 < 4 * total) :
    s.skewWindow n = (s.setStack n { s.stack n with chan := [], badWindows := 0 }).setF (fHBM_SKEW_RATIO_X8 n)
      (min 255 ((busiest (s.stack n).chan).2 * 32 * 8 / total)) := by
  have hrun : ¬ 10 ≤ 0 := by decide
  unfold State.skewWindow
  simp only [hen, htotal, Nat.not_lt.2 hmany, Nat.not_le.2 heven, hrun, Bool.not_true, Bool.false_eq_true, if_false, false_and]

/-- A handover that is asked for gives the stack to the controller that asked. -/
theorem execStackHandover_of_asked {s : State} {stack : SpanIx} (h : (s.stack stack.val).handover = 1 ∨ (s.stack stack.val).handover = 2) :
    execStackHandover stack s = .next (s.ownStack stack.val ((s.stack stack.val).handover == 2)) := by
  unfold execStackHandover
  rcases h with h | h
  · rw [h]; rfl
  · rw [h]; rfl

/-- BIST ends with no failing cell; u is the state with the contents undefined. HBM_TEST completes with the count of pages retired since u. -/
theorem State.bistDone_nil {s u : State} {n : Nat} {f : InFlight} (hbist : (s.stack n).bist = true)
    (hu : u = (s.setStack n { s.stack n with bist := false }).forgetStack n) (hf : (u.setF (fHBM_STATUS_BIST_FAIL n) 0).bistFlight n = some f) :
    s.bistDone n [] = (u.setF (fHBM_STATUS_BIST_FAIL n) 0).finish f 0x60 (leBytes 4 ((u.setF (fHBM_STATUS_BIST_FAIL n) 0).retired n - u.retired n)) := by
  unfold State.bistDone
  simp only [hbist, ← hu, hf, List.eraseDups_nil, List.filter_nil, List.foldl_nil, List.isEmpty_nil, Bool.not_true, Bool.false_eq_true, if_false]

/-- Settles O35: each event's condition holds by the clause's hypotheses, and the event is then the operation that the rule names. -/
theorem memoryEventsAct : Obligations.MemoryEventsAct := by
  refine ⟨?_, ?_, ?_, ?_, ?_, ?_⟩
  · intro s stack hits hon htrained
    exact next_if_pos ⟨hon, htrained⟩
  · intro s stack bad faulty page rest hq
    exact congrArg Host.Outcome.next (State.retireCopied_cons hq (by rw [List.foldl_map]))
  · intro s stack total hen htotal hmany heven
    exact congrArg Host.Outcome.next (State.skewWindow_of_even hen htotal hmany heven)
  · intro s span hwait
    exact congrArg Host.Outcome.next (if_neg hwait)
  · intro s stack hasked
    exact execStackHandover_of_asked hasked
  · intro s stack f hbist hf hsame
    refine congrArg Host.Outcome.next ((State.bistDone_nil hbist rfl hf).trans ?_)
    rw [hsame, Nat.sub_self]

end Sys2Proof.Machine

/-! SUPPORT. Registering graph images, submitting a step and resolving one (R71, R76, R79, R106, R307, R331, R332). -/
namespace Sys2Proof.Machine
open Sys2Proof

/-- GRAPH_REGISTER of an image that passes, into a slot that is not registered. -/
theorem State.graphRegister_of_good {s : State} {f : InFlight} {a slot : Nat} {img : List Byte} (ha : recBits f.desc 8 8 39 0 = a) (halign : a % 64 = 0)
    (hslot : recNat f.desc 16 2 = slot) (hmax : slot ≤ s.getF fTOP_STEP_CFG_GRAPH_SLOTS_M1) (himg : s.checkImage a = .inr img)
    (hfree : ((aget s.steps.graphs slot).getD {}).reg = false) {g : GraphSlot}
    (hg : g = graphSlotOf ((((aget s.steps.graphs slot).getD {}).gen + 1) % 4096) a img) :
    s.graphRegister f = (s.setGraph slot g).finish f 0x40 (leBytes 4 ((s.setGraph slot g).handleOf slot g)) := by
  unfold State.graphRegister
  simp only [ha, halign, hslot, Nat.not_lt.2 hmax, himg, hfree, hg, ne_eq, not_true_eq_false, Bool.false_and, Bool.false_eq_true, if_false]

/-- GRAPH_REGISTER of an image that fails, whatever its slot holds. -/
theorem State.graphRegister_of_bad {s : State} {f : InFlight} {a : Nat} {e : Nat × Nat} (ha : recBits f.desc 8 8 39 0 = a) (halign : a % 64 = 0)
    (hmax : recNat f.desc 16 2 ≤ s.getF fTOP_STEP_CFG_GRAPH_SLOTS_M1) (himg : s.checkImage a = .inl e) :
    s.graphRegister f = s.finish f e.1 (leBytes 4 0 ++ leBytes 4 (if e.1 = 0x44 ∨ e.1 = 0x46 then e.2 else 0)) := by
  unfold State.graphRegister
  simp only [ha, halign, Nat.not_lt.2 hmax, himg, ne_eq, not_true_eq_false, if_false]

/-- GRAPH_UNREGISTER of a current handle that no outstanding step names. -/
theorem State.graphUnregister_of_idle {s : State} {f : InFlight} {h : Nat} (hh : recNat f.desc 8 4 = h)
    (hmax : h % 4096 ≤ s.getF fTOP_STEP_CFG_GRAPH_SLOTS_M1) (hok : s.handleOk h = true) (hidle : s.handleBusy h = false) :
    s.graphUnregister f = (s.setGraph (h % 4096) { (aget s.steps.graphs (h % 4096)).getD {} with reg := false }).finish f 0x40 [] := by
  unfold State.graphUnregister
  simp only [hh, Nat.not_lt.2 hmax, hok, hidle, Bool.not_true, Bool.false_eq_true, if_false]

/-- STEP_SUBMIT of a step that no check rejects and no early abort names, with a slot free. -/
theorem State.stepSubmit_of_accepted {s : State} {f : InFlight} {i : Nat} (hcheck : s.submitCheck (s.sqFid f.sq) f.desc = none)
    (hearly : s.steps.early.find? (fun e => e.slice == (s.newStep f (s.sqFid f.sq)).slice && e.seq == (s.newStep f (s.sqFid f.sq)).seq &&
      e.attempt == (s.newStep f (s.sqFid f.sq)).attempt) = none) (hfree : s.freeSlot = some i) :
    s.stepSubmit f = ((s.setFlight { f with stage := .started }).setStep i (s.newStep f (s.sqFid f.sq))).startCopies := by
  unfold State.stepSubmit
  simp only [hcheck, hearly, hfree]

/-- RESOLVE_STEP with a decision and no list, for a step that is IN_DOUBT. -/
theorem State.resolveStep_of_inDoubt {s : State} {f : InFlight} {i : Nat} {st : Step} (hdec : recBits f.desc 16 1 5 4 = 1 ∨ recBits f.desc 16 1 5 4 = 2)
    (hlist : recNat f.desc 18 2 = 0)
    (hheld : s.steps.slots.find? (fun e => e.2.slice == recNat f.desc 8 2 && e.2.seq == recNat f.desc 10 6 && e.2.attempt == recBits f.desc 16 1 3 0 &&
      e.2.phase == .inDoubt) = some (i, st)) :
    s.resolveStep f = (s.resolveAs i (recBits f.desc 16 1 5 4 == 1)).finish f 0x80 (leBytes 2 (s.stagedOf (st.streams.map (·.id))).length) := by
  have hfields : ¬ ((recBits f.desc 16 1 5 4 ≠ 1 ∧ recBits f.desc 16 1 5 4 ≠ 2) ∨ 4096 < recNat f.desc 18 2) := by omega
  unfold State.resolveStep
  dsimp only
  rw [if_neg hfields, if_pos hlist, hheld]

/-- Settles O37: the command carried out is the ring's next descriptor, GRAPH_REGISTER by the outcome of the image's check, and each takes the branch that the clause's
hypotheses leave. -/
theorem graphAndStepCommands : Obligations.GraphAndStepCommands := by
  refine ⟨?_, ?_, ?_, ?_⟩
  · intro s sq f a slot hcmd hdesc hfree
    obtain ⟨ha, halign, hslot, hmax⟩ := hdesc
    cases himg : s.checkImage a with
    | inl e => exact next_ringCmd_eq hcmd (State.graphRegister_of_bad ha halign (hslot ▸ hmax) himg)
    | inr img => exact next_ringCmd_eq hcmd (State.graphRegister_of_good ha halign hslot hmax himg hfree rfl)
  · intro s sq f h hcmd hdesc hok hidle
    obtain ⟨hh, hmax⟩ := hdesc
    exact next_ringCmd_eq hcmd (State.graphUnregister_of_idle hh hmax hok hidle)
  · intro s sq f i hcmd hcheck hearly hfree
    exact next_ringCmd_eq hcmd (State.stepSubmit_of_accepted hcheck hearly hfree)
  · intro s sq f i st hcmd hdesc hheld
    obtain ⟨hdec, hlist⟩ := hdesc
    exact next_ringCmd_eq hcmd (State.resolveStep_of_inDoubt hdec hlist hheld)

end Sys2Proof.Machine

/-! SUPPORT. A step from its context copy to PREPARED (R59, R64, R68, R88, R125, R190, R560). -/
namespace Sys2Proof.Machine
open Sys2Proof

/-- TILE_EMIT of one instance whose running step's queue holds a credit for its oldest staged tile. -/
theorem State.emitOne_of_credit {s : State} {slot core inst : Nat} {t : Step} {r : InstRun} {o : OutTile} {rest : List OutTile} {u : Queue}
    (ht : s.step? slot = some t) (hr : t.inst? core inst = some r) (ho : r.outbox = o :: rest) (hu : t.queue? o.q = some u) (hrun : t.phase = .running)
    (hstop : r.stopped = false) (hhung : r.hung = false) (hcredit : 0 < u.avail (s.cycOf u.prodCore)) :
    s.emitOne slot core inst = (s.modInst slot core inst fun v => { v with outbox := rest }).emitTile slot core inst o true := by
  unfold State.emitOne
  simp only [ht, hr, ho, hu, hrun, hstop, hhung, hcredit, decide_true, Bool.true_or, Bool.not_false, Bool.and_self, if_true]

/-- TILE_ARRIVE of a tile of a named format and whole payload, for another station than COLLECT. -/
theorem execTileArrive_of_named {s : State} {slot : StepIx} {queue : BitVec 12} {t : Step} {u v : Queue} {tile : Tile} (ht : s.step? slot.val = some t)
    (hu : t.queue? queue.toNat = some u) (harrive : u.arrive = some (tile, v)) (hrun : t.phase = .running) (hfmt : fmtNamed tile.format = true)
    (hcoll : u.consInst ≠ instCollect) (hshort : (computes u.consInst && tile.short) = false) :
    execTileArrive slot queue s = .next (s.modQueue slot.val queue.toNat fun _ => v) := by
  unfold execTileArrive
  simp only [ht, hu, harrive, hrun, hfmt, hcoll, hshort, bne_self_eq_false, Bool.not_true, Bool.or_self, Bool.false_eq_true, if_false]

/-- SLOT_RELEASE of the oldest tile, read, of a queue inside the device. -/
theorem execSlotRelease_of_read {s : State} {slot : StepIx} {queue : BitVec 12} {u : Queue} {it : QItem} {rest : List QItem}
    (hu : (s.step? slot.val).bind (·.queue? queue.toNat) = some u) (hitems : u.items = it :: rest) (hread : it.read = true) (hkind : u.kind ≠ 2) :
    execSlotRelease slot queue s = .next (s.modQueue slot.val queue.toNat fun v => { v with items := rest, flight := v.flight + 1 }) := by
  unfold execSlotRelease
  simp only [hu, hitems, hread, hkind, false_and, if_true, if_false]

/-- CREDIT_ARRIVE with a credit on its way. -/
theorem execCreditArrive_of_flight {s : State} {slot : StepIx} {queue : BitVec 12} {u : Queue}
    (hu : (s.step? slot.val).bind (·.queue? queue.toNat) = some u) (hflight : 0 < u.flight) :
    execCreditArrive slot queue s = .next (s.modQueue slot.val queue.toNat fun v => { v.gain (s.cycOf v.prodCore) with flight := v.flight - 1 }) := by
  unfold execCreditArrive
  rw [hu]
  exact next_if_pos hflight

/-- STREAM_CTX_COPY_DONE of a QUEUED step that waits for no more entry. -/
theorem execStreamCtxCopyDone_of_fetched {s : State} {slot : StepIx} {t : Step} (ht : s.step? slot.val = some t) (hqueued : t.phase = .queued)
    (hbegun : t.ctxBegun = true) (hpend : t.ctxPend = []) (hdone : t.ctxDone = false) :
    execStreamCtxCopyDone slot s = .next (s.copyContexts slot.val) := by
  unfold execStreamCtxCopyDone
  rw [ht]
  exact next_if_pos (by rw [hqueued, hbegun, hpend, hdone]; rfl)

/-- STEP_RUN of a step whose START_TIME has come and that nothing holds. -/
theorem execStepRun_of_due {s : State} {slot : StepIx} {t : Step} (ht : s.step? slot.val = some t) (hdue : s.startDue t = true)
    (hmay : s.mayRun slot.val t = true) :
    execStepRun slot s = .next (s.enterRunning slot.val t (t.startTime != 0 && (t.lateStart || decide (t.startTime + 50 < s.time.ft)))) := by
  unfold execStepRun
  rw [ht]
  exact next_if_pos (by rw [hdue, hmay]; rfl)

/-- START_TIME_REACHED of a QUEUED step whose START_TIME has come: it runs, or something holds it and it will be late. -/
theorem execStartTimeReached_of_due {s : State} {slot : StepIx} {t : Step} (ht : s.step? slot.val = some t) (hqueued : t.phase = .queued)
    (hstart : t.startTime ≠ 0) (hdue : s.startDue t = true) :
    execStartTimeReached slot s = .next (if s.mayRun slot.val t then s.enterRunning slot.val t (t.lateStart || decide (t.startTime + 50 < s.time.ft))
      else s.modStep slot.val fun u => { u with startCome := true, lateStart := true }) := by
  unfold execStartTimeReached
  rw [ht]
  exact next_if_pos (by rw [hqueued, bne_iff_ne.2 hstart, hdue]; rfl)

/-- END_OP of an instance at END that owes nothing. -/
theorem execEndOp_of_atEnd {s : State} {slot : StepIx} {core : LCore} {inst : Byte} {x : OpCtx} (hx : s.active slot.val core.val inst.toNat = some x)
    (hend : x.atEnd = true) (howes : s.owes x = false) :
    execEndOp slot core inst s = .next (((s.unstall x).modInst slot.val core.val inst.toNat fun r => { r with ended := true }).modStep slot.val
      fun t => { t with endAt := s.time.nowNs }) := by
  unfold execEndOp
  simp only [hx, hend, howes, Bool.not_true, Bool.or_self, Bool.false_eq_true, if_false]

/-- STEP_DRAIN_END of a running step whose instances have ended, whose credits are back, and that leaves nothing behind. -/
theorem execStepDrainEnd_of_clean {s : State} {slot : StepIx} {t : Step} (ht : s.step? slot.val = some t) (hrun : t.phase = .running)
    (hended : t.insts.all (·.ended) = true) (hback : t.queues.all (fun e => e.2.flight == 0) = true) (hclean : s.residue t = none)
    (hexcl : t.exclList.length ≤ 16) :
    execStepDrainEnd slot s = .next (s.prepare slot.val t) := by
  unfold execStepDrainEnd
  simp only [ht, hrun, hended, hback, hclean, Nat.not_lt.2 hexcl, beq_self_eq_true, Bool.true_or, Bool.and_self, if_true, if_false]

/-- Settles O39: each event's condition holds by the clause's hypotheses; TILE_EMIT of a list of one instance is that instance's emission. -/
theorem stepRunsAndEnds : Obligations.StepRunsAndEnds := by
  refine ⟨?_, ?_, ?_, ?_, ?_, ?_, ?_, ?_, ?_⟩
  · intro s slot t ht hcopy
    obtain ⟨hqueued, hbegun, hpend, hdone⟩ := hcopy
    exact execStreamCtxCopyDone_of_fetched ht hqueued hbegun hpend hdone
  · intro s slot t ht hstart
    obtain ⟨hqueued, hgiven, hdue⟩ := hstart
    exact execStartTimeReached_of_due ht hqueued hgiven hdue
  · intro s slot t ht hmay
    exact execStepRun_of_due ht hmay.1 hmay.2
  · intro s slot core inst t r o rest u htile hgo hcredit
    obtain ⟨ht, hr, ho, hu⟩ := htile
    obtain ⟨hrun, hstop, hhung⟩ := hgo
    exact congrArg Host.Outcome.next (State.emitOne_of_credit ht hr ho hu hrun hstop hhung hcredit)
  · intro s slot queue t u v tile htile hplain
    obtain ⟨ht, hu, harrive⟩ := htile
    obtain ⟨hrun, hfmt, hcoll, hshort⟩ := hplain
    exact execTileArrive_of_named ht hu harrive hrun hfmt hcoll hshort
  · intro s slot queue u it rest hu hread
    obtain ⟨hitems, hread, hkind⟩ := hread
    exact execSlotRelease_of_read hu hitems hread hkind
  · intro s slot queue u hu hflight
    exact execCreditArrive_of_flight hu hflight
  · intro s slot core inst x hx hend
    exact execEndOp_of_atEnd hx hend.1 hend.2
  · intro s slot t ht hdrained hclean
    obtain ⟨hrun, hended, hback⟩ := hdrained
    exact execStepDrainEnd_of_clean ht hrun hended hback hclean.1 hclean.2

end Sys2Proof.Machine

/-! SUPPORT. The cells and timeouts of the commit round (R96, R98–R104, R112). -/
namespace Sys2Proof.Machine
open Sys2Proof

/-- The oldest commit cell of a type from a source is c, of a valid slice, from the rank it names and clean under R96; u is the state without its frame. -/
structure CommitTaken (s : State) (typ src : Nat) (fr : Frame) (u : State) (c : CommitCell) : Prop where
  frame : s.takeFrame typ src = some (fr, u)
  cell : c = commitOf fr.body
  slice : u.sliceValid c.slice = true
  rank : u.endpointRank c.slice src = some c.sender
  clean : commitClean typ fr.body = true

/-- Such a cell is used; one of the coordinators' types must come from rank 0 or 1 under a current ATTEMPT as well (R103). -/
theorem State.takeCommit_of_taken {s u : State} {typ src : Nat} {coordOnly : Bool} {fr : Frame} {c : CommitCell} (h : CommitTaken s typ src fr u c)
    (hcoord : coordOnly = true → c.sender ≤ 1 ∧ u.attemptCurrent c = true) (use : State → CommitCell → Nat → State) :
    s.takeCommit typ src coordOnly use = use u c c.sender := by
  obtain ⟨hframe, hc, hslice, hrank, hclean⟩ := h
  have hpass : (coordOnly && (decide (1 < c.sender) || !u.attemptCurrent c)) = false := by
    cases coordOnly with
    | false => rfl
    | true =>
      obtain ⟨hsender, hcurrent⟩ := hcoord rfl
      rw [hcurrent, decide_eq_false (Nat.not_lt.2 hsender)]
      rfl
  subst hc
  unfold State.takeCommit
  simp only [hframe, hslice, hrank, hclean, hpass, bne_self_eq_false, Bool.not_true, Bool.or_self, Bool.false_eq_true, if_true, if_false]

/-- READY reaches rank 0 or 1. -/
theorem execReadyReceive_of_coordinator {s u : State} {src : Endpoint} {fr : Frame} {c : CommitCell} (h : CommitTaken s 0x0F src.toNat fr u c)
    (hown : u.sliceOwnRank c.slice ≤ 1) :
    execReadyReceive src s = .next (u.recordReady c.slice c.seq c.attempt c.sender c.excl) := by
  unfold execReadyReceive
  rw [State.takeCommit_of_taken (coordOnly := false) h nofun]
  exact next_if_pos hown

/-- DECIDE of rank 0 reaches rank 1; d is what rank 1 holds recorded then. -/
theorem execDecideReceive_of_rank1 {s u : State} {src : Endpoint} {fr : Frame} {c : CommitCell} {d : Decision} (h : CommitTaken s 0x10 src.toNat fr u c)
    (hsender : c.sender = 0) (hcurrent : u.attemptCurrent c = true) (hown : u.sliceOwnRank c.slice = 1)
    (hd : d = (u.coord c.slice c.seq c.attempt).recorded.getD c.decision) :
    execDecideReceive src s = .next ((u.setCoord { u.coord c.slice c.seq c.attempt with recorded := some d }).sendCommit 0x11 c.slice c.seq c.attempt 0 (some d) d.excl) := by
  unfold execDecideReceive
  rw [State.takeCommit_of_taken h (fun _ => ⟨by omega, hcurrent⟩)]
  simp only [hown, hsender, ← hd, ne_eq, not_true_eq_false, or_self, if_false]

/-- DECIDE_ACK of rank 1 reaches rank 0 in a round that waits for it; t is the state with the DECISIONs sent. -/
theorem execDecideAckReceive_of_waiting {s u t : State} {src : Endpoint} {fr : Frame} {c : CommitCell} (h : CommitTaken s 0x11 src.toNat fr u c)
    (hsender : c.sender = 1) (hcurrent : u.attemptCurrent c = true) (hown : u.sliceOwnRank c.slice = 0)
    (hproposal : (u.coord c.slice c.seq c.attempt).proposal.isSome = true) (hsent : (u.coord c.slice c.seq c.attempt).sent = false)
    (hopen : (u.coord c.slice c.seq c.attempt).noDecision = false)
    (ht : t = (u.setCoord { u.coord c.slice c.seq c.attempt with sent := true }).sendDecisions c.slice c.seq c.attempt c.decision) :
    execDecideAckReceive src s = .next (match t.heldAs c.slice c.seq c.attempt with
      | some e => t.applyDecision e.1 c.decision
      | none => t) := by
  have hroles : ¬ (u.sliceOwnRank c.slice ≠ 0 ∨ c.sender ≠ 1) := by omega
  have hwaits : ((u.coord c.slice c.seq c.attempt).proposal.isNone || (u.coord c.slice c.seq c.attempt).sent ||
      (u.coord c.slice c.seq c.attempt).noDecision) = false := by
    rw [← Option.not_isSome, hproposal, hsent, hopen]; rfl
  subst ht
  unfold execDecideAckReceive
  rw [State.takeCommit_of_taken h (fun _ => ⟨by omega, hcurrent⟩)]
  dsimp only
  rw [if_neg hroles, hwaits]
  rfl

/-- DECISION of rank 0 or 1 reaches a rank that holds the step with none applied. -/
theorem execDecisionReceive_of_held {s u : State} {src : Endpoint} {fr : Frame} {c : CommitCell} {i : Nat} {st : Step}
    (h : CommitTaken s 0x12 src.toNat fr u c) (hsender : c.sender ≤ 1) (hcurrent : u.attemptCurrent c = true)
    (hheld : u.heldAs c.slice c.seq c.attempt = some (i, st)) (hfirst : st.applied = none) :
    execDecisionReceive src s = .next (u.applyDecision i c.decision) := by
  unfold execDecisionReceive
  rw [State.takeCommit_of_taken h (fun _ => ⟨hsender, hcurrent⟩)]
  simp only [hheld, hfirst]

/-- ABORT reaches a rank other than 0 that holds the step. -/
theorem execAbortCellReceive_of_held {s u : State} {src : Endpoint} {fr : Frame} {c : CommitCell} {i : Nat} {st : Step}
    (h : CommitTaken s 0x13 src.toNat fr u c) (hheld : u.heldAs c.slice c.seq c.attempt = some (i, st)) (hown : u.sliceOwnRank c.slice ≠ 0) :
    execAbortCellReceive src s = .next (u.abortRemote i c.cause) := by
  unfold execAbortCellReceive
  rw [State.takeCommit_of_taken (coordOnly := false) h nofun]
  simp only [hheld, hown, false_and, if_false]

/-- DECIDE_ACK_TIMEOUT of a round that waits and whose step this rank does not hold. -/
theorem execDecideAckTimeout_of_waiting {s : State} {slice : Half} {seq : BitVec 48} {attempt : Fin 16} {k : Coord}
    (hk : k = s.coord slice.toNat seq.toNat attempt.val) (hproposal : k.proposal.isSome = true) (hsent : k.sent = false) (hopen : k.noDecision = false)
    (hpast : k.decideAt + 1000 * s.getF fTOP_STEP_CFG_TAKEOVER_US ≤ s.time.nowNs)
    (hheld : (s.setCoord { k with noDecision := true }).heldAs slice.toNat seq.toNat attempt.val = none) :
    execDecideAckTimeout slice seq attempt s = .next (s.setCoord { k with noDecision := true }) := by
  subst hk
  unfold execDecideAckTimeout
  refine (next_if_pos (by rw [hproposal, hsent, hopen, decide_eq_true hpast]; rfl)).trans ?_
  dsimp only
  rw [hheld]

/-- TAKEOVER_COMMIT_TIMEOUT at rank 1 with every READY and no decision recorded. -/
theorem execTakeoverCommitTimeout_of_ready {s : State} {slot : StepIx} {t : Step} {a : Nat} (ht : s.step? slot.val = some t)
    (hready : (s.coord t.slice t.seq t.attempt).allReadyAt = some a) (hrank : t.rank = 1) (hnone : (s.coord t.slice t.seq t.attempt).recorded = none)
    (hpast : a + 1000 * s.getF fTOP_STEP_CFG_TAKEOVER_US ≤ s.time.nowNs) :
    execTakeoverCommitTimeout slot s = .next (s.takeOver slot.val t true) := by
  unfold execTakeoverCommitTimeout
  simp only [ht, hready]
  exact next_if_pos (by rw [hrank, hnone, decide_eq_true hpast]; rfl)

/-- TAKEOVER_ABORT_TIMEOUT at rank 1 that lacks some READY, with its deadline passed and no decision recorded. -/
theorem execTakeoverAbortTimeout_of_deadline {s : State} {slot : StepIx} {t : Step} (ht : s.step? slot.val = some t) (hrank : t.rank = 1) (hran : t.ran = true)
    (hdeadline : t.deadlineUs ≠ 0) (hlacks : (s.coord t.slice t.seq t.attempt).allReadyAt = none) (hnone : (s.coord t.slice t.seq t.attempt).recorded = none)
    (hpast : t.runAt + 1000 * t.deadlineUs + 1000 * s.getF fTOP_STEP_CFG_TAKEOVER_US ≤ s.time.nowNs) :
    execTakeoverAbortTimeout slot s = .next (s.takeOver slot.val t false) := by
  unfold execTakeoverAbortTimeout
  rw [ht]
  exact next_if_pos (by rw [hrank, hran, bne_iff_ne.2 hdeadline, hlacks, hnone, decide_eq_true hpast]; rfl)

/-- Settles O41: a clean cell of its slice is used, and it, like each timeout, takes the branch that the clause's hypotheses leave. -/
theorem commitRoundAnswers : Obligations.CommitRoundAnswers := by
  refine ⟨?_, ?_, ?_, ?_, ?_, ?_, ?_, ?_⟩
  · intro s src fr u c hframe hc hcell hown
    obtain ⟨hslice, hrank, hclean⟩ := hcell
    exact execReadyReceive_of_coordinator ⟨hframe, hc, hslice, hrank, hclean⟩ hown
  · intro s src fr u c d hframe hc hcell hcurrent hown hd
    obtain ⟨hslice, hrank, hclean, hsender⟩ := hcell
    exact execDecideReceive_of_rank1 ⟨hframe, hc, hslice, hrank, hclean⟩ hsender hcurrent hown hd
  · intro s src fr u c t hframe hc hcell hcurrent hown hwaits ht
    obtain ⟨hslice, hrank, hclean, hsender⟩ := hcell
    obtain ⟨hproposal, hsent, hopen⟩ := hwaits
    exact execDecideAckReceive_of_waiting ⟨hframe, hc, hslice, hrank, hclean⟩ hsender hcurrent hown hproposal hsent hopen ht
  · intro s slice seq attempt k hk hwaits hheld
    obtain ⟨hproposal, hsent, hopen, hpast⟩ := hwaits
    exact execDecideAckTimeout_of_waiting hk hproposal hsent hopen hpast hheld
  · intro s slot t a ht hround hpast
    obtain ⟨hready, hrank, hnone⟩ := hround
    exact execTakeoverCommitTimeout_of_ready ht hready hrank hnone hpast
  · intro s slot t ht hround hpast
    obtain ⟨hrank, hran, hdeadline, hlacks, hnone⟩ := hround
    exact execTakeoverAbortTimeout_of_deadline ht hrank hran hdeadline hlacks hnone hpast
  · intro s src fr u c i st hframe hc hcell hcurrent hheld
    obtain ⟨hslice, hrank, hclean, hsender⟩ := hcell
    exact execDecisionReceive_of_held ⟨hframe, hc, hslice, hrank, hclean⟩ hsender hcurrent hheld.1 hheld.2
  · intro s src fr u c i st hframe hc hcell hheld hown
    obtain ⟨hslice, hrank, hclean⟩ := hcell
    exact execAbortCellReceive_of_held ⟨hframe, hc, hslice, hrank, hclean⟩ hheld hown

end Sys2Proof.Machine

/-! SUPPORT. The Trestle and its codebook feed (R132–R134, R141, R146, R148, R149, R152): the start of their ops, the issue of a pass, a group, a drain, a tile and a run. -/
namespace Sys2Proof.Machine
open Sys2Proof

/-- A command that only starts its op leaves the op started. -/
theorem State.runOp_starts_alone {s : State} {slot core inst code : Nat} {known : List Nat} {ok : OpCtx → Bool} {x : OpCtx}
    (hx : s.active slot core inst = some x) (hend : x.atEnd = false) (hout : x.run.outbox = []) (htrip : s.tripHolds inst = false)
    (hfresh : x.run.started = false) (hcode : opCode x.op = code) (hknown : known.contains code = true) (hok : ok x = true) :
    s.runOp slot core inst known code ok (fun st _ => st) =
      (s.traceInst x.step x.core x.inst (opNode x.op) 0x02 x.opIx (opRepeat x.op)).modInst x.slot x.core x.inst fun r => { r with started := true } := by
  rw [State.runOp_starts hx hend hout htrip hfresh hcode hknown hok]
  split
  · rfl
  · rfl

/-- TRESTLE_PASS_ISSUE with no pass in hand, its bounds reached, and an A and a B operand that go together. -/
theorem execTrestlePassIssue_of_operands {s : State} {slot : StepIx} {core : LCore} {x : OpCtx} {t : TrsSt} {a : Tile} {b : SegB}
    (hx : s.active slot.val core.val instTrestle = some x) (hend : x.atEnd = false) (hout : x.run.outbox = []) (htrip : s.tripHolds instTrestle = false)
    (hstarted : x.run.started = true) (hcode : opCode x.op = 1) (ht : s.trsOf core.val = t) (hfree : t.pass = none) (hmay : t.mayIssue = true)
    (ha : x.aTile 0 = some a) (hb : s.segB x a.format 0 = some b) (hfits : segFits a b (passSegs x.op) none = true) :
    execTrestlePassIssue slot core s = .next (((s.setTrs core.val { t with
      slot := slot.val
      pass := some { bank := t.nextBank, rep := x.run.rep, d := b.depth.getD 8, sparse := b.sparse, rows := a.rows, cols := b.cols, coordR := a.coordR,
                     coordC := b.coordC, acc := zeroAcc a.rows b.cols }
      passes := t.passes + 1 }).unstall x).showTrs core.val false false false false false) := by
  unfold execTrestlePassIssue
  rw [State.runOp_started hx hend hout htrip hstarted hcode rfl]
  simp only [ht, hfree, hmay, ha, hb, hfits, Option.isSome_none, Bool.not_true, Bool.false_eq_true, if_false]

/-- TRESTLE_GROUP_FEED with its operands there and fitting the pass in hand, and nothing that withholds the group. -/
theorem execTrestleGroupFeed_of_operands {s : State} {slot : StepIx} {core : LCore} {lost : Bool} {ecc : Fin 3} {off : Nat} {x : OpCtx} {t : TrsSt}
    {p : TrsPass} {a : Tile} {b : SegB} (hx : s.active slot.val core.val instTrestle = some x) (ht : t = s.trsCycle core.val) (hp : t.pass = some p)
    (ha : x.aTile p.aIx = some a) (hb : (s.setTrs core.val t).segB x a.format p.bIx = some b) (hfits : segFits a b (passSegs x.op) (some p) = true)
    (hbank : (lost && x.shareHalf) = false) (hduty : dutyHit (s.trsOf core.val).tick.duty (s.duty (core.val / 16)) = false)
    (hdidt : s.didtHit (core.val / 16) (s.trsOf core.val).tick = false) (hecc : ecc.val ≠ 2) :
    execTrestleGroupFeed slot core lost ecc off s =
      .next ((((((s.setTrs core.val t).spadEcc slot.val core.val ecc.val off).onCore core.val fun q st => st.bumpWrap (fCORE_TRS_FEED_CYCLES_COUNT q)).feedGroup
        x t p a b).showTrs core.val false false false false true).activity core.val) := by
  unfold execTrestleGroupFeed
  simp only [hx, ← ht, hp, ha, hb, hfits, hbank, hduty, hdidt, hecc, Bool.not_true, Bool.or_self, Bool.false_eq_true, if_false]

/-- TRESTLE_DRAIN_START when the oldest bank that waits has its final sum in beam 0 and its output queue holds a credit. -/
theorem execTrestleDrainStart_of_credit {s : State} {slot : StepIx} {core : LCore} {x : OpCtx} {t : TrsSt} {b : TrsBank} {u : Queue}
    (hx : s.active slot.val core.val instTrestle = some x) (ht : s.trsOf core.val = t) (hb : t.banks.find? (·.drainAt.isNone) = some b)
    (hu : x.step.queue? (opOut b.op) = some u) (hpast : b.lastCyc + 13 ≤ t.cyc) (hcredit : 0 < u.avail (s.cycOf core.val)) :
    execTrestleDrainStart slot core s = .next ((s.setTrs core.val { t with
      banks := mapFirst (·.drainAt.isNone) (fun v => { v with drainAt := some t.cyc }) t.banks
      bankD := aput t.bankD b.bank t.cyc }).modQueue slot.val (opOut b.op) fun v => v.spend (s.cycOf core.val)) := by
  unfold execTrestleDrainStart
  simp only [hx, ht, hb, hu, Nat.not_lt.2 hpast, Nat.ne_of_gt hcredit, if_false]

/-- TRESTLE_TILE_OUT of the oldest draining bank, its output path passed, under an op without an epilogue. -/
theorem execTrestleTileOut_of_drained {s : State} {slot : StepIx} {core : LCore} {x : OpCtx} {t : TrsSt} {b : TrsBank} {rest : List TrsBank} {d : Nat}
    (hx : s.active slot.val core.val instTrestle = some x) (ht : s.trsOf core.val = t) (hb : t.banks = b :: rest) (hd : b.drainAt = some d)
    (hpast : d + 196 ≤ t.cyc) (hplain : passInE b.op = noQ) :
    execTrestleTileOut slot core s =
      .next (((s.setTrs core.val { t with banks := rest }).onCore core.val fun p st => st.bumpWrap (fCORE_TRS_PASSES_COUNT p)).emitTile slot.val core.val
        instTrestle { q := opOut b.op, tile := (bankTile b none).1, owners := if opPerStream b.op then [(b.stream, b.rows)] else [],
                      origin := (bankTile b none).2, node := opNode b.op, rep := b.rep } false) := by
  unfold execTrestleTileOut
  simp only [hx, ht, hb, hd, hplain, Nat.not_lt.2 hpast, epilogueOk, ne_eq, not_true_eq_false, false_and, decide_true, Bool.true_or, Bool.not_true,
    Bool.false_eq_true, if_true, if_false]

/-- CODEBOOK_TILE_DECODE of a tile whose tables are loaded, with a slot of the feed free and runs left after this one. -/
theorem execCodebookTileDecode_of_loaded {s : State} {slot : StepIx} {core : LCore} {x : OpCtx} {t : Tile} {c : CbkSt}
    (hx : s.active slot.val core.val instCodebook = some x) (hend : x.atEnd = false) (hout : x.run.outbox = []) (htrip : s.tripHolds instCodebook = false)
    (hstarted : x.run.started = true) (hcode : opCode x.op = 1) (hc : s.cbkOf core.val = c) (ht : x.head (opInA x.op) c.ix = some t)
    (hok : cbTileOk t = true) (hloaded : c.loaded = true) (hload : c.load = 0) (hroom : c.runs.length < 32) (hmore : c.run + 1 < t.rows / 8) :
    execCodebookTileDecode slot core s = .next (((s.unstall x).progress slot.val core.val instCodebook).setCbk core.val
      { c with runs := c.runs ++ [cbRun t c.run], run := c.run + 1, cycles := c.cycles + 1 }) := by
  unfold execCodebookTileDecode
  rw [State.runOp_started hx hend hout htrip hstarted hcode rfl]
  simp only [hc, ht, hok, hloaded, hload, Nat.not_le.2 hroom, hmore, Bool.not_true, Bool.false_eq_true, ne_eq, not_true_eq_false, if_true, if_false]

/-- Settles O42: PASS and DECODE start their op and do nothing more; each other command takes the branch that the clause's hypotheses leave. -/
theorem trestleActs : Obligations.TrestleActs := by
  refine ⟨?_, ?_, ?_, ?_, ?_, ?_, ?_, ?_⟩
  · intro s slot core x hx hfresh hok
    obtain ⟨hend, hout, htrip, hfresh, hcode⟩ := hfresh
    exact congrArg Host.Outcome.next (State.runOp_starts_alone hx hend hout htrip hfresh hcode rfl hok)
  · intro s slot core x a b hx hop hpass hoperands
    obtain ⟨hend, hout, htrip, hstarted, hcode⟩ := hop
    obtain ⟨ha, hb, hfits⟩ := hoperands
    exact execTrestlePassIssue_of_operands hx hend hout htrip hstarted hcode rfl hpass.1 hpass.2 ha hb hfits
  · intro s slot core lost ecc off x t p a b hx ht hoperands hfree
    obtain ⟨hp, ha, hb, hfits⟩ := hoperands
    obtain ⟨hbank, hduty, hdidt, hecc⟩ := hfree
    exact execTrestleGroupFeed_of_operands hx ht hp ha hb hfits hbank hduty hdidt hecc
  · intro s slot core x b u hx hwaits hgo
    exact execTrestleDrainStart_of_credit hx rfl hwaits.1 hwaits.2 hgo.1 hgo.2
  · intro s slot core x b rest d hx hdrains hplain
    obtain ⟨hb, hd, hpast⟩ := hdrains
    exact execTrestleTileOut_of_drained hx rfl hb hd hpast hplain
  · intro s slot core line
    rfl
  · intro s slot core x hx hfresh hok
    obtain ⟨hend, hout, htrip, hfresh, hcode⟩ := hfresh
    exact congrArg Host.Outcome.next (State.runOp_starts_alone hx hend hout htrip hfresh hcode rfl hok)
  · intro s slot core x t c hx hop htile hruns
    obtain ⟨hend, hout, htrip, hstarted, hcode⟩ := hop
    obtain ⟨hc, ht, hok⟩ := htile
    obtain ⟨hloaded, hload, hroom, hmore⟩ := hruns
    exact execCodebookTileDecode_of_loaded hx hend hout htrip hstarted hcode hc ht hok hloaded hload hroom hmore

end Sys2Proof.Machine

/-! SUPPORT. CONVERT, the VECTOR ops and ROUTE (R174–R176, R201–R208, R225): what one repeat does with its operands at the heads of their queues. -/
namespace Sys2Proof.Machine
open Sys2Proof

/-- A command whose op has started, with nothing staged, ends as its body does. -/
theorem next_runOp_of_started {s t : State} {slot core inst code : Nat} {known : List Nat} {ok : OpCtx → Bool} {body : State → OpCtx → State} {x : OpCtx}
    (hx : s.active slot core inst = some x)
    (hop : x.atEnd = false ∧ x.run.outbox = [] ∧ s.tripHolds inst = false ∧ x.run.started = true ∧ opCode x.op = code)
    (hknown : known.contains code = true) (hbody : body s x = t) :
    (.next (s.runOp slot core inst known code ok body) : Host.Outcome State Fault Refusal) = .next t := by
  obtain ⟨hend, hout, htrip, hstarted, hcode⟩ := hop
  rw [State.runOp_started hx hend hout htrip hstarted hcode hknown, hbody]

/-! ### CONVERT -/

/-- CONVERT of a tile whose layout and depth the op allows and whose payload is whole: t is the tile opened, w what it is written as. -/
theorem State.convert_of_fit {s : State} {x : OpCtx} {t0 t : Tile} {w : Written} (hhead : x.head (opInA x.op) = some t0)
    (hfit : ((!(t0.layout == 2 && !isCb t0.format) && opF x.op 1 37 36 != 0) || (opF x.op 1 41 40 == 2 && decide (128 < t0.cols))) = false)
    (hwhole : t0.short (depthOf (opF x.op 1 37 36)) = false) (ht : t = if t0.sparse then s.openTile t0 else t0)
    (hw : w = writeVals (opF x.op 1 47 42) (opF x.op 1 41 40) (depthOf (opF x.op 1 39 38)) (opF x.op 1 35 35 == 1) (Config.free s.freeCtr) t.rows t.cols
      ((t.values (depthOf (opF x.op 1 37 36))).map fun row => row.map (convertIn t.format (opF x.op 1 34 27)))) :
    s.convert x = ((s.drew.stage x
      { status := w.status, coordC := t.coordC, coordR := t.coordR, rows := t.rows, cols := t.cols, format := opF x.op 1 47 42,
        layout := opF x.op 1 41 40, poison := t.poison, payload := w.payload } (x.owners t.rows) w.origin).endInA x).endRepeat x := by
  subst ht hw
  unfold State.convert
  simp only [hhead, hfit, hwhole, Bool.or_self, Bool.false_eq_true, if_false]

/-! ### EWISE and MAP -/

/-- EWISE with the scalar C0 as second operand of every element. -/
theorem State.ewise_of_scalar {s : State} {x : OpCtx} {a : Tile} {o : Tile × Nat} (hhead : x.head (opInA x.op) = some a) (hscalar : vecBcast x.op = 3)
    (ho : o = vecTile x.op a a.rows a.cols (a.poison || false) (((List.range (s.vecVals a).length).zip (s.vecVals a)).map fun r =>
      ((List.range r.2.length).zip r.2).map fun e =>
        ewiseOne (vecFunc x.op) (vecBf16 x.op) (Config.free (s.freeCtr + 2) % 2 == 1) (vecC1 x.op) e.2 (vecC0 x.op))) :
    s.ewise x = ((s.drew.drew.drew.stage x o.1 (x.owners a.rows) o.2).endInA x).endRepeat x := by
  subst ho
  unfold State.ewise
  simp only [hhead, hscalar, ewiseB, Option.isSome_none, Bool.false_eq_true, if_true, if_false]

/-- MAP of a function that reads no table. -/
theorem State.mapOp_of_untabled {s : State} {x : OpCtx} {a : Tile} {o : Tile × Nat} (hhead : x.head (opInA x.op) = some a) (hfunc : vecFunc x.op ≠ 4)
    (ho : o = vecTile x.op a a.rows a.cols (a.poison || false)
      ((s.vecVals a).map fun r => r.map fun v => mapFn (vecFunc x.op) #[] (add32 (mul32 (vecC0 x.op) v) (vecC1 x.op)))) :
    s.mapOp x = (((s.opened a).stage x o.1 (x.owners a.rows) o.2).endInA x).endRepeat x := by
  subst ho
  unfold State.mapOp
  simp only [hhead, hfunc, Option.isSome_none, Bool.false_eq_true, ne_eq, not_false_eq_true, if_true, if_false]

/-! ### Row sets -/

/-- The reads of the n oldest tiles of IN_A ended one after the other, each under the step as it then stands. -/
def State.endReads (s : State) (x : OpCtx) (n : Nat) : State :=
  (List.range n).foldl (fun st _ => match st.step? x.slot with
    | some v => st.endRead { x with step := v } (opInA x.op)
    | none => st) s

/-- A row set that keeps R201 is staged; its reads end, then that of its gain tile where there is one, and the repeat ends. -/
theorem State.rowSetDone_of_ok {s : State} {x : OpCtx} {ts : List Tile} {gain : Option Tile} {ends : Nat} (hok : rowSetOk x.op ts gain = true) :
    s.rowSetDone x ts gain ends =
      ((if gain.isSome then ((s.drew.stageAll x (s.rowSetOut x ts gain)).endReads x ends).endRead x (opInB x.op)
        else (s.drew.stageAll x (s.rowSetOut x ts gain)).endReads x ends).modInst x.slot x.core x.inst fun r => { r with work := [], wbytes := [] }).endRepeat x := by
  unfold State.rowSetDone
  rw [hok]
  rfl

/-- REDUCE or TOPK of a row set of one tile, not held: the tile at the head completes it. -/
theorem State.rowSetStream_of_oneTile {s : State} {x : OpCtx} {t : Tile} (hfree : opHoldA x.op = false) (hnone : x.run.wbytes = []) (hone : vecTiles x.op = 1)
    (hhead : x.head (opInA x.op) = some t) : s.rowSetStream x = s.rowSetDone x [t] none 1 := by
  unfold State.rowSetStream
  simp only [hfree, hnone, hone, hhead, Bool.false_eq_true, if_false]
  exact if_pos (Nat.le_refl 1)

/-- SOFTMAX with its row set at the head of the queue. -/
theorem State.rowSetWhole_of_softmax {s : State} {x : OpCtx} {ts : List Tile} (hcode : opCode x.op ≠ 5)
    (hheads : (List.range (vecTiles x.op)).mapM (fun i => x.head (opInA x.op) i) = some ts) :
    s.rowSetWhole x = s.rowSetDone x ts none (if opHoldA x.op && !x.lastRep then 0 else vecTiles x.op) := by
  unfold State.rowSetWhole
  simp only [hheads, hcode, if_false]

/-- NORM with its row set and its gain tile at the heads of their queues. -/
theorem State.rowSetWhole_of_norm {s : State} {x : OpCtx} {ts : List Tile} {g : Tile} (hcode : opCode x.op = 5)
    (hheads : (List.range (vecTiles x.op)).mapM (fun i => x.head (opInA x.op) i) = some ts) (hgain : x.head (opInB x.op) = some g) :
    s.rowSetWhole x = s.rowSetDone x ts (some g) (if opHoldA x.op && !x.lastRep then 0 else vecTiles x.op) := by
  unfold State.rowSetWhole
  simp only [hheads, hcode, hgain, if_true]

/-! ### ROUTE -/

/-- ROUTE of a row-major tile of FP32 or BF16 logits, with its map and its area in reach and the map's ranks in the step. -/
theorem State.routeOp_of_mapped {s : State} {x : OpCtx} {t : Tile} {es : List Expert} (hhead : x.head (opInA x.op) = some t)
    (hfmt : (t.format == 1 || t.format == 2) = true) (hlayout : t.layout = 0) (hmap : s.addrCheck [(opF x.op 2 39 0, 4 * t.cols)] = none)
    (hes : es = s.experts (opF x.op 2 39 0) t.cols) (hranks : es.any (fun e => e.valid && decide (x.step.ranks ≤ e.rank)) = false)
    (harea : s.addrCheck [(opF x.op 3 39 0, (s.routeBuild x t es).1.length)] = none) :
    s.routeOp x = ((((s.access (opF x.op 3 39 0) (s.routeBuild x t es).1.length true true).st (opF x.op 3 39 0) (s.routeBuild x t es).1).stage x
      (routeTile (s.routeBuild x t es).2 t.poison) []).endInA x).endRepeat x := by
  subst hes
  unfold State.routeOp
  simp only [hhead, hfmt, hlayout, hmap, hranks, harea, bne_self_eq_false, Bool.not_true, Bool.or_self, Bool.false_eq_true, if_false]

/-! ### The obligation -/

/-- Settles O43: the op has started, so each command is its station's repeat, and that repeat takes the branch that the clause's operands leave. -/
theorem arithmeticStationsComplete : Obligations.ArithmeticStationsComplete := by
  refine ⟨?_, ?_, ?_, ?_, ?_, ?_, ?_, ?_⟩
  · intro s slot core ix x t0 t w hx hop hhead hfit ht hw
    exact next_runOp_of_started hx hop rfl (State.convert_of_fit hhead hfit.1 hfit.2 ht hw)
  · intro s slot core x a o hx hop hin ho
    exact next_runOp_of_started hx hop rfl (State.ewise_of_scalar hin.1 hin.2 ho)
  · intro s slot core x a o hx hop hin ho
    exact next_runOp_of_started hx hop rfl (State.mapOp_of_untabled hin.1 hin.2 ho)
  · intro s slot core x t u hx hop hset hin hu
    obtain ⟨hfree, hnone, hone⟩ := hset
    subst hu
    exact next_runOp_of_started hx hop rfl ((State.rowSetStream_of_oneTile hfree hnone hone hin.1).trans (State.rowSetDone_of_ok hin.2))
  · intro s slot core x t u hx hop hset hin hu
    obtain ⟨hfree, hnone, hone⟩ := hset
    subst hu
    exact next_runOp_of_started hx hop rfl ((State.rowSetStream_of_oneTile hfree hnone hone hin.1).trans (State.rowSetDone_of_ok hin.2))
  · intro s slot core x ts u hx hop hin hu
    have ⟨_, _, _, _, hcode⟩ := hop
    have hplain : opCode x.op ≠ 5 := by rw [hcode]; decide
    subst hu
    exact next_runOp_of_started hx hop rfl ((State.rowSetWhole_of_softmax hplain hin.1).trans (State.rowSetDone_of_ok hin.2))
  · intro s slot core x ts g u hx hop hin hu
    obtain ⟨hheads, hgain, hok⟩ := hin
    have ⟨_, _, _, _, hcode⟩ := hop
    subst hu
    exact next_runOp_of_started hx hop rfl ((State.rowSetWhole_of_norm hcode hheads hgain).trans (State.rowSetDone_of_ok hok))
  · intro s slot core x t es hx hop hin hmap hes hranks harea
    obtain ⟨hhead, hfmt, hlayout⟩ := hin
    exact next_runOp_of_started hx hop rfl (State.routeOp_of_mapped hhead hfmt hlayout hmap hes hranks harea)

end Sys2Proof.Machine

/-! SUPPORT. The stream commands (R187, R194, R199, R675) and the end of a fetch of the stream cache (R197). That HOLD, RELEASE and CLOSE change the committed state bits
alone, and that STREAM_OPEN ignores STATE of its image, are choices of the model (log entry 27). -/
namespace Sys2Proof.Machine
open Sys2Proof

/-- STREAM_OPEN of a FREE stream with its image read and in range. -/
theorem State.streamOpen_of_free {s t : State} {img : Option (List Byte)} {f : InFlight} {e : List Byte}
    (hread : s.hostGet f (recNat f.desc 16 8) 128 img = (t, some e)) (hrange : openImageOk e = true) (hfree : entState (s.entry (recNat f.desc 8 2)) = 0) :
    s.streamOpen img f = (t.putEntry (recNat f.desc 8 2) 0 (openEntry e)).finish f 0x50 [] := by
  unfold State.streamOpen
  simp only [hread, hrange, hfree, ne_eq, not_true_eq_false, Bool.not_true, Bool.false_eq_true, if_false]

/-- STREAM_SET, on an open stream that is not busy, of the fields ks with their image read: none is out of range, COMMITTED_LEN does not rise and a pinned stream keeps
KEYSTONE. -/
theorem State.streamSet_of_idle {s t : State} {img : Option (List Byte)} {f : InFlight} {e : List Byte} {ks : List Nat}
    (hread : s.hostGet f (recNat f.desc 16 8) 128 img = (t, some e)) (hks : ks = (List.range 12).filter (recNat f.desc 10 2).testBit)
    (hrange : (!ks.all (imageFieldOk e) || (ks.contains 11 && decide (recNat (s.entry (recNat f.desc 8 2)) 16 4 < recNat e 16 4)) ||
      (ks.contains 10 && recBits e 1 1 0 0 == 0 && recBits (s.entry (recNat f.desc 8 2)) 1 1 1 1 == 1)) = false)
    (hopen : entState (s.entry (recNat f.desc 8 2)) ≠ 0) (hidle : s.streamBusy (recNat f.desc 8 2) = false) :
    s.streamSet img f = (ks.foldl (fun st k => st.setField (recNat f.desc 8 2) e k) t).finish f 0x50 [] := by
  subst hks
  unfold State.streamSet
  simp only [hread, hrange, hopen, hidle, Bool.false_eq_true, if_false]

/-- A stream that is not busy moves on from a committed state that its command allows. -/
theorem State.streamMove_of_idle {s : State} {f : InFlight} {p : Nat → Bool} {code : Nat} (hstate : p (entState (s.entry (recNat f.desc 8 2))) = true)
    (hidle : s.streamBusy (recNat f.desc 8 2) = false) :
    s.streamMove f p code = (s.putCommitted (recNat f.desc 8 2) code).finish f 0x50 [] := by
  unfold State.streamMove
  simp only [hstate, hidle, Bool.not_true, Bool.false_eq_true, if_false]

/-- STREAM_PIN of an open keystone stream that is not pinned, within both limits of R199. -/
theorem State.streamPin_of_room {s : State} {f : InFlight} (hkey : recBits (s.entry (recNat f.desc 8 2)) 1 1 0 0 ≠ 0)
    (hopen : entState (s.entry (recNat f.desc 8 2)) ≠ 0) (hfresh : s.streams.pinned (recNat f.desc 8 2) = false) (hpins : s.streams.pins < 1024)
    (hset : s.streams.setPins (recNat f.desc 8 2) < 8) :
    s.streamPin f = (s.setPinned (recNat f.desc 8 2) true).finish f 0x50 [] := by
  unfold State.streamPin
  simp only [hkey, hopen, hfresh, Nat.not_le.2 hpins, Nat.not_le.2 hset, Bool.false_eq_true, if_false]

/-- A write to the memory of a function that is up happens when host memory takes it. -/
theorem State.hostPut_of_live {s : State} {f : InFlight} (addr : Nat) (bs : List Byte) (ok : Bool) (hlive : s.fidLive (s.sqFid f.sq) = true) :
    s.hostPut f addr bs ok = if ok then (s.emit (.hostWrite (s.sqFid f.sq) addr bs), true) else (s, false) := by
  unfold State.hostPut
  simp only [hlive, Bool.true_and]

/-- A command that writes host memory ends with 0x50 or 0x56 as host memory takes the bytes or not. -/
theorem State.hostPut_finish_of_live {s : State} {f : InFlight} (addr : Nat) (bs : List Byte) (ok : Bool) (hlive : s.fidLive (s.sqFid f.sq) = true) :
    (s.hostPut f addr bs ok).1.finish f (if (s.hostPut f addr bs ok).2 then 0x50 else 0x56) [] =
      if ok then (s.emit (.hostWrite (s.sqFid f.sq) addr bs)).finish f 0x50 [] else s.finish f 0x56 [] := by
  rw [State.hostPut_of_live addr bs ok hlive]
  cases ok with
  | true => rfl
  | false => rfl

/-- STREAM_IMPORT into a FREE stream of an image that has STAGED clear and its reserved fields 0. -/
theorem State.streamImport_of_free {s t : State} {img : Option (List Byte)} {f : InFlight} {e : List Byte}
    (hread : s.hostGet f (recNat f.desc 16 8) 128 img = (t, some e)) (hstaged : recBits e 0 1 7 7 ≠ 1)
    (hreserved : (recBits e 0 1 3 3 == 0 && recBits e 1 1 7 2 == 0 && recBits e 2 2 15 15 == 0 && recNat e 8 8 % 2 ^ 14 == 0 && decide (recNat e 8 8 < 2 ^ 40) &&
      imageReserved e) = true) (hfree : entState (s.entry (recNat f.desc 8 2)) = 0) :
    s.streamImport img f = (t.putEntry (recNat f.desc 8 2) 0 e).finish f 0x50 [] := by
  unfold State.streamImport
  simp only [hread, hstaged, hreserved, hfree, ne_eq, not_true_eq_false, Bool.not_true, Bool.false_eq_true, or_self, if_false]

/-- The end of a fetch behind which no miss is queued; t is the state in which the entry has filled its way. -/
theorem State.fetchDone_of_lone {s t : State} {id : Nat} {e : Nat × Nat} (hfetch : s.streams.fetching.find? (·.1 == id) = some e)
    (hlone : s.streams.queued = [])
    (ht : t = ((s.setStreams { s.streams with fetching := dropFirst (·.1 == id) s.streams.fetching }).maxF fSTREAM_WALK_FETCH_MAX_NS
      (s.time.nowNs - e.2)).loadStream id) :
    s.fetchDone id = { t with steps := { t.steps with
      slots := t.steps.slots.map fun (x : Nat × Step) => (x.1, { x.2 with ctxPend := x.2.ctxPend.filter (· != id) }) } } := by
  subst ht
  unfold State.fetchDone
  simp only [hfetch, hlone]

/-- Settles O38: the command carried out is the ring's next descriptor, and it, like the end of a fetch, takes the branch that the clause's hypotheses leave. -/
theorem streamCommandsComplete : Obligations.StreamCommandsComplete := by
  refine ⟨?_, ?_, ?_, ?_, ?_, ?_, ?_, ?_, ?_, ?_⟩
  · intro s sq img f t e hcmd hread hrange hfree
    exact next_ringCmd_eq hcmd (State.streamOpen_of_free hread hrange hfree)
  · intro s sq img f t e ks hcmd hread hks hrange hopen hidle
    exact next_ringCmd_eq hcmd (State.streamSet_of_idle hread hks hrange hopen hidle)
  · intro s sq f hcmd hactive hidle
    exact next_ringCmd_eq hcmd (State.streamMove_of_idle (beq_iff_eq.2 hactive) hidle)
  · intro s sq f hcmd hheld hidle
    exact next_ringCmd_eq hcmd (State.streamMove_of_idle (beq_iff_eq.2 hheld) hidle)
  · intro s sq f hcmd hopen hidle
    exact next_ringCmd_eq hcmd ((if_neg hopen).trans (if_neg (Bool.eq_false_iff.1 hidle)))
  · intro s sq f hcmd hentry hroom
    obtain ⟨hkey, hopen⟩ := hentry
    obtain ⟨hfresh, hpins, hset⟩ := hroom
    exact next_ringCmd_eq hcmd (State.streamPin_of_room hkey hopen hfresh hpins hset)
  · intro s sq f hcmd hopen
    exact next_ringCmd_eq hcmd (if_neg hopen)
  · intro s sq ok f hcmd hlive
    exact next_ringCmd_eq hcmd (State.hostPut_finish_of_live _ _ ok hlive)
  · intro s sq img f t e hcmd hread himage hfree
    exact next_ringCmd_eq hcmd (State.streamImport_of_free hread himage.1 himage.2 hfree)
  · intro s stream e t hfetch hlone ht
    exact congrArg Host.Outcome.next (State.fetchDone_of_lone hfetch hlone ht)

end Sys2Proof.Machine

/-! SUPPORT. ATTEND, COMPACT, DRAW, ACCEPT, LOAD, STORE and KV_APPEND (R216–R221, R229–R232, R262–R265): what one repeat does with its operands at the heads of their
queues. -/
namespace Sys2Proof.Machine
open Sys2Proof

/-! ### ATTEND and COMPACT -/

/-- ATTEND of one head without a tree tile, over pages that are mapped and reachable; u is the state in which the head has read its KV rows. -/
theorem State.attendHead_of_reached {s u : State} {x : OpCtx} {hits : List EccHit} {q kv : Tile} {pages : Array Nat} {h n : Nat}
    (htree : opF x.op 2 31 20 = noQ) (hh : h = (aget x.run.work 0).getD 0) (hn : n = q.rows / (opF x.op 1 35 32 + 1))
    (hq : x.head (opInA x.op) (if opHoldA x.op && !x.lastRep then h else 0) = some q) (hkv : x.head (opInB x.op) = some kv)
    (hshapes : attendShapes x.op q kv none = true) (hpages : s.kvReach x (kvLay x.op) n = .inr pages)
    (haddr : s.addrCheck (pageRuns pages ++ (kvLay x.op).tableRuns) = none) (hwalk : s.walkFault x (kvLay x.op) n = none)
    (hu : u = s.attendRead x (kvLay x.op) pages h n kv hits) :
    s.attendHead x hits = (u.attendOut x h q (u.attend x (kvLay x.op) pages h n (opF x.op 1 35 32 + 1) q none)
      (q.poison || kv.poison || false || u.kvPoisoned (kvLay x.op) pages h (s.committedLen x + n))).drew := by
  subst hh hn hu
  unfold State.attendHead
  simp only [htree, hq, hkv, hshapes, hwalk, hpages, haddr, ne_eq, not_true_eq_false, false_and, Bool.not_true, Bool.false_eq_true, if_true, if_false]

/-- COMPACT of an acceptance tile whose path moves a row, over pages that are mapped and reachable. -/
theorem State.compact_of_reached {s : State} {x : OpCtx} {t : Tile} {moves : List (Nat × Nat)} {ps : List (List Nat)} (hhead : x.head (opInA x.op) = some t)
    (hform : acceptOk t = true) (hmoves : moves = compactMoves (acceptInts t)) (hsome : moves.isEmpty = false) (hpages : s.compactPages x moves = some ps)
    (haddr : s.addrCheck (ps.flatMap fun p => pageRuns p.toArray) = none) (hwalk : s.compactWalk x moves = none) :
    s.compact x = (ps.foldl (fun st p => (List.range ((kvLay x.op).heads * 2)).foldl (fun s2 hk =>
      moves.foldl (fun s3 m => s3.compactRow (kvLay x.op) p (s.committedLen x) hk m) s2) st) s).compactDone x t := by
  subst hmoves
  unfold State.compact
  simp only [hhead, hform, hsome, hwalk, hpages, haddr, Bool.not_true, Bool.false_eq_true, if_false]

/-! ### DRAW and ACCEPT -/

/-- DRAW without a tree and not held, whose first logits tile covers the vocabulary: the walk over that tile ends the stream. -/
theorem State.drawOp_of_oneTile {s : State} {x : OpCtx} {t : Tile} (htree : opInB x.op = noQ) (hfree : opHoldA x.op = false) (hnone : x.run.wbytes = [])
    (hhead : x.head (opInA x.op) 0 = some t) (hshape : drawShape t none = true) (hcover : opF x.op 1 47 28 + 1 ≤ t.cols) :
    s.drawOp x = (s.endRead x (opInA x.op)).drawEnd x (s.drawWalk x [t] none t.rows) (t.poison || false || false) := by
  have hwhole : ¬ sumNat [] + t.cols < opF x.op 1 47 28 + 1 := by rw [show sumNat [] = 0 from rfl]; omega
  unfold State.drawOp
  simp only [htree, hfree, hnone, hhead, hshape, hwhole, List.length_nil, List.range_zero, List.filterMap_nil, List.map_nil, List.any_nil, List.nil_append, ne_eq,
    not_true_eq_false, false_and, Bool.false_and, Bool.not_true, Bool.false_eq_true, if_true, if_false]

/-- ACCEPT of an acceptance tile m that names the stream in hand. -/
theorem State.acceptOp_of_own {s : State} {x : OpCtx} {t : Tile} {m : Array Int} (hhead : x.head (opInA x.op) = some t) (hform : acceptOk t = true)
    (hm : m = acceptInts t) (hown : m.getD 19 (-1) = (((x.step.streams.map (·.id)).getD x.run.streamIx 0 : Nat) : Int)) :
    s.acceptOp x = (((((s.stageOutcome x (m.getD 0 0).toNat (unsignedOf 32 (m.getD 1 0)) ((m.getD 2 0) % 2 == 1)).poisonExcl x.slot x.run.streamIx
      t.poison).stage x t (x.owners 1)).endInA x).endRepeat x) := by
  subst hm
  unfold State.acceptOp
  simp only [hhead, hform, hown, bne_self_eq_false, Bool.not_true, Bool.or_self, Bool.false_eq_true, if_false]

/-! ### LOAD and STORE -/

/-- The tile that a LOAD op stages when its runs have been read in u. -/
def State.loadTile (u : State) (x : OpCtx) (runs : List (Nat × Nat)) : Tile :=
  { coordC := x.repNo % 65536, rows := loadRows x.op, cols := loadCols x.op, format := loadFmt x.op, layout := loadLayout x.op, sparse := opF x.op 1 15 15 == 1,
    poison := runs.any fun q => u.poisoned q.1 q.2, payload := runs.flatMap fun q => u.rd q.1 q.2 }

/-- LOAD of runs that it may address; u is the state in which they have been read. -/
theorem State.loadOp_of_reached {s u : State} {x : OpCtx} {hits : List EccHit} {runs : List (Nat × Nat)}
    (hruns : runs = lsRuns x.op x.repNo (loadRows x.op) (loadBytes x.op)) (haddr : s.addrCheck runs = none)
    (hu : u = runs.foldl (fun st q => (st.access q.1 q.2 false (lsHint x.op == 0)).ecc x.slot q.1 q.2 hits) s) :
    s.loadOp x hits = (u.drew.stage x (u.loadTile x runs) (x.owners (loadRows x.op))).endRepeat x := by
  subst hruns hu
  unfold State.loadOp
  simp only [haddr, State.loadTile]

/-- STORE, without PITCH, of a tile to runs that it may address. -/
theorem State.storeOp_of_reached {s : State} {x : OpCtx} {hits : List EccHit} {t : Tile} {runs : List (Nat × Nat)} (hhead : x.head (opInA x.op) = some t)
    (hpitch : opF x.op 3 63 40 = 0) (hruns : runs = lsRuns x.op x.repNo t.rows t.payload.length) (haddr : s.addrCheck runs = none) :
    s.storeOp x hits = (((runs.foldl (fun (st : State × List Byte) q =>
      (((st.1.access q.1 q.2 true (lsHint x.op == 0)).ecc x.slot q.1 q.2 hits).st q.1 (st.2.take q.2) t.poison, st.2.drop q.2)) (s, t.payload)).1.stage x
        (ackTile x.repNo) (x.owners 1)).endInA x).endRepeat x := by
  subst hruns
  unfold State.storeOp
  simp only [hhead, hpitch, haddr, ne_eq, not_true_eq_false, false_and, if_false]

/-! ### KV_APPEND -/

/-- KV_APPEND of one head's tile over pages that are mapped and reachable. -/
theorem State.kvAppendOp_of_reached {s : State} {x : OpCtx} {kv : Tile} {pages : Array Nat} {h : Nat} (hh : h = (aget x.run.work 0).getD 0)
    (hhead : x.head (opInA x.op) (if opHoldA x.op && !x.lastRep then h else 0) = some kv) (hshape : kvShape (kvLay x.op) kv = true)
    (hpages : s.kvReach x (kvLay x.op) (kv.rows / 2) = .inr pages) (haddr : s.addrCheck (pageRuns pages ++ (kvLay x.op).tableRuns) = none)
    (hwalk : s.walkFault x (kvLay x.op) (kv.rows / 2) = none) :
    s.kvAppendOp x = (s.kvAppend x (kvLay x.op) pages h (kv.rows / 2) kv).kvDone x h kv := by
  subst hh
  unfold State.kvAppendOp
  simp only [hhead, hshape, hwalk, hpages, haddr, Bool.not_true, Bool.false_eq_true, if_false]

/-! ### The obligation -/

/-- Settles O36: the op has started, so each command is its station's repeat, and that repeat takes the branch that the clause's operands leave. -/
theorem attentionAndMemoryStationsComplete : Obligations.AttentionAndMemoryStationsComplete := by
  refine ⟨?_, ?_, ?_, ?_, ?_, ?_, ?_⟩
  · intro s slot core hits x q kv pages u h n hx hop hhead hin hreach hu
    obtain ⟨htree, hh, hn⟩ := hhead
    obtain ⟨hq, hkv, hshapes⟩ := hin
    obtain ⟨hpages, haddr, hwalk⟩ := hreach
    exact next_runOp_of_started hx hop rfl (State.attendHead_of_reached htree hh hn hq hkv hshapes hpages haddr hwalk hu)
  · intro s slot core x t ps hx hop hin hpages hreach
    obtain ⟨hhead, hform, hsome⟩ := hin
    exact next_runOp_of_started hx hop rfl (State.compact_of_reached hhead hform rfl hsome hpages hreach.1 hreach.2)
  · intro s slot core x t hx hop hfirst hin
    obtain ⟨htree, hfree, hnone⟩ := hfirst
    obtain ⟨hhead, hshape, hcover⟩ := hin
    exact next_runOp_of_started hx hop rfl (State.drawOp_of_oneTile htree hfree hnone hhead hshape hcover)
  · intro s slot core x t hx hop hin
    obtain ⟨hhead, hform, hown⟩ := hin
    exact next_runOp_of_started hx hop rfl (State.acceptOp_of_own hhead hform rfl hown)
  · intro s slot core ix hits x runs u hx hop hruns haddr hu
    exact next_runOp_of_started hx hop rfl (State.loadOp_of_reached hruns haddr hu)
  · intro s slot core ix hits x t runs hx hop hin hruns haddr
    exact next_runOp_of_started hx hop rfl (State.storeOp_of_reached hin.1 hin.2 hruns haddr)
  · intro s slot core ix x kv pages h hx hop hh hin hreach
    obtain ⟨hpages, haddr, hwalk⟩ := hreach
    exact next_runOp_of_started hx hop rfl (State.kvAppendOp_of_reached hh hin.1 hin.2 hpages haddr hwalk)

end Sys2Proof.Machine

/-! SUPPORT. The poison marks that a write of good data leaves (R267), the aperture and the stack windows as two ways to one place (R243, R245), HOST_COPY (R309) and the
commands of the stacks (R242, R269, R274). That HBM_RETIRE answers MEM_OK once the retirement is raised is the model's choice (log entry 80). -/
namespace Sys2Proof.Machine
open Sys2Proof

/-! ### The stack windows and the aperture -/

/-- The window of stack n, below its visible 46 GiB. -/
theorem place_window (s : State) {n off : Nat} (hn : n < 8) (hoff : off < stackVisible) : s.place (0x1000000000 * n + off) = .stack n off := by
  have hvis : stackVisible < 0x1000000000 := by decide
  have hdiv : (0x1000000000 * n + off) / 0x1000000000 = n := by omega
  have hmod : (0x1000000000 * n + off) % 0x1000000000 = off := by omega
  rw [place_stack s (by omega), hdiv, hmod, decide_eq_true hoff]
  rfl

/-- The key of a byte in a stack's window is its address. -/
theorem placeKey_window (s : State) {n a : Nat} (hn : n < 8) (hlo : 0x1000000000 * n ≤ a) (hhi : a < 0x1000000000 * n + stackVisible) :
    s.placeKey (s.place a) = some a := by
  obtain ⟨off, rfl⟩ := Nat.exists_eq_add_of_le hlo
  rw [place_window s hn (by omega)]
  rfl

/-- The aperture interleaves eight stacks. -/
theorem lt_eight_of_dilResolve {s : State} {x n off : Nat} (h : s.dilResolve x = .stack n off) : n < 8 := by
  unfold State.dilResolve at h
  dsimp only at h
  split at h
  · cases h
  · cases h
    exact Nat.mod_lt _ (by decide)

/-- Addresses of one key read the same byte. -/
theorem State.ld1_of_placeKey_eq {s : State} {x y : Nat} (h : s.placeKey (s.place x) = s.placeKey (s.place y)) : s.ld1 x = s.ld1 y := by
  unfold State.ld1
  rw [h]

/-- A byte written at a mapped address is read at every address of the same key. -/
theorem State.ld1_st_singleton_of_placeKey_eq {s : State} {a x : Nat} (b : Byte) (hmap : (s.placeKey (s.place a)).isSome = true)
    (h : s.placeKey (s.place x) = s.placeKey (s.place a)) : (s.st a [b]).ld1 x = b :=
  memoryWriteThenRead.1 s a x 0 [b] Nat.one_pos hmap h fun j hj hlast => absurd hlast (by rw [List.length_singleton]; omega)

/-- Settles O13: the aperture address and the window address have one place, so one key, and the laws about bytes speak of keys alone. -/
theorem apertureAndWindowAreOne : Obligations.ApertureAndWindowAreOne := by
  intro s x n off hx hplace hoff
  have hn : n < 8 := lt_eight_of_dilResolve ((place_dil s hx).symm.trans hplace)
  have hwin := place_window s hn hoff
  have hkey : s.placeKey (s.place (0x8000000000 + x)) = s.placeKey (s.place (0x1000000000 * n + off)) := by rw [hplace, hwin]
  exact ⟨hwin, hn, State.ld1_of_placeKey_eq hkey, fun b =>
    ⟨State.ld1_st_singleton_of_placeKey_eq b (by rw [hplace]; rfl) hkey.symm, State.ld1_st_singleton_of_placeKey_eq b (by rw [hwin]; rfl) hkey⟩⟩

/-! ### The poison marks after a write of good data -/

/-- The address at which the run of a write from a on in its granule i begins. -/
def runLo (a i : Nat) : Nat := if i = 0 then a else 4096 * (a / 4096 + i)

/-- The address at which that run ends, for n bytes. -/
def runHi (a n i : Nat) : Nat := min (a + n) (4096 * (a / 4096 + i + 1))

/-- The key and length of the run of a write in its granule i, where it has one and the granule is mapped. -/
def State.stRun (s : State) (a n i : Nat) : Option (Nat × Nat) :=
  if runLo a i < runHi a n i then (s.placeKey (s.place (runLo a i))).map fun k => (k, runHi a n i - runLo a i) else none

/-- The blocks covered whole are those between the bounds of the range. -/
theorem mem_wholeBlocks {a n b : Nat} : b ∈ wholeBlocks a n ↔ a ≤ 64 * b ∧ 64 * b + 64 ≤ a + n := by
  have hblocks : a ≤ 64 * b ∧ 64 * b + 64 ≤ a + n → b ∈ blocksOf a n := fun h => by
    unfold blocksOf
    rw [if_neg (by omega), List.mem_map]
    exact ⟨b - a / 64, List.mem_range.2 (by omega), by omega⟩
  simp only [wholeBlocks, List.mem_filter, Bool.and_eq_true, decide_eq_true_eq, Nat.mul_comm b 64]
  exact and_iff_right_of_imp hblocks

@[simp] theorem State.stPiece_poison (s : State) (a : Nat) (bs : List Byte) : (s.stPiece a bs).mm.poison = s.mm.poison := by
  unfold State.stPiece
  split
  · rfl
  · rfl

@[simp] theorem State.stGo_poison (s : State) (f a : Nat) (bs : List Byte) : (s.stGo f a bs).mm.poison = s.mm.poison := by
  induction f generalizing s a bs with
  | zero => rfl
  | succ f ih =>
    unfold State.stGo
    split
    · rfl
    · exact (ih _ _ _).trans (s.stPiece_poison _ _)

/-- A write of good data leaves the marks but of the blocks that one of its runs in a stack covers whole. -/
theorem State.mem_poison_st {s : State} {a b : Nat} {bs : List Byte} : b ∈ (s.st a bs).mm.poison ↔
    b ∈ s.mm.poison ∧ ¬ ∃ i < bs.length / 4096 + 2, ∃ k m, s.stRun a bs.length i = some (k, m) ∧ isStackKey k = true ∧ b ∈ wholeBlocks k m := by
  have heq : (s.st a bs).mm.poison = (s.stGo (bs.length / 4096 + 2) a bs).mm.poison.filter fun b =>
      !((((List.range (bs.length / 4096 + 2)).filterMap (s.stRun a bs.length)).filter fun r => isStackKey r.1).flatMap fun r => wholeBlocks r.1 r.2).contains b := rfl
  simp only [heq, State.stGo_poison, List.mem_filter, Bool.not_eq_true', List.contains_eq_mem, decide_eq_false_iff_not, List.mem_flatMap, List.mem_filterMap,
    List.mem_range, Prod.exists]
  refine and_congr_right fun _ => not_congr ?_
  constructor
  · rintro ⟨k, m, ⟨⟨i, hi, hrun⟩, hstack⟩, hb⟩
    exact ⟨i, hi, k, m, hrun, hstack, hb⟩
  · rintro ⟨i, hi, k, m, hrun, hstack, hb⟩
    exact ⟨k, m, ⟨⟨i, hi, hrun⟩, hstack⟩, hb⟩

/-- The run in granule i of a write inside a stack's window lies at its own address. -/
theorem State.stRun_window (s : State) {n a len : Nat} (hn : n < 8) (hlo : 0x1000000000 * n ≤ a) (hhi : a + len ≤ 0x1000000000 * n + stackVisible) (i : Nat) :
    s.stRun a len i = if runLo a i < runHi a len i then some (runLo a i, runHi a len i - runLo a i) else none := by
  unfold State.stRun
  split
  · next h =>
    have ha : a ≤ runLo a i := by unfold runLo; split <;> omega
    have he : runHi a len i ≤ a + len := Nat.min_le_left _ _
    rw [placeKey_window s hn (by omega) (by omega)]
    rfl
  · rfl

/-- A run of a write inside a stack's window covers a block whole when the block lies between the run's ends. -/
theorem State.stRun_window_covers {s : State} {n a len i b : Nat} (hn : n < 8) (hlo : 0x1000000000 * n ≤ a) (hhi : a + len ≤ 0x1000000000 * n + stackVisible) :
    (∃ k m, s.stRun a len i = some (k, m) ∧ isStackKey k = true ∧ b ∈ wholeBlocks k m) ↔ runLo a i ≤ 64 * b ∧ 64 * b + 64 ≤ runHi a len i := by
  rw [State.stRun_window s hn hlo hhi]
  constructor
  · rintro ⟨k, m, hrun, -, hb⟩
    obtain ⟨hne, heq⟩ := Option.ite_none_right_eq_some.1 hrun
    cases heq
    obtain ⟨hfrom, hto⟩ := mem_wholeBlocks.1 hb
    omega
  · rintro ⟨hfrom, hto⟩
    have hend : runHi a len i ≤ a + len := Nat.min_le_left _ _
    have hvis : stackVisible < 0x1000000000 := by decide
    exact ⟨_, _, if_pos (by omega), decide_eq_true (by omega), mem_wholeBlocks.2 (by omega)⟩

/-- A block is covered whole by a write exactly when it is by one of the write's runs, as no block reaches over the end of a granule. -/
theorem block_in_run_iff {a n b : Nat} : (∃ i < n / 4096 + 2, runLo a i ≤ 64 * b ∧ 64 * b + 64 ≤ runHi a n i) ↔ a ≤ 64 * b ∧ 64 * b + 64 ≤ a + n := by
  unfold runLo runHi
  constructor
  · rintro ⟨i, -, hlo, hhi⟩
    split at hlo <;> omega
  · rintro ⟨hlo, hhi⟩
    refine ⟨64 * b / 4096 - a / 4096, by omega, ?_, by omega⟩
    split <;> omega

/-- Settles O12: in a stack's window each run of the write has its address for its key, and a block covered whole is covered by one run. -/
theorem wholeBlockClearsPoison : Obligations.WholeBlockClearsPoison := by
  intro s n a b bs hn hlo hhi
  simp only [State.mem_poison_st, State.stRun_window_covers hn hlo hhi, block_in_run_iff]

/-! ### HOST_COPY and the commands of the stacks -/

/-- HOST_COPY of a range the function may copy. -/
theorem State.copyStart_of_may {s : State} {f : InFlight} (hlen : copyLen f.desc ≠ 0)
    (hmay : s.copyMay (s.sqFid f.sq) (copyDev f.desc) (copyLen f.desc) = true) : s.copyStart f = s.startFlight f 0 0 := by
  unfold State.copyStart
  rw [if_neg hlen, hmay]
  rfl

/-- A copy into the device ends, all its bytes moved. -/
theorem State.copyEnd_of_moved {s : State} {f : InFlight} {n : Nat} (data : List Byte) (hits : List EccHit) (hlive : s.fidLive (s.sqFid f.sq) = true)
    (hin : copyOut f.desc = false) (hlen : copyLen f.desc = n) (hmay : s.copyMay (s.sqFid f.sq) (copyDev f.desc) n = true)
    (hready : s.readyPrefix (copyDev f.desc) n = n) : s.copyEnd f data none hits = (s.copyMove f n data hits).finish f 0x80 [] := by
  unfold State.copyEnd
  simp only [hlive, hin, hlen, hmay, hready, Option.getD_none, Option.isSome_none, Bool.not_true, Bool.or_self, Bool.false_and, Bool.false_eq_true, if_true,
    if_false, Nat.min_self, Nat.lt_irrefl]

/-- HOST_COPY_DONE ends the oldest started copy of the SQ. -/
theorem execHostCopyDone_of_started {s : State} {sq : RingNo} {f : InFlight} (data : List Byte) (fail : Option Word) (hits : List EccHit)
    (hf : s.host.flights.find? (fun f => f.sq == sq.toNat && f.opcode == 2 && f.stage == .started) = some f) :
    execHostCopyDone sq data fail hits s = .next (s.copyEnd f data (fail.map (·.toNat)) hits) := by
  unfold execHostCopyDone
  rw [hf]

/-- HBM_RETIRE of a visible page that is not retired, with room in the reserve. -/
theorem State.hbmRetire_of_room {s : State} {f : InFlight} (hpage : recNat f.desc 12 4 < 94208)
    (hnew : aget (s.stack (recNat f.desc 8 1)).remap (recNat f.desc 12 4) = none) (hroom : s.isSet (fHBM_STATUS_RESERVE_FULL (recNat f.desc 8 1)) = false) :
    s.hbmRetire f = (s.raiseRetire (recNat f.desc 8 1) (recNat f.desc 12 4)).finish f 0x60 [] := by
  unfold State.hbmRetire
  simp only [Nat.not_le.2 hpage, hnew, hroom, Option.isSome_none, Bool.false_eq_true, or_self, if_false]

/-- HBM_REKEY of a span held in L3. -/
theorem State.hbmRekey_of_held {s : State} {f : InFlight} (hheld : s.faults.heldSpans.contains (recNat f.desc 8 1) = true) :
    s.hbmRekey f = (((List.range 5).foldl (fun st k => st.setF (fHBM_KEY_MASK (recNat f.desc 8 1) k) (recNat f.desc (16 + 4 * k) 4)) s).forgetStack
      (recNat f.desc 8 1)).finish f 0x60 [] := by
  unfold State.hbmRekey
  simp only [hheld, Bool.not_true, Bool.false_eq_true, if_false]

/-- Settles O34: the command carried out is the ring's next descriptor, or the oldest started copy, and each takes the branch that the clause's hypotheses leave. -/
theorem hostCopyAndStackCommands : Obligations.HostCopyAndStackCommands := by
  refine ⟨?_, ?_, ?_, ?_, ?_⟩
  · intro s sq f hcmd hlen hmay
    exact next_ringCmd_eq hcmd (State.copyStart_of_may hlen hmay)
  · intro s sq data fail hits f n hf hcopy hdev
    obtain ⟨rfl, hlive, hin, hlen⟩ := hcopy
    exact (execHostCopyDone_of_started data none hits hf).trans (congrArg Host.Outcome.next (State.copyEnd_of_moved data hits hlive hin hlen hdev.1 hdev.2))
  · intro s sq f hcmd hpage hroom
    exact next_ringCmd_eq hcmd (State.hbmRetire_of_room hpage.1 hpage.2 hroom)
  · intro s sq f hcmd hheld
    exact next_ringCmd_eq hcmd (State.hbmRekey_of_held hheld)
  · intro s sq f hcmd howned
    exact next_ringCmd_eq hcmd (if_neg howned)

end Sys2Proof.Machine

/-! SUPPORT. Fetching descriptors, polling and the completion rings (R300, R306, R310, R317–R324). -/
namespace Sys2Proof.Machine
open Sys2Proof

/-- An outcome whose guard does not hold. -/
theorem next_if_neg {c : Prop} [Decidable c] {a b : State} (h : ¬ c) : (.next (if c then a else b) : Host.Outcome State Fault Refusal) = .next b := by rw [if_neg h]

/-- A TAIL no further than the ring's size ahead of FETCHED, on a ring that is in use. -/
theorem State.sqTail_of_inRange {s : State} {n tail : Nat} (hvalid : s.isSet (fHOST_SQ_STATE_HI_VALID n) = true)
    (hon : s.isSet (fHOST_SQ_STATE_HI_DISABLED n) = false) (hlive : s.fidLive (s.sqFid n) = true)
    (hrange : (tail + 2 ^ 32 - s.getF (fHOST_SQ_STATE_LO_FETCHED n)) % 2 ^ 32 ≤ s.sqSize n) :
    s.sqTail n tail = s.setSq n { s.sq n with tail := tail, wantRead := false } := by
  unfold State.sqTail
  rw [hvalid, hon, hlive]
  exact (if_neg (by decide)).trans (if_neg (Nat.not_lt.2 hrange))

/-- A descriptor read for the SQ whose turn x it is. -/
theorem execDescriptorFetch_of_turn {s : State} {sq : RingNo} {x : Nat × Nat × Nat} (d : List Byte) (hpick : s.fetchPick = some x) (hsq : x.2.1 = sq.toNat) :
    execDescriptorFetch sq (some d) s = .next (((s.takeTurn x).emit (.hostRead (s.sqFid sq.toNat)
      ((s.sq sq.toNat).base + s.getF (fHOST_SQ_STATE_LO_FETCHED sq.toNat) % s.sqSize sq.toNat * 64) 64)).fetchDesc sq.toNat d) := by
  unfold execDescriptorFetch
  rw [hpick]
  exact next_if_neg (not_not_intro hsq)

/-- A poll of a function whose last one, at a, was a period or more ago. -/
theorem execDoorbellPoll_of_due {s : State} {fid : Fid} {a : Nat} (hlive : s.fidLive fid.toNat = true) (hon : (s.fn fid.toNat).enabled = true)
    (hlast : aget s.host.polledAt fid.toNat = some a) (hdue : a + s.pollNs ≤ s.time.nowNs) : execDoorbellPoll fid s = .next (s.poll fid.toNat) := by
  unfold execDoorbellPoll
  rw [hlast, hlive, hon]
  exact next_if_pos (decide_eq_true hdue)

/-- A BELL write of a function that is live. -/
theorem execBellWrite_of_live {s : State} {fid : Fid} (value : Word) (hlive : s.fidLive fid.toNat = true) :
    execBellWrite fid value s = .next (if s.isSet (fHOST_SQ_STATE_HI_VALID (value.toNat % 32768)) && s.sqFid (value.toNat % 32768) == fid.toNat then
      s.wantRecord fid.toNat (value.toNat % 32768) else s.bumpSat fHOST_COUNTS_BELL_IGNORED) :=
  next_if_neg (by rw [hlive]; decide)

/-- Unmasking a vector whose message is pending. -/
theorem execMsixUnmask_of_pending {s : State} {fid : Fid} {vec : Fin 2048} (hfid : s.fidNames fid.toNat = true)
    (hpend : (s.fn fid.toNat).msixPend.contains vec.val = true) :
    execMsixUnmask fid vec s = .next ((s.setFn fid.toNat { s.fn fid.toNat with
      unmasked := insNat vec.val (s.fn fid.toNat).unmasked, msixPend := (s.fn fid.toNat).msixPend.filter (· != vec.val) }).emit (.msix fid.toNat vec.val)) :=
  (next_if_pos hfid).trans (next_if_pos hpend)

/-- Settles O31: each guard holds by the clause's hypotheses, and what is then taken up is the operation that the rule names. -/
theorem fetchAndPolling : Obligations.FetchAndPolling := by
  refine ⟨?_, ?_, ?_, ?_, ?_, ?_, ?_, ?_, ?_, ?_⟩
  · intro s sq tail hwant hring hrange
    obtain ⟨hvalid, hon, hlive⟩ := hring
    exact (next_if_pos hwant).trans (congrArg Host.Outcome.next (State.sqTail_of_inRange hvalid hon hlive hrange))
  · intro s sq desc d x hdesc hturn
    subst hdesc
    exact execDescriptorFetch_of_turn d hturn.1 hturn.2
  · intro s fid a hfn hlast
    exact execDoorbellPoll_of_due hfn.1 hfn.2 hlast.1 hlast.2
  · intro s fid word bits hfn
    exact next_if_pos (by rw [hfn.1, hfn.2]; rfl)
  · intro s fid value hlive
    exact execBellWrite_of_live value hlive
  · intro s cq head t hcq ht
    subst ht
    exact next_if_pos (by rw [hcq.1, hcq.2]; rfl)
  · intro s cq
    rfl
  · intro s cq hlive hdue
    exact (next_if_pos hlive).trans (next_if_pos hdue)
  · intro s fid vec hfid hpend
    exact execMsixUnmask_of_pending hfid hpend
  · intro s sq f hcmd
    exact next_ringCmd_eq hcmd rfl

end Sys2Proof.Machine

/-! SUPPORT. The host's links and functions (R284, R285, R292, R295, R335, R338, R339, R606). -/
namespace Sys2Proof.Machine
open Sys2Proof

/-- PERST_N of port 0 going low while its slot is one link: the state before the functions are reset. -/
def State.perst0Down (s : State) : State :=
  let s1 := s.setHost { s.host with perst0 := true }
  (((s1.bumpSat (fHOST_LINK_PERST 0)).linkDown 0).setF (fHOST_LINK_IDE_SECURE 0) 0).setLink 0 { s1.link 0 with downAt := s.time.nowNs, ideSecure := [] }

/-- PERST_N of port 0 going low while its slot is one link: the state in which that link then fails. -/
def State.perst0Reset (s : State) : State := (s.perst0Down.portFids 0).foldl (fun st fid => st.resetFn fid) s.perst0Down

/-- PERST_N of port 0 going low while its slot is one link that has not failed: its functions are reset, and it fails. -/
theorem execPerstAssert_of_oneLink {s : State} {port : Fin 2} (ptrs : RingPtrs) (hport : port.val = 0) (hhigh : s.host.perst0 = false) (hone : s.bif 0 = false)
    (hup : (s.perst0Reset.link 0).failed = false) : execPerstAssert port ptrs s = .next (s.perst0Reset.linkFail 0 true ptrs) := by
  have hperst : s.perst 0 = false := hhigh
  unfold execPerstAssert
  simp only [hport, hperst, hone, Bool.false_eq_true, if_false, if_true, Nat.mul_zero, List.foldl_cons, List.foldl_nil]
  exact next_if_neg (by rw [Bool.not_eq_true]; exact hup)

/-- A link that may train and does. -/
theorem execHostLinkUp_of_trained {s : State} {link : LinkIx} {speed : Fin 7} {width : Fin 17} (atomics : Bool) (hperst : s.perst (link.val / 2) = false)
    (hio : s.boot.ioDead = false) (hpf : s.fidNames (link.val / 2 * 128 + link.val % 2) = true) (hspeed : speed.val ≠ 0) (hwidth : width.val ≠ 0) {t u : State}
    (ht : t = ((s.setF (fHOST_LINK_UP link.val) 1).setF (fHOST_LINK_SPEED link.val) speed.val).setF (fHOST_LINK_WIDTH link.val) width.val)
    (hu : u = (t.setF (fHOST_LINK_SUMMARY link.val) atomics.toNat).setFn (link.val / 2 * 128 + link.val % 2)
      { t.fn (link.val / 2 * 128 + link.val % 2) with atomicEn := atomics }) :
    execHostLinkUp link speed width atomics s = .next ((u.setLink link.val { u.link link.val with failed := false }).showHostReady) := by
  subst ht hu
  exact next_if_neg (by rw [hperst, hio, hpf, decide_eq_false hspeed, decide_eq_false hwidth]; decide)

/-- A failure of a link that has not failed before: of a ring read, or for want of activity. -/
theorem execHostLinkFail_of_counted {s : State} {link : LinkIx} {readFailed : Bool} (ptrs : RingPtrs) (hfirst : (s.link link.val).failed = false)
    (hcause : readFailed = true ∧ s.isSet (fHOST_LINK_UP link.val) = true ∨
      s.isSet (fHOST_LINK_UP link.val) = false ∧ (s.link link.val).downAt + s.failNs ≤ s.time.nowNs) :
    execHostLinkFail link readFailed ptrs s = .next (s.linkFail link.val false ptrs) := by
  refine next_if_neg ?_
  rcases hcause with ⟨hread, hup⟩ | ⟨hdown, hidle⟩
  · rw [hfirst, hread, hup]
    exact Bool.false_ne_true
  · rw [hfirst, hdown, decide_eq_true hidle, Bool.and_false]
    exact Bool.false_ne_true

/-- A write of VF Enable of a PF. -/
theorem execVfEnableWrite_of_pf {s : State} {fid : Fid} (enable : Bool) (hpf : isPf fid.toNat = true) (hfid : s.fidNames fid.toNat = true) :
    execVfEnableWrite fid enable s = .next (if enable then s.setFn fid.toNat { s.fn fid.toNat with vfEnable := true }
      else (s.setFn fid.toNat { s.fn fid.toNat with vfEnable := false }).dropVfs fid.toNat) := by
  refine (next_if_neg (by rw [hpf, hfid]; decide)).trans ?_
  cases enable
  · rfl
  · rfl

/-- Settles O33: each guard holds by the clause's hypotheses; a port whose slot is one link has that link alone to fail. -/
theorem linksAndFunctions : Obligations.LinksAndFunctions := by
  refine ⟨?_, ?_, ?_, ?_, ?_, ?_, ?_, ?_, ?_⟩
  · intro s port ptrs t hport hhigh hone ht hup
    subst ht
    exact execPerstAssert_of_oneLink ptrs hport hhigh hone hup
  · intro s port strapBif t hlow ht
    subst ht
    exact next_if_neg (by rw [hlow]; decide)
  · intro s link readFailed ptrs hfirst hcause
    exact execHostLinkFail_of_counted ptrs hfirst hcause
  · intro s link stream ptrs t hsecure ht
    subst ht
    exact next_if_neg (by rw [hsecure]; decide)
  · intro s link speed width atomics t u hmay ht hu
    obtain ⟨hperst, hio, hpf, hspeed, hwidth⟩ := hmay
    exact execHostLinkUp_of_trained atomics hperst hio hpf hspeed hwidth ht hu
  · intro s link hup
    exact next_if_pos hup
  · intro s fid hfid
    exact next_if_neg (by rw [hfid]; decide)
  · intro s fid enable hfn
    exact execVfEnableWrite_of_pf enable hfn.1 hfn.2
  · intro s fid enter hfid
    exact next_if_pos hfid

end Sys2Proof.Machine

/-! SUPPORT. The SPDM responder and DOE discovery (R293, R294, R697, R701–R703). -/
namespace Sys2Proof.Machine
open Sys2Proof

/-- A request on a live transport that has negotiated as far as it needs. -/
theorem next_spdmReq_of_negotiated {s t : State} {ch need : Nat} {k : State → State} (hlive : s.chanLive ch = true) (hdone : need ≤ s.spdmDone ch)
    (hk : k s = t) : (.next (s.spdmReq ch need k) : Host.Outcome State Fault Refusal) = .next t := by
  unfold State.spdmReq
  rw [hlive]
  exact (next_if_neg (by decide)).trans ((next_if_neg (Nat.not_lt.2 hdone)).trans (congrArg Host.Outcome.next hk))

/-- A request on a live transport inside a session v of it that stands as the request needs. -/
theorem next_sessionReq_of_standing {s : State} {ch id : Nat} {o : Bool} {v : SpdmSession} (k : State → State) (hlive : s.chanLive ch = true)
    (hv : s.session ch id = some v ∧ v.open' = o) : (.next (s.sessionReq ch id o k) : Host.Outcome State Fault Refusal) = .next (k s) := by
  unfold State.sessionReq
  rw [hlive, hv.1]
  exact (next_if_neg (by decide)).trans (next_if_pos hv.2)

/-- CHALLENGE of slot 0 while the key may sign. -/
theorem execChallenge_of_slot0 {s : State} {chan : Fin 5} {slot : Byte} (nonce : List Byte) (hlive : s.chanLive chan.val = true)
    (hdone : 3 ≤ s.spdmDone chan.val) (hkey : s.keyBlocked = false) (hslot : slot.toNat = 0) :
    execChallenge chan slot nonce s = .next ((s.answer chan.val (0x03, (digest Config.identityChain ++ s.random 32) ++
      s.signed (nonce ++ (digest Config.identityChain ++ s.random 32)))).drew) := by
  refine next_spdmReq_of_negotiated hlive hdone ?_
  rw [hkey]
  exact (if_neg Bool.false_ne_true).trans (if_neg (not_not_intro hslot))

/-- GET_MEASUREMENTS of one block, without a signature. -/
theorem execGetMeasurements_of_block {s : State} {chan : Fin 5} {index : Byte} (nonce : List Byte) (hlive : s.chanLive chan.val = true)
    (hdone : 3 ≤ s.spdmDone chan.val) (hlo : 1 ≤ index.toNat) (hhi : index.toNat ≤ 10) :
    execGetMeasurements chan false index nonce s = .next ((s.answer chan.val (0x60, (1 : Byte) :: s.measBlock index.toNat ++ s.random 32)).drew) := by
  have hin : ¬ (10 < index.toNat ∧ index.toNat ≠ 0xFF) := by omega
  have hcount : index.toNat ≠ 0 := by omega
  have hall : index.toNat ≠ 0xFF := by omega
  refine next_spdmReq_of_negotiated hlive hdone ?_
  simp only [hin, hcount, hall, Bool.false_and, Bool.false_eq_true, if_false]

/-- KEY_EXCHANGE of slot 0 while the key may sign and a session is free. -/
theorem execKeyExchange_of_room {s : State} {chan : Fin 5} {slot : Byte} (share : List Byte) (hlive : s.chanLive chan.val = true)
    (hdone : 3 ≤ s.spdmDone chan.val) (hkey : s.keyBlocked = false) (hslot : slot.toNat = 0) (hroom : s.sec.sessions.length < 4) :
    execKeyExchange chan slot share s = .next (((s.setSec { s.sec with
      sessions := s.sec.sessions ++ [⟨s.sec.nextSession, chan.val, false, 0, 0⟩], nextSession := s.sec.nextSession + 1 }).answer chan.val
      (0x64, (leBytes 2 s.sec.nextSession ++ s.random 128) ++ s.signed (share ++ (leBytes 2 s.sec.nextSession ++ s.random 128)))).drew) := by
  refine next_spdmReq_of_negotiated hlive hdone ?_
  rw [hkey]
  exact (if_neg Bool.false_ne_true).trans ((if_neg (not_not_intro hslot)).trans (if_neg (Nat.not_le.2 hroom)))

/-- DOE_DISCOVERY of index 1 on a live mailbox. -/
theorem execDoeDiscovery_of_index1 {s : State} {link : LinkIx} {index : Byte} (hlive : s.chanLive link.val = true) (hindex : index.toNat = 1) :
    execDoeDiscovery link index s = .next (s.emit (.spdm link.val 0 [1, 0, 1, 2])) := by
  unfold execDoeDiscovery
  rw [hlive, hindex]
  rfl

/-- Settles O58: the transport is live and has negotiated, or has its session, as far as the request needs, so the request's own case answers it. -/
theorem spdmResponderAnswers : Obligations.SpdmResponderAnswers := by
  refine ⟨?_, ?_, ?_, ?_, ?_, ?_, ?_, ?_, ?_, ?_, ?_, ?_, ?_, ?_⟩
  · intro s chan hlive
    exact next_spdmReq_of_negotiated hlive (Nat.zero_le _) rfl
  · intro s chan hchan
    exact next_spdmReq_of_negotiated hchan.1 hchan.2 rfl
  · intro s chan offered hchan
    exact next_spdmReq_of_negotiated hchan.1 hchan.2 rfl
  · intro s chan hchan
    exact next_spdmReq_of_negotiated hchan.1 hchan.2 rfl
  · intro s chan slot offset length hchan
    exact next_spdmReq_of_negotiated hchan.1 hchan.2 rfl
  · intro s chan slot nonce hchan hkey
    exact execChallenge_of_slot0 nonce hchan.1 hchan.2 hkey.1 hkey.2
  · intro s chan sign index nonce hchan hblock
    obtain ⟨rfl, hlo, hhi⟩ := hblock
    exact execGetMeasurements_of_block nonce hchan.1 hchan.2 hlo hhi
  · intro s chan slot share hchan hkey
    obtain ⟨hblocked, hslot, hroom⟩ := hkey
    exact execKeyExchange_of_room share hchan.1 hchan.2 hblocked hslot hroom
  · intro s chan session verified v hlive hv
    exact next_sessionReq_of_standing _ hlive hv
  · intro s chan session v hlive hv
    exact next_sessionReq_of_standing _ hlive hv
  · intro s chan session op v hlive hv
    exact next_sessionReq_of_standing _ hlive hv
  · intro s chan session v hlive hv
    exact next_sessionReq_of_standing _ hlive hv
  · intro s link session stream v hlive hv
    exact next_sessionReq_of_standing _ hlive hv
  · intro s link index hdoe
    exact execDoeDiscovery_of_index1 hdoe.1 hdoe.2

end Sys2Proof.Machine

/-! SUPPORT. The port commands: PORT_CONTROL (R369, R387), PORT_EXPECT and PRESET_WRITE (R388) and PORT_POWER (R716). That the actions write CFG.ENABLE, and the cause a
substituted port goes DARK with, are choices of the model (log entries 48 and 49). -/
namespace Sys2Proof.Machine
open Sys2Proof

/-! ### The action byte -/

/-- An opcode with an action byte whose descriptor is the ring's next one carries out the action that the byte names. -/
theorem State.ringAction_of_nextCmd {s : State} {n op i act : Nat} {f : InFlight} (hcmd : s.nextCmd n op = some f) (hact : recNat f.desc i 1 = act)
    (count bad : Nat) (k : State → InFlight → State) : s.ringAction n op i act count bad k = k s f := by
  unfold State.ringAction
  rw [hcmd]
  exact if_pos hact

/-- The outcome of an action whose descriptor is the ring's next one. -/
theorem next_ringAction_eq {s t : State} {n op i act count bad : Nat} {f : InFlight} {k : State → InFlight → State} (hcmd : s.nextCmd n op = some f)
    (hact : recNat f.desc i 1 = act) (e : k s f = t) : (.next (s.ringAction n op i act count bad k) : Host.Outcome State Fault Refusal) = .next t := by
  rw [State.ringAction_of_nextCmd hcmd hact, e]

/-! ### PORT_CONTROL -/

/-- DISABLE of a whole port. -/
theorem State.pcDisable_of_whole {s : State} {f : InFlight} {qs : List Nat} (hqs : s.pcSubs f.desc = some qs) (hwhole : pcWhole f.desc = true) :
    s.pcDisable f = ((s.darkPort (recNat f.desc 8 1) 0x0E).setEnable (recNat f.desc 8 1) false).finish f 0x90 [] := by
  unfold State.pcDisable
  simp only [hqs, hwhole, if_true]

/-- ENABLE of a whole port that is DARK. -/
theorem State.pcEnable_of_dark {s : State} {f : InFlight} {qs : List Nat} (hqs : s.pcSubs f.desc = some qs) (hwhole : pcWhole f.desc = true)
    (hdark : s.isDark (recNat f.desc 8 1) = true) :
    s.pcEnable f = ((s.setEnable (recNat f.desc 8 1) true).lightPort (recNat f.desc 8 1)).finish f 0x90 [] := by
  unfold State.pcEnable
  rw [hqs]
  exact if_pos ⟨hwhole, hdark⟩

/-- RETRAIN of a whole port that is not DARK. -/
theorem State.pcRetrain_of_bright {s : State} {f : InFlight} {qs : List Nat} (hqs : s.pcSubs f.desc = some qs) (hwhole : pcWhole f.desc = true)
    (hbright : s.isDark (recNat f.desc 8 1) = false) : s.pcRetrain f = (s.pcTrain (recNat f.desc 8 1) qs true).finish f 0x90 [] := by
  unfold State.pcRetrain
  simp only [hqs, hwhole, hbright, Bool.false_eq_true, if_true, if_false]

/-- RELEASE where one of the sub-ports named is in QUARANTINE. -/
theorem State.pcRelease_of_quarantined {s : State} {f : InFlight} {qs rs : List Nat} (hqs : s.pcSubs f.desc = some qs)
    (hrs : rs = qs.filter fun q => (s.sub (recNat f.desc 8 1) q).state == 7) (hsome : rs.isEmpty = false) :
    s.pcRelease f = (s.pcTrain (recNat f.desc 8 1) rs (pcWhole f.desc && !(s.port (recNat f.desc 8 1)).split)).finish f 0x90 [] := by
  subst hrs
  unfold State.pcRelease
  rw [hqs]
  exact if_neg (Bool.eq_false_iff.1 hsome)

/-- ACCEPT_PEER where one of the sub-ports named is MISPLACED. -/
theorem State.pcAccept_of_misplaced {s : State} {f : InFlight} {qs rs : List Nat} (hqs : s.pcSubs f.desc = some qs)
    (hrs : rs = qs.filter fun q => (s.sub (recNat f.desc 8 1) q).state == 6) (hsome : rs.isEmpty = false) :
    s.pcAccept f = (rs.foldl (fun st q => st.acceptOne (recNat f.desc 8 1) q) s).finish f 0x90 [] := by
  subst hrs
  unfold State.pcAccept
  rw [hqs]
  exact if_neg (Bool.eq_false_iff.1 hsome)

/-- SET_MODE of a whole port; t is the state in which SPLIT and WIDTH_MAX are written. -/
theorem State.pcSetMode_of_whole {s t : State} {f : InFlight} {qs : List Nat} (hqs : s.pcSubs f.desc = some qs) (hmode : recNat f.desc 11 1 < 8)
    (hwhole : pcWhole f.desc = true)
    (ht : t = (s.setF (fLNK_CFG_SPLIT (recNat f.desc 8 1)) (recBits f.desc 11 1 0 0)).setF (fLNK_CFG_WIDTH_MAX (recNat f.desc 8 1)) (recBits f.desc 11 1 2 1)) :
    s.pcSetMode f = State.finish (if s.isDark (recNat f.desc 8 1) then t else t.lightPort (recNat f.desc 8 1)) f 0x90 [] := by
  subst ht
  unfold State.pcSetMode
  simp only [hqs, hwhole, Nat.not_le.2 hmode, Bool.not_true, Bool.false_eq_true, if_false]

/-- SUBSTITUTE of a spare that stands in for no port yet. -/
theorem State.pcSubstitute_of_free {s : State} {f : InFlight} {p x : Nat} (hp : recNat f.desc 8 1 = p) (hx : recNat f.desc 11 1 = x) (hlo : 32 ≤ p) (hhi : p < 34)
    (hlow : x < 32) (hsubs : (s.pcSubs f.desc).isNone = false) (hfree : s.isSet (fLNK_STATUS_SUBST p) = false) :
    s.pcSubstitute f = (((((((s.copyConfig p x).darkPort x 0x0E).setEnable x false).setF (fLNK_STATUS_SUBST p) 1).setF (fLNK_STATUS_ALIAS p) x).setEnable p
      true).lightPort p).finish f 0x90 [] := by
  unfold State.pcSubstitute
  simp only [hp, hx, hsubs, hfree, Nat.not_lt.2 hlo, Nat.not_le.2 hhi, Nat.not_le.2 hlow, Bool.false_eq_true, or_self, if_false]

/-- UNSUBSTITUTE of a spare p that stands in for port x. -/
theorem State.pcUnsubstitute_of_standIn {s : State} {f : InFlight} {p x : Nat} (hp : p = recNat f.desc 8 1) (hx : x = s.getF (fLNK_STATUS_ALIAS p))
    (hsubs : (s.pcSubs f.desc).isNone = false) (hspare : 32 ≤ p) (hsubst : s.isSet (fLNK_STATUS_SUBST p) = true) :
    s.pcUnsubstitute f = ((((((s.darkPort p 0x0E).setEnable p false).setF (fLNK_STATUS_SUBST p) 0).setF (fLNK_STATUS_ALIAS p) 0).setEnable x true).lightPort
      x).finish f 0x90 [] := by
  subst hp hx
  exact (if_neg (Bool.eq_false_iff.1 hsubs)).trans (if_pos ⟨hspare, hsubst⟩)

/-- Settles O20: the action is that of the ring's next descriptor, and the port's state allows it. -/
theorem portControlCompletes : Obligations.PortControlCompletes := by
  refine ⟨?_, ?_, ?_, ?_, ?_, ?_, ?_, ?_⟩
  · intro s sq f qs hcmd hact hqs hwhole
    exact next_ringAction_eq hcmd hact (State.pcDisable_of_whole hqs hwhole)
  · intro s sq f qs hcmd hact hqs hwhole hdark
    exact next_ringAction_eq hcmd hact (State.pcEnable_of_dark hqs hwhole hdark)
  · intro s sq f qs hcmd hact hqs hwhole hbright
    exact next_ringAction_eq hcmd hact (State.pcRetrain_of_bright hqs hwhole hbright)
  · intro s sq f qs hcmd hact hqs hsome
    exact next_ringAction_eq hcmd hact (State.pcRelease_of_quarantined hqs rfl hsome)
  · intro s sq f qs hcmd hact hqs hsome
    exact next_ringAction_eq hcmd hact (State.pcAccept_of_misplaced hqs rfl hsome)
  · intro s sq f qs hcmd hact hqs hmode hwhole _
    exact next_ringAction_eq hcmd hact (State.pcSetMode_of_whole hqs hmode hwhole rfl)
  · intro s sq f p x hcmd hact hnames hrange hsubs hfree
    obtain ⟨hlo, hhi, hlow⟩ := hrange
    exact next_ringAction_eq hcmd hact (State.pcSubstitute_of_free hnames.1 hnames.2 hlo hhi hlow hsubs hfree)
  · intro s sq f hcmd hact hsubs hspare hsubst
    exact next_ringAction_eq hcmd hact (State.pcUnsubstitute_of_standIn rfl rfl hsubs hspare hsubst)

/-! ### PORT_EXPECT, PRESET_WRITE and PORT_POWER -/

/-- The expected peer that a PORT_EXPECT names; none when it names any. -/
def expectOf (d : List Byte) : Option Peer := if recBits d 10 1 0 0 = 1 then none else some ⟨recNat d 12 4, recNat d 16 1, recNat d 17 1⟩

/-- The sub-port byte of a PORT_EXPECT names sub-port q: 0xFF is sub-port 0 of a bonded port, and 0 to 15 are the sublinks of a split one. -/
theorem expectByte_named {split : Bool} {b q : Nat} (h : split = false ∧ b = 0xFF ∧ q = 0 ∨ split = true ∧ b = q ∧ q < 16) :
    (if b = 0xFF then 0 else b) = q ∧ ¬ (b ≠ 0xFF ∧ 16 ≤ b) ∧ ¬ split = (b == 0xFF) := by
  rcases h with ⟨rfl, rfl, rfl⟩ | ⟨rfl, rfl, hq⟩
  · decide
  · have hb : b ≠ 0xFF := by omega
    exact ⟨if_neg hb, by omega, by rw [beq_false_of_ne hb]; decide⟩

/-- PORT_EXPECT of a sub-port that is not up once its expected peer is stored, in t. -/
theorem State.portExpect_of_down {s t : State} {f : InFlight} {p q : Nat} (hp : recNat f.desc 8 1 = p) (hport : p < 34) (hpeer : recNat f.desc 16 1 < 34)
    (hq : (s.port p).split = false ∧ recNat f.desc 9 1 = 0xFF ∧ q = 0 ∨ (s.port p).split = true ∧ recNat f.desc 9 1 = q ∧ q < 16)
    (ht : t = s.modSub p q fun u => { u with expect := expectOf f.desc }) (hdown : (t.sub p q).up = false) :
    s.portExpect f = t.finish f 0x90 [] := by
  obtain ⟨hbyte, hrange, hsplit⟩ := expectByte_named hq
  subst ht
  unfold expectOf at hdown ⊢
  unfold State.portExpect
  simp only [hp, hbyte, hrange, hsplit, hdown, Nat.not_le.2 hport, Nat.not_le.2 hpeer, or_self, Bool.false_and, Bool.false_eq_true, if_false]

/-- PRESET_WRITE to a bonded port with no swing in hand. -/
theorem State.presetStart_of_noSwing {s : State} {f : InFlight} (hport : recNat f.desc 8 1 < 34) (hpeer : recNat f.desc 16 1 < 34)
    (hns : recNat f.desc 18 2 ≤ 20000) (hcfg : s.isSet (fLNK_CFG_SPLIT (recNat f.desc 8 1)) = false) (hbonded : (s.port (recNat f.desc 8 1)).split = false)
    (hswing : (s.sub (recNat f.desc 8 1) 0).swing = none) : s.presetStart f = s.presetWrite f := by
  unfold State.presetStart
  simp only [hcfg, hbonded, hswing, Nat.not_le.2 hport, Nat.not_le.2 hpeer, Nat.not_lt.2 hns, Bool.false_eq_true, or_self, if_false]

/-- PORT_POWER of a port that is DARK. -/
theorem State.portPower_of_dark {s : State} {f : InFlight} (hport : recNat f.desc 8 1 < 34) (hact : recNat f.desc 9 1 < 2)
    (hdark : s.isDark (recNat f.desc 8 1) = true) :
    s.portPower f = (s.modPort (recNat f.desc 8 1) fun v => { v with
      hold := recNat f.desc 9 1 == 0, heater := if recNat f.desc 9 1 = 0 then v.heater else [] }).finish f 0xF0 [] := by
  unfold State.portPower
  simp only [hdark, Nat.not_le.2 hport, Nat.not_le.2 hact, Bool.not_true, Bool.false_eq_true, or_self, if_false]

/-- Settles O21: the command is the ring's next descriptor, its fields are in range and the port's state allows it. -/
theorem portSettingsComplete : Obligations.PortSettingsComplete := by
  refine ⟨?_, ?_, ?_⟩
  · intro s sq f p q hcmd hrange hq hdown
    obtain ⟨hp, hport, hpeer⟩ := hrange
    exact next_ringCmd_eq hcmd (State.portExpect_of_down hp hport hpeer hq rfl hdown)
  · intro s sq f hcmd hrange hcfg hbonded hswing
    obtain ⟨hport, hpeer, hns⟩ := hrange
    exact next_ringCmd_eq hcmd (State.presetStart_of_noSwing hport hpeer hns hcfg hbonded hswing)
  · intro s sq f hcmd hrange hdark
    exact next_ringCmd_eq hcmd (State.portPower_of_dark hrange.1 hrange.2 hdark)

end Sys2Proof.Machine

/-! SUPPORT. Codewords sent and received, and the CONTROL codewords of the replay (R353–R361). The order in which what waits leaves is a choice of the model (log entry 46)
inside `sendNext`. -/
namespace Sys2Proof.Machine
open Sys2Proof

/-! ### A sub-port that is up -/

theorem SubPort.up_iff {u : SubPort} : u.up = true ↔ u.state = 4 ∨ u.state = 5 := by
  unfold SubPort.up
  rw [Bool.or_eq_true, beq_iff_eq, beq_iff_eq]

/-- A sub-port in IDENT is not up. -/
theorem SubPort.up_eq_false_of_ident {u : SubPort} (h : u.state = 3) : u.up = false := by
  rw [← Bool.not_eq_true, SubPort.up_iff]
  omega

/-! ### Sending and receiving -/

/-- The next codeword of a sub-port that is not DARK, of a lit port; t is the state in which the maps and keys bound to its number hold. -/
theorem execCodewordTransmit_of_lit {s t : State} {port : Port} {sub : Sub} {u : SubPort} (hnamed : s.subNamed port.val sub.val = true)
    (hlit : (s.port port.val).lit = true) (hstate : (s.sub port.val sub.val).state ≠ 0) (hno : (s.sub port.val sub.val).nextNo ≤ s.codeNo)
    (hu : u = (s.sub port.val sub.val).readyTx s.codeNo s.time.nowNs)
    (ht : t = (s.showMap port.val sub.val (s.sub port.val sub.val) u).showKey port.val) :
    execCodewordTransmit port sub s = .next (if u.state = 1 ∨ (u.state = 2 ∧ u.swing.isNone) then t.sendTrain port.val sub.val s.codeNo
      else if 6 ≤ u.state then t.sendCtl port.val sub.val s.codeNo [0x01] else t.sendNext port.val sub.val s.codeNo) := by
  subst hu ht
  exact next_if_neg (by rw [hnamed, hlit, beq_false_of_ne hstate, decide_eq_false (Nat.not_lt.2 hno)]; decide)

/-- A codeword with light on no lane, as u notes it. -/
theorem execCodewordReceive_of_noLight {s u : State} {port : Port} {sub : Sub} {n : DWord} {lanes : List (Option (List (BitVec 10)))}
    (hnamed : s.subNamed port.val sub.val = true) (hstate : (s.sub port.val sub.val).state ≠ 0)
    (hu : u = (s.modSub port.val sub.val fun v => v.readyRx n.toNat).rxCount port.val sub.val (rxWords n.toNat lanes))
    (hdata : (rxGot (rxWords n.toNat lanes)).find? (·.1) = none) (hshort : (rxGot (rxWords n.toNat lanes)).length < (u.sub port.val sub.val).width)
    (hnone : (rxWords n.toNat lanes).any (·.isSome) = false) : execCodewordReceive port sub n lanes s = .next u := by
  subst hu
  unfold execCodewordReceive
  simp only [hnamed, hdata, hshort, hnone, beq_false_of_ne hstate, Bool.not_true, Bool.or_self, Bool.false_eq_true, if_true, if_false]

/-- A DATA codeword with a word on every lane and no key in force; u is the state that has noted its words. -/
theorem execCodewordReceive_of_unkeyed {s u : State} {port : Port} {sub : Sub} {n : DWord} {lanes : List (Option (List (BitVec 10)))}
    (hnamed : s.subNamed port.val sub.val = true) (hstate : (s.sub port.val sub.val).state ≠ 0)
    (hu : u = (s.modSub port.val sub.val fun v => v.readyRx n.toNat).rxCount port.val sub.val (rxWords n.toNat lanes))
    (hdata : (rxGot (rxWords n.toNat lanes)).find? (·.1) = none) (hfull : (u.sub port.val sub.val).width ≤ (rxGot (rxWords n.toNat lanes)).length)
    (hkey : (u.sub port.val sub.val).keyAt n.toNat = none) :
    execCodewordReceive port sub n lanes s = .next (u.takeData port.val sub.val n.toNat
      (rxPayload (rxGot (rxWords n.toNat lanes)) (u.sub port.val sub.val).width) (2550 * (u.sub port.val sub.val).width)) := by
  subst hu
  unfold execCodewordReceive
  simp only [hnamed, hdata, hkey, Nat.not_lt.2 hfull, beq_false_of_ne hstate, Bool.not_true, Bool.or_self, Bool.false_eq_true, if_false]

/-! ### NAK and REPLAY -/

/-- NAK for codeword n, which is still kept and not being sent again; u is the state that has counted it. -/
theorem execNakReceive_of_kept {s t u : State} {port : Port} {sub : Sub} {b : List Byte} {n : Nat} (hb : s.takeType port.val sub.val 0x04 = some (b, t))
    (hu : u = (t.bumpSat (fLNK_NAKS_RECEIVED port.val)).modSub port.val sub.val fun v => { v with naks := v.naks ++ [s.time.nowNs] })
    (hn : n = (u.sub port.val sub.val).nakNo (recNat b 1 4)) (hup : (u.sub port.val sub.val).up = true)
    (hfirst : (u.sub port.val sub.val).replayTo = none) (hkept : u.codeNo * 85 / 4 ≤ n * 85 / 4 + (u.sub port.val sub.val).hold) :
    execNakReceive port sub s = .next (u.setSub port.val sub.val ((u.sub port.val sub.val).replayFrom n)) := by
  subst hu hn
  unfold execNakReceive
  simp only [hb, hup, hfirst, Nat.not_lt.2 hkept, Option.any_none, Bool.not_true, Bool.false_eq_true, if_false]

/-- REPLAY for the codeword awaited or a later one, modulo 2³². -/
theorem execReplayReceive_of_awaited {s t : State} {port : Port} {sub : Sub} {b : List Byte} {a : Nat × Nat}
    (hb : s.takeType port.val sub.val 0x02 = some (b, t)) (ha : (t.sub port.val sub.val).await = some a)
    (hlate : (recNat b 1 4 + 2 ^ 32 - a.1 % 2 ^ 32) % 2 ^ 32 < 2 ^ 31) :
    execReplayReceive port sub s = .next (t.setSub port.val sub.val { t.sub port.val sub.val with await := none, nakDue := 0 }) := by
  unfold execReplayReceive State.modSub
  simp only [hb, ha, hlate, if_true]

/-- REPLAY has not come for HOLD + RTT. -/
theorem execNakLost_of_late {s : State} {port : Port} {sub : Sub} {a : Nat × Nat} (ha : (s.sub port.val sub.val).await = some a)
    (hup : (s.sub port.val sub.val).up = true) (hlate : a.2 + (s.sub port.val sub.val).hold + (s.sub port.val sub.val).rtt ≤ s.time.nowNs) :
    execNakLost port sub s = .next (s.nakLost port.val sub.val) := by
  unfold execNakLost
  rw [ha, hup]
  exact next_if_pos (decide_eq_true hlate)

/-- Settles O22: the sub-port's state, the words that came or the CONTROL payload that is oldest leave each command its one branch. -/
theorem codewordsComplete : Obligations.CodewordsComplete := by
  refine ⟨?_, ?_, ?_, ?_, ?_, ?_, ?_, ?_⟩
  · intro s port sub u hsub hu hstate
    obtain ⟨hnamed, hlit, hnotDark, hno⟩ := hsub
    have hlow : ¬ (u.state = 1 ∨ (u.state = 2 ∧ u.swing.isNone)) := by omega
    have hhigh : ¬ 6 ≤ u.state := by omega
    exact (execCodewordTransmit_of_lit hnamed hlit hnotDark hno hu rfl).trans ((next_if_neg hlow).trans (next_if_neg hhigh))
  · intro s port sub u hsub hu hstate
    obtain ⟨hnamed, hlit, hnotDark, hno⟩ := hsub
    exact (execCodewordTransmit_of_lit hnamed hlit hnotDark hno hu rfl).trans (next_if_pos (.inl hstate))
  · intro s port sub n lanes u hsub hu hdata hfull
    exact execCodewordReceive_of_unkeyed hsub.1 hsub.2 hu hdata hfull.1 hfull.2
  · intro s port sub n lanes u hsub hu hdata hdark
    exact execCodewordReceive_of_noLight hsub.1 hsub.2 hu hdata hdark.1 hdark.2
  · intro s port sub b t hb
    exact congrArg Host.Outcome.next (by rw [hb])
  · intro s port sub b t u n hb hu hn hkept
    exact execNakReceive_of_kept hb hu hn.1 hn.2 hkept.1 hkept.2
  · intro s port sub b t a hb hawait
    exact execReplayReceive_of_awaited hb hawait.1 hawait.2
  · intro s port sub a hawait hlate
    exact execNakLost_of_late hawait.1 hawait.2 hlate

end Sys2Proof.Machine

/-! SUPPORT. Training, identity and their time limits (R371, R372, R376, R681). -/
namespace Sys2Proof.Machine
open Sys2Proof

/-! ### Training -/

/-- TRAIN on the channels needed, at a sub-port in LIGHT. -/
theorem execTrainReceive_of_seen {s t : State} {port : Port} {sub : Sub} {b : List Byte} (hb : s.takeType port.val sub.val 0x03 = some (b, t))
    (hlight : (t.sub port.val sub.val).state = 1)
    (hseen : (if (s.port port.val).split then (t.sub port.val sub.val).trainSeen.testBit sub.val
      else (t.sub port.val sub.val).trainSeen.testBit 0 && (t.sub port.val sub.val).trainSeen.testBit 1) = true) :
    execTrainReceive port sub s = .next (t.enterSub port.val sub.val 2 none) := by
  unfold execTrainReceive
  rw [hb]
  exact next_if_pos ⟨hlight, hseen⟩

/-- The guard of LOCK_ACQUIRED passes a named sub-port in LOCK outside a swing, whose agreeing lanes give a map. -/
theorem lockGuard_eq_false {s : State} {p q : Nat} {m : List Nat} (hnamed : s.subNamed p q = true) (hlock : (s.sub p q).state = 2)
    (hswing : (s.sub p q).swing = none) (hmap : m.isEmpty = false) :
    (!s.subNamed p q || (s.sub p q).state != 2 || (s.sub p q).swing.isSome || m.isEmpty) = false := by
  rw [hnamed, hlock, hswing, hmap]
  rfl

/-! ### Time limits -/

theorem execLockTimeout_of_late {s : State} {port : Port} {sub : Sub} (hnamed : s.subNamed port.val sub.val = true)
    (hlock : (s.sub port.val sub.val).state = 2) (hswing : (s.sub port.val sub.val).swing = none)
    (hlate : (s.sub port.val sub.val).since + (if s.timeUnlocked then 50000000 else 5000000) ≤ s.time.nowNs) :
    execLockTimeout port sub s = .next (s.toLight port.val sub.val (some 0x02) true) :=
  next_if_pos (by rw [hnamed, hlock, hswing, decide_eq_true hlate]; rfl)

theorem execIdentTimeout_of_late {s : State} {port : Port} {sub : Sub} (hnamed : s.subNamed port.val sub.val = true)
    (hident : (s.sub port.val sub.val).state = 3) (hlate : (s.sub port.val sub.val).since + 20000000 ≤ s.time.nowNs) :
    execIdentTimeout port sub s = .next ((s.toLight port.val sub.val (some 0x03) true).bumpSat (fLNK_EVENTS_IDENT_FAIL port.val)) :=
  next_if_pos (by rw [hnamed, hident, decide_eq_true hlate]; rfl)

theorem execNoLightTimeout_of_late {s : State} {port : Port} {sub : Sub} (hnamed : s.subNamed port.val sub.val = true)
    (hstate : ((s.sub port.val sub.val).up || (s.sub port.val sub.val).state == 6) = true) (hswing : (s.sub port.val sub.val).swing = none)
    (hlate : max (if (s.sub port.val sub.val).state = 6 then (s.sub port.val sub.val).seenAt else (s.sub port.val sub.val).lightAt)
      (s.sub port.val sub.val).since + 20000 ≤ s.time.nowNs) :
    execNoLightTimeout port sub s = .next (s.toLight port.val sub.val (some 0x01) false) :=
  next_if_pos (by rw [hnamed, hstate, hswing, decide_eq_true hlate]; rfl)

/-- More than 256 NAKs within 1 ms, on a sub-port that is up. -/
theorem execNakStorm_of_naks {s : State} {port : Port} {sub : Sub} (hnamed : s.subNamed port.val sub.val = true) (hup : (s.sub port.val sub.val).up = true)
    (hmany : 256 < ((s.sub port.val sub.val).naks.filter fun t => decide (s.time.nowNs < t + 1000000)).length) :
    execNakStorm port sub s = .next (s.toLight port.val sub.val (some 0x08) true) :=
  (next_if_neg (by rw [hnamed, hup]; decide)).trans (next_if_pos hmany)

/-! ### Identity -/

/-- An IDENT record at a sub-port in IDENT, whose common capabilities let the port run; w is the state that has taken it. -/
theorem execIdentReceive_of_common {s t w : State} {port : Port} {sub : Sub} {b : List Byte} {v : SubPort}
    (hb : s.takeType port.val sub.val 0x09 = some (b, t)) (hident : (t.sub port.val sub.val).state = 3)
    (hv : v = (t.sub port.val sub.val).takeIdent (byteField b 1 64)) (hw : w = t.setSub port.val sub.val v)
    (hok : w.commonOk port.val v.common (t.sub port.val sub.val).width = true) : execIdentReceive port sub s = .next (w.showSub port.val sub.val) := by
  subst hv hw
  unfold execIdentReceive
  simp only [hb, hident, SubPort.up_eq_false_of_ident hident, hok, ne_eq, not_true_eq_false, false_and, Bool.false_and, Bool.not_true, Bool.false_eq_true, if_false]

/-- A certificate fragment at a sub-port in IDENT that leaves the peer's chain incomplete. -/
theorem execCertReceive_of_partial {s t : State} {port : Port} {sub : Sub} {b : List Byte} {v : SubPort}
    (hb : s.takeType port.val sub.val 0x0A = some (b, t)) (hident : (t.sub port.val sub.val).state = 3) (hix : recNat b 1 1 < 16)
    (hv : v = { t.sub port.val sub.val with cert := aput (t.sub port.val sub.val).cert (recNat b 1 1) (byteField b 2 256) })
    (hpart : v.cert.length ≠ 16) : execCertReceive port sub s = .next (t.setSub port.val sub.val v) := by
  subst hv
  unfold execCertReceive
  simp only [hb, hident, hpart, Nat.not_le.2 hix, ne_eq, not_true_eq_false, false_and, or_self, if_false]

/-- AUTH at a sub-port in IDENT. -/
theorem execAuthReceive_of_ident {s t : State} {port : Port} {sub : Sub} {b : List Byte} (hb : s.takeType port.val sub.val 0x0B = some (b, t))
    (hident : (t.sub port.val sub.val).state = 3) :
    execAuthReceive port sub s = .next (if (t.sub port.val sub.val).authGood (byteField b 1 96) then t.authDone port.val sub.val
      else t.quarantine port.val sub.val 0x04) := by
  unfold execAuthReceive
  simp only [hb]
  exact next_if_neg fun h => h.1 hident

/-- Settles O23: the sub-port is in the state that the clause names, and what it takes up, or the time that has passed, is what its rule waits for. -/
theorem trainingAndIdentity : Obligations.TrainingAndIdentity := by
  refine ⟨?_, ?_, ?_, ?_, ?_, ?_, ?_, ?_, ?_⟩
  · intro s port sub b t hb hlight hseen
    exact execTrainReceive_of_seen hb hlight hseen
  · intro s port sub ok lanes u m hsub hlock
    obtain ⟨hnamed, rfl⟩ := hsub
    obtain ⟨hstate, hswing, hmap, rfl⟩ := hlock
    exact next_if_neg (Bool.eq_false_iff.1 (lockGuard_eq_false hnamed hstate hswing hmap))
  · intro s port sub hsub hlate
    obtain ⟨hnamed, hlock, hswing⟩ := hsub
    exact execLockTimeout_of_late hnamed hlock hswing hlate
  · intro s port sub hsub hlate
    exact execIdentTimeout_of_late hsub.1 hsub.2 hlate
  · intro s port sub hsub hlate
    obtain ⟨hnamed, hstate, hswing⟩ := hsub
    exact execNoLightTimeout_of_late hnamed hstate hswing hlate
  · intro s port sub hsub hmany
    exact execNakStorm_of_naks hsub.1 hsub.2 hmany
  · intro s port sub b t w v hb htaken hok
    obtain ⟨hident, hv, hw⟩ := htaken
    exact execIdentReceive_of_common hb hident hv hw hok
  · intro s port sub b t v hb hfrag hv
    exact execCertReceive_of_partial hb hfrag.1 hfrag.2 hv.1 hv.2
  · intro s port sub b t hb hident
    exact execAuthReceive_of_ident hb hident

end Sys2Proof.Machine

/-! SUPPORT. Lane maps, failed lanes, spare lasers, swings and eye safety (R348–R350, R366–R368, R381, R382, R384). That the peer's map is this end's too, the move to a
spare channel and the return of a sublink are choices of the model (log entry 98). -/
namespace Sys2Proof.Machine
open Sys2Proof

/-! ### Lane maps and failed lanes -/

/-- The peer's lane map at a sub-port that is up; u is the state that receives by it from codeword n on. -/
theorem execLanemapReceive_of_up {s t u : State} {port : Port} {sub : Sub} {b : List Byte} {m : List Nat} {n : Nat}
    (hb : s.takeType port.val sub.val 0x08 = some (b, t)) (hm : m = ((b.drop 5).map (·.toNat)).filter (· != 0xFF)) (hn : n = nearNo s.codeNo (recNat b 1 4))
    (hmap : ([16, 8, 4, 2, 1].contains m.length && m.all (· < 18) && m.Nodup) = true) (hup : (t.sub port.val sub.val).up = true)
    (hu : u = t.setSub port.val sub.val { t.sub port.val sub.val with rxNext := some (n, m) }) :
    execLanemapReceive port sub s = .next (u.adoptMap port.val sub.val n m) := by
  have hstate := SubPort.up_iff.1 hup
  have hlow : ¬ (t.sub port.val sub.val).state < 2 := by omega
  have hhigh : ¬ 6 ≤ (t.sub port.val sub.val).state := by omega
  subst hm hn hu
  unfold execLanemapReceive
  simp only [hb, hlow, hhigh, hmap, hup, Bool.not_true, Bool.false_eq_true, or_self, if_true, if_false]

/-- A lane map that is still possible is announced, and counted as a move when it is as wide as before. -/
theorem State.relane_of_sameWidth {s : State} {p : Nat} {was m : List Nat} (hmap : s.mapFor p was = some m) (hwidth : m.length = was.length) :
    s.relane p was = (s.bumpSat (fLNK_EVENTS_LANE_MOVES p)).announceMap p 0 m := by
  unfold State.relane
  simp only [hmap, hwidth, if_true]

/-- A failed channel that carries a lane of a bonded port, where healthy channels can carry every lane; u is the state that has marked it. -/
theorem State.laneFail_of_mended {s u : State} {p c : Nat} {rx laser : Bool} {was : List Nat} (hu : u = s.failChan p c rx)
    (hwas : was = (((u.sub p 0).txNext.map (·.2)).getD (u.sub p 0).txMap)) (hbonded : (s.port p).split = false) (hup : (u.sub p 0).up = true)
    (hlane : was.contains c = true) (hmend : (mendMap (u.badChans p) (u.spareChans p) was).any (u.badChans p).testBit = false) :
    s.laneFail p c rx laser = u.relane p was := by
  subst hu hwas
  unfold State.laneFail
  simp only [hbonded, hup, hlane, hmend, Bool.false_and, Bool.not_true, Bool.or_self, Bool.false_eq_true, if_false]

/-- A channel of a split port that fails for no laser takes its sublink to DARK. -/
theorem State.sublinkFail_of_ring {s : State} {p c : Nat} (hchan : c < 16) (hstate : (s.sub p c).state ≠ 0) : s.sublinkFail p c false = s.darkSub p c := by
  unfold State.sublinkFail
  simp only [hstate, Nat.not_le.2 hchan, Bool.false_eq_true, or_self, if_false]

/-! ### Spare lasers -/

/-- A tuned spare laser of a split port, whose sublink e.2 has proved its peer and waits in LIGHT; t is the state in which the laser stands in. -/
theorem execSpareLaserTuned_of_split {s t : State} {port : Port} {laser : Chan} {e : Nat × Nat}
    (he : (s.port port.val).tuning.find? (·.1 == laser.val) = some e) (hsplit : (s.port port.val).split = true) (ht : t = s.tunedLaser port.val laser.val e.2)
    (hlight : (t.sub port.val e.2).state = 1) (hauth : (t.sub port.val e.2).authOk = true) :
    execSpareLaserTuned port laser s = .next ((t.goActive port.val e.2).bumpSat (fLNK_EVENTS_LANE_MOVES port.val)) := by
  subst ht
  unfold execSpareLaserTuned
  simp only [he, hsplit, hlight, hauth, and_self, if_true]

/-- A tuned spare laser of a bonded port that is up; t is the state in which the laser stands in. -/
theorem execSpareLaserTuned_of_bonded {s t : State} {port : Port} {laser : Chan} {e : Nat × Nat} {m : List Nat}
    (he : (s.port port.val).tuning.find? (·.1 == laser.val) = some e) (hbonded : (s.port port.val).split = false)
    (ht : t = s.tunedLaser port.val laser.val e.2) (hup : (t.sub port.val 0).up = true) (hmap : t.mapFor port.val (List.range 16) = some m) :
    execSpareLaserTuned port laser s = .next ((t.announceMap port.val 0 m).bumpSat (fLNK_EVENTS_LANE_MOVES port.val)) := by
  subst ht
  unfold execSpareLaserTuned
  simp only [he, hbonded, hup, hmap, Bool.not_true, Bool.false_eq_true, if_false]

/-! ### Swings -/

/-- A port in a swing that is loaded relocks for the first time. -/
theorem execSwingRelock_of_loaded {s : State} {port : Port} {w : Swing} (hw : (s.sub port.val 0).swing = some w) (hlock : (s.sub port.val 0).state = 2)
    (hloaded : w.loaded = true) (hfirst : w.relocked = false) :
    execSwingRelock port s = .next (s.modSub port.val 0 fun u => { u with
      swing := some { w with relocked := true }
      ctlOut := u.ctlOut ++ [[0x05] ++ leBytes 3 s.ownId ++ leBytes 1 (s.roleOf port.val) ++ leBytes 4 (s.preWord port.val w.preset 2)] }) := by
  unfold execSwingRelock
  rw [hw]
  exact next_if_pos ⟨hlock, hloaded, by rw [hfirst]; decide⟩

/-- SWING_CHECK whose endpoint, port and tag are those of the preset. -/
theorem execSwingCheckReceive_of_match {s t : State} {port : Port} {sub : Sub} {b : List Byte} {w : Swing}
    (hb : s.takeType port.val sub.val 0x05 = some (b, t)) (hw : (t.sub port.val 0).swing = some w) (hlock : (t.sub port.val 0).state = 2)
    (hloaded : w.loaded = true) (hid : recNat b 1 3 = s.preWord port.val w.preset 0 % 2 ^ 21)
    (hport : recBits b 4 1 5 0 = s.preWord port.val w.preset 1 % 64) (htag : recNat b 5 4 = s.preWord port.val w.preset 2) :
    execSwingCheckReceive port sub s = .next (t.goActive port.val 0) := by
  unfold execSwingCheckReceive
  simp only [hb, hw, hlock, hloaded, hid, hport, htag, ne_eq, not_true_eq_false, or_self, decide_true, Bool.and_self, if_true, if_false]

/-- A swing that is loaded is not back 10 µs after its switching time. -/
theorem execSwingTimeout_of_late {s : State} {port : Port} {w : Swing} (hw : (s.sub port.val 0).swing = some w) (hloaded : w.loaded = true)
    (hlate : w.ts + s.preWord port.val w.preset 1 / 65536 + 10000 ≤ s.time.ft) :
    execSwingTimeout port s = .next (((s.portRec port.val 0 0x0A 0).toLight port.val 0 (some 0x0A) true).bumpSat (fLNK_EVENTS_SWINGS_FAILED port.val)) := by
  unfold execSwingTimeout
  simp only [hw, hloaded, decide_eq_true hlate, Bool.and_self, if_true]

/-! ### Eye safety -/

/-- A lit port without light for 200 µs; t is the state in which its lasers are off and its sub-ports have left traffic. -/
theorem execOpenFibreShutdown_of_dark {s t : State} {port : Port} (hlit : (s.port port.val).lit = true) (hopen : (s.port port.val).shut = false)
    (hlate : (s.port port.val).anyLight + 200000 ≤ s.time.nowNs)
    (ht : t = (((s.setLit port.val false).drew).subsOf port.val).foldl (fun st q => if (st.sub port.val q).state = 0 ∨ (st.sub port.val q).state = 7 then st
      else st.toLight port.val q (some 0x0D) false) (s.setLit port.val false).drew) :
    execOpenFibreShutdown port s = .next ((t.modPort port.val fun x => { x with
      shut := true, probeAt := s.time.nowNs + Config.free s.freeCtr % 1000000000 }).setF (fLNK_STATUS_OPEN_FIBRE port.val) 1) := by
  subst ht
  exact next_if_pos (by rw [hlit, hopen, decide_eq_true hlate]; rfl)

/-- A probe that ends without far light. -/
theorem execOpenFibreProbeEnd_of_over {s : State} {port : Port} {e : Nat} (he : (s.port port.val).probeEnd = some e) (hshut : (s.port port.val).shut = true)
    (hover : e ≤ s.time.nowNs) :
    execOpenFibreProbeEnd port s = .next ((List.range 16).foldl (fun st c => st.emit (.light port.val c false))
      (s.modPort port.val fun x => { x with lit := false, probeEnd := none })) := by
  unfold execOpenFibreProbeEnd
  rw [he, hshut]
  exact next_if_pos (decide_eq_true hover)

/-- Settles O24: the port or its laser, ring, swing or light is as the clause says, which leaves the command its one branch. -/
theorem lanesSwingsAndEyeSafety : Obligations.LanesSwingsAndEyeSafety := by
  refine ⟨?_, ?_, ?_, ?_, ?_, ?_, ?_, ?_, ?_, ?_, ?_, ?_, ?_, ?_⟩
  · intro s port sub b t u m n hb hmn hmap hu
    exact execLanemapReceive_of_up hb hmn.1 hmn.2 hmap.1 hmap.2 hu
  · intro s port chan rx laser u was m hmark hport hmend hmap
    obtain ⟨hbonded, hup, hlane⟩ := hport
    exact congrArg Host.Outcome.next ((State.laneFail_of_mended hmark.1 hmark.2 hbonded hup hlane hmend).trans (State.relane_of_sameWidth hmap.1 hmap.2))
  · intro s port chan rx laser u hu hport
    obtain ⟨hsplit, hchan, hstate, hring⟩ := hport
    subst hu
    refine (next_if_pos hsplit).trans (congrArg Host.Outcome.next ?_)
    rw [hring]
    exact State.sublinkFail_of_ring hchan hstate
  · intro s port laser e t he ht hsub
    exact execSpareLaserTuned_of_split he.1 he.2 ht hsub.1 hsub.2
  · intro s port laser e t m he ht hport
    exact execSpareLaserTuned_of_bonded he.1 he.2 ht hport.1 hport.2
  · intro s port rings hlit
    exact next_if_neg (by rw [hlit]; decide)
  · intro s port bias eol
    rfl
  · intro s port w hswing
    obtain ⟨hw, hlock, hloaded, hfirst⟩ := hswing
    exact execSwingRelock_of_loaded hw hlock hloaded hfirst
  · intro s port sub b t w hb hswing hmatch
    obtain ⟨hw, hlock, hloaded⟩ := hswing
    obtain ⟨hid, hport, htag⟩ := hmatch
    exact execSwingCheckReceive_of_match hb hw hlock hloaded hid hport htag
  · intro s port w hswing hlate
    exact execSwingTimeout_of_late hswing.1 hswing.2 hlate
  · intro s port t hport ht
    obtain ⟨hlit, hopen, hlate⟩ := hport
    exact execOpenFibreShutdown_of_dark hlit hopen hlate ht
  · intro s port hport
    obtain ⟨hshut, hidle, hdue⟩ := hport
    exact next_if_pos (by rw [hshut, hidle, decide_eq_true hdue]; rfl)
  · intro s port e hport
    obtain ⟨he, hshut, hover⟩ := hport
    exact execOpenFibreProbeEnd_of_over he hshut hover
  · intro s port t hshut ht
    subst ht
    exact next_if_pos hshut

end Sys2Proof.Machine

/-! SUPPORT. The timestamp exchange (R373, R539, R540), gate schedules (R546, R550) and pauses (R551–R554). That what is bound to a codeword
number goes before NAKs (log entry 54), that LATE is set at once and the free event number of a pause abuse's record (log entry 57) are choices of the model. -/
namespace Sys2Proof.Machine
open Sys2Proof

/-! ### The exchange -/

/-- ECHO_REQ is due on a sub-port u that exchanges timestamps, its gap since the last having passed; n is the codeword number it is bound to. -/
theorem execEchoReqSend_of_due {s : State} {port : Port} {sub : Sub} {u : SubPort} {n : Nat} (hecho : s.echoing port.val sub.val = true)
    (hu : u = s.sub port.val sub.val) (hn : n = s.echoNo port.val sub.val s.linkClock)
    (hdue : u.echoAt + (if u.state = 3 then 1000 else 64000) ≤ s.linkClock) :
    execEchoReqSend port sub s = .next (s.setSub port.val sub.val { u with
      echoAt := s.linkClock, echoes := (u.echoes.filter fun t => decide (s.linkClock < t + 60000)) ++ [noTime n]
      ctlAt := u.ctlAt ++ [(n, (0x06 : Byte) :: leBytes 8 (noTime n))] }) := by
  subst hu hn
  exact next_if_pos (by rw [hecho, decide_eq_true hdue]; rfl)

/-- ECHO_REQ at a sub-port in IDENT is answered on codeword number n. -/
theorem execEchoReqReceive_of_ident {s t : State} {port : Port} {sub : Sub} {b : List Byte} {n : Nat} (hb : s.takeType port.val sub.val 0x06 = some (b, t))
    (hident : (t.sub port.val sub.val).state = 3) (hn : n = t.echoNo port.val sub.val (s.clockRounded + 15)) :
    execEchoReqReceive port sub s = .next (t.modSub port.val sub.val fun u => { u with
      ctlAt := u.ctlAt ++ [(n, [0x07] ++ leBytes 8 s.clockRounded ++ leBytes 8 (noTime n))] }) := by
  subst hn
  unfold execEchoReqReceive
  simp only [hb]
  exact next_if_neg fun h => h.1 hident

/-- ECHO_RSP for the oldest request of a sub-port u, sent at t1; l are its offsets with the new one. -/
theorem execEchoRspReceive_of_asked {s t : State} {port : Port} {sub : Sub} {frac : Half} {b : List Byte} {t1 : Nat} {rest : List Nat} {l : List Int}
    {u : SubPort} (hb : s.takeType port.val sub.val 0x07 = some (b, t)) (hu : u = t.sub port.val sub.val) (hasked : u.echoes = t1 :: rest)
    (hl : l = (s.echoTheta port.val b t1 frac.toNat :: u.thetas).take 16) :
    execEchoRspReceive port sub frac s = .next ((State.useOffset (t.setSub port.val sub.val { u with
      echoes := rest, thetas := l, rtts := if u.rtts.length < 16 then u.rtts ++ [s.echoRtt b t1 frac.toNat] else u.rtts }) port.val sub.val
      (Config.offsetFilter l)).endIdent port.val sub.val) := by
  subst hu hl
  unfold execEchoRspReceive
  simp only [hb, hasked]

/-! ### Gate schedules -/

/-- The pending schedule of a port whose time has come. -/
theorem execGateTakeover_of_due {s : State} {port : Port} {g : Gate} (hg : (s.port port.val).nextGate = some g) (hdue : g.takeover ≤ s.time.ft) :
    execGateTakeover port s = .next ((s.modPort port.val fun v => { v with gate := g, nextGate := none }).showGate port.val) := by
  unfold execGateTakeover
  rw [hg]
  exact next_if_pos hdue

/-- GATE_WRITE of the schedule g, read in u with its reserved bits 0. -/
theorem State.gateWrite_of_read {s u : State} {f : InFlight} {data : Option (List Byte)} {b : List Byte} {g : Gate} (hport : recNat f.desc 8 1 < 34)
    (hlo : 125 ≤ recNat f.desc 12 4) (hhi : recNat f.desc 12 4 ≤ 128000) (hset : s.ftSet = true)
    (hread : s.hostGet f (recNat f.desc 32 8) 256 data = (u, some b))
    (hreserved : ((List.range 64).any fun i => recBits b (4 * i) 4 26 17 != 0) = false) (hg : g = newGate f.desc b s.time.ft) :
    s.gateWrite f data = (((u.modPort (recNat f.desc 8 1) fun v => { v with nextGate := some g }).showGate (recNat f.desc 8 1)).setF
      (fTIME_GATE_LATE (recNat f.desc 8 1)) (decide (g.activateAt < s.time.ft)).toNat).finish f 0xC0 [] := by
  subst hg
  unfold State.gateWrite
  simp only [hread, hset, hreserved, Nat.not_le.2 hport, Nat.not_lt.2 hlo, Nat.not_lt.2 hhi, Bool.not_true, Bool.false_eq_true, or_self, if_false]

/-! ### Pauses -/

/-- PAUSE at a sub-port that does not ignore it; u is the state that has counted a PAUSE naming class K. -/
theorem execPauseReceive_of_heeded {s t u : State} {port : Port} {sub : Sub} {c : Cell} (hc : s.takeLink port.val sub.val 2 = some (c, t))
    (hu : u = if recBits c.payload 0 1 0 0 = 1 then t.bumpSat fTIME_EVENTS2_PAUSE_K_IGNORED else t)
    (hheed : ((u.sub port.val sub.val).ignoreUntil.any fun t => decide (s.time.nowNs < t)) = false) :
    execPauseReceive port sub s = .next (u.setSub port.val sub.val ((u.sub port.val sub.val).takePause s.time.nowNs c.payload)) := by
  subst hu
  unfold execPauseReceive
  simp only [hc]
  exact next_if_neg (Bool.eq_false_iff.1 hheed)

/-- The action PAUSE with fields in range. -/
theorem State.tcPause_of_inRange {s : State} {f : InFlight} (hport : recNat f.desc 9 1 < 34) (hsub : recNat f.desc 10 1 = 0xFF ∨ recNat f.desc 10 1 < 16)
    (hmask : recNat f.desc 11 1 < 64) :
    s.tcPause f = (s.sendPauses (recNat f.desc 9 1) (recNat f.desc 10 1) (recNat f.desc 11 1) (recNat f.desc 12 2)).finish f 0xC0 [] :=
  if_neg (by omega)

/-- Settles O53: the sub-port, the schedule or the pause is as the clause says, and a command's fields are in range. -/
theorem timeExchangeGatesAndPauses : Obligations.TimeExchangeGatesAndPauses := by
  refine ⟨?_, ?_, ?_, ?_, ?_, ?_, ?_, ?_, ?_, ?_, ?_⟩
  · intro s port sub u hsub hdue
    exact execEchoReqSend_of_due hsub.1 hsub.2 rfl hdue
  · intro s port sub b t hb hident
    exact execEchoReqReceive_of_ident hb hident rfl
  · intro s port sub frac b t t1 rest l u hb hsub
    obtain ⟨hu, hasked, hl⟩ := hsub
    exact execEchoRspReceive_of_asked hb hu hasked hl
  · intro s port hset
    exact next_if_pos hset
  · intro s port g hgate
    exact execGateTakeover_of_due hgate.1 hgate.2
  · intro s sq data f u b g hcmd hrange hread hgate
    obtain ⟨hport, hlo, hhi, hset⟩ := hrange
    exact next_ringCmd_eq hcmd (State.gateWrite_of_read hport hlo hhi hset hread hgate.1 hgate.2)
  · intro s port sub c t u hc hu hheed
    exact execPauseReceive_of_heeded hc hu hheed
  · intro s port sub
    rfl
  · intro s port sub habuse
    exact next_if_pos habuse
  · intro s port sub
    rfl
  · intro s sq f hcmd hact hrange
    obtain ⟨hport, hsub, hmask⟩ := hrange
    exact next_ringAction_eq hcmd hact (State.tcPause_of_inRange hport hsub hmask)

end Sys2Proof.Machine

/-! SUPPORT. Timed actions (R381, R382, R555–R559, R561). That an entry's target is asked for before its lateness, the firing time, and the record of a late SWING and the
count of a skipped one are choices of the model (log entries 58 and 59). -/
namespace Sys2Proof.Machine
open Sys2Proof

/-! ### What a kind does when it fires -/

theorem State.actFire_of_stepStart {s : State} {e : List Byte} (hkind : actKind e = 2) (t : Nat) : s.actFire e t = s.actStepStart (recNat e 20 2) t := by
  unfold State.actFire
  simp only [hkind]

theorem State.actFire_of_thermalSync {s : State} {e : List Byte} (hkind : actKind e = 3) (t : Nat) : s.actFire e t = s.thermSync := by
  unfold State.actFire
  simp only [hkind]

theorem State.actFire_of_inject {s : State} {e : List Byte} (hkind : actKind e = 4) (hmay : s.mayStart (recNat e 20 1) = true) (t : Nat) :
    s.actFire e t = s.startPlan (recNat e 20 1) := by
  unfold State.actFire
  rw [hkind]
  exact if_pos hmay

theorem State.actFire_of_pauseSend {s : State} {e : List Byte} (hkind : actKind e = 5) (t : Nat) :
    s.actFire e t = s.sendPauses (s.actPort e) (recNat e 21 1) (recNat e 22 1) (recNat e 24 2) := by
  unfold State.actFire
  simp only [hkind]

/-! ### An entry whose turn it is -/

/-- An entry that is not late with its target ready fires, into u, and then moves on. -/
theorem next_actRun_of_onTime {s u : State} {i kind : Nat} {e : List Byte} (hnow : s.actNow i = some e) (hkind : actKind e = kind)
    (hready : s.actReady e = true) (honTime : s.actLate e = false) (hfire : s.actFire e (actTime e) = u) :
    (.next (s.actRun i kind) : Host.Outcome State Fault Refusal) = .next (u.actNext i e) := by
  subst hfire
  unfold State.actRun
  simp only [hnow, hkind, hready, honTime, Bool.false_eq_true, not_false_eq_true, and_self, if_true]

/-- A SWING that is not late with its port ready takes its step into u, and stays in the table while the swing waits for T_s. -/
theorem execSwing_of_onTime {s u : State} {entry : Fin 256} {e : List Byte} (hnow : s.actNow entry.val = some e) (hkind : actKind e = 1)
    (hready : s.actReady e = true) (honTime : s.actLate e = false) (hu : u = s.swingAct (s.actPort e) (actPreset e) (actTime e)) :
    execSwing entry s = .next (if u.actBegun e then u else u.actNext entry.val e) := by
  subst hu
  unfold execSwing
  simp only [hnow, hkind, hready, honTime, Bool.false_eq_true, not_false_eq_true, and_self, if_true]

/-- A late entry with its target ready is counted, in u; a SWING leaves a record, and another kind is performed at once. -/
theorem execActionLate_of_late {s u : State} {entry : Fin 256} {e : List Byte} (hnow : s.actNow entry.val = some e) (hready : s.actReady e = true)
    (hlate : s.actLate e = true) (hu : u = s.bumpSat fTIME_EVENTS_ACTIONS_LATE) :
    execActionLate entry s = .next ((if actKind e = 1 then u.timeRec 3 1 ((s.time.ft - s.actDue e : Nat) : Int) entry.val
      else u.actFire e s.time.ft).actNext entry.val e) := by
  subst hu
  unfold execActionLate
  rw [hnow]
  exact next_if_pos ⟨hready, hlate⟩

/-- An entry whose target is not ready is counted, in u. -/
theorem execActionSkipped_of_unready {s u : State} {entry : Fin 256} {e : List Byte} (hnow : s.actNow entry.val = some e) (hunready : s.actReady e = false)
    (hu : u = s.bumpSat fTIME_EVENTS_ACTIONS_SKIPPED) :
    execActionSkipped entry s = .next ((if actKind e = 1 then u.bumpSat (fLNK_EVENTS_SWINGS_FAILED (s.actPort e)) else u).actNext entry.val e) := by
  subst hu
  unfold execActionSkipped
  rw [hnow]
  exact next_if_neg (Bool.eq_false_iff.1 hunready)

/-- ACTION_WRITE of entries inside the table, once fabric time is set. -/
theorem State.actionWrite_of_inRange {s : State} {f : InFlight} {i n : Nat} (data : List Byte) (hi : i = recNat f.desc 8 1) (hn : n = recNat f.desc 10 2)
    (hsome : 0 < n) (hroom : i + n ≤ 256) (hset : s.ftSet = true) :
    s.actionWrite f data = s.tableWrite f i n 32 0xC0 0xC1 0xC4 data actGood State.writeAction := by
  have hrange : ¬ (n = 0 ∨ 256 < i + n) := by omega
  subst hi hn
  exact (if_neg hrange).trans (if_neg (by rw [hset]; decide))

/-- Settles O54: the entry is due, and its target's readiness, its lateness and its kind leave each command its one branch. -/
theorem timedActionsComplete : Obligations.TimedActionsComplete := by
  refine ⟨?_, ?_, ?_, ?_, ?_, ?_, ?_, ?_⟩
  · intro s entry e hnow hfires
    obtain ⟨hkind, hready, honTime⟩ := hfires
    exact execSwing_of_onTime hnow hkind hready honTime rfl
  · intro s entry e hnow hfires
    obtain ⟨hkind, hready, honTime⟩ := hfires
    exact next_actRun_of_onTime hnow hkind hready honTime (State.actFire_of_stepStart hkind _)
  · intro s entry e hnow hfires
    obtain ⟨hkind, hready, honTime⟩ := hfires
    exact next_actRun_of_onTime hnow hkind hready honTime (State.actFire_of_thermalSync hkind _)
  · intro s entry e hnow hfires hmay
    obtain ⟨hkind, hready, honTime⟩ := hfires
    exact next_actRun_of_onTime hnow hkind hready honTime (State.actFire_of_inject hkind hmay _)
  · intro s entry e hnow hfires
    obtain ⟨hkind, hready, honTime⟩ := hfires
    exact next_actRun_of_onTime hnow hkind hready honTime (State.actFire_of_pauseSend hkind _)
  · intro s entry e hnow hlate
    exact execActionLate_of_late hnow hlate.1 hlate.2 rfl
  · intro s entry e hnow hunready
    exact execActionSkipped_of_unready hnow hunready rfl
  · intro s sq data f i n hcmd hfields
    obtain ⟨hi, hn, hsome, hroom, hset⟩ := hfields
    exact next_ringCmd_eq hcmd (State.actionWrite_of_inRange data hi hn hsome hroom hset)

end Sys2Proof.Machine

/-! SUPPORT. The router's choice for class S (R405, R417): the first of the candidates that may be taken with the least load. -/
namespace Sys2Proof.Machine
open Sys2Proof

/-! ### The first least element of a list -/

/-- The lesser of an element already held and the next one; the one held, where they are equal. -/
def lessOf {α : Type} (f : α → Nat) : Option α → α → Option α
  | none, e => some e
  | some b, e => if f e < f b then some e else some b

/-- An answer for the elements of a list that satisfy p: none where there are none; else one with every such element before it larger and none after it smaller. -/
def FirstLeast {α : Type} (f : α → Nat) (p : α → Bool) (l : List α) : Option α → Prop
  | none => ∀ e ∈ l, p e = false
  | some e => ∃ before after, l = before ++ e :: after ∧ p e = true ∧ (∀ x ∈ before, p x = true → f e < f x) ∧ ∀ x ∈ after, p x = true → f e ≤ f x

section
variable {α : Type} {f : α → Nat} {p : α → Bool} {l : List α} {b x : α}

theorem FirstLeast.le (h : FirstLeast f p l (some b)) (hx : x ∈ l) (hp : p x = true) : f b ≤ f x := by
  obtain ⟨before, after, rfl, -, hbefore, hafter⟩ := h
  rcases List.mem_append.1 hx with hin | hin
  · exact Nat.le_of_lt (hbefore x hin hp)
  · rcases List.mem_cons.1 hin with rfl | hin
    · exact Nat.le_refl _
    · exact hafter x hin hp

/-- One more element that is smaller than all before it is the answer. -/
theorem FirstLeast.concat_new (hp : p x = true) (hless : ∀ y ∈ l, p y = true → f x < f y) : FirstLeast f p (l ++ [x]) (some x) :=
  ⟨l, [], rfl, hp, hless, fun _ hy => absurd hy List.not_mem_nil⟩

/-- One more element that is no smaller than the answer leaves it. -/
theorem FirstLeast.concat_keep (h : FirstLeast f p l (some b)) (hx : p x = true → f b ≤ f x) : FirstLeast f p (l ++ [x]) (some b) := by
  obtain ⟨before, after, rfl, hp, hbefore, hafter⟩ := h
  refine ⟨before, after ++ [x], List.append_assoc .., hp, hbefore, fun y hy hpy => ?_⟩
  rcases List.mem_append.1 hy with hin | hin
  · exact hafter y hin hpy
  · obtain rfl := List.mem_singleton.1 hin
    exact hx hpy

/-- One more element that does not satisfy p leaves the answer. -/
theorem FirstLeast.concat_skip {a : Option α} (h : FirstLeast f p l a) (hx : p x = false) : FirstLeast f p (l ++ [x]) a := by
  cases a with
  | some b => exact FirstLeast.concat_keep h fun hp => absurd hp (Bool.eq_false_iff.1 hx)
  | none =>
    intro y hy
    rcases List.mem_append.1 hy with hin | hin
    · exact h y hin
    · rwa [List.mem_singleton.1 hin]

/-- One more element that satisfies p: the answer is the lesser. -/
theorem FirstLeast.concat_lessOf {a : Option α} (h : FirstLeast f p l a) (hx : p x = true) : FirstLeast f p (l ++ [x]) (lessOf f a x) := by
  cases a with
  | none => exact FirstLeast.concat_new hx fun y hy hp => absurd hp (Bool.eq_false_iff.1 (h y hy))
  | some b =>
    by_cases hless : f x < f b
    · rw [show lessOf f (some b) x = some x from if_pos hless]
      exact FirstLeast.concat_new hx fun y hy hp => Nat.lt_of_lt_of_le hless (h.le hy hp)
    · rw [show lessOf f (some b) x = some b from if_neg hless]
      exact h.concat_keep fun _ => Nat.not_lt.1 hless

/-- The lesser taken in turn over what follows a list that has been answered for. -/
theorem FirstLeast.foldl_lessOf : ∀ (rest : List α) {l : List α} {a : Option α}, FirstLeast f p l a →
    FirstLeast f p (l ++ rest) ((rest.filter p).foldl (lessOf f) a)
  | [], l, a, h => by rwa [List.append_nil]
  | x :: rest, l, a, h => by
    rw [List.append_cons]
    cases hx : p x with
    | false =>
      rw [List.filter_cons_of_neg (Bool.eq_false_iff.1 hx)]
      exact FirstLeast.foldl_lessOf rest (h.concat_skip hx)
    | true =>
      rw [List.filter_cons_of_pos hx]
      exact FirstLeast.foldl_lessOf rest (h.concat_lessOf hx)

end

/-! ### The choice -/

/-- For class S the router takes the sub-port of the least loaded candidate among those it may take, the one held where loads are equal. -/
theorem State.chooseSub_of_spray {s : State} {c : Cell} (hcls : c.cls = 5) (set : Nat) (inPort : Option Nat) :
    s.chooseSub c set inPort = (((s.candidates set).filter (sprayMay s c inPort)).foldl (lessOf (sprayLoad s)) none).map s.candSub := by
  unfold State.chooseSub
  simp only [hcls, if_true]
  refine List.foldl_hom (Option.map s.candSub) (init := none) fun a e => ?_
  cases a with
  | none => rfl
  | some b => exact (apply_ite (Option.map s.candSub) (sprayLoad s e < sprayLoad s b) (some e) (some b)).symm

/-- Settles O14: the fold over the candidates holds the first least loaded of those that may be taken so far, and none while none may. -/
theorem sprayTakesLeastLoaded : Obligations.SprayTakesLeastLoaded := by
  intro s c set inPort hcls
  have hpick : FirstLeast (sprayLoad s) (sprayMay s c inPort) (s.candidates set) _ :=
    FirstLeast.foldl_lessOf (l := []) (a := none) (s.candidates set) fun _ he => absurd he List.not_mem_nil
  rw [State.chooseSub_of_spray hcls]
  cases hbest : ((s.candidates set).filter (sprayMay s c inPort)).foldl (lessOf (sprayLoad s)) none with
  | none =>
    rw [hbest] at hpick
    exact .inl ⟨rfl, hpick⟩
  | some e =>
    rw [hbest] at hpick
    obtain ⟨before, after, hsplit, hmay, hbefore, hafter⟩ := hpick
    exact .inr ⟨before, e, after, hsplit, hmay, rfl, hbefore, hafter⟩

end Sys2Proof.Machine

/-! SUPPORT. Cells routed, admitted, moved and sent (R405, R407, R411, R416, R417, R419, R422, R425). -/
namespace Sys2Proof.Machine
open Sys2Proof

/-- A port with a cell in its input buffer. -/
theorem execCellRoute_of_input {s : State} {p : Port} {e : InCell} (he : nextInput (s.port p.val).input = some e) :
    execCellRoute (some p) s = .next ((s.modPort p.val fun v => { v with input := dropFirst (· == e) v.input }).routeArrived p.val e) := by
  unfold execCellRoute
  simp only [he]

/-- A cell that the device originates. -/
theorem execCellRoute_of_egress {s : State} {c : Cell} {rest : List Cell} (he : s.router.egress = c :: rest) :
    execCellRoute none s = .next ((s.setRouter { s.router with egress := rest }).lookUp c none) := by
  unfold execCellRoute
  simp only [he]

/-- A class K cell waits, and the bucket gives it a token. -/
theorem execKeystoneAdmit_of_token {s : State} {port : Port} {sub : Sub} {c : OutCell} {rest : List OutCell} {b : Bucket}
    (hwait : (s.sub port.val sub.val).admitQ = c :: rest)
    (htoken : (s.refill port.val sub.val (s.sub port.val sub.val).admission).take = some b) :
    execKeystoneAdmit port sub s = .next (s.setSub port.val sub.val { s.sub port.val sub.val with
      admission := b, admitQ := rest, outQ := (s.sub port.val sub.val).outQ ++ [{ c with at' := s.time.nowNs }] }) := by
  unfold execKeystoneAdmit
  simp only [hwait, htoken]

theorem execLandingToInput_of_pick {s : State} {port : Port} {cls q : Nat} {c : Cell} (hpick : s.landingPick port.val = some (cls, q, c)) :
    execLandingToInput port s = .next (s.landingMove port.val cls q c) := by
  unfold execLandingToInput
  rw [hpick]

/-- Whether nothing may leave a sub-port now: it is none of the port's, may not send, or has no room left in its codeword. -/
def State.sendShut (s : State) (p q : Nat) : Bool :=
  !s.subNamed p q || !s.maySend p q || decide ((s.sub p q).roomBits (s.sub p q).nextNo ≤ (s.sub p q).tx.n)

theorem State.sendShut_of_room {s : State} {p q : Nat} (hnamed : s.subNamed p q = true) (hmay : s.maySend p q = true)
    (hroom : (s.sub p q).tx.n < (s.sub p q).roomBits (s.sub p q).nextNo) : s.sendShut p q = false := by
  unfold State.sendShut
  rw [hnamed, hmay, decide_eq_false (Nat.not_le.2 hroom)]
  rfl

/-- A due CREDIT cell goes ahead of every other. -/
theorem execCellTransmit_of_credit {s : State} {port : Port} {sub : Sub} (hopen : s.sendShut port.val sub.val = false)
    (hdue : s.creditDue port.val sub.val = true) : execCellTransmit port sub s = .next (s.sendPortCredit port.val sub.val) :=
  (next_if_neg (Bool.eq_false_iff.1 hopen)).trans (next_if_pos hdue)

/-- With no CREDIT cell due the next cell leaves. -/
theorem execCellTransmit_of_cell {s : State} {port : Port} {sub : Sub} {c : OutCell} (hopen : s.sendShut port.val sub.val = false)
    (hidle : s.creditDue port.val sub.val = false) (hnext : s.nextOut port.val sub.val = some c) :
    execCellTransmit port sub s = .next ((s.setSub port.val sub.val { (s.sub port.val sub.val).pushCell (s.leaving port.val c.cell) with
      outQ := dropFirst (· == c) (s.sub port.val sub.val).outQ
      occ := vcSet (s.sub port.val sub.val).occ (vcOf (s.leaving port.val c.cell)) (vcGet (s.sub port.val sub.val).occ (vcOf (s.leaving port.val c.cell)) + 1)
      }).bumpWrap (fRTE_PORT_TX_CELLS_COUNT (s.roleOf port.val))) := by
  refine (next_if_neg (Bool.eq_false_iff.1 hopen)).trans ((next_if_neg (Bool.eq_false_iff.1 hidle)).trans ?_)
  rw [hnext]

/-- Settles O25: the cell that the clause names is the one that the command takes, and the sub-port has the token, the room or the credit for it. -/
theorem routerMovesCells : Obligations.RouterMovesCells := by
  refine ⟨?_, ?_, ?_, ?_, ?_, ?_, ?_⟩
  · intro s port p e hport he
    subst hport
    exact execCellRoute_of_input he
  · intro s port c rest hport he
    subst hport
    exact execCellRoute_of_egress he
  · intro s port sub c rest b hwait htoken
    exact execKeystoneAdmit_of_token hwait htoken
  · intro s port cls q c hpick
    exact execLandingToInput_of_pick hpick
  · intro s port sub
    rfl
  · intro s port sub u hsub hu hdue
    obtain ⟨rfl, hroom⟩ := hu
    exact execCellTransmit_of_credit (State.sendShut_of_room hsub.1 hsub.2 hroom) hdue
  · intro s port sub u c o hsub hu hidle hcell
    obtain ⟨rfl, hroom⟩ := hu
    obtain ⟨hnext, rfl⟩ := hcell
    exact execCellTransmit_of_cell (State.sendShut_of_room hsub.1 hsub.2 hroom) hidle hnext

end Sys2Proof.Machine

/-! SUPPORT. Credit cells, stalls, the slow map and telemetry (R408–R410, R429–R431, R436). The source in a stall's record and the stamp of an interval are choices of the
model (log entries 52 and 53). -/
namespace Sys2Proof.Machine
open Sys2Proof

/-- A CREDIT cell c taken from a sub-port u: back gives for each channel how far its freed count has grown. -/
theorem execCreditCellReceive_of_cell {s t : State} {port : Port} {sub : Sub} {c : Cell} {u : SubPort} {got : List Nat} {back : Nat → Nat}
    (hc : s.takeLink port.val sub.val 1 = some (c, t)) (hu : u = t.sub port.val sub.val)
    (hgot : got = (List.range 18).map (fun v => recNat c.payload (2 * v) 2))
    (hback : ∀ v, back v = (vcGet got v + 65536 - vcGet u.freedPeer v % 65536) % 65536) :
    execCreditCellReceive port sub s = .next ((t.setSub port.val sub.val { u with
      occ := (List.range 18).map fun v => vcGet u.occ v - back v, freedPeer := got, creditAt := s.time.nowNs
      stall := u.stall.filter fun v => back v == 0, kStall := u.kStall.filter fun v => back v == 0 }).showMarks port.val) := by
  obtain rfl := funext hback
  subst hu hgot
  unfold execCreditCellReceive
  simp only [hc]

/-- A cell c has waited for a credit, and no CREDIT cell has come for 50 µs. -/
theorem execCreditStallTimeout_of_late {s : State} {port : Port} {sub : Sub} {c : OutCell} (hc : s.wantsCredit port.val sub.val false = some c)
    (hclear : (s.sub port.val sub.val).stall = none) (hup : (s.sub port.val sub.val).up = true)
    (hlate : max (s.sub port.val sub.val).creditAt (s.sub port.val sub.val).since + 50000 ≤ s.time.nowNs) :
    execCreditStallTimeout port sub s = .next (((((s.modSub port.val sub.val fun v => { v with
      stall := some (vcOf (s.leaving port.val c.cell)) }).bumpSat (fRTE_PORT_STALLS_CREDIT_STALL port.val)).showMarks port.val).fabricRec 3
        c.cell.src c.cell.cls 7 (s.portUnit port.val sub.val)).reroute port.val sub.val) := by
  unfold execCreditStallTimeout
  simp only [hc]
  exact next_if_pos (by rw [hclear, hup, decide_eq_true hlate]; rfl)

/-- A class K cell c has waited 1 µs for a credit. -/
theorem execKStallTimeout_of_late {s : State} {port : Port} {sub : Sub} {c : OutCell} (hc : s.wantsCredit port.val sub.val true = some c)
    (hclear : (s.sub port.val sub.val).kStall = none) (hup : (s.sub port.val sub.val).up = true) (hlate : c.at' + 1000 ≤ s.time.nowNs) :
    execKStallTimeout port sub s = .next (((((s.modSub port.val sub.val fun v => { v with
      kStall := some (vcOf (s.leaving port.val c.cell)) }).bumpSat (fRTE_PORT_STALLS_K_STALL port.val)).showMarks port.val).fabricRec 4
        c.cell.src 0 7 (s.portUnit port.val sub.val)).reroute port.val sub.val) := by
  unfold execKStallTimeout
  simp only [hc]
  exact next_if_pos (by rw [hclear, hup, decide_eq_true hlate]; rfl)

/-- Fabric time is set and has entered a microsecond after the last sample. -/
theorem execTelemetrySample_of_due {s : State} (hset : s.ftSet = true) (hdue : s.tele.sampled / 1000 < s.time.ft / 1000) :
    execTelemetrySample s = .next { s with tele := { s.tele with bins := s.sampleBins, sampled := s.time.ft } } :=
  next_if_neg (by rw [hset, decide_eq_false (Nat.not_le.2 hdue)]; decide)

/-- Fabric time is set and an interval has ended at t since the one that is counted began. -/
theorem execTelemetryIntervalEnd_of_over {s : State} {t : Nat} (hset : s.ftSet = true) (ht : t = 100000 * (s.time.ft / 100000)) (hover : s.tele.began < t) :
    execTelemetryIntervalEnd s = .next (if s.isSet fRTE_CFG_TELE_PUSH && s.getF fRTE_COLLECTOR_ID != s.ownId then
      (s.teleEnd t).sendFrame (s.getF fRTE_COLLECTOR_ID) 1 3 (cut64 (s.teleImage (t - 100000))) else s.teleEnd t) := by
  subst ht
  exact next_if_neg (by rw [hset, decide_eq_false (Nat.not_le.2 hover)]; decide)

/-- Settles O26: a cell waits or a time has passed as the clause says, which leaves the command its one branch. -/
theorem creditsStallsAndTelemetry : Obligations.CreditsStallsAndTelemetry := by
  refine ⟨?_, ?_, ?_, ?_, ?_, ?_, ?_⟩
  · intro s port sub hdue
    exact next_if_pos (by rw [hdue.1, hdue.2]; rfl)
  · intro s port sub c t u got back hc hu hback
    exact execCreditCellReceive_of_cell hc hu.1 hu.2 hback
  · intro s port sub c hc hlate
    obtain ⟨hclear, hup, hlate⟩ := hlate
    exact execCreditStallTimeout_of_late hc hclear hup hlate
  · intro s port sub c hc hlate
    obtain ⟨hclear, hup, hlate⟩ := hlate
    exact execKStallTimeout_of_late hc hclear hup hlate
  · intro s group hslow
    exact next_if_pos hslow
  · intro s hdue
    exact execTelemetrySample_of_due hdue.1 hdue.2
  · intro s t hover
    obtain ⟨hset, ht, hover⟩ := hover
    exact execTelemetryIntervalEnd_of_over hset ht hover

end Sys2Proof.Machine

/-! SUPPORT. The commands on the router's tables (R398, R402, R420, R428, R432–R434, R681). FILTER_EN only with the whole table read, the image of zeros before the first
interval ends, and the new ID as ENDPOINT_ASSIGN's condition are choices of the model (log entry 53). -/
namespace Sys2Proof.Machine
open Sys2Proof

/-! ### Entries of a table, from i on and n of them, all inside it -/

theorem State.rteWrite_of_inside {s : State} {f : InFlight} {i n : Nat} (data : List Byte) (hi : i = recNat f.desc 8 4) (hn : n = recNat f.desc 12 4)
    (hsome : 0 < n) (hroom : i + n ≤ 2 ^ 21) :
    s.rteWrite f data = s.tableWrite f i n 2 0xA0 0xA1 0xA2 data (fun b => recBits b 0 2 13 12 == 0) State.writeFlat := by
  subst hi hn
  exact if_neg (by omega)

theorem State.psetWrite_of_inside {s : State} {f : InFlight} {i n : Nat} (data : List Byte) (hi : i = recNat f.desc 8 2) (hn : n = recNat f.desc 10 2)
    (hsome : 0 < n) (hroom : i + n ≤ 4096) :
    s.psetWrite f data = s.tableWrite f i n 8 0xA0 0xA1 0xA2 data goodSet State.writeSet := by
  subst hi hn
  exact if_neg (by omega)

theorem State.ovrWrite_of_inside {s : State} {f : InFlight} {i n : Nat} (data : List Byte) (hi : i = recNat f.desc 8 1) (hn : n = recNat f.desc 10 2)
    (hsome : 0 < n) (hroom : i + n ≤ 256) :
    s.ovrWrite f data = s.tableWrite f i n 16 0xA0 0xA1 0xA2 data (fun b => recBits b 0 4 17 0 == 0) State.writeOvr := by
  subst hi hn
  exact if_neg (by omega)

/-! ### Ports, the own ID and telemetry -/

/-- FILTER_WRITE of a port with all 16 ranges readable and their reserved bits 0. -/
theorem State.filterWrite_of_whole {s : State} {f : InFlight} {data : List Byte} {p : Nat} (hp : p = recNat f.desc 8 1) (hport : p < 34)
    (hlive : s.fidLive (s.sqFid f.sq) = true) (hlen : 128 ≤ data.length)
    (hgood : ((List.range 16).all fun i => goodFilter (byteField data (8 * i) 8)) = true) :
    s.filterWrite f data = (s.setF (fRTE_PORT_CFG_FILTER_EN p) (recNat f.desc 9 1)).tableWrite f 0 16 8 0xA0 0xA1 0xA2 data goodFilter (State.writeFilter p) := by
  subst hp
  unfold State.filterWrite
  simp only [Nat.not_le.2 hport, hlive, decide_eq_true hlen, hgood, Bool.and_self, if_true, if_false]

/-- PORT_ROLE of a port with its share of Keystone in range. -/
theorem State.portRole_of_inRange {s : State} {f : InFlight} {p k : Nat} (hp : p = recNat f.desc 8 1) (hk : k = recNat f.desc 10 1) (hport : p < 34)
    (hlo : 1 ≤ k) (hhi : k ≤ 25) :
    s.portRole f = ((s.setF (fRTE_PORT_CFG_TYPE p) (recNat f.desc 9 1)).setF (fRTE_PORT_CFG_KEY_SHARE p) k).finish f 0xA0 [] := by
  subst hp hk
  exact if_neg (by omega)

/-- ENDPOINT_ASSIGN of an ID that is not in force. -/
theorem State.endpointAssign_of_new {s : State} {f : InFlight} (hnew : recNat f.desc 8 4 ≠ s.ownId) :
    s.endpointAssign f = (State.reproveAll ((s.setF fRTE_OWN_ID_ID (recNat f.desc 8 4)).errRec {
      typ := 0x10, sev := 1, unitKind := 1, arg0 := 5, arg1 := s.ownId, arg2 := recNat f.desc 8 4 })).finish f 0xA0 (leBytes 4 s.ownId) := by
  unfold State.endpointAssign
  simp only [hnew, if_false]

/-- TELEMETRY_READ whose image the host's memory takes; u is the state that has written it. -/
theorem State.telemetryRead_of_put {s u : State} {f : InFlight} {ok : Bool}
    (hput : s.hostPut f (recNat f.desc 16 8) (if s.tele.image.isEmpty then List.replicate 20160 0 else s.tele.image) ok = (u, true)) :
    s.telemetryRead f ok = u.finish f 0xA0 (leBytes 4 s.tele.imageNo) := by
  unfold State.telemetryRead
  simp only [hput, if_true]

/-- Settles O27: the descriptor is the ring's next one and its fields are in range, so that the command is carried out in full. -/
theorem routerTableCommands : Obligations.RouterTableCommands := by
  refine ⟨?_, ?_, ?_, ?_, ?_, ?_, ?_, ?_⟩
  · intro s sq data f i n hcmd hrange
    obtain ⟨hi, hn, hsome, hroom⟩ := hrange
    exact next_ringCmd_eq hcmd (State.rteWrite_of_inside data hi hn hsome hroom)
  · intro s sq data f i n hcmd hrange
    obtain ⟨hi, hn, hsome, hroom⟩ := hrange
    exact next_ringCmd_eq hcmd (State.psetWrite_of_inside data hi hn hsome hroom)
  · intro s sq data f i n hcmd hrange
    obtain ⟨hi, hn, hsome, hroom⟩ := hrange
    exact next_ringCmd_eq hcmd (State.ovrWrite_of_inside data hi hn hsome hroom)
  · intro s sq data f p hcmd hp hwhole
    obtain ⟨hlive, hlen, hgood⟩ := hwhole
    exact next_ringCmd_eq hcmd (State.filterWrite_of_whole hp.1 hp.2 hlive hlen hgood)
  · intro s sq f p k hcmd hrange
    obtain ⟨hp, hk, hport, hlo, hhi⟩ := hrange
    exact next_ringCmd_eq hcmd (State.portRole_of_inRange hp hk hport hlo hhi)
  · intro s sq f hcmd hnew
    exact next_ringCmd_eq hcmd (State.endpointAssign_of_new hnew)
  · intro s sq f hcmd hslow
    exact next_ringCmd_eq hcmd (if_neg hslow)
  · intro s sq ok f u hcmd hput
    exact next_ringCmd_eq hcmd (State.telemetryRead_of_put hput)

end Sys2Proof.Machine

/-! SUPPORT. A target's part of remote memory (R446, R447, R456, R458, R461–R463, R466, R478): the frames it performs, its acknowledgement table and its combining
buffer. That a WR_ACK for a WR frame gives the frame's own length as BYTES the model deduces (log entry 75). -/
namespace Sys2Proof.Machine
open Sys2Proof

/-- The oldest frame of its type from the source, whose header is h, is performed: its step runs in slot i under its attempt, it is not malformed, and its bytes may be
addressed. -/
theorem next_rmtServe_of_match {s u t : State} {typ src i : Nat} {copy : Bool} {n : ReqHdr → Nat} {bad : Frame → ReqHdr → Bool}
    {perform : State → Nat → Frame → ReqHdr → State} {fr : Frame} {h : ReqHdr} (htake : s.takeFrame typ src = some (fr, u)) (hh : h = hdrOf fr.body)
    (hmatch : u.matchStep h.slice h.seq h.attempt = .run i) (hgood : bad fr h = false) (hreach : u.rmtError copy h.addr (n h) = none)
    (hperform : perform u i fr h = t) :
    (.next (s.rmtServe typ src copy n bad perform) : Host.Outcome State Fault Refusal) = .next t := by
  subst hh hperform
  unfold State.rmtServe
  simp only [htake, hmatch, hgood, hreach, Bool.false_eq_true, if_false]

/-- A frame with data is not malformed when its reserved fields are 0 and it holds all its bytes. -/
theorem dataMalformed_eq_false {fr : Frame} {h : ReqHdr} (hclean : h.clean false = true) (hdata : 16 + h.len ≤ fr.body.length) :
    (!h.clean false || decide (fr.body.length < 16 + h.len)) = false := by
  rw [hclean, decide_eq_false (Nat.not_lt.2 hdata)]
  rfl

/-- An ATOMIC frame is not malformed when its reserved fields are 0, its word is aligned and its operation is one of the word's width. -/
theorem atomicMalformed_eq_false {h : ReqHdr} (hclean : h.clean true = true) (haligned : aligned h.word h.addr = true) (hop : h.arg % 16 < 7)
    (hwidth : (h.arg % 16 == 6 && h.word == 8) = false) :
    (!h.clean true || decide (7 ≤ h.arg % 16) || (h.arg % 16 == 6 && h.word == 8) || !aligned h.word h.addr) = false := by
  rw [hclean, haligned, hwidth, decide_eq_false (Nat.not_le.2 hop)]
  rfl

/-- COPY data of a source and REQ_ID that the acknowledgement table, not full, has no entry for. -/
theorem execCopyReceive_of_newEntry {s u w : State} {src : Endpoint} {fr : Frame} {h : ReqHdr} {i : Nat} (htake : s.takeFrame 0x0C src.toNat = some (fr, u))
    (hh : h = hdrOf fr.body) (hmatch : u.matchStep h.slice h.seq h.attempt = .run i) (hclean : h.clean false = true)
    (hreach : u.rmtError true h.addr h.len = none) (hdata : 16 + h.len ≤ fr.body.length)
    (hw : w = u.rmtWrite h (byteField fr.body 16 h.len) (ceilDiv (16 + h.len) 64))
    (hnew : w.rmt.acks.any (fun e => e.src == fr.src && e.id == h.id) = false) (hroom : w.rmt.acks.length < 1024) :
    execCopyReceive src s = .next { w with rmt := { w.rmt with acks := w.rmt.acks ++ [⟨fr.src, h.id, h.len, w.time.nowNs⟩] } } := by
  subst hw
  exact next_rmtServe_of_match htake hh hmatch (dataMalformed_eq_false hclean hdata) hreach (by simp only [hnew, hroom, Bool.false_eq_true, if_true, if_false])

/-- An acknowledgement entry that holds 16 KiB or is 500 ns old. -/
theorem execCopyAckFlush_of_due {s : State} {src : Endpoint} {reqId : Half} {e : AckEntry}
    (he : s.rmt.acks.find? (fun e => e.src == src.toNat && e.id == reqId.toNat) = some e) (hdue : 16384 ≤ e.bytes ∨ e.since + 500 ≤ s.time.nowNs) :
    execCopyAckFlush src reqId s = .next (State.ackCopy
      { s with rmt := { s.rmt with acks := dropFirst (fun e => e.src == src.toNat && e.id == reqId.toNat) s.rmt.acks } } e.src e.id e.bytes) := by
  unfold execCopyAckFlush
  simp only [he]
  exact next_if_pos hdue

/-- The oldest line of a span's combining buffer, idle for 1 µs. -/
theorem execCombineLineIdle_of_idle {s : State} {span : SpanIx} {c : CombLine} (hc : s.rmt.comb.find? (·.span == span.val) = some c)
    (hidle : c.usedAt + 1000 ≤ s.time.nowNs) : execCombineLineIdle span s = .next (s.flushComb c) := by
  unfold execCombineLineIdle
  simp only [hc]
  exact next_if_pos hidle

/-- A reset r that awaits a span's writeback: u is the state with the span's combining buffer and dirty lines written back, w the one in which r awaits the span no
more. -/
theorem execSpanResetEnter_of_awaited {s u w : State} {span : SpanIx} {r : ResetRun} (hr : s.faults.resets.find? (fun r => r.awaitWb.contains span.val) = some r)
    (hu : u = ((((s.rmt.comb.filter (·.span == span.val)).foldl State.flushComb s).span span.val).cache.flatMap fun e => e.2.filter (·.dirty)).foldl
      (fun st c => st.serve span.val (c.line * 256)) ((s.rmt.comb.filter (·.span == span.val)).foldl State.flushComb s))
    (hw : w = u.setFaults { u.faults with resets := mapFirst (fun x => x.awaitWb.contains span.val) (fun x =>
      { x with awaitWb := x.awaitWb.filter (· != span.val), entered := (x.awaitWb.filter (· != span.val)).isEmpty }) u.faults.resets }) :
    execSpanResetEnter span s = .next (w.enterSpan span.val r.level r.hbmFault).showReset := by
  subst hw hu
  unfold execSpanResetEnter
  simp only [hr]

/-- Settles O44: the frame meets what `rmtServe` asks, so the command is what its type performs; the other commands find the entry, line or reset that the clause
names, and it is due. -/
theorem remoteTargetCompletes : Obligations.RemoteTargetCompletes := by
  refine ⟨?_, ?_, ?_, ?_, ?_, ?_, ?_⟩
  · intro s src hits fr u w h i htake hh hok hw
    obtain ⟨hmatch, hclean, hreach⟩ := hok
    subst hw
    exact next_rmtServe_of_match htake hh hmatch (by rw [hclean]; rfl) hreach rfl
  · intro s src fr u w h i htake hh hok hw
    obtain ⟨hmatch, hclean, hreach, hdata⟩ := hok
    subst hw
    exact next_rmtServe_of_match htake hh hmatch (dataMalformed_eq_false hclean hdata) hreach rfl
  · intro s src fr u h i r htake hh hok hop hr
    obtain ⟨hmatch, hclean, hreach, haligned⟩ := hok
    subst hr
    exact next_rmtServe_of_match htake hh hmatch (atomicMalformed_eq_false hclean haligned hop.1 hop.2) hreach rfl
  · intro s src fr u w h i htake hh hok hw hnew
    obtain ⟨hmatch, hclean, hreach, hdata⟩ := hok
    exact execCopyReceive_of_newEntry htake hh hmatch hclean hreach hdata hw hnew.1 hnew.2
  · intro s src reqId e he hdue
    exact execCopyAckFlush_of_due he hdue
  · intro s span c hc hidle
    exact execCombineLineIdle_of_idle hc hidle
  · intro s span r u w hr hu hw
    exact execSpanResetEnter_of_awaited hr hu hw

end Sys2Proof.Machine

/-! SUPPORT. The ops of SEND and RECEIVE on remote memory (R441, R444, R452–R455, R464, R465, R467, R476, R477): what one repeat does with its operands at hand. That a
REQ_ID comes from a counter that goes up, and that the frames of a PUT share one, are choices of the model (log entry 74). -/
namespace Sys2Proof.Machine
open Sys2Proof

/-- A command of SEND or RECEIVE that need not wait, whose op has started with nothing staged, ends as its body does. -/
theorem next_runRmt_of_started {s t : State} {slot core inst code : Nat} {known : List Nat} {ok : OpCtx → Bool} {body : State → OpCtx → State} {x : OpCtx}
    (hidle : s.rmtBusy slot core inst = false) (hx : s.active slot core inst = some x)
    (hop : x.atEnd = false ∧ x.run.outbox = [] ∧ s.tripHolds inst = false ∧ x.run.started = true ∧ opCode x.op = code)
    (hknown : known.contains code = true) (hbody : body s x = t) :
    (.next (s.runRmt slot core inst known code ok body) : Host.Outcome State Fault Refusal) = .next t :=
  (next_if_neg (by rw [hidle]; decide)).trans (next_runOp_of_started hx hop hknown hbody)

/-! ### PUT, GET and ATOMIC -/

/-- PUT of a tile to another rank, every piece of which passes a window. -/
theorem State.putOp_of_passes {s : State} {x : OpCtx} {rank o : Nat} {t : Tile} {r : State × Option Nat}
    (haddr : s.gAddr x.step.slice (opF x.op 2 63 0) = some (rank, o)) (hhead : x.head (opInA x.op) = some t) (hfar : rank ≠ x.step.rank)
    (hpass : (cut4k t.payload.length).all (s.piecePasses x rank o permWr) = true) (hr : r = (s.endInA x).awaitRes x (doneTile x.repNo) 1) :
    s.putOp x = (r.1.issue {
      req := x.req 7 (s.rankEndpoint x.step.slice rank) 0 ((cut4k t.payload.length).getLastD (0, 0)).2 r.2
      frames := x.putFrames o t (cut4k t.payload.length) }).endIssue x := by
  subst hr
  unfold State.putOp
  simp only [haddr, hhead, hpass, hfar, Bool.not_true, Bool.false_eq_true, if_false]

/-- GET from another rank, every piece of which passes a window. The kernel must not evaluate how an unknown length is cut, so the cut stands for itself. -/
theorem State.getOp_of_passes {s : State} {x : OpCtx} {rank o : Nat} {r : State × Option Nat}
    (haddr : s.gAddr x.step.slice (opF x.op 2 63 0) = some (rank, o)) (hfar : rank ≠ x.step.rank)
    (hpass : (cut4k (opF x.op 1 15 0 + 1)).all (s.piecePasses x rank o permRd) = true)
    (hr : r = s.awaitRes x x.getTile (cut4k (opF x.op 1 15 0 + 1)).length) :
    s.getOp x = ((cut4k (opF x.op 1 15 0 + 1)).foldl (fun st p => st.issue (x.getWait (s.rankEndpoint x.step.slice rank) o r.2 p)) r.1).endIssue x := by
  subst hr
  obtain ⟨cut, hcut⟩ : ∃ f, f = cut4k := ⟨_, rfl⟩
  unfold State.getOp
  rw [← hcut] at hpass ⊢
  simp only [haddr, hpass, hfar, Bool.not_true, Bool.false_eq_true, if_false]

/-- ATOMIC of a tile of rows of six INT32 values, none of which ends in a fault. -/
theorem State.atomicOp_of_performed {s : State} {x : OpCtx} {t : Tile} {r : State × Option Nat} (hhead : x.head (opInA x.op) = some t)
    (hfmt : t.format = 0x0B) (hlayout : t.layout = 0) (hcols : t.cols = 6)
    (hr : r = s.awaitRes x { rows := t.rows, cols := 2, format := 0x0B, layout := 0, poison := t.poison, payload := List.replicate (8 * t.rows) 0 } t.rows)
    (hclear : (r.1.atomicRows x r.2 t).2 = false) : s.atomicOp x = ((r.1.atomicRows x r.2 t).1.endInA x).endIssue x := by
  have hshape : ¬ (t.format ≠ 0x0B ∨ t.layout ≠ 0 ∨ t.cols ≠ 6) := by simp [hfmt, hlayout, hcols]
  subst hr
  unfold State.atomicOp
  simp only [hhead]
  rw [if_neg hshape, hclear]
  rfl

/-! ### FENCE, FLAG and COPY -/

theorem State.fenceOp_of_acked {s : State} {x : OpCtx} (hacked : s.unacked x.slot x.core x.inst = false) :
    s.fenceOp x = (s.awaitRes x (doneTile x.repNo) 0).1.endIssue x := by
  unfold State.fenceOp
  rw [hacked]
  rfl

/-- FLAG of an aligned word of n bytes on another rank that a window lets pass, with none of the op's own copies to that endpoint unacknowledged. -/
theorem State.flagOp_of_passes {s : State} {x : OpCtx} {rank o n : Nat} {r : State × Option Nat}
    (haddr : s.gAddr x.step.slice (opF x.op 2 63 0) = some (rank, o)) (hfar : rank ≠ x.step.rank) (hn : n = if opF x.op 1 47 47 = 1 then 8 else 4)
    (haligned : o % n = 0)
    (hacked : s.rmt.copies.any (fun c => c.slot == x.slot && c.core == x.core && c.inst == x.inst && c.dst == s.rankEndpoint x.step.slice rank &&
      decide (c.acked < c.total)) = false)
    (hpass : s.windowOk x.step.slice false rank o n permWr = true) (hr : r = s.awaitRes x (doneTile x.repNo) 1) :
    s.flagOp x = (r.1.issue {
      req := x.req 7 (s.rankEndpoint x.step.slice rank) 0 n r.2
      frames := [hdrBytes { x.hdr o (lenArg n) (lenExt n false) with ackReq := true } ++ leBytes n (opF x.op 3 63 0)] }).endIssue x := by
  subst hr hn
  unfold State.flagOp
  simp only [haddr, haligned, hacked, hpass, hfar, ne_eq, not_true_eq_false, Bool.not_true, Bool.false_eq_true, if_false]

/-- COPY with an input tile to a rank's offset that a window lets pass, taken by the free engine e: i is the state and REQ_ID once the REQ_ID is taken, c the engine's
entry. -/
theorem State.copyOp_of_passes {s : State} {x : OpCtx} {e rank o n off : Nat} {i : State × Nat} {q : State × Option Nat} {c : CopyRun}
    (hin : opInA x.op ≠ noQ) (hhead : (x.head (opInA x.op)).isSome = true) (hrank : opF x.op 1 47 47 = 0) (hengine : s.freeEngine (x.core / 32) = some e)
    (haddr : s.gAddr x.step.slice (opF x.op 3 63 0) = some (rank, o)) (hn : n = opF x.op 1 29 0 + 1) (hoff : off = (o + x.repNo * n) % 2 ^ 40)
    (hpass : s.windowOk x.step.slice false rank off n permWr = true) (hq : q = (s.endInA x).awaitRes x (doneTile x.repNo) 1) (hi : i = q.1.takeId)
    (hc : c = x.copyRun e i.2 (s.rankEndpoint x.step.slice rank) off n s.time.nowNs q.2) :
    s.copyOp x = ((i.1.setRmt { i.1.rmt with copies := i.1.rmt.copies ++ [c] }).endIssue x).pumpCopy c := by
  have hbyRank : (opF x.op 1 47 47 == 1) = false := by rw [hrank]; rfl
  subst hc hi hq hoff hn
  unfold State.copyOp
  simp only [hbyRank, hengine, haddr, hhead, hpass, hin, Bool.or_true, Bool.not_true, Bool.false_eq_true, if_false]

/-- A copy c of an engine with every byte acknowledged. -/
theorem execCopyComplete_of_acked {s : State} {die : Fin 4} {engine : Fin 16} {c : CopyRun}
    (hc : s.rmt.copies.find? (fun c => c.die == die.val && c.eng == engine.val && decide (c.total ≤ c.acked)) = some c) :
    execCopyComplete die engine s = .next ((s.setRmt { s.rmt with
      copies := dropFirst (fun c => c.die == die.val && c.eng == engine.val && decide (c.total ≤ c.acked)) s.rmt.copies }).resPart c.res 0 [] false) := by
  unfold execCopyComplete
  simp only [hc]

/-- Settles O47: the op has started and need not wait, so each command is its op's repeat, and that repeat takes the branch that the clause's operands leave. -/
theorem remoteOpsComplete : Obligations.RemoteOpsComplete := by
  refine ⟨?_, ?_, ?_, ?_, ?_, ?_, ?_⟩
  · intro s slot core ix x rank o t r hidle hx hop hin hpass hr
    obtain ⟨haddr, hhead, hfar⟩ := hin
    exact next_runRmt_of_started hidle hx hop rfl (State.putOp_of_passes haddr hhead hfar hpass hr)
  · intro s slot core ix x rank o r hidle hx hop hin hpass hr
    exact next_runRmt_of_started hidle hx hop rfl (State.getOp_of_passes hin.1 hin.2 hpass hr)
  · intro s slot core ix x t r hidle hx hop hin hr hclear
    obtain ⟨hhead, hfmt, hlayout, hcols⟩ := hin
    exact next_runRmt_of_started hidle hx hop rfl (State.atomicOp_of_performed hhead hfmt hlayout hcols hr hclear)
  · intro s slot core ix x hidle hx hop hacked
    exact next_runRmt_of_started hidle hx hop rfl (State.fenceOp_of_acked hacked)
  · intro s slot core ix x rank o n r hidle hx hop hin hacked hpass hr
    obtain ⟨haddr, hfar, hn, haligned⟩ := hin
    exact next_runRmt_of_started hidle hx hop rfl (State.flagOp_of_passes haddr hfar hn haligned hacked hpass hr)
  · intro s slot core ix x e rank o i q c hidle hx hop hin hto hpass htaken hc
    obtain ⟨hinput, hhead, hrank⟩ := hin
    exact next_runRmt_of_started hidle hx hop rfl (State.copyOp_of_passes hinput hhead hrank hto.1 hto.2 rfl rfl hpass htaken.1 htaken.2 hc)
  · intro s die engine c hc
    exact execCopyComplete_of_acked hc

end Sys2Proof.Machine

/-! SUPPORT. Queues between devices (R468–R472) and WAIT_GE (R479). -/
namespace Sys2Proof.Machine
open Sys2Proof

/-- SEND QUEUE with a credit and a tile at the head. -/
theorem State.queueTx_of_credit {s : State} {x : OpCtx} {t : Tile} {v : Queue} {w : TxQueue} (hqueue : x.step.queue? (opInA x.op) = some v)
    (htx : s.txOf x.slot (opInA x.op) = some w) (hcredit : w.sent < w.granted) (hhead : x.head (opInA x.op) = some t) :
    s.queueTx x = (((s.setRmt { s.rmt with
      tx := mapFirst (fun e => e.slot == x.slot && e.queue == opInA x.op) (fun e => { e with sent := e.sent + 1 }) s.rmt.tx }).sendTile
        x.step v w.chan t).endInA x).endRepeat x := by
  unfold State.queueTx
  simp only [hqueue, htx, hcredit, hhead, if_true]

/-- RECEIVE QUEUE at its op x: u is the state in which the op has started, y the op then. -/
theorem State.queueRx_of_started {s u : State} {slot core inst : Nat} {x y : OpCtx} (hidle : s.rmtBusy slot core inst = false)
    (hx : s.active slot core inst = some x) (hend : x.atEnd = false) (hcode : opCode x.op = 1) (hu : u = s.startOp x (queueRxOk x))
    (hy : u.active slot core inst = some y) :
    s.queueRx slot core inst = (if (aget y.run.work 0).isSome then u else u.allocChan y (opOut y.op)).releaseRx slot core inst (opOut y.op) 64 := by
  have hknown : receiveKnown.contains 1 = true := rfl
  subst hu
  unfold State.queueRx
  simp only [hx, hidle, hend, hcode, hknown, hy, Bool.or_self, Bool.not_true, Bool.false_eq_true, ne_eq, not_true_eq_false, if_false]

/-- QUEUE_CREDIT for queue q, one to another device, of the running step t in slot i, whose sender has w on record. -/
theorem execQueueCreditReceive_of_running {s u : State} {src : Endpoint} {fr : Frame} {i q : Nat} {t : Step} {v : Queue} {w : TxQueue}
    (htake : s.takeFrame 5 src.toNat = some (fr, u))
    (hstep : u.steps.slots.find? (fun e => e.2.phase == .running && e.2.slice == recNat fr.body 0 2 && e.2.seq % 65536 == recNat fr.body 2 2 &&
      e.2.attempt == recBits fr.body 4 1 3 0) = some (i, t))
    (hq : q = recBits fr.body 6 2 11 0) (hqueue : t.queue? q = some v) (hkind : v.kind = 2) (hsend : v.consInst / 16 = 0xB) (htx : u.txOf i q = some w) :
    execQueueCreditReceive src s = .next ((u.setRmt { u.rmt with tx := mapFirst (fun e => e.slot == i && e.queue == q) (fun _ =>
      { w with granted := w.granted + (recNat fr.body 10 2 + 65536 - w.granted % 65536) % 65536,
               chan := if recBits fr.body 4 1 4 4 = 1 then recBits fr.body 8 2 11 0 else w.chan }) u.rmt.tx }).progress i v.consCore v.consInst) := by
  subst hq
  unfold execQueueCreditReceive
  simp only [htake, hstep, hqueue, hkind, hsend, htx, ne_eq, not_true_eq_false, or_self, if_false]

/-- A class S QUEUE cell, whose low 8 bytes are b, for the receiving side r of a running step's queue, from the right endpoint under the right attempt. -/
theorem execQueueCellReceive_of_running {s u : State} {src : Endpoint} {fr : Frame} {r : RxQueue} {t : Step} {v : Queue} {b : Nat}
    (htake : s.takeFrame 4 src.toNat = some (fr, u)) (hcls : fr.cls = 5) (hb : b = recNat fr.body 0 8)
    (hrx : u.rmt.rx.find? (fun r => r.chans.contains (b % 4096)) = some r) (hstep : u.step? r.slot = some t) (hqueue : t.queue? r.queue = some v)
    (hphase : t.phase = .running) (hpeer : u.rankEndpoint t.slice v.peerRank = fr.src) (hattempt : t.attempt % 2 = b / 4096 % 2) :
    execQueueCellReceive src s = .next (((u.setRx { r with
      parts := aput r.parts (b / 2 ^ 16 % 65536)
        (aput ((aget r.parts (b / 2 ^ 16 % 65536)).getD []) (b / 2 ^ 32 % 2048) (byteField fr.body 8 56)) }).progress r.slot r.core r.inst).releaseRx
          r.slot r.core r.inst r.queue 64) := by
  subst hb
  unfold execQueueCellReceive
  simp only [htake, hcls, hrx, hstep, hqueue, hphase, hpeer, hattempt, ne_eq, not_true_eq_false, or_self, if_true, if_false]

/-- Settles O45: the op has started, or the cell belongs to a running step's queue, so each command takes the branch that the clause's operands leave. -/
theorem queuesBetweenDevicesAndWait : Obligations.QueuesBetweenDevicesAndWait := by
  refine ⟨?_, ?_, ?_, ?_, ?_, ?_, ?_⟩
  · intro s slot core receive ix x t v w hside hx hop hin hhead
    obtain ⟨rfl, hidle⟩ := hside
    obtain ⟨hqueue, htx, hcredit⟩ := hin
    exact next_runRmt_of_started hidle hx hop rfl (State.queueTx_of_credit hqueue htx hcredit hhead)
  · intro s slot core receive ix x u y hside hx hop hu hy
    obtain ⟨rfl, hidle⟩ := hside
    exact congrArg Host.Outcome.next (State.queueRx_of_started hidle hx hop.1 hop.2 hu hy)
  · intro s src fr u i t v w q htake hstep hq htx
    obtain ⟨hq, hqueue, hkind, hsend⟩ := hq
    exact execQueueCreditReceive_of_running htake hstep hq hqueue hkind hsend htx
  · intro s src fr u r t v b htake hcell hstep hright
    obtain ⟨hcls, hb, hrx⟩ := hcell
    obtain ⟨hphase, hpeer, hattempt⟩ := hright
    exact execQueueCellReceive_of_running htake hcls hb hrx hstep.1 hstep.2 hphase hpeer hattempt
  · intro s chan
    rfl
  · intro s slot core ix x hx hop hbelow
    exact next_runOp_of_started hx hop rfl (if_pos hbelow)
  · intro s slot core ix x hx hop hreached
    exact next_runOp_of_started hx hop rfl (if_neg (Nat.not_lt.2 hreached))

end Sys2Proof.Machine

/-! SUPPORT. CHECK (R481, R483–R486): APPEND, and VERIFY of a tile that passes. -/
namespace Sys2Proof.Machine
open Sys2Proof

/-- APPEND under a valid preset to a tile of the stream r: n is the tile with its place in the queue, tail the trailer's last 8 bytes. -/
theorem State.appendOp_of_valid {s : State} {x : OpCtx} {t n : Tile} {r : StreamRun} {v : Queue} {a : Nat} {tail : List Byte}
    (hvalid : s.isSet (fCHK_CFG_VALID (chkPreset x.op)) = true) (hhead : x.head (opInA x.op) = some t) (hstream : x.step.streams[x.chkStream]? = some r)
    (hqueue : x.step.queue? (opOut x.op) = some v) (halive : s.aliveOf x r.id = some a) (hn : n = { t with tag := v.emitted % 65536, last := s.isLastTile x })
    (htail : tail = trailerTail a r.id x.step.seq x.step.attempt) :
    s.appendOp x = (((s.setAlive x r.id (a + 1)).stage x
      { n with payload := t.payload ++ leBytes 8 (checkValue (s.preset (chkPreset x.op)) n t.payload tail) ++ tail } (x.owners t.rows) 5).endInA x).endRepeat x := by
  subst hn htail
  unfold State.appendOp
  simp only [hvalid, hhead, hstream, hqueue, halive, Bool.not_true, Bool.false_eq_true, if_false]

/-- VERIFY under a valid preset of a tile whose trailer tr is of this step, attempt and stream and holds the tile's check value and the expected alive counter a. -/
theorem State.verifyOp_of_good {s : State} {x : OpCtx} {t : Tile} {r : StreamRun} {a : Nat} {tr : List Byte}
    (hvalid : s.isSet (fCHK_CFG_VALID (chkPreset x.op)) = true) (hhead : x.head (opInA x.op) = some t) (hstream : x.step.streams[x.chkStream]? = some r)
    (halive : s.aliveOf x r.id = some a) (htr : tr = t.payload.drop (t.payload.length - 16)) (hseq : recNat tr 12 2 = x.step.seq % 65536)
    (hattempt : recBits tr 14 1 3 0 = x.step.attempt) (hid : recNat tr 10 2 = r.id) (hcount : recNat tr 8 2 = a)
    (hcheck : recNat tr 0 8 = checkValue (s.preset (chkPreset x.op)) t (t.payload.take (t.payload.length - 16)) (tr.drop 8)) :
    s.verifyOp x = (((s.setAlive x r.id (a + 1)).stage x { t with payload := t.payload.take (t.payload.length - 16) } (x.owners t.rows) 5).endInA x).endRepeat x := by
  subst htr
  unfold State.verifyOp
  simp only [hvalid, hhead, hstream, halive, hseq, hattempt, hid, hcount, hcheck, Bool.not_true, Bool.false_eq_true, ne_eq, not_true_eq_false, or_self,
    if_true, if_false]

/-- Settles O46: the op has started, so each command is its op's repeat, and the tile at hand passes every check of that repeat. -/
theorem checkStationCompletes : Obligations.CheckStationCompletes := by
  refine ⟨?_, ?_⟩
  · intro s slot core ix x t r v a tail n hx hop hin hpair hn
    obtain ⟨hstream, hqueue, halive⟩ := hpair
    exact next_runOp_of_started hx hop rfl (State.appendOp_of_valid hin.1 hin.2 hstream hqueue halive hn.1 hn.2)
  · intro s slot core ix x t r a tr hx hop hin hpair hown hcheck
    obtain ⟨hstream, halive, htr⟩ := hpair
    obtain ⟨hseq, hattempt, hid, hcount⟩ := hown
    exact next_runOp_of_started hx hop rfl (State.verifyOp_of_good hin.1 hin.2 hstream halive htr hseq hattempt hid hcount hcheck)

end Sys2Proof.Machine

/-! SUPPORT. The load/atomic engines' entries (R450), and the responses, error responses and time limits of a requester (R453, R454, R458, R460, R465–R467, R489). -/
namespace Sys2Proof.Machine
open Sys2Proof

/-- The first request that waits for a span's engine, which has an entry free. -/
theorem execLoadAtomicEngineSlot_of_free {s : State} {span : SpanIx} {w : RmtWait} (hw : s.rmt.waiting.find? (·.req.span == span.val) = some w)
    (hfree : s.engineFree span.val = true) :
    execLoadAtomicEngineSlot span s = .next ((s.setRmt { s.rmt with waiting := dropFirst (·.req.span == span.val) s.rmt.waiting }).sendReq w) := by
  unfold execLoadAtomicEngineSlot
  simp only [hw]
  exact next_if_pos hfree

/-- A response to an outstanding request r. -/
theorem State.takeRsp_of_outstanding {s u : State} {typ src kind : Nat} {take : State → Frame → RmtReq → State} {other : State → Frame → State} {fr : Frame}
    {r : RmtReq} (htake : s.takeFrame typ src = some (fr, u)) (hr : u.reqOf fr kind = some r) :
    s.takeRsp typ src kind take other = take ((u.dropReq r.id).progress r.slot r.core r.inst) fr r := by
  unfold State.takeRsp
  simp only [htake, hr]

/-- A response to no outstanding request. -/
theorem State.takeRsp_of_other {s u : State} {typ src kind : Nat} {take : State → Frame → RmtReq → State} {other : State → Frame → State} {fr : Frame}
    (htake : s.takeFrame typ src = some (fr, u)) (hnone : u.reqOf fr kind = none) : s.takeRsp typ src kind take other = other u fr := by
  unfold State.takeRsp
  simp only [htake, hnone]

/-- WR_ACK for part of a copy c: d is the copy with its bytes accounted for. -/
theorem execWrAckReceive_of_copy {s u : State} {src : Endpoint} {fr : Frame} {c d : CopyRun} (htake : s.takeFrame 0x0A src.toNat = some (fr, u))
    (hnone : u.reqOf fr 7 = none) (hc : u.rmt.copies.find? (fun c => c.id == recNat fr.body 0 2 && c.dst == fr.src) = some c)
    (hd : d = { c with acked := min c.sent (c.acked + recNat fr.body 4 4), sentAt := u.time.nowNs }) :
    execWrAckReceive src s = .next (((u.setRmt { u.rmt with
      copies := mapFirst (fun c => c.id == recNat fr.body 0 2 && c.dst == fr.src) (fun _ => d) u.rmt.copies }).progress c.slot c.core c.inst).pumpCopy d) := by
  subst hd
  unfold execWrAckReceive
  rw [State.takeRsp_of_other htake hnone]
  simp only [hc]

/-- ERROR_RSP for an outstanding request r. -/
theorem execErrorRspReceive_of_outstanding {s u : State} {src : Endpoint} {fr : Frame} {r : RmtReq} (htake : s.takeFrame 0x0E src.toNat = some (fr, u))
    (hr : u.rmt.reqs.find? (fun r => r.id == recNat fr.body 0 2 && r.dst == fr.src) = some r) :
    execErrorRspReceive src s = .next (((u.dropReq (recNat fr.body 0 2)).bumpSat fMEM_RMT_ERRORS_ERR_RECEIVED).remoteError r.slot r.core r.inst
      (recNat fr.body 2 1) (recNat fr.body 8 5)) := by
  unfold execErrorRspReceive
  simp only [htake, hr]

/-- A request r of a running step, unanswered for the response limit. -/
theorem execRemoteTimeout_of_late {s : State} {reqId : Half} {r : RmtReq} {t : Step} (hr : s.rmt.reqs.find? (·.id == reqId.toNat) = some r)
    (hlate : r.sentAt + s.rmtLimit ≤ s.time.nowNs) (hstep : (s.dropReq reqId.toNat).step? r.slot = some t) (hphase : t.phase = .running) :
    execRemoteTimeout reqId s = .next (((s.dropReq reqId.toNat).bumpSat fMEM_RMT_ERRORS_TIMEOUTS).stepFault r.slot 0x0F
      { unitKind := 6, unitIx := r.core * 256 + r.inst, arg0 := r.dst }) := by
  unfold execRemoteTimeout
  simp only [hr, hstep, hphase, beq_self_eq_true, if_true]
  exact next_if_pos hlate

/-- Settles O48: the frame answers the request or the copy that the clause names, or that request's time is up. -/
theorem remoteResponsesAndEngines : Obligations.RemoteResponsesAndEngines := by
  refine ⟨?_, ?_, ?_, ?_, ?_, ?_, ?_⟩
  · intro s span w hw hfree
    exact execLoadAtomicEngineSlot_of_free hw hfree
  · intro s src fr u r htake hr
    exact congrArg Host.Outcome.next (State.takeRsp_of_outstanding htake hr)
  · intro s src fr u r htake hr
    exact congrArg Host.Outcome.next (State.takeRsp_of_outstanding htake hr)
  · intro s src fr u c d htake hnone hc hd
    exact execWrAckReceive_of_copy htake hnone hc hd
  · intro s src fr u r htake hr
    exact congrArg Host.Outcome.next (State.takeRsp_of_outstanding htake hr)
  · intro s src fr u r htake hr
    exact execErrorRspReceive_of_outstanding htake hr
  · intro s reqId r t hr hlate hstep
    exact execRemoteTimeout_of_late hr hlate hstep.1 hstep.2

end Sys2Proof.Machine

/-! SUPPORT. WINDOW_WRITE and SLICE_WRITE (R438, R439, R443, R487). -/
namespace Sys2Proof.Machine
open Sys2Proof

theorem State.windowWrite_of_inside {s : State} {f : InFlight} {i n : Nat} (data : List Byte) (hi : i = recNat f.desc 8 2) (hn : n = recNat f.desc 10 2)
    (hsome : 0 < n) (hroom : i + n ≤ 512) : s.windowWrite f data = s.tableWrite f i n 32 0xB0 0xB1 0xB4 data winGood State.writeWindow := by
  subst hi hn
  exact if_neg (by omega)

/-- SLICE_WRITE of a valid entry e, read in u, for a slice that no outstanding step names. -/
theorem State.sliceWrite_of_good {s u : State} {f : InFlight} {data : Option (List Byte)} {e : List Byte} (hidle : s.sliceBusy (recNat f.desc 8 2) = false)
    (hread : s.hostGet f (recNat f.desc 16 8) 32 data = (u, some e)) (hgood : sliceGood e = true) (hvalid : recBits e 0 1 0 0 ≠ 0) (hok : u.sliceOk e = true) :
    s.sliceWrite f data = (u.st (0x200000 * (s.getF fMEM_SLICE_LO_ADDR_LO) + 0x100000000 * (s.getF fMEM_SLICE_HI_ADDR_HI) + recNat f.desc 8 2 * 32) e).finish f
      0xB0 [] := by
  unfold State.sliceWrite
  simp only [hidle, hread, hgood, hvalid, hok, Bool.not_true, Bool.false_eq_true, if_false]

/-- Settles O49: the descriptor is the ring's next one, and what it names is inside the table or keeps R438 and R439. -/
theorem windowsAndSlices : Obligations.WindowsAndSlices := by
  refine ⟨?_, ?_⟩
  · intro s sq data f i n hcmd hrange
    obtain ⟨hi, hn, hsome, hroom⟩ := hrange
    exact next_ringCmd_eq hcmd (State.windowWrite_of_inside data hi hn hsome hroom)
  · intro s sq data f u e hcmd hidle hread hentry
    obtain ⟨hgood, hvalid, hok⟩ := hentry
    exact next_ringCmd_eq hcmd (State.sliceWrite_of_good hidle hread hgood hvalid hok)

end Sys2Proof.Machine

/-! SUPPORT. A step and its command, and the frame of every command: what `exec_ev` says of the parts that `touches` does not name. -/
namespace Sys2Proof.Machine
open Sys2Proof

/-- Settles O1: the queue with a front command is not empty, so the step is that command's meaning on the rest. -/
theorem stepTakesFrontCommand : Obligations.StepTakesFrontCommand := fun _ _ _ => rfl

/-- Two states that agree outside parts without the memories' bytes hold the same bytes. -/
theorem mem_eq_of_without_eq {P : StatePart → Bool} {s t : State} (hmem : P .mem = false) (h : t.without P = s.without P) : t.mm.mem = s.mm.mem := by
  have hmm := congrArg (fun x : State => x.mm.mem) h
  simpa only [State.without, hmem, Bool.false_eq_true, if_false] using hmm

/-- Two states that agree outside parts without the registers hold the same register map. -/
theorem regs_eq_of_without_eq {P : StatePart → Bool} {s t : State} (hregs : P .regs = false) (h : t.without P = s.without P) : t.regs = s.regs := by
  have hr := congrArg State.regs h
  simpa only [State.without, hregs, Bool.false_eq_true, if_false] using hr

/-- Settles O7: what a command answers keeps `Ev` for the parts that `touches` names, so every other part, the bytes and the registers among them, stands. -/
theorem frameOfEveryCommand : Obligations.FrameOfEveryCommand := by
  intro i s t ht
  obtain ⟨u, hu, ev⟩ := exec_ev i (fun x hx => List.contains_iff_mem.2 hx) (Ev.refl (fun p => (touches i).contains p) s)
  obtain rfl : u = t := Host.Outcome.next.inj (hu.symm.trans ht)
  have hnot (x : StatePart) (h : x ∉ touches i) : (touches i).contains x = false := Bool.eq_false_iff.2 fun k => h (List.contains_iff_mem.1 k)
  refine ⟨ev.fr, fun hmem a => ?_, fun hregs o => ?_⟩
  · rw [mem_eq_of_without_eq (hnot _ hmem) ev.fr]
  · rw [State.reg_eq, State.reg_eq, regs_eq_of_without_eq (hnot _ hregs) ev.fr]

end Sys2Proof.Machine

/-! SUPPORT. What an action entry done with leaves (R558): how many periods its TIME moves by, and the bytes that stand. -/
namespace Sys2Proof.Machine
open Sys2Proof

/-! ### Bytes of a record -/

/-- The bytes of a record before a last part. -/
theorem byteField_append_left (a b : List Byte) : byteField (a ++ b) 0 a.length = a := by
  apply List.ext_getElem
  · simp only [length_byteField]
  · intro i _ hi
    simp only [byteField, List.getElem_map, List.getElem_range, Nat.zero_add]
    rw [List.getD_eq_getElem?_getD, List.getElem?_append_left hi, List.getElem?_eq_getElem hi, Option.getD_some]

/-- A number at the front of a record reads back modulo its width. -/
theorem recNat_leBytes_append (k n : Nat) (b : List Byte) : recNat (leBytes k n ++ b) 0 k = n % 2 ^ (8 * k) := by
  have h := byteField_append_left (leBytes k n) b
  rw [length_leBytes] at h
  rw [recNat, h, leNat_leBytes]

theorem getD_byteField (d : List Byte) (lo : Nat) {n i : Nat} (h : i < n) : (byteField d lo n).getD i 0 = d.getD (lo + i) 0 := by
  rw [byteField, List.getD_eq_getElem?_getD, List.getElem?_map, List.getElem?_range h]
  rfl

/-! ### The periods that TIME moves by -/

/-- The smallest number of periods, at least one, that puts an entry's TIME after `ft`. -/
def actPeriods (ft : Nat) (e : List Byte) : Nat := (ft - actTime e) / max 1 (actPeriod e) + 1

section
variable {ft : Nat} {e : List Byte} (hp : 0 < actPeriod e)
include hp

theorem lt_actTime_add_actPeriods_mul : ft < actTime e + actPeriods ft e * actPeriod e := by
  have h := Nat.lt_mul_div_succ (ft - actTime e) hp
  rw [actPeriods, Nat.max_eq_right hp, Nat.mul_comm]
  omega

theorem actPeriods_le {k : Nat} (hk : 0 < k) (h : ft < actTime e + k * actPeriod e) : actPeriods ft e ≤ k := by
  have hpos : 0 < k * actPeriod e := Nat.mul_pos hk hp
  rw [actPeriods, Nat.max_eq_right hp]
  exact Nat.div_lt_of_lt_mul (by rw [Nat.mul_comm]; omega)

/-- The new TIME is at most one period after the later of the old one and `ft`. -/
theorem actTime_add_actPeriods_mul_le : actTime e + actPeriods ft e * actPeriod e ≤ max ft (actTime e) + actPeriod e := by
  have h := Nat.div_mul_le_self (ft - actTime e) (actPeriod e)
  rw [actPeriods, Nat.max_eq_right hp, Nat.succ_mul]
  omega

end

/-! ### The entry left -/

/-- An entry with its TIME replaced. -/
def actAt (e : List Byte) (t : Nat) : List Byte := leBytes 8 t ++ byteField e 8 24

theorem actTime_actAt (e : List Byte) {t : Nat} (h : t < 2 ^ 64) : actTime (actAt e t) = t :=
  (recNat_leBytes_append 8 t _).trans (Nat.mod_eq_of_lt h)

theorem getD_actAt (e : List Byte) (t : Nat) {j : Nat} (hlo : 8 ≤ j) (hhi : j < 32) : (actAt e t).getD j 0 = e.getD j 0 := by
  have hpast : (leBytes 8 t).length ≤ j := by rw [length_leBytes]; exact hlo
  rw [actAt, List.getD_eq_getElem?_getD, List.getElem?_append_right hpast, ← List.getD_eq_getElem?_getD, length_leBytes, getD_byteField e 8 (by omega),
    Nat.add_sub_cancel' hlo]

theorem State.actNext_of_once (s : State) (i : Nat) {e : List Byte} (hp : actPeriod e = 0) : (s.actNext i e).actions = adel s.actions i := by
  simp only [State.actNext, hp, if_true]

theorem State.actNext_of_period (s : State) (i : Nat) {e : List Byte} (hp : 0 < actPeriod e) :
    (s.actNext i e).actions = aput s.actions i (actAt e (actTime e + actPeriods s.time.ft e * actPeriod e)) := by
  simp only [State.actNext, Nat.ne_of_gt hp, if_false, actAt, actPeriods]

/-- Settles O15: the entry is deleted, or put back in its place with TIME moved by `actPeriods`. -/
theorem actionsRepeatInTheFuture : Obligations.ActionsRepeatInTheFuture := by
  intro s i e
  refine ⟨fun hp => ?_, fun hp hft htime => ?_, fun j hj => ?_⟩
  · rw [State.actNext_of_once s i hp, aget_adel_self]
  · have hbound := actTime_add_actPeriods_mul_le (ft := s.time.ft) hp
    refine ⟨_, actPeriods s.time.ft e, by rw [State.actNext_of_period s i hp, aget_aput_self], Nat.succ_pos _, ?_, ?_, fun k hk => actPeriods_le hp hk,
      fun j hlo hhi => getD_actAt e _ hlo hhi⟩
    · exact actTime_actAt e (by omega)
    · rw [actTime_actAt e (by omega)]
      exact lt_actTime_add_actPeriods_mul hp
  · rcases Nat.eq_zero_or_pos (actPeriod e) with hp | hp
    · rw [State.actNext_of_once s i hp, aget_adel_ne _ hj]
    · rw [State.actNext_of_period s i hp, aget_aput_ne _ _ hj]

end Sys2Proof.Machine

/-! SUPPORT. Collectives up to their data phase (R494, R495, R499, R500, R511, R521): what a RUN op's repeat does with a slot free and its checks passed. Which
fields of a descriptor are checked, and when, follows log entry 78. -/
namespace Sys2Proof.Machine
open Sys2Proof

/-- The collective c of the repeat in hand, whose descriptor can be read and passes R499, and whose ranges pass R500. -/
theorem State.armColl_of_checked {s : State} {x : OpCtx} {c : Coll} (hc : c = s.collOf x (opF x.op 2 39 0))
    (haddr : s.collAddr [(opF x.op 2 39 0, 128)] = none) (hok : c.ok x.step = true) (hranges : s.rangeFault x.step c.ranges = none) :
    s.armColl x = s.armed x c := by
  subst hc
  unfold State.armColl
  simp only [haddr, hok, hranges, Bool.not_true, Bool.false_eq_true, if_false]

/-- A RUN op that starts in u and still has its repeat y in hand there, with a slot free at its sequencer and its core. -/
theorem State.runColl_of_slot {s u : State} {slot core : Nat} {x y : OpCtx} (hx : s.active slot core instCollect = some x) (hend : x.atEnd = false)
    (hcode : opCode x.op = 1) (hu : u = s.startOp x (runOk x)) (hy : u.active slot core instCollect = some y) (hmay : u.mayArm core = true) :
    s.runColl slot core = u.armColl y := by
  subst hu
  unfold State.runColl
  simp only [hx, hend, hcode, hy, hmay, Bool.false_eq_true, ne_eq, not_true_eq_false, if_true, if_false]

theorem execCollectSlotFree_of_waiting {s : State} {slot : StepIx} {seq : Fin 16} {core : Nat}
    (hcore : s.col.waiting.find? (fun c => c / 8 == seq.val && s.mayArm c) = some core) : execCollectSlotFree slot seq s = .next (s.runColl slot core) := by
  unfold execCollectSlotFree
  rw [hcore]

/-- The collective at the head of its core, of a form whose lengths need no dispatch area, in a running step. -/
theorem execCollectDataStart_of_equal {s : State} {core : LCore} {c : Coll} {t : Step} (hc : s.collHead core.val = some c) (ht : s.step? c.slot = some t)
    (hidle : c.started = false) (hrun : t.phase = .running) (hequal : c.unequal = false) : execCollectDataStart core s = .next (s.beginData c t 0) := by
  unfold execCollectDataStart State.startColl
  simp only [hc, ht, hidle, hrun, hequal, bne_self_eq_false, Bool.or_self, Bool.not_false, Bool.false_eq_true, if_true, if_false]

theorem execCollectGateOpen_of_due {s : State} {core : LCore} {c : Coll} {t : Step} (hc : s.collHead core.val = some c) (ht : s.step? c.slot = some t)
    (hgate : c.gate = 2) (hdue : t.startTime + c.gateNs ≤ s.time.ft) :
    execCollectGateOpen core s = .next (s.modColl c.no fun v => { v with gate := 3 }) := by
  unfold execCollectGateOpen
  simp only [hc, ht]
  exact next_if_pos ⟨hgate, hdue⟩

/-- Settles O50: the RUN op finds a slot and its checks pass, or the collective at the head of its core is due to start or to open its gate. -/
theorem collectArmsAndStarts : Obligations.CollectArmsAndStarts := by
  refine ⟨?_, ?_, ?_, ?_⟩
  · intro s slot core x y u hx hop hy haddr hchecks
    obtain ⟨hend, hcode, hu⟩ := hop
    exact congrArg Host.Outcome.next
      ((State.runColl_of_slot hx hend hcode hu hy.1 hy.2).trans (State.armColl_of_checked rfl haddr hchecks.1 hchecks.2))
  · intro s slot seq core x y u hwait hx hop hy haddr hchecks
    obtain ⟨hend, hcode, hu⟩ := hop
    exact (execCollectSlotFree_of_waiting hwait).trans (congrArg Host.Outcome.next
      ((State.runColl_of_slot hx hend hcode hu hy.1 hy.2).trans (State.armColl_of_checked rfl haddr hchecks.1 hchecks.2)))
  · intro s core c t hc hstart
    obtain ⟨ht, hidle, hrun, hequal⟩ := hstart
    exact execCollectDataStart_of_equal hc ht hidle hrun hequal
  · intro s core c t hc ht hgate
    exact execCollectGateOpen_of_due hc ht hgate.1 hgate.2

end Sys2Proof.Machine

/-! SUPPORT. The data phase of a collective (R507, R511–R514, R517, R529): what a member does with a cell of its collective, with a chunk to send, and when it is done. -/
namespace Sys2Proof.Machine
open Sys2Proof

/-- A collective with the receive from member h in a phase replaced, where it has one. -/
def Coll.modRx (v : Coll) (p h : Nat) (g : CollRx → CollRx) : Coll := match v.rxOf p h with
  | some q => v.setRx (g q)
  | none => v

/-- A GRANT from member h for the collective c, which sends to it as w. -/
theorem execGrantReceive_of_hit {s u : State} {src : Endpoint} {fr : Frame} {no h : Nat} {c : Coll} {w : CollTx}
    (htake : s.takeColl src.toNat 1 = some (fr, u)) (hhit : u.matchColl fr = .hit no h) (hc : u.coll? no = some c)
    (hw : c.txOf (recBits fr.body 4 1 6 6) h = some w) :
    execGrantReceive src s = .next ((u.modColl no fun v =>
      { (v.setTx { w with granted := max w.granted (recNat fr.body 8 4), done := max w.done (recBits fr.body 12 4 30 0)
                          sizesSeen := w.sizesSeen || recBits fr.body 12 4 31 31 == 1 }) with
        rx := v.rx.map fun r => if r.peer = h then { r with heardAt := u.time.nowNs } else r }).progress c.slot c.core instCollect) := by
  unfold execGrantReceive
  simp only [htake, hhit, hc, hw]

/-- DATA from member h, within what it was granted of a receive of known length, that no fold waits for; w is the state with the bytes in place. -/
theorem execCollectDataReceive_of_placed {s u w : State} {src : Endpoint} {fr : Frame} {no h p lo n m : Nat} {bad : Bool} {c : Coll} {r : CollRx} {t : Step}
    (htake : s.takeColl src.toNat 0 = some (fr, u)) (hhit : u.matchColl fr = .hit no h) (hc : u.coll? no = some c)
    (hp : p = recBits fr.body 4 1 6 6) (hlo : lo = recNat fr.body 8 4) (hn : n = recBits fr.body 12 4 11 0 + 1)
    (hbad : bad = (recBits fr.body 12 4 12 12 == 1)) (hr : c.rxOf p h = some r) (ht : u.step? c.slot = some t) (hm : r.len = some m)
    (hlen : lo + n ≤ m) (hgrant : lo + n ≤ r.granted * c.chunk) (hop : c.op ≠ 6) (hreduces : c.reduces = false)
    (hw : w = ((u.modColl no fun v => v.setRx { r with heardAt := u.time.nowNs }).progress c.slot c.core instCollect).collPut no
      (State.collDst ((u.modColl no fun v => v.setRx { r with heardAt := u.time.nowNs }).progress c.slot c.core instCollect) c t.rank p h + lo)
      (byteField fr.body 16 n) bad) :
    execCollectDataReceive src s = .next ((w.modColl no fun v => v.modRx p h fun q =>
      { q with got := mergeGot q.got lo (lo + n) }).advanceRx no p h) := by
  subst hp hlo hn hbad hw
  unfold execCollectDataReceive
  simp only [htake, hhit, hc, hr, ht, hm, Nat.not_lt.2 hlen, Nat.not_lt.2 hgrant, hop, hreduces, Bool.false_eq_true, false_and, or_self, if_false]
  rfl

/-- DATA from member h in the first phase of a reduction, within what it was granted: it is kept for the fold of its chunk. -/
theorem execCollectDataReceive_of_folded {s u : State} {src : Endpoint} {fr : Frame} {no h lo n m : Nat} {bad : Bool} {c : Coll} {r : CollRx} {t : Step}
    (htake : s.takeColl src.toNat 0 = some (fr, u)) (hhit : u.matchColl fr = .hit no h) (hc : u.coll? no = some c)
    (hp : recBits fr.body 4 1 6 6 = 0) (hlo : lo = recNat fr.body 8 4) (hn : n = recBits fr.body 12 4 11 0 + 1)
    (hbad : bad = (recBits fr.body 12 4 12 12 == 1)) (hr : c.rxOf 0 h = some r) (ht : u.step? c.slot = some t) (hm : r.len = some m)
    (hlen : lo + n ≤ m) (hgrant : lo + n ≤ r.granted * c.chunk) (hop : c.op ≠ 6) (hreduces : c.reduces = true) :
    execCollectDataReceive src s = .next ((((u.modColl no fun v => v.setRx { r with heardAt := u.time.nowNs }).progress c.slot c.core instCollect).modColl no
      fun v => { v with stage := addPiece v.stage (lo / c.chunk, h) (lo % c.chunk, byteField fr.body 16 n, bad) }).foldAll no) := by
  subst hlo hn hbad
  unfold execCollectDataReceive
  simp only [htake, hhit, hc, hp, hr, ht, hm, Nat.not_lt.2 hlen, Nat.not_lt.2 hgrant, hop, hreduces, false_and, and_self, or_self, if_true, if_false]

/-- SIZES from member h to an A2AV_RET that has started, whose count agrees with its area. -/
theorem execSizesReceive_of_ret {s u : State} {src : Endpoint} {fr : Frame} {no h : Nat} {c : Coll} {r : CollRx} {t : Step} (entries : List DWord)
    (htake : s.takeColl src.toNat 2 = some (fr, u)) (hhit : u.matchColl fr = .hit no h) (hc : u.coll? no = some c) (hr : c.rxOf 0 h = some r)
    (ht : u.step? c.slot = some t) (hop : c.op = 6) (hstarted : c.started = true) (hcap : recNat fr.body 8 4 ≤ c.rxCap)
    (harea : recNat fr.body 8 4 = u.ldNat (c.area + 64 + 16 * c.memberRank t.rank h) 4) :
    execSizesReceive src entries s = .next ((((u.modColl no fun v => v.setRx { r with
      sizes := some (recNat fr.body 8 4), len := some (recNat fr.body 8 4 * c.rowBytes), heardAt := u.time.nowNs }).progress c.slot c.core instCollect).modColl no
      fun v => v.modRx 0 h fun q => { q with done := max q.done (v.doneOf q) }).sendGrant no 0 h) := by
  have hunequal : c.unequal = true := by unfold Coll.unequal; rw [hop]; rfl
  have hbad : ¬ ((!c.unequal) = true ∨ c.rxCap < recNat fr.body 8 4) := by
    rw [hunequal]
    exact fun h => h.elim Bool.false_ne_true (Nat.not_lt.2 hcap)
  have hearly : ¬ (c.op = 6 ∧ (!c.started) = true) := by rw [hstarted]; exact fun h => Bool.false_ne_true h.2
  have hlist : ¬ (c.op = 5 ∧ r.sizes.isNone = true) := by rw [hop]; exact fun h => absurd h.1 (by decide)
  unfold execSizesReceive
  simp only [htake, hhit, hc, hr, ht]
  rw [if_neg hbad, if_neg hearly, if_neg (fun h => h.2 harea), if_neg hlist]
  rfl

/-- The first member h in turn that has a chunk granted, in u the chunk sent; no SIZES cell is due to h then. -/
theorem execCollectChunkSend_of_chunk {s u : State} {core : LCore} {c v : Coll} {t : Step} {h p lo : Nat} {bytes : List Byte} {bad : Bool}
    (hc : s.collHead core.val = some c) (ht : s.step? c.slot = some t) (hstarted : c.started = true)
    (hphase : (t.phase == .running || t.phase == .prepared) = true)
    (hturn : ((List.range c.size).map fun k => (c.turn + 1 + k) % c.size).find?
      (fun h => h != c.own && ((s.nextChunk c t.rank h).isSome || c.sizesDue h)) = some h)
    (hchunk : s.nextChunk c t.rank h = some (p, bytes, bad, lo))
    (hu : u = (if c.srcQ then s else s.access ((c.src + c.srcOff h + lo) % 2 ^ 40) bytes.length false true).sendChunk c t h p lo bytes bad)
    (hv : u.coll? c.no = some v) (hdue : v.sizesDue h = false) : execCollectChunkSend core s = .next u := by
  subst hu
  unfold execCollectChunkSend
  simp only [hc, ht, hstarted, hphase, hturn, hchunk, hv, hdue, Bool.not_true, Bool.or_self, Bool.false_eq_true, if_false]

/-- A finished collective that writes no list header; u is the state with its slot freed and counted. -/
theorem execCollectComplete_of_finished {s u : State} {core : LCore} {c : Coll} (hc : s.collHead core.val = some c) (hdone : c.finished = true) (hop : c.op ≠ 5)
    (hu : u = ((s.setCol { s.col with colls := s.col.colls.filter (·.no != c.no), complete := s.col.complete ++ [(c.slot, c.node, c.rep % 256)] }).bumpWrap
      (fCOL_SEQ_DONE_COUNT (c.core / 8))).progress c.slot c.core instCollect) :
    execCollectComplete core s = .next ((if !c.dstQ && c.outQ != noQ then u.modInst c.slot c.core instCollect fun v =>
      { v with outbox := v.outbox ++ [{ q := c.outQ, tile := c.doneTile, origin := 6, node := c.node, rep := c.rep }] } else u).collOpEnd c) := by
  subst hu
  unfold execCollectComplete
  simp only [hc, hdone, hop, Bool.not_true, Bool.false_eq_true, if_false]

/-- The resends owed to a peer that the collective c sends to as w. -/
theorem execCollectResendTimeout_of_sender {s : State} {core : LCore} {node peer : Half} {rep : Byte} {c : Coll} {w : CollTx}
    (hc : s.col.colls.find? (fun c => c.core == core.val && c.node == node.toNat && c.rep % 256 == rep.toNat) = some c) (hw : c.txOf 0 peer.toNat = some w) :
    execCollectResendTimeout core node rep peer s = .next (if w.sizesSent && !w.sizesSeen && decide (w.sizesAt + s.resendNs ≤ s.time.nowNs)
      then (State.sendSizes ((c.rx.filter (s.grantOwed c peer.toNat)).foldl
        (fun st r => (st.sendGrant c.no r.phase peer.toNat).bumpSat fCOL_RESENDS_COUNT) s) c.no peer.toNat).bumpSat fCOL_RESENDS_COUNT
      else (c.rx.filter (s.grantOwed c peer.toNat)).foldl (fun st r => (st.sendGrant c.no r.phase peer.toNat).bumpSat fCOL_RESENDS_COUNT) s) := by
  unfold execCollectResendTimeout
  simp only [hc, hw]

/-- Settles O51: the cell belongs to a collective that is armed, or the collective at the head of its core has a chunk to send, is finished, or owes a resend. -/
theorem collectMovesAndEnds : Obligations.CollectMovesAndEnds := by
  refine ⟨?_, ?_, ?_, ?_, ?_, ?_, ?_⟩
  · intro s src fr u no h c w htake hhit hc hw
    exact execGrantReceive_of_hit htake hhit hc hw
  · intro s src fr u w no h p lo n m bad c r t htake hhit hc hcell hrx hroom hw
    obtain ⟨hp, hlo, hn, hbad⟩ := hcell
    obtain ⟨hr, ht, hm⟩ := hrx
    obtain ⟨hlen, hgrant, hop, hreduces⟩ := hroom
    exact execCollectDataReceive_of_placed htake hhit hc hp hlo hn hbad hr ht hm hlen hgrant hop hreduces hw
  · intro s src fr u no h lo n m bad c r t htake hhit hc hcell hrx hroom
    obtain ⟨hp, hlo, hn, hbad⟩ := hcell
    obtain ⟨hr, ht, hm⟩ := hrx
    obtain ⟨hlen, hgrant, hop, hreduces⟩ := hroom
    exact execCollectDataReceive_of_folded htake hhit hc hp hlo hn hbad hr ht hm hlen hgrant hop hreduces
  · intro s src entries fr u no h c r t htake hhit hc hrx hsizes
    obtain ⟨hop, hstarted, hcap, harea⟩ := hsizes
    exact execSizesReceive_of_ret entries htake hhit hc hrx.1 hrx.2 hop hstarted hcap harea
  · intro s core c v t h p lo bytes bad u hc hstep hturn hchunk hu hdue
    obtain ⟨ht, hstarted, hphase⟩ := hstep
    exact execCollectChunkSend_of_chunk hc ht hstarted hphase hturn hchunk hu hdue.1 hdue.2
  · intro s core c u hc hdone hu
    exact execCollectComplete_of_finished hc hdone.1 hdone.2 hu
  · intro s core node rep peer c w hc hw
    exact execCollectResendTimeout_of_sender hc hw

end Sys2Proof.Machine

/-! SUPPORT. The references of fabric time, its state and the commands SOURCE, STEP and ASYM (R533–R538, R540, R542, R563). That STEP clears TIME_FAR and the severities of TIME
records are choices of the model (log entry 56). -/
namespace Sys2Proof.Machine
open Sys2Proof

/-! ### The reference inputs -/

/-- A record of 16 bytes whose CRC and reserved bits are right and which is marked valid (R533). -/
theorem execTodRecordWrite_of_good {s : State} {rec : List Byte} (hlen : rec.length = 16)
    (hgood : recNat rec 12 4 = crc32c (rec.take 12) ∧ recBits rec 8 1 7 2 = 0 ∧ recNat rec 9 3 = 0 ∧ recBits rec 8 1 0 0 = 1) :
    execTodRecordWrite rec s = .next ((((s.setF fTIME_STATUS_TOD_OK 1).setF fTIME_TOD_UTC_OFFSET (recNat rec 6 2)).setF fTIME_TOD_LEAP_PENDING
      (recBits rec 8 1 1 1)).setSteer { s.steer with tod := some (recNat rec 0 6, s.time.nowNs), firstEdge := true }) := by
  have hrec : (rec ++ List.replicate 16 0).take 16 = rec := by
    rw [List.take_append_of_le_length (Nat.le_of_eq hlen.symm), List.take_of_length_le (Nat.le_of_eq hlen)]
  unfold execTodRecordWrite
  simp only [hrec]
  exact next_if_pos ⟨hlen, hgood⟩

/-- The first edge after a record that names the second `sec`, with fabric time unset; t is the state with the edge noted. -/
theorem execPpsEdge_of_first {s t : State} {sec : Nat} (hfirst : s.steer.firstEdge = true) (hsec : s.todNow = some sec) (hunset : s.timeState = 0)
    (ht : t = (s.setF fTIME_STATUS_PPS_OK 1).setSteer { s.steer with ppsAt := some s.time.nowNs, firstEdge := false }) :
    execPpsEdge s = .next (((({ t with time := { t.time with ft := 1000000000 * sec, ftFrac := 0 } } : State).setTimeState 1).setSteer
      { t.steer with tod := none, good := 0 }).sourceCheck) := by
  subst ht
  unfold execPpsEdge
  simp only [hfirst, hsec, hunset, Bool.not_true, Bool.and_false, Bool.false_eq_true, if_true, if_false]

theorem execPpsTimeout_of_over {s : State} {t : Nat} (ht : s.steer.ppsAt = some t) (hok : s.isSet fTIME_STATUS_PPS_OK = true)
    (hover : t + 1500000000 ≤ s.time.nowNs) : execPpsTimeout s = .next ((s.setF fTIME_STATUS_PPS_OK 0).bumpSat fTIME_EVENTS_PPS_MISSED) := by
  unfold execPpsTimeout
  rw [ht]
  exact next_if_pos (by rw [hok, decide_eq_true hover]; rfl)

/-! ### The time state -/

/-- While LOCKED the source in use stops being good and there is no other; t is HOLDOVER with its record. -/
theorem execTimeSourceLoss_of_none {s t : State} (hlocked : s.timeState = 2)
    (hlost : s.sourceGood (if s.isSet fTIME_STATUS_ON_SECONDARY then s.secondary else s.primary) = false) (hnone : s.source = .none)
    (ht : t = ((s.bumpSat fTIME_EVENTS_LOCK_LOSS).setTimeState 3).timeRec 2 1 0 0) :
    execTimeSourceLoss s = .next (t.setSteer { t.steer with holdAt := s.time.nowNs }) := by
  subst ht
  unfold execTimeSourceLoss
  simp only [hlocked, hlost, hnone, bne_self_eq_false, Bool.or_self, Bool.false_eq_true, if_true, if_false]

/-! ### The commands -/

/-- SOURCE with both sources and the holdover time in range. -/
theorem State.tcSource_of_inRange {s : State} {f : InFlight} {d : List Byte} (hd : d = f.desc) (hpri : recNat d 9 1 ≠ 3) (hsec : recNat d 12 1 ≠ 3)
    (hpriPort : recNat d 10 1 < 34) (hsecPort : recNat d 13 1 < 34) (hpriSub : recNat d 11 1 = 0xFF ∨ recNat d 11 1 < 16)
    (hsecSub : recNat d 14 1 = 0xFF ∨ recNat d 14 1 < 16) (hlo : 1 ≤ recNat d 15 1) (hhi : recNat d 15 1 ≤ 60) :
    s.tcSource f = ((((((((s.setF fTIME_SOURCE_PRI_KIND (recNat d 9 1)).setF fTIME_SOURCE_PRI_PORT (recNat d 10 1)).setF fTIME_SOURCE_PRI_SUB
      (recNat d 11 1 % 16)).setF fTIME_SOURCE_SEC_KIND (recNat d 12 1)).setF fTIME_SOURCE_SEC_PORT (recNat d 13 1)).setF fTIME_SOURCE_SEC_SUB
      (recNat d 14 1 % 16)).setF fTIME_SOURCE_HOLDOVER_S (recNat d 15 1)).setSteer { s.steer with good := 0, ppsThetas := [] }).sourceCheck.finish f 0xC0 [] := by
  subst hd
  refine if_neg ?_
  simp only [Nat.reduceAdd, Bool.or_eq_true, Bool.and_eq_true, beq_iff_eq, bne_iff_ne, decide_eq_true_eq]
  omega

/-- STEP once fabric time is set and no sub-port is in use. -/
theorem State.tcStep_of_idle {s : State} {f : InFlight} (hset : s.ftSet = true) (hidle : s.portsUp = false) :
    s.tcStep f = ((((({ s with time := { s.time with ft := (s.time.ft + recNat f.desc 16 8) % 2 ^ 64 } } : State).setSteer
      { s.steer with ppsThetas := [] }).dropAllKeys).setTimeState 1).setF fTIME_STATUS_TIME_FAR 0).finish f 0xC0 [] := by
  unfold State.tcStep
  simp only [hset, hidle, Bool.not_true, Bool.false_eq_true, if_false]

theorem State.tcAsym_of_port {s : State} {f : InFlight} (hport : recNat f.desc 9 1 < 34) :
    s.tcAsym f = (s.setF (fTIME_PORT_ASYM_ASYM (recNat f.desc 9 1)) (recNat f.desc 10 2)).finish f 0xC0 [] := if_neg (Nat.not_le.2 hport)

/-- Settles O52: the record, the edge or the time that has passed is as the clause says, and a command's fields are in range. -/
theorem timeReferencesAndState : Obligations.TimeReferencesAndState := by
  refine ⟨?_, ?_, ?_, ?_, ?_, ?_, ?_, ?_⟩
  · intro s rec hrec
    exact execTodRecordWrite_of_good hrec.1 hrec.2
  · intro s sec t hedge ht
    obtain ⟨hfirst, hsec, hunset⟩ := hedge
    exact execPpsEdge_of_first hfirst hsec hunset ht
  · intro s t hlate
    obtain ⟨ht, hok, hover⟩ := hlate
    exact execPpsTimeout_of_over ht hok hover
  · intro s t hloss hnone ht
    exact execTimeSourceLoss_of_none hloss.1 hloss.2 hnone ht
  · intro s hover
    exact next_if_pos (by rw [hover.1, decide_eq_true hover.2]; rfl)
  · intro s sq f d hcmd hact hsources hrest
    obtain ⟨hd, hpri, hsec, hpriPort, hsecPort⟩ := hsources
    obtain ⟨hpriSub, hsecSub, hlo, hhi⟩ := hrest
    exact next_ringAction_eq hcmd hact (State.tcSource_of_inRange hd hpri hsec hpriPort hsecPort hpriSub hsecSub hlo hhi)
  · intro s sq f hcmd hact hidle
    exact next_ringAction_eq hcmd hact (State.tcStep_of_idle hidle.1 hidle.2)
  · intro s sq f hcmd hact hport
    exact next_ringAction_eq hcmd hact (State.tcAsym_of_port hport)

end Sys2Proof.Machine

/-! SUPPORT. Rails, phases, clocks and the power limit (R578, R581–R583, R585, R587, R588, R590). Which spare phase comes in first, and the free reduction that is counted once for
each event, are choices of the model (log entry 84). -/
namespace Sys2Proof.Machine
open Sys2Proof

/-- A rail that was in range until now; t is the state with the alert and its record. -/
theorem execRailOutOfRange_of_new {s u t : State} {rail : Fin 5} {mv : Half} (hpor : s.boot.por = true) (hin : s.boot.railsOut.contains rail.val = false)
    (hu : u = s.setBoot { s.boot with railsOut := insNat rail.val s.boot.railsOut })
    (ht : t = (u.powerRec 1 1 rail.val mv.toNat 3 (if rail.val < 2 && !u.faults.railHold then u.startLevel 4 .device else 0)).setF fTOP_ALERT_RAIL 1) :
    execRailOutOfRange rail mv s = .next (if rail.val < 2 then
      (if t.faults.railHold then t else ((t.setFaults { t.faults with railHold := true }).faultReset 4 .device false).showReset)
      else if rail.val < 4 then t.shutIo else t) := by
  subst hu ht
  exact next_if_neg (by rw [hpor, hin]; exact Bool.false_ne_true)

theorem execRailRestored_of_unheld {s : State} (rail : Fin 5) (hfree : s.faults.railHold = false) :
    execRailRestored rail s = .next (s.setBoot { s.boot with railsOut := s.boot.railsOut.filter (· != rail.val) }) := by
  refine next_if_neg ?_
  rw [show (s.setBoot { s.boot with railsOut := s.boot.railsOut.filter (· != rail.val) }).faults.railHold = false from hfree]
  exact Bool.false_ne_true

/-- A phase that had not failed, with 22 of its bank left: it is marked, and a spare comes in for it where it was in use and a spare is left. -/
theorem State.phaseFail_of_enough {s : State} {n i : Nat} (hnew : (s.getF (fSPN_PHASES_FAILED n)).testBit i = false)
    (henough : 23 ≤ s.getF (fSPN_PHASES_HEALTHY n)) :
    s.phaseFail n i = State.showCeiling (((s.setF (fSPN_PHASES_FAILED n) (s.getF (fSPN_PHASES_FAILED n) + 2 ^ i)).setF (fSPN_PHASES_HEALTHY n)
      (s.getF (fSPN_PHASES_HEALTHY n) - 1)).setF (fSPN_PHASES_SPARES_USED n)
      (if (decide (i < 22) || (sparesIn (s.getF (fSPN_PHASES_FAILED n)) (s.getF (fSPN_PHASES_SPARES_USED n))).contains i) &&
          !(([22, 23].filter fun x => !(sparesIn (s.getF (fSPN_PHASES_FAILED n)) (s.getF (fSPN_PHASES_SPARES_USED n))).contains x &&
            !(s.getF (fSPN_PHASES_FAILED n)).testBit x && x != i).isEmpty)
        then s.getF (fSPN_PHASES_SPARES_USED n) + 1 else s.getF (fSPN_PHASES_SPARES_USED n))) n := by
  have hleft : 22 ≤ s.getF (fSPN_PHASES_HEALTHY n) - 1 := by omega
  exact (if_neg (Bool.eq_false_iff.1 hnew)).trans (if_pos hleft)

/-- The first failed phase of a stack. -/
theorem execHbmPhaseFail_of_first {s : State} {stack : SpanIx} (hnone : (aget s.clk.hbmFailed stack.val).getD 0 = 0) :
    execHbmPhaseFail stack s = .next (s.setClk { s.clk with hbmFailed := aput s.clk.hbmFailed stack.val 1 }) := by
  unfold execHbmPhaseFail
  dsimp only
  rw [hnone]
  exact next_if_neg (by decide)

/-- The second failed phase of a stack holds its span (R583). -/
theorem execHbmPhaseFail_of_second {s : State} {stack : SpanIx} (hone : (aget s.clk.hbmFailed stack.val).getD 0 = 1) :
    execHbmPhaseFail stack s = .next ((((s.setClk { s.clk with hbmFailed := aput s.clk.hbmFailed stack.val 2 }).powerRec 2 4 stack.val 2 2
      ((s.setClk { s.clk with hbmFailed := aput s.clk.hbmFailed stack.val 2 }).startLevel 3 (.span stack.val))).setF fTOP_ALERT_PHASES 1).holdPhases
      stack.val true) := by
  unfold execHbmPhaseFail
  dsimp only
  rw [hone]
  exact next_if_pos (by decide)

/-- A reduction begins with input power above 1.10 × the cap, in u the event counted. -/
theorem execPowerLimitEvent_of_above {s u : State} {watts : Half} (habove : s.getF fTOP_POWER_CAP_W * 11 < watts.toNat * 10) (hnone : s.power.capRed = 0)
    (hu : u = s.bumpSat fTOP_POWER_LIMIT_EVENTS) :
    execPowerLimitEvent watts s = .next (State.showApplied { u.drew with power := { u.power with capRed := Config.free u.freeCtr % 256 + 1 } }) := by
  subst hu
  unfold execPowerLimitEvent
  simp only [habove, hnone, if_true]

/-- Settles O19: the rail, the phase, the clock or the power is as the clause says, which leaves the command its one branch. -/
theorem regulatorsClocksPower : Obligations.RegulatorsClocksPower := by
  refine ⟨?_, ?_, ?_, ?_, ?_, ?_, ?_, ?_, ?_, ?_⟩
  · intro s rail mv u t hpor hin hu ht
    exact execRailOutOfRange_of_new hpor hin hu ht
  · intro s rail hfree
    exact execRailRestored_of_unheld rail hfree
  · intro s span phase hnew henough
    exact congrArg Host.Outcome.next (State.phaseFail_of_enough hnew henough)
  · intro s stack hnone
    exact execHbmPhaseFail_of_first hnone
  · intro s stack hone
    exact execHbmPhaseFail_of_second hone
  · intro s span hnew hfree
    exact next_if_neg fun h => h.elim hnew fun hbusy => absurd (hbusy.symm.trans (congrArg not hfree)) (by decide)
  · intro s span
    rfl
  · intro s span
    rfl
  · intro s watts habove hnone
    exact execPowerLimitEvent_of_above habove hnone rfl
  · intro s watts habove hbelow
    exact congrArg Host.Outcome.next ((if_neg habove).trans (if_pos hbelow))

end Sys2Proof.Machine

/-! SUPPORT. The Marul links (R592–R600). That links 2 and 3 detour round the square, and that held flits go out again on the detour at once, are choices of the model (log
entry 85). -/
namespace Sys2Proof.Machine
open Sys2Proof

/-- Records exchanged over a link that is down, with the device on, out of POR and not tripped, are looked at. -/
theorem capExchange_open {s : State} {k : Nat} (hon : s.boot.on = true) (hpor : s.boot.por = true) (htrip : s.power.tripped = false)
    (hdown : (s.getF (fD2D_LINK0_STATE k) == 2) = false) : ¬ (!s.boot.on || !s.boot.por || s.power.tripped || s.getF (fD2D_LINK0_STATE k) == 2) = true := by
  rw [hon, hpor, htrip, hdown]
  exact Bool.false_ne_true

/-- A link between compute dies, or between I/O dies. -/
theorem execMarulCapExchange_of_inner {s : State} {link : Fin 7} (first second : List Byte) (repaired : Byte)
    (hopen : ¬ (!s.boot.on || !s.boot.por || s.power.tripped || s.getF (fD2D_LINK0_STATE link.val) == 2) = true) (hinner : link.val ≠ 4 ∧ link.val ≠ 5) :
    execMarulCapExchange link first second repaired s = .next ((s.trainLink link.val (byteField first 0 32) (byteField second 0 32)).setF
      (fD2D_LINK0_LANES_REPAIRED link.val) repaired.toNat) :=
  congrArg Host.Outcome.next ((if_neg hopen).trans (if_neg fun h => h.elim hinner.1 hinner.2))

/-- The link of I/O die i, whose record its compute die accepts. -/
theorem execMarulCapExchange_of_accepted {s : State} {link : Fin 7} {first second a b : List Byte} {repaired : Byte} {i : Nat}
    (hopen : ¬ (!s.boot.on || !s.boot.por || s.power.tripped || s.getF (fD2D_LINK0_STATE link.val) == 2) = true) (hlink : link.val = i + 4) (hi : i < 2)
    (ha : a = byteField first 0 32) (hb : b = byteField second 0 32) (hok : s.capOk i a b = true) :
    execMarulCapExchange link first second repaired s = .next ((((s.showCap i a b true).trainLink link.val a b).setF
      (fD2D_LINK0_LANES_REPAIRED link.val) repaired.toNat).checkHost) := by
  subst ha hb
  have hio : link.val = 4 ∨ link.val = 5 := by omega
  have hdie : link.val - 4 = i := by omega
  refine congrArg Host.Outcome.next ((if_neg hopen).trans ((if_pos hio).trans ?_))
  simp only [hdie, hok, if_true]

/-- A flit that its end of a link that is up may send; d is that end with the flit sent. -/
theorem execMarulFlitReceive_of_sent {s : State} {link : Fin 7} {rev : Bool} {sent : List Byte} {d : MarulDir} (recv : List Byte)
    (hup : s.d2dUp link.val = true) (hgood : flitGood sent = true) (hsent : (s.mdir link.val rev).sent sent s.time.nowNs = some d) :
    execMarulFlitReceive link rev sent recv s = .next ((s.setMdir link.val rev d).flitIn link.val rev recv) := by
  unfold execMarulFlitReceive
  simp only [hup, hgood, hsent, Bool.not_true, Bool.or_self, Bool.false_eq_true, if_false]

/-- A first NAK for an end d that holds flits; u is the state with the resend counted. -/
theorem execMarulNakReceive_of_held {s u : State} {link : Fin 7} {rev : Bool} {d : MarulDir} {a : Nat} (hd : d = s.mdir link.val rev)
    (hnak : d.nakIn = some a) (hfirst : d.again = none) (hheld : d.held ≠ [])
    (hu : u = (s.setMdir link.val rev { d with nakIn := none, again := some ((a + 1) % 4096, 1) }).bumpSat (fD2D_LINK1_RESENDS link.val)) :
    execMarulNakReceive link rev s = .next (d.held.foldl (fun st e => st.emit (.flit link.val 2 e.1 e.2))
      (u.setMlink link.val { u.mlink link.val with cleanAt := s.time.nowNs })) := by
  subst hd hu
  unfold execMarulNakReceive
  simp only [hnak, hfirst, List.isEmpty_eq_false_iff.2 hheld, Bool.false_eq_true, if_false]

/-- A link that is up and cannot repair its lanes or is stuck in a direction; u has its flits on the detour, w has it DOWN and counted. -/
theorem execMarulLinkDown_of_stuck {s u w : State} {link : Fin 7} {lanes : Bool} (hup : s.d2dUp link.val = true)
    (hstuck : (lanes || (s.mdir link.val false).stuck s.time.nowNs || (s.mdir link.val true).stuck s.time.nowNs) = true)
    (hu : u = (s.moveToDetour link.val false).moveToDetour link.val true)
    (hw : w = (((u.setMlink link.val { u.mlink link.val with trained := false }).setF (fD2D_LINK0_STATE link.val) 3).bumpSat
      (fD2D_LINK2_DETOURS link.val)).bumpSat (fD2D_LINK2_DOWN_EVENTS link.val)) :
    execMarulLinkDown link lanes s = .next ((w.setF fTOP_ALERT_D2D 1).powerRec 3 10 link.val (w.getF (fD2D_LINK2_DOWN_EVENTS link.val)) 2) := by
  subst hu hw
  exact next_if_pos (by rw [hup, hstuck]; rfl)

/-- Settles O28: the link is down or up, and has a flit, a NAK or an acknowledgement in hand, as the clause says. -/
theorem marulLinksComplete : Obligations.MarulLinksComplete := by
  refine ⟨?_, ?_, ?_, ?_, ?_, ?_, ?_⟩
  · intro s link first second repaired hopen hinner
    obtain ⟨hon, hpor, htrip, hdown⟩ := hopen
    exact execMarulCapExchange_of_inner first second repaired (capExchange_open hon hpor htrip hdown) hinner
  · intro s link first second repaired i a b hopen hlink hok
    obtain ⟨hon, hpor, htrip, hdown⟩ := hopen
    obtain ⟨hk, hi, ha, hb⟩ := hlink
    exact execMarulCapExchange_of_accepted (capExchange_open hon hpor htrip hdown) hk hi ha hb hok
  · intro s link rev sent recv d hgood hsent
    exact execMarulFlitReceive_of_sent recv hgood.1 hgood.2 hsent
  · intro s link rev d a n u hnak hu
    obtain ⟨hd, ha, hfirst, hheld⟩ := hnak
    exact execMarulNakReceive_of_held hd ha hfirst hheld hu
  · intro s link rev hdue
    exact next_if_pos (by rw [hdue.1, hdue.2]; rfl)
  · intro s link lanes u w hup hstuck hu hw
    exact execMarulLinkDown_of_stuck hup hstuck hu hw
  · intro s link hclean hacked
    obtain ⟨hstate, htrained, hsecond⟩ := hclean
    exact next_if_pos (by rw [hstate, htrained, decide_eq_true hsecond, hacked]; rfl)

end Sys2Proof.Machine

/-! SUPPORT. Sensor rounds, the throttle loop and the stops of housekeeping cores (R615, R616, R618, R622, R625–R627, R633, R636–R638). What a
round publishes follows log entry 86. -/
namespace Sys2Proof.Machine
open Sys2Proof

/-- A conversion of a sensor not yet converted in its round, whose position in its line is over; t is its temperature. -/
theorem execSensorConversion_of_due {s : State} {sensor : Fin 96} {raw : BitVec 20} {t : Int} (hpor : s.boot.por = true)
    (hround : (s.therm.roundNo == 0) = false) (hopen : s.therm.published = false) (hnew : aget s.therm.conv sensor.val = none)
    (hdue : s.therm.roundAt + 40000 * (sensor.val % 8 + 1) ≤ s.time.nowNs)
    (ht : t = tempQ raw.toNat (Config.sensorN0 sensor.val) (Config.sensorSlope sensor.val)) :
    execSensorConversion sensor raw s = .next ((s.setTherm { s.therm with
      conv := aput s.therm.conv sensor.val (s.converted sensor.val raw.toNat)
      latest := if raw.toNat = 0 ∨ implausible t then adel s.therm.latest sensor.val else aput s.therm.latest sensor.val (t, s.therm.roundNo) }).compareSensors) := by
  subst ht
  have hgo : (!s.boot.por || decide (s.therm.roundNo = 0) || s.therm.published || (aget s.therm.conv sensor.val).isSome ||
      decide (s.time.nowNs < s.therm.roundAt + 40000 * (sensor.val % 8 + 1))) = false := by
    rw [hpor, decide_eq_false (beq_eq_false_iff_ne.1 hround), hopen, hnew, decide_eq_false (Nat.not_lt.2 hdue)]
    rfl
  exact next_if_neg (Bool.eq_false_iff.1 hgo)

/-- A running core's write of the clock request of a span in its footing (R633). -/
theorem execHkFirmwareWrite_of_request {s : State} {core : HkIx} {field target : Byte} (value : Word) (hrun : s.hkState core.val = 2) (hfield : field.toNat = 0)
    (hduty : s.hkDuty core.val < 4) (hspan : target.toNat / 2 = s.hkDuty core.val) :
    execHkFirmwareWrite core field target value s = .next (s.setReq target.toNat value.toNat) :=
  congrArg Host.Outcome.next ((if_neg fun h => h hrun).trans ((if_neg (by omega)).trans
    ((if_pos ⟨by omega, hduty, hspan⟩).trans (if_pos hfield))))

/-- A running core's write of its watchdog. -/
theorem execHkFirmwareWrite_of_watchdog {s : State} {core : HkIx} {field : Byte} (target : Byte) (value : Word) (hrun : s.hkState core.val = 2)
    (hfield : field.toNat = 4) :
    execHkFirmwareWrite core field target value s = .next (s.setHk core.val { s.hkCore core.val with wdogAt := s.time.nowNs }) :=
  congrArg Host.Outcome.next ((if_neg fun h => h hrun).trans (if_pos hfield))

/-- Settles O29: the conversion, the round or the loop is due, or the core runs and its time has passed, which leaves the command its one branch. -/
theorem heatRoundAndLoops : Obligations.HeatRoundAndLoops := by
  refine ⟨?_, ?_, ?_, ?_, ?_, ?_, ?_, ?_⟩
  · intro s sensor raw t hround hdue ht
    obtain ⟨hpor, hsome, hopen, hnew⟩ := hround
    exact execSensorConversion_of_due hpor hsome hopen hnew hdue ht
  · intro s hdue
    exact next_if_pos (by rw [hdue.1, decide_eq_true hdue.2, Bool.or_true]; rfl)
  · intro s stackTemps vmon imon watts hdue
    obtain ⟨hpor, hsome, hopen, hover⟩ := hdue
    exact next_if_pos (by rw [hpor, hsome, hopen, decide_eq_true hover]; rfl)
  · intro s core req0 req1 hdue
    exact next_if_pos hdue
  · intro s core field target value hwrite
    obtain ⟨hrun, hfield, hduty, hspan⟩ := hwrite
    exact execHkFirmwareWrite_of_request value hrun hfield hduty hspan
  · intro s core field target value hwrite
    exact execHkFirmwareWrite_of_watchdog target value hwrite.1 hwrite.2
  · intro s core hlate
    exact next_if_pos hlate
  · intro s core hrun
    exact next_if_pos hrun

end Sys2Proof.Machine

/-! SUPPORT. The housekeeping and thermal commands (R587, R622, R632, R634, R635, R639, R642, R643). -/
namespace Sys2Proof.Machine
open Sys2Proof

/-- HK_LOAD of a core that no start waits for, for a die that no core serves once it has stopped; u has it stopped, v has it empty, and the image m is read in w. -/
theorem State.hkLoad_of_read {s u v w : State} {data : Option (List Byte)} {f : InFlight} {k die : Nat} {m : List Byte} (hk : k = recNat f.desc 8 1)
    (hdie : die = recNat f.desc 9 1) (hmay : dutyAllowed k die = true) (hsome : 0 < recNat f.desc 24 4) (hfits : recNat f.desc 24 4 ≤ 524288)
    (hidle : s.hkState k ≠ 1) (hother : k = 6 ∨ s.hkDuty 6 ≠ die) (hu : u = s.hkCmdStop k) (hfree : u.dutyCore die = none)
    (hv : v = u.setHk k { u.hkCore k with image := [], running := [], wait := none })
    (hread : v.hostGet f (recNat f.desc 16 8) (recNat f.desc 24 4) data = (w, some m)) :
    s.hkLoad data f = State.hkVerify (w.setHk k { w.hkCore k with image := m }) f k die m := by
  subst hk hdie hu hv
  have hbusy : ¬ (s.hkState (recNat f.desc 8 1) = 1 ∨ (recNat f.desc 8 1 ≠ 6 ∧ s.hkDuty 6 = recNat f.desc 9 1)) :=
    fun h => h.elim hidle fun hserved => hother.elim hserved.1 fun hne => hne hserved.2
  unfold State.hkLoad
  simp only [hmay, Nat.ne_of_gt hsome, Nat.not_lt.2 hfits, hbusy, hfree, hread, State.hkTake, Bool.not_true, decide_false, Bool.or_self, Bool.false_eq_true,
    if_false]

/-- The command that waits for a verified core's start. -/
theorem execHkStart_of_waiting {s : State} {core : HkIx} {no : Nat} {f : InFlight} (hno : (s.hkCore core.val).wait = some no)
    (hf : (s.hkRun core.val).flight no = some f) :
    execHkStart core s = .next ((s.hkRun core.val).finish f 0xD0
      (if f.opcode = 0x80 then leBytes 4 ((s.hkRun core.val).getF (fTHM_HK_VERSION_FW_VERSION core.val)) else [])) := by
  unfold execHkStart
  simp only [hno, hf]

/-- HK_RESTART of a core with an image that no start waits for. -/
theorem State.hkRestart_of_image {s : State} {f : InFlight} {k : Nat} (hk : k = recNat f.desc 8 1) (hlt : k < 7) (himage : (s.hkCore k).image ≠ [])
    (hidle : s.hkState k ≠ 1) : s.hkRestart f = (s.hkCmdStop k).hkVerify f k (s.hkDuty k) (s.hkCore k).image := by
  subst hk
  exact (if_neg fun h => h.elim (Nat.not_le.2 hlt) himage).trans (if_neg hidle)

/-- HK_STOP of a core with an image that no start waits for; u has it stopped without duty. -/
theorem State.hkStop_of_image {s u : State} {f : InFlight} {k : Nat} (hk : k = recNat f.desc 8 1) (hlt : k < 7) (himage : (s.hkCore k).image ≠ [])
    (hidle : s.hkState k ≠ 1) (hu : u = (s.hkCmdStop k).setF (fTHM_HK_STATUS_DUTY k) 7) :
    s.hkStop f = (State.fallbackOf (u.setHk k { u.hkCore k with running := [] }) (s.hkDuty k)).finish f 0xD0 [] := by
  subst hk hu
  exact (if_neg fun h => h.elim (Nat.not_le.2 hlt) himage).trans (if_neg hidle)

theorem State.thermalSet_of_inRange {s : State} {f : InFlight} {t g : Nat} (ht : t = recNat f.desc 8 1) (hg : g = recNat f.desc 9 1) (htlo : 80 ≤ t)
    (hthi : t ≤ 100) (hglo : 1 ≤ g) (hghi : g ≤ 10) : s.thermalSet f = ((s.setF fTHM_CFG_T_THR t).setF fTHM_CFG_GAIN g).finish f 0xD0 [] := by
  subst ht hg
  exact if_neg (by omega)

/-- Settles O30: the descriptor is the ring's next one, or the core's start is awaited, and the command's fields and the core's state are as the clause says. -/
theorem housekeepingCommands : Obligations.HousekeepingCommands := by
  refine ⟨?_, ?_, ?_, ?_, ?_, ?_, ?_⟩
  · intro s sq data f k die u v w m hcmd hfields hlen hfree hv hread
    obtain ⟨hk, hdie, hmay⟩ := hfields
    obtain ⟨hidle, hother, hu, hnone⟩ := hfree
    exact next_ringCmd_eq hcmd (State.hkLoad_of_read hk hdie hmay hlen.1 hlen.2 hidle hother hu hnone hv hread)
  · intro s core no f hno hf
    exact execHkStart_of_waiting hno hf
  · intro s sq f k hcmd hcore
    obtain ⟨hk, hlt, himage, hidle⟩ := hcore
    exact next_ringCmd_eq hcmd (State.hkRestart_of_image hk hlt himage hidle)
  · intro s sq f k u hcmd hcore hu
    obtain ⟨hk, hlt, himage, hidle⟩ := hcore
    exact next_ringCmd_eq hcmd (State.hkStop_of_image hk hlt himage hidle hu)
  · intro s sq f t g hcmd hfields
    obtain ⟨ht, hg, htlo, hthi, hglo, hghi⟩ := hfields
    exact next_ringCmd_eq hcmd (State.thermalSet_of_inRange ht hg htlo hthi hglo hghi)
  · intro s sq f hcmd
    exact next_ringCmd_eq hcmd rfl
  · intro s sq ok f u hcmd hput
    exact next_ringCmd_eq hcmd (by simp only [hput])

end Sys2Proof.Machine

/-! SUPPORT. Injection plans and due injections (R683–R688). That a plan ends with its last entry is a choice of the model (log entry 92). -/
namespace Sys2Proof.Machine
open Sys2Proof

/-- INJECT_PLAN of a plan that does not run, its 256 bytes read in u; w has them in the plan's registers. -/
theorem State.injectPlan_of_good {s u w : State} {data : Option (List Byte)} {f : InFlight} {d : List Byte} {k : Nat} (hk : k = recNat f.desc 8 1) (hlt : k < 16)
    (hon : s.isSet fINJ_CFG_ENABLE = true) (hidle : s.planRuns k = false) (hread : s.hostGet f (recNat f.desc 16 8) 256 data = (u, some d))
    (hgood : planOk ((List.range 16).map fun i => byteField d (16 * i) 16) 0 = true)
    (hw : w = (List.range 64).foldl (fun st w => st.setF (fINJ_PLAN_WORD k w) (recNat d (4 * w) 4)) u) :
    s.injectPlan data f = (w.setF fINJ_STATUS_LOADED (putBits (w.getF fINJ_STATUS_LOADED) k k 1)).finish f 0xE0 [] := by
  subst hk hw
  unfold State.injectPlan
  simp only [Nat.not_le.2 hlt, hon, hidle, hread, hgood, Bool.not_true, Bool.false_eq_true, if_false]

/-- INJECT_START of a loaded plan that does not run. -/
theorem State.injectStart_of_loaded {s : State} {f : InFlight} {k : Nat} (hk : k = recNat f.desc 8 1) (hlt : k < 16) (hon : s.isSet fINJ_CFG_ENABLE = true)
    (hloaded : (s.getF fINJ_STATUS_LOADED).testBit k = true) (hidle : s.planRuns k = false) :
    s.injectStart f = (s.startPlan k).finish f 0xE0 (leBytes 8 s.ftOrZero) := by
  subst hk
  unfold State.injectStart
  simp only [Nat.not_le.2 hlt, hon, hloaded, hidle, Bool.not_true, Bool.false_eq_true, if_false]

theorem State.injectCancel_of_named {s : State} {f : InFlight} (hnamed : recNat f.desc 8 1 < 16 ∨ recNat f.desc 8 1 = 0xFF) :
    s.injectCancel f = ((if recNat f.desc 8 1 = 0xFF then List.range 16 else [recNat f.desc 8 1]).foldl State.cancelPlan s).finish f 0xE0 [] :=
  if_neg (by omega)

/-- An injection of kind `kind` that is due and that no interlock stops: it fires in u, the plan having gone on to its next entry. -/
theorem next_injDue_of_free {s u : State} {k kind : Nat} {excess : Bool} {r : PlanRun} {e : List Byte} (hr : s.faults.plans.find? (·.plan == k) = some r)
    (he : e = s.planEntry k r.next ∧ entKind e = kind ∧ r.startAt + 1000 * (entOffset e) ≤ s.time.nowNs) (hu : u = s.planNext k)
    (hfree : u.injSkip kind (entA e) (entB e) excess = false) :
    (.next (s.injDue k kind excess) : Host.Outcome State Fault Refusal) = .next (((u.bumpSat fINJ_COUNTS_FIRED).injFire k r.next e).endPlan k (r.next + 1)) := by
  obtain ⟨rfl, hkind, hdue⟩ := he
  subst hu
  unfold State.injDue
  simp only [hr, hkind, Nat.not_lt.2 hdue, hfree, ne_eq, not_true_eq_false, or_self, Bool.false_eq_true, if_false]

/-- Settles O55: a command's plan is as the clause says; a due injection is the same argument for each of the seven kinds. -/
theorem loadTestUnitCompletes : Obligations.LoadTestUnitCompletes := by
  refine ⟨?_, ?_, ?_, ?_, ?_, ?_, ?_, ?_, ?_, ?_, ?_⟩
  · intro s sq data f u w d k hcmd hplan hread hgood hw
    obtain ⟨hk, hlt, hon, hidle⟩ := hplan
    exact next_ringCmd_eq hcmd (State.injectPlan_of_good hk hlt hon hidle hread hgood hw)
  · intro s sq f k hcmd hplan
    obtain ⟨hk, hlt, hon, hloaded, hidle⟩ := hplan
    exact next_ringCmd_eq hcmd (State.injectStart_of_loaded hk hlt hon hloaded hidle)
  · intro s sq f hcmd hnamed
    exact next_ringCmd_eq hcmd (State.injectCancel_of_named hnamed)
  · intro s port chan u hu
    subst hu
    rfl
  · intro s plan r e u hr he hu hfree
    exact next_injDue_of_free hr he hu hfree
  · intro s plan excess r e u hr he hu hfree
    exact next_injDue_of_free hr he hu hfree
  · intro s plan r e u hr he hu hfree
    exact next_injDue_of_free hr he hu hfree
  · intro s plan r e u hr he hu hfree
    exact next_injDue_of_free hr he hu hfree
  · intro s plan r e u hr he hu hfree
    exact next_injDue_of_free hr he hu hfree
  · intro s plan r e u hr he hu hfree
    exact next_injDue_of_free hr he hu hfree
  · intro s plan r e u hr he hu hfree
    exact next_injDue_of_free hr he hu hfree

end Sys2Proof.Machine

/-! SUPPORT. Requested resets, their end and their release (R661, R664, R665, R668, R669, R671, R688). That a request answers when the reset that serves it completes, and that a
released span is ready at once, are choices of the model (log entry 89). -/
namespace Sys2Proof.Machine
open Sys2Proof

/-- RESET_REQUEST at the level that byte 8 of the ring's next descriptor names. -/
theorem next_resetCmd_eq {s t : State} {n lvl : Nat} {f : InFlight} {k : State → InFlight → State} (hcmd : s.nextCmd n 0x70 = some f)
    (hlvl : recNat f.desc 8 1 = lvl) (e : k s f = t) : (.next (s.resetCmd n lvl k) : Host.Outcome State Fault Refusal) = .next t := by
  unfold State.resetCmd
  simp only [hcmd, hlvl, if_true, e]

/-- A request over a domain that no domain in recovery overlaps. -/
theorem State.requestReset_of_alone {s : State} {lvl : Nat} {d : Domain} (hold hbm : Bool) (f : InFlight)
    (halone : (s.openWindows.filter fun w => w.doms.any (·.overlaps d)).isEmpty = true) :
    s.requestReset lvl d hold hbm f = ((s.startFlight f lvl 0).openWindow lvl 0 [d]).startReset lvl [d] lvl hold hbm [f.no] false := if_pos halone

/-- A request at level 2 for a core, or for a station of it that has a number. -/
theorem State.resetL2_of_named {s : State} {f : InFlight} {d : Domain} (hcore : recNat f.desc 10 1 < 128) (hplain : recBits f.desc 9 1 1 0 = 0)
    (hd : recNat f.desc 11 1 = 0xFF ∧ d = .core (recNat f.desc 10 1) ∨
      recNat f.desc 11 1 ≠ 0xFF ∧ instNamed (recNat f.desc 11 1) = true ∧ d = .inst (recNat f.desc 10 1) (recNat f.desc 11 1)) :
    s.resetL2 f = s.requestReset 2 d false false f := by
  unfold State.resetL2
  rcases hd with ⟨hwhole, rfl⟩ | ⟨hinst, hnamed, rfl⟩
  · simp only [Nat.not_le.2 hcore, hplain, hwhole, ne_eq, not_true_eq_false, false_and, or_self, if_true, if_false]
  · simp only [Nat.not_le.2 hcore, hplain, hinst, hnamed, Bool.not_true, Bool.false_eq_true, ne_eq, not_true_eq_false, and_false, or_self, if_false]

theorem State.resetL3_of_span {s : State} {f : InFlight} (hspan : recNat f.desc 10 1 < 8) (hzero : recNat f.desc 11 1 = 0) :
    s.resetL3 f = s.requestReset 3 (.span (recNat f.desc 10 1)) (recBits f.desc 9 1 1 1 == 1) (recBits f.desc 9 1 0 0 == 1) f := if_neg (by omega)

/-- A request at level 4 while no hold at level 5 is in force. -/
theorem State.resetL4_of_free {s : State} {f : InFlight} (hcore : recNat f.desc 10 1 = 0) (hzero : recNat f.desc 11 1 = 0) (hfree : s.faults.l5Hold = false) :
    s.resetL4 f = s.requestReset 4 .device (recBits f.desc 9 1 1 1 == 1) (recBits f.desc 9 1 0 0 == 1) f :=
  (if_neg (by omega)).trans (if_neg (Bool.eq_false_iff.1 hfree))

theorem execResetComplete_of_entered {s : State} {ix : Fin 64} {r : ResetRun} (hr : s.faults.resets[ix.val]? = some r) (hentered : r.entered = true) :
    execResetComplete ix s = .next (s.completeReset r) := by
  unfold execResetComplete
  simp only [hr]
  exact next_if_pos hentered

/-- RESET_RELEASE of a span that is held. -/
theorem State.resetRelease_of_span {s : State} {f : InFlight} (hlvl : recNat f.desc 8 1 = 3) (hspan : recBits f.desc 10 1 7 0 < 8)
    (hheld : s.faults.heldSpans.contains (recBits f.desc 10 1 7 0) = true) :
    s.resetRelease f = State.finish (State.showReset (State.spanUp (s.setFaults { s.faults with
      heldSpans := s.faults.heldSpans.filter (· != recBits f.desc 10 1 7 0) }) (recBits f.desc 10 1 7 0))) f 0xE0 [] := by
  have hrange : ¬ (!decide (recNat f.desc 8 1 = 3 ∧ recBits f.desc 10 1 7 0 < 8 ∨ recNat f.desc 8 1 = 4 ∧ recBits f.desc 10 1 7 0 = 0)) = true := by
    rw [decide_eq_true (.inl ⟨hlvl, hspan⟩)]
    exact Bool.false_ne_true
  exact (if_neg hrange).trans ((if_pos hlvl).trans (if_pos hheld))

/-- Settles O56: no domain in recovery overlaps the one named, the reset has been entered, or the span is held. -/
theorem resetsComplete : Obligations.ResetsComplete := by
  refine ⟨?_, ?_, ?_, ?_, ?_, ?_⟩
  · intro s sq f d hcmd hfields hd halone
    obtain ⟨hlvl, hcore, hplain⟩ := hfields
    exact next_resetCmd_eq hcmd hlvl ((State.resetL2_of_named hcore hplain hd).trans (State.requestReset_of_alone _ _ f halone))
  · intro s sq f hcmd hfields halone
    obtain ⟨hlvl, hspan, hzero⟩ := hfields
    exact next_resetCmd_eq hcmd hlvl ((State.resetL3_of_span hspan hzero).trans (State.requestReset_of_alone _ _ f halone))
  · intro s sq f hcmd hfields hfree halone
    obtain ⟨hlvl, hcore, hzero⟩ := hfields
    exact next_resetCmd_eq hcmd hlvl ((State.resetL4_of_free hcore hzero hfree).trans (State.requestReset_of_alone _ _ f halone))
  · intro s ix r hr hentered
    exact execResetComplete_of_entered hr hentered
  · intro s
    rfl
  · intro s sq f hcmd hfields hheld
    exact next_ringCmd_eq hcmd (State.resetRelease_of_span hfields.1 hfields.2 hheld)

end Sys2Proof.Machine

/-! SUPPORT. Owner fuses, the debug ports, line keys and the power of cores (R696, R700, R704, R705, R708–R711, R713–R715, R720). That a stale token is refused before its
signatures are looked at, what the erasure takes, when LINE_KEY is allowed, and that CORE_POWER leaves a parked core as it is, are choices of the model (log entries 62 to 65). -/
namespace Sys2Proof.Machine
open Sys2Proof

/-! ### Fuses -/

/-- OWNER_BIND while the device is not released, with b the lowest free bank and the key k read in u. -/
theorem State.ownerBind_of_bank {s u : State} {data : Option (List Byte)} {f : InFlight} {b : Nat} {k : List Byte}
    (howned : s.isSet fSEC_STATE_OWNER_RELEASED = false) (hb : (List.range 4).find? (fun b => (aget s.sec.owners b).isNone) = some b)
    (hread : s.hostGet f (recNat f.desc 16 8) 96 data = (u, some k)) :
    s.ownerBind data f = (((u.setSec { u.sec with owners := aput u.sec.owners b (digest k) }).showOwner).secRec 6 b 0).finish f 0xF0 (leBytes 1 b) := by
  unfold State.ownerBind
  simp only [howned, hb, hread, Bool.false_eq_true, if_false]

theorem State.ownerRevoke_of_bank {s : State} {f : InFlight} {b : Nat} (howned : s.isSet fSEC_STATE_OWNER_RELEASED = false) (hb : s.sec.activeBank = some b) :
    s.ownerRevoke f = (((s.setSec { s.sec with revoked := insNat b s.sec.revoked }).showOwner).secRec 8 b 0).finish f 0xF0 (leBytes 1 b) := by
  unfold State.ownerRevoke
  simp only [howned, hb, Bool.false_eq_true, if_false]

/-- SVN_ADVANCE of the footing counter to v, below which no housekeeping core runs an image of its kind. -/
theorem State.svnAdvance_of_footing {s : State} {f : InFlight} {v : Nat} (hkind : recNat f.desc 8 1 = 1) (hv : v = recNat f.desc 9 1) (hmax : v ≤ 64)
    (hrise : s.getF fSEC_SVN_SVN_FOOTING ≤ v)
    (hrun : ((List.range 7).any fun k => s.hkState k == 2 && imgKind (s.hkCore k).image == 1 && decide ((s.hkCore k).svn < v)) = false) :
    s.svnAdvance f = (s.setF fSEC_SVN_SVN_FOOTING v).finish f 0xF0 (leBytes 1 v) := by
  subst hv
  unfold State.svnAdvance
  simp only [hkind, Nat.not_lt.2 hmax, Nat.not_lt.2 hrise, hrun, Nat.one_ne_zero, Nat.reduceLT, Bool.false_eq_true, or_self, if_true, if_false]

/-! ### The debug ports -/

/-- DEBUG_CHALLENGE while LOCKED or CHALLENGED, the nonce written to the host in u. -/
theorem State.debugChallenge_of_put {s u : State} {ok : Bool} {f : InFlight} (hstate : s.getF fDBG_STATE_STATE < 2)
    (hput : s.drew.hostPut f (recNat f.desc 16 8) (s.random 48 ++ deviceDigest) ok = (u, true)) :
    s.debugChallenge ok f = (((u.setSec { u.sec with nonce := some (s.random 48) }).setF fDBG_STATE_STATE 1).secRec 3 0 0).finish f 0xF0 [] := by
  unfold State.debugChallenge
  simp only [Nat.not_le.2 hstate, hput, if_false]

/-- DEBUG_UNLOCK with a well-formed token t, read in u, whose nonce is valid: its signatures decide. -/
theorem State.debugUnlock_of_fresh {s u : State} {token : Option (List Byte)} {ps : List (RingNo × Bool × Word)} {f : InFlight} {t : List Byte}
    (hstate : s.getF fDBG_STATE_STATE = 1) (hread : s.hostGet f (recNat f.desc 16 8) 416 token = (u, some t)) (hshape : tokenShape t = true)
    (hfresh : u.tokenStale t = false) :
    s.debugUnlock token ps f = if u.tokenSigned t then u.beginErase (recNat t 4 4) ps f else u.refuseToken 0xF2 f := by
  unfold State.debugUnlock
  cases hsigned : u.tokenSigned t <;>
    simp only [hstate, hread, hshape, hfresh, hsigned, ne_eq, not_true_eq_false, Bool.not_true, Bool.not_false, Bool.false_eq_true, if_true, if_false]

/-- DEBUG_UNLOCK with a well-formed token t, read in u, whose nonce is not valid. -/
theorem State.debugUnlock_of_stale {s u : State} {token : Option (List Byte)} {ps : List (RingNo × Bool × Word)} {f : InFlight} {t : List Byte}
    (hstate : s.getF fDBG_STATE_STATE = 1) (hread : s.hostGet f (recNat f.desc 16 8) 416 token = (u, some t)) (hshape : tokenShape t = true)
    (hstale : u.tokenStale t = true) : s.debugUnlock token ps f = u.refuseToken 0xF3 f := by
  unfold State.debugUnlock
  simp only [hstate, hread, hshape, hstale, ne_eq, not_true_eq_false, Bool.not_true, Bool.false_eq_true, if_true, if_false]

/-- The erasure is over, with no L4 in progress and no command waiting for it. -/
theorem execDebugEraseDone_of_unawaited {s : State} (hstate : s.getF fDBG_STATE_STATE = 2)
    (hover : s.faults.resets.any (fun r => decide (4 ≤ r.level)) = false) (hnone : s.sec.erasing = none) :
    execDebugEraseDone s = .next ((((s.eraseSrams).setSec { s.sec with opened := true, erasing := none, eraseKeys := [] }).setF fDBG_STATE_STATE 3).setF
      fDBG_STATE_SCOPE (s.sec.scope % 4)) := by
  unfold execDebugEraseDone
  simp only [hstate, hover, hnone, Option.bind_none, ne_eq, not_true_eq_false, Bool.false_eq_true, or_self, if_false]

/-! ### Line keys -/

/-- LINE_KEY for a whole bonded GLOBAL port whose peer takes line keys, the key k read in u. -/
theorem State.lineKey_of_bonded {s u : State} {data : Option (List Byte)} {f : InFlight} {p q : Nat} {k : List Byte} (hp : p = recNat f.desc 8 1) (hport : p < 34)
    (hwhole : recNat f.desc 9 1 = 0xFF) (hq : q = 0) (hbonded : (s.port p).split = false) (hid : recNat f.desc 10 1 ≠ 0) (htype : s.portType p = 2)
    (hpeer : (recNat (s.sub p q).peer 8 4).testBit 7 = true) (hread : s.hostGet f (recNat f.desc 24 8) 64 data = (u, some k)) :
    s.lineKey data f = (u.modSub p q fun v => { v with
      nextKey := some ⟨recNat f.desc 10 1, recNat f.desc 12 4, byteField k 0 32, byteField k 32 32, recNat f.desc 16 8⟩ }).finish f 0xF0 [] := by
  subst hp hq
  unfold State.lineKey
  simp only [Nat.not_le.2 hport, hwhole, hbonded, hid, htype, hpeer, hread, beq_self_eq_true, Bool.false_eq_true, ne_eq, not_true_eq_false, false_and, or_self,
    if_true, if_false]

theorem execLineKeyActivate_of_reached {s : State} {port : Port} {sub : Sub} {k : LineKey} (hk : (s.sub port.val sub.val).nextKey = some k)
    (hreached : noReached (s.sub port.val sub.val).nextNo k.activateAt = true) :
    execLineKeyActivate port sub s = .next ((s.setSub port.val sub.val { s.sub port.val sub.val with key := some k, nextKey := none }).showKey port.val) := by
  unfold execLineKeyActivate
  simp only [hk]
  exact next_if_pos hreached

/-! ### The power of cores -/

theorem State.corePower_of_inRange {s : State} {f : InFlight} {c v : Nat} (hc : c = recNat f.desc 8 1) (hv : v = recNat f.desc 9 1) (hcore : c < 128 ∨ c = 0xFF)
    (hdepth : v = 0 ∨ v = 2 ∨ v = 3) :
    s.corePower f = ((if c = 0xFF then List.range 128 else [c]).foldl (fun st k => st.modCore k fun x => { x with deepest := v }) s).finish f 0xF0 [] := by
  subst hc hv
  exact if_neg (by omega)

/-- A core that wakes from PARKED has kept its scratchpad. -/
theorem execCoreWakeDone_of_parked {s : State} {core : LCore} {t : Nat} (hwake : (s.coreSt core.val).waking = some t) (hparked : (s.coreSt core.val).power = 2) :
    execCoreWakeDone core s = .next ((s.modCore core.val fun v =>
      { v with power := 0, waking := none, usedAt := s.time.nowNs, usedCyc := s.cycOf core.val }).trace core.val
        { event := 0x0A, arg0 := 2, arg1 := s.time.nowNs - t }) := by
  unfold execCoreWakeDone
  simp only [hwake, hparked, Nat.lt_irrefl, Nat.reduceEqDiff, if_false]
  cases s.physOf core.val <;> rfl

/-- Settles O59: the fuses, the debug state, the port or the core is as the clause says, and a command's descriptor is the ring's next one with its fields in range. -/
theorem fusesDebugAndCorePower : Obligations.FusesDebugAndCorePower := by
  refine ⟨?_, ?_, ?_, ?_, ?_, ?_, ?_, ?_, ?_, ?_, ?_, ?_, ?_, ?_⟩
  · intro s sq data f b u k hcmd howned hb hread
    exact next_ringCmd_eq hcmd (State.ownerBind_of_bank howned hb hread)
  · intro s sq f b hcmd hbank
    exact next_ringCmd_eq hcmd (State.ownerRevoke_of_bank hbank.1 hbank.2)
  · intro s sq f hcmd
    exact next_ringCmd_eq hcmd rfl
  · intro s sq f v hcmd hfields hrun
    obtain ⟨hkind, hv, hmax, hrise⟩ := hfields
    exact next_ringCmd_eq hcmd (State.svnAdvance_of_footing hkind hv hmax hrise hrun)
  · intro s sq ok f u hcmd hstate hput
    exact next_ringCmd_eq hcmd (State.debugChallenge_of_put hstate hput)
  · intro s sq token ptrs f u t hcmd hstate hread htoken
    exact next_ringCmd_eq hcmd (State.debugUnlock_of_fresh hstate hread htoken.1 htoken.2)
  · intro s sq token ptrs f u t hcmd hstate hread htoken
    exact next_ringCmd_eq hcmd (State.debugUnlock_of_stale hstate hread htoken.1 htoken.2)
  · intro s t hover ht hnone
    exact ht ▸ execDebugEraseDone_of_unawaited hover.1 hover.2 hnone
  · intro s sq data f p q u k hcmd hfields hpeer hread
    obtain ⟨hp, hport, hwhole, hq, hbonded, hid⟩ := hfields
    exact next_ringCmd_eq hcmd (State.lineKey_of_bonded hp hport hwhole hq hbonded hid hpeer.1 hpeer.2 hread)
  · intro s port sub k hkey
    exact execLineKeyActivate_of_reached hkey.1 hkey.2
  · intro s sq f c v hcmd hfields
    obtain ⟨hc, hv, hcore, hdepth⟩ := hfields
    exact next_ringCmd_eq hcmd (State.corePower_of_inRange hc hv hcore hdepth)
  · intro s core hidle
    obtain ⟨hpower, hphys, hruns, hcyc⟩ := hidle
    exact next_if_pos ⟨hpower, hphys, Bool.eq_false_iff.1 hruns, hcyc⟩
  · intro s core hpark
    obtain ⟨hpower, hdeep, hused, hruns, hawaited⟩ := hpark
    exact next_if_pos ⟨hpower, hdeep, hused, Bool.eq_false_iff.1 hruns, Bool.eq_false_iff.1 hawaited⟩
  · intro s core t hwake
    exact execCoreWakeDone_of_parked hwake.1 hwake.2

end Sys2Proof.Machine
